-- ==== Sys2Proof/Word.lean ====
section
/-! DEFINITION. The word types of the model and the shape of its sparse stores (R7, R8). -/

namespace Sys2Proof

/-- One byte. -/
abbrev Byte := BitVec 8
/-- A 32-bit word. -/
abbrev W32 := BitVec 32
/-- A 64-bit word. -/
abbrev W64 := BitVec 64
/-- One 64-byte line, byte `i` in bits `8i+7 : 8i` (R8). -/
abbrev Line := BitVec 512
/-- The 1,024 data bytes of one row, byte `i` in bits `8i+7 : 8i`. -/
abbrev RowData := BitVec 8192

/-- A store of values by number. It is kept in one canonical form: keys strictly rising, no entry
equal to the default value, which is what an unlisted key reads as. -/
abbrev Sparse (α : Type) := List (Nat × α)

/-- Byte memory: address and byte pairs in the canonical form of `Sparse`. -/
abbrev Memory := Sparse Byte

/-- A core by cluster and logical number (R16). -/
structure CoreId where
  cluster : Fin 64
  logical : Fin 64
  deriving DecidableEq, Repr

/-- The flat number of a core, `64 × cluster + logical`. -/
def CoreId.idx (c : CoreId) : Nat := 64 * c.cluster.val + c.logical.val

end Sys2Proof
end

