-- ==== Sys2Proof/Machine/Types.lean ====
section
/-! DEFINITION. The data types of the deck (chapter 3), of messages and of the parts of the machine's state. -/

namespace Sys2Proof

/-! ### The deck, as its cards give it (Tables 3.1 to 3.14) -/

/-- Header fields of a deck that outlive verification (Table 3.1, R63, R64). -/
structure DeckId where
  deckId : W64
  serial : W32
  digest : BitVec 384
  keySlot : Nat
  deriving DecidableEq, Repr

/-- Core program card (Table 3.4). -/
structure ProgramCard where
  clusterMask : W64
  coreMask : W64
  plays : List (BitVec 128)
  descs : List (Nat × BitVec 1024)
  deriving DecidableEq, Repr

/-- Route entry (Table 3.5). -/
structure Route where
  route : Nat
  source : Nat
  dest : Nat
  order : Nat
  ringDir : Nat
  lane : Nat
  deriving DecidableEq, Repr

/-- Recovery class of a region (Table 3.6). -/
inductive RecClass where
  | none
  | source
  | recompute
  | replay
  deriving DecidableEq, Repr

/-- Region entry (Table 3.6). `owner` 255 is the module; `raw` is ATTR as the card holds it. -/
structure Region where
  region : Nat
  owner : Nat
  banked : Bool
  cls : RecClass
  hostShared : Bool
  scriptTarget : Bool
  base : Nat
  size : Nat
  srcKind : Nat
  srcModule : Nat
  srcRegion : Nat
  deriving DecidableEq, Repr

/-- Trick entry (Table 3.7); `masks` pairs a cluster with its logical-core mask. -/
structure TrickEntry where
  trick : Nat
  table : Nat
  spanning : Bool
  expected : Nat
  masks : List (Nat × W64)
  deriving DecidableEq, Repr

/-- Credit stream entry (Table 3.8). `kind` 0 on-die, 1 fabric producer here, 2 fabric consumer here. -/
structure StreamEntry where
  stream : Nat
  table : Nat
  kind : Nat
  producer : Nat
  consumer : Nat
  remote : Nat
  initial : Nat
  unitLog2 : Nat
  deriving DecidableEq, Repr

/-- One operation of a bank script (Table 8.4): OP, RA, RB, CHMASK, SLOTMASK, ROW_A, ROW_B, X. -/
structure ScriptOp where
  op : Nat
  ra : Nat
  rb : Nat
  chMask : Nat
  slotMask : Nat
  rowA : Nat
  rowB : Nat
  x : Nat
  deriving DecidableEq, Repr

/-- Bank script card (Table 3.9). -/
structure Script where
  script : Nat
  table : Nat
  regions : List Nat
  ops : List ScriptOp
  deriving DecidableEq, Repr

/-- Regulator entry (Table 3.10). -/
structure RegEntry where
  table : Nat
  resource : Nat
  refill : Nat
  depth : Nat
  deriving DecidableEq, Repr

/-- Table entry (Table 3.11). -/
structure TableEntry where
  table : Nat
  enabled : Bool
  trickBase : Nat
  trickCount : Nat
  chanBase : Nat
  chanCount : Nat
  sessBase : Nat
  sessCount : Nat
  clusterMask : W64
  deriving DecidableEq, Repr

/-- Round plan (Table 3.12). -/
structure RoundPlan where
  budget : Nat
  sessions : Nat
  batch : Nat
  thermalClass : Nat
  refreshAllow : Nat
  riders : Nat
  trumpInterval : Nat
  lapDeadline : Nat
  drafts : Nat
  prefetch : Nat
  deriving DecidableEq, Repr

/-- Spare policy (Table 3.13). -/
structure SparePolicy where
  windowPeriod : Nat
  windowBudget : Nat
  auto : Nat
  fuseMax : Nat
  deriving DecidableEq, Repr

/-- Fabric role (Table 3.14). `members` pairs a module index with its combine-tree parent. -/
structure FabricRole where
  group : W32
  dealer : Nat
  successor : Nat
  widen : Nat
  deepen : Nat
  roles : List Nat
  neighbours : List Nat
  members : List (Nat × Nat)
  deriving DecidableEq, Repr

/-- The selected cards of one verified deck. -/
structure Deck where
  id : DeckId
  programs : List ProgramCard
  routes : List Route
  regions : List Region
  tricks : List TrickEntry
  streams : List StreamEntry
  scripts : List Script
  regs : List RegEntry
  tables : List TableEntry
  plan : RoundPlan
  spare : SparePolicy
  role : FabricRole
  annotation : List Byte
  deriving DecidableEq, Repr

/-! ### Events and messages -/

/-- Detail of an event record (R641): a general detail (Table 20.4), a core fault (Table 4.17), a line
event (Table 12.4), a bank script fault (Table 8.10) or the TRAIN bodies of R642. -/
inductive Detail where
  | none
  | general (args32 : List W32) (args64 : List W64)
  | core (cluster logical physical table play number : Nat) (iteration : W32) (address : W64)
  | line (stack channel slot cls row lines region : Nat) (tables : W64) (detector : Nat)
  | script (table stack script op channel slot ticket : Nat) (row : W32) (cluster logical : Nat)
  | train (port : Nat) (own peer : List Byte)
  /-- General Media Event Record: media ECC error or data path error, transaction type, component (Table 15.12). -/
  | media (dpa : Nat) (dataPath : Bool) (transaction stack channel : Nat)
  /-- DRAM Event Record of a spared row (Table 15.12). -/
  | dram (dpa channel bank row : Nat)
  /-- Memory Module Event Record of a change of temperature (R545). -/
  | memModule (temp : BitVec 16)
  deriving DecidableEq, Repr

/-- One event record (Table 15.11): code word, sequence number, die, trick epoch, detail. -/
structure EventRec where
  code : W32
  seq : W32
  die : Nat
  epoch : W32
  detail : Detail
  deriving DecidableEq, Repr

/-- One of the four CXL event logs (R525). -/
structure EventLog where
  /-- Records cleared so far, from which the handles of those left follow. -/
  cleared : Nat
  records : List EventRec
  overflow : Bool
  overflowCount : Nat
  deriving DecidableEq, Repr

/-- A TRAIN body (Table 11.3). -/
structure TrainBody where
  majorMin : Nat
  majorMax : Nat
  minorMax : Nat
  arch : Nat
  module : Nat
  port : Nat
  role : Nat
  group : W32
  deckSerial : W32
  deriving DecidableEq, Repr

/-- An entry of a serving message (Table 13.14). -/
structure ServEntry where
  session : W64
  position : W32
  slot : Nat
  kind : Nat
  flags : BitVec 8
  count : Nat
  newPage : W32
  deriving DecidableEq, Repr

/-- A serving message (Tables 13.13 and 14.7). `tokens` are the prompt tokens of a PREFILL_JOB part (R447). -/
structure ServMsg where
  kind : Nat
  part : Nat
  parts : Nat
  table : Nat
  round : W32
  gen : BitVec 16
  entries : List ServEntry
  tokens : List W32
  deriving DecidableEq, Repr

/-- A group message (Table 17.3). `pairs` are trick slots with their EPOCH. -/
structure GroupMsg where
  kind : Nat
  part : Nat
  parts : Nat
  gen : BitVec 16
  group : W32
  arg : W32
  deckId : W64
  deckSerial : W32
  pairs : List (Nat × W32)
  deriving DecidableEq, Repr

/-- A member's answer to the gather of step 2 of Table 3.19. -/
structure SwitchState where
  armed : Bool
  id : DeckId
  deriving DecidableEq, Repr

/-- A peer's answer about a source region (R393): its BASE, SIZE, class and owner table. -/
structure DirAnswer where
  base : Nat
  size : Nat
  cls : RecClass
  owner : Nat
  deriving DecidableEq, Repr

/-- Fixed fields of a frame header (Table 11.7): DEST, SRC, GEN, SCOPE and the POISON bit. -/
structure FrameHdr where
  dest : Nat
  src : Nat
  gen : BitVec 16
  table : Nat
  poison : Bool
  /-- The class in which the frame came. -/
  cls : Nat := 0
  /-- The poison mask of a frame that carries no data (R361). -/
  mask : List Bool := []
  deriving DecidableEq, Repr

/-- The body of a frame by type (Table 11.8), with the management messages the module builds itself. -/
inductive FrameBody where
  | push (stream offset : Nat) (data : List Byte) (units : Nat) (poisonMask : List Bool)
  | pushAck (stream units : Nat)
  | credit (stream count : Nat)
  | streamStop (stream : Nat) (code : W32)
  | tallyMark (stream : Nat) (count epoch : W32)
  | memRead (tag address length : Nat)
  | memData (tag status : Nat) (data : List Byte) (poisonMask : List Bool)
  | memWrite (tag address : Nat) (data : List Byte) (poisonMask : List Bool)
  | memAck (tag status : Nat)
  | trickArrive (slot : Nat) (group epoch : W32)
  | trickRelease (slot : Nat) (group epoch : W32)
  | roundMark (group round : W32)
  | abortReq (group code : W32)
  | abort (origin : Nat) (group code : W32)
  | switchAnnounce (group serial : W32)
  | switchCancel (group code : W32)
  | mgmt (packet : List Byte)
  | quarClear (port target : Nat)
  | train (body : TrainBody)
  | nack (reason : Nat) (header : List Byte)
  | serving (m : ServMsg)
  | group (m : GroupMsg)
  | switchGather
  | switchState (st : SwitchState)
  | directoryAsk (region : Nat)
  | directoryAnswer (region : Nat) (answer : Option DirAnswer)
  /-- The body of a frame that passes through, as it came. -/
  | raw (type : Nat) (arg : W32) (body : List Byte)
  deriving DecidableEq, Repr

/-- A frame (R360). -/
structure Frame where
  hdr : FrameHdr
  body : FrameBody
  deriving DecidableEq, Repr

/-- A message the CXL port sends toward the host or the slow tier (Tables 15.5, 15.7; R427, R518). -/
inductive HostMsg where
  | rdShared (addr : W64)
  | rdCurr (addr : W64) (len : Nat)
  | wrCur (addr : W64) (data : List Byte)
  | cleanEvict (addr : W64)
  | snpRsp (hit : Bool) (shared : Bool)
  | msix (vector : Nat)
  | biSnpInv (dpa : Nat)
  | memRsp (hpa : Nat) (data : Line) (poison : Bool)
  | cmp (hpa : Nat)
  | ioRead (addr : W64) (len : Nat)
  | uioRead (addr : W64) (len : Nat)
  | uioWrite (addr : W64) (data : List Byte) (poison : BitVec 8)
  | completerAbort (offset : Nat)
  | unsupportedRequest
  | gpfAck (phase : Nat)
  /-- An error reported through AER, by the kind of its violation. -/
  | aer (kind : Nat)
  | spdm (code : Nat) (payload : List Byte)
  deriving DecidableEq, Repr

/-! ### Parts of the state -/

/-- Whether a core issues plays. -/
inductive RunState where
  | halted
  | running
  | faulted
  deriving DecidableEq, Repr

/-- What the play at the head of a core waits for (R144, R303, R305, R317, R319, R334, R394, R534). -/
inductive Wait where
  | none
  | trickIssue (trick : Nat)
  | trickRelease (trick : Nat)
  | credits (stream : Nat)
  | ticket (n : Nat)
  | performed
  | line (line : Nat)
  | quadrant (q : Nat)
  | hostCopy (line : Nat)
  | regulator (pair : Nat)
  deriving DecidableEq, Repr

/-- One level of a loop stack (R148): first play of the body, its length, COUNT and the iteration index. -/
structure LoopLevel where
  first : Nat
  body : Nat
  count : Nat
  iter : Nat
  deriving DecidableEq, Repr

/-- An accumulator tile (Table 4.1): its kind, its elements and their poison by `64 × m + n`. -/
structure Tile where
  isInt : Bool
  elems : Sparse W32
  poison : Sparse Bool
  deriving DecidableEq, Repr

/-- A tile of FP32 zeros. -/
def Tile.zero : Tile := { isInt := false, elems := [], poison := [] }

/-- A bank ticket of a core (R140, R142). -/
inductive Ticket where
  | free
  | busy (stack : Nat) (gen : BitVec 8)
  | ended (status : Nat)
  deriving DecidableEq, Repr

/-- A line held by a kitty or by a read cache: data and one poison bit per 32-bit word (Table 12.5). -/
structure CLine where
  data : Line
  poison : BitVec 16
  dirty : Bool
  deriving DecidableEq, Repr

/-- The detail a faulted core reports (Table 4.17). -/
structure CoreFault where
  code : W32
  play : Nat
  number : Nat
  iteration : W32
  address : W64
  deriving DecidableEq, Repr

/-- One logical core (Table 4.1). Every list-valued field is sparse: registers, flags, slots, tiles and bytes
not listed are zero, and read-cache lines not listed are absent. -/
structure Core where
  run : RunState
  wait : Wait
  pc : Nat
  progLen : Nat
  prog : Sparse (BitVec 128)
  loops : List LoopLevel
  sregs : Sparse W64
  spoison : Sparse (BitVec 2)
  preds : BitVec 8
  predPoison : BitVec 8
  descs : Sparse (BitVec 1024)
  tiles : Sparse Tile
  tickets : Sparse Ticket
  ticketGen : BitVec 8
  scratch : Memory
  scratchPoison : Sparse Bool
  rcache : List (Nat × CLine)
  members : Sparse (Option W32)
  tpwPlayed : Bool
  unperformed : Nat
  fault : Option CoreFault
  deriving DecidableEq, Repr

/-- A core with no program (R73): halted, everything zero. -/
def Core.empty : Core :=
  { run := .halted, wait := .none, pc := 0, progLen := 0, prog := [], loops := [], sregs := [], spoison := [],
    preds := 0, predPoison := 0, descs := [], tiles := [], tickets := [], ticketGen := 0, scratch := [],
    scratchPoison := [], rcache := [], members := [], tpwPlayed := false, unperformed := 0, fault := none }

/-- A trick slot in its home cluster's sync hub (Table 9.1, Table 9.6). -/
structure Trick where
  epoch : W32
  arrived : Nat
  expected : Nat
  children : Nat
  childArrived : Nat
  valid : Bool
  spanning : Bool
  table : Nat
  sent : Bool
  deriving DecidableEq, Repr

/-- A trick slot no deck defines, at power-up (R301). -/
def Trick.empty : Trick :=
  { epoch := 0, arrived := 0, expected := 0, children := 0, childArrived := 0, valid := false, spanning := false,
    table := 0, sent := false }

/-- Both ends of a credit stream as far as this module holds them (Table 9.3, Table 9.7). -/
structure Stream where
  prodValid : Bool
  consValid : Bool
  stopped : Bool
  avail : Nat
  taken : Nat
  delivered : Nat
  held : Nat
  ptally : W32
  ctally : W32
  /-- Tally marks sent and not yet at the consumer, on one module: the stream's pushes that are still ahead, the epoch, the count. -/
  marksAhead : List (Nat × W32 × W32)
  /-- Marks at the consumer, in order: the epoch and the count. -/
  marks : List (W32 × W32)
  /-- Released epochs whose mark has not been applied, in order. -/
  rels : List W32
  deriving DecidableEq, Repr

/-- A stream no deck defines. -/
def Stream.empty : Stream :=
  { prodValid := false, consValid := false, stopped := false, avail := 0, taken := 0, delivered := 0, held := 0,
    ptally := 0, ctally := 0, marksAhead := [], marks := [], rels := [] }

/-- Tallies of one table (Table 9.8). -/
structure TableTally where
  tokProd : W64
  tokCons : W64
  reqProd : W64
  reqCons : W64
  /-- The mark of the dealer's own tallies: epoch, TOKENS count, REQUESTS count (R325, R453). -/
  mark : Option (W32 × W64 × W64)
  drifts : Nat
  lastEpoch : W32
  deriving DecidableEq, Repr

/-- Tallies at power-up. -/
def TableTally.zero : TableTally :=
  { tokProd := 0, tokCons := 0, reqProd := 0, reqCons := 0, mark := none, drifts := 0, lastEpoch := 0 }

/-- A push whose data has not landed yet (R318): bytes by scratch offset with their poison. -/
structure PushFlight where
  stream : Nat
  producer : Nat
  units : Nat
  bytes : List (Nat × Byte × Bool)
  gen : BitVec 16
  deriving DecidableEq, Repr

/-- An activation latch (Table 8.1, R253, R254): 2,048 value bytes, 64 scale bytes, length, VALID; `e5` tells FP8 E5M2
from E4M3, `raw` marks a UINT8 vector, `poison` lists the elements that poisoned words gave. -/
structure Latch where
  values : Memory
  scales : Memory
  length : Nat
  valid : Bool
  e5 : Bool
  raw : Bool
  poison : List Nat
  deriving DecidableEq, Repr

/-- A latch at power-up of its near-bank half (R257). -/
def Latch.empty : Latch :=
  { values := [], scales := [], length := 0, valid := false, e5 := false, raw := false, poison := [] }

/-- A BLATCH chunk on its way to one bank (R253, R256); the chunks of one BLATCH share its number. -/
structure LatchFlight where
  id : Nat
  core : Nat
  stack : Nat
  bank : Nat
  latch : Nat
  card : Script
  param : W64
  content : Latch
  deriving DecidableEq, Repr

/-- A score unit's buffer and running statistics for one vector (R272). `defined` is false after an abort, a fault
or a reset of the near-bank half (R274). -/
structure ScoreUnit where
  scores : List (W32 × Bool)
  m : W32
  sum : W32
  poison : Bool
  defined : Bool
  deriving DecidableEq, Repr

/-- A score unit that has run no SCORE. -/
def ScoreUnit.empty : ScoreUnit := { scores := [], m := 0, sum := 0, poison := false, defined := false }

/-- An early open, for a stream of a script (R258). -/
structure EarlyOpen where
  bank : Nat
  script : Nat
  latch : Nat
  rows : List Nat
  deriving DecidableEq, Repr

/-- One bank's part of the running operation of a script: whether it has its permit, whether a row operation is in
progress, steps done, rows read or received, and the line a source repair holds it at. -/
structure BankRun where
  bank : Nat
  started : Bool
  inRow : Bool
  done : Nat
  rows : List (Nat × RowData × BitVec 16)
  held : Option Nat
  ended : Bool
  deriving DecidableEq, Repr

/-- A script under way on a stack, with the card it was issued from (R263, R292 to R296). -/
structure ScriptRun where
  core : Nat
  ticket : Nat
  gen : BitVec 8
  card : Script
  rowAdd : Nat
  dout : Nat
  doutDesc : BitVec 1024
  opIdx : Nat
  active : Bool
  banks : List BankRun
  cursor : Nat
  results : List (Nat × Nat × W32 × Bool)
  abort : Bool
  faulted : Bool
  deriving DecidableEq, Repr

/-- A row waiting for the exchange bus (R279, R281). -/
structure BusXfer where
  channel : Nat
  core : Nat
  ticket : Nat
  gen : BitVec 8
  dests : List (Nat × Nat)
  data : RowData
  poison : BitVec 16
  deriving DecidableEq, Repr

/-- Who waits for a write to be performed: no one, a host write by its address, a fabric write by its sender, tag and generation, or the
firmware, which then writes the READY word of a round area (R363, R437, R505). -/
inductive Sender where
  | none
  | host (hpa : Nat)
  | fabric (src tag : Nat) (gen : BitVec 16)
  | area (table ready : Nat)
  deriving DecidableEq, Repr

/-- A line write, and an entry of a write-combining buffer (R222). `poison` marks the poisoned words of a write; an entry keeps one flag,
every bit or none. -/
structure WcbEntry where
  line : Nat
  data : Line
  mask : BitVec 64
  poison : BitVec 16
  sender : Sender
  deriving DecidableEq, Repr

/-- Who waits for a persistent line (R394). -/
inductive Consumer where
  | core (n : Nat)
  | bank (ticketCore ticket bank : Nat)
  | host (hpa : Nat)
  | fabric (src tag addr length : Nat) (gen : BitVec 16)
  | merge (e : WcbEntry)
  | firmware
  deriving DecidableEq, Repr

/-- An access at a memory channel controller that waits to be served (R218, R223, R287). -/
inductive CtlAccess where
  | write (e : WcbEntry)
  | read (who : Consumer) (line disturbed : Nat)
  deriving DecidableEq, Repr

/-- The line of an access. -/
def CtlAccess.line : CtlAccess → Nat
  | .write e => e.line
  | .read _ l _ => l

/-- A write into the arrays outside the buffers that the write window holds (R236): a line written back poisoned, a line rewritten
with its poison set, the rewrite of a repair or of a later fetch, the end of a repair without a source, and a soft spare. -/
inductive HeldWrite where
  | poison (line detector : Nat)
  | inject (line : Nat)
  | repair (line : Nat) (data : Line) (fails : Nat)
  | refetch (line : Nat) (data : Line) (fails : Nat)
  | unreach (line : Nat)
  | spare (bank row mask : Nat)
  deriving DecidableEq, Repr

/-- The line of a held write into the arrays; a soft spare has none. -/
def HeldWrite.line : HeldWrite → Option Nat
  | .poison l _ => some l
  | .inject l => some l
  | .repair l _ _ => some l
  | .refetch l _ _ => some l
  | .unreach l => some l
  | .spare _ _ _ => none

/-- A transfer that charges a regulator (Table 7.10) and waits for its level (R242). -/
inductive Xfer where
  | lineRead (who : Consumer) (addr disturbed : Nat)
  | lineWrite (e : WcbEntry)
  | latch (f : LatchFlight)
  | result (stack core ticket : Nat)
  | frame (f : Frame)
  | host (m : HostMsg)
  | core (n : Nat)
  deriving DecidableEq, Repr

/-- A line under source repair (R394 to R398), with the place, the region and, at a peer, the base of the source that it started with. `addr` is the address
that is fetched at the source; `writes` are merged after the repair, in order. -/
structure Repair where
  line : Nat
  bank : Nat
  row : Nat
  pos : Nat
  region : Option Region
  base : Option Nat
  fetching : Bool
  tag : Nat
  gen : BitVec 16
  addr : Nat
  consumers : List Consumer
  writes : List WcbEntry
  deriving DecidableEq, Repr

/-- An entry of the pending-spare list (R409). -/
structure SpareEntry where
  bank : Nat
  row : Nat
  lines : BitVec 16
  deriving DecidableEq, Repr

/-- The scrubber of one stack (R403 to R408, Table 12.11). -/
structure Scrub where
  running : Bool
  trump : Bool
  late : Bool
  laps : Nat
  read : Nat
  total : Nat
  cursors : Sparse Nat
  active : List Nat
  owed : List Nat
  start : Nat
  lastLap : Nat
  poisoned : Nat
  deriving DecidableEq, Repr

/-- A stopped scrubber. -/
def Scrub.idle : Scrub :=
  { running := false, trump := false, late := false, laps := 0, read := 0, total := 0, cursors := [], active := [],
    owed := [], start := 0, lastLap := 0, poisoned := 0 }

/-- One stack's base die and controllers (chapters 7, 8 and 12). -/
structure Stack where
  meter : BitVec 56
  ringOsc : Bool
  refreshStep : Nat
  coolSince : Option Nat
  overClass : Bool
  writeHold : Bool
  selfRefresh : Bool
  refused : List Nat
  refusedFull : Bool
  wcb : List WcbEntry
  queue : List CtlAccess
  heldWrites : List HeldWrite
  draining : List Nat
  resetting : Bool
  undrained : List Nat
  openRows : Sparse (Option Nat)
  refreshDue : List Nat
  refreshing : List Nat
  permits : Nat
  permitWait : List ((Nat × Nat × BitVec 8) × Nat)
  earlyOpens : List EarlyOpen
  latches : Sparse Latch
  scores : Sparse ScoreUnit
  runs : List ScriptRun
  busNow : Option BusXfer
  busLast : Nat
  bus : List BusXfer
  lateResults : List (Nat × Nat × Nat)
  lateDrops : Nat
  persistent : Nat
  transient : Nat
  logSecond : Nat
  logged : Nat
  suppressed : Bool
  scrub : Scrub
  pendingSpare : List SpareEntry
  spareFullLogged : Bool
  exhausted : List Nat
  spareRows : Sparse Nat
  sparesUsed : Sparse Nat
  softRows : List (Nat × Nat)
  columns : Sparse Nat
  fused : Nat
  repairs : List Repair
  repairQueue : List Repair
  deriving DecidableEq, Repr

/-- A stack at power-up. -/
def Stack.empty : Stack :=
  { meter := 0, ringOsc := false, refreshStep := 0, coolSince := none, overClass := false, writeHold := false,
    selfRefresh := false, refused := [], refusedFull := false, wcb := [], queue := [], heldWrites := [], draining := [],
    resetting := false, undrained := [], openRows := [], refreshDue := [], refreshing := [], permits := 0,
    permitWait := [], earlyOpens := [], latches := [], scores := [], runs := [], busNow := none, busLast := 31, bus := [],
    lateResults := [], lateDrops := 0, persistent := 0, transient := 0, logSecond := 0, logged := 0, suppressed := false, scrub := Scrub.idle,
    pendingSpare := [], spareFullLogged := false, exhausted := [], spareRows := [], sparesUsed := [],
    softRows := [], columns := [], fused := 0, repairs := [], repairQueue := [] }

/-- A regulator (Tables 7.11 and 7.12) with the change that waits for the next local microsecond (R246). -/
structure Regulator where
  enable : Bool
  refill : W32
  depth : W32
  level : Int
  rejected : Bool
  pend : Option (Bool × W32 × W32)
  deriving DecidableEq, Repr

/-- A regulator at power-up. -/
def Regulator.off : Regulator :=
  { enable := false, refill := 0, depth := 0, level := 0, rejected := false, pend := none }

/-- State of a Weazen port (Table 11.14). -/
inductive PortState where
  | off
  | training
  | mgmtOnly
  | active
  | quarantined
  | retired
  | failed
  | incompatible
  deriving DecidableEq, Repr

/-- A flit kept in a retain buffer (R355): its SEQ, its payload and FIRST, the credits it returns, the frame that starts in it with its
class, and how often its replay has failed. -/
structure RetFlit where
  seq : BitVec 10
  payload : List Byte
  first : Nat
  credit : Nat × Nat
  frames : List (Nat × Frame)
  replays : Nat
  deriving DecidableEq, Repr

/-- A frame that waits to leave by a port: its class, the frame, and for one that passes through the ingress port and the receive buffer
that it holds there (R358). -/
structure TxFrame where
  cls : Nat
  frame : Frame
  src : Option (Nat × Nat)
  deriving DecidableEq, Repr

/-- One Weazen port (chapter 11). `awayGen` is the generation in which a port that was quarantined still carries no routes (R377);
`waitTx` holds the frames that wait for credits. Credits and buffers are counted by lane + 4 × class: `credits` what this transmitter has
used, `rxHeld` what the far end has used here, `rxOwed` what is free again and not yet returned. `rxPart` is the frame under assembly,
`rxSkip` tells that the receiver looks for the next FIRST (R375), `rxWait` that it discards until a replay, `nakDue` and `ackDue` that the
next flit has news for the far end (R356). -/
structure Port where
  state : PortState
  role : Nat
  cable : Bool
  step : Nat
  attempts : Nat
  peer : Option TrainBody
  verMajor : Nat
  verMinor : Nat
  rxNext : BitVec 10
  rxWait : Bool
  nakDue : Bool
  ackDue : Bool
  rxPart : List Byte
  rxSkip : Bool
  rxHeld : Sparse Nat
  rxOwed : Sparse Nat
  txNext : BitVec 10
  retain : List RetFlit
  credits : Sparse Nat
  violations : Nat
  replays : Nat
  corrected : Nat
  secViol : Sparse Nat
  lastSecond : Nat
  nacks : Nat
  quarDrops : Nat
  poisonDrops : Nat
  recheckDown : Bool
  awayGen : Option (BitVec 16)
  waitTx : List TxFrame
  deriving DecidableEq, Repr

/-- A port at power-up. -/
def Port.off : Port :=
  { state := .off, role := 0, cable := false, step := 0, attempts := 0, peer := none, verMajor := 0, verMinor := 0,
    rxNext := 0, rxWait := false, nakDue := false, ackDue := false, rxPart := [], rxSkip := false, rxHeld := [], rxOwed := [], txNext := 0, retain := [], credits := [], violations := 0, replays := 0,
    corrected := 0, secViol := [], lastSecond := 0, nacks := 0, quarDrops := 0, poisonDrops := 0, recheckDown := false, awayGen := none, waitTx := [] }

/-- An on-die or die-to-die path (Table 12.1, R381 to R385): failures of the transfer under replay, lanes steered and fused,
spare lanes left (unset: the count of Table 12.1), whether it has failed. -/
structure Path where
  /-- Transfers that the sender retains, the failed one first; nothing is retained while every transfer has been accepted. -/
  retained : List (List W32)
  /-- The words of the last transfer accepted. -/
  last : List W32
  /-- Fourth failures of a path inside a core. -/
  strikes : Nat
  failures : Nat
  steered : List Nat
  fusedLanes : List Nat
  spares : Option Nat
  failed : Bool
  deriving DecidableEq, Repr

/-- A path that has met no failure. -/
def Path.clean : Path := { retained := [], last := [], strikes := 0, failures := 0, steered := [], fusedLanes := [], spares := none, failed := false }

/-- State of a deck slot or firmware slot of the configuration store (R649, R558). -/
inductive Mark where
  | empty
  | active
  | previous
  deriving DecidableEq, Repr

/-- The staging state (Table 3.20). -/
inductive StageState where
  | empty
  | staging
  | staged
  | verifying
  | verified
  | arming
  | armed
  | switching
  deriving DecidableEq, Repr

/-- Progress of the live switch on this module (Table 3.19). -/
inductive SwitchPhase where
  | none
  | gathering
  | announced
  | played
  | loading
  | replayed
  | marking
  deriving DecidableEq, Repr

/-- The deck loader and the configuration store (chapter 3). -/
structure Loader where
  stage : StageState
  stageSlot : Nat
  fetchAddr : W64
  fetchLen : Nat
  fetched : Nat
  slot0 : List Byte
  slot1 : List Byte
  mark0 : Mark
  mark1 : Mark
  skipped : Nat
  skipLogged : List Nat
  lastFault : W32
  faultOffset : W32
  index : Option Nat
  storedIndex : Option Nat
  staged : Option Deck
  armed : Option Deck
  running : Option Deck
  runningSlot : Nat
  phase : SwitchPhase
  gathered : List (Nat × SwitchState)
  alone : Bool
  dropArmed : Bool
  previousId : W64
  poolFill : Bool
  fillFrames : List Nat
  /-- First line and count of lines of the load image that was written last, and of the running deck's (R90). -/
  newImage : Nat × Nat
  image : Nat × Nat
  deriving DecidableEq, Repr

/-- The loader of a module whose store has never held a deck. -/
def Loader.empty : Loader :=
  { stage := .empty, stageSlot := 0, fetchAddr := 0, fetchLen := 0, fetched := 0, slot0 := [], slot1 := [],
    mark0 := .empty, mark1 := .empty, skipped := 0, skipLogged := [], lastFault := 0, faultOffset := 0, index := none,
    storedIndex := none, staged := none, armed := none, running := none, runningSlot := 0, phase := .none,
    gathered := [], alone := false, dropArmed := false, previousId := 0, poolFill := false, fillFrames := [],
    newImage := (0, 0), image := (0, 0) }

/-- A completion entry (Table 13.7). -/
structure Completion where
  tag : W32
  kind : Nat
  status : Nat
  tokens : List W32
  position : W32
  deriving DecidableEq, Repr

/-- State of a channel (Table 13.2). -/
inductive ChanState where
  | free
  | opened
  | suspended
  | closing
  deriving DecidableEq, Repr

/-- A channel (Tables 13.1, 13.4, 13.5, 13.16, 15.8). -/
structure Channel where
  state : ChanState
  gen : BitVec 12
  table : Nat
  sqLog2 : Nat
  cqLog2 : Nat
  vector : Nat
  sqBase : W64
  cqBase : W64
  watch : W64
  sqRead : W32
  sqHead : W32
  cqRead : W32
  cqWrite : W32
  gap : W32
  gapTags : List (W32 × W32)
  backlog : List Completion
  unsent : List Completion
  held : Bool
  wakePending : Bool
  wakes : Nat
  overrun : Bool
  destroying : Bool
  notify : Bool
  doneTags : List W32
  deriving DecidableEq, Repr

/-- A channel index at power-up (R418: generation 1). -/
def Channel.free : Channel :=
  { state := .free, gen := 1, table := 0, sqLog2 := 0, cqLog2 := 0, vector := 0, sqBase := 0, cqBase := 0, watch := 0,
    sqRead := 0, sqHead := 0, cqRead := 0, cqWrite := 0, gap := 0, gapTags := [], backlog := [], unsent := [],
    held := false, wakePending := false, wakes := 0, overrun := false, destroying := false, notify := false, doneTags := [] }

/-- State of a session (Table 13.12). -/
inductive SessState where
  | free
  | idle
  | running
  | paused
  | shadow
  deriving DecidableEq, Repr

/-- What a session's running request does (Tables 13.8 and 13.10). -/
inductive ReqPhase where
  | none
  | queued
  | prefill
  | decode
  | pausing
  | resuming
  | shipped
  deriving DecidableEq, Repr

/-- A session slot (Table 13.12, R431) with the request it runs. `gen` is the slot's generation. -/
structure Session where
  gen : BitVec 22
  table : Nat
  chan : W32
  state : SessState
  folds : Nat
  position : W32
  left : W32
  tag : W32
  prefillLeft : W32
  key : W64
  param : W64
  prompt : List W32
  pages : List Nat
  arrival : Nat
  phase : ReqPhase
  append : Bool
  aborting : Bool
  draft : List W32
  ttl : Nat
  ttlStart : Nat
  fetchAddr : W64
  named : Bool
  reqChan : W32
  shipping : Bool
  deriving DecidableEq, Repr

/-- A session slot at power-up (R431: generation 1). -/
def Session.free : Session :=
  { gen := 1, table := 0, chan := 0, state := .free, folds := 0, position := 0, left := 0, tag := 0, prefillLeft := 0,
    key := 0, param := 0, prompt := [], pages := [], arrival := 0, phase := .none, append := false, aborting := false,
    draft := [], ttl := 0, ttlStart := 0, fetchAddr := 0, named := false, reqChan := 0, shipping := false }

/-- One slot of a round (Tables 13.14 and 13.15). -/
structure RoundSlot where
  slot : Nat
  session : W64
  position : W32
  kind : Nat
  mandatory : Bool
  newSession : Bool
  close : Bool
  count : Nat
  newPage : W32
  pages : List Nat
  tokens : List W32
  fold : Bool
  status : Nat
  deriving DecidableEq, Repr

/-- What a table's round holds on this module (R26 to R28, R435 to R446). -/
structure RoundState where
  isOpen : Bool
  round : W32
  heldMark : Option W32
  heldAt : Nat
  heldExpired : Bool
  parts : List ServMsg
  written : Bool
  slots : List RoundSlot
  verdictDue : Bool
  startMeter : Nat
  expired : Bool
  reports : List (Nat × ServMsg)
  verdicts : List ServEntry
  closes : List W64
  closesSent : List W64
  reported : Bool
  again : Bool
  reportsLost : Bool
  poisonReplay : Bool
  overrunLogged : Option Nat
  deriving DecidableEq, Repr

/-- A table with no round yet. -/
def RoundState.idle : RoundState :=
  { isOpen := false, round := 0, heldMark := none, heldAt := 0, heldExpired := false, parts := [], written := false, slots := [],
    verdictDue := false, startMeter := 0, expired := false, reports := [], verdicts := [], reported := false, closes := [], closesSent := [], again := false,
    reportsLost := false, poisonReplay := false,
    overrunLogged := none }

/-- Registers of the TBL block (Table 13.17) and the spill window of a table (R478). -/
structure TableRegs where
  enabled : Bool
  disabling : Bool
  rounds : W32
  overruns : Nat
  folds : Nat
  promotions : Nat
  spillWindow : Option (Nat × Nat × Nat)
  deriving DecidableEq, Repr

/-- A table before any deck. -/
def TableRegs.off : TableRegs :=
  { enabled := false, disabling := false, rounds := 0, overruns := 0, folds := 0, promotions := 0, spillWindow := none }

/-- STATE of a page or tree node (Table 14.4). -/
inductive PageState where
  | free
  | resident
  | spilling
  | spilled
  | prefetching
  | recomputing
  deriving DecidableEq, Repr

/-- What the dealer keeps of a page: owner table, state, holders, spill slot, last use, whether it is entered in the prefix tree, and there
its node index, the next node of its bucket's chain, its parent page and key (Table 14.4, R467, R468). -/
structure Page where
  state : PageState
  prev : PageState
  table : Nat
  refs : Nat
  spill : Option Nat
  last : W32
  shared : Bool
  node : Nat
  next : Option Nat
  key : W64
  parentKey : W64
  parent : Option Nat
  tokens : List W32
  origin : Nat
  first : W32
  fetchFails : Nat
  dirtyFree : Bool
  spillReplies : List (Nat × Bool)
  deriving DecidableEq, Repr

/-- A free page. -/
def Page.free : Page :=
  { state := .free, prev := .free, table := 0, refs := 0, spill := none, last := 0, shared := false, node := 0, next := none, key := 0,
    parentKey := 0, parent := none, tokens := [], origin := 0, first := 0, fetchFails := 0, dirtyFree := false,
    spillReplies := [] }

/-- A pin slot (R473, Table 14.5). -/
structure Pin where
  gen : BitVec 24
  used : Bool
  table : Nat
  pages : List Nat
  tokens : List W32
  committed : Nat
  ready : Bool
  deriving DecidableEq, Repr

/-- A pin slot at power-up; handle generations run from 1 (Table 14.5). -/
def Pin.free : Pin := { gen := 1, used := false, table := 0, pages := [], tokens := [], committed := 0, ready := false }

/-- A prefill job that this module, a member of a prefill pool, works on (R447): who sent it, its session and first page there, the parts
received, its own pages, the page writes not yet acknowledged (tag, own page, target page, offset, target module), whether it has begun to
ship, whether a page was refused, and at the pool's dealer what its members have reported. -/
structure PrefillJob where
  src : Nat
  table : Nat
  session : W64
  newPage : W32
  parts : List (Nat × List W32)
  total : Nat
  tokens : List W32
  pages : List Nat
  committed : Nat
  acks : List (Nat × Nat × Nat × Nat × Nat)
  shipping : Bool
  failed : Bool
  done : List (Nat × Bool)
  deriving DecidableEq, Repr

/-- The key-value cache's bookkeeping (chapter 14). -/
structure Cache where
  pages : Sparse Page
  rebuilding : Bool
  scanNext : Nat
  entered : Nat
  pins : Sparse Pin
  spillUsed : List (Nat × Nat)
  buckets : List (Nat × Nat)
  collided : List W64
  treeFullAt : Option Nat
  jobs : List PrefillJob
  deriving DecidableEq, Repr

/-- A committed or set-up HDM decoder (R502). -/
structure HdmDecoder where
  committed : Bool
  errNotCommitted : Bool
  hpaBase : Nat
  size : Nat
  dpaBase : Nat
  ways : Nat
  granularity : Nat
  deriving DecidableEq, Repr

/-- A decoder at reset. -/
def HdmDecoder.off : HdmDecoder :=
  { committed := false, errNotCommitted := false, hpaBase := 0, size := 0, dpaBase := 0, ways := 1, granularity := 256 }

/-- A background operation or the last reply of a CCI (R520, R523). -/
structure Reply where
  status : Nat
  out : List Byte
  deriving DecidableEq, Repr

/-- The mailbox status values the model uses (CXL return codes named by R523, R524, R597, R648). -/
inductive Status where
  | success
  | backgroundStarted
  | invalidInput
  | unsupported
  | busy
  | invalidSecurity
  | invalidLength
  | internalError
  | authFailed
  | aborted
  | invalidHandle
  deriving DecidableEq, Repr

/-- What a command channel interface answered last. -/
structure CciReply where
  opcode : Nat
  status : Status
  code : W32
  out : List Byte
  deriving DecidableEq, Repr

/-- The one background operation (R520) and how it ended. -/
structure Background where
  cci : Nat
  opcode : Nat
  running : Bool
  percent : Nat
  result : Status
  code : W32
  out : List Byte
  deriving DecidableEq, Repr

/-- A fuse operation that waits for its window (R550, R607). -/
inductive FuseOp where
  | enroll (slot : Nat) (hash : BitVec 384)
  | revoke (slot : Nat)
  | svn (count : Nat)
  | debug
  deriving DecidableEq, Repr

/-- A firmware image as its slot holds it (Table 18.2). -/
structure FwImage where
  major : Nat
  minor : Nat
  patch : Nat
  generation : Nat
  svn : Nat
  deckMajor : Nat
  digest : BitVec 384
  bytes : List Byte
  deriving DecidableEq, Repr

/-- Fuses, keys and attestation state (chapter 18). -/
structure Security where
  vendorHash : BitVec 384
  ownerHash : Sparse (BitVec 384)
  ownerState : Sparse Nat
  svnMin : Nat
  uds : BitVec 384
  udsBlocked : Bool
  debugFuse : Nat
  unlockRecord : Bool
  debug : Nat
  cdi : BitVec 384
  nonces : Sparse (Option (BitVec 128))
  fuseQueue : List FuseOp
  fuseLogged : Bool
  spdmVersion : Bool
  spdmCaps : Bool
  spdmAlgs : Bool
  spdmSession : Bool
  spdmHandshake : Bool
  keySets : Sparse (Option (List Byte))
  keyActive : Sparse (Option Nat)
  tap : Nat
  deriving DecidableEq, Repr

/-- An access that waits for the back-invalidation of a line (R510). -/
inductive BiWaiter where
  | core (n : Nat)
  | hostRead (hpa : Nat) (exclusive : Bool)
  | script (stack core ticket : Nat)
  | firmware
  | write (e : WcbEntry)
  | poison (dpa : Nat) (data : Option Line)
  deriving DecidableEq, Repr

/-- A back-invalidation under way: its device physical address, whether BIRspI has arrived while a host write to the line is
not yet accepted, and the accesses that wait (R510). -/
structure BiWait where
  dpa : Nat
  answered : Bool
  waiters : List BiWaiter
  deriving DecidableEq, Repr

/-- What a slow-tier request in flight serves (R518, R584): 512 bytes at
byte `off` of a page going to its spill slot, or of a spill slot coming into a page for a round slot, a source line, or an operation that has failed. -/
inductive UioUse where
  | spill (page slot off : Nat)
  | prefetch (table slot page spillSlot off : Nat)
  | refetch (stack line : Nat)
  | dead
  deriving DecidableEq, Repr

/-- The CXL port and what host software set up in it (chapter 15). -/
structure HostPort where
  linkUp : Bool
  width : Nat
  rate : Nat
  perst : Bool
  busMaster : Bool
  decoders : Sparse HdmDecoder
  snoop : List (Nat × Bool)
  biPending : List BiWait
  slow : Sparse (Bool × Nat × Nat)
  uio : List (Nat × UioUse × BitVec 16)
  uioTag : Nat
  policy : List Byte
  partner : List (Nat × W32 × List Byte)
  partnerTotal : Nat
  partnerSec : Sparse Nat
  partnerLastSec : Nat
  out : List HostMsg
  poisonLogged : List Nat
  mediaRecords : List Nat
  dmaDrops : Nat
  /-- Bit 0: the CXL.io stream is in the insecure state; bit 1: the CXL.cachemem stream. -/
  ideInsecure : BitVec 2
  /-- Decoders that are decommitted while back-invalidations of their range are outstanding. -/
  leaving : List HdmDecoder
  deriving DecidableEq, Repr

/-- A switched domain (Table 16.9). -/
structure Domain where
  on : Bool
  inReg : Bool
  setpoint : Nat
  failed : Bool
  deriving DecidableEq, Repr

/-- A domain at power-up: off, setpoint 750 mV (Table 16.9). -/
def Domain.off : Domain := { on := false, inReg := false, setpoint := 750, failed := false }

/-- A diode (Table 16.8). -/
structure Diode where
  valid : Bool
  failed : Bool
  interval : Nat
  temp : Int
  deriving DecidableEq, Repr

/-- A diode before its first sample. -/
def Diode.unread : Diode := { valid := false, failed := false, interval := 0, temp := 0 }

/-- Power and thermal state (chapter 16). -/
structure Power where
  inputOn : Bool
  inputLow : Bool
  voltage : Nat
  enableOpen : Bool
  tripped : Bool
  tripLatch : Bool
  domains : Sparse Domain
  diodes : Sparse Diode
  depthDie : Nat
  depthNb0 : Nat
  depthNb1 : Nat
  floorDie : Bool
  floorNb0 : Bool
  floorNb1 : Bool
  throttleAt : Nat
  limitRejected : Bool
  shutdown : Bool
  mgmtAddr : Nat
  watts : Nat
  deriving DecidableEq, Repr

/-- Result of the last self-test (Table 17.2). -/
structure SelfTest where
  run : Bool
  result : W32
  quadrants : Nat
  nearBank : Nat
  badStacks : Nat
  ports : Nat
  diodes : Nat
  clustersShort : W64
  domains : Nat
  firstCode : W32
  sparesUsed : Nat
  duration : Nat
  deriving DecidableEq, Repr

/-- No self-test yet. -/
def SelfTest.none : SelfTest :=
  { run := false, result := 0, quadrants := 0, nearBank := 0, badStacks := 0, ports := 0, diodes := 0, clustersShort := 0,
    domains := 0, firstCode := 0, sparesUsed := 0, duration := 0 }

/-- ID_STATE.STATE (Table 15.4). -/
inductive IdState where
  | boot
  | selfTest
  | running
  | misdeal
  deriving DecidableEq, Repr

/-- A reset domain (Table 17.4). -/
inductive ResetDomain where
  | quadrant (n : Nat)
  | nearBank (n : Nat)
  | fabricSide (n : Nat)
  | stack (n : Nat)
  | controlCore (n : Nat)
  | wholeModule
  deriving DecidableEq, Repr

/-- HB_GROUP.STATE (Table 17.8). -/
inductive GroupState where
  | none
  | forming
  | serving
  | recovering
  | held
  | window
  deriving DecidableEq, Repr

/-- Progress of an online firmware activation (Table 17.5). -/
inductive FwPhase where
  | none
  | transferred
  | loading
  | waiting
  | probation
  | reloading
  deriving DecidableEq, Repr

/-- Start-up, heartbeat, recovery and group state (chapter 17). -/
structure Control where
  idState : IdState
  mediaReady : Bool
  bootSlot : Nat
  fw0 : Option FwImage
  fw1 : Option FwImage
  fwMark0 : Mark
  fwMark1 : Mark
  fwPhase : FwPhase
  fwMarksPending : Bool
  activeCore : Nat
  standbyReady : Bool
  beat0 : W32
  beat1 : W32
  beatSeen : W32
  missed : Nat
  mgmtCount : W32
  hangs : Nat
  mgmtRestarts : Nat
  selfTest : SelfTest
  testing : Bool
  selfTestStart : Nat
  keepMemory : Bool
  firstFailure : W32
  recovering : List ResetDomain
  recKind : ResetDomain
  recCount : Nat
  rejoin : Bool
  group : GroupState
  demoted : Bool
  successorRole : Bool
  joined : List (Nat × GroupMsg)
  readyFrom : List Nat
  awaitAlign : Bool
  abortCode : W32
  requestedAbort : Option W32
  probing : Bool
  probesMissed : Nat
  windowOpen : Bool
  spareCores : List Nat
  windowDone : List Nat
  windowAsked : Bool
  windowActions : Nat
  windowDeferred : Nat
  roundsSinceWindow : Nat
  stalledRound : Option W32
  heldSwitch : Bool
  deriving DecidableEq, Repr

/-- A deadline that the module has started and that a command of the table ends (R51). -/
inductive Deadline where
  | gather
  | probe
  | abortReq
  | memberReady
  | window
  | standbyLoad
  | probation
  | nonce (cci : Nat)
  | regulation (domain : Nat)
  | flit (port : Nat)
  | trainStep (port : Nat)
  | drain (stack : Nat)
  | writeHold (stack : Nat) (line : Option Nat)
  | rowHold (stack bank : Nat)
  | source (line : Nat)
  | watchdog
  | uio (tag : Nat)
  | biSnoop (dpa : Nat)
  deriving DecidableEq, Repr

/-- The die on whose meter a deadline is applied: 0 the compute die, n + 1 the base die of stack n. The stack's controller holds its own
deadlines. -/
def Deadline.die : Deadline → Nat
  | .drain n => n + 1
  | .writeHold n _ => n + 1
  | .rowHold n _ => n + 1
  | _ => 0

/-- An entry of the source directory (R393). -/
inductive DirState where
  | valid (base : Nat)
  | pending
  | invalid
  deriving DecidableEq, Repr

end Sys2Proof
end

