-- ==== Sys2Proof/Syntax.lean ====
section
/-! DEFINITION. The commands of the block: one constructor of `Instr` for each row of the table of operations and
events, with the row's operands. Plays carry the fields of their format (Tables 4.2 to 4.7); vendor mailbox commands
carry their raw input (R648); messages and host transactions carry their fields. -/

namespace Sys2Proof

/-- A stored word that a play reads and that fails its parity (R386, Table 12.2): the play's own word of the program store; a half
of a scalar register; the predicate flags; a descriptor slot; a tile element; a word of scratch; a read-cache line; a word of a line
at its home kitty. -/
inductive StoredWord where
  | program
  | sreg (r : Fin 32) (high : Bool)
  | preds
  | desc (r : Fin 64)
  | tile (acc : Fin 4) (elem : Fin 4096)
  | scratch (word : Fin 49152)
  | cached (line : Nat)
  | kitty (addr : Nat)
  deriving DecidableEq, Repr

/-- The header of a play (Table 4.2), the core that issues it, and the stored word that fails its parity when the play reads it. -/
structure PlayHdr where
  core : CoreId
  pen : Bool
  pneg : Bool
  pred : Fin 8
  parity : Option StoredWord := none
  deriving DecidableEq, Repr

/-- Format C (Table 4.3). -/
structure FmtC where
  sd : Fin 32
  sx : Fin 32
  sy : Fin 32
  pd : Fin 8
  fn : BitVec 4
  imm : BitVec 48
  deriving DecidableEq, Repr

/-- Format T (Table 4.5). -/
structure FmtT where
  da : Fin 64
  db : Fin 64
  dc : Fin 64
  sa : Fin 32
  sb : Fin 32
  sc : Fin 32
  acc : Fin 4
  mode : BitVec 13
  imm : BitVec 32
  deriving DecidableEq, Repr

/-- Format Y (Table 4.6). -/
structure FmtY where
  id : BitVec 14
  count : BitVec 13
  inv : Bool
  sa : Fin 32
  da : Fin 64
  cmp : BitVec 3
  sd : Fin 32
  kind : Bool
  imm : BitVec 32
  deriving DecidableEq, Repr

/-- Format B (Table 4.7). -/
structure FmtB where
  script : BitVec 12
  ticket : Fin 4
  din : Fin 64
  dout : Fin 64
  sp : Fin 32
  latch : Fin 4
  sd : Fin 32
  deriving DecidableEq, Repr

/-- Who makes an access that is ordered at a kitty (R329). -/
inductive Agent where
  | core (n : Nat)
  | firmware
  | cxl
  | fabric
  deriving DecidableEq, Repr

/-- A path of Table 12.1 by its number within its kind. -/
inductive PathId where
  | mesh (n : Nat)
  | spine (n : Nat)
  | stackIf (stack channel : Nat)
  | exchange (stack : Nat)
  | coreInside (core : Nat)
  deriving DecidableEq, Repr

/-- A received flit (Table 11.4): its bytes as its four lanes carry them, byte `i` on lane `i` mod 4, with the byte errors undone: what the
code's nearest word has there. `errors` lists the bytes that arrived wrong. -/
structure Flit where
  lanes : List (List Byte)
  errors : List (Fin 224)
  deriving DecidableEq, Repr

/-- A submission entry (Table 13.6). `reserved` says its reserved bytes are zero. -/
structure Submission where
  opcode : Nat
  tag : W32
  session : W64
  tokensAddr : W64
  tokenCount : W32
  maxNew : W32
  param : W64
  arg : W64
  reserved : Bool
  deriving DecidableEq, Repr

/-- What the test programs of a self-test find (Table 17.2, R559): units that failed whole; the physical cores, by
68 × cluster + number, the rows, by stack, bank, row and mask of lines, and the word lanes that a spare may cover. -/
structure TestFindings where
  quadrants : Nat
  nearBank : Nat
  stackMask : Nat
  ports : Nat
  diodes : Nat
  cores : List (Fin 4352)
  rows : List (Fin 8 × Fin 768 × Nat × BitVec 16)
  lanes : List (PathId × Nat)
  deriving DecidableEq, Repr

/-- The commands of the block. -/
inductive Instr where
  -- control and scalar plays (R122)
  | nop (h : PlayHdr)
  | halt (h : PlayHdr)
  | fault (h : PlayHdr) (number : BitVec 16)
  | loop (h : PlayHdr) (count : BitVec 20) (body : BitVec 11)
  | skip (h : PlayHdr) (n : BitVec 11)
  | seti (h : PlayHdr) (f : FmtC)
  | saddi (h : PlayHdr) (f : FmtC)
  | salu (h : PlayHdr) (f : FmtC)
  | scmp (h : PlayHdr) (f : FmtC)
  | plog (h : PlayHdr) (f : FmtC)
  | pbit (h : PlayHdr) (f : FmtC)
  | lidx (h : PlayHdr) (f : FmtC)
  | playIllegal (core : CoreId)
  -- tensor plays (R123)
  | tmma (h : PlayHdr) (f : FmtT)
  | tzero (h : PlayHdr) (f : FmtT)
  | tout (h : PlayHdr) (f : FmtT)
  | tload (h : PlayHdr) (f : FmtT)
  -- vector plays (R127)
  | vadd (h : PlayHdr) (f : FmtT)
  | vsub (h : PlayHdr) (f : FmtT)
  | vmul (h : PlayHdr) (f : FmtT)
  | vfma (h : PlayHdr) (f : FmtT)
  | vmax (h : PlayHdr) (f : FmtT)
  | vmin (h : PlayHdr) (f : FmtT)
  | vaddi (h : PlayHdr) (f : FmtT)
  | vmuli (h : PlayHdr) (f : FmtT)
  | vcvt (h : PlayHdr) (f : FmtT)
  | vquant (h : PlayHdr) (f : FmtT)
  | vdeq (h : PlayHdr) (f : FmtT)
  | vexp2 (h : PlayHdr) (f : FmtT)
  | vlog2 (h : PlayHdr) (f : FmtT)
  | vrcp (h : PlayHdr) (f : FmtT)
  | vrsqrt (h : PlayHdr) (f : FmtT)
  | vtanh (h : PlayHdr) (f : FmtT)
  | vsigm (h : PlayHdr) (f : FmtT)
  | vsilu (h : PlayHdr) (f : FmtT)
  | vrsum (h : PlayHdr) (f : FmtT)
  | vrssq (h : PlayHdr) (f : FmtT)
  | vrmax (h : PlayHdr) (f : FmtT)
  | vtopk (h : PlayHdr) (f : FmtT)
  | vscan (h : PlayHdr) (f : FmtT)
  | vfirst (h : PlayHdr) (f : FmtT)
  | vrand (h : PlayHdr) (f : FmtT)
  -- mover plays (R130)
  | mcopy (h : PlayHdr) (f : FmtT)
  | mfill (h : PlayHdr) (f : FmtT)
  | mlds (h : PlayHdr) (f : FmtT)
  | msts (h : PlayHdr) (f : FmtT)
  | matom (h : PlayHdr) (f : FmtT)
  | mred (h : PlayHdr) (f : FmtT)
  | mpush (h : PlayHdr) (f : FmtT)
  | dload (h : PlayHdr) (f : FmtT)
  | dbase (h : PlayHdr) (f : FmtT)
  -- sync plays (R135)
  | tplay (h : PlayHdr) (f : FmtY)
  | twait (h : PlayHdr) (f : FmtY)
  | tpw (h : PlayHdr) (f : FmtY)
  | ctake (h : PlayHdr) (f : FmtY)
  | csend (h : PlayHdr) (f : FmtY)
  | acq (h : PlayHdr) (f : FmtY)
  | rel (h : PlayHdr) (f : FmtY)
  | poll (h : PlayHdr) (f : FmtY)
  | fence (h : PlayHdr) (f : FmtY)
  | invr (h : PlayHdr) (f : FmtY)
  -- bank plays (R138)
  | blatch (h : PlayHdr) (f : FmtB)
  | bissue (h : PlayHdr) (f : FmtB)
  | bawait (h : PlayHdr) (f : FmtB)
  | babort (h : PlayHdr) (f : FmtB)
  -- on-die events
  | kittyAccess (who : Agent) (addr : Nat) (write : Option (List Byte)) (poison parity : Bool)
  | kittyAtomic (addr : Nat) (op : Fin 7) (operand compare : W64) (poison : Bool)
  | localTrickArrive (cluster : Fin 64) (trick : Nat)
  | localTrickRelease (cluster : Fin 64) (trick : Nat)
  | onDiePushLanding (stream : Nat)
  | onDieCreditReturn (stream : Nat)
  | pathTransferReceive (path : PathId) (replay : Bool) (sent : List W32) (received : List (W32 × Bool)) (lane : Nat)
  -- stacks
  | lineRead (who : Consumer) (addr : Nat) (disturbed : Nat)
  | lineWrite (addr : Nat) (data : Line) (mask : BitVec 64) (poison : Bool)
  | wcbDrainDone (stack : Fin 8) (line : Nat) (disturbed : Nat)
  | wcbDrainTimeout (stack : Fin 8)
  | refreshDue (stack : Fin 8) (slot : Fin 24)
  | refreshDone (stack : Fin 8) (bank : Fin 768)
  | writeHoldExpiry (stack : Fin 8) (line : Nat)
  | latchWrite (stack : Fin 8) (bank : Fin 768)
  | scriptOperationStart (stack : Fin 8) (core : CoreId) (ticket : Fin 4)
  | streamingPermitTaken (stack : Fin 8)
  | rowOperationDone (stack : Fin 8) (core : CoreId) (ticket : Fin 4) (bank : Fin 768) (disturbed : List (Nat × Nat))
  | exchangeBusTransferDone (stack : Fin 8)
  | bankResultDelivery (stack : Fin 8) (core : CoreId) (ticket : Fin 4)
  | scrubRowStart (stack : Fin 8) (bank : Fin 768)
  | trumpScrubDue (stack : Fin 8)
  | scrubRowDone (stack : Fin 8) (bank : Fin 768) (disturbed : List (Nat × Nat))
  | scrubLapTrumpCheck (stack : Fin 8)
  | scrubLapDeadline (stack : Fin 8)
  -- source repair
  | sourceRepairReport (stack : Fin 8) (line : Nat)
  | sourceFetchTimeout (stack : Fin 8) (line : Nat)
  | unrepairedRefetchTick
  | sourceDirectoryReply (region : Nat) (answer : Option DirAnswer)
  | sourceDirectoryRetry
  -- fabric links
  | flitReceive (port : Fin 12) (flit : Flit)
  | laneSignalLoss (port : Fin 12)
  | flitTimeout (port : Fin 12)
  | cablePresent (port : Fin 12)
  | trainPatternDetected (port : Fin 12)
  | trainStepDone (port : Fin 12)
  | trainStepTimeout (port : Fin 12)
  | train (port : Fin 12) (body : TrainBody)
  -- fabric frames at their destination
  | push (hdr : FrameHdr) (stream offset : Nat) (data : List Byte) (units : Nat) (mask : List Bool)
  | pushAck (hdr : FrameHdr) (stream units : Nat)
  | credit (hdr : FrameHdr) (stream count : Nat)
  | streamStop (hdr : FrameHdr) (stream : Nat) (code : W32)
  | tallyMark (hdr : FrameHdr) (stream : Nat) (count epoch : W32)
  | memRead (port : Fin 12) (hdr : FrameHdr) (tag address length : Nat)
  | memData (hdr : FrameHdr) (tag status : Nat) (data : List Byte) (mask : List Bool) (disturbed : Nat)
  | memWrite (port : Fin 12) (hdr : FrameHdr) (tag address : Nat) (data : List Byte) (mask : List Bool)
  | memAck (hdr : FrameHdr) (tag status : Nat)
  | trickArrive (hdr : FrameHdr) (slot : Nat) (group epoch : W32)
  | trickRelease (hdr : FrameHdr) (slot : Nat) (group epoch : W32)
  | switchLoadDone (failed : Bool)
  | roundMark (hdr : FrameHdr) (group round : W32)
  | abortReq (hdr : FrameHdr) (group code : W32)
  | abort (hdr : FrameHdr) (origin : Nat) (group code : W32)
  | switchAnnounce (hdr : FrameHdr) (group serial : W32)
  | switchCancel (hdr : FrameHdr) (group code : W32)
  | switchGatherReply (member : Nat) (st : SwitchState)
  | switchGatherTimeout
  | mgmt (hdr : FrameHdr) (packet : List Byte)
  | quarClear (hdr : FrameHdr) (port target : Nat)
  | nack (hdr : FrameHdr) (reason : Nat) (header : List Byte)
  | fabViolationSecondTick
  -- serving and group messages
  | roundList (m : ServMsg)
  | roundReport (src : Nat) (m : ServMsg)
  | prefillJob (src : Nat) (m : ServMsg)
  | prefillDone (src : Nat) (m : ServMsg)
  | spill (m : ServMsg)
  | spillDone (src : Nat) (m : ServMsg)
  | pageFault (src : Nat) (m : ServMsg)
  | join (src : Nat) (m : GroupMsg)
  | align (src : Nat) (m : GroupMsg)
  | ready (src : Nat) (m : GroupMsg)
  | windowOpen (m : GroupMsg)
  | windowDone (src : Nat) (m : GroupMsg)
  | probe (src : Nat) (m : GroupMsg)
  | probeAck (m : GroupMsg)
  | probeTimer
  | abortReqTimeout
  | memberReadyTimeout (member : Nat)
  | roundBudgetExpiry (table : Fin 64)
  | roundStall (table : Fin 64)
  | repairWindowPeriod
  | windowBudgetExpiry
  -- channels and requests
  | watchWake (chan : Fin 16384)
  | watchWakeService (chan : Fin 16384) (sqHead cqRead : W32)
  | d2hCompletion (chan : Fin 16384) (write : Bool) (goErr : Bool)
  | openSession (chan : Fin 16384) (e : Submission)
  | generate (chan : Fin 16384) (e : Submission)
  | append (chan : Fin 16384) (e : Submission)
  | abortRequest (chan : Fin 16384) (e : Submission)
  | pause (chan : Fin 16384) (e : Submission)
  | resume (chan : Fin 16384) (e : Submission)
  | close (chan : Fin 16384) (e : Submission)
  | attach (chan : Fin 16384) (e : Submission)
  | requestTokensFetched (slot : Nat) (tokens : List W32)
  | pauseTtlExpiry (slot : Nat)
  | treeRebuildStep
  | uioCompletion (tag : Nat) (ok : Bool) (data : List Byte) (disturbed : Nat)
  | uioTimeout (tag : Nat)
  -- host transactions
  | memRd (hpa : Nat) (exclusive : Bool)
  | memWr (hpa : Nat) (data : Line) (mask : BitVec 64) (poison : Bool)
  | birspi (dpa : Nat)
  | bisnpinvTimeout (dpa : Nat)
  | snpinv (addr : W64)
  | snpdata (addr : W64)
  | bar0AccessInvalid (offset size : Nat)
  | partnerViolation (kind : Fin 11) (header : List Byte)
  | hdmDecoderCommit (decoder : Fin 4) (hpaBase size dpaBase ways granularity : Nat)
  | busMasterClear
  | functionLevelReset
  | cxlReset
  | hotReset
  | cxlLinkUp (width rate : Nat)
  | ideKeyProg (stream dir set : Nat) (key : List Byte)
  | keySetGo (stream dir set : Nat)
  | keySetStop (stream dir set : Nat)
  | spdmGetCertificate (slot : Nat)
  | spdmChallenge (slot : Nat) (nonce : List Byte)
  | spdmGetMeasurements (index : Nat) (signed : Bool) (nonce : List Byte)
  | spdmKeyExchange (slot : Nat) (exchange : List Byte)
  | spdmSessionLoss
  -- standard mailbox commands
  | identify (cci : Fin 2)
  | backgroundOperationStatus (cci : Fin 2)
  | requestAbortBackgroundOperation (cci : Fin 2)
  | getEventRecords (cci : Fin 2) (log : Fin 4)
  | clearEventRecords (cci : Fin 2) (log : Fin 4) (all : Bool) (handles : List W32)
  | getEventInterruptPolicy (cci : Fin 2)
  | setEventInterruptPolicy (cci : Fin 2) (settings : List Byte)
  | getFwInfo (cci : Fin 2)
  | transferFw (cci : Fin 2) (slot : Nat) (image : List Byte)
  | activateFw (cci : Fin 2) (online : Bool) (slot : Nat)
  | getSupportedLogs (cci : Fin 2)
  | getLog (cci : Fin 2) (vendorLog : Bool)
  | performMaintenance (cci : Fin 2) (soft : Bool) (dpa : Nat) (disturbed : Nat)
  | identifyMemoryDevice (cci : Fin 2)
  | getHealthInfo (cci : Fin 2)
  | getPoisonList (cci : Fin 2)
  | injectPoison (cci : Fin 2) (dpa : Nat)
  | clearPoison (cci : Fin 2) (dpa : Nat) (data : Line)
  | mailboxUnsupported (cci : Fin 2) (opcode : Nat)
  -- vendor mailbox commands: raw input
  | vndIdentify (cci : Fin 2) (input : List Byte)
  | partnerLogRead (cci : Fin 2) (input : List Byte)
  | deckQuery (cci : Fin 2) (input : List Byte)
  | deckSetIndex (cci : Fin 2) (input : List Byte)
  | deckStage (cci : Fin 2) (input : List Byte)
  | deckStageReadCompletion (data : List Byte) (error : Bool)
  | deckVerifyDone
  | deckArm (cci : Fin 2) (input : List Byte)
  | deckArmBuildDone
  | deckSwitch (cci : Fin 2) (input : List Byte)
  | deckDiscard (cci : Fin 2) (input : List Byte)
  | poolFillDone
  | fabRouteLoad (cci : Fin 2) (input : List Byte) (entries : List (BitVec 16))
  | fabPortClear (cci : Fin 2) (input : List Byte)
  | fabPortRetrain (cci : Fin 2) (input : List Byte)
  | chanCreate (cci : Fin 2) (input : List Byte)
  | chanDestroy (cci : Fin 2) (input : List Byte)
  | chanResume (cci : Fin 2) (input : List Byte)
  | chanQuery (cci : Fin 2) (input : List Byte)
  | tableDisable (cci : Fin 2) (input : List Byte)
  | tableEnable (cci : Fin 2) (input : List Byte)
  | prefixPin (cci : Fin 2) (input : List Byte) (tokens : List W32)
  | prefixUnpin (cci : Fin 2) (input : List Byte)
  | prefixFlush (cci : Fin 2) (input : List Byte)
  | kvSpillSet (cci : Fin 2) (input : List Byte)
  | slowWindowSet (cci : Fin 2) (input : List Byte)
  | slowWindowQuery (cci : Fin 2) (input : List Byte)
  | selftestResult (cci : Fin 2) (input : List Byte)
  | retest (cci : Fin 2) (input : List Byte)
  | repairWindowOpen (cci : Fin 2) (input : List Byte)
  | repairApply (cci : Fin 2) (input : List Byte)
  | recover (cci : Fin 2) (input : List Byte)
  | secNonceGet (cci : Fin 2) (input : List Byte)
  | secKeyState (cci : Fin 2) (input : List Byte)
  | secOwnerEnroll (cci : Fin 2) (input : List Byte)
  | secOwnerRevoke (cci : Fin 2) (input : List Byte)
  | secSvnAdvance (cci : Fin 2) (input : List Byte)
  | secDebugUnlock (cci : Fin 2) (input : List Byte)
  | fuseWrite
  | nonceExpiry (cci : Fin 2)
  -- registers
  | telMeterLoRead (offset : Nat)
  | rglWrite (offset : Nat) (value : W32)
  | thermLimitCtlWrite (value : W32)
  | pwrDomainSetpointWrite (domain : Fin 20) (value : W32)
  | registerWrite (offset : Nat) (value : W32)
  -- time and power
  | regulatorRefillTick
  | paceUpdate (counts : List Nat)
  | controlBeat
  | heartbeatCheck
  | mgmtBeat
  | mgmtWatchdogExpiry
  | diodeSample (die : Fin 9) (reading : Option Int)
  | thermalTrip
  | inputPowerApplied (voltage mgmtAddr : Nat)
  | inputLow (voltage : Nat)
  | inputPowerLoss
  | vinEnableOpen
  | perstNDeassert
  | refclkLost (die : Fin 9)
  | refclkRestored (die : Fin 9)
  | domainInRegulation (domain : Fin 20)
  | domainRegulationTimeout (domain : Fin 20)
  | bootFwVerified
  | selftestComplete (t : TestFindings)
  | recoveryDone (d : ResetDomain) (passed : Bool)
  | standbyImageReady
  | standbyLoadTimeout
  | fwProbationExpiry
  | oldActiveReloaded
  | testAccessPortInstruction (ir : Nat)
  | globalPersistentFlush (phase : Nat)
  | partnerViolationSecondTick
  | inputExcursionEnd (voltage : Nat)
  | domainFailureDetected (d : ResetDomain)
  | spdmGetVersion
  | spdmGetCapabilities
  | spdmNegotiateAlgorithms
  | spdmGetDigests
  | spdmFinish (verify : List Byte)
  | spdmHeartbeat
  | spdmEndSession
  deriving DecidableEq, Repr

end Sys2Proof
end

