-- ==== Sys2Proof/Decode.lean ====
section
/-! DEFINITION. Words and the commands they stand for: the 128 bits of a play (R116, R117; Tables 4.2 to 4.14), and the words of the
table of operations and events, which gives no bits. -/

namespace Sys2Proof

/-! ### The fields of a play -/

/-- A bit field of a play as a register, slot or flag number. -/
def playNo (w : BitVec 128) (lo width : Nat) : Fin (2 ^ width) := (w.extractLsb' lo width).toFin

/-- CLASS (Table 4.2). -/
def wordClass (w : BitVec 128) : Nat := (w.extractLsb' 0 4).toNat
/-- OP (Table 4.2). -/
def wordOp (w : BitVec 128) : Nat := (w.extractLsb' 4 6).toNat

/-- The header of Table 4.2, read by a core. -/
def headerOf (core : CoreId) (w : BitVec 128) : PlayHdr :=
  { core := core, pred := playNo w 10 3, pen := w.getLsbD 13, pneg := w.getLsbD 14 }

/-- Format C (Table 4.3). -/
def formatC (w : BitVec 128) : FmtC :=
  { sd := playNo w 16 5, sx := playNo w 21 5, sy := playNo w 26 5, pd := playNo w 31 3, fn := w.extractLsb' 34 4,
    imm := w.extractLsb' 64 48 }

/-- Format T (Table 4.5). -/
def formatT (w : BitVec 128) : FmtT :=
  { da := playNo w 16 6, db := playNo w 22 6, dc := playNo w 28 6, sa := playNo w 34 5, sb := playNo w 39 5,
    sc := playNo w 44 5, acc := playNo w 49 2, mode := w.extractLsb' 51 13, imm := w.extractLsb' 64 32 }

/-- Format Y (Table 4.6). -/
def formatY (w : BitVec 128) : FmtY :=
  { id := w.extractLsb' 16 14, count := w.extractLsb' 30 13, inv := w.getLsbD 43, sa := playNo w 44 5, da := playNo w 49 6,
    cmp := w.extractLsb' 55 3, sd := playNo w 58 5, kind := w.getLsbD 63, imm := w.extractLsb' 64 32 }

/-- Format B (Table 4.7). -/
def formatB (w : BitVec 128) : FmtB :=
  { script := w.extractLsb' 16 12, ticket := playNo w 28 2, din := playNo w 30 6, dout := playNo w 36 6, sp := playNo w 42 5,
    latch := playNo w 47 2, sd := playNo w 49 5 }

/-! ### The plays of each class -/

/-- Control and scalar plays (Tables 4.4, 4.8). -/
def decodeControl (h : PlayHdr) (w : BitVec 128) : Nat → Option Instr
  | 0x01 => some (.nop h)
  | 0x02 => some (.halt h)
  | 0x03 => some (.fault h (w.extractLsb' 16 16))
  | 0x04 => some (.loop h (w.extractLsb' 16 20) (w.extractLsb' 36 11))
  | 0x05 => some (.skip h (w.extractLsb' 16 11))
  | 0x08 => some (.seti h (formatC w))
  | 0x09 => some (.saddi h (formatC w))
  | 0x0A => some (.salu h (formatC w))
  | 0x0B => some (.scmp h (formatC w))
  | 0x0C => some (.plog h (formatC w))
  | 0x0D => some (.pbit h (formatC w))
  | 0x0E => some (.lidx h (formatC w))
  | _ => none

/-- Tensor plays (Table 4.9). -/
def decodeTensor (h : PlayHdr) (f : FmtT) : Nat → Option Instr
  | 0x01 => some (.tmma h f)
  | 0x02 => some (.tzero h f)
  | 0x03 => some (.tout h f)
  | 0x04 => some (.tload h f)
  | _ => none

/-- Vector plays (Table 4.11). -/
def decodeVector (h : PlayHdr) (f : FmtT) : Nat → Option Instr
  | 0x01 => some (.vadd h f)
  | 0x02 => some (.vsub h f)
  | 0x03 => some (.vmul h f)
  | 0x04 => some (.vfma h f)
  | 0x05 => some (.vmax h f)
  | 0x06 => some (.vmin h f)
  | 0x07 => some (.vaddi h f)
  | 0x08 => some (.vmuli h f)
  | 0x09 => some (.vcvt h f)
  | 0x0A => some (.vquant h f)
  | 0x0B => some (.vdeq h f)
  | 0x10 => some (.vexp2 h f)
  | 0x11 => some (.vlog2 h f)
  | 0x12 => some (.vrcp h f)
  | 0x13 => some (.vrsqrt h f)
  | 0x14 => some (.vtanh h f)
  | 0x15 => some (.vsigm h f)
  | 0x16 => some (.vsilu h f)
  | 0x20 => some (.vrsum h f)
  | 0x21 => some (.vrssq h f)
  | 0x22 => some (.vrmax h f)
  | 0x23 => some (.vtopk h f)
  | 0x24 => some (.vscan h f)
  | 0x25 => some (.vfirst h f)
  | 0x26 => some (.vrand h f)
  | _ => none

/-- Mover plays (Table 4.12). -/
def decodeMover (h : PlayHdr) (f : FmtT) : Nat → Option Instr
  | 0x01 => some (.mcopy h f)
  | 0x02 => some (.mfill h f)
  | 0x03 => some (.mlds h f)
  | 0x04 => some (.msts h f)
  | 0x05 => some (.matom h f)
  | 0x06 => some (.mred h f)
  | 0x07 => some (.mpush h f)
  | 0x08 => some (.dload h f)
  | 0x09 => some (.dbase h f)
  | _ => none

/-- Sync plays (Table 4.13). -/
def decodeSync (h : PlayHdr) (f : FmtY) : Nat → Option Instr
  | 0x01 => some (.tplay h f)
  | 0x02 => some (.twait h f)
  | 0x03 => some (.tpw h f)
  | 0x04 => some (.ctake h f)
  | 0x05 => some (.csend h f)
  | 0x06 => some (.acq h f)
  | 0x07 => some (.rel h f)
  | 0x08 => some (.poll h f)
  | 0x09 => some (.fence h f)
  | 0x0A => some (.invr h f)
  | _ => none

/-- Bank plays (Table 4.14). -/
def decodeBank (h : PlayHdr) (f : FmtB) : Nat → Option Instr
  | 0x01 => some (.blatch h f)
  | 0x02 => some (.bissue h f)
  | 0x03 => some (.bawait h f)
  | 0x04 => some (.babort h f)
  | _ => none

/-- The play that a word of a core's program store stands for, by its CLASS and OP; none for the zero play of R118 and for every
class and operation that chapter 4 does not define. -/
def decodePlay (core : CoreId) (w : BitVec 128) : Option Instr :=
  let h := headerOf core w
  match wordClass w with
  | 0 => decodeControl h w (wordOp w)
  | 1 => decodeTensor h (formatT w) (wordOp w)
  | 2 => decodeVector h (formatT w) (wordOp w)
  | 3 => decodeMover h (formatT w) (wordOp w)
  | 4 => decodeSync h (formatY w) (wordOp w)
  | 5 => decodeBank h (formatB w) (wordOp w)
  | _ => none

/-! ### Words of the table -/

/-- The command that a word of `nbits` bits spells by the table's bits: none, since no row of the table of operations and events
gives any. -/
def decodeTableWord (_nbits _w : Nat) : Option Instr := none

end Sys2Proof
end

