-- ==== Sys2Proof/Machine/Maps.lean ====
section
/-! DEFINITION. Operations over sparse stores, bit fields and byte lists. Every store and every byte memory of the
state is read and written only through these. -/

namespace Sys2Proof.Machine

/-- The value at key `i`: what is listed, or the default `d`. -/
def sget {α : Type} (d : α) : Sparse α → Nat → α
  | [], _ => d
  | (k, v) :: r, i => if k = i then v else sget d r i

/-- Store `v` at key `i`, keeping keys rising and no entry equal to the default `d`. -/
def sput {α : Type} [DecidableEq α] (d : α) : Sparse α → Nat → α → Sparse α
  | [], i, v => if v = d then [] else [(i, v)]
  | (k, w) :: r, i, v =>
    if i < k then (if v = d then (k, w) :: r else (i, v) :: (k, w) :: r)
    else if i = k then (if v = d then r else (i, v) :: r)
    else (k, w) :: sput d r i v

/-- Whether every key of a store is above `lo`, keys rise and no entry equals the default. -/
def swfFrom {α : Type} [DecidableEq α] (d : α) : Nat → Sparse α → Bool
  | _, [] => true
  | lo, (k, v) :: r => decide (lo ≤ k) && decide (v ≠ d) && swfFrom d (k + 1) r

/-- The canonical form of a store. -/
def swf {α : Type} [DecidableEq α] (d : α) (m : Sparse α) : Bool := swfFrom d 0 m

/-- Change the value at one key by a function. -/
def smod {α : Type} [DecidableEq α] (d : α) (m : Sparse α) (i : Nat) (f : α → α) : Sparse α :=
  sput d m i (f (sget d m i))

/-- The canonical form of byte memory: an unlisted byte reads as zero. -/
def memWf (m : Memory) : Bool := swf (0 : Byte) m

/-- One byte of a memory. -/
def rdByte (m : Memory) (a : Nat) : Byte := sget 0 m a

/-- Write one byte of a memory. -/
def wrByte (m : Memory) (a : Nat) (b : Byte) : Memory := sput 0 m a b

/-- `n` bytes from address `a`, in address order. -/
def rdBytes (m : Memory) (a : Nat) : Nat → List Byte
  | 0 => []
  | n + 1 => rdByte m a :: rdBytes m (a + 1) n

/-- Write a list of bytes from address `a` on. -/
def wrBytes (m : Memory) (a : Nat) : List Byte → Memory
  | [] => m
  | b :: r => wrBytes (wrByte m a b) (a + 1) r

/-- The number a little-endian byte list stands for (R8). -/
def leNat : List Byte → Nat
  | [] => 0
  | b :: r => b.toNat + 256 * leNat r

/-- The `n` little-endian bytes of a number (R8). -/
def leBytes : Nat → Nat → List Byte
  | 0, _ => []
  | n + 1, v => BitVec.ofNat 8 v :: leBytes n (v / 256)

/-- A 32-bit detail value. -/
def w32 (n : Nat) : W32 := BitVec.ofNat 32 n

/-- A 64-bit detail value. -/
def w64 (n : Nat) : W64 := BitVec.ofNat 64 n

/-- The number a big-endian byte list stands for. -/
def beNat (l : List Byte) : Nat := leNat l.reverse

/-- The `n` big-endian bytes of a number. -/
def beBytes (n v : Nat) : List Byte := (leBytes n v).reverse

/-- Field `[lo + w - 1 : lo]` of a number (R7). -/
def fieldOf (v lo w : Nat) : Nat := v / 2 ^ lo % 2 ^ w

/-- Bit `i` of a number. -/
def bitOf (v i : Nat) : Bool := v / 2 ^ i % 2 = 1

/-- A `w`-bit two's-complement field as an integer. -/
def sext (w v : Nat) : Int := if v < 2 ^ (w - 1) then (v : Int) else (v : Int) - (2 ^ w : Nat)

/-- The numbers below `n` whose bit is set, ascending. -/
def setBitsBelow (n v : Nat) : List Nat := (List.range n).filter (bitOf v)

/-- How many of the low `n` bits are set. -/
def popBits (n v : Nat) : Nat := (setBitsBelow n v).length

/-- `⌈a / b⌉`. -/
def ceilDiv (a b : Nat) : Nat := (a + b - 1) / b

/-- Byte `i` of a line. -/
def lineByte (l : Line) (i : Nat) : Byte := BitVec.ofNat 8 (l.toNat / 2 ^ (8 * i))

/-- The line made of 64 bytes in address order. -/
def lineOfBytes (bs : List Byte) : Line := BitVec.ofNat 512 (leNat bs)

/-- The 64 bytes of a line in address order. -/
def bytesOfLine (l : Line) : List Byte := leBytes 64 l.toNat

/-- Overlay: byte `i` comes from `new` where `mask` has bit `i` set, from `old` elsewhere. -/
def mergeLine (old new : Line) (mask : BitVec 64) : Line :=
  lineOfBytes ((List.range 64).map fun i => if bitOf mask.toNat i then lineByte new i else lineByte old i)

/-- Replace the bytes of a line from offset `off` on by `bs`, as far as they lie in the line. -/
def patchLine (l : Line) (off : Nat) (bs : List Byte) : Line :=
  lineOfBytes ((bytesOfLine l).take off ++ bs.take (64 - off) ++ (bytesOfLine l).drop (off + bs.length))

/-- A count that stops at `top` (the saturating counters of the register maps). -/
def satInc (top n : Nat) : Nat := if n < top then n + 1 else top

/-- A count increased by `k` that stops at `top`. -/
def satAdd (top n k : Nat) : Nat := min top (n + k)

/-- Whether `a` lies ahead of `b`, compared modulo 2³² within 2³¹ (R345, R371). -/
def aheadOf (a b : W32) : Bool := 0 < (a - b).toNat && (a - b).toNat < 2 ^ 31

/-- Replace the first element that satisfies `p` by its image; the rest stays. -/
def updFirst {α : Type} (p : α → Bool) (f : α → α) : List α → List α
  | [] => []
  | a :: r => if p a then f a :: r else a :: updFirst p f r

/-- Take the first element that satisfies `p` out of a list. -/
def takeFirst {α : Type} (p : α → Bool) : List α → Option (α × List α)
  | [] => none
  | a :: r =>
    if p a then some (a, r)
    else match takeFirst p r with
      | none => none
      | some (b, q) => some (b, a :: q)

/-- The pages, slots or numbers of a range. -/
def rangeFrom (lo n : Nat) : List Nat := (List.range n).map (lo + ·)

end Sys2Proof.Machine
end

