-- ==== Sys2Proof/Machine/State.lean ====
section
/-! DEFINITION. The state of the A1 module as the block holds it, the reasons a step can stop, and the state right
after input power is applied. Parts of the state are in Types; INVENTORY.md lists every field with its rule. -/

namespace Sys2Proof.Machine

/-- Reasons a step stops with a fault. No rule of the manual stops the module as a whole: core faults, poison and
refusals of commands are effects on the state. -/
inductive Fault where
  /-- Raised by LINE_READ, LINE_WRITE, KITTY_ACCESS and KITTY_ATOMIC for an address that no stack holds (R214): no controller
  is there to receive the access. Safe: a step that stops here claims nothing. -/
  | noSuchLine
  deriving DecidableEq, Repr

/-- Reasons a step refuses a command. -/
inductive Refusal where
  /-- Raised by Dispatch for a command that has no meaning yet. Safe: nothing is claimed of the command. -/
  | notModelled (mnemonic : String)
  /-- Raised by TEST_ACCESS_PORT_INSTRUCTION for an instruction other than IDCODE, BYPASS and the required ones while
  the DEBUG state is not production: R612 and R595 give such an instruction no effect. Safe: the step stops. -/
  | debugInstructionUnspecified
  deriving DecidableEq, Repr

/-- The state of the module. -/
structure State where
  /-- Commands waiting, first in, first out. -/
  pending : List Instr
  /-- The model's own counter of free values (not the manual's). -/
  freeNext : Nat
  -- compute die (chapters 4, 9, 10)
  cores : Sparse Core
  kitty : Sparse (Option CLine)
  repairMap : Sparse Nat
  retiredCores : List Nat
  badCores : List Nat
  paths : List (PathId × Path)
  pathReplays : Nat
  lanesSpared : Nat
  pathsFailed : Nat
  -- tricks, credits, tallies (chapter 9)
  tricks : Sparse Trick
  known : Sparse W32
  clusterPlays : Sparse Nat
  arrives : List (Nat × Nat × Nat)
  releases : List (Nat × Nat × W32)
  streams : Sparse Stream
  creditFlight : List (Nat × Nat)
  pushes : List PushFlight
  latchFlight : List LatchFlight
  tallies : Sparse TableTally
  spanLateDrops : Nat
  -- stacks (chapters 7, 8, 12)
  array : Memory
  stackMap : Sparse Stack
  regs : Sparse Regulator
  regWait : List (Nat × Nat × Xfer)
  directory : Sparse (Option DirState)
  unrepaired : List Nat
  refetches : List (Nat × Nat × BitVec 16)
  -- deck loader (chapter 3)
  loader : Loader
  -- fabric (chapter 11)
  ports : Sparse Port
  gen : BitVec 16
  genLateDrops : Nat
  quarThreshold : BitVec 16
  routes : Sparse (BitVec 16)
  routesPending : Option (Sparse (BitVec 16))
  lastRound : W32
  fabOut : List (Option Nat × Frame)
  flitOut : List (Nat × List (List Byte))
  mctpParts : List (Nat × Nat × List Byte)
  fabTags : List (Nat × Nat)
  fabTag : Nat
  -- serving and cache (chapters 13, 14)
  channels : Sparse Channel
  sessions : Sparse Session
  admitNext : Nat
  tables : Sparse TableRegs
  rounds : Sparse RoundState
  cache : Cache
  -- host (chapter 15)
  host : HostPort
  replies : Sparse (Option CciReply)
  background : Option Background
  logs : Sparse EventLog
  seqs : Sparse W32
  -- power, thermal, start-up, security (chapters 2, 16, 17, 18)
  meter : BitVec 56
  meterHi : BitVec 24
  talHi : Sparse W32
  ringOsc : Bool
  deadlines : List (Deadline × Nat)
  refLostSeen : Bool
  pace : Sparse (BitVec 32)
  power : Power
  ctl : Control
  sec : Security
  deriving DecidableEq, Repr

/-- An empty prefix tree and page bookkeeping. -/
def Cache.empty : Cache :=
  { pages := [], rebuilding := false, scanNext := 0, entered := 0, pins := [], spillUsed := [], buckets := [], collided := [],
    treeFullAt := none, jobs := [] }

/-- The CXL port before its link trains (Tables 15.2 to 15.13). -/
def HostPort.reset : HostPort :=
  { linkUp := false, width := 0, rate := 0, perst := true, busMaster := false, decoders := [], snoop := [],
    biPending := [], slow := [], uio := [], uioTag := 0, policy := [], partner := [], partnerTotal := 0,
    partnerSec := [], partnerLastSec := 0, out := [], poisonLogged := [], mediaRecords := [], dmaDrops := 0,
    ideInsecure := 0, leaving := [] }

/-- Power and thermal state when input power is applied (Tables 16.7 to 16.9). -/
def Power.reset : Power :=
  { inputOn := false, inputLow := false, voltage := 0, enableOpen := false, tripped := false, tripLatch := false,
    domains := [], diodes := [], depthDie := 0, depthNb0 := 0, depthNb1 := 0, floorDie := false, floorNb0 := false,
    floorNb1 := false, throttleAt := 0x5F, limitRejected := false, shutdown := false, mgmtAddr := 0, watts := 0 }

/-- Control state at power-up (Tables 15.4, 17.7, 17.8). -/
def Control.reset : Control :=
  { idState := .boot, mediaReady := false, bootSlot := 0, fw0 := none, fw1 := none, fwMark0 := .empty, fwMark1 := .empty,
    fwPhase := .none, fwMarksPending := false, activeCore := 0, standbyReady := false, beat0 := 0,
    beat1 := 0, beatSeen := 0, missed := 0, mgmtCount := 0, hangs := 0, mgmtRestarts := 0, selfTest := SelfTest.none,
    testing := false, selfTestStart := 0, keepMemory := false, firstFailure := 0, recovering := [], recKind := .wholeModule, recCount := 0,
    rejoin := false, group := .none, demoted := false, successorRole := false,
    joined := [], readyFrom := [], awaitAlign := false, abortCode := 0, requestedAbort := none, probing := false,
    probesMissed := 0, windowOpen := false, spareCores := [], windowDone := [], windowAsked := false, windowActions := 0,
    windowDeferred := 0, roundsSinceWindow := 0, stalledRound := none, heldSwitch := false }

/-- Fuses and keys of a module whose fuses have never been written. -/
def Security.reset : Security :=
  { vendorHash := 0, ownerHash := [], ownerState := [], svnMin := 0, uds := 0, udsBlocked := false, debugFuse := 0,
    unlockRecord := false, debug := 0, cdi := 0, nonces := [], fuseQueue := [], fuseLogged := false,
    spdmVersion := false, spdmCaps := false, spdmAlgs := false, spdmSession := false, spdmHandshake := false,
    keySets := [], keyActive := [], tap := 0 }

/-- The module at power-up, before the first event of Table 17.1. -/
def State.reset : State :=
  { pending := [], freeNext := 0, cores := [], kitty := [], repairMap := [], retiredCores := [],
    badCores := [], paths := [], pathReplays := 0, lanesSpared := 0, pathsFailed := 0, tricks := [], known := [],
    clusterPlays := [], arrives := [], releases := [], streams := [], creditFlight := [], pushes := [],
    latchFlight := [], tallies := [], spanLateDrops := 0, array := [], stackMap := [], regs := [], regWait := [],
    directory := [], unrepaired := [], refetches := [], loader := Loader.empty, ports := [], gen := 0, genLateDrops := 0,
    quarThreshold := 0x0040, routes := [], routesPending := none, lastRound := 0, fabOut := [], flitOut := [], mctpParts := [], fabTags := [],
    fabTag := 0, channels := [], sessions := [], admitNext := 0, tables := [], rounds := [], cache := Cache.empty,
    host := HostPort.reset, replies := [], background := none, logs := [], seqs := [], meter := 0, meterHi := 0,
    talHi := [], ringOsc := false, deadlines := [], refLostSeen := false, pace := [], power := Power.reset, ctl := Control.reset,
    sec := Security.reset }

end Sys2Proof.Machine
end

