-- ==== Sys2Proof/Machine/Events.lean ====
section
/-! DEFINITION. Fault and event codes (chapter 20), event records and the four event logs (R525, R640 to R643). -/

namespace Sys2Proof.Machine

/-- What every meaning answers. -/
abbrev Out := Host.Outcome State Fault Refusal

/-- A code's CLASS, SEVERITY and NUMBER (R636, R637): the three the tables of chapter 20 fix. -/
structure Ev where
  cls : Nat
  sev : Nat
  num : Nat
  deriving DecidableEq, Repr

/-! ### The codes of Tables 20.5 to 20.14, by name -/

def evIntPathLaneSpared : Ev := ⟨1, 1, 0x0101⟩
def evIntPathFailed : Ev := ⟨1, 2, 0x0102⟩
def evIntStoredWordParity : Ev := ⟨1, 1, 0x0103⟩
def evIntLinePersistent : Ev := ⟨1, 1, 0x0201⟩
def evIntLinePoisoned : Ev := ⟨1, 2, 0x0202⟩
def evIntLineRepaired : Ev := ⟨1, 0, 0x0203⟩
def evIntSourceUnreachable : Ev := ⟨1, 2, 0x0204⟩
def evIntSourceMismatch : Ev := ⟨1, 1, 0x0205⟩
def evIntLogSuppressed : Ev := ⟨1, 1, 0x0206⟩
def evIntWcbMergePoison : Ev := ⟨1, 2, 0x0301⟩
def evIntScrubTrump : Ev := ⟨1, 1, 0x0401⟩
def evIntScrubLapLate : Ev := ⟨1, 1, 0x0402⟩
def evIntScrubLapDone : Ev := ⟨1, 0, 0x0403⟩
def evIntSpareRow : Ev := ⟨1, 0, 0x0501⟩
def evIntSpareColumn : Ev := ⟨1, 0, 0x0502⟩
def evIntSpareExhausted : Ev := ⟨1, 2, 0x0503⟩
def evIntSpareDeferred : Ev := ⟨1, 1, 0x0504⟩
def evIntSpareListFull : Ev := ⟨1, 1, 0x0505⟩
def evIntSpareSoft : Ev := ⟨1, 0, 0x0506⟩
def evIntPoisonAddress : Ev := ⟨1, 2, 0x0601⟩
def evIntPoisonPredicate : Ev := ⟨1, 2, 0x0602⟩
def evIntPoisonToken : Ev := ⟨1, 1, 0x0603⟩
def evIntPoisonToHost : Ev := ⟨1, 1, 0x0604⟩
def evIntBusError : Ev := ⟨1, 1, 0x0605⟩
def evSynWaitUnplayed : Ev := ⟨2, 2, 0x0101⟩
def evSynCreditUnderflow : Ev := ⟨2, 2, 0x0201⟩
def evSynCreditOverflow : Ev := ⟨2, 2, 0x0202⟩
def evSynCreditStopped : Ev := ⟨2, 2, 0x0203⟩
def evSynSpanEpoch : Ev := ⟨2, 2, 0x0301⟩
def evSynSpanUnknown : Ev := ⟨2, 2, 0x0302⟩
def evSynMsgPoison : Ev := ⟨2, 2, 0x0303⟩
def evSynTallyDrift : Ev := ⟨2, 1, 0x0401⟩
def evDckMagic : Ev := ⟨3, 1, 0x0001⟩
def evDckFormat : Ev := ⟨3, 1, 0x0002⟩
def evDckGeneration : Ev := ⟨3, 1, 0x0003⟩
def evDckLength : Ev := ⟨3, 1, 0x0004⟩
def evDckKeySlot : Ev := ⟨3, 1, 0x0005⟩
def evDckDigest : Ev := ⟨3, 1, 0x0006⟩
def evDckSignature : Ev := ⟨3, 1, 0x0007⟩
def evDckReservedNonzero : Ev := ⟨3, 1, 0x0008⟩
def evDckCardFrame : Ev := ⟨3, 1, 0x0009⟩
def evDckCardUnknown : Ev := ⟨3, 1, 0x000A⟩
def evDckCardVersion : Ev := ⟨3, 1, 0x000B⟩
def evDckCardCount : Ev := ⟨3, 1, 0x000C⟩
def evDckCardField : Ev := ⟨3, 1, 0x000D⟩
def evDckConsistency : Ev := ⟨3, 1, 0x000E⟩
def evDckState : Ev := ⟨3, 1, 0x0010⟩
def evDckStageFetch : Ev := ⟨3, 1, 0x0011⟩
def evDckStoreWindow : Ev := ⟨3, 1, 0x0012⟩
def evDckArmIndex : Ev := ⟨3, 1, 0x0013⟩
def evDckArmLiveConflict : Ev := ⟨3, 1, 0x0014⟩
def evDckPeerMismatch : Ev := ⟨3, 1, 0x0015⟩
def evDckSwitchTimeout : Ev := ⟨3, 1, 0x0016⟩
def evDckSwitchCancelled : Ev := ⟨3, 1, 0x0017⟩
def evDckSwitchCommit : Ev := ⟨3, 2, 0x0018⟩
def evDckDiscarded : Ev := ⟨3, 0, 0x0019⟩
def evDckNotDealer : Ev := ⟨3, 1, 0x001A⟩
def evDckOptionalSkipped : Ev := ⟨3, 0, 0x0020⟩
def evDckSwitched : Ev := ⟨3, 0, 0x0021⟩
def evDckBootFallback : Ev := ⟨3, 1, 0x0022⟩
def evDckBootNone : Ev := ⟨3, 2, 0x0023⟩
def evTnsPlayIllegal : Ev := ⟨4, 2, 0x0101⟩
def evTnsOperand : Ev := ⟨4, 2, 0x0102⟩
def evTnsTypePair : Ev := ⟨4, 2, 0x0103⟩
def evTnsScratchRange : Ev := ⟨4, 2, 0x0104⟩
def evTnsAddressRange : Ev := ⟨4, 2, 0x0105⟩
def evTnsRegionDenied : Ev := ⟨4, 2, 0x0106⟩
def evTnsAlign : Ev := ⟨4, 2, 0x0107⟩
def evTnsAccKind : Ev := ⟨4, 2, 0x0108⟩
def evTnsTicket : Ev := ⟨4, 2, 0x0109⟩
def evTnsSoftware : Ev := ⟨4, 2, 0x010A⟩
def evTnsDescInvalid : Ev := ⟨4, 2, 0x010B⟩
def evTnsCopyOverlap : Ev := ⟨4, 2, 0x010C⟩
def evTnsScriptRowRange : Ev := ⟨4, 2, 0x0201⟩
def evTnsScriptHostShared : Ev := ⟨4, 2, 0x0202⟩
def evTnsScriptLatch : Ev := ⟨4, 2, 0x0203⟩
def evTnsScriptWriteRefused : Ev := ⟨4, 2, 0x0204⟩
def evTnsScriptUnavailable : Ev := ⟨4, 2, 0x0205⟩
def evTnsScriptParam : Ev := ⟨4, 2, 0x0206⟩
def evHstLinkDegraded : Ev := ⟨5, 1, 0x0101⟩
def evHstHdmCommitRefused : Ev := ⟨5, 1, 0x0201⟩
def evHstBiTimeout : Ev := ⟨5, 1, 0x0202⟩
def evHstCacheGoErr : Ev := ⟨5, 1, 0x0301⟩
def evHstWindowInUse : Ev := ⟨5, 1, 0x0401⟩
def evHstSlowTierError : Ev := ⟨5, 1, 0x0402⟩
def evHstPartnerViolation : Ev := ⟨5, 1, 0x0501⟩
def evHstBmeCleared : Ev := ⟨5, 1, 0x0601⟩
def evHstFlr : Ev := ⟨5, 1, 0x0602⟩
def evHstCxlReset : Ev := ⟨5, 1, 0x0603⟩
def evHstHotReset : Ev := ⟨5, 1, 0x0604⟩
def evFabTrainFail : Ev := ⟨6, 2, 0x0101⟩
def evFabVersionMismatch : Ev := ⟨6, 1, 0x0102⟩
def evFabNeighbourMismatch : Ev := ⟨6, 1, 0x0103⟩
def evFabLinkDown : Ev := ⟨6, 2, 0x0104⟩
def evFabPortRetired : Ev := ⟨6, 2, 0x0201⟩
def evFabPeerViolation : Ev := ⟨6, 1, 0x0301⟩
def evFabPortQuarantined : Ev := ⟨6, 2, 0x0302⟩
def evFabPortCleared : Ev := ⟨6, 0, 0x0303⟩
def evFabNoRoute : Ev := ⟨6, 1, 0x0401⟩
def evFabRouteInvalid : Ev := ⟨6, 1, 0x0402⟩
def evFabRouteLoaded : Ev := ⟨6, 0, 0x0403⟩
def evFabAbortRequested : Ev := ⟨6, 1, 0x0501⟩
def evFabGroupAbort : Ev := ⟨6, 1, 0x0502⟩
def evThmThrottleStart : Ev := ⟨7, 1, 0x0101⟩
def evThmThrottleEnd : Ev := ⟨7, 0, 0x0102⟩
def evThmThrottleFloor : Ev := ⟨7, 2, 0x0103⟩
def evThmShutdown : Ev := ⟨7, 3, 0x0104⟩
def evThmShutdownClear : Ev := ⟨7, 1, 0x0105⟩
def evThmTripped : Ev := ⟨7, 3, 0x0106⟩
def evThmSensorFail : Ev := ⟨7, 2, 0x0107⟩
def evThmStoreWindow : Ev := ⟨7, 1, 0x0108⟩
def evThmFuseWindow : Ev := ⟨7, 1, 0x0109⟩
def evThmStackRefreshStep : Ev := ⟨7, 0, 0x0201⟩
def evThmStackOverClass : Ev := ⟨7, 1, 0x0202⟩
def evThmStackWriteHold : Ev := ⟨7, 1, 0x0203⟩
def evThmStackWriteRefused : Ev := ⟨7, 2, 0x0204⟩
def evThmStackRefusedFull : Ev := ⟨7, 2, 0x0205⟩
def evThmStackWriteResume : Ev := ⟨7, 0, 0x0206⟩
def evThmInputLow : Ev := ⟨7, 1, 0x0301⟩
def evThmDomainFault : Ev := ⟨7, 2, 0x0302⟩
def evSrvNotDealer : Ev := ⟨8, 1, 0x0101⟩
def evSrvNoDeck : Ev := ⟨8, 1, 0x0102⟩
def evSrvChanRefused : Ev := ⟨8, 1, 0x0103⟩
def evSrvHandleStale : Ev := ⟨8, 1, 0x0104⟩
def evSrvRingOverrun : Ev := ⟨8, 1, 0x0105⟩
def evSrvCqGap : Ev := ⟨8, 1, 0x0106⟩
def evSrvRoundOverrun : Ev := ⟨8, 1, 0x0201⟩
def evSrvRiderPromoted : Ev := ⟨8, 0, 0x0202⟩
def evSrvRoundAreaFull : Ev := ⟨8, 1, 0x0203⟩
def evSrvTableDisabled : Ev := ⟨8, 0, 0x0301⟩
def evSrvTableEnabled : Ev := ⟨8, 0, 0x0302⟩
def evSrvShipFailed : Ev := ⟨8, 1, 0x0401⟩
def evSrvSessionLost : Ev := ⟨8, 2, 0x0402⟩
def evSrvTreeFull : Ev := ⟨8, 1, 0x0501⟩
def evSrvTreeRebuild : Ev := ⟨8, 1, 0x0502⟩
def evSrvTreeReady : Ev := ⟨8, 0, 0x0503⟩
def evSrvKeyCollision : Ev := ⟨8, 1, 0x0504⟩
def evSrvSpillFailed : Ev := ⟨8, 1, 0x0505⟩
def evSrvPauseExpired : Ev := ⟨8, 0, 0x0506⟩
def evSrvPageRecompute : Ev := ⟨8, 1, 0x0507⟩
def evSrvPageLost : Ev := ⟨8, 2, 0x0508⟩
def evSrvPinRefused : Ev := ⟨8, 1, 0x0509⟩
def evSecFwRejected : Ev := ⟨9, 1, 0x0101⟩
def evSecSvnRefused : Ev := ⟨9, 1, 0x0102⟩
def evSecSvnAdvanced : Ev := ⟨9, 0, 0x0103⟩
def evSecOwnerEnrolled : Ev := ⟨9, 0, 0x0201⟩
def evSecOwnerRevoked : Ev := ⟨9, 0, 0x0202⟩
def evSecLastSlot : Ev := ⟨9, 1, 0x0203⟩
def evSecStagedRevoked : Ev := ⟨9, 1, 0x0204⟩
def evSecCmdRejected : Ev := ⟨9, 1, 0x0301⟩
def evSecDebugUnlocked : Ev := ⟨9, 2, 0x0401⟩
def evBupSelftestPass : Ev := ⟨10, 0, 0x0101⟩
def evBupSelftestFail : Ev := ⟨10, 3, 0x0102⟩
def evBupMisdealEnter : Ev := ⟨10, 3, 0x0103⟩
def evBupMisdealExit : Ev := ⟨10, 0, 0x0104⟩
def evBupInMisdeal : Ev := ⟨10, 1, 0x0105⟩
def evBupFwBootFallback : Ev := ⟨10, 1, 0x0106⟩
def evBupFwNone : Ev := ⟨10, 3, 0x0107⟩
def evBupRetestRefused : Ev := ⟨10, 1, 0x0108⟩
def evBupHangControl : Ev := ⟨10, 2, 0x0201⟩
def evBupRoundStall : Ev := ⟨10, 2, 0x0202⟩
def evBupMgmtRestart : Ev := ⟨10, 2, 0x0203⟩
def evBupRecoveryStart : Ev := ⟨10, 1, 0x0301⟩
def evBupRecoveryDone : Ev := ⟨10, 0, 0x0302⟩
def evBupWcbLost : Ev := ⟨10, 2, 0x0303⟩
def evBupMemberLost : Ev := ⟨10, 2, 0x0304⟩
def evBupDealerLost : Ev := ⟨10, 2, 0x0305⟩
def evBupGroupFormed : Ev := ⟨10, 0, 0x0306⟩
def evBupDemoted : Ev := ⟨10, 1, 0x0307⟩
def evBupFwActivated : Ev := ⟨10, 0, 0x0401⟩
def evBupFwActivateFail : Ev := ⟨10, 1, 0x0402⟩
def evBupRepairWindow : Ev := ⟨10, 0, 0x0501⟩
def evBupRefclkLost : Ev := ⟨10, 2, 0x0601⟩
def evBupRefclkRestored : Ev := ⟨10, 0, 0x0602⟩

/-- The code word of an occurrence raised by unit `u` (R636). -/
def Ev.word (e : Ev) (u : Nat) : W32 := BitVec.ofNat 32 (e.cls * 2 ^ 28 + e.sev * 2 ^ 24 + u * 2 ^ 16 + e.num)

/-! ### Units (Table 20.3) -/

/-- Control firmware on the active control core. -/
def uCtl : Nat := 0x00
/-- Management core and boot ROM. -/
def uMgmt : Nat := 0x01
/-- CXL port. -/
def uCxl : Nat := 0x02
/-- Deck loader. -/
def uDeck : Nat := 0x03
/-- Cluster `c`. -/
def uCluster (c : Nat) : Nat := 0x10 + c
/-- Stack `n`. -/
def uStack (n : Nat) : Nat := 0x50 + n
/-- Near-bank units of stack `n`. -/
def uNear (n : Nat) : Nat := 0x58 + n
/-- Weazen port `p`. -/
def uPort (p : Nat) : Nat := 0x60 + p
/-- Fabric, not port-specific. -/
def uFabric : Nat := 0x6F
/-- Diode `d`. -/
def uDiode (d : Nat) : Nat := 0x70 + d
/-- Power input. -/
def uInput : Nat := 0x79
/-- Switched domain `n`. -/
def uDomain (n : Nat) : Nat := 0x80 + n

/-- The die that logs a unit's codes (Table 15.11): a stack's units log on its base die, all others on the compute
die (DEDUCED from Table 20.3). -/
def dieOf (u : Nat) : Nat := if 0x50 ≤ u ∧ u < 0x60 then u % 8 + 1 else 0

/-! ### Epochs of log entries (R344) -/

/-- A trick slot of the sync hubs. -/
def getTrick (s : State) (n : Nat) : Trick := sget Trick.empty s.tricks n

/-- The round-closing trick of a table: the lowest-numbered trick of KIND 1 in the table's pool (R314). -/
def closingTrick (d : Deck) (t : Nat) : Option Nat :=
  ((d.tricks.filter fun e => e.table = t && e.spanning && e.trick ≠ 0).map (·.trick)).min?

/-- The EPOCH that an entry carries: of its table's round-closing trick, or of slot 0 (R344). -/
def epochFor (s : State) (table : Option Nat) : W32 :=
  match table, s.loader.running with
  | some t, some d =>
    match closingTrick d t with
    | some n => (getTrick s n).epoch
    | none => (getTrick s 0).epoch
  | _, _ => (getTrick s 0).epoch

/-! ### Logging -/

/-- An event log at power-up. -/
def emptyLog : EventLog := { cleared := 0, records := [], overflow := false, overflowCount := 0 }

/-- Add a record to a log of 1,024 records; a full log drops it, sets its overflow flag and counts (R525). -/
def addRecord (l : EventLog) (r : EventRec) : EventLog :=
  if l.records.length < 1024 then { l with records := l.records ++ [r] }
  else { l with overflow := true, overflowCount := satInc 0xFFFF l.overflowCount }

/-- Send one MSI-X vector; none is issued while bus mastering is off (R527). -/
def sendMsix (s : State) (v : Nat) : State :=
  if s.host.busMaster then { s with host := { s.host with out := s.host.out ++ [.msix v] } } else s

/-- The vector that the event interrupt policy names for a log, where its setting asks for MSI-X (R521; the setting's
layout is CXL 3.1's: mode in bits 1:0, message number in bits 7:4). -/
def policyVector (s : State) (log : Nat) : Option Nat :=
  match s.host.policy[log]? with
  | some b => if b.toNat % 4 = 1 then some (b.toNat / 16) else none
  | none => none

/-- Add the standard record of an event to the log that the event's severity names (R525, Table 15.12). Its code and sequence number
are not part of it. -/
def addStandard (s : State) (e : Ev) (d : Detail) : State :=
  let r : EventRec := { code := 0, seq := 0, die := 0, epoch := 0, detail := d }
  { s with logs := smod emptyLog s.logs e.sev (addRecord · r) }

/-- Raise a code on a die: one record with the die's next sequence number, in the log its severity names (R62, R525,
R640). -/
def logAtDie (s : State) (e : Ev) (unit die : Nat) (table : Option Nat) (d : Detail) : State :=
  let sq := sget 0 s.seqs die + 1
  let r : EventRec := { code := e.word unit, seq := sq, die := die, epoch := epochFor s table, detail := d }
  let s := { s with seqs := sput 0 s.seqs die sq,
                    logs := smod emptyLog s.logs e.sev (addRecord · r) }
  match policyVector s e.sev with
  | some v => sendMsix s v
  | none => s

/-- Raise a code on the die of its unit. -/
def logEvent (s : State) (e : Ev) (unit : Nat) (table : Option Nat) (d : Detail) : State :=
  logAtDie s e unit (dieOf unit) table d


/-- Raise a code with general detail (R641, Table 20.4). -/
def logGen (s : State) (e : Ev) (unit : Nat) (table : Option Nat) (a32 : List W32) (a64 : List W64) : State :=
  logEvent s e unit table (.general a32 a64)

/-- Raise a code with no detail values. -/
def logBare (s : State) (e : Ev) (unit : Nat) : State := logEvent s e unit none .none

end Sys2Proof.Machine
end

