-- ==== Sys2Proof/Config.lean ====
section
/-! DEFINITION. What an implementation fixes and the free values: values the specification leaves open. A free value
is an opaque constant, so nothing proved of the model can rest on what it is. -/

namespace Sys2Proof.Config

/-- A fresh 64-bit value for each number: the bits of a value the specification leaves open at that point (R274,
R399, R610). The state's counter `freeNext` numbers them. -/
opaque freeValue : Nat → W64

/-- Which of the values that the error bound of Table 5.7 allows a transcendental play returns, as a signed number of
units in the last place. The first argument is the play's operation code, the second the FP32 operand (R180, R181). -/
opaque ulpChoice : Nat → W32 → Int

/-- Which line of a full read-cache set a miss replaces (R112): a position in the set, taken modulo its size. -/
opaque victim : Nat → Nat

/-- The vendor ID "Velyrith's assigned vendor ID" of R498, whose number the manual does not give. -/
opaque vendorId : BitVec 16

/-- The Reed-Solomon check bytes of a flit's first 211 bytes, by their place (R354): the manual names RS(224,211) over GF(2⁸) and gives
neither the field's polynomial nor the code's generator. -/
opaque flitCheck : List Byte → Nat → Byte

/-- Which allowed order two events take that the specification leaves unordered: true takes the first. -/
opaque orderChoice : Nat → Bool

/-- Bytes of a standard CXL or SPDM payload whose layout stands in those standards and not in the manual. -/
opaque standardBytes : Nat → List Byte

/-- The digest of the boot ROM, measurement block 1 of Table 18.4. -/
opaque bootRomDigest : BitVec 384

/-- The ECDSA P-384 signature value that the alias key makes (R602); the manual does not give the per-signature
secret number. Arguments: CDI and message hash. -/
opaque aliasSign : BitVec 384 → BitVec 384 → List Byte

/-- The certificate chain of slot 0, made at manufacture and at boot (R600, R602), as a function of CDI. -/
opaque certChain : BitVec 384 → List Byte

/-- Whether the verify data of an SPDM FINISH match the handshake's secret, which the state does not hold (R602). -/
opaque finishMatches : List Byte → Bool

/-- Whether the deck marks an emitted token as final, "as the deck's sampling defines" (R428): the arguments are the
request's sampling parameters and the token. -/
opaque finalMark : W64 → W32 → Bool

/-- The dealer of the prefill pool to which a decode dealer hands the prompts of a table, where it hands them to one:
R447 leaves both to the installation. -/
opaque poolDealer : Nat → Option Nat

/-- Device address of a session slot's fetched prompt tokens (Table 13.12, PROMPT): the manual gives them no place. -/
opaque promptAddr : Nat → W64

/-- Index of a session slot's page list (Table 13.12, PAGES): the manual gives no numbering. -/
opaque pageListIndex : Nat → W32

/-- The decode members to which a member of a prefill pool writes its copy of a shipped page: its own module index and the decode dealer's.
R447 does not say which pool member holds whose slices. -/
opaque shipTargets : Nat → Nat → List Nat

/-- A register of the CXL device register block, BAR0 offsets 0x1000 to 0xFFFF: its capabilities array, device status, Primary Mailbox and
memory device status are laid out as CXL 3.1 gives, which the manual does not repeat (R498). The first argument is whether media is
reported ready (R503). -/
opaque mbxWord : Bool → Nat → BitVec 32

/-- Input power in watts that PWR_INPUT.POWER averages (Table 16.9): measured, not computed, by the module. -/
opaque watts : Nat → Nat

end Sys2Proof.Config
end

