-- ==== Sys2Proof/Machine/Wire.lean ====
section
/-! DEFINITION. Bytes on a Weazen link: frames (Tables 11.7, 11.8), the messages that MGMT frames carry (Tables 13.13, 13.14, 14.7, 17.3)
and flits (Tables 11.4, 11.5). -/

namespace Sys2Proof.Machine

/-! ### Frame types (Table 11.8) -/

/-- The virtual lane of a frame type; none for a type that Table 11.8 does not define. -/
def laneOfType (t : Nat) : Option Nat :=
  if [0x01, 0x02, 0x03, 0x04, 0x05, 0x08, 0x09, 0x0A, 0x0B].contains t then some 3
  else if [0x10, 0x11].contains t then some 2
  else if [0x18, 0x19, 0x1A, 0x1B, 0x1C].contains t then some 1
  else if [0x20, 0x21, 0x22, 0x3F].contains t then some 0
  else none

/-- TYPE of a frame (Table 11.8); the module's own management messages travel in MGMT frames. -/
def typeOf : FrameBody → Nat
  | .push .. => 0x01 | .pushAck .. => 0x02 | .credit .. => 0x03 | .streamStop .. => 0x04 | .tallyMark .. => 0x05
  | .memRead .. => 0x08 | .memData .. => 0x09 | .memWrite .. => 0x0A | .memAck .. => 0x0B
  | .trickArrive .. => 0x10 | .trickRelease .. => 0x11 | .roundMark .. => 0x18 | .abortReq .. => 0x19
  | .abort .. => 0x1A | .switchAnnounce .. => 0x1B | .switchCancel .. => 0x1C | .quarClear .. => 0x21
  | .train .. => 0x22 | .nack .. => 0x3F
  | .mgmt .. | .serving .. | .group .. | .switchGather | .switchState .. | .directoryAsk .. | .directoryAnswer .. => 0x20
  | .raw t _ _ => t

/-- The virtual lane of a frame. -/
def laneOf (b : FrameBody) : Nat := (laneOfType (typeOf b)).getD 0

/-- Whether the frame is one of the memory frames (R367). -/
def isMem (b : FrameBody) : Bool := [0x08, 0x09, 0x0A, 0x0B].contains (typeOf b)

/-- LENGTHs that a frame type may have: the least and the greatest count of 8-byte units, header and poison mask included. PUSH carries 1
to 512 bytes of data, MEM_DATA none or up to 512, MEM_WRITE 64 to 512, MGMT at most 512. -/
def lengthsOf (t : Nat) (poison : Bool) : Nat × Nat :=
  let m := if poison then 2 else 0
  if t = 0x01 then (4 + m, 67 + m)
  else if t = 0x09 then (3 + m, 67 + m)
  else if t = 0x0A then (11 + m, 67 + m)
  else if t = 0x20 then (3 + m, 66 + m)
  else if t = 0x22 then (6 + m, 6 + m)
  else if t = 0x3F then (4 + m, 4 + m)
  else (3 + m, 3 + m)

/-- The bits of ARG that a frame type uses; the others are reserved. -/
def argBits (t : Nat) : Nat :=
  if [0x01, 0x02, 0x03, 0x04, 0x05, 0x10, 0x11].contains t then 14
  else if [0x08, 0x09, 0x0A, 0x0B, 0x1A].contains t then 16
  else if t = 0x21 then 4
  else if t = 0x3F then 8
  else 0

/-! ### Messages in MGMT frames (R434, Tables 13.13, 13.14, 17.3) -/

/-- The bytes that come before a message in an MCTP packet: version and endpoints, start and end flags, the vendor-defined message type and
the vendor ID, and a byte that tells the kinds of message apart. DSP0236 and the layouts of this module leave the endpoints and that byte
open (DESIGN CHOICE, log 171). `flags` has bit 7 on the first packet of a message and bit 6 on the last. -/
def mctpHead (flags kind : Nat) : List Byte :=
  [0x01, 0x00, 0x00, BitVec.ofNat 8 (flags + 8), 0x7E] ++ leBytes 2 Config.vendorId.toNat ++ [BitVec.ofNat 8 kind]

/-- An entry of a serving message (Table 13.14). -/
def servEntryBytes (e : ServEntry) : List Byte :=
  leBytes 8 e.session.toNat ++ leBytes 4 e.position.toNat ++ leBytes 2 e.slot ++ leBytes 1 e.kind ++ [e.flags] ++
    leBytes 2 e.count ++ leBytes 2 0 ++ leBytes 4 e.newPage.toNat

/-- A serving message (Table 13.13); the prompt tokens of a PREFILL_JOB part follow its entry (R447). -/
def servBytes (m : ServMsg) : List Byte :=
  leBytes 1 m.kind ++ leBytes 1 m.part ++ leBytes 1 m.parts ++ leBytes 1 m.table ++ leBytes 4 m.round.toNat ++
    leBytes 2 m.gen.toNat ++ leBytes 2 m.entries.length ++ leBytes 4 0 ++ m.entries.flatMap servEntryBytes ++
    m.tokens.flatMap fun t => leBytes 4 t.toNat

/-- A group message (Table 17.3). -/
def groupBytes (m : GroupMsg) : List Byte :=
  leBytes 1 m.kind ++ leBytes 1 0 ++ leBytes 2 m.part ++ leBytes 2 m.parts ++ leBytes 2 m.gen.toNat ++ leBytes 4 m.group.toNat ++
    leBytes 4 m.arg.toNat ++ leBytes 8 m.deckId.toNat ++ leBytes 4 m.deckSerial.toNat ++ leBytes 2 m.pairs.length ++ leBytes 2 0 ++
    m.pairs.flatMap fun p => leBytes 2 p.1 ++ leBytes 2 0 ++ leBytes 4 p.2.toNat

/-- The class of a region as its card codes it (Table 3.6). -/
def classCode : RecClass → Nat
  | .none => 0
  | .source => 1
  | .recompute => 2
  | .replay => 3

/-- The messages of the gather of a deck switch and of the source directory, whose layouts the manual does not give (DESIGN CHOICE, log
171). -/
def ownBytes : FrameBody → List Byte
  | .switchState st => leBytes 1 (if st.armed then 1 else 0) ++ leBytes 8 st.id.deckId.toNat ++ leBytes 4 st.id.serial.toNat ++
      leBytes 4 st.id.keySlot ++ leBytes 48 st.id.digest.toNat
  | .directoryAsk r => leBytes 2 r
  | .directoryAnswer r none => leBytes 2 r ++ leBytes 1 0
  | .directoryAnswer r (some a) =>
      leBytes 2 r ++ leBytes 1 1 ++ leBytes 8 a.base ++ leBytes 8 a.size ++ leBytes 1 (classCode a.cls) ++ leBytes 1 a.owner
  | _ => []

/-- The kind byte and the bytes of a message that travels in MGMT frames. -/
def messageOf : FrameBody → Option (Nat × List Byte)
  | .serving m => some (1, servBytes m)
  | .group m => some (2, groupBytes m)
  | .switchGather => some (3, [])
  | .switchState st => some (4, ownBytes (.switchState st))
  | .directoryAsk r => some (5, ownBytes (.directoryAsk r))
  | .directoryAnswer r a => some (6, ownBytes (.directoryAnswer r a))
  | _ => none

/-- Packets of at most 512 bytes for a message: one, or a first and a last one. -/
def packetsOf (kind : Nat) (bytes : List Byte) : List (List Byte) :=
  if bytes.length ≤ 504 then [mctpHead 0xC0 kind ++ bytes]
  else [mctpHead 0x80 kind ++ bytes.take 504, mctpHead 0x40 kind ++ bytes.drop 504]

/-- The frames by which a frame leaves: its message in MGMT frames where it is one of the module's own, else itself. -/
def wireFrames (f : Frame) : List Frame :=
  match messageOf f.body with
  | some (k, bytes) => (packetsOf k bytes).map fun p => { f with body := .mgmt p }
  | none => [f]

/-- Numbers of `n` little-endian bytes. -/
def fieldAt (bs : List Byte) (off n : Nat) : Nat := leNat ((bs.drop off).take n)

/-- An entry of a serving message from its 24 bytes. -/
def servEntryOf (bs : List Byte) : ServEntry :=
  { session := w64 (fieldAt bs 0 8), position := w32 (fieldAt bs 8 4), slot := fieldAt bs 12 2, kind := fieldAt bs 14 1,
    flags := BitVec.ofNat 8 (fieldAt bs 15 1), count := fieldAt bs 16 2, newPage := w32 (fieldAt bs 20 4) }

/-- A serving message from its bytes; the part of a PREFILL_JOB carries as many tokens as its entry's COUNT. -/
def servOf (bs : List Byte) : ServMsg :=
  let n := fieldAt bs 10 2
  let es := (List.range n).map fun i => servEntryOf ((bs.drop (16 + 24 * i)).take 24)
  let k := if fieldAt bs 0 1 = 3 then (es.map (·.count)).sum else 0
  { kind := fieldAt bs 0 1, part := fieldAt bs 1 1, parts := fieldAt bs 2 1, table := fieldAt bs 3 1, round := w32 (fieldAt bs 4 4),
    gen := BitVec.ofNat 16 (fieldAt bs 8 2), entries := es,
    tokens := (List.range k).map fun i => w32 (fieldAt bs (16 + 24 * n + 4 * i) 4) }

/-- A group message from its bytes. -/
def groupMsgOf (bs : List Byte) : GroupMsg :=
  { kind := fieldAt bs 0 1, part := fieldAt bs 2 2, parts := fieldAt bs 4 2, gen := BitVec.ofNat 16 (fieldAt bs 6 2),
    group := w32 (fieldAt bs 8 4), arg := w32 (fieldAt bs 12 4), deckId := w64 (fieldAt bs 16 8), deckSerial := w32 (fieldAt bs 24 4),
    pairs := (List.range (fieldAt bs 28 2)).map fun i => (fieldAt bs (32 + 8 * i) 2, w32 (fieldAt bs (36 + 8 * i) 4)) }

/-- The class that a card's code names. -/
def classOfCode (n : Nat) : RecClass :=
  match n with
  | 1 => .source
  | 2 => .recompute
  | 3 => .replay
  | _ => .none

/-- A message by its kind byte. -/
def messageBody (kind : Nat) (bs : List Byte) : Option FrameBody :=
  match kind with
  | 1 => some (.serving (servOf bs))
  | 2 => some (.group (groupMsgOf bs))
  | 3 => some .switchGather
  | 4 => some (.switchState
      { armed := fieldAt bs 0 1 = 1,
        id := { deckId := w64 (fieldAt bs 1 8), serial := w32 (fieldAt bs 9 4), keySlot := fieldAt bs 13 4,
                digest := BitVec.ofNat 384 (fieldAt bs 17 48) } })
  | 5 => some (.directoryAsk (fieldAt bs 0 2))
  | 6 => some (.directoryAnswer (fieldAt bs 0 2)
      (if fieldAt bs 2 1 = 1 then
        some { base := fieldAt bs 3 8, size := fieldAt bs 11 8, cls := classOfCode (fieldAt bs 19 1), owner := fieldAt bs 20 1 }
       else none))
  | _ => none

/-! ### Frames (Tables 11.7 and 11.8) -/

/-- ARG of a frame. -/
def argOf : FrameBody → Nat
  | .push st _ _ _ _ => st
  | .pushAck st _ => st
  | .credit st _ => st
  | .streamStop st _ => st
  | .tallyMark st _ _ => st
  | .memRead tag _ _ => tag
  | .memData tag _ _ _ => tag
  | .memWrite tag _ _ _ => tag
  | .memAck tag _ => tag
  | .trickArrive slot _ _ => slot
  | .trickRelease slot _ _ => slot
  | .abort origin _ _ => origin
  | .quarClear port _ => port
  | .nack reason _ => reason
  | .raw _ arg _ => arg.toNat
  | _ => 0

/-- The TRAIN body (Table 11.3). -/
def trainBytes (b : TrainBody) : List Byte :=
  leBytes 1 b.majorMin ++ leBytes 1 b.majorMax ++ leBytes 1 b.minorMax ++ leBytes 1 b.arch ++ leBytes 2 b.module ++
    leBytes 1 b.port ++ leBytes 1 b.role ++ leBytes 4 b.group.toNat ++ leBytes 4 b.deckSerial.toNat

/-- The fixed body fields of a frame. -/
def bodyFixed : FrameBody → List Byte
  | .push _ off d units _ => leBytes 4 off ++ leBytes 2 d.length ++ leBytes 2 units
  | .pushAck _ units => leBytes 8 (units % 2 ^ 16)
  | .credit _ n => leBytes 8 (n % 2 ^ 16)
  | .streamStop _ code => leBytes 8 code.toNat
  | .tallyMark _ n ep => leBytes 4 n.toNat ++ leBytes 4 ep.toNat
  | .memRead _ a len => leBytes 6 a ++ leBytes 2 len
  | .memData _ st _ _ => leBytes 8 (st % 2 ^ 8)
  | .memWrite _ a d _ => leBytes 6 a ++ leBytes 2 d.length
  | .memAck _ st => leBytes 8 (st % 2 ^ 8)
  | .trickArrive _ g ep => leBytes 4 g.toNat ++ leBytes 4 ep.toNat
  | .trickRelease _ g ep => leBytes 4 g.toNat ++ leBytes 4 ep.toNat
  | .roundMark g r => leBytes 4 g.toNat ++ leBytes 4 r.toNat
  | .abortReq g c => leBytes 4 g.toNat ++ leBytes 4 c.toNat
  | .abort _ g c => leBytes 4 g.toNat ++ leBytes 4 c.toNat
  | .switchAnnounce g n => leBytes 4 g.toNat ++ leBytes 4 n.toNat
  | .switchCancel g c => leBytes 4 g.toNat ++ leBytes 4 c.toNat
  | .quarClear _ target => leBytes 8 (target % 2 ^ 16)
  | .train b => trainBytes b ++ leBytes 16 0
  | .nack _ head => head
  | .raw _ _ body => body
  | _ => []

/-- The data of a frame. -/
def bodyData : FrameBody → List Byte
  | .push _ _ d _ _ => d
  | .memData _ _ d _ => d
  | .memWrite _ _ d _ => d
  | .mgmt p => p
  | b => ((messageOf b).map fun m => mctpHead 0xC0 m.1 ++ m.2).getD []

/-- The word poison mask of a frame's data; of a frame without data, what came with it. -/
def bodyMask (h : FrameHdr) : FrameBody → List Bool
  | .push _ _ _ _ m => m
  | .memData _ _ _ m => m
  | .memWrite _ _ _ m => m
  | _ => h.mask

/-- The 16 bytes of a poison mask: one bit for each 32-bit word of data (R361). -/
def maskBytes (m : List Bool) : List Byte := leBytes 16 ((m.zip (List.range 128)).map fun e => if e.1 then 2 ^ e.2 else 0).sum

/-- A frame's body as it stands on the link: fixed fields, poison mask, data, zero bytes up to a unit boundary (R361). The body of a frame
that passes through is kept as it came. -/
def bodyBytes (f : Frame) : List Byte :=
  match f.body with
  | .raw _ _ body => body
  | b =>
    let bs := bodyFixed b ++ (if f.hdr.poison then maskBytes (bodyMask f.hdr b) else []) ++ bodyData b
    bs ++ List.replicate (8 * ceilDiv bs.length 8 - bs.length) 0

/-- LENGTH of a frame in 8-byte units, header included (Table 11.7). -/
def frameUnits (f : Frame) : Nat := 2 + ceilDiv (bodyBytes f).length 8

/-- The 16 bytes of a frame's header; `cls` is the class in which it travels. -/
def headBytes (cls : Nat) (f : Frame) : List Byte :=
  leBytes 1 (typeOf f.body) ++ leBytes 1 (laneOf f.body + 4 * (cls % 2) + (if f.hdr.poison then 8 else 0)) ++
    leBytes 2 (frameUnits f) ++ leBytes 2 f.hdr.dest ++ leBytes 2 f.hdr.src ++ leBytes 2 f.hdr.gen.toNat ++
    leBytes 1 (if f.hdr.table < 64 then f.hdr.table else 64) ++ leBytes 1 0 ++ leBytes 4 (argOf f.body)

/-- A frame as it stands on the link. -/
def frameBytes (cls : Nat) (f : Frame) : List Byte := headBytes cls f ++ bodyBytes f

/-- A frame as a port receives it: the fields of its header, whether the header's reserved bits are zero, its body and its first 16 bytes. -/
structure RawFrame where
  type : Nat
  lane : Nat
  length : Nat
  arg : W32
  reservedClear : Bool
  hdr : FrameHdr
  body : List Byte
  head : List Byte
  deriving DecidableEq, Repr

/-- Read a frame's header from its bytes (Table 11.7). -/
def readFrame (bs : List Byte) : RawFrame :=
  let t := fieldAt bs 0 1
  let l := fieldAt bs 1 1
  let scope := fieldAt bs 10 1
  let arg := fieldAt bs 12 4
  { type := t, lane := l % 4, length := fieldAt bs 2 2, arg := w32 arg,
    reservedClear := l / 16 = 0 && scope / 128 = 0 && fieldAt bs 11 1 = 0 && arg / 2 ^ argBits t = 0,
    hdr := { dest := fieldAt bs 4 2, src := fieldAt bs 6 2, gen := BitVec.ofNat 16 (fieldAt bs 8 2),
             table := if bitOf scope 6 then 64 else scope % 64, poison := bitOf l 3, cls := l / 4 % 2 },
    body := bs.drop 16, head := bs.take 16 }

/-- A TRAIN body from its bytes. -/
def trainOf (bs : List Byte) : TrainBody :=
  { majorMin := fieldAt bs 0 1, majorMax := fieldAt bs 1 1, minorMax := fieldAt bs 2 1, arch := fieldAt bs 3 1, module := fieldAt bs 4 2,
    port := fieldAt bs 6 1, role := fieldAt bs 7 1, group := w32 (fieldAt bs 8 4), deckSerial := w32 (fieldAt bs 12 4) }

/-- How many bytes of fixed body fields a type has. -/
def fixedBytes (t : Nat) : Nat := if t = 0x20 then 0 else if t = 0x22 then 32 else if t = 0x3F then 16 else 8

/-- The fixed body fields that are reserved: their offset and their bytes. -/
def reservedField (t : Nat) : Nat × Nat :=
  if [0x02, 0x03, 0x21].contains t then (2, 6)
  else if [0x09, 0x0B].contains t then (1, 7)
  else if t = 0x04 then (4, 4)
  else if t = 0x22 then (16, 16)
  else (0, 0)

/-- Read a frame's body at its destination: the body, and the reason for which it breaks the protocol, if it does. -/
def readBody (r : RawFrame) : FrameBody × Option Nat :=
  let bs := r.body
  let a := r.arg.toNat
  let m := if r.hdr.poison then (List.range 128).map fun i => bitOf (fieldAt bs (fixedBytes r.type) 16) i else []
  let data := bs.drop (fixedBytes r.type + (if r.hdr.poison then 16 else 0))
  let w (o : Nat) : W32 := w32 (fieldAt bs o 4)
  let res := reservedField r.type
  let bad := if fieldAt bs res.1 res.2 ≠ 0 then some 3 else none
  match r.type with
  | 0x01 =>
    let n := fieldAt bs 4 2
    (.push a (fieldAt bs 0 4) (data.take n) (fieldAt bs 6 2) m,
      if n = 0 || 512 < n || data.length ≠ 8 * ceilDiv n 8 then some 2 else bad)
  | 0x02 => (.pushAck a (fieldAt bs 0 2), bad)
  | 0x03 => (.credit a (fieldAt bs 0 2), bad)
  | 0x04 => (.streamStop a (w 0), bad)
  | 0x05 => (.tallyMark a (w 0) (w 4), bad)
  | 0x08 => (.memRead a (fieldAt bs 0 6) (fieldAt bs 6 2), bad)
  | 0x09 => (.memData a (fieldAt bs 0 1) data m, bad)
  | 0x0A =>
    let n := fieldAt bs 6 2
    (.memWrite a (fieldAt bs 0 6) (data.take n) m, if data.length ≠ 8 * ceilDiv n 8 then some 2 else bad)
  | 0x0B => (.memAck a (fieldAt bs 0 1), bad)
  | 0x10 => (.trickArrive a (w 0) (w 4), bad)
  | 0x11 => (.trickRelease a (w 0) (w 4), bad)
  | 0x18 => (.roundMark (w 0) (w 4), bad)
  | 0x19 => (.abortReq (w 0) (w 4), bad)
  | 0x1A => (.abort a (w 0) (w 4), bad)
  | 0x1B => (.switchAnnounce (w 0) (w 4), bad)
  | 0x1C => (.switchCancel (w 0) (w 4), bad)
  | 0x20 => (.mgmt data, bad)
  | 0x21 => (.quarClear a (fieldAt bs 0 2), bad)
  | 0x22 => (.train (trainOf bs), bad)
  | 0x3F => (.nack a (bs.take 16), bad)
  | t => (.raw t r.arg bs, some 1)

/-! ### Flits (Tables 11.4 and 11.5) -/

/-- Payload bytes of a flit. -/
def payloadLen : Nat := 200

/-- PARITY: bit `w` is the even parity of 32-bit word `w` of bytes 0 to 203. -/
def parityOf (bs : List Byte) : Nat :=
  ((List.range 51).map fun w => popBits 32 (fieldAt bs (4 * w) 4) % 2 * 2 ^ w).sum

/-- The 211 bytes of a flit before its check bytes: header, payload and trailer. -/
def flitMessage (seq ack : BitVec 10) (nak : Bool) (key count first : Nat) (payload : List Byte) : List Byte :=
  let h := leBytes 4 (seq.toNat + ack.toNat * 2 ^ 10 + (if nak then 2 ^ 20 else 0) + key % 8 * 2 ^ 21 + count % 128 * 2 ^ 24)
  h ++ payload ++ leBytes 7 (parityOf (h ++ payload) + first % 32 * 2 ^ 51)

/-- A flit on its four lanes: byte `i` travels on lane `i` mod 4 (R354). The check bytes are a free function of the others: the manual does
not give the code's generator. -/
def onLanes (message : List Byte) : List (List Byte) :=
  let bs := message ++ (List.range 13).map (Config.flitCheck message)
  (List.range 4).map fun l => (List.range 56).map fun i => (bs[4 * i + l]?).getD 0

/-- The first 211 bytes of a flit from its lanes. -/
def offLanes (lanes : List (List Byte)) : List Byte :=
  (List.range 211).map fun i => (((lanes[i % 4]?).getD [])[i / 4]?).getD 0

/-- A received flit after correction: up to six bytes in error are corrected (R354); one that cannot be corrected, or whose words do not
have their parity after correction, is none (R356). -/
def goodFlit (f : Flit) : Option (List Byte) :=
  let bs := offLanes f.lanes
  if 6 < f.errors.eraseDups.length || fieldAt bs 204 7 % 2 ^ 51 ≠ parityOf (bs.take 204) then none else some bs

/-- Fields of a good flit. -/
def flitSeq (bs : List Byte) : BitVec 10 := BitVec.ofNat 10 (fieldAt bs 0 4)
def flitAck (bs : List Byte) : BitVec 10 := BitVec.ofNat 10 (fieldAt bs 0 4 / 2 ^ 10)
def flitNak (bs : List Byte) : Bool := bitOf (fieldAt bs 0 4) 20
def flitKey (bs : List Byte) : Nat := fieldAt bs 0 4 / 2 ^ 21 % 8
def flitCount (bs : List Byte) : Nat := fieldAt bs 0 4 / 2 ^ 24 % 128
def flitFirst (bs : List Byte) : Nat := fieldAt bs 204 7 / 2 ^ 51 % 32

/-- The 25 units of a flit's payload. -/
def flitUnits (bs : List Byte) : List (List Byte) := (List.range 25).map fun i => (bs.drop (4 + 8 * i)).take 8

end Sys2Proof.Machine
end

