-- ==== Sys2Proof/Machine/Ops.lean ====
section
/-! DEFINITION. Named operations over the parts of the state, lookups in the running deck, and messages that leave the
module. -/

namespace Sys2Proof.Machine

/-! ### Parts of the state by number -/

def getCore (s : State) (n : Nat) : Core := sget Core.empty s.cores n
def setCore (s : State) (n : Nat) (c : Core) : State := { s with cores := sput Core.empty s.cores n c }
def modCore (s : State) (n : Nat) (f : Core → Core) : State := setCore s n (f (getCore s n))

def getStack (s : State) (n : Nat) : Stack := sget Stack.empty s.stackMap n
def setStack (s : State) (n : Nat) (k : Stack) : State := { s with stackMap := sput Stack.empty s.stackMap n k }
def modStack (s : State) (n : Nat) (f : Stack → Stack) : State := setStack s n (f (getStack s n))

def setTrick (s : State) (n : Nat) (t : Trick) : State := { s with tricks := sput Trick.empty s.tricks n t }

def getStream (s : State) (n : Nat) : Stream := sget Stream.empty s.streams n
def setStream (s : State) (n : Nat) (k : Stream) : State := { s with streams := sput Stream.empty s.streams n k }
def modStream (s : State) (n : Nat) (f : Stream → Stream) : State := setStream s n (f (getStream s n))

def getPort (s : State) (n : Nat) : Port := sget Port.off s.ports n
def setPort (s : State) (n : Nat) (p : Port) : State := { s with ports := sput Port.off s.ports n p }
def modPort (s : State) (n : Nat) (f : Port → Port) : State := setPort s n (f (getPort s n))

def getChan (s : State) (n : Nat) : Channel := sget Channel.free s.channels n
def setChan (s : State) (n : Nat) (c : Channel) : State := { s with channels := sput Channel.free s.channels n c }
def modChan (s : State) (n : Nat) (f : Channel → Channel) : State := setChan s n (f (getChan s n))

def getSess (s : State) (n : Nat) : Session := sget Session.free s.sessions n
def setSess (s : State) (n : Nat) (c : Session) : State := { s with sessions := sput Session.free s.sessions n c }
def modSess (s : State) (n : Nat) (f : Session → Session) : State := setSess s n (f (getSess s n))

def getTable (s : State) (n : Nat) : TableRegs := sget TableRegs.off s.tables n
def setTable (s : State) (n : Nat) (t : TableRegs) : State := { s with tables := sput TableRegs.off s.tables n t }
def modTable (s : State) (n : Nat) (f : TableRegs → TableRegs) : State := setTable s n (f (getTable s n))

def getRound (s : State) (n : Nat) : RoundState := sget RoundState.idle s.rounds n
def setRound (s : State) (n : Nat) (r : RoundState) : State := { s with rounds := sput RoundState.idle s.rounds n r }
def modRound (s : State) (n : Nat) (f : RoundState → RoundState) : State := setRound s n (f (getRound s n))

def getReg (s : State) (n : Nat) : Regulator := sget Regulator.off s.regs n
def setReg (s : State) (n : Nat) (r : Regulator) : State := { s with regs := sput Regulator.off s.regs n r }

def getDomain (s : State) (n : Nat) : Domain := sget Domain.off s.power.domains n
def setDomain (s : State) (n : Nat) (d : Domain) : State :=
  { s with power := { s.power with domains := sput Domain.off s.power.domains n d } }

def getDiode (s : State) (n : Nat) : Diode := sget Diode.unread s.power.diodes n
def setDiode (s : State) (n : Nat) (d : Diode) : State :=
  { s with power := { s.power with diodes := sput Diode.unread s.power.diodes n d } }

def getPage (s : State) (n : Nat) : Page := sget Page.free s.cache.pages n
def setPage (s : State) (n : Nat) (p : Page) : State :=
  { s with cache := { s.cache with pages := sput Page.free s.cache.pages n p } }
def modPage (s : State) (n : Nat) (f : Page → Page) : State := setPage s n (f (getPage s n))

def getTally (s : State) (n : Nat) : TableTally := sget TableTally.zero s.tallies n
def setTally (s : State) (n : Nat) (t : TableTally) : State :=
  { s with tallies := sput TableTally.zero s.tallies n t }

/-- Change the control state. -/
def modCtl (s : State) (f : Control → Control) : State := { s with ctl := f s.ctl }
/-- Change the deck loader. -/
def modLoader (s : State) (f : Loader → Loader) : State := { s with loader := f s.loader }
/-- Change the host port. -/
def modHost (s : State) (f : HostPort → HostPort) : State := { s with host := f s.host }

/-- Take the next free value (R274, R399, R610). -/
def takeFree (s : State) : W64 × State := (Config.freeValue s.freeNext, { s with freeNext := s.freeNext + 1 })

/-! ### Elapsed time (R46, R49, R51, R53) -/

/-- Counts that a ring oscillator of 100 MHz ± 20 % makes in `n` reference edges, as a free value picks them. -/
def ringCounts (n v : Nat) : Nat := 4 * n / 5 + v % (ceilDiv (6 * n) 5 - 4 * n / 5 + 1)

/-- Reference edges that pass while a ring oscillator makes `n` counts. -/
def ringEdges (n v : Nat) : Nat := 5 * n / 6 + v % (ceilDiv (5 * n) 4 - 5 * n / 6 + 1)

/-- The reading of a die's meter: die 0 is the compute die, die n + 1 the base die of stack n. -/
def meterOf (s : State) (die : Nat) : Nat := if die = 0 then s.meter.toNat else (getStack s (die - 1)).meter.toNat

/-- Whether a die's meter runs from its ring oscillator. -/
def onRing (s : State) (die : Nat) : Bool := if die = 0 then s.ringOsc else (getStack s (die - 1)).ringOsc

/-- A die's meter advances by some counts. -/
def addMeter (s : State) (die n : Nat) : State :=
  if die = 0 then { s with meter := s.meter + BitVec.ofNat 56 n }
  else modStack s (die - 1) fun k => { k with meter := k.meter + BitVec.ofNat 56 n }

/-- `n` reference edges pass for a die: its meter counts them, or what its ring oscillator makes of the time (R49, R53). -/
def passDie (s : State) (n die : Nat) : State :=
  if onRing s die then
    let v := takeFree s
    addMeter v.2 die (ringCounts n v.1.toNat)
  else addMeter s die n

/-- `n` reference edges pass for some dies. -/
def passEdges (s : State) (n : Nat) (dies : List Nat) : State := dies.foldl (fun s d => passDie s n d) s

/-- Time passes until a die's meter reads `t`; the other dies' meters advance by the same time. A meter that reads `t` or more
stays. -/
def reachMeter (s : State) (die t : Nat) : State :=
  let n := t - meterOf s die
  if n = 0 || !s.power.inputOn then s
  else
    let v := takeFree s
    let m := if onRing s die then ringEdges n v.1.toNat else n
    addMeter (passEdges (if onRing s die then v.2 else s) m ((List.range 9).filter (· ≠ die))) die n

/-- Start a deadline: its start reading is taken on the meter of the die that applies it (R51). -/
def startDeadline (s : State) (d : Deadline) : State :=
  { s with deadlines := s.deadlines.filter (fun e => e.1 ≠ d) ++ [(d, meterOf s d.die)] }

/-- A deadline no longer runs. -/
def dropDeadline (s : State) (d : Deadline) : State := { s with deadlines := s.deadlines.filter fun e => e.1 ≠ d }

/-- Whether a deadline runs. -/
def runsDeadline (s : State) (d : Deadline) : Bool := s.deadlines.any fun e => e.1 = d

/-- Time passes until the reading of a deadline's meter, less its start reading, reaches some counts (R51). -/
def reachDeadline (s : State) (d : Deadline) (counts : Nat) : State :=
  match s.deadlines.find? fun e => e.1 = d with
  | some e => reachMeter s d.die (e.2 + counts)
  | none => s

/-- A deadline of some counts expires. -/
def expire (s : State) (d : Deadline) (counts : Nat) : State := dropDeadline (reachDeadline s d counts) d

/-- Counts of a local millisecond and of a local second (R47). -/
def countsMs : Nat := 100000
def countsSec : Nat := 100000000

/-- A write of a line that the write window holds starts its deadline where none runs (R237). -/
def noteHold (s : State) (n line : Nat) : State :=
  if (getStack s n).writeHold && !runsDeadline s (.writeHold n (some line)) then startDeadline s (.writeHold n (some line)) else s

/-! ### The running deck -/

/-- The running deck (R95, R99). -/
def deckOf (s : State) : Option Deck := s.loader.running

/-- This module's index, or 0xFFFF when none is set (R349). -/
def ownIndex (s : State) : Nat := s.loader.index.getD 0xFFFF

/-- The region of a deck that holds a device address (R75: at most one). -/
def regionAt (d : Deck) (a : Nat) : Option Region := d.regions.find? fun r => r.base ≤ a && a < r.base + r.size

/-- The region of the running deck that holds a device address. -/
def regionOf (s : State) (a : Nat) : Option Region := (deckOf s).bind fun d => regionAt d a

/-- The table whose cluster mask holds a cluster (R82: at most one). -/
def tableOfCluster (s : State) (c : Nat) : Option Nat :=
  (deckOf s).bind fun d => (d.tables.find? fun t => bitOf t.clusterMask.toNat c).map (·.table)

/-- The table of a core, by flat core number. -/
def tableOfCore (s : State) (n : Nat) : Option Nat := tableOfCluster s (n / 64)

/-- A table's entry in the running table map. -/
def tableEntry (s : State) (t : Nat) : Option TableEntry :=
  (deckOf s).bind fun d => d.tables.find? fun e => e.table = t

/-- A stream's entry in the running credit map. -/
def streamEntry (s : State) (n : Nat) : Option StreamEntry :=
  (deckOf s).bind fun d => d.streams.find? fun e => e.stream = n

/-- A trick's entry in the running trick map. -/
def trickEntry (s : State) (n : Nat) : Option TrickEntry :=
  (deckOf s).bind fun d => d.tricks.find? fun e => e.trick = n

/-- A bank script of the running deck. -/
def scriptOf (s : State) (n : Nat) : Option Script := (deckOf s).bind fun d => d.scripts.find? fun e => e.script = n

/-- The core program card that names a core (R73: at most one). -/
def programOf (d : Deck) (n : Nat) : Option ProgramCard :=
  d.programs.find? fun p => bitOf p.clusterMask.toNat (n / 64) && bitOf p.coreMask.toNat (n % 64)

/-- The round budget in counts; 100,000 with no deck running (R237). -/
def budgetOf (s : State) : Nat := ((deckOf s).map (·.plan.budget)).getD 100000

/-- The flat number of a core that a credit map entry names: cluster in bits 13:8, core in bits 5:0 (Table 3.8). -/
def coreOfField (v : Nat) : Nat := 64 * (v / 256 % 64) + v % 64

/-! ### Quadrants, halves and sides (R529, R530, R347) -/

/-- The quadrant of a cluster (R530). -/
def quadrantOf (c : Nat) : Nat := 4 * (c / 8 / 2) + c % 8 / 2

/-- The clusters of a quadrant (R530). -/
def clustersOfQuadrant (q : Nat) : List Nat := (List.range 64).filter fun c => quadrantOf c = q

/-- The domain of a stack's near-bank half (Table 16.1). -/
def halfOf (stack : Nat) : Nat := 16 + stack / 4

/-- The domain of a port's fabric side (R347, Table 16.1). -/
def sideOf (port : Nat) : Nat := 18 + port / 6

/-- Whether a cluster's quadrant is powered. -/
def quadrantOn (s : State) (q : Nat) : Bool := (getDomain s q).on
def clusterOn (s : State) (c : Nat) : Bool := quadrantOn s (quadrantOf c)
/-- Whether the near-bank half of a stack is powered. -/
def halfOn (s : State) (stack : Nat) : Bool := (getDomain s (halfOf stack)).on

/-! ### Home clusters (R18, R19) -/

/-- The near clusters of a stack, ascending (Table 1.3). -/
def nearClusters (stack : Nat) : List Nat :=
  let row := 2 * (stack % 4)
  let col := 4 * (stack / 4)
  (List.range 8).map fun i => 8 * (row + i / 4) + col + i % 4

/-- The home cluster of a device line (R18): position OFFSET[8:6] among the near clusters of its stack. -/
def homeCluster (line : Nat) : Nat := ((nearClusters (line / 2 ^ 30 % 8))[line % 8]?).getD 0

/-! ### The group (R32 to R34, R370) -/

/-- The module that holds the dealer role as this module knows it (R34). -/
def dealerIndex (s : State) (d : Deck) : Nat := if s.ctl.successorRole then d.role.successor else d.role.dealer

/-- Whether this module acts as dealer of its group (R33, R34, R98). -/
def isDealer (s : State) : Bool :=
  match deckOf s with
  | none => false
  | some d => s.loader.index == some (dealerIndex s d)

/-- A member's parent in the combine tree. Once the successor holds the dealer role it is the root, and the lost
dealer's children hang below it (DEDUCED from R34, R370, R581). -/
def parentOf (s : State) (d : Deck) (m : Nat) : Option Nat :=
  let p := (d.role.members.find? fun e => e.1 = m).map (·.2)
  if s.ctl.successorRole then
    if m = d.role.successor then none
    else if m = d.role.dealer then none
    else p.map fun x => if x = d.role.dealer then d.role.successor else x
  else if m = d.role.dealer then none else p

/-- The children of a member in the combine tree. -/
def childrenOf (s : State) (d : Deck) (m : Nat) : List Nat :=
  (d.role.members.filter fun e => parentOf s d e.1 = some m).map (·.1)

/-- The members of the group other than this module; a lost dealer is left out (R581). -/
def otherMembers (s : State) (d : Deck) : List Nat :=
  (d.role.members.map (·.1)).filter fun m =>
    m ≠ ownIndex s && !(s.ctl.successorRole && m = d.role.dealer)

/-- The successor of a job generation in the cycle 1 to 0xFFFF (R566). -/
def genSucc (g : BitVec 16) : BitVec 16 := if g = 0xFFFF then 1 else g + 1

/-! ### Regulators (R241 to R243) -/

/-- The number of a (table, resource) pair. -/
def pairOf (table resource : Nat) : Nat := 16 * table + resource

/-- Whether a charge of `n` bytes may proceed now: the pair has no regulator, or its level suffices, and no transfer of
the table waits (R242). -/
def canCharge (s : State) (table resource n : Nat) : Bool :=
  let r := getReg s (pairOf table resource)
  !(s.regWait.any fun w => w.1 / 16 = table) &&
    (!r.enable || decide ((n : Int) ≤ r.level) || decide (r.level = (r.depth.toNat : Int)))

/-- Take `n` bytes from a pair's level where it has a regulator (R242). -/
def charge (s : State) (table resource n : Nat) : State :=
  let r := getReg s (pairOf table resource)
  if r.enable then setReg s (pairOf table resource) { r with level := r.level - n } else s

/-- Queue a transfer behind its pair's regulator (R242). -/
def waitCharge (s : State) (table resource n : Nat) (x : Xfer) : State :=
  { s with regWait := s.regWait ++ [(pairOf table resource, n, x)] }

/-- Whether a waiting transfer is a core's play. -/
def isCoreWait (n : Nat) (x : Xfer) : Bool := match x with | .core m => m = n | _ => false

/-- A core waits for no regulator any more. -/
def dropCoreWait (s : State) (n : Nat) : State := { s with regWait := s.regWait.filter fun w => !isCoreWait n w.2.2 }

/-- Whether the charge of a core's play may proceed now: its own place in the queue is the first of its table, or nothing of the table
waits (R242). -/
def coreMayCharge (s : State) (n table resource k : Nat) : Bool :=
  match s.regWait.find? fun w => w.1 / 16 = table with
  | none => canCharge s table resource k
  | some w => isCoreWait n w.2.2 && canCharge { s with regWait := [] } table resource k

/-- The charge of a core's play; its place in the queue is free. -/
def coreCharge (s : State) (n table resource k : Nat) : State := charge (dropCoreWait s n) table resource k

/-- A core's play waits for its charge; its place in the queue stays until the play has issued again. -/
def coreQueue (s : State) (n table resource k : Nat) : State :=
  if s.regWait.any fun w => isCoreWait n w.2.2 && w.1 = pairOf table resource then s
  else waitCharge (dropCoreWait s n) table resource k (.core n)

/-! ### Messages that leave the module -/

/-- Payload bytes that charge the fabric egress regulator: the data of pushes and of remote writes (Table 7.10). -/
def payloadBytes : FrameBody → Nat
  | .push _ _ d _ _ => d.length
  | .memWrite _ _ d _ => d.length
  | _ => 0

/-- Whether a role carries a frame (R367). -/
def roleCarries (role : Nat) (b : FrameBody) : Bool := laneOf b = 0 || role = 1 || (role = 2 && isMem b)

/-- Whether a port in its state and role carries a frame (R367, R376). -/
def portCarries (p : Port) (b : FrameBody) : Bool :=
  match p.state with
  | .active => roleCarries p.role b
  | .mgmtOnly | .quarantined => laneOf b = 0
  | _ => false

/-- Whether a port is ACTIVE with a role that carries a frame, and the routes have returned to it since it was quarantined (R366, R377). -/
def portActive (s : State) (n : Nat) (b : FrameBody) : Bool :=
  let p := getPort s n
  n < 12 && p.state = .active && roleCarries p.role b && (laneOf b = 0 || p.awayGen ≠ some s.gen)

/-- Whether a port may carry a frame that its route gives it. -/
def portUsable (s : State) (n : Nat) (b : FrameBody) : Bool :=
  n < 12 && portCarries (getPort s n) b && (laneOf b = 0 || (getPort s n).awayGen ≠ some s.gen)

/-- The egress port for a destination and a frame: the alternate where the primary is not ACTIVE or its role does not carry the frame and
the alternate is ACTIVE with a role that does, else the primary (R366). -/
def routePort (s : State) (dest : Nat) (b : FrameBody) : Option Nat :=
  let e := (sget (0x00FF : BitVec 16) s.routes dest).toNat
  let prim := e % 16
  let alt := e / 16 % 16
  if !portActive s prim b && portActive s alt b then some alt
  else if portUsable s prim b then some prim
  else none

/-- Capacity of a virtual lane's buffer in units (Table 11.6). -/
def laneUnits (lane : Nat) : Nat :=
  match lane with
  | 0 => 512 | 1 => 128 | 2 => 256 | _ => 8192

/-- The class in which a frame leaves for a destination that it reached in class `cls` (Table 11.9). -/
def egressClass (s : State) (dest cls : Nat) : Nat :=
  match (sget (0x00FF : BitVec 16) s.routes dest).toNat / 256 % 4 with
  | 1 => 0
  | 2 => 1
  | _ => cls

/-- The key under which a lane and class keep their credits and buffers. -/
def creditKey (cls : Nat) (b : FrameBody) : Nat := laneOf b + 4 * (cls % 2)

/-- The credits that the next flit of a port returns: up to 127 units of the first lane and class that has some (Table 11.5). -/
def creditDue (p : Port) : Nat × Nat :=
  match p.rxOwed.find? fun e => 0 < e.2 with
  | some (k, n) => (k, min 127 n)
  | none => (0, 0)

/-- Put one flit on a port's lanes. Its header acknowledges what the port has received, asks for a replay where one is due and returns
credits. -/
def putFlit (s : State) (port : Nat) (seq : BitVec 10) (credit : Nat × Nat) (first : Nat) (payload : List Byte) : State :=
  let p := getPort s port
  let m := flitMessage seq (p.rxNext - 1) p.nakDue credit.1 credit.2 first payload
  { setPort s port { p with nakDue := false, ackDue := false } with flitOut := s.flitOut ++ [(port, onLanes m)] }

/-- Take credits that a flit returns out of a port's counts. -/
def takeDue (p : Port) (c : Nat × Nat) : Port :=
  if c.2 = 0 then p
  else { p with rxOwed := sput 0 p.rxOwed c.1 (sget 0 p.rxOwed c.1 - c.2), rxHeld := sput 0 p.rxHeld c.1 (sget 0 p.rxHeld c.1 - c.2) }

/-- Send the next counted flit of a port and keep it in the retain buffer (R355). -/
def sendFlit (s : State) (port first : Nat) (payload : List Byte) (frames : List (Nat × Frame)) : State :=
  let p := getPort s port
  let c := creditDue p
  let s := putFlit (setPort s port (takeDue p c)) port p.txNext c first payload
  let r : RetFlit := { seq := p.txNext, payload := payload, first := first, credit := c, frames := frames, replays := 0 }
  let q := getPort s port
  setPort s port { q with retain := q.retain ++ [r], txNext := q.txNext + 1 }

/-- Send a padding flit: neither retained nor counted, with the SEQ of the next flit (R355). -/
def sendPadding (s : State) (port : Nat) : State :=
  let p := getPort s port
  let c := creditDue p
  putFlit (setPort s port (takeDue p c)) port p.txNext c 31 (List.replicate payloadLen 0)

/-- Whether a port has news for the far end. -/
def hasNews (p : Port) : Bool := p.nakDue || p.ackDue || p.rxOwed.any fun e => 0 < e.2

/-- Send padding flits until the far end has all news: a transmitter sends flits without a pause, so none waits for traffic (R650). -/
def tellPeer (s : State) (port : Nat) : State :=
  let n := 1 + ((getPort s port).rxOwed.map fun e => ceilDiv e.2 127).sum
  (List.range n).foldl (fun s _ => if hasNews (getPort s port) then sendPadding s port else s) s

/-- A receive buffer is free again; its credits go back to the far end (R358). -/
def freeBuffer (s : State) (src : Option (Nat × Nat)) (units : Nat) : State :=
  match src with
  | none => s
  | some (port, key) =>
    let p := getPort s port
    tellPeer (setPort s port { p with rxOwed := sput 0 p.rxOwed key (min (sget 0 p.rxOwed key + units) (sget 0 p.rxHeld key)) }) port

/-- Send a frame in flits of its own: it starts at unit 0 of the first and goes on through the others (R360). -/
def sendFlits (s : State) (port cls : Nat) (f : Frame) : State :=
  let bs := frameBytes cls f
  (List.range (ceilDiv bs.length payloadLen)).foldl (fun s i =>
    let part := (bs.drop (payloadLen * i)).take payloadLen
    sendFlit s port (if i = 0 then 0 else 31) (part ++ List.replicate (payloadLen - part.length) 0) (if i = 0 then [(cls, f)] else [])) s

/-- Send a frame on a port when the link credits and the retain buffer allow it and no earlier frame of its lane and class
waits, else let it wait there (R355, R358, R359). -/
def transmit (s : State) (port : Nat) (x : TxFrame) : State :=
  let p := getPort s port
  let key := creditKey x.cls x.frame.body
  let used := sget 0 p.credits key
  let units := frameUnits x.frame
  if !(p.waitTx.any fun e => creditKey e.cls e.frame.body = key) && used + units ≤ laneUnits (laneOf x.frame.body) &&
      p.retain.length + ceilDiv units 25 ≤ 256 then
    let s := setPort s port { p with credits := sput 0 p.credits key (used + units) }
    freeBuffer { sendFlits s port x.cls x.frame with fabOut := s.fabOut ++ [(some port, x.frame)] } x.src units
  else setPort s port { p with waitTx := p.waitTx ++ [x] }

/-- Send what waits at a port, in order, as far as credits now allow. -/
def flushTx (s : State) (port : Nat) : State :=
  let ws := (getPort s port).waitTx
  ws.foldl (fun s x => transmit s port x) (setPort s port { getPort s port with waitTx := [] })

/-- Send a frame toward its destination; its class may change there. With no usable port it is dropped and logged, without counting a
violation (R366, R368). -/
def routeFrom (s : State) (src : Option (Nat × Nat)) (cls : Nat) (f : Frame) : State :=
  match routePort s f.hdr.dest f.body with
  | some p => transmit s p { cls := egressClass s f.hdr.dest cls, frame := f, src := src }
  | none => freeBuffer (logGen s evFabNoRoute uFabric none [w32 f.hdr.dest, w32 (typeOf f.body)] []) src (frameUnits f)

/-- Change a port to a state in which it no longer carries its routes: the frames that wait there leave by their alternates. -/
def moveRoutes (s : State) (p : Nat) (f : Port → Port) : State :=
  let ws := (getPort s p).waitTx
  ws.foldl (fun s x => routeFrom s x.src x.cls x.frame) (setPort s p (f { getPort s p with waitTx := [] }))

/-- Send a frame of this module toward its destination; a message of its own goes in MGMT frames. -/
def routeFrame (s : State) (cls : Nat) (f : Frame) : State := (wireFrames f).foldl (fun s f => routeFrom s none cls f) s

/-- Send a frame that this module originates, with its index and its generation. `table` 64 marks a module-level
frame. -/
def sendFrame (s : State) (dest table : Nat) (b : FrameBody) : State :=
  let f : Frame := { hdr := { dest := dest, src := ownIndex s, gen := s.gen, table := table, poison := false }, body := b }
  if dest = ownIndex s then { s with fabOut := s.fabOut ++ [(none, f)] } else routeFrame s 0 f

/-- Send a frame whose payload charges a table's fabric egress regulator (Table 7.10). -/
def sendCharged (s : State) (table : Nat) (f : Frame) : State :=
  let n := payloadBytes f.body
  if n = 0 || canCharge s table 8 n then routeFrame (charge s table 8 n) 0 f
  else waitCharge s table 8 n (.frame f)

/-- Send a message that charges nothing in its place behind the transfers of its table that wait at the regulator. -/
def sendBehind (s : State) (dest table : Nat) (b : FrameBody) : State :=
  if s.regWait.any fun w => w.1 / 16 = table then
    waitCharge s table 8 0
      (.frame { hdr := { dest := dest, src := ownIndex s, gen := s.gen, table := table, poison := false }, body := b })
  else sendFrame s dest table b

/-- Send one message to each module of a list. -/
def sendAll (s : State) (b : FrameBody) (dests : List Nat) : State := dests.foldl (fun s m => sendFrame s m 64 b) s

/-- Send a message to this module's children in the combine tree (R370). -/
def sendDown (s : State) (b : FrameBody) : State :=
  match deckOf s with
  | none => s
  | some d => sendAll s b (childrenOf s d (ownIndex s))

/-- Send a message to the host. -/
def toHost (s : State) (m : HostMsg) : State := modHost s fun h => { h with out := h.out ++ [m] }

/-- Send a host-directed request: none is issued while bus mastering is clear (R527). -/
def toHostReq (s : State) (m : HostMsg) : State := if s.host.busMaster then toHost s m else s

/-! ### Core programs (R73, R111, R152) -/

/-- Descriptor slots as a program card initialises them. -/
def initDescs (p : ProgramCard) : Sparse (BitVec 1024) := p.descs.foldl (fun m e => sput 0 m e.1 e.2) []

/-- The physical core of a logical one by the repair map; an unlisted core keeps its own number (R16, R154). -/
def physicalOf (s : State) (n : Nat) : Nat :=
  match sget 0 s.repairMap n with
  | 0 => n % 64
  | p + 1 => p

/-- Load a core with its program of a deck in the state of R73, with scratch zeroed (R111). -/
def loadedCore (d : Deck) (n : Nat) : Core :=
  match programOf d n with
  | none => Core.empty
  | some p =>
    { Core.empty with run := .running, progLen := p.plays.length,
                      prog := ((List.range p.plays.length).zip p.plays).foldl (fun m e => sput 0 m e.1 e.2) [],
                      descs := initDescs p }

/-- A core loaded anew: it starts at once, but for a spare that an open window holds (R155). Its tickets' generations go on (R295). -/
def freshCore (s : State) (d : Deck) (n : Nat) : Core :=
  { loadedCore d n with
    run := if s.ctl.spareCores.contains n then .halted else (loadedCore d n).run, ticketGen := (getCore s n).ticketGen + 1 }

/-- Every core that some program card of a deck names. -/
def programmedCores (d : Deck) : List Nat := (List.range 4096).filter fun n => (programOf d n).isSome

/-- Load every program of a deck (step 6 of Table 3.19, R99). A core without a program keeps the generation of its tickets alone. -/
def loadPrograms (s : State) (d : Deck) : State :=
  let kept := s.cores.foldl (fun m e => sput Core.empty m e.1 { Core.empty with ticketGen := e.2.ticketGen + 1 }) []
  { s with cores := (programmedCores d).foldl (fun m n => sput Core.empty m n (freshCore s d n)) kept,
           regWait := s.regWait.filter fun w => match w.2.2 with | .core _ => false | _ => true }

/-- Restart a core (R152): the state of R73 with its program, descriptors reloaded, tiles cleared, tickets and member
records gone, read cache emptied; scratch is kept. The program store is loaded from the load image (Table 12.2). -/
def restartCore (s : State) (n : Nat) : State :=
  match deckOf s with
  | none => s
  | some d =>
    if (programOf d n).isNone then s
    else
      let c := getCore s n
      setCore (dropCoreWait s n) n { freshCore s d n with scratch := c.scratch, scratchPoison := c.scratchPoison }

/-- End every wait of a kind: the waiting play issues again. -/
def wakeCores (s : State) (w : Wait) : State :=
  { s with cores := s.cores.map fun e => if e.2.wait = w then (e.1, { e.2 with wait := .none }) else e }

/-! ### Lines that the host holds (R508 to R510) -/

/-- How the snoop filter shows a line: none, or whether it is exclusive. -/
def hostHolds (s : State) (dpa : Nat) : Option Bool := (s.host.snoop.find? fun e => e.1 = dpa).map (·.2)

/-- Back-invalidate a line for a waiter; a back-invalidation already under way is joined (R510). -/
def backInvalidate (s : State) (dpa : Nat) (w : BiWaiter) : State :=
  if s.host.biPending.any (·.dpa = dpa) then
    modHost s fun h =>
      { h with biPending := updFirst (·.dpa = dpa) (fun e => { e with waiters := e.waiters ++ [w] }) h.biPending }
  else
    let s := startDeadline s (.biSnoop dpa)
    toHost (modHost s fun h => { h with biPending := h.biPending ++ [{ dpa := dpa, answered := false, waiters := [w] }] })
      (.biSnpInv dpa)

end Sys2Proof.Machine
end

