-- ==== Sys2Proof/Machine/Area.lean ====
section
/-! DEFINITION. The control firmware's structures in the module area, as a read of device memory finds them: the session table (R433,
Table 13.12) and the prefix tree with its bucket array (R467, Table 14.4). What they hold is `State.sessions`, `Cache.pages` and
`Cache.buckets`; their lines have no other contents. The session table starts the module area, as R433 says; the tree follows its
2^20 entries and the bucket array the tree (DESIGN CHOICE, log 84: the manual gives the two no place). -/

namespace Sys2Proof.Machine

/-- A session handle (Table 13.11). -/
def sessHandle (s : State) (slot : Nat) : W64 :=
  let c := getSess s slot
  BitVec.ofNat 64 (ownIndex s % 2 ^ 13 * 2 ^ 51 + c.gen.toNat * 2 ^ 26 + c.table % 64 * 2 ^ 20 + slot)

/-- Whether a page number names a page in memory. -/
def inMemory (p : Nat) : Bool := p < 2 ^ 24

/-- First byte of the module area: region 0 (R76). -/
def areaBase (s : State) : Option Nat := (deckOf s).bind fun d => (d.regions.find? fun r => r.region = 0).map (·.base)

/-- Bytes of the session table, of the tree and of the bucket array. -/
def sessionTableBytes : Nat := 64 * 2 ^ 20
def treeBytes : Nat := 32 * 4194304
def bucketBytes : Nat := 4 * 4194304

/-- Bytes of the structures together. -/
def areaBytes : Nat := sessionTableBytes + treeBytes + bucketBytes

/-! ### The session table (Table 13.12) -/

/-- The number of a session state. -/
def sessStateNumber : SessState → Nat
  | .free => 0 | .idle => 1 | .running => 2 | .paused => 3 | .shadow => 4

/-- The 64 bytes of a session table entry. A shadow has its dealer's handle and no KEY. Where the prompt tokens and the page list lie is
the firmware's (free values). -/
def sessionBytes (s : State) (slot : Nat) : List Byte :=
  let c := getSess s slot
  let handle : W64 := match c.state with | .free => 0 | .shadow => c.key | _ => sessHandle s slot
  let key : W64 := match c.state with | .shadow => 0 | _ => c.key
  if c.state = .free then List.replicate 64 0
  else
    leBytes 8 handle.toNat ++ leBytes 4 c.chan.toNat ++ leBytes 1 (sessStateNumber c.state) ++ leBytes 1 c.folds ++ leBytes 2 0 ++
      leBytes 4 c.position.toNat ++ leBytes 4 c.left.toNat ++ leBytes 4 c.tag.toNat ++ leBytes 4 c.prefillLeft.toNat ++
      leBytes 8 key.toNat ++ leBytes 8 c.param.toNat ++ leBytes 8 (Config.promptAddr slot).toNat ++
      leBytes 4 (Config.pageListIndex slot).toNat ++ leBytes 4 c.arrival

/-! ### The prefix tree (Table 14.4) -/

/-- A node index as a word; none is 0xFFFF_FFFF. -/
def nodeWord (n : Option Nat) : Nat := n.getD 0xFFFFFFFF

/-- The page that holds a node. -/
def nodePage (s : State) (node : Nat) : Option (Nat × Page) := s.cache.pages.find? fun e => e.2.shared && e.2.node = node

/-- The number of a page state. -/
def pageStateNumber : PageState → Nat
  | .free => 0 | .resident => 1 | .spilling => 2 | .spilled => 3 | .prefetching => 4 | .recomputing => 5

/-- The 32 bytes of a node; a node that is not in use is zero, with STATE 0. REFS shows the low 16 bits of the count, and PAGE is zero
while the page is in the slow tier (DESIGN CHOICE, log 84). -/
def nodeBytes (s : State) (node : Nat) : List Byte :=
  match nodePage s node with
  | none => List.replicate 32 0
  | some e =>
    let up := e.2.parent.bind fun p => let g := getPage s p; if g.shared then some g.node else none
    leBytes 8 e.2.key.toNat ++ leBytes 4 (if inMemory e.1 then e.1 else 0) ++ leBytes 4 (nodeWord up) ++
      leBytes 4 (nodeWord e.2.next) ++ leBytes 4 e.2.last.toNat ++ leBytes 4 (nodeWord e.2.spill) ++ leBytes 2 e.2.refs ++
      leBytes 1 e.2.table ++ leBytes 1 (pageStateNumber e.2.state)

/-- The node that heads a bucket's chain. -/
def bucketHead (s : State) (bucket : Nat) : Option Nat := (s.cache.buckets.find? fun e => e.1 = bucket).map (·.2)

/-- The bytes of a line of the module area at an offset from its start, where the structures lie. -/
def areaBytesAt (s : State) (off : Nat) : List Byte :=
  if off < sessionTableBytes then sessionBytes s (off / 64)
  else
    let o := off - sessionTableBytes
    if o < treeBytes then nodeBytes s (o / 32) ++ nodeBytes s (o / 32 + 1)
    else (List.range 16).flatMap fun i => leBytes 4 (nodeWord (bucketHead s ((o - treeBytes) / 4 + i)))

/-- A line of the firmware's structures, where a line lies in them. -/
def areaLine (s : State) (line : Nat) : Option Line :=
  match areaBase s with
  | none => none
  | some b =>
    if b ≤ 64 * line && 64 * line < b + areaBytes then some (lineOfBytes (areaBytesAt s (64 * line - b))) else none

end Sys2Proof.Machine
end

