-- ==== Sys2Proof/Machine/Place.lean ====
section
/-! DEFINITION. Where a device address lies in the arrays, the line check, and reading and writing lines and rows of
the arrays (R209 to R217, R387, R388). -/

namespace Sys2Proof.Machine

/-! ### Check codes -/

/-- One bit step of the reflected CRC-32C (R387). -/
def crc32Bit (c : Nat) : Nat := if c % 2 = 1 then (c / 2) ^^^ 0x82F63B78 else c / 2

/-- One byte step of the CRC-32C. -/
def crc32Byte (c : Nat) (b : Byte) : Nat :=
  crc32Bit (crc32Bit (crc32Bit (crc32Bit (crc32Bit (crc32Bit (crc32Bit (crc32Bit (c ^^^ b.toNat))))))))

/-- CRC-32C of bytes in address order (R387). -/
def crc32c (bs : List Byte) : W32 := BitVec.ofNat 32 (bs.foldl crc32Byte 0xFFFFFFFF ^^^ 0xFFFFFFFF)

/-- The check of a line (R387). -/
def lineCheck (l : Line) : W32 := crc32c (bytesOfLine l)

/-- One bit step of the ECMA-182 CRC-64 (R465). -/
def crc64Bit (c : Nat) : Nat := if c / 2 ^ 63 % 2 = 1 then (c * 2 % 2 ^ 64) ^^^ 0x42F0E1EBA9EA3693 else c * 2 % 2 ^ 64

/-- One byte step of the CRC-64. -/
def crc64Byte (c : Nat) (b : Byte) : Nat :=
  crc64Bit (crc64Bit (crc64Bit (crc64Bit (crc64Bit (crc64Bit (crc64Bit (crc64Bit (c ^^^ (b.toNat * 2 ^ 56)))))))))

/-- CRC-64 of bytes (R465). -/
def crc64 (bs : List Byte) : W64 := BitVec.ofNat 64 (bs.foldl crc64Byte 0)

/-! ### Addresses -/

/-- STACK of a device address (Table 7.3). -/
def addrStack (a : Nat) : Nat := a / 2 ^ 36 % 8
/-- OFFSET of a device address. -/
def addrOffset (a : Nat) : Nat := a % 2 ^ 36
/-- Whether a 48-bit address is a populated device address (R108, R214). -/
def populated (a : Nat) : Bool := a < 2 ^ 39 && addrOffset a < 0x900000000

/-- The device address of a device physical address (R501). -/
def addrOfDpa (dpa : Nat) : Nat := dpa / 0x900000000 * 2 ^ 36 + dpa % 0x900000000
/-- The device physical address of a device address (R501). -/
def dpaOfAddr (a : Nat) : Nat := addrStack a * 0x900000000 + addrOffset a

/-- Where a line lies: stack, bank of the stack, row and line of the row. -/
structure Place where
  stack : Nat
  bank : Nat
  row : Nat
  line : Nat
  deriving DecidableEq, Repr

/-- Whether the interleave unit of an address is banked: the mode of the regions that overlap it, else striped
(R216, R217). -/
def unitBanked (d : Option Deck) (a : Nat) : Bool :=
  match d with
  | none => false
  | some d =>
    let lo := a / 2 ^ 20 * 2 ^ 20
    (d.regions.find? fun r => r.base < lo + 2 ^ 20 && lo < r.base + r.size).any (·.banked)

/-- The place of a device address in a mode (R215, Table 7.4). -/
def placeIn (banked : Bool) (a : Nat) : Place :=
  let o := addrOffset a
  let u := o / 2 ^ 20
  let f1 := o / 2 ^ 10 % 32
  let f2 := o / 2 ^ 15 % 32
  let chan := if banked then f2 else f1
  let rin := if banked then f1 else f2
  { stack := addrStack a, bank := 32 * (u / 1536) + chan, row := 32 * (u % 1536) + rin, line := o / 64 % 16 }

/-- The place of a device address under the running deck. -/
def placeOf (s : State) (a : Nat) : Place := placeIn (unitBanked (deckOf s) a) a

/-- The device address of the first byte of a row of a bank under the running deck (inverse of Table 7.4). -/
def rowAddr (s : State) (stack bank row : Nat) : Nat :=
  let u := bank / 32 * 1536 + row / 32
  let base := stack * 2 ^ 36 + u * 2 ^ 20
  let chan := bank % 32
  let rin := row % 32
  if unitBanked (deckOf s) base then base + chan * 2 ^ 15 + rin * 2 ^ 10 else base + rin * 2 ^ 15 + chan * 2 ^ 10

/-- The device line number of a line of a row. -/
def lineOfRow (s : State) (stack bank row i : Nat) : Nat := rowAddr s stack bank row / 64 + i

/-! ### Rows of the arrays -/

/-- The row of the array that a bank's spare latches give for a row: itself, or spare row `k` as 49,152 + `k`
(R211, R395). -/
def physRow (k : Stack) (bank row : Nat) : Nat :=
  match sget 0 k.spareRows (bank * 49152 + row) with
  | 0 => row
  | n + 1 => 49152 + n

/-- Bytes of a physical row: 1,024 data bytes, the check area and eight spare columns of 32 bytes (Table 7.1). -/
def rowBytes : Nat := 1360

/-- Address in the array memory of the first byte of a physical row. -/
def rowKey (stack bank prow : Nat) : Nat := ((stack * 768 + bank) * 49408 + prow) * rowBytes

/-- Where in a row the data of a line lie: in its own two columns, or in the pair of spare columns that takes their place in every row of
the bank (R211, Table 12.8). -/
def lineOff (k : Stack) (bank line : Nat) : Nat :=
  match sget 0 k.columns (16 * bank + line) with
  | 0 => 64 * line
  | n + 1 => 1104 + 64 * n

/-- Address in the array memory of a row of a bank. -/
def rowBase (s : State) (stack bank row : Nat) : Nat := rowKey stack bank (physRow (getStack s stack) bank row)

/-- A line as the array stores it: data, CHECK and FLAGS (Table 7.2). -/
structure RawLine where
  data : Line
  check : W32
  flags : Byte
  deriving DecidableEq, Repr

/-- Read one stored line. -/
def readRaw (s : State) (p : Place) : RawLine :=
  let b := rowBase s p.stack p.bank p.row
  { data := lineOfBytes (rdBytes s.array (b + lineOff (getStack s p.stack) p.bank p.line) 64),
    check := BitVec.ofNat 32 (leNat (rdBytes s.array (b + 1024 + 5 * p.line) 4)),
    flags := rdByte s.array (b + 1028 + 5 * p.line) }

/-- Write one stored line. -/
def writeRaw (s : State) (p : Place) (r : RawLine) : State :=
  let b := rowBase s p.stack p.bank p.row
  let m := wrBytes s.array (b + lineOff (getStack s p.stack) p.bank p.line) (bytesOfLine r.data)
  let m := wrBytes m (b + 1024 + 5 * p.line) (leBytes 4 r.check.toNat)
  { s with array := wrByte m (b + 1028 + 5 * p.line) r.flags }

/-- Whether a stored line passes its test (R388). -/
def RawLine.pass (r : RawLine) : Bool := r.check = lineCheck r.data && r.flags.toNat < 2
/-- Whether a line that passes is poisoned (R388). -/
def RawLine.poisoned (r : RawLine) : Bool := r.flags.toNat % 2 = 1

/-- Full-line write with a fresh check (R224, R391). -/
def writeLine (s : State) (p : Place) (data : Line) (poison : Bool) : State :=
  writeRaw s p { data := data, check := lineCheck data, flags := if poison then 1 else 0 }

/-- Store a line with the check and flags given, without a fresh check (R250, Table 8.8). -/
def storeRawLine (s : State) (stack bank row i : Nat) (r : RawLine) : State :=
  writeRaw s { stack := stack, bank := bank, row := row, line := i } r

/-- Every poison bit of a line's sixteen words. -/
def poisonAll (p : Bool) : BitVec 16 := if p then 0xFFFF else 0

end Sys2Proof.Machine
end

