-- ==== Sys2Proof/Machine/Lines.lean ====
section
/-! DEFINITION. The memory channel controllers: testing a line and acting on a persistent failure, the write-combining
buffers, the pending-spare and refused-line lists, source repair (chapters 7 and 12). -/

namespace Sys2Proof.Machine

/-- Device address of a line number. -/
def lineAddr (line : Nat) : Nat := 64 * line
/-- Place of a line. -/
def linePlace (s : State) (line : Nat) : Place := placeOf s (lineAddr line)
/-- Stack of a line. -/
def lineStack (line : Nat) : Nat := addrStack (lineAddr line)

/-! ### HDM decoders (R502) -/

/-- Whether a committed decoder maps a device physical address. -/
def inWindow (s : State) (dpa : Nat) : Bool :=
  s.host.decoders.any fun e => e.2.committed && e.2.dpaBase ≤ dpa && dpa < e.2.dpaBase + e.2.size / max 1 e.2.ways

/-- Add a General Media Event Record for a device physical address in a committed window, and remember the line as one that the
module has found (R522, Table 15.12). Transaction types: 1 host read, 2 host write, 5 internal media scrub, 6 internal media
management. -/
def mediaRecord (s : State) (e : Ev) (dataPath : Bool) (transaction dpa : Nat) : State :=
  if inWindow s dpa then
    let p := placeOf s (addrOfDpa dpa)
    let s := modHost s fun h => { h with mediaRecords := h.mediaRecords ++ [dpa] }
    addStandard s e (.media dpa dataPath transaction p.stack (p.bank % 32))
  else s

/-- The transaction type of a consumer and a detector (Table 15.12). -/
def mediaKind (who : Consumer) (det : Nat) : Nat :=
  match who with
  | .host _ => 1
  | _ => if det = 3 then 5 else 6

/-! ### Line events (Table 12.4) -/

/-- The recovery class of a device address; none outside every region (R390). -/
def classOf (s : State) (a : Nat) : RecClass := ((regionOf s a).map (·.cls)).getD .none

/-- The detail of a line event for lines `mask` of a row of a region. -/
def regionDetail (r : Option Region) (stack bank row mask det : Nat) : Detail :=
  let own := (r.map (·.owner)).getD 0xFF
  .line stack (bank % 32) (bank / 32) (classCode ((r.map (·.cls)).getD .none)) row mask
    ((r.map (·.region)).getD 0xFFFF) (if own < 64 then w64 (2 ^ own) else 0) det

/-- The region of a row. -/
def rowRegion (s : State) (stack bank row : Nat) : Option Region := regionOf s (rowAddr s stack bank row)

/-- The table that events of a region belong to, for their epoch (R344). -/
def regionTable (r : Option Region) : Option Nat := r.bind fun r => if r.owner < 64 then some r.owner else none

/-- Raise a line event with the attributes of a region. Detectors: 0 controller, 1 bank unit, 2 merge, 3 scrubber, 4 repair. -/
def logRegion (s : State) (r : Option Region) (e : Ev) (stack bank row mask det : Nat) : State :=
  logEvent s e (uStack stack) (regionTable r) (regionDetail r stack bank row mask det)

/-- Raise a line event. -/
def logLine (s : State) (e : Ev) (stack bank row mask det : Nat) : State :=
  logRegion s (rowRegion s stack bank row) e stack bank row mask det

/-- Log INT_LINE_PERSISTENT for lines of a row, at most 256 times a local second of the base-die meter (R392). -/
def logPersistent (s : State) (stack bank row mask det : Nat) : State :=
  let k := getStack s stack
  let sec := k.meter.toNat / 100000000
  let k := if k.logSecond = sec then k else { k with logSecond := sec, logged := 0, suppressed := false }
  let k := { k with persistent := satAdd 0xFFFF k.persistent (popBits 16 mask) }
  if k.logged < 256 then logLine (setStack s stack { k with logged := k.logged + 1 }) evIntLinePersistent stack bank row mask det
  else if k.suppressed then setStack s stack k
  else logGen (setStack s stack { k with suppressed := true }) evIntLogSuppressed (uStack stack) none [1] []

/-! ### Pending-spare list (R409) -/

/-- Add a row to its stack's list of 256, or failed lines to the mask of its entry; a row of a host-shared region only at host request. -/
def pendSpare (s : State) (stack bank row mask : Nat) (byHost : Bool) : State :=
  let k := getStack s stack
  let shared := (regionOf s (rowAddr s stack bank row)).any (·.hostShared)
  if shared && !byHost then s
  else if k.pendingSpare.any fun e => e.bank = bank && e.row = row then
    let add := updFirst (fun e : SpareEntry => e.bank = bank && e.row = row) fun e => { e with lines := e.lines ||| BitVec.ofNat 16 mask }
    setStack s stack { k with pendingSpare := add k.pendingSpare }
  else if k.pendingSpare.length < 256 then
    setStack s stack { k with pendingSpare := k.pendingSpare ++ [{ bank := bank, row := row, lines := BitVec.ofNat 16 mask }] }
  else if k.spareFullLogged then s
  else logBare (setStack s stack { k with spareFullLogged := true }) evIntSpareListFull (uStack stack)

/-! ### Persistent lines (R389 to R391, Table 12.3) -/

/-- The page number that holds a row (R456, R457). -/
def pageOfRow (s : State) (stack bank row : Nat) : Nat := rowAddr s stack bank (row / 64 * 64) / 2 ^ 15

/-- A member tells the dealer of a poisoned line of a page (R486). -/
def sendPageFault (s : State) (stack bank row : Nat) : State :=
  match deckOf s, regionOf s (rowAddr s stack bank row) with
  | some d, some r =>
    if r.banked && r.cls = .recompute && r.scriptTarget then
      let p := pageOfRow s stack bank row
      let s := if isDealer s then s else modPage s p fun g => { g with table := r.owner, dirtyFree := true }
      sendFrame s (dealerIndex s d) r.owner
        (.serving { kind := 7, part := 0, parts := 1, table := r.owner, round := s.lastRound, gen := s.gen,
                    entries := [{ session := 0, position := 0, slot := 0, kind := 0, flags := 0, count := 0,
                                  newPage := w32 (pageOfRow s stack bank row) }], tokens := [] })
    else s
  | _, _ => s

/-- A line leaves the refused-line list (R238). -/
def unrefuse (s : State) (line : Nat) : State :=
  modStack s (lineStack line) fun k =>
    { k with refused := k.refused.filter (· ≠ line),
             refusedFull := k.refusedFull && (k.refused.filter (· ≠ line)).length = 1024 }

/-- A full-line write clears the line from the unrepaired list (R397). -/
def clearUnrepaired (s : State) (line : Nat) : State := { s with unrepaired := s.unrepaired.filter (· ≠ line) }

/-- A write into the arrays waits for the write window, once (R236). -/
def holdWrite (s : State) (stack : Nat) (w : HeldWrite) : State :=
  let s := match w.line with
    | some l => noteHold s stack l
    | none => s
  modStack s stack fun k => if k.heldWrites.contains w then k else { k with heldWrites := k.heldWrites ++ [w] }

/-- Write the line at a place poisoned with the data the last re-read returned (R391). -/
def poisonAt (s : State) (p : Place) (r : Option Region) (line det : Nat) : State :=
  let s := unrefuse (writeLine s p (readRaw s p).data true) line
  let s := logRegion s r evIntLinePoisoned p.stack p.bank p.row (2 ^ p.line) det
  let s := pendSpare s p.stack p.bank p.row (2 ^ p.line) false
  let s := mediaRecord s evIntLinePoisoned false (mediaKind .firmware det) (dpaOfAddr (lineAddr line))
  if (r.map (·.cls)).getD .none = .recompute then sendPageFault s p.stack p.bank p.row else s

/-- Write a line poisoned, with the attributes of its region. -/
def writePoisoned (s : State) (line det : Nat) : State := poisonAt s (linePlace s line) (regionOf s (lineAddr line)) line det

/-- Write a line back poisoned, once the write window allows it (R236, R391). -/
def writeBackPoisoned (s : State) (line det : Nat) : State :=
  if (getStack s (lineStack line)).writeHold then holdWrite s (lineStack line) (.poison line det) else writePoisoned s line det

/-- The base of a region's source at a peer, where the directory has it (R393). -/
def sourceBase (s : State) (r : Region) : Option Nat :=
  match sget none s.directory r.region with
  | some (.valid b) => some b
  | _ => none

/-- A new repair entry, under the attributes its line has now (R394, R396). -/
def newRepair (s : State) (line : Nat) (who : Consumer) : Repair :=
  let p := linePlace s line
  let r := regionOf s (lineAddr line)
  { line := line, bank := p.bank, row := p.row, pos := p.line, region := r, base := r.bind (sourceBase s), fetching := false, tag := 0,
    gen := 0, addr := 0, consumers := [who], writes := [] }

/-- Whether a line is under repair or waits for a repair entry. -/
def underRepair (s : State) (line : Nat) : Bool :=
  let k := getStack s (lineStack line)
  k.repairs.any (·.line = line) || k.repairQueue.any (·.line = line)

/-- Another consumer of a line under repair joins the hold (R396). -/
def joinRepair (s : State) (line : Nat) (who : Consumer) : State :=
  let add := updFirst (fun r : Repair => r.line = line) fun r => { r with consumers := r.consumers ++ [who] }
  modStack s (lineStack line) fun k => { k with repairs := add k.repairs, repairQueue := add k.repairQueue }

/-- Start holding a persistent source-class line; each stack repairs up to 16 lines at once (R394, R396). -/
def startRepair (s : State) (line : Nat) (who : Consumer) : State :=
  modStack s (lineStack line) fun k =>
    if k.repairs.length < 16 then { k with repairs := k.repairs ++ [newRepair s line who] }
    else { k with repairQueue := k.repairQueue ++ [newRepair s line who] }

/-- Act on a persistent line of the failing lines `mask` of its row (Table 12.3): a source-class line is held for its
consumer, any other is written back poisoned. The answer says whether it is held. -/
def actPersistent (s : State) (line det : Nat) (who : Consumer) (logIt : Bool) : State × Bool :=
  let p := linePlace s line
  let s := if logIt then logPersistent s p.stack p.bank p.row (2 ^ p.line) det else s
  let s := mediaRecord s evIntLinePersistent false (mediaKind who det) (dpaOfAddr (lineAddr line))
  if classOf s (lineAddr line) = .source then (startRepair s line who, true)
  else (writeBackPoisoned s line det, false)

/-- Precharge the rows of a bank that an early open has activated. -/
def closeEarlyRows (k : Stack) (e : EarlyOpen) : Stack :=
  { k with openRows := e.rows.foldl (fun m r =>
      if sget none m (2 * e.bank + r % 2) = some r then sput none m (2 * e.bank + r % 2) none else m) k.openRows }

/-- Close a bank's early open and return its permit (R258). -/
def closeEarly (k : Stack) (bank : Nat) : Stack :=
  match k.earlyOpens.find? (·.bank = bank) with
  | none => k
  | some e =>
    { closeEarlyRows k e with earlyOpens := k.earlyOpens.filter (·.bank ≠ bank), permits := k.permits - 1 }

/-- Open a row in its sub-array, the even or the odd rows of its bank (R249). -/
def openRow (s : State) (stack bank row : Nat) : State :=
  modStack s stack fun k =>
    let k := closeEarly k bank
    { k with openRows := sput none k.openRows (2 * bank + row % 2) (some row) }

/-- Close both sub-arrays of a bank. -/
def closeRows (k : Stack) (bank : Nat) : Stack :=
  let k := closeEarly k bank
  { k with openRows := sput none (sput none k.openRows (2 * bank) none) (2 * bank + 1) none }

/-- The three tests of the line at a place: `fails` of them fail though the stored line is good. True: some test passed; a first
failure cured by a re-read is counted as transient (R389). -/
def testPlace (s : State) (p : Place) (fails : Nat) : State × Bool :=
  let s := openRow s p.stack p.bank p.row
  let good := (readRaw s p).pass && fails < 3
  if good && 0 < fails then
    (modStack s p.stack fun k => { k with transient := satInc 0xFFFF k.transient }, true)
  else (s, good)

/-- The three tests of a line. -/
def testLine (s : State) (line fails : Nat) : State × Bool := testPlace s (linePlace s line) fails

/-- Whether a line reads as poisoned without a further test: it is on the refused-line list, or its write-back waits for the write window
(R238, R391). -/
def readsPoisoned (k : Stack) (line : Nat) : Bool :=
  k.refused.contains line || k.heldWrites.any fun w => match w with | .poison l _ => l = line | _ => false

/-- Read a line of the array with its test for a consumer: its data and poison, or nothing when the consumer is held by
a source repair. -/
def readTested (s : State) (line fails det : Nat) (who : Consumer) : State × Option (Line × Bool) :=
  let p := linePlace s line
  if readsPoisoned (getStack s p.stack) line then
    let s := openRow s p.stack p.bank p.row
    (s, some ((readRaw s p).data, true))
  else
    let (s, ok) := testLine s line fails
    if ok then
      let r := readRaw s p
      (s, some (r.data, r.poisoned))
    else
      let (s, held) := actPersistent s line det who true
      if held then (s, none) else (s, some ((readRaw s p).data, true))

/-! ### Write-combining buffers (R222 to R229) -/

/-- The mask of a full line. -/
def fullMask : BitVec 64 := 0xFFFFFFFFFFFFFFFF

/-- Memory channel of a line. -/
def lineChannel (s : State) (line : Nat) : Nat := (linePlace s line).bank % 32

/-- The buffer entry of a line. -/
def wcbEntry (k : Stack) (line : Nat) : Option WcbEntry := k.wcb.find? (·.line = line)

/-- Entries that a channel's buffer holds. -/
def wcbCount (s : State) (stack chan : Nat) : Nat :=
  ((getStack s stack).wcb.filter fun e => lineChannel s e.line = chan).length

/-- Merge a later write over an entry; the later arrival wins for each byte it carries (R223, R226). -/
def mergeEntry (old new : WcbEntry) : WcbEntry :=
  { old with data := mergeLine old.data new.data new.mask, mask := old.mask ||| new.mask,
             poison := old.poison ||| new.poison }

/-- Begin draining the entries that R224 drains at once: a full entry, the oldest of a buffer with 48 or more, and every one of a stack
that is to be in self-refresh (R235). -/
def markDrains (s : State) (stack line : Nat) : State :=
  let k := getStack s stack
  let chan := lineChannel s line
  let mine := k.wcb.filter fun e => lineChannel s e.line = chan
  let full := (mine.filter fun e => e.mask = fullMask).map (·.line)
  let old := if k.selfRefresh then mine.map (·.line) else if 48 ≤ mine.length then (mine.head?.map (·.line)).toList else []
  setStack s stack { k with draining := (k.draining ++ full ++ old).eraseDups }

/-- Whether an access to a line waits at its controller. -/
def lineQueued (k : Stack) (line : Nat) : Bool := k.queue.any fun a => a.line = line

/-- An access waits at its controller, behind those that came before it (R218). -/
def queueAccess (s : State) (a : CtlAccess) : State :=
  let s := match a with
    | .write e => noteHold s (lineStack e.line) e.line
    | .read _ _ _ => s
  modStack s (lineStack a.line) fun k => { k with queue := k.queue ++ [a] }

/-- Whether the buffer can take a write to a line now: into the line's entry, or into a free one (R223). Under a reset nothing is
served (R235). -/
def wcbTakes (s : State) (line : Nat) : Bool :=
  let k := getStack s (lineStack line)
  !k.resetting && ((wcbEntry k line).isSome || wcbCount s (lineStack line) (lineChannel s line) < 64)

/-- A write merges into its line's entry or takes a free one. The entry keeps one poison flag (R222, R226). -/
def enterNow (s : State) (e : WcbEntry) : State :=
  let e := { e with poison := poisonAll (e.poison ≠ 0), sender := .none }
  let s := modStack (noteHold s (lineStack e.line) e.line) (lineStack e.line) fun k =>
    if (wcbEntry k e.line).isSome then { k with wcb := updFirst (·.line = e.line) (fun o => mergeEntry o e) k.wcb }
    else { k with wcb := k.wcb ++ [e] }
  markDrains s (lineStack e.line) e.line

/-- A write takes its place in the buffer; one to a line under repair waits for the repair (R396). -/
def placeWrite (s : State) (e : WcbEntry) : State :=
  if underRepair s e.line then
    let add := updFirst (fun r : Repair => r.line = e.line) fun r => { r with writes := r.writes ++ [e] }
    modStack s (lineStack e.line) fun k => { k with repairs := add k.repairs, repairQueue := add k.repairQueue }
  else enterNow s e

/-- A write reaches its controller: it takes its place in the buffer, or waits behind an earlier access to its line or for an entry
(R218, R223). -/
def enterCtl (s : State) (e : WcbEntry) : State :=
  if !underRepair s e.line && (lineQueued (getStack s (lineStack e.line)) e.line || !wcbTakes s e.line) then
    queueAccess s (.write e)
  else placeWrite s e

/-- Whether a write to a line still waits to cross the stack interface (step 2 of Table 7.6). -/
def lineCrossing (s : State) (line : Nat) : Bool :=
  s.regWait.any fun w => match w.2.2 with | .lineWrite e => e.line = line | _ => false

/-- The table whose regulator a line's transfers charge: the owner of its region, or none for a module-owned region
(R243). -/
def lineOwner (s : State) (line : Nat) : Option Nat :=
  (regionOf s (lineAddr line)).bind fun r => if r.owner < 64 then some r.owner else none

/-- An access to a line waits to cross the stack interface, behind the transfers of its table that came before it (R242, R333). -/
def waitCross (s : State) (line n : Nat) (x : Xfer) : State :=
  waitCharge s ((lineOwner s line).getD 64) (lineStack line) n x

/-- A write leaves for its controller, behind an earlier one that still waits to cross (R333). -/
def enterWcb (s : State) (e : WcbEntry) : State :=
  if lineCrossing s e.line then waitCross s e.line 0 (.lineWrite e) else enterCtl s e

/-- Remove a line's entry from the buffer. -/
def dropEntry (k : Stack) (line : Nat) : Stack :=
  { k with wcb := k.wcb.filter (·.line ≠ line), draining := k.draining.filter (· ≠ line) }

/-! ### Copies in kitties and writes through them (R329, R330) -/

/-- Device physical address of a line. -/
def lineDpa (line : Nat) : Nat := dpaOfAddr (lineAddr line)

/-- The kitty's copy of a line. -/
def kittyGet (s : State) (line : Nat) : Option CLine := sget none s.kitty line
def kittySet (s : State) (line : Nat) (c : Option CLine) : State := { s with kitty := sput none s.kitty line c }

/-- Poison bits per word from a mask of poisoned bytes' words: words `i` with a byte of `mask` set. -/
def wordsOfMask (mask : BitVec 64) : BitVec 16 :=
  BitVec.ofNat 16 (((List.range 16).map fun i => if fieldOf mask.toNat (4 * i) 4 ≠ 0 then 2 ^ i else 0).sum)

/-- Words wholly covered by a byte mask. -/
def fullWordsOfMask (mask : BitVec 64) : BitVec 16 :=
  BitVec.ofNat 16 (((List.range 16).map fun i => if fieldOf mask.toNat (4 * i) 4 = 15 then 2 ^ i else 0).sum)

/-- Overlay bytes on a cached line: words written whole take the write's poison; a partly written word keeps its poison
and adds the write's. -/
def overlay (c : CLine) (data : Line) (mask : BitVec 64) (poison : BitVec 16) (dirty : Bool) : CLine :=
  { data := mergeLine c.data data mask,
    poison := (c.poison &&& ~~~ (fullWordsOfMask mask)) ||| (poison &&& wordsOfMask mask),
    dirty := c.dirty || dirty }

/-- Charge one line of stack traffic to the owner of its region (Table 7.10). -/
def chargeLine (s : State) (line : Nat) : State :=
  match lineOwner s line with
  | some t => charge s t (lineStack line) 64
  | none => s

/-- Whether one line of stack traffic may proceed now (R242). -/
def lineCharges (s : State) (line : Nat) : Bool :=
  match lineOwner s line with
  | some t => canCharge s t (lineStack line) 64
  | none => true

/-- A line write leaves its kitty for the controller, once its regulator lets it cross (step 2 of Table 7.6, R221, R242). -/
def sendLine (s : State) (e : WcbEntry) : State :=
  if lineCharges s e.line then enterWcb (chargeLine s e.line) e else waitCross s e.line 64 (.lineWrite e)

/-- A write by the CXL port or the fabric: it updates the kitty's copy when there is one, else it goes to the buffer (R330). While the
quadrant of the home kitty is off the controller orders it (R534). -/
def outsideWrite (s : State) (e : WcbEntry) : State :=
  match kittyGet s e.line with
  | some c => kittySet s e.line (some (overlay c e.data e.mask e.poison true))
  | none => enterWcb s e

/-- A write of the firmware or of the fabric at its home kitty: a line that the kitty does not hold goes on to its stack and charges the
owner of its region (R330, R243). -/
def chargedWrite (s : State) (e : WcbEntry) : State :=
  if (kittyGet s e.line).isSome then outsideWrite s e else sendLine s e

/-- The write of one line's part of a byte string. -/
def fwLineEntry (a : Nat) (bs : List Byte) (line : Nat) : WcbEntry :=
  let at_ (i : Nat) : Option Byte := if a ≤ 64 * line + i then bs[64 * line + i - a]? else none
  { line := line, data := lineOfBytes ((List.range 64).map fun i => (at_ i).getD 0),
    mask := BitVec.ofNat 64 (((List.range 64).map fun i => if (at_ i).isSome then 2 ^ i else 0).sum),
    poison := 0, sender := .none }

/-- Write a line or a part of it: a line that the host holds is first called back (R335, R510); a line that no kitty holds is
charged to the owner of its region (Table 7.10). -/
def fwWriteLine (s : State) (e : WcbEntry) : State :=
  if (hostHolds s (lineDpa e.line)).isSome then backInvalidate s (lineDpa e.line) (.write e) else chargedWrite s e

/-- READY of a table's round area, once every other write of the round tables is performed and while their round is open (R437). -/
def raiseReady (s : State) (table ready : Nat) : State :=
  if (getRound s table).isOpen && (getRound s table).written then
    fwWriteLine s (fwLineEntry ready (leBytes 4 1) (ready / 64))
  else s

/-- Whether some write of a sender is not yet accepted: it waits for an entry, for a repair or for a regulator. -/
def senderWaits (s : State) (w : Sender) : Bool :=
  (s.stackMap.any fun e => (e.2.queue.any fun a => match a with | .write x => x.sender = w | _ => false) ||
    ((e.2.repairs ++ e.2.repairQueue).any fun r => r.writes.any (·.sender = w))) ||
  (s.regWait.any fun e => match e.2.2 with | .lineWrite x => x.sender = w | _ => false) ||
  s.host.biPending.any fun e => e.waiters.any fun b => match b with | .write x => x.sender = w | _ => false

/-- Answer a sender once every write of it is performed: Cmp to the host, MEM_ACK with STATUS 0 and the GEN of the request to the fabric,
READY to a round area (R334, R363, R365, R437, R505). -/
def answerSender (s : State) (w : Sender) : State :=
  if senderWaits s w then s
  else
    match w with
    | .none => s
    | .host hpa => toHost s (.cmp hpa)
    | .fabric src tag gen =>
      routeFrame s 0 { hdr := { dest := src, src := ownIndex s, gen := gen, table := 64, poison := false },
                       body := .memAck tag 0 }
    | .area t ready => raiseReady s t ready

/-- A write reaches its controller and its sender is answered when it is accepted. -/
def enterAnswered (s : State) (e : WcbEntry) : State := answerSender (enterCtl s e) e.sender

/-- The first waiting access for which `ok` holds and which no earlier one to its line precedes, with the others (R218). -/
def nextAccess (ok : CtlAccess → Bool) : List Nat → List CtlAccess → Option (CtlAccess × List CtlAccess)
  | _, [] => none
  | seen, a :: rest =>
    if !seen.contains a.line && ok a then some (a, rest)
    else (nextAccess ok (a.line :: seen) rest).map fun r => (r.1, a :: r.2)

/-- Whether a waiting write can take its place now. -/
def writeReady (s : State) : CtlAccess → Bool
  | .write e => underRepair s e.line || wcbTakes s e.line
  | .read _ _ _ => false

/-- Take up to `fuel` waiting writes of a stack that can take their place, in order, and answer their senders (R223). -/
def admitWrites : Nat → Nat → State → State
  | 0, _, s => s
  | f + 1, n, s =>
    match nextAccess (writeReady s) [] (getStack s n).queue with
    | some (.write e, rest) =>
      admitWrites f n (answerSender (placeWrite (modStack s n fun k => { k with queue := rest }) e) e.sender)
    | _ => s

/-- Take waiting writes into freed entries (R223). -/
def admitWaiting (s : State) (stack : Nat) : State := admitWrites (getStack s stack).queue.length stack s

/-- Finish the drain of an entry: a full-line write, or a read-modify-write of the tested old line (R224, R225, R238).
A persistent source-class old line holds the merge until its repair ends. -/
def drainEntry (s : State) (e : WcbEntry) (fails : Nat) : State :=
  let stack := lineStack e.line
  let s := modStack s stack fun k => dropEntry k e.line
  let p := linePlace s e.line
  let s := openRow s p.stack p.bank p.row
  if e.mask = fullMask then
    clearUnrepaired (unrefuse (writeLine s p e.data (e.poison ≠ 0)) e.line) e.line
  else
    let refused := (getStack s stack).refused.contains e.line
    let (s, ok) := testLine s e.line fails
    if ok then
      let r := readRaw s p
      unrefuse (writeLine s p (mergeLine r.data e.data e.mask) (r.poisoned || e.poison ≠ 0 || refused)) e.line
    else
      let (s, held) := actPersistent s e.line 2 (.merge e) true
      if held then s
      else
        let s := writeLine s p (mergeLine (readRaw s p).data e.data e.mask) true
        unrefuse (logLine s evIntWcbMergePoison p.stack p.bank p.row (2 ^ p.line) 2) e.line

/-! ### Reads at the controller (R218, R219, R227) -/

/-- Whether a script has a row operation in progress on a bank (R287). -/
def bankInRow (k : Stack) (bank : Nat) : Bool :=
  k.runs.any fun r => r.banks.any fun b => b.bank = bank && b.inRow && !b.ended

/-- Whether a script has an operation in progress on a bank (R286). -/
def bankRunning (k : Stack) (bank : Nat) : Bool :=
  k.runs.any fun r => r.banks.any fun b => b.bank = bank && b.started && !b.ended

/-- Whether a memory channel's arrays refresh themselves: its stack is to be in self-refresh and the channel's buffer is empty; so is the
queue of a controller that runs (R235). DEDUCED (log 169): the manual enters self-refresh by stack and leaves it by channel. -/
def chanAsleep (s : State) (n chan : Nat) : Bool :=
  let k := getStack s n
  k.selfRefresh && !(k.wcb.any fun e => lineChannel s e.line = chan) &&
    (k.resetting || !(k.queue.any fun a => lineChannel s a.line = chan))

/-- Whether a stack's arrays are in self-refresh (Table 7.9). -/
def stackAsleep (k : Stack) : Bool := k.selfRefresh && k.wcb.isEmpty && (k.resetting || k.queue.isEmpty)

/-- Whether a refresh, a scrub row or a script's row operation keeps a bank's accesses waiting (R233, R287, R404). -/
def bankBusy (k : Stack) (bank : Nat) : Bool :=
  k.refreshing.contains bank || k.scrub.active.contains bank || bankInRow k bank

/-- What keeps a read from being served: the stack under reset; a busy bank, unless a full entry answers at once; and held writes, where
a partial entry has to drain first (R227, R235, R236). -/
def readBlocked (s : State) (line : Nat) : Bool :=
  let k := getStack s (lineStack line)
  let b := (linePlace s line).bank
  k.resetting ||
    match wcbEntry k line with
    | some e => e.mask ≠ fullMask && (bankBusy k b || (k.writeHold && !bankRunning k b))
    | none => bankBusy k b

/-- What holds a read that reaches its controller: an earlier access to its line that waits (R218), or what blocks it. -/
def readHeld (s : State) (line : Nat) : Bool := lineQueued (getStack s (lineStack line)) line || readBlocked s line

/-- Serve a read of a line for a consumer: from a full entry at once, after the drain of a partial one, else from the array (R227). While
an operation runs on the line's bank a partial entry stays in the buffer and the read returns the merged line (Table 8.9). Nothing is
returned when a repair holds the consumer. -/
def ctlStored (s : State) (who : Consumer) (line fails : Nat) : State × Option (Line × Bool) :=
  if underRepair s line then (joinRepair s line who, none)
  else
    let n := lineStack line
    match wcbEntry (getStack s n) line with
    | some e =>
      if e.mask = fullMask then (s, some (e.data, e.poison ≠ 0))
      else if bankRunning (getStack s n) (linePlace s line).bank then
        let r := readTested s line fails 0 who
        (r.1, r.2.map fun v => (mergeLine v.1 e.data e.mask, v.2 || e.poison ≠ 0))
      else
        let s := drainEntry s e fails
        let r := if underRepair s line then (joinRepair s line who, none) else readTested s line 0 0 who
        (admitWaiting (markDrains r.1 n line) n, r.2)
    | none => readTested s line fails 0 who

/-- Serve a read of a line: a line of the firmware's structures in the module area has the bytes that those hold (R433, R467). -/
def ctlRead (s : State) (who : Consumer) (line fails : Nat) : State × Option (Line × Bool) :=
  let r := ctlStored s who line fails
  (r.1, r.2.map fun v => ((areaLine r.1 line).getD v.1, v.2))

/-! ### Kitties (R17, R329, R330, R534) -/

/-- Whether the home kitty of a line is powered. -/
def kittyOn (s : State) (line : Nat) : Bool := clusterOn s (homeCluster line)

/-- Whether one line of stack traffic of a core's play may proceed now (R242). -/
def coreLineCharges (s : State) (n line : Nat) : Bool :=
  match lineOwner s line with
  | some t => coreMayCharge s n t (lineStack line) 64
  | none => true

/-- Charge one line of stack traffic of a core's play. -/
def coreChargeLine (s : State) (n line : Nat) : State :=
  match lineOwner s line with
  | some t => coreCharge s n t (lineStack line) 64
  | none => s

/-- Write back a dirty kitty line; the copy stays, clean (R221, R331, R534). A dirty line with a poisoned word is written back poisoned
(R226). -/
def writeBackLine (s : State) (line : Nat) : State :=
  match kittyGet s line with
  | some c =>
    if c.dirty then
      sendLine (kittySet s line (some { c with dirty := false }))
        { line := line, data := c.data, mask := fullMask, poison := c.poison, sender := .none }
    else s
  | none => s

/-- Write back a line and drop it from its kitty (R221). -/
def evictLine (s : State) (line : Nat) : State := kittySet (writeBackLine s line) line none

/-- The lines a cluster's kitty holds. -/
def kittyLines (s : State) (cluster : Nat) : List Nat := (s.kitty.map (·.1)).filter fun l => homeCluster l = cluster

/-- Evict up to `k` lines of a cluster's kitty. Which line leaves is not specified (R221): a free value. -/
def evictSome (cluster : Nat) : Nat → State → State
  | 0, s => s
  | k + 1, s =>
    let ls := kittyLines s cluster
    match ls[Config.victim s.freeNext % ls.length]? with
    | some l => evictSome cluster k (evictLine { s with freeNext := s.freeNext + 1 } l)
    | none => s

/-- Make room for `k` lines in a cluster's kitty of 32,768 lines (Table 0.2, R115). A kitty that is not full may evict a line too. -/
def kittyRoom (s : State) (cluster k : Nat) : State :=
  let n := (kittyLines s cluster).length + k - 32768
  let n := if n = 0 && Config.orderChoice s.freeNext then 1 else n
  evictSome cluster n { s with freeNext := s.freeNext + 1 }

/-- Make room for the lines of a list that their kitties do not hold. -/
def linesRoom (s : State) (lines : List Nat) : State :=
  let miss := lines.filter fun l => (kittyGet s l).isNone
  ((miss.map homeCluster).eraseDups).foldl (fun s c => kittyRoom s c (miss.countP fun l => homeCluster l = c)) s

/-- Write back and drop every line of the kitties of some clusters (R534). -/
def flushKitties (s : State) (clusters : List Nat) : State :=
  let ls := (s.kitty.map (·.1)).filter fun l => clusters.contains (homeCluster l)
  ls.foldl evictLine s

end Sys2Proof.Machine
end

