-- ==== Sys2Proof/Machine/Tickets.lean ====
section
/-! DEFINITION. Bank tickets and the ends of scripts: status, abort, fault, permits (R142, R258, R284, R292 to R297). -/

namespace Sys2Proof.Machine

/-- What names a run: its core, its ticket and the ticket's generation (R295). -/
abbrev RunKey := Nat × Nat × BitVec 8

/-- The key of a run. -/
def runKey (r : ScriptRun) : RunKey := (r.core, r.ticket, r.gen)

/-- The newest run of a ticket on a stack. An older one may still end a row that it had begun (R294). -/
def runOf (k : Stack) (core ticket : Nat) : Option ScriptRun := k.runs.reverse.find? fun r => r.core = core && r.ticket = ticket

/-- The run of a key. -/
def runAt (k : Stack) (key : RunKey) : Option ScriptRun := k.runs.find? fun r => runKey r = key

/-- Change the run of a key. -/
def modRun (k : Stack) (key : RunKey) (f : ScriptRun → ScriptRun) : Stack :=
  { k with runs := updFirst (fun r => runKey r = key) f k.runs }

/-- Whether a run still belongs to its core's ticket: the ticket is busy on this stack with the run's generation. -/
def runCurrent (s : State) (stack : Nat) (r : ScriptRun) : Bool :=
  sget Ticket.free (getCore s r.core).tickets r.ticket = .busy stack r.gen

/-- End a ticket with a status of Table 4.15, where the generation is the ticket's (R142, R295). -/
def endTicket (s : State) (stack core ticket : Nat) (gen : BitVec 8) (status : Nat) : State :=
  let c := getCore s core
  if sget Ticket.free c.tickets ticket = .busy stack gen then
    setCore s core { c with tickets := sput Ticket.free c.tickets ticket (.ended status),
                            wait := if c.wait = .ticket ticket then .none else c.wait }
  else s

/-- The operation a run is at, by the card it was issued from. -/
def opOf (r : ScriptRun) : Option ScriptOp := r.card.ops[r.opIdx]?

/-- The stack that a script's regions lie in (R261). -/
def scriptStack (s : State) (p : Script) : Nat :=
  match deckOf s, p.regions.head? with
  | some d, some n => ((d.regions.find? fun r => r.region = n).map fun r => addrStack r.base).getD 0
  | _, _ => 0

/-- The memory channels and the bank slots of an operation, ascending. -/
def opChannels (o : ScriptOp) : List Nat := setBitsBelow 32 o.chMask
def opSlots (o : ScriptOp) : List Nat := setBitsBelow 24 o.slotMask

/-- The banks of an operation in ascending number (R210, R284). -/
def opBanks (o : ScriptOp) : List Nat := (opSlots o).flatMap fun k => (opChannels o).map fun c => 32 * k + c

/-- Whether a run has a row operation in progress on some bank. -/
def runBusy (r : ScriptRun) : Bool := r.banks.any fun b => b.inRow && !b.ended

/-- Banks that hold a permit for a run. -/
def heldBanks (r : ScriptRun) : Nat := (r.banks.filter fun b => b.started && !b.ended).length

/-- Return a number of streaming permits. -/
def returnPermits (k : Stack) (n : Nat) : Stack := { k with permits := k.permits - n }

/-- The score units of a run's SCORE operations become undefined at an abort, a fault or a loss (R274). -/
def undefineScores (k : Stack) (chans : List Nat) : Stack :=
  { k with scores := chans.foldl (fun m c =>
      (List.range 4).foldl (fun m l => smod ScoreUnit.empty m (4 * c + l) fun u => { u with defined := false }) m) k.scores }

/-- The channels that a script's SCORE operations use. -/
def scoreChannels (p : Script) : List Nat := ((p.ops.filter (·.op = 0x21)).flatMap opChannels).eraseDups

/-- Take a run off its stack, returning the permits of its banks, and end its ticket (R292, R294, R296). -/
def finishRun (s : State) (stack : Nat) (r : ScriptRun) (status : Nat) : State :=
  let held := heldBanks r
  let late := if status = 0 then 0 else r.results.length
  let bad := if status = 0 then [] else scoreChannels r.card
  let s := modStack s stack fun k =>
    let k := returnPermits k held
    let k := { k with runs := k.runs.filter (fun q => runKey q ≠ runKey r),
                      permitWait := k.permitWait.filter (fun w => w.1 ≠ runKey r),
                      lateResults := if late = 0 then k.lateResults else k.lateResults ++ [(r.core, r.ticket, late)] }
    undefineScores k bad
  endTicket s stack r.core r.ticket r.gen status

/-- Stop a run as an abort does: it ends at once when no bank has a row operation in progress, else when the last one
has ended (R293, R294, R296). -/
def stopRun (s : State) (stack : Nat) (r : ScriptRun) (status : Nat) : State :=
  let idle := (r.banks.filter fun b => b.started && !b.ended && !b.inRow).length
  let r := { r with abort := true, faulted := r.faulted || status = 3,
                    banks := r.banks.map fun b => if b.inRow then b else { b with ended := true } }
  let s := modStack s stack fun k => modRun (returnPermits k idle) (runKey r) fun _ => r
  if runBusy r then s else finishRun s stack r status

/-- The detail of a script fault (Table 8.10). -/
def scriptDetail (p : Script) (stack op chan slot ticket core : Nat) (row : W32) : Detail :=
  .script p.table stack p.script op chan slot ticket row (core / 64) (core % 64)

/-- Fault a run: the ticket's core logs the event and the script ends faulted (R296). A run that has been aborted already ends as the
abort gives (R293). -/
def faultRun (s : State) (stack : Nat) (r : ScriptRun) (e : Ev) (chan slot : Nat) (row : W32) : State :=
  if r.abort then s
  else
    let s := logAtDie s e (uNear stack) 0 (some r.card.table) (scriptDetail r.card stack r.opIdx chan slot r.ticket r.core row)
    stopRun s stack r 3

/-- Switch a near-bank half off or reset it: latches and score units clear, running scripts end faulted as an abort does, rows in progress
completing in full; early opens close and the exchange bus drops what it holds (R257, R274, R294, R296, R535). -/
def loseHalf (s : State) (half : Nat) : State :=
  (rangeFrom (4 * half) 4).foldl (fun s n =>
    let s := (getStack s n).runs.foldl (fun s r => faultRun s n r evTnsScriptUnavailable 0xFF 0xFF 0xFFFFFFFF) s
    modStack s n fun k =>
      let k := (k.earlyOpens.map (·.bank)).foldl closeEarly (undefineScores k (List.range 32))
      { k with latches := k.latches.map fun e => (e.1, { e.2 with valid := false }), busNow := none, bus := [] }) s

end Sys2Proof.Machine
end

