-- ==== Sys2Proof/Machine/Recovery.lean ====
section
/-! DEFINITION. Switching domains off, link loss, and the start of a reset domain's recovery (R94, R374, R533 to R536,
R576 to R580). -/

namespace Sys2Proof.Machine

/-- KIND and INSTANCE of a reset domain (Table 17.8). -/
def domainKind : ResetDomain → Nat × Nat
  | .quadrant n => (1, n) | .nearBank n => (2, n) | .fabricSide n => (3, n) | .stack n => (4, n)
  | .controlCore n => (5, n) | .wholeModule => (6, 0)

/-- The reset domain that a KIND and INSTANCE name, where they name one. -/
def domainOfKind (kind inst : Nat) : Option ResetDomain :=
  match kind with
  | 1 => if inst < 16 then some (.quadrant inst) else none
  | 2 => if inst < 2 then some (.nearBank inst) else none
  | 3 => if inst < 2 then some (.fabricSide inst) else none
  | 4 => if inst < 8 then some (.stack inst) else none
  | 5 => if inst < 2 then some (.controlCore inst) else none
  | 6 => if inst = 0 then some .wholeModule else none
  | _ => none

/-- Switch a domain off. -/
def domainOff (s : State) (n : Nat) : State := setDomain s n { getDomain s n with on := false, inReg := false }
/-- A domain is on and in regulation. -/
def domainOn (s : State) (n : Nat) : State := setDomain s n { getDomain s n with on := true, inReg := true }

/-- Switch a quadrant off: its kitties write back every dirty line and hold no copy; its pace counter loses VALID
(R534, Table 2.9). -/
def quadrantOff (s : State) (q : Nat) : State :=
  let s := if quadrantOn s q then flushKitties s (clustersOfQuadrant q) else s
  { domainOff s q with pace := sput 0 (sput 0 s.pace q 0) (16 + q) 0 }

/-- Switch a near-bank half off. -/
def nearOff (s : State) (h : Nat) : State := domainOff (loseHalf s h) (16 + h)

/-- A port stops: OFF, with nothing retained. -/
def portOff (p : Port) : Port :=
  { p with state := .off, step := 0, attempts := 0, peer := none, verMajor := 0, verMinor := 0, rxNext := 0,
           rxWait := false, nakDue := false, ackDue := false, rxPart := [], rxSkip := false, rxHeld := [], rxOwed := [], txNext := 0, retain := [], credits := [], awayGen := none, waitTx := [] }

/-- Switch a fabric side off: its ports enter OFF (R536). -/
def sideOff (s : State) (f : Nat) : State :=
  domainOff ((rangeFrom (6 * f) 6).foldl (fun s p => moveRoutes s p portOff) s) (18 + f)

/-- Put a stack controller under reset: its buffers drain and its arrays go to self-refresh (R224, R235). -/
def stackReset (s : State) (n : Nat) : State :=
  modStack (startDeadline s (.drain n)) n fun k =>
    { (List.range 768).foldl closeEarly k with
      resetting := true, selfRefresh := true, openRows := [], draining := k.wcb.map (·.line) }

/-- An ARMED deck returns to VERIFIED when a recovery resets a control core or the whole module (R94). A deck whose switch is under way
does so when the switch is cancelled. -/
def disarm (s : State) : State :=
  match s.loader.stage with
  | .armed => modLoader s fun l => { l with stage := .verified, armed := none }
  | .switching => modLoader s fun l => { l with dropArmed := true }
  | _ => s

/-- What the start of a domain's recovery does to the domain (Table 17.4). -/
def resetDomain (s : State) : ResetDomain → State
  | .quadrant q => quadrantOff s q
  | .nearBank h => nearOff s h
  | .fabricSide f => sideOff s f
  | .stack n => stackReset s n
  | .controlCore _ => disarm (modCtl s fun c => { c with standbyReady := false })
  | .wholeModule =>
    let s := (List.range 16).foldl quadrantOff s
    let s := (List.range 2).foldl nearOff s
    let s := (List.range 2).foldl sideOff s
    let s := (List.range 8).foldl stackReset s
    disarm (modCtl s fun c => { c with standbyReady := false, selfTestStart := s.meter.toNat, firstFailure := 0 })

/-- Start a recovery, or join one that runs: the module recovers the union, or the whole module when that is among them,
and logs one start (R576, R580). -/
def beginRecovery (s : State) (d : ResetDomain) : State :=
  let first := s.ctl.recovering.isEmpty
  if s.ctl.recovering.contains d || s.ctl.recovering.contains .wholeModule then s
  else
    let s := modCtl s fun c =>
      { c with recovering := if d = .wholeModule then [d] else c.recovering ++ [d],
               recKind := if first || d = .wholeModule then d else c.recKind,
               recCount := if first then satInc 0xFFFF c.recCount else c.recCount, rejoin := true }
    let s := resetDomain s d
    if first then
      let k := domainKind d
      logGen s evBupRecoveryStart uCtl none [w32 k.1, w32 k.2] []
    else s

end Sys2Proof.Machine
end

