-- ==== Sys2Proof/Machine/Abort.lean ====
section
/-! DEFINITION. Group aborts, core faults and cancelled switches (R96, R97, R149 to R152, R311, R316, R323, R372 to R374,
R573 to R575). -/

namespace Sys2Proof.Machine

/-- Whether a code word names a code: CLASS and NUMBER alone identify it (R637). -/
def codeIs (c : W32) (e : Ev) : Bool := c.toNat / 2 ^ 28 = e.cls && c.toNat % 2 ^ 16 = e.num

/-- End the background operation with an opcode, where it runs (R520, R523). -/
def endBackground (s : State) (opcode : Nat) (st : Status) (code : W32) (out : List Byte) : State :=
  match s.background with
  | some b =>
    if b.opcode = opcode && b.running then
      { s with background := some { b with running := false, percent := 100, result := st, code := code, out := out } }
    else s
  | none => s

/-- The key under which a cluster's knowledge of a trick is kept (R303). -/
def knownKey (trick cluster : Nat) : Nat := 64 * trick + cluster

/-- The EPOCH of a trick that a cluster knows. -/
def knownEpoch (s : State) (trick cluster : Nat) : W32 := sget 0 s.known (knownKey trick cluster)

/-! ### Deck faults (R104) -/

/-- Record a deck fault: it is logged and kept in DECK_LAST_FAULT with its deck offset. -/
def deckFault (s : State) (e : Ev) (offset : W32) (a32 : List W32) (a64 : List W64) : State :=
  modLoader (logGen s e uDeck none a32 a64) fun l => { l with lastFault := e.word uDeck, faultOffset := offset }

/-- The number of a staging state (Table 3.20). -/
def stageNumber : StageState → Nat
  | .empty => 0 | .staging => 1 | .staged => 2 | .verifying => 3 | .verified => 4 | .arming => 5 | .armed => 6 | .switching => 7

/-- The offset that stands for none (Table 3.21). -/
def noOffset : W32 := 0xFFFFFFFF

/-! ### Cancelling (R96, R311) -/

/-- A trick slot with its epoch's progress cancelled; EPOCH is kept (R311). -/
def trickCancel (t : Trick) : Trick := { t with arrived := 0, childArrived := 0, sent := false }

/-- A member withdraws from a switch it has not loaded: its play of slot 0 is taken back and it stays ARMED (R96), or returns to VERIFIED
where a recovery has reset a control core or the whole module since the play (R94). -/
def cancelSwitch (s : State) : State :=
  match s.loader.phase with
  | .gathering | .announced | .played =>
    let s := setTrick s 0 (trickCancel (getTrick s 0))
    let s := modCtl s fun c => { c with heldSwitch := false }
    modLoader s fun l =>
      { l with phase := .none, gathered := [], alone := false, dropArmed := false, armed := if l.dropArmed then none else l.armed,
               stage := if l.stage = .switching then (if l.dropArmed then .verified else .armed) else l.stage }
  | _ => s

/-- The deck whose group a switch concerns: the running deck, or the armed one on a module that runs none. -/
def switchDeck (s : State) : Option Deck :=
  match s.loader.running with
  | some d => some d
  | none => s.loader.armed

/-- The dealer ends a switch for its group (R96). -/
def endSwitch (s : State) (cause result : W32) : State :=
  let s := logGen s evDckSwitchCancelled uDeck none [cause] []
  let s :=
    if s.loader.alone then s
    else
      match switchDeck s with
      | some d => sendAll s (.switchCancel d.role.group cause) (childrenOf s d (ownIndex s))
      | none => s
  let s := modLoader s fun l => { l with lastFault := result, faultOffset := noOffset }
  endBackground (cancelSwitch s) 0xC014 .invalidInput result []

/-- Cancel the tricks of the aborted round. The second play of the switch trick belongs to no round and stands (R97,
R311). -/
def cancelTricks (s : State) : State :=
  let keep := s.loader.phase = .replayed || s.loader.phase = .loading
  let ks := s.tricks.map (·.1)
  let s := ks.foldl (fun s n => if n = 0 && keep then s else setTrick s n (trickCancel (getTrick s n))) s
  { s with clusterPlays := [], arrives := [] }

/-- Put both ends of a stream back as R316 gives; the tallies stand. -/
def resetStream (s : State) (e : StreamEntry) : State :=
  modStream s e.stream fun k =>
    { k with stopped := false, avail := if k.prodValid then e.initial else k.avail, taken := 0, delivered := 0, held := 0 }

/-- Reset every stream of the running deck; credits under way are gone with the old round (R316, R323). -/
def resetStreams (s : State) : State :=
  match deckOf s with
  | none => s
  | some d => { d.streams.foldl resetStream s with creditFlight := [] }

/-- Abort every bank ticket of the module (R152, R573). -/
def abortTickets (s : State) : State :=
  (List.range 8).foldl (fun s n => (getStack s n).runs.foldl (fun s r => stopRun s n r 1) s) s

/-- Restart the cores of every table (R152, R573). A BLATCH chunk under way still lands, but no core waits for it. -/
def restartCores (s : State) : State :=
  match deckOf s with
  | none => s
  | some d =>
    let s := (programmedCores d).foldl restartCore s
    { s with latchFlight := s.latchFlight.map fun f => { f with core := 4096 } }

/-- Cancel the open rounds; their contents stay for the replay (R446). Of a round that has closed the reports that have come stand, and
those still out are cut off (R443; DESIGN CHOICE, log 174). -/
def cancelRounds (s : State) : State :=
  { s with rounds := s.rounds.map fun e =>
      let r := e.2
      (e.1, { r with again := r.again || r.isOpen, isOpen := false, written := false, heldMark := none, parts := [],
                     reports := if r.isOpen then [] else r.reports, reported := r.reported && !r.isOpen,
                     reportsLost := r.reportsLost || (r.verdictDue && !r.isOpen) }) }

/-! ### Stalls that come back (R575) -/

/-- Quadrants that hold a core that has not played a closing trick in its current epoch. -/
def unplayedQuadrants (s : State) : List Nat :=
  match deckOf s with
  | none => []
  | some d =>
    let tricks := d.tables.filterMap fun t => if (getRound s t.table).isOpen then closingTrick d t.table else none
    let cores := tricks.flatMap fun n =>
      match d.tricks.find? fun e => e.trick = n with
      | none => []
      | some e =>
        e.masks.flatMap fun m =>
          ((setBitsBelow 64 m.2.toNat).map fun l => 64 * m.1 + l).filter fun c =>
            sget none (getCore s c).members n ≠ some (getTrick s n).epoch
    (cores.map fun c => quadrantOf (c / 64)).eraseDups

/-- At the second stall of one round, recover the quadrants that hold it up; at the first, remember it. -/
def checkStall (s : State) (code : W32) : State :=
  if codeIs code evBupRoundStall then
    if s.ctl.stalledRound.isSome then (unplayedQuadrants s).foldl (fun s q => beginRecovery s (.quadrant q)) s
    else modCtl s fun c => { c with stalledRound := some s.lastRound }
  else s

/-! ### Accepting an abort (R373, R573) -/

/-- Whether every recovery that READY waits for has ended, the one that a thermal shutdown will bring among them; a control core
recovers in the background (R547, R569, R574). -/
def recovered (s : State) : Bool :=
  !s.power.shutdown && s.ctl.recovering.all fun d => match d with | .controlCore _ => true | _ => false

/-- Send READY with the new generation and the abort's code once no recovery is pending (R573, R574). -/
def sendReady (s : State) : State :=
  match deckOf s with
  | none => s
  | some d =>
    if s.ctl.group = .recovering && recovered s then
      sendFrame s (dealerIndex s d) 64
        (.group { kind := 3, part := 0, parts := 1, gen := s.gen, group := d.role.group, arg := s.ctl.abortCode,
                  deckId := d.id.deckId, deckSerial := d.id.serial, pairs := [] })
    else s

/-- What a module does with an abort of its group: it adopts the generation, cancels the round, aborts its tickets,
restarts its cores, resets its streams and sends READY (R97, R311, R373, R573). -/
def adoptAbort (s : State) (gen : BitVec 16) (code : W32) : State :=
  let s := { s with gen := gen }
  let s := modCtl s fun c => { c with group := .recovering, abortCode := code, requestedAbort := none, readyFrom := [], awaitAlign := !isDealer s }
  let s := startDeadline (checkStall s code) .memberReady
  let s := cancelTricks s
  let s := abortTickets s
  let s := restartCores s
  let s := resetStreams s
  let s := cancelRounds s
  let s :=
    match s.loader.phase with
    | .gathering | .announced | .played =>
      if isDealer s || s.loader.alone then endSwitch s code (evDckSwitchCancelled.word uDeck) else cancelSwitch s
    | _ => s
  sendReady s

/-- The dealer aborts its group (R372). -/
def groupAbort (s : State) (origin : Nat) (code : W32) : State :=
  match deckOf s with
  | none => s
  | some d =>
    let g := genSucc s.gen
    let s := logGen s evFabGroupAbort uFabric none [w32 origin, code, w32 g.toNat] []
    let s := sendDown { s with gen := g } (.abort origin d.role.group code)
    adoptAbort s g code

/-- The successor begins to probe the dealer, every 30 local ms (R581). -/
def beginProbes (s : State) (code : W32) : State :=
  if s.ctl.probing then s
  else startDeadline (modCtl s fun c => { c with probing := true, probesMissed := 0, abortCode := code }) .probe

/-- Ask for a group abort: a member sends ABORT_REQ to its dealer and logs it; the dealer aborts at once (R372). -/
def requestAbort (s : State) (code : W32) : State :=
  match deckOf s with
  | none => s
  | some d =>
    if isDealer s then groupAbort s (ownIndex s) code
    else
      let s := sendFrame s (dealerIndex s d) 64 (.abortReq d.role.group code)
      let s := startDeadline (modCtl s fun c => { c with requestedAbort := some code }) .abortReq
      logGen s evFabAbortRequested uFabric none [code, w32 s.gen.toNat] []

/-- A port leaves ACTIVE in a module with an active deck (R374). -/
def portLeavesActive (s : State) (p : Nat) (e : Ev) : State := requestAbort s (e.word (uPort p))

/-- The CODE of the abort that a recovery asks for: of a fabric side with an ACTIVE port, which leaves ACTIVE with it, FAB_LINK_DOWN
(R374). -/
def leaveCode (s : State) (d : ResetDomain) (code : W32) : W32 :=
  match d with
  | .fabricSide f =>
    match (rangeFrom (6 * f) 6).find? fun p => (getPort s p).state = .active with
    | some p => evFabLinkDown.word (uPort p)
    | none => code
  | _ => code

/-- A reset domain with a running deck recovers inside a group abort (R576). -/
def abortAndRecover (s : State) (d : ResetDomain) (code : W32) : State :=
  let code := leaveCode s d code
  let s := beginRecovery s d
  match d with
  | .controlCore _ => s
  | _ => requestAbort s code

/-! ### Core faults (R149 to R151) -/

/-- Innermost active loop's iteration index (Table 4.17). -/
def coreIteration (c : Core) : W32 :=
  match c.loops with
  | [] => 0xFFFFFFFF
  | l :: _ => w32 l.iter

/-- The detail of Table 4.17 for a core. -/
def coreDetail (s : State) (n : Nat) (number : Nat) (addr : W64) : Detail :=
  let c := getCore s n
  .core (n / 64) (n % 64) (physicalOf s n) ((tableOfCore s n).getD 0) c.pc number (coreIteration c) addr

/-- A core stops with a fault, which is logged (R149). -/
def stopCore (s : State) (n : Nat) (e : Ev) (number : Nat) (addr : W64) : State :=
  let u := uCluster (n / 64)
  let d := coreDetail s n number addr
  let s := modCore (dropCoreWait s n) n fun c =>
    { c with run := .faulted, wait := .none,
             fault := some { code := e.word u, play := c.pc, number := number, iteration := coreIteration c, address := addr } }
  logEvent s e u (tableOfCore s n) d

/-- A core faults: it stops, reports its detail, one event is logged, and the round is aborted (R149 to R151, R372). -/
def coreFault (s : State) (n : Nat) (e : Ev) (number : Nat) (addr : W64) : State :=
  requestAbort (stopCore s n e number addr) (e.word (uCluster (n / 64)))

/-- The ports that a deck switch left out of ACTIVE ask for one abort at the first round mark of the new deck, which the dealer accepts as it
sends it (R353). -/
def raiseRecheck (s : State) : State :=
  if (List.range 12).any fun p => (getPort s p).recheckDown && (getPort s p).state ≠ .active then
    let p := ((List.range 12).find? fun p => (getPort s p).recheckDown && (getPort s p).state ≠ .active).getD 0
    let s := (List.range 12).foldl (fun s p => modPort s p fun q => { q with recheckDown := false }) s
    requestAbort s (evFabNeighbourMismatch.word (uPort p))
  else s

end Sys2Proof.Machine
end

