-- ==== Sys2Proof/Machine/Float.lean ====
section
/-! DEFINITION. Number formats, exact values, rounding and conversion (chapter 5). -/

namespace Sys2Proof.Machine

/-- The element and scale types of Table 5.1. -/
inductive Elem where
  | fp32 | bf16 | fp16 | e4m3 | e5m2 | e3m2 | e2m3 | fp4 | int8 | int4 | uint8 | int32 | e8m0 | sl
  deriving DecidableEq, Repr

/-- The type a code of Table 5.1 names; reserved codes name none (R157). -/
def Elem.ofCode : Nat → Option Elem
  | 0x01 => some .fp32
  | 0x02 => some .bf16
  | 0x03 => some .fp16
  | 0x04 => some .e4m3
  | 0x05 => some .e5m2
  | 0x06 => some .e3m2
  | 0x07 => some .e2m3
  | 0x08 => some .fp4
  | 0x09 => some .int8
  | 0x0A => some .int4
  | 0x0B => some .uint8
  | 0x0C => some .int32
  | 0x10 => some .e8m0
  | 0x11 => some .sl
  | _ => none

/-- Width in bits (Table 5.1). -/
def Elem.bits : Elem → Nat
  | .fp32 => 32 | .bf16 => 16 | .fp16 => 16 | .e4m3 => 8 | .e5m2 => 8 | .e3m2 => 6 | .e2m3 => 6 | .fp4 => 4
  | .int8 => 8 | .int4 => 4 | .uint8 => 8 | .int32 => 32 | .e8m0 => 8 | .sl => 8

/-- A binary format: mantissa width, bias, exponent width, the largest finite magnitude and its canonical NaN, and
whether it has infinities (Table 5.1). -/
structure FloatFmt where
  mbits : Nat
  ebits : Nat
  bias : Nat
  maxBits : Nat
  nanBits : Nat
  inf : Bool
  deriving DecidableEq, Repr

/-- The binary format of a floating type (Table 5.1; NaNs of Table 5.6). -/
def Elem.fmt : Elem → Option FloatFmt
  | .fp32 => some ⟨23, 8, 127, 0x7F7FFFFF, 0x7FC00000, true⟩
  | .bf16 => some ⟨7, 8, 127, 0x7F7F, 0x7FC0, true⟩
  | .fp16 => some ⟨10, 5, 15, 0x7BFF, 0x7E00, true⟩
  | .e4m3 => some ⟨3, 4, 7, 0x7E, 0x7F, false⟩
  | .sl => some ⟨3, 4, 7, 0x7E, 0x7F, false⟩
  | .e5m2 => some ⟨2, 5, 15, 0x7B, 0x7E, true⟩
  | .e3m2 => some ⟨2, 3, 3, 0x1F, 0, false⟩
  | .e2m3 => some ⟨3, 2, 1, 0x1F, 0, false⟩
  | .fp4 => some ⟨1, 2, 1, 0x7, 0, false⟩
  | _ => none

/-- An exact value: NaN, a signed infinity, or `±m × 2^e`, the sign of a zero kept. -/
inductive FV where
  | nan
  | inf (neg : Bool)
  | num (neg : Bool) (m : Nat) (e : Int)
  deriving DecidableEq, Repr

/-- The exact zero. -/
def FV.zero : FV := .num false 0 0

/-- A power of two by a natural exponent. -/
def pow2 (n : Nat) : Nat := 2 ^ n

/-- The value of an encoding of a floating type (R158, Table 5.1). -/
def FloatFmt.decode (f : FloatFmt) (bits : Nat) : FV :=
  let m := bits % 2 ^ f.mbits
  let e := bits / 2 ^ f.mbits % 2 ^ f.ebits
  let neg := bits / 2 ^ (f.mbits + f.ebits) % 2 = 1
  let mag := bits % 2 ^ (f.mbits + f.ebits)
  if mag > f.maxBits then (if f.inf && m = 0 then .inf neg else .nan)
  else if e = 0 then .num neg m (1 - (f.bias : Int) - f.mbits)
  else .num neg (2 ^ f.mbits + m) ((e : Int) - f.bias - f.mbits)

/-- The value of an element's bits (R158, R159; integers by two's complement). -/
def Elem.decode (t : Elem) (bits : Nat) : FV :=
  match t.fmt with
  | some f => f.decode bits
  | none =>
    match t with
    | .e8m0 => if bits % 256 = 255 then .nan else .num false 1 ((bits % 256 : Nat) - 127)
    | .uint8 => .num false (bits % 256) 0
    | _ =>
      let v := sext t.bits (bits % 2 ^ t.bits)
      .num (decide (v < 0)) v.natAbs 0

/-- `±m × 2^e` as a signed multiple of `2^base`, for `base ≤ e`. -/
def scaled (neg : Bool) (m : Nat) (e base : Int) : Int :=
  let v : Int := (m * 2 ^ (e - base).toNat : Nat)
  if neg then -v else v

/-- Exact sum. A zero sum is `−0` only when both terms are negative zeros or negative (IEEE 754, R177). -/
def FV.add : FV → FV → FV
  | .nan, _ => .nan
  | _, .nan => .nan
  | .inf a, .inf b => if a = b then .inf a else .nan
  | .inf a, _ => .inf a
  | _, .inf b => .inf b
  | .num n m e, .num n' m' e' =>
    let base := min e e'
    let v := scaled n m e base + scaled n' m' e' base
    if v = 0 then .num (n && n') 0 0 else .num (decide (v < 0)) v.natAbs base

/-- Exact negation. -/
def FV.neg : FV → FV
  | .nan => .nan
  | .inf a => .inf (!a)
  | .num n m e => .num (!n) m e

/-- Exact product; infinity times zero is NaN. -/
def FV.mul : FV → FV → FV
  | .nan, _ => .nan
  | _, .nan => .nan
  | .inf a, .inf b => .inf (a != b)
  | .inf a, .num n m _ => if m = 0 then .nan else .inf (a != n)
  | .num n m _, .inf b => if m = 0 then .nan else .inf (n != b)
  | .num n m e, .num n' m' e' => .num (n != n') (m * m') (e + e')

/-- Round `m × 2^e` to `p` significant bits, to nearest even, no bit below `2^emin` (R170): the rounded significand and
its exponent. -/
def roundMant (p : Nat) (emin : Int) (m : Nat) (e : Int) : Nat × Int :=
  if m = 0 then (0, emin)
  else
    let q := max (e + ((Nat.log2 m + 1 : Nat) : Int) - p) emin
    if q ≤ e then (m * 2 ^ (e - q).toNat, q)
    else
      let sh := 2 ^ (q - e).toNat
      let fl := m / sh
      let rem := m % sh
      if 2 * rem > sh || (2 * rem = sh && fl % 2 = 1) then (fl + 1, q) else (fl, q)

/-- The magnitude bits of `m × 2^e` rounded into a format, with an unbounded exponent. -/
def FloatFmt.magBits (f : FloatFmt) (m : Nat) (e : Int) : Nat :=
  let emin : Int := 1 - (f.bias : Int) - f.mbits
  let r := roundMant (f.mbits + 1) emin m e
  (r.2 - emin).toNat * 2 ^ f.mbits + r.1

/-- The sign bit of a format. -/
def FloatFmt.signBit (f : FloatFmt) (neg : Bool) : Nat := if neg then 2 ^ (f.mbits + f.ebits) else 0

/-- Convert an exact value into a floating format by Table 5.6: finite overflow and infinity give an infinity where
`satInf` is false, and the largest finite value where `satFin` or `satInf` says so. -/
def FloatFmt.encode (f : FloatFmt) (satFin satInf : Bool) : FV → Nat
  | .nan => f.nanBits
  | .inf neg => f.signBit neg + (if satInf then f.maxBits else (2 ^ f.ebits - 1) * 2 ^ f.mbits)
  | .num neg m e =>
    let mag := f.magBits m e
    f.signBit neg +
      (if mag ≤ f.maxBits then mag else if satFin then f.maxBits else (2 ^ f.ebits - 1) * 2 ^ f.mbits)

/-- Round an exact value to an integer, ties to even. -/
def roundInt (neg : Bool) (m : Nat) (e : Int) : Int :=
  let k : Nat :=
    if 0 ≤ e then m * 2 ^ e.toNat
    else
      let sh := 2 ^ (-e).toNat
      let fl := m / sh
      let rem := m % sh
      if 2 * rem > sh || (2 * rem = sh && fl % 2 = 1) then fl + 1 else fl
  if neg then -(k : Int) else k

/-- The two's-complement bits of an integer. -/
def intBits (w : Nat) (v : Int) : Nat := (v % (2 ^ w : Nat)).toNat

/-- Conversion to an integer type by Table 5.6: saturating, NaN gives 0. -/
def encodeInt (w : Nat) (lo hi : Int) : FV → Nat
  | .nan => 0
  | .inf neg => intBits w (if neg then lo else hi)
  | .num neg m e => intBits w (max lo (min hi (roundInt neg m e)))

/-- The least and greatest value of an integer type (Table 5.1). -/
def Elem.intRange : Elem → Int × Int
  | .int8 => (-128, 127)
  | .int4 => (-8, 7)
  | .uint8 => (0, 255)
  | _ => (-2147483648, 2147483647)

/-- Conversion of an exact value to a type's bits, by its row of Table 5.6. -/
def Elem.encode (t : Elem) (v : FV) : Nat :=
  match t with
  | .fp32 => (FloatFmt.mk 23 8 127 0x7F7FFFFF 0x7FC00000 true).encode false false v
  | .bf16 => (FloatFmt.mk 7 8 127 0x7F7F 0x7FC0 true).encode false false v
  | .fp16 => (FloatFmt.mk 10 5 15 0x7BFF 0x7E00 true).encode false false v
  | .e4m3 => (FloatFmt.mk 3 4 7 0x7E 0x7F false).encode true true v
  | .sl => (FloatFmt.mk 3 4 7 0x7E 0x7F false).encode true true v
  | .e5m2 => (FloatFmt.mk 2 5 15 0x7B 0x7E true).encode true false v
  | .e3m2 => (FloatFmt.mk 2 3 3 0x1F 0 false).encode true true v
  | .e2m3 => (FloatFmt.mk 3 2 1 0x1F 0 false).encode true true v
  | .fp4 => (FloatFmt.mk 1 2 1 0x7 0 false).encode true true v
  | .e8m0 =>
    match v with
    | .nan => 0xFF
    | .inf _ => 0xFF
    | .num neg m e =>
      if m = 0 || neg then 0xFF
      else (max 0 (min 254 (127 + e + (Nat.log2 m : Int)))).toNat
  | .int8 | .int4 | .uint8 | .int32 => encodeInt t.bits t.intRange.1 t.intRange.2 v

/-- An FP32 word's value. -/
def f32 (w : W32) : FV := Elem.fp32.decode w.toNat

/-- An exact value rounded to FP32. -/
def toF32 (v : FV) : W32 := BitVec.ofNat 32 (Elem.fp32.encode v)

/-- FP32 sum with one rounding (R170, R177). -/
def fadd (a b : W32) : W32 := toF32 ((f32 a).add (f32 b))

/-- FP32 difference with one rounding. -/
def fsub (a b : W32) : W32 := toF32 ((f32 a).add (f32 b).neg)

/-- FP32 product with one rounding. -/
def fmul (a b : W32) : W32 := toF32 ((f32 a).mul (f32 b))

/-- `a ≤ b` on exact values other than NaN, with −0 below +0 (R178). -/
def FV.le : FV → FV → Bool
  | .nan, _ => false
  | _, .nan => false
  | .inf true, _ => true
  | _, .inf false => true
  | .inf false, _ => false
  | _, .inf true => false
  | .num n m e, .num n' m' e' =>
    let base := min e e'
    let x := scaled n m e base
    let y := scaled n' m' e' base
    if x = 0 ∧ y = 0 then (n || !n') else decide (x ≤ y)

/-- `a ≤ b` as numbers: −0 and +0 are equal (R179). -/
def FV.leNum : FV → FV → Bool
  | .num n m e, .num n' m' e' =>
    let base := min e e'
    decide (scaled n m e base ≤ scaled n' m' e' base)
  | a, b => a.le b

/-- The maximum of R178: NaN if either is NaN. -/
def FV.max (a b : FV) : FV := if a = .nan ∨ b = .nan then .nan else if a.le b then b else a

/-- The minimum of R178. -/
def FV.min (a b : FV) : FV := if a = .nan ∨ b = .nan then .nan else if a.le b then a else b

/-- The exact sum of a list of products, and the rounding of a block result to FP32 (R166, R167): NaN if any product is
NaN or both infinities occur, the infinity if one occurs, `+0` for an exact zero. -/
def blockSum (ps : List FV) : FV :=
  if ps.any (fun p => p = .nan) then .nan
  else
    let hasP := ps.any (fun p => p = .inf false)
    let hasN := ps.any (fun p => p = .inf true)
    if hasP && hasN then .nan
    else if hasP then .inf false
    else if hasN then .inf true
    else
      match ps.foldl FV.add FV.zero with
      | .num _ 0 _ => FV.zero
      | v => v

/-- A block result rounded once to FP32. -/
def blockResult (ps : List FV) : W32 := toF32 (blockSum ps)

end Sys2Proof.Machine
end

