-- ==== Sys2Proof/Machine/Operands.lean ====
section
/-! DEFINITION. Tensor descriptors: layout, validity, offsets, extents, element positions, and the words that a play
writes (chapter 6; R108, R119, R163, R164). -/

namespace Sys2Proof.Machine

/-! ### Layout (R186, Table 6.1) -/

/-- A descriptor by its fields. `scaleStride` has an entry 0 for dimension 0, which Table 6.1 does not hold. -/
structure Desc where
  version : Nat
  rank : Nat
  type : Nat
  block : Nat
  sl : Bool
  clamp : Nat
  scaleType : Nat
  base : Int
  size : List Nat
  bound : List Nat
  stride : List Int
  scaleBase : Int
  slBase : Int
  hiBase : Int
  scaleStride : List Int
  clean : Bool
  deriving DecidableEq, Repr

/-- `n` bytes of a descriptor from an offset. -/
def descBytes (b : BitVec 1024) (off n : Nat) : Nat := fieldOf b.toNat (8 * off) (8 * n)

/-- The fields of a descriptor's 128 bytes. `clean`: every reserved byte and bit is zero (R10). -/
def parseDesc (b : BitVec 1024) : Desc :=
  { version := descBytes b 0 1, rank := descBytes b 1 1 % 8, type := descBytes b 2 1 % 64,
    block := descBytes b 3 1 % 4, sl := bitOf (descBytes b 3 1) 2, clamp := descBytes b 4 1 % 64,
    scaleType := descBytes b 5 1, base := descBytes b 8 6,
    size := (List.range 6).map fun i => descBytes b (16 + 4 * i) 4,
    bound := (List.range 6).map fun i => descBytes b (40 + 4 * i) 4,
    stride := (List.range 6).map fun i => sext 40 (descBytes b (64 + 5 * i) 5),
    scaleBase := descBytes b 94 6, slBase := descBytes b 100 6, hiBase := descBytes b 106 6,
    scaleStride := 0 :: (List.range 5).map fun i => sext 24 (descBytes b (112 + 3 * i) 3),
    clean := descBytes b 1 1 < 8 && descBytes b 2 1 < 64 && descBytes b 3 1 < 8 && descBytes b 4 1 < 64 &&
      descBytes b 6 2 = 0 && descBytes b 14 2 = 0 && descBytes b 127 1 = 0 }

/-- The element type of a descriptor whose TYPE is not reserved. -/
def descElem (d : Desc) : Elem := (Elem.ofCode d.type).getD .fp32

/-- Whether a type is one of the two FP6 types, whose values lie in two planes. -/
def isFp6 (t : Elem) : Bool := t = .e3m2 || t = .e2m3

/-- The block length of Table 5.3. -/
def blockLen (shape : Nat) : Nat := if shape < 2 then 32 else 16

/-- Entry `i` of a list of dimensions. -/
def dimN (l : List Nat) (i : Nat) : Nat := (l[i]?).getD 1
def dimZ (l : List Int) (i : Nat) : Int := (l[i]?).getD 0

/-! ### Addresses of R108 -/

/-- The bit that marks the local window. -/
def localBit : Nat := 2 ^ 47

/-- Bytes of scratch: offsets 0 to 0x2_FFFF (R108). -/
def scratchBytes : Nat := 0x30000

/-- Whether an address has the local-window form (R108). -/
def isLocal (a : Int) : Bool := (localBit : Int) ≤ a && a < (localBit : Int) + scratchBytes
/-- Whether an address has the device form (R108). -/
def isDevice (a : Int) : Bool := 0 ≤ a && a < 2 ^ 39

/-! ### Validity (R193, Table 6.3) -/

/-- The address fields that a tensor uses. -/
def usedBases (d : Desc) : List Int :=
  [d.base] ++ (if d.block ≠ 0 then [d.scaleBase] else []) ++ (if d.sl then [d.slBase] else []) ++
    (if isFp6 (descElem d) then [d.hiBase] else [])

/-- Whether an operand lies in the local window: each address field that it uses, moved by its scalar offset, has bit 47 set (R108, orders
2 and 3 of Table 6.4). -/
def descLocal (d : Desc) : Bool := (usedBases d).all fun b => (localBit : Int) ≤ b && b < 2 * localBit

/-- Check 5 and 6 of one dimension. -/
def dimValid (d : Desc) (i : Nat) : Bool :=
  let s := dimN d.size i
  let b := dimN d.bound i
  if i < d.rank then 1 ≤ b && b ≤ s && (bitOf d.clamp i || b = s)
  else s = 1 && b = 1 && dimZ d.stride i = 0 && !(bitOf d.clamp i) && dimZ d.scaleStride i = 0

/-- Check 7: R161 for an extent of the first two dimensions. -/
def blocksFit (shape s0 s1 : Nat) : Bool :=
  shape = 0 || (s0 % blockLen shape = 0 && (shape ≠ 3 || s1 % 16 = 0))

/-- Check 9 for packed types. -/
def packedValid (d : Desc) : Bool :=
  let q := if isFp6 (descElem d) then 4 else 2
  8 ≤ (descElem d).bits ||
    (dimZ d.stride 0 = 1 && dimN d.size 0 % q = 0 && dimN d.bound 0 % q = 0 &&
      (List.range 5).all fun i => dimZ d.stride (i + 1) % (q : Int) = 0)

/-- Whether a descriptor passes every check of Table 6.3 (R193). -/
def descValid (d : Desc) : Bool :=
  d.version = 1 && 1 ≤ d.rank && d.rank ≤ 6 && (Elem.ofCode d.type).isSome &&
    d.scaleType = (if d.block = 0 then 0 else 0x10) &&
    (d.block = 0 || (4 ≤ d.type && d.type ≤ 8)) && (!d.sl || d.block ≠ 0) &&
    (List.range 6).all (dimValid d) &&
    blocksFit d.block (dimN d.size 0) (dimN d.size 1) && blocksFit d.block (dimN d.bound 0) (dimN d.bound 1) &&
    (d.block = 0 || dimZ d.stride 0 = 1) && packedValid d &&
    ((usedBases d).all isLocal || (usedBases d).all isDevice) &&
    (d.block ≠ 0 || d.scaleBase = 0) && (d.sl || d.slBase = 0) && (isFp6 (descElem d) || d.hiBase = 0) &&
    ((descElem d).bits < 8 || d.base % ((descElem d).bits / 8 : Nat) = 0) && d.clean

/-! ### Scalar offsets (R119, R199) -/

/-- Bits per value in the value array: the low plane of FP6 holds four. -/
def planeBits (t : Elem) : Nat := if t.bits < 8 then 4 else t.bits

/-- Block value bytes of an operand (R119). -/
def offsetUnit (d : Desc) : Nat :=
  let t := descElem d
  if d.block ≠ 0 then blockLen d.block * planeBits t / 8
  else if 8 ≤ t.bits then t.bits / 8 else if isFp6 t then 2 else 1

/-- Tile extents of second-level scales (R162, R192). -/
def tileExt (shape i : Nat) : Nat := if shape = 3 then (if i < 2 then 32 else 1) else if i = 0 then 1024 else 1

/-- Value bytes of one tile extent along dimension 0 (R199). -/
def slUnit (d : Desc) : Nat := tileExt d.block 0 * planeBits (descElem d) / 8

/-- Whether a scalar offset suits an operand (R119, R199). -/
def offsetFits (d : Desc) (off : Int) : Bool :=
  off % (offsetUnit d : Int) = 0 && (!d.sl || off % (slUnit d : Int) = 0)

/-- An operand moved by a scalar offset (R199). -/
def moveDesc (d : Desc) (off : Int) : Desc :=
  { d with base := d.base + off,
           hiBase := if isFp6 (descElem d) then d.hiBase + off / 2 else d.hiBase,
           scaleBase := if d.block ≠ 0 then d.scaleBase + off / (offsetUnit d : Int) else d.scaleBase,
           slBase := if d.sl then d.slBase + off / (slUnit d : Int) else d.slBase }

/-! ### Extents (R198) -/

/-- Lowest and highest offset that indexes below `counts` reach with strides. -/
def spanOf : List Nat → List Int → Int × Int
  | n :: ns, s :: ss =>
    let r := spanOf ns ss
    let v := ((n : Int) - 1) * s
    (r.1 + min 0 v, r.2 + max 0 v)
  | _, _ => (0, 0)

/-- Counts of blocks along each dimension within BOUND (R191). -/
def blockCounts (d : Desc) : List Nat :=
  (List.range 6).map fun i =>
    if i = 0 then ceilDiv (dimN d.bound 0) (blockLen d.block)
    else if i = 1 && d.block = 3 then ceilDiv (dimN d.bound 1) 16 else dimN d.bound i

/-- Strides over block coordinates: 1 along dimension 0, SCALE_STRIDE elsewhere (R191). -/
def blockStrides (d : Desc) : List Int := 1 :: d.scaleStride.drop 1

/-- Counts of second-level tiles within BOUND (R192). -/
def tileCounts (d : Desc) : List Nat := (List.range 6).map fun i => ceilDiv (dimN d.bound i) (tileExt d.block i)

/-- An operand's extents: array (0 values or low plane, 1 high plane, 2 scales, 3 second-level scales), lowest and
highest byte. -/
def extents (d : Desc) : List (Nat × Int × Int) :=
  let t := descElem d
  let v := spanOf d.bound d.stride
  let vals : Int × Int :=
    if 8 ≤ t.bits then (d.base + v.1 * (t.bits / 8 : Nat), d.base + v.2 * (t.bits / 8 : Nat) + (t.bits / 8 : Nat) - 1)
    else (d.base + v.1 / 2, d.base + v.2 / 2)
  let b := spanOf (blockCounts d) (blockStrides d)
  [(0, vals.1, vals.2)] ++ (if isFp6 t then [(1, d.hiBase + v.1 / 4, d.hiBase + v.2 / 4)] else []) ++
    (if d.block ≠ 0 then [(2, d.scaleBase + b.1, d.scaleBase + b.2)] else []) ++
    (if d.sl then [(3, d.slBase, d.slBase + ((tileCounts d).foldl (· * ·) 1 : Nat) - 1)] else [])

/-- Bytes of all of an operand's extents (R133). -/
def extentBytes (d : Desc) : Nat := ((extents d).map fun e => (e.2.2 - e.2.1 + 1).toNat).sum

/-- Whether two extents share a byte. -/
def meets (a b : Nat × Int × Int) : Bool := a.2.1 ≤ b.2.2 && b.2.1 ≤ a.2.2

/-! ### Writes through a descriptor (R197) -/

/-- Insert by ascending absolute stride. -/
def insStride (x : Nat × Nat) : List (Nat × Nat) → List (Nat × Nat)
  | [] => [x]
  | y :: r => if x.1 < y.1 || (x.1 = y.1 && x.2 ≤ y.2) then x :: y :: r else y :: insStride x r

/-- Whether sorted strides nest without meeting. -/
def strideNest : Nat → List (Nat × Nat) → Bool
  | _, [] => true
  | prev, (s, n) :: r => s ≠ 0 && prev ≤ s && strideNest (s * n) r

/-- Whether distinct index tuples reach distinct entries. -/
def stridesOk (counts : List Nat) (strides : List Int) : Bool :=
  let ds := ((counts.zip strides).filter fun e => 1 < e.1).map fun e => (e.2.natAbs, e.1)
  strideNest 0 (ds.foldl (fun l x => insStride x l) [])

/-- Whether the extents of a destination are pairwise disjoint. -/
def disjointExtents : List (Nat × Int × Int) → Bool
  | [] => true
  | e :: r => r.all (fun f => !meets e f) && disjointExtents r

/-- Whether a play may write through a descriptor (R197). -/
def writable (d : Desc) : Bool :=
  stridesOk d.bound d.stride && (d.block = 0 || stridesOk (blockCounts d) (blockStrides d)) &&
    disjointExtents (extents d)

/-! ### Elements (R187 to R192) -/

/-- Number of index tuples of the space a descriptor presents. -/
def elemCount (d : Desc) : Nat := d.size.foldl (· * ·) 1

/-- Index tuple number `k`, dimension 0 fastest. -/
def tupleOf : List Nat → Nat → List Nat
  | [], _ => []
  | n :: r, k => k % n :: tupleOf r (k / n)

/-- Every index tuple of the space. -/
def tuples (d : Desc) : List (List Nat) := (List.range (elemCount d)).map (tupleOf d.size)

/-- A tuple clamped to BOUND (R187). -/
def clampTuple (d : Desc) (x : List Nat) : List Nat := (x.zip d.bound).map fun e => min e.1 (e.2 - 1)

/-- Whether a tuple lies within BOUND (R196). -/
def inBound (d : Desc) (x : List Nat) : Bool := (x.zip d.bound).all fun e => e.1 < e.2

/-- Sum of products of indexes and strides. -/
def dotOff : List Nat → List Int → Int
  | n :: ns, s :: ss => (n : Int) * s + dotOff ns ss
  | _, _ => 0

/-- Block coordinates of an element (R191). -/
def blockCoords (d : Desc) (j : List Nat) : List Nat :=
  (List.range 6).map fun i =>
    let v := (j[i]?).getD 0
    if i = 0 then v / blockLen d.block else if i = 1 && d.block = 3 then v / 16 else v

/-- Address of an element's first-level scale (R191). -/
def scaleAddr (d : Desc) (j : List Nat) : Int := d.scaleBase + dotOff (blockCoords d j) (blockStrides d)

/-- Row-major index of tile coordinates. -/
def tileIndex : List Nat → List Nat → Nat
  | t :: ts, n :: ns => t + n * tileIndex ts ns
  | _, _ => 0

/-- Address of an element's second-level scale (R192). -/
def slAddr (d : Desc) (j : List Nat) : Int :=
  d.slBase + (tileIndex ((List.range 6).map fun i => (j[i]?).getD 0 / tileExt d.block i) (tileCounts d) : Nat)

/-- Bit pieces of an element: byte address, low bit in the byte, width and position in the element (R188 to R190). -/
def elemPieces (d : Desc) (j : List Nat) : List (Int × Nat × Nat × Nat) :=
  let t := descElem d
  let e := dotOff j d.stride
  if 8 ≤ t.bits then
    (List.range (t.bits / 8)).map fun (i : Nat) => (d.base + e * (t.bits / 8 : Nat) + (i : Int), 0, 8, 8 * i)
  else
    (d.base + e / 2, if e % 2 = 0 then 0 else 4, 4, 0) ::
      (if isFp6 t then [(d.hiBase + e / 4, 2 * (e % 4).toNat, 2, 4)] else [])

/-- An element as a play reads it: its bits, its value with scales applied (R163), its poison, its scale bytes. -/
structure RdElem where
  bits : Nat
  val : FV
  poison : Bool
  scale : Nat
  sl : Nat
  deriving DecidableEq, Repr

/-- The value of an element's bits under its scales (R163). DESIGN CHOICE (log 156): an infinite element under a
second-level scale of zero is NaN. -/
def scaledVal (d : Desc) (bits scale sl : Nat) : FV :=
  let v := (descElem d).decode bits
  let v := if d.block = 0 then v else if scale = 255 then .nan else v.mul (.num false 1 ((scale : Int) - 127))
  if d.sl then (if (Elem.sl.decode sl) = .nan then .nan else v.mul (Elem.sl.decode sl)) else v

/-- Read an element through a view that gives each byte with its poison. -/
def readElem (rd : Int → Byte × Bool) (d : Desc) (x : List Nat) : RdElem :=
  let j := clampTuple d x
  let ps := elemPieces d j
  let bits := (ps.map fun p => fieldOf (rd p.1).1.toNat p.2.1 p.2.2.1 * 2 ^ p.2.2.2).sum
  let sc := if d.block = 0 then ((0 : Byte), false) else rd (scaleAddr d j)
  let sl := if d.sl then rd (slAddr d j) else ((0 : Byte), false)
  { bits := bits, val := scaledVal d bits sc.1.toNat sl.1.toNat,
    poison := ps.any (fun p => (rd p.1).2) || sc.2 || sl.2, scale := sc.1.toNat, sl := sl.1.toNat }

/-- Every element of an operand, dimension 0 fastest. -/
def gather (rd : Int → Byte × Bool) (d : Desc) : List RdElem := (tuples d).map (readElem rd d)

/-! ### Words a play writes -/

/-- Bits that a play writes into one 32-bit word: which bits, their value, and whether any of them is poisoned. -/
structure WordPut where
  mask : Nat
  value : Nat
  poison : Bool
  deriving DecidableEq, Repr

/-- A word nothing is written to. -/
def WordPut.none : WordPut := { mask := 0, value := 0, poison := false }

/-- Write `w` bits from bit `lo` of a byte; the word's key is its address divided by 4. -/
def putBits (m : Sparse WordPut) (addr : Int) (lo w v : Nat) (p : Bool) : Sparse WordPut :=
  let a := addr.toNat
  let at' := 8 * (a % 4) + lo
  let msk := (2 ^ w - 1) * 2 ^ at'
  smod WordPut.none m (a / 4) fun o =>
    { mask := o.mask ||| msk, value := (o.value &&& (0xFFFFFFFF ^^^ msk)) ||| (v % 2 ^ w * 2 ^ at'),
      poison := o.poison || p }

/-- Write one element's bits through a descriptor. -/
def putElem (d : Desc) (m : Sparse WordPut) (x : List Nat) (bits : Nat) (p : Bool) : Sparse WordPut :=
  (elemPieces d x).foldl (fun m e => putBits m e.1 e.2.1 e.2.2.1 (bits / 2 ^ e.2.2.2) p) m

/-- Write the elements of the index space in order; a tuple outside BOUND is dropped (R196). -/
def scatter (d : Desc) (vals : List (Nat × Bool)) : Sparse WordPut :=
  ((tuples d).zip vals).foldl (fun m e => if inBound d e.1 then putElem d m e.1 e.2.1 e.2.2 else m) []

/-- Write elements with their first-level and second-level scale bytes, as a copy or VQUANT does. -/
def scatterScaled (d : Desc) (vals : List RdElem) : Sparse WordPut :=
  ((tuples d).zip vals).foldl (fun m e =>
    if inBound d e.1 then
      let m := putElem d m e.1 e.2.bits e.2.poison
      let m := if d.block = 0 then m else putBits m (scaleAddr d e.1) 0 8 e.2.scale e.2.poison
      if d.sl then putBits m (slAddr d e.1) 0 8 e.2.sl e.2.poison else m
    else m) []

/-! ### Copies (R201, R205) -/

/-- Whether a copy is in identity order (R201). -/
def identityOrder (a c : Desc) : Bool :=
  a.type = c.type && a.block = c.block && a.sl = c.sl && a.clamp = c.clamp && a.rank = c.rank && a.size = c.size &&
    a.bound = c.bound && a.stride = c.stride && a.scaleStride = c.scaleStride && dimZ a.stride 0 = 1

/-- Whether A and C suit a copy: equal TYPE, block shape, SL, RANK and SIZE (Table 4.12), and R205. -/
def copyable (a c : Desc) : Bool :=
  a.type = c.type && a.block = c.block && a.sl = c.sl && a.rank = c.rank && a.size = c.size &&
    (identityOrder a c || (8 ≤ (descElem c).bits && c.block = 0) || (dimZ a.stride 0 = 1 && dimZ c.stride 0 = 1))

/-- Whether a copy breaks the overlap rules of R202 to R204; `strict` is MRED's rule (R206). -/
def copyClash (a c : Desc) (strict : Bool) : Bool :=
  (extents a).any fun x => (extents c).any fun y => meets x y && (strict || !identityOrder a c || x.1 ≠ y.1)

/-! ### Checks of extents (Table 6.4, orders 4 and 5) -/

/-- Why an extent is refused at order 4. -/
def extentFault (loc : Bool) (e : Nat × Int × Int) : Option Ev :=
  if loc then
    if (localBit : Int) ≤ e.2.1 && e.2.2 < (localBit : Int) + scratchBytes then none else some evTnsScratchRange
  else if 0 ≤ e.2.1 && populated e.2.1.toNat && populated e.2.2.toNat && e.2.1 / 2 ^ 36 = e.2.2 / 2 ^ 36 then none
  else some evTnsAddressRange

/-- Whether every byte from `lo` to `hi` lies in regions that a table owns (R109); `fuel` bounds the regions passed. -/
def ownedSpan (d : Deck) (table : Nat) : Nat → Nat → Nat → Bool
  | 0, _, _ => false
  | fuel + 1, lo, hi =>
    match regionAt d lo with
    | none => false
    | some r => r.owner = table && (hi < r.base + r.size || ownedSpan d table fuel (r.base + r.size) hi)

/-- Whether a table owns a byte range of device memory (R109). -/
def owned (s : State) (table lo hi : Nat) : Bool :=
  match deckOf s with
  | none => false
  | some d => ownedSpan d table (d.regions.length + 1) lo hi

/-- The first fault of orders 4 and 5 over operands, with the offending address (R109, Table 4.17). DESIGN CHOICE
(log 154): the offending address of an extent is its lowest byte, whichever of its bytes breaks the rule. -/
def rangeFault (s : State) (table : Nat) (ds : List Desc) : Option (Ev × Int) :=
  let es := ds.flatMap fun d => (extents d).map fun e => (descLocal d, e)
  match es.findSome? fun e => (extentFault e.1 e.2).map fun f => (f, e.2.2.1) with
  | some f => some (if f.1 = evTnsScratchRange then (f.1, 0) else f)
  | none =>
    (es.find? fun e => !e.1 && !owned s table e.2.2.1.toNat e.2.2.2.toNat).map fun e => (evTnsRegionDenied, e.2.2.1)

end Sys2Proof.Machine
end

