-- ==== Sys2Proof/Machine/CoreMem.lean ====
section
/-! DEFINITION. How a core reads and writes scratch and device memory: its read cache, the home kitties, the host's
copies, and the waits of R144, R242, R289, R334, R335, R394 and R534. -/

namespace Sys2Proof.Machine

/-! ### Registers -/

/-- Bit `i` of a small mask. -/
def maskBit (v i : Nat) : Nat := v / 2 ^ i % 2

/-- The value of a scalar register; s0 reads zero (Table 4.1). -/
def sreg (c : Core) (r : Nat) : W64 := if r = 0 then 0 else sget 0 c.sregs r
/-- The two poison bits of a scalar register (R107). -/
def sregPoison (c : Core) (r : Nat) : BitVec 2 := if r = 0 then 0 else sget 0 c.spoison r
/-- Whether any half of a scalar register is poisoned. -/
def sregBad (c : Core) (r : Nat) : Bool := sregPoison c r ≠ 0

/-- A value whose poisoned halves hold unspecified bits (R399). -/
def freeHalves (s : State) (v : W64) (p : BitVec 2) : W64 × State :=
  if p = 0 then (v, s)
  else
    let f := takeFree s
    let lo := if maskBit p.toNat 0 = 1 then f.1.toNat % 2 ^ 32 else v.toNat % 2 ^ 32
    let hi := if maskBit p.toNat 1 = 1 then f.1.toNat / 2 ^ 32 else v.toNat / 2 ^ 32
    (BitVec.ofNat 64 (hi * 2 ^ 32 + lo), f.2)

/-- Write a scalar register; writes to s0 are discarded (Table 4.1, R107). -/
def setSreg (s : State) (n r : Nat) (v : W64) (p : BitVec 2) : State :=
  if r = 0 then s
  else
    let w := freeHalves s v p
    modCore w.2 n fun c => { c with sregs := sput 0 c.sregs r w.1, spoison := sput 0 c.spoison r p }

/-- A predicate flag and its poison. -/
def predOf (c : Core) (r : Nat) : Bool := bitOf c.preds.toNat r
def predBad (c : Core) (r : Nat) : Bool := bitOf c.predPoison.toNat r

/-- Set or clear one bit of a mask of eight. -/
def setBit8 (v : BitVec 8) (i : Nat) (b : Bool) : BitVec 8 :=
  if b then v ||| BitVec.ofNat 8 (2 ^ i) else v &&& ~~~ (BitVec.ofNat 8 (2 ^ i))

/-- Write a predicate flag; a poisoned flag holds an unspecified bit (R107, R399). -/
def setPred (s : State) (n r : Nat) (b bad : Bool) : State :=
  let f := if bad then takeFree s else (0, s)
  let b := if bad then bitOf f.1.toNat 0 else b
  modCore f.2 n fun c => { c with preds := setBit8 c.preds r b, predPoison := setBit8 c.predPoison r bad }

/-! ### Results of an outstanding script (R141, R143, R144) -/

/-- The ticket of an outstanding script of a core whose results go to a scratch range that meets one of some extents. -/
def doutMeets (s : State) (n : Nat) (es : List (Nat × Int × Int)) : Option Nat :=
  let busy := (List.range 4).filterMap fun t =>
    match sget Ticket.free (getCore s n).tickets t with
    | .busy stack gen => ((getStack s stack).runs.find? fun r => r.core = n && r.ticket = t && r.gen = gen).map fun r => (t, r)
    | _ => none
  (busy.find? fun e => (extents (parseDesc e.2.doutDesc)).any fun x => es.any (meets x)).map (·.1)

/-! ### Lines at their home kitties -/

/-- Make a core wait. -/
def coreWaits (s : State) (n : Nat) (w : Wait) : State := modCore s n fun c => { c with wait := w }

/-- Whether a core access may reach a line's kitty now: the host's copy is gone and the kitty is on. A read and a write alike
back-invalidate any copy that the snoop filter shows (R335, R534). -/
def reachKitty (s : State) (n line : Nat) : State × Bool :=
  if !kittyOn s line then (coreWaits s n (.quadrant (quadrantOf (homeCluster line))), false)
  else if (hostHolds s (lineDpa line)).isSome then
    (coreWaits (backInvalidate s (lineDpa line) (.core n)) n (.hostCopy line), false)
  else (s, true)

/-- Fill a kitty with a line from its stack for a core, or make the core wait: for its regulator first, then at the controller (R219,
R242, R394). -/
def fillKitty (s : State) (n line : Nat) : State × Bool :=
  match kittyGet s line with
  | some _ => (dropCoreWait s n, true)
  | none =>
    if !coreLineCharges s n line then
      let t := (lineOwner s line).getD 64
      (coreWaits (coreQueue s n t (lineStack line) 64) n (.regulator (pairOf t (lineStack line))), false)
    else
      let s := dropCoreWait (coreChargeLine s n line) n
      if readHeld s line then (coreWaits (queueAccess s (.read (.core n) line 0)) n (.line line), false)
      else
        let r := ctlRead s (.core n) line 0
        match r.2 with
        | none => (coreWaits r.1 n (.line line), false)
        | some v => (kittySet r.1 line (some { data := v.1, poison := poisonAll v.2, dirty := false }), true)

/-- Bring a line to its home kitty for a core's access. -/
def ensureLine (s : State) (n line : Nat) : State × Bool :=
  let r := reachKitty s n line
  if r.2 then fillKitty r.1 n line else r

/-! ### The read cache (R112 to R114) -/

/-- The read-cache copy of a line. -/
def rcGet (c : Core) (line : Nat) : Option CLine := (c.rcache.find? fun e => e.1 = line).map (·.2)

/-- Drop a line from a core's read cache. -/
def rcDrop (c : Core) (line : Nat) : Core := { c with rcache := c.rcache.filter fun e => e.1 ≠ line }

/-- Allocate a line: 64 sets of 4 ways; which line of a full set it replaces is not specified (R112). -/
def rcAlloc (s : State) (n line : Nat) (v : CLine) : State :=
  let c := getCore s n
  let mine := c.rcache.filter fun e => e.1 % 64 = line % 64
  if mine.length < 4 then setCore s n { c with rcache := c.rcache ++ [(line, { v with dirty := false })] }
  else
    let out := ((mine[Config.victim s.freeNext % 4]?).map (·.1)).getD 0
    setCore { s with freeNext := s.freeNext + 1 } n
      { c with rcache := (c.rcache.filter fun e => e.1 ≠ out) ++ [(line, { v with dirty := false })] }

/-- Read lines for a core in order, through the read cache unless `rt` (R112): the lines as read, or nothing when the
core has to wait. -/
def fetchLines (s : State) (n : Nat) (rt : Bool) : List Nat → State × Option (List (Nat × CLine))
  | [] => (s, some [])
  | line :: rest =>
    match if rt then none else rcGet (getCore s n) line with
    | some v =>
      let r := fetchLines s n rt rest
      (r.1, r.2.map ((line, v) :: ·))
    | none =>
      let e := ensureLine (linesRoom s [line]) n line
      if !e.2 then (e.1, none)
      else
        let v := (kittyGet e.1 line).getD { data := 0, poison := 0, dirty := false }
        let r := fetchLines (if rt then e.1 else rcAlloc e.1 n line v) n rt rest
        (r.1, r.2.map ((line, v) :: ·))

/-- Bring every line of a list to its kitty for writing; a line in `full` is written whole and needs no fill. -/
def ensureLines (s : State) (n : Nat) (full : List Nat) : List Nat → State × Bool
  | [] => (s, true)
  | line :: rest =>
    let r := if full.contains line then reachKitty s n line else ensureLine s n line
    if r.2 then ensureLines r.1 n full rest else r

/-- The device lines of operands' extents, ascending and without repeats. -/
def deviceLines (ds : List Desc) : List Nat :=
  (ds.flatMap fun d => if descLocal d then [] else (extents d).flatMap fun e =>
    rangeFrom (e.2.1.toNat / 64) (e.2.2.toNat / 64 + 1 - e.2.1.toNat / 64)).eraseDups

/-! ### Views and writes -/

/-- A byte of scratch with the poison of its word. -/
def scratchByte (c : Core) (o : Nat) : Byte × Bool := (rdByte c.scratch o, sget false c.scratchPoison (o / 4))

/-- What a core's play reads at an address: its scratch, or the lines it fetched. -/
def coreView (c : Core) (snap : List (Nat × CLine)) (a : Int) : Byte × Bool :=
  if (localBit : Int) ≤ a then scratchByte c (a.toNat - localBit)
  else
    match snap.find? fun e => e.1 = a.toNat / 64 with
    | some e => (lineByte e.2.data (a.toNat % 64), bitOf e.2.poison.toNat (a.toNat % 64 / 4))
    | none => (0, false)

/-- A word after a write: its bits and its poison. A word not written whole keeps its poison; a poisoned word holds an
unspecified value (R399). -/
def putWord (s : State) (old : Nat) (oldBad : Bool) (p : WordPut) : State × Nat × Bool :=
  let bad := p.poison || (oldBad && p.mask ≠ 0xFFFFFFFF)
  if bad then
    let f := takeFree s
    (f.2, f.1.toNat % 2 ^ 32, true)
  else (s, (old &&& (0xFFFFFFFF ^^^ p.mask)) ||| p.value, false)

/-- Write one word of a core's scratch; the key is the word's offset divided by 4. -/
def putScratch (s : State) (n : Nat) (key : Nat) (p : WordPut) : State :=
  let c := getCore s n
  let w := putWord s (leNat (rdBytes c.scratch (4 * key) 4)) (sget false c.scratchPoison key) p
  modCore w.1 n fun c =>
    { c with scratch := wrBytes c.scratch (4 * key) (leBytes 4 w.2.1), scratchPoison := sput false c.scratchPoison key w.2.2 }

/-- Write one word of a line at its kitty; the writer's own read cache loses the line (R113). -/
def putKitty (s : State) (n key : Nat) (p : WordPut) : State :=
  let line := key / 16
  let i := key % 16
  let v := (kittyGet s line).getD { data := 0, poison := 0, dirty := false }
  let w := putWord s (fieldOf v.data.toNat (32 * i) 32) (bitOf v.poison.toNat i) p
  let s := kittySet w.1 line
    (some { data := patchLine v.data (4 * i) (leBytes 4 w.2.1),
            poison := if w.2.2 then v.poison ||| BitVec.ofNat 16 (2 ^ i) else v.poison &&& ~~~ (BitVec.ofNat 16 (2 ^ i)),
            dirty := true })
  modCore s n fun c => rcDrop c line

/-- The lines that a set of words lies in. -/
def putLines (m : Sparse WordPut) : List Nat := (m.map fun e => e.1 / 16).eraseDups

/-- The lines that a set of words writes whole. -/
def fullLines (m : Sparse WordPut) : List Nat :=
  (putLines m).filter fun l => (m.filter fun e => e.1 / 16 = l && e.2.mask = 0xFFFFFFFF).length = 16

/-- A word of a kitty's line that fails its parity (Table 12.2): a clean line is dropped, and the read refills it; a dirty word is
poisoned, with the detail given. -/
def kittyParity (s : State) (addr : Nat) (table : Option Nat) (d : Detail) : State :=
  let line := addr / 64
  match kittyGet s line with
  | none => s
  | some v =>
    if v.dirty then
      let s := kittySet s line (some { v with poison := v.poison ||| BitVec.ofNat 16 (2 ^ (addr % 64 / 4)) })
      logEvent s evIntStoredWordParity (uCluster (homeCluster line)) table d
    else kittySet { s with pathReplays := satInc 0xFFFF s.pathReplays } line none

/-- Poison a tile element; it holds an unspecified value (R399). -/
def spoilTile (s : State) (n acc k : Nat) : State :=
  let f := takeFree s
  modCore f.2 n fun c =>
    let t := sget Tile.zero c.tiles acc
    { c with tiles := sput Tile.zero c.tiles acc
               { t with elems := sput 0 t.elems k (f.1.truncate 32), poison := sput false t.poison k true } }

/-- A stored word fails its parity when a play of a core reads it (R386, Table 12.2). A word that holds no poison of its own, of the
program store or of a descriptor slot, is the play's to fault on. -/
def failWord (s : State) (n : Nat) (w : StoredWord) : State :=
  let log (s : State) (a : Nat) : State :=
    logEvent s evIntStoredWordParity (uCluster (n / 64)) (tableOfCore s n) (coreDetail s n 0 (BitVec.ofNat 64 a))
  match w with
  | .program => s
  | .sreg r high => log (setSreg s n r.val (sreg (getCore s n) r.val) (sregPoison (getCore s n) r.val ||| if high then 2 else 1)) 0
  | .preds => log ((List.range 8).foldl (fun s i => setPred s n i (predOf (getCore s n) i) true) s) 0
  | .desc _ => log s 0
  | .tile acc k => log (spoilTile s n acc.val k.val) 0
  | .scratch k => log (putScratch s n k.val { mask := 0xFFFFFFFF, value := 0, poison := true }) (localBit + 4 * k.val)
  | .cached line =>
    if (rcGet (getCore s n) line).isSome then
      modCore { s with pathReplays := satInc 0xFFFF s.pathReplays } n fun c => rcDrop c line
    else s
  | .kitty a => kittyParity s a (tableOfCore s n) (coreDetail s n 0 (BitVec.ofNat 64 a))

/-- Carry out a core's writes of words to scratch or to device memory; the address of a word tells which. -/
def commitWords (s : State) (n : Nat) (m : Sparse WordPut) : State :=
  m.foldl (fun s e =>
    if localBit / 4 ≤ e.1 then putScratch s n (e.1 - localBit / 4) e.2 else putKitty s n e.1 e.2) s

/-- Carry out a core's writes, once every device line they touch can take them. -/
def writeWords (s : State) (n : Nat) (m : Sparse WordPut) : State × Bool :=
  let dev := m.filter fun e => e.1 < localBit / 4
  let r := ensureLines (linesRoom s (putLines dev)) n (fullLines dev) (putLines dev)
  if r.2 then (commitWords r.1 n m, true) else r

/-! ### Single words -/

/-- Why an address of `len` bytes with an alignment cannot be used by a core (R108, R109, R131, Table 4.16). -/
def addressFault (s : State) (n : Nat) (a : Nat) (len align : Nat) (deviceOnly : Bool) : Option Ev :=
  if !(isLocal a || isDevice a) || (deviceOnly && isLocal a) then some evTnsAddressRange
  else if a % align ≠ 0 then some evTnsAlign
  else if isLocal a then (if a + len ≤ localBit + scratchBytes then none else some evTnsScratchRange)
  else if !(populated a && populated (a + len - 1)) then some evTnsAddressRange
  else
    match tableOfCore s n with
    | some t => if owned s t a (a + len - 1) then none else some evTnsRegionDenied
    | none => some evTnsRegionDenied

/-- The lines of `len` bytes from a device address. -/
def spanLines (a len : Nat) : List Nat :=
  if localBit ≤ a then [] else rangeFrom (a / 64) ((len + a - 1) / 64 + 1 - a / 64)

/-- Read `len` bytes for a core: each byte with its word's poison, or nothing when the core waits. -/
def coreRead (s : State) (n a len : Nat) (rt : Bool) : State × Option (List (Byte × Bool)) :=
  let r := fetchLines s n rt (spanLines a len)
  (r.1, r.2.map fun snap => (List.range len).map fun i => coreView (getCore r.1 n) snap ((a + i : Nat) : Int))

/-- The number that bytes stand for. -/
def bytesVal (bs : List (Byte × Bool)) : Nat := leNat (bs.map (·.1))

/-- The poison of the two halves of eight bytes. -/
def halvesBad (bs : List (Byte × Bool)) : BitVec 2 :=
  BitVec.ofNat 2 ((if (bs.take 4).any (·.2) then 1 else 0) + (if (bs.drop 4).any (·.2) then 2 else 0))

/-- The two words of an eight-byte store. -/
def store8 (a : Nat) (v : W64) (p : BitVec 2) : Sparse WordPut :=
  let w (i : Nat) : WordPut :=
    { mask := 0xFFFFFFFF, value := fieldOf v.toNat (32 * i) 32, poison := bitOf p.toNat i }
  [(a / 4, w 0), (a / 4 + 1, w 1)]

/-! ### Atomics at the home kitty (R182 to R185, Table 4.12) -/

/-- Bytes that an atomic operation works on. -/
def atomBytes (op : Nat) : Nat :=
  match op with
  | 0 => 4 | 2 => 4 | 3 => 2 | _ => 8

/-- What an atomic stores: 0 add INT32, 1 add INT64, 2 add FP32, 3 add BF16, 4 unsigned maximum, 5 swap, 6
compare-and-swap (R183). -/
def atomResult (op old operand compare : Nat) : Nat :=
  match op with
  | 0 => (old + operand) % 2 ^ 32
  | 1 => (old + operand) % 2 ^ 64
  | 2 => (fadd (BitVec.ofNat 32 old) (BitVec.ofNat 32 operand)).toNat
  | 3 => Elem.bf16.encode ((Elem.bf16.decode old).add (Elem.bf16.decode (operand % 2 ^ 16)))
  | 4 => max old operand
  | 5 => operand
  | _ => if old = compare then operand else old

/-- Replace bytes of a line and set or clear the poison of the words they cover; a word not written whole keeps its
poison. -/
def patchC (c : CLine) (off : Nat) (bs : List Byte) (bad : Bool) : CLine :=
  let mask : BitVec 64 := BitVec.ofNat 64 ((2 ^ bs.length - 1) * 2 ^ off)
  overlay c (patchLine 0 off bs) mask (poisonAll bad) true

/-- One indivisible atomic on a line that its kitty holds: the old bytes' value, their poison, and the state after. A
poisoned operand or stored word makes the stored result poisoned (R185). -/
def kittyAtom (s : State) (addr op operand compare : Nat) (opBad : Bool) : State × Nat × BitVec 2 :=
  let line := addr / 64
  let off := addr % 64
  let k := atomBytes op
  let c := (kittyGet s line).getD { data := 0, poison := 0, dirty := false }
  let old := fieldOf c.data.toNat (8 * off) (8 * k)
  let w0 := bitOf c.poison.toNat (off / 4)
  let w1 := k = 8 && bitOf c.poison.toNat (off / 4 + 1)
  let bad := opBad || w0 || w1
  let f := takeFree s
  let s := if bad then f.2 else s
  let v := if bad then f.1.toNat else atomResult op old operand compare
  (kittySet s line (some (patchC c off (leBytes k v) bad)), old,
    BitVec.ofNat 2 ((if w0 then 1 else 0) + (if w1 then 2 else 0)))

end Sys2Proof.Machine
end

