-- ==== Sys2Proof/Machine/Access.lean ====
section
/-! DEFINITION. Reads that outside agents make at a memory channel controller: who receives a line, and what a repair or a
row boundary releases (R219, R227, R287, R330, R363, R394, R504). -/

namespace Sys2Proof.Machine

/-- Whether a read charges the owner of its region; a host read through a host-managed window does not (R243). -/
def chargedReader : Consumer → Bool
  | .host _ => false
  | _ => true

/-- Read a line that has crossed the stack interface: the kitty's copy, with the poison of its words, else the controller's answer, else
nothing while the consumer waits at the controller or in a repair (R218, R287, R330, R396, R399). -/
def fetchCtl (s : State) (who : Consumer) (line dist : Nat) : State × Option (Line × BitVec 16) :=
  match kittyGet s line with
  | some c => (s, some (c.data, c.poison))
  | none =>
    if readHeld s line then (queueAccess s (.read who line dist), none)
    else
      let r := ctlRead s who line dist
      (r.1, r.2.map fun v => (v.1, poisonAll v.2))

/-- Read a line for the CXL port or the fabric; it waits behind a write of the line that still crosses the stack interface (R333). -/
def fetchOutside (s : State) (who : Consumer) (line dist : Nat) : State × Option (Line × BitVec 16) :=
  if (kittyGet s line).isNone && lineCrossing s line then (waitCross s line 0 (.lineRead who (64 * line) dist), none)
  else fetchCtl s who line dist

/-- A poisoned line leaves to the host: it is logged once (R400). True: this is the first time. -/
def poisonToHost (s : State) (line : Nat) : State × Bool :=
  let dpa := lineDpa line
  if s.host.poisonLogged.contains dpa then (s, false)
  else
    let s := modHost s fun h => { h with poisonLogged := h.poisonLogged ++ [dpa] }
    (logGen s evIntPoisonToHost uCxl none [] [w64 dpa], true)

/-- Answer a host read. A poisoned line is logged once, with a media event record (R504). -/
def hostReply (s : State) (hpa line : Nat) (v : Line × BitVec 16) : State :=
  let s :=
    if v.2 ≠ 0 then
      let q := poisonToHost s line
      if q.2 then mediaRecord q.1 evIntPoisonToHost false 1 (lineDpa line) else q.1
    else s
  toHost s (.memRsp hpa v.1 (v.2 ≠ 0))

/-- Read lines in order for a fabric read; the first that waits ends the list. -/
def fetchAll (s : State) (who : Consumer) (dist : Nat) : List Nat → State × Option (List (Line × BitVec 16))
  | [] => (s, some [])
  | l :: rest =>
    let r := fetchOutside s who l dist
    match r.2 with
    | none => (r.1, none)
    | some v =>
      let q := fetchAll r.1 who 0 rest
      (q.1, q.2.map (v :: ·))

/-- Answer a MEM_READ once every line of it can be read: STATUS 0 with the data, poisoned by mask (R363, R365). -/
def answerRead (s : State) (src tag addr length : Nat) (gen : BitVec 16) (dist : Nat) : State :=
  let r := fetchAll s (.fabric src tag addr length gen) dist (rangeFrom (addr / 64) (length / 64))
  match r.2 with
  | none => r.1
  | some ls =>
    let bad := ls.any (·.2 ≠ 0)
    routeFrame r.1 0
      { hdr := { dest := src, src := ownIndex s, gen := gen, table := ((regionOf s addr).map (·.owner)).getD 64, poison := bad },
        body := .memData tag 0 (ls.flatMap fun v => bytesOfLine v.1)
          (if bad then ls.flatMap fun v => (List.range 16).map fun i => bitOf v.2.toNat i else []) }

/-- A bank held by a source repair may take its row up again, in every run of the ticket. -/
def releaseBank (s : State) (line core ticket bank : Nat) : State :=
  modStack s (lineStack line) fun k =>
    { k with runs := k.runs.map fun r =>
        if r.core = core && r.ticket = ticket then
          { r with banks := r.banks.map fun b => if b.bank = bank && b.held = some line then { b with held := none } else b }
        else r }

/-- Hand a line to a consumer. A core's line fills the home kitty and the waiting play issues again. -/
def deliver (s : State) (who : Consumer) (line : Nat) (v : Line × BitVec 16) : State :=
  match who with
  | .core n =>
    let s :=
      if kittyOn s line && (kittyGet s line).isNone then
        kittySet (linesRoom s [line]) line (some { data := v.1, poison := v.2, dirty := false })
      else s
    if (getCore s n).wait = .line line then modCore s n fun c => { c with wait := .none } else s
  | .host hpa => hostReply s hpa line v
  | .fabric src tag addr length gen => answerRead s src tag addr length gen 0
  | .bank core ticket bank => releaseBank s line core ticket bank
  | .merge _ => s
  | .firmware => s

/-- Hand a consumer what a read has returned. -/
def deliverRead (r : State × Option (Line × BitVec 16)) (who : Consumer) (line : Nat) : State :=
  match r.2 with
  | none => r.1
  | some v => deliver r.1 who line v

/-- Serve a read at its controller now, or leave the consumer waiting (R219, R227). -/
def serveRead (s : State) (who : Consumer) (line dist : Nat) : State := deliverRead (fetchOutside s who line dist) who line

/-- Whether a waiting access can be served now. -/
def accessReady (s : State) : CtlAccess → Bool
  | .write e => writeReady s (.write e)
  | .read _ l _ => underRepair s l || (kittyGet s l).isSome || !readBlocked s l

/-- Serve one access that waited: a write takes its place, a read is answered from a kitty that now holds the line, else by the
controller. -/
def serveAccess (s : State) : CtlAccess → State
  | .write e => answerSender (placeWrite s e) e.sender
  | .read who l d =>
    match kittyGet s l with
    | some c => deliver s who l (c.data, c.poison)
    | none =>
      let r := ctlRead s who l d
      deliverRead (r.1, r.2.map fun v => (v.1, poisonAll v.2)) who l

/-- Serve up to `fuel` waiting accesses of a stack, in arrival order for each line and for each bank (R218, R287). -/
def serveQueue : Nat → Nat → State → State
  | 0, _, s => s
  | f + 1, n, s =>
    match nextAccess (accessReady s) [] (getStack s n).queue with
    | some (a, rest) => serveQueue f n (serveAccess (modStack s n fun k => { k with queue := rest }) a)
    | none => s

/-- Serve every access of a stack that can be served. An access may bring further ones. -/
def pump (s : State) (n : Nat) : State := serveQueue (2 * (getStack s n).queue.length + 16) n s

/-- Run a transfer whose regulator lets it proceed (R242). -/
def runXfer (s : State) (pair : Nat) : Xfer → State
  | .lineRead who addr dist => deliverRead (fetchCtl s who (addr / 64) dist) who (addr / 64)
  | .lineWrite e => enterAnswered s e
  | .latch f => { s with latchFlight := s.latchFlight ++ [f] }
  | .result _ _ _ => s
  | .frame f => routeFrame s 0 f
  | .host m => toHostReq s m
  | .core n => if (getCore s n).wait = .regulator pair then modCore s n fun c => { c with wait := .none } else s

end Sys2Proof.Machine
end

