-- ==== Sys2Proof/Machine/Transc.lean ====
section
/-! DEFINITION. Transcendental plays: exact results in fixed point of 320 fraction bits, rounded to FP32, and the choice
within the error bounds of Table 5.7 (R180, R181). -/

namespace Sys2Proof.Machine

/-- Fraction bits of the fixed-point numbers below. -/
def fixBits : Nat := 320
/-- One. -/
def fixOne : Nat := 2 ^ 320
/-- ln 2, rounded down. -/
def fixLn2 : Nat := 1480553391661173448385607439722553250922680800745876974795605978609098082859138712941075737848984
/-- 1 ÷ ln 2, rounded down. -/
def fixLog2e : Nat := 3081577904126213121686167198097690134163479766071396094403848907535455306605342191083616308484524

/-- The sum of `term`, `term × z ÷ (k+1)`, `term × z² ÷ ((k+1)(k+2))`, …, `fuel` terms. -/
def expTaylor (z : Nat) : Nat → Nat → Nat → Nat
  | 0, _, _ => 0
  | fuel + 1, k, term => term + expTaylor z fuel (k + 1) (term * z / (fixOne * (k + 1)))

/-- 2^f for a fixed-point fraction `f` below one. -/
def fixExp2 (f : Nat) : Nat := expTaylor (f * fixLn2 / fixOne) 90 0 fixOne

/-- 2^t for a fixed-point `t`, as an exact value with a sticky last bit. -/
def exp2Fix (t : Int) : FV :=
  let i := t / (fixOne : Int)
  let f := (t % (fixOne : Int)).toNat
  if f = 0 then .num false 1 i else .num false (2 * fixExp2 f + 1) (i - 321)

/-- `±m × 2^e` in fixed point, rounded down in magnitude. -/
def toFix (neg : Bool) (m : Nat) (e : Int) : Int :=
  let v : Nat := if 0 ≤ e + 320 then m * 2 ^ (e + 320).toNat else m / 2 ^ (-(e + 320)).toNat
  if neg then -(v : Int) else v

/-- e^y for a fixed-point `y`. -/
def expFix (y : Int) : FV := exp2Fix (y * (fixLog2e : Int) / (fixOne : Int))

/-- Quotient of two positive integers as an exact value with a sticky last bit. -/
def ratio (neg : Bool) (a b : Nat) (e : Int) : FV :=
  let sh := 201 + Nat.log2 b
  let q := a * 2 ^ sh / b
  let r := a * 2 ^ sh % b
  .num neg (2 * q + (if r = 0 then 0 else 1)) (e - (sh + 1 : Nat))

/-- Integer square root by bits: the largest `r` of `bits` bits with `r² ≤ n`. -/
def sqrtBits (n : Nat) : Nat → Nat → Nat
  | 0, r => r
  | b + 1, r => if (r + 2 ^ b) * (r + 2 ^ b) ≤ n then sqrtBits n b (r + 2 ^ b) else sqrtBits n b r

/-- Fraction bits of log₂ of a fixed-point `x` in [1, 2), by squaring. -/
def log2Bits : Nat → Nat → Nat → Nat
  | 0, _, acc => acc
  | k + 1, x, acc =>
    let y := x * x / fixOne
    if 2 * fixOne ≤ y then log2Bits k (y / 2) (2 * acc + 1) else log2Bits k y (2 * acc)

/-- A sum with sign of two exact values, or a product, keeps its sticky bit in the last place; ratio of two values. -/
def fvDiv : FV → FV → FV
  | .num n m e, .num n' m' e' => ratio (n != n') m m' (e - e')
  | _, _ => .nan

/-- The transcendental plays by operation code (Table 4.11). -/
inductive Trans where
  | exp2 | log2 | rcp | rsqrt | tanh | sigm | silu
  deriving DecidableEq, Repr

/-- The operation code of a play. -/
def Trans.op : Trans → Nat
  | .exp2 => 0x10 | .log2 => 0x11 | .rcp => 0x12 | .rsqrt => 0x13 | .tanh => 0x14 | .sigm => 0x15 | .silu => 0x16

/-- Largest error in units in the last place (Table 5.7). -/
def Trans.ulps : Trans → Nat
  | .exp2 => 2 | .log2 => 2 | .rcp => 1 | .rsqrt => 1 | .tanh => 3 | .sigm => 3 | .silu => 4

/-- 1 ÷ (1 + e^−x) for a finite x. -/
def sigmoid (neg : Bool) (m : Nat) (e : Int) : FV :=
  let t := toFix neg m e
  if t < -(256 * fixOne : Nat) then .num false 1 (-400)
  else if (256 * fixOne : Nat) < t then .num false (2 ^ 300 - 1) (-300)
  else fvDiv (.num false 1 0) ((FV.num false 1 0).add (expFix (-t)))

/-- The exact result of a play on a finite operand other than zero, or on a zero that has no special value. -/
def Trans.finite (p : Trans) (neg : Bool) (m : Nat) (e : Int) : FV :=
  match p with
  | .exp2 =>
    let t := toFix neg m e
    if t < -(512 * fixOne : Nat) then .num false 1 (-512)
    else if (512 * fixOne : Nat) < t then .num false 1 512
    else if t = 0 ∧ m ≠ 0 then .num false (2 ^ 300 + 1) (-300) else exp2Fix t
  | .log2 =>
    let k := Nat.log2 m
    let x := if 320 < k then m / 2 ^ (k - 320) else m * 2 ^ (320 - k)
    let i : Int := e + k
    if x = fixOne then .num (decide (i < 0)) i.natAbs 0
    else
      let v : Int := i * 2 ^ 121 + (2 * log2Bits 120 x 0 + 1 : Nat)
      .num (decide (v < 0)) v.natAbs (-121)
  | .rcp => ratio neg 1 m (-e)
  | .rsqrt =>
    let m' := if e % 2 = 0 then m else 2 * m
    let h := e / 2
    let n := 2 ^ 800 / m'
    let r := sqrtBits n 402 0
    .num false (2 * r + (if r * r * m' = 2 ^ 800 then 0 else 1)) (-h - 401)
  | .tanh =>
    let t := toFix false m e
    if (256 * fixOne : Nat) < t then .num neg (2 ^ 300 - 1) (-300)
    else
      let x := expFix (2 * t)
      let v := fvDiv (x.add (.num true 1 0)) (x.add (.num false 1 0))
      if neg then v.neg else v
  | .sigm => sigmoid neg m e
  | .silu => (sigmoid neg m e).mul (.num neg m e)

/-- Special values of Table 5.7. DESIGN CHOICE (log 149): VTANH and VSILU of ±0, which the table does not list, are ±0
exactly. -/
def Trans.special (p : Trans) : FV → Option FV
  | .nan => some .nan
  | .inf neg =>
    some (match p with
      | .exp2 => if neg then FV.zero else .inf false
      | .log2 => if neg then .nan else .inf false
      | .rcp => .num neg 0 0
      | .rsqrt => if neg then .nan else FV.zero
      | .tanh => .num neg 1 0
      | .sigm => if neg then FV.zero else .num false 1 0
      | .silu => if neg then .num true 0 0 else .inf false)
  | .num neg m _ =>
    if m = 0 then
      match p with
      | .exp2 => none
      | .log2 => some (.inf true)
      | .rcp => some (.inf neg)
      | .rsqrt => some (.inf neg)
      | .tanh => some (.num neg 0 0)
      | .sigm => none
      | .silu => some (.num neg 0 0)
    else if neg && (p = .log2 || p = .rsqrt) then some .nan
    else none

/-- FP32 values in order: −0 follows just below +0. -/
def fpOrd (w : W32) : Int := if w.toNat < 2 ^ 31 then (w.toNat : Int) else -((w.toNat - 2 ^ 31 : Nat) : Int) - 1
/-- The FP32 value at a place of that order. -/
def fpOfOrd (i : Int) : W32 := if 0 ≤ i then BitVec.ofNat 32 i.toNat else BitVec.ofNat 32 ((-i - 1).toNat + 2 ^ 31)

/-- The place of the least FP32 value that is not below `x`. -/
def fpCeil (x : FV) : Int :=
  let r := toF32 x
  if x.leNum (f32 r) then fpOrd r else fpOrd r + 1
/-- The place of the greatest FP32 value that is not above `x`. -/
def fpFloor (x : FV) : Int :=
  let r := toF32 x
  if (f32 r).leNum x then fpOrd r else fpOrd r - 1

/-- One unit in the last place of an FP32 value, as the exponent of a power of two. -/
def ulpExp (r : W32) : Int := (max 1 (r.toNat / 2 ^ 23 % 256) : Nat) - 150

/-- The least and the greatest result that Table 5.7 allows for an exact value `v`, by place in the order: the error is
measured from `v` itself, in units in the last place of `v` rounded to FP32 (R180). -/
def Trans.window (p : Trans) (x v : FV) : Int × Int :=
  let e := ulpExp (toF32 v)
  let near := p = .log2 && (FV.num false 1 (-1)).leNum x && x.leNum (.num false 1 1)
  let lo := fpCeil (v.add (.num true p.ulps e))
  let hi := fpFloor (v.add (.num false p.ulps e))
  let lo := if near then min lo (fpCeil (v.add (.num true 1 (-22)))) else lo
  let hi := if near then max hi (fpFloor (v.add (.num false 1 (-22)))) else hi
  (max lo (fpOrd 0xFF800000), min hi (fpOrd 0x7F800000))

/-- The result of a transcendental play in FP32: its special values exactly; an exact result below 2⁻¹⁴⁹ of VEXP2 and
a result beyond the range rounded; otherwise the value that `Config.ulpChoice` takes among those allowed (R180).
DESIGN CHOICE (log 149): an exact result that rounds to an infinity gives that infinity, which Table 5.7 does not list. -/
def transcend (p : Trans) (w : W32) : W32 :=
  let x := f32 w
  match p.special x with
  | some v => toF32 v
  | none =>
    match x with
    | .num neg m e =>
      let v := p.finite neg m e
      let r := toF32 v
      if p = .exp2 && v.leNum (.num false 1 (-149)) then r
      else if r = 0x7F800000 || r = 0xFF800000 then r
      else
        let win := p.window x v
        fpOfOrd (max win.1 (min win.2 (fpOrd r + Config.ulpChoice p.op w)))
    | _ => toF32 .nan

end Sys2Proof.Machine
end

