-- ==== Sys2Proof/Machine/ScriptOps.lean ====
section
/-! DEFINITION. What the operations of bank scripts read, write and compute: the fields of Table 8.5, the rows an
operation touches, and the results of DOT, SCORE, VALUE and POPC (R259 to R276). -/

namespace Sys2Proof.Machine

/-! ### Fields (Table 8.5) -/

/-- COUNT of a row operation, NTOK or NCODE of a stream. -/
def opCount (o : ScriptOp) : Nat := fieldOf o.x 0 12
/-- Whether an operation is a stream. -/
def opStream (o : ScriptOp) : Bool := 0x20 ≤ o.op && o.op ≤ 0x23
/-- Whether an operation stores rows. -/
def opStores (o : ScriptOp) : Bool := 0x10 ≤ o.op && o.op ≤ 0x13
/-- The element type of DOT weights. -/
def dotType (o : ScriptOp) : Elem :=
  match fieldOf o.x 0 3 with
  | 0 => .fp4 | 1 => .e3m2 | 2 => .e2m3 | 3 => .e4m3 | _ => .e5m2
/-- OUTPUTS of a DOT. -/
def dotOutputs (o : ScriptOp) : Nat := fieldOf o.x 8 6 + 1
/-- K of a DOT. -/
def dotK (o : ScriptOp) : Nat := 64 * (fieldOf o.x 14 5 + 1)
/-- The latches of LMASK, ascending: vector `v` is the `v`-th. -/
def opLatches (o : ScriptOp) : List Nat :=
  if o.op = 0x20 then setBitsBelow 4 (fieldOf o.x 4 4) else if opStream o then setBitsBelow 4 (fieldOf o.x 12 4) else []
/-- HD of SCORE and VALUE. -/
def headDim (o : ScriptOp) : Nat := 32 * (fieldOf o.x 16 4 + 1)
/-- The element type of keys and values. -/
def keyType (o : ScriptOp) : Elem := if bitOf o.x 20 then .e5m2 else .e4m3
/-- Bits of a code of POPC. -/
def codeBits (o : ScriptOp) : Nat := 64 * (fieldOf o.x 16 7 + 1)
/-- FN of LOGIC. -/
def logicFn (o : ScriptOp) : Nat := fieldOf o.x 12 3
/-- The latch of a masked LOGIC. -/
def logicMask (o : ScriptOp) : Option Nat := if o.op = 0x13 && bitOf o.x 15 then some (fieldOf o.x 16 2) else none
/-- The source bank of an XCOPY. -/
def xcopySource (o : ScriptOp) : Nat := 32 * fieldOf o.x 17 5 + fieldOf o.x 12 5

/-! ### Rows -/

/-- Rows that hold a number of bytes. -/
def rowsFor (n : Nat) : Nat := ceilDiv n 1024

/-- Bytes of a stream's value array, or of its low plane. -/
def valueBytes (o : ScriptOp) : Nat :=
  match o.op with
  | 0x20 => dotOutputs o * dotK o * planeBits (dotType o) / 8
  | 0x23 => opCount o * codeBits o / 8
  | _ => opCount o * headDim o
/-- Bytes of the high plane of FP6 weights. -/
def highBytes (o : ScriptOp) : Nat := if o.op = 0x20 && isFp6 (dotType o) then dotOutputs o * dotK o / 4 else 0
/-- Bytes of a stream's scales. -/
def scaleBytes (o : ScriptOp) : Nat :=
  match o.op with
  | 0x20 => dotOutputs o * dotK o / 32
  | 0x23 => 0
  | _ => opCount o * headDim o / 32

/-- Rows from ROW_A that an operation touches. -/
def rowsA (o : ScriptOp) : Nat :=
  if opStream o then rowsFor (valueBytes o) + rowsFor (highBytes o) else if opStores o then opCount o else 0
/-- Rows from ROW_B that an operation touches. -/
def rowsB (o : ScriptOp) : Nat :=
  if opStream o then rowsFor (scaleBytes o) else if opStores o && o.op ≠ 0x10 then opCount o else 0

/-- Rows of an operation on a bank, with the index of their region in REGIONS: the source bank of an XCOPY touches the
rows of ROW_B, its destination banks those of ROW_A. -/
def opRows (o : ScriptOp) (rowAdd bank : Nat) : List (Nat × Nat) :=
  let a := (rangeFrom (o.rowA + rowAdd) (rowsA o)).map fun r => (o.ra, r)
  let b := (rangeFrom (o.rowB + rowAdd) (rowsB o)).map fun r => (o.rb, r)
  if o.op = 0x12 then (if bank = xcopySource o then b else a) else a ++ b

/-- Every bank that runs rows of an operation, ascending. -/
def runBanks (chans slots : List Nat) (o : ScriptOp) : List Nat :=
  (List.range 768).filter fun b =>
    (chans.contains (b % 32) && slots.contains (b / 32)) || (o.op = 0x12 && b = xcopySource o)

/-- Elements of a latch that an operation reads, by latch (R264). VALUE reads none. -/
def latchNeeds (o : ScriptOp) : List (Nat × Nat) :=
  match o.op with
  | 0x20 => (opLatches o).map fun l => (l, dotK o)
  | 0x21 => (opLatches o).map fun l => (l, headDim o)
  | 0x23 => (opLatches o).map fun l => (l, codeBits o / 8)
  | 0x13 => ((logicMask o).map fun l => (l, 1024)).toList
  | _ => []

/-! ### Row operations (Table 8.2) -/

/-- One row operation: a Load of a source row, a Store, a Combine, or a Read of the first lines of a row. -/
inductive RowStep where
  | load (row : Nat)
  | store (row : Nat)
  | combine (row : Nat)
  | read (row lines : Nat)
  deriving DecidableEq, Repr

/-- Whether a row operation writes its row. -/
def RowStep.writes : RowStep → Bool
  | .store _ => true
  | .combine _ => true
  | _ => false

/-- The row of a row operation. -/
def RowStep.row : RowStep → Nat
  | .load r => r | .store r => r | .combine r => r | .read r _ => r

/-- The reads of an array of `bytes` bytes from a row: whole lines of each row. -/
def readsOf (row bytes : Nat) : List RowStep :=
  (List.range (rowsFor bytes)).map fun i => .read (row + i) (ceilDiv (min 1024 (bytes - 1024 * i)) 64)

/-- The order of a COPY's rows: descending when the ranges overlap and ROW_A lies above ROW_B (R278). -/
def copyIndex (o : ScriptOp) (i : Nat) : Nat :=
  if o.rowB < o.rowA && o.rowA < o.rowB + opCount o then opCount o - 1 - i else i

/-- The row operations of an operation on one bank, in order (R268, R278 to R280). -/
def bankSteps (o : ScriptOp) (rowAdd bank : Nat) : List RowStep :=
  let a := o.rowA + rowAdd
  let b := o.rowB + rowAdd
  let n := opCount o
  match o.op with
  | 0x10 => (List.range n).map fun i => .store (a + i)
  | 0x11 => (List.range n).flatMap fun i => [.load (b + copyIndex o i), .store (a + copyIndex o i)]
  | 0x12 =>
    if bank = xcopySource o then (List.range n).map fun i => .load (b + i) else (List.range n).map fun i => .store (a + i)
  | 0x13 =>
    (List.range n).flatMap fun i => [.load (b + i), if logicFn o = 4 then .store (a + i) else .combine (a + i)]
  | _ =>
    if opStream o then
      readsOf b (scaleBytes o) ++ readsOf a (valueBytes o) ++ readsOf (a + rowsFor (valueBytes o)) (highBytes o)
    else []

/-- The next row operation of a run on a bank. -/
def nextStep (r : ScriptRun) (b : BankRun) : Option RowStep :=
  (opOf r).bind fun o => (bankSteps o r.rowAdd b.bank)[b.done]?

/-- LOGIC on two rows: FN of Table 8.5. -/
def logicRow (fn : Nat) (d s : RowData) : RowData :=
  match fn with
  | 0 => d &&& s | 1 => d ||| s | 2 => d ^^^ s | 3 => d &&& ~~~ s | _ => ~~~ s

/-! ### Rows as a stream reads them -/

/-- The rows a bank has read: row, data, poison by line. -/
abbrev Rows := List (Nat × RowData × BitVec 16)

/-- A byte of an array that starts at a row, with its line's poison in any read of the row. -/
def rowByte (rs : Rows) (row off : Nat) : Nat × Bool :=
  let mine := rs.filter fun e => e.1 = row + off / 1024
  match mine.getLast? with
  | some e => (fieldOf e.2.1.toNat (8 * (off % 1024)) 8, mine.any fun e => bitOf e.2.2.toNat (off % 1024 / 64))
  | none => (0, false)

/-- The value that a scale byte applies to a number (R163). -/
def scaleVal (v : FV) (scale : Nat) : FV := if scale = 255 then .nan else v.mul (.num false 1 ((scale : Int) - 127))

/-- Element `i` of a latched FP8 vector with its scale. -/
def latchElem (l : Latch) (i : Nat) : FV :=
  scaleVal ((if l.e5 then Elem.e5m2 else Elem.e4m3).decode (rdByte l.values i).toNat) (rdByte l.scales (i / 32)).toNat

/-- Weight `i` of a DOT's value array, from its planes and its scale, with its poison. -/
def dotWeight (o : ScriptOp) (rs : Rows) (a b i : Nat) : FV × Bool :=
  let t := dotType o
  let sc := rowByte rs b (i / 32)
  let lo := if t.bits < 8 then rowByte rs a (i / 2) else rowByte rs a i
  let hi := if isFp6 t then rowByte rs (a + rowsFor (valueBytes o)) (i / 4) else (0, false)
  let bits :=
    if t.bits < 8 then fieldOf lo.1 (4 * (i % 2)) 4 + (if isFp6 t then 16 * fieldOf hi.1 (2 * (i % 4)) 2 else 0) else lo.1
  (scaleVal (t.decode bits) sc.1, sc.2 || lo.2 || hi.2)

/-- Element `i` of a key or value array, with its scale and its poison. -/
def tokenElem (o : ScriptOp) (rs : Rows) (a b i : Nat) : FV × Bool :=
  let v := rowByte rs a i
  let sc := rowByte rs b (i / 32)
  (scaleVal ((keyType o).decode v.1) sc.1, v.2 || sc.2)

/-- Blocks of 32 products, each rounded once, added in ascending order from +0 (R166, R268, R273). -/
def addBlocks (f : Nat → FV) (n : Nat) : Nat → W32
  | 0 => 0
  | b + 1 => fadd (addBlocks f n b) (blockResult ((rangeFrom (32 * b) (min 32 (n - 32 * b))).map f))

/-- A dot product of `n` elements of an array from `base` with a latched vector. -/
def dotLatch (w : Nat → FV × Bool) (base n : Nat) (l : Latch) : W32 × Bool :=
  (addBlocks (fun i => (w (base + i)).1.mul (latchElem l i)) n (ceilDiv n 32),
    l.poison.any (· < n) || (List.range n).any fun i => (w (base + i)).2)

/-- The reducer's tree over slots (R269). -/
def reduceTree (v : List W32) : List Nat → List W32
  | [] => v
  | w :: ws =>
    reduceTree ((List.range v.length).map fun k =>
      if k % (2 * w) = 0 && k + w < 24 then fadd ((v[k]?).getD 0) ((v[k + w]?).getD 0) else (v[k]?).getD 0) ws

/-- The reducer's sum of the partials of 24 slots. -/
def reduceSlots (v : List W32) : W32 := ((reduceTree v [1, 2, 4, 8, 16])[0]?).getD 0

/-! ### The results of one memory channel (Table 8.6) -/

/-- A result: its vector, its place in the channel's order, its value and its poison. -/
abbrev Res := Nat × Nat × W32 × Bool

/-- Rows and latches of the banks of one channel, by slot. -/
abbrev ChanData := List (Nat × Rows × List (Nat × Latch))

/-- A latch of a list. -/
def latchIn (ls : List (Nat × Latch)) (n : Nat) : Latch := ((ls.find? fun e => e.1 = n).map (·.2)).getD Latch.empty

/-- Combine one number per slot by the reducer. -/
def reduceOver (d : ChanData) (f : Nat → Rows → List (Nat × Latch) → W32 × Bool) : W32 × Bool :=
  let ps := d.map fun e => (e.1, f e.1 e.2.1 e.2.2)
  (reduceSlots ((List.range 24).map fun k => ((ps.find? fun e => e.1 = k).map (·.2.1)).getD 0), ps.any (·.2.2))

/-- DOT (R268 to R270). -/
def dotResults (o : ScriptOp) (rowAdd : Nat) (d : ChanData) : List Res :=
  ((opLatches o).zip (List.range 4)).flatMap fun lv => (List.range (dotOutputs o)).map fun i =>
    let r := reduceOver d fun _ rs ls =>
      dotLatch (dotWeight o rs (o.rowA + rowAdd) (o.rowB + rowAdd)) (i * dotK o) (dotK o) (latchIn ls lv.1)
    (lv.2, i, r.1, r.2)

/-- The scores of one channel for a latch, in buffer order (R272). -/
def scoreBuffer (o : ScriptOp) (rowAdd : Nat) (d : ChanData) (l : Nat) : List (W32 × Bool) :=
  d.flatMap fun e => (List.range (opCount o)).map fun t =>
    dotLatch (tokenElem o e.2.1 (o.rowA + rowAdd) (o.rowB + rowAdd)) (t * headDim o) (headDim o) (latchIn e.2.2 l)

/-- exp2 as VEXP2 computes it. -/
def exp2w (w : W32) : W32 := transcend .exp2 w

/-- One step of the running maximum and sum (R272). -/
def scoreStep (u : W32 × W32) (x : W32) : W32 × W32 :=
  let m := toF32 ((f32 u.1).max (f32 x))
  (m, fadd (fmul u.2 (exp2w (fsub u.1 m))) (exp2w (fsub x m)))

/-- A score unit after a SCORE. -/
def scoreUnit (buf : List (W32 × Bool)) : ScoreUnit :=
  let r := (buf.map (·.1)).foldl scoreStep (0xFF800000, 0)
  { scores := buf, m := r.1, sum := r.2, poison := buf.any (·.2), defined := true }

/-- Whether a token's elements or scales lie in a poisoned line (R276). -/
def tokenBad (o : ScriptOp) (rs : Rows) (a b t : Nat) : Bool :=
  (List.range (headDim o)).any fun h => (tokenElem o rs a b (t * headDim o + h)).2

/-- VALUE for one latch with its score unit (R273): the tokens of the `j`-th slot stand at `j × NTOK` in the buffer. Every sum uses every
token of its banks, so a poisoned line of a token poisons them all (R276). -/
def valueResults (o : ScriptOp) (rowAdd v : Nat) (d : ChanData) (u : ScoreUnit) : List Res :=
  let n := opCount o
  let slots := d.map (·.1)
  (List.range (headDim o)).map fun h =>
    let r := reduceOver d fun k rs _ =>
      let j := (slots.takeWhile (· ≠ k)).length
      let x (t : Nat) : W32 × Bool := (u.scores[j * n + t]?).getD (0, false)
      let w (t : Nat) : FV := f32 (exp2w (fsub (x t).1 u.m))
      let el (t : Nat) := tokenElem o rs (o.rowA + rowAdd) (o.rowB + rowAdd) (t * headDim o + h)
      (addBlocks (fun t => (w t).mul (el t).1) n (ceilDiv n 32),
        u.poison || (List.range n).any fun t => (x t).2 || tokenBad o rs (o.rowA + rowAdd) (o.rowB + rowAdd) t)
    (v, h, r.1, r.2)

/-- One count of POPC (R275). -/
def popCount (o : ScriptOp) (rs : Rows) (row code : Nat) (l : Latch) : W32 × Bool :=
  let n := codeBits o / 8
  let bs := (List.range n).map fun i =>
    let b := rowByte rs row (code * n + i)
    (popBits 8 (b.1 ^^^ (rdByte l.values i).toNat), b.2)
  (BitVec.ofNat 32 (bs.map (·.1)).sum, l.poison.any (· < n) || bs.any (·.2))

/-- POPC: by ascending slot, then ascending code. -/
def popResults (o : ScriptOp) (rowAdd : Nat) (d : ChanData) : List Res :=
  ((opLatches o).zip (List.range 4)).flatMap fun lv =>
    (((d.zip (List.range 24)).flatMap fun e => (List.range (opCount o)).map fun c =>
      let r := popCount o e.1.2.1 (o.rowA + rowAdd) c (latchIn e.1.2.2 lv.1)
      (lv.2, e.2 * opCount o + c, r.1, r.2)))

/-! ### The cursor (R267) -/

/-- The per-channel count of Table 8.6. -/
def perChannel (o : ScriptOp) : Nat :=
  match o.op with
  | 0x20 => dotOutputs o
  | 0x21 => 2
  | 0x22 => headDim o
  | 0x23 => opCount o * popBits 24 o.slotMask
  | _ => 0

/-- The cursor total that a script's card fixes. -/
def cursorTotal (p : Script) : Nat := (p.ops.map fun o => perChannel o * popBits 32 o.chMask).sum

/-- The most vectors that a stream of a script has. -/
def vectorCount (p : Script) : Nat := (p.ops.map fun o => (opLatches o).length).foldl max 0

end Sys2Proof.Machine
end

