-- ==== Sys2Proof/Machine/Links.lean ====
section
/-! DEFINITION. Training of Weazen ports: when a port trains, what its TRAIN body says, and the checks of R350 to R353. -/

namespace Sys2Proof.Machine

/-- A port's role under the running deck; 0xFF with no active deck (R349). -/
def roleOf (s : State) (p : Nat) : Nat :=
  match deckOf s with
  | some d => (d.role.roles[p]?).getD 0
  | none => 0xFF

/-- The TRAIN body of a port (Table 11.3, R349). -/
def trainBody (s : State) (p : Nat) : TrainBody :=
  { majorMin := 1, majorMax := 1, minorMax := 0, arch := 1, module := ownIndex s, port := p, role := roleOf s p,
    group := ((deckOf s).map (·.role.group)).getD 0, deckSerial := ((deckOf s).map (·.id.serial)).getD 0 }

/-- The protocol major and minor that two bodies agree (R350). -/
def agreedVersion (own peer : TrainBody) : Option (Nat × Nat) :=
  let major := min own.majorMax peer.majorMax
  if major < own.majorMin || major < peer.majorMin then none
  else if own.majorMax = peer.majorMax then some (major, min own.minorMax peer.minorMax)
  else some (major, if own.majorMax < peer.majorMax then own.minorMax else peer.minorMax)

/-- Whether a side is powered and in regulation. -/
def sidePowered (s : State) (p : Nat) : Bool := (getDomain s (sideOf p)).on && (getDomain s (sideOf p)).inReg

/-- Whether a port may train: self-test is over, the reference clock is there, its side is powered, a cable is
there and its role is not 0 (R348, R589, Table 17.1). -/
def mayTrain (s : State) (p : Nat) : Bool := s.ctl.idState = .running && !s.ringOsc && sidePowered s p && (getPort s p).cable && roleOf s p ≠ 0

/-- Begin training at step 1. -/
def startTraining (s : State) (p : Nat) : State :=
  if mayTrain s p then moveRoutes s p fun q => { portOff q with state := .training, step := 1, role := roleOf s p % 0xFF }
  else s

/-- The state in which the checks of R350 to R352 leave a port with its peer's body, and the code they log. -/
def checkBodies (s : State) (p : Nat) (own peer : TrainBody) : PortState × Option Ev :=
  match agreedVersion own peer with
  | none => (.incompatible, some evFabVersionMismatch)
  | some _ =>
    match deckOf s with
    | none => (.mgmtOnly, none)
    | some d =>
      if own.role = 3 then (.mgmtOnly, none)
      else if peer.module = (d.role.neighbours[p]?).getD 0xFFFF && peer.role = own.role && (own.role ≠ 1 || peer.group = own.group)
      then (.active, none)
      else (.mgmtOnly, some evFabNeighbourMismatch)

/-- Log a mismatch with both bodies (R642). -/
def logMismatch (s : State) (e : Ev) (p : Nat) (own peer : TrainBody) : State :=
  logEvent s e (uPort p) none (.train p (trainBytes own) (trainBytes peer))

/-- The bounds of the training steps, in counts of the compute-die meter (Table 11.2). -/
def stepBound (step : Nat) : Nat :=
  match step with
  | 2 => 50 * countsMs
  | 3 => 5 * countsMs
  | _ => countsMs

/-- A port enters a state in which it exchanges flits: an ACTIVE one counts the time since its last good flit (R650). -/
def enterState (s : State) (p : Nat) (st : PortState) : State :=
  let was := (getPort s p).state
  let s := modPort s p fun q => { q with state := st }
  if st = .active && was ≠ .active then startDeadline s (.flit p) else s

/-- Apply the checks to a port whose peer's body is known: at the end of training, at a deck switch, and at each TRAIN body that arrives
after (R350 to R353). A quarantined port takes its role and its version and stays quarantined: it returns to ACTIVE only as R377 gives. A
port that a re-check moves out of ACTIVE logs a mismatch, by whichever of the checks. -/
def applyChecks (s : State) (p : Nat) (recheck : Bool) : State :=
  let q := getPort s p
  match q.peer with
  | none => s
  | some peer =>
    let own := trainBody s p
    let c := checkBodies s p own peer
    let v := (agreedVersion own peer).getD (0, 0)
    let q := { q with role := own.role % 0xFF, verMajor := v.1, verMinor := v.2 }
    if q.state = .quarantined then setPort s p q
    else
      let left := q.state = .active && c.1 ≠ .active
      let s := setPort s p { q with step := 6, recheckDown := if c.1 = .active then false else q.recheckDown || (recheck && left) }
      let s := enterState s p c.1
      if recheck && left then
        let s := logMismatch s evFabNeighbourMismatch p own peer
        if c.2 = some evFabVersionMismatch then logMismatch s evFabVersionMismatch p own peer else s
      else
        match c.2 with
        | some e => if recheck && e = evFabNeighbourMismatch then s else logMismatch s e p own peer
        | none => s

/-- Whether a port has trained. -/
def trained (q : Port) : Bool :=
  q.state = .active || q.state = .mgmtOnly || q.state = .quarantined || q.state = .incompatible

/-- Send a TRAIN frame on a port (R353), as any frame of lane 0: in a counted flit, for link credits. -/
def sendTrain (s : State) (p : Nat) : State :=
  let b := trainBody s p
  let peer := ((getPort s p).peer.map (·.module)).getD 0xFFFF
  let f : Frame := { hdr := { dest := peer, src := ownIndex s, gen := s.gen, table := 64, poison := false }, body := .train b }
  transmit s p { cls := 0, frame := f, src := none }

/-- A port takes its role at step 6 of a deck switch (R353, R533). -/
def takeRole (s : State) (p : Nat) : State :=
  let q := getPort s p
  let r := roleOf s p
  if r = 0 then moveRoutes s p fun q => { portOff q with role := 0, recheckDown := false }
  else if !(getDomain s (sideOf p)).on then modPort s p fun q => { q with role := r }
  else if trained q then applyChecks (sendTrain (modPort s p fun q => { q with recheckDown := false }) p) p true
  else if q.state = .off then startTraining s p
  else modPort s p fun q => { q with role := r }

/-- Switch sides on and off for a deck's roles: off while every port has role 0 (R533). A side that comes on reaches
regulation later. -/
def sidesForRoles (s : State) : State :=
  (List.range 2).foldl (fun s f =>
    let want := (rangeFrom (6 * f) 6).any fun p => roleOf s p ≠ 0
    let d := getDomain s (18 + f)
    if want && !d.on && !d.failed then
      startDeadline (setDomain s (18 + f) { d with on := true, inReg := false }) (.regulation (18 + f))
    else if !want && d.on then sideOff s f
    else s) s

end Sys2Proof.Machine
end

