-- ==== Sys2Proof/Machine/Spare.lean ====
section
/-! DEFINITION. Spare rows, spare column groups and spare cores, and what a member does in a repair window (R154, R155,
R385, R395, R409, R410, R550, R588). -/

namespace Sys2Proof.Machine

/-! ### Rows (R211, R395) -/

/-- Switch a row onto the lowest free spare row of its bank with a copy of all it stores, or nothing when the bank has no
free spare row. -/
def spareRow (s : State) (stack bank row : Nat) : Option State :=
  let k := getStack s stack
  let used := sget 0 k.sparesUsed bank
  if 256 ≤ used then none
  else
    let src := rowKey stack bank (physRow k bank row)
    let dst := rowKey stack bank (49152 + used)
    let s := { s with array := wrBytes s.array dst (rdBytes s.array src rowBytes) }
    some (modStack s stack fun k =>
      { k with sparesUsed := sput 0 k.sparesUsed bank (used + 1),
               spareRows := sput 0 k.spareRows (bank * 49152 + row) (used + 1) })

/-- A spare in use for a row is reported as a DRAM event where its line lies in a committed window (Table 15.12). -/
def rowSpared (s : State) (e : Ev) (stack bank row mask : Nat) : State :=
  let s := logLine s e stack bank row mask 4
  let dpa := dpaOfAddr (rowAddr s stack bank row)
  if inWindow s dpa then addStandard s e (.dram dpa (bank % 32) (bank / 32) row) else s

/-- Switch a row at once, as a soft spare that lasts until power is lost (R395). -/
def softSpare (s : State) (stack bank row mask : Nat) : Option State :=
  (spareRow s stack bank row).map fun s =>
    rowSpared (modStack s stack fun k => { k with softRows := k.softRows ++ [(bank, row)] }) evIntSpareSoft stack bank row mask

/-- Switch a row as a soft spare, once the write window allows the copy (R236). -/
def softSpareHeld (s : State) (stack bank row mask : Nat) : Option State :=
  if !(getStack s stack).writeHold then softSpare s stack bank row mask
  else if sget 0 (getStack s stack).sparesUsed bank < 256 then some (holdWrite s stack (.spare bank row mask))
  else none

/-- Whether a die is in its fuse window, 10 °C to 70 °C (R410, R550). -/
def fuseWindow (s : State) (die : Nat) : Bool :=
  let d := getDiode s die
  d.valid && !d.failed && 40 ≤ d.temp && d.temp ≤ 280

/-! ### The work of a window -/

/-- The progress of a member's window: fuse operations left, actions done and deferred, whether the budget has run out. -/
structure Work where
  s : State
  fuses : Nat
  done : Nat
  deferred : Nat
  stopped : Bool
  deriving DecidableEq, Repr

/-- Whether the next action still fits WINDOW_BUDGET. How long an action takes is bounded and not stated, so an open
choice decides; with no budget limit every action fits. -/
def Work.fits (w : Work) (limited : Bool) : Work × Bool :=
  if w.stopped then (w, false)
  else if !limited then (w, true)
  else
    let ok := Config.orderChoice w.s.freeNext
    ({ w with s := { w.s with freeNext := w.s.freeNext + 1 }, stopped := !ok }, ok)

/-- Leave an entry for a later window (R410). -/
def Work.defer (w : Work) (stack : Nat) (e : SpareEntry) : Work :=
  { w with s := logLine w.s evIntSpareDeferred stack e.bank e.row e.lines.toNat 4, deferred := w.deferred + 1 }

/-- Remove a row's entry from the list of its stack. -/
def dropSpare (s : State) (stack : Nat) (e : SpareEntry) : State :=
  modStack s stack fun k =>
    { k with pendingSpare := k.pendingSpare.filter (fun x => !(x.bank = e.bank && x.row = e.row)), spareFullLogged := false }

/-- The line position at which three or more listed rows of a bank failed, if there is one (Table 12.8 step 1). -/
def columnPosition (k : Stack) (bank : Nat) : Option Nat :=
  (List.range 16).find? fun i =>
    sget 0 k.columns (16 * bank + i) = 0 && 3 ≤ (k.pendingSpare.filter fun e => e.bank = bank && bitOf e.lines.toNat i).length

/-- Pairs of spare columns that a bank uses. -/
def columnsUsed (k : Stack) (bank : Nat) : Nat := ((List.range 16).filter fun i => sget 0 k.columns (16 * bank + i) ≠ 0).length

/-- Test a line that is to be copied; a persistent one is handled as its class gives (R389, R390). -/
def testCopied (s : State) (stack bank row i : Nat) : State :=
  let line := lineOfRow s stack bank row i
  if underRepair s line then s
  else
    let t := testLine s line 0
    if t.2 then t.1 else (actPersistent t.1 line 4 .firmware true).1

/-- Copy one line position of a physical row to a pair of spare columns. -/
def copyColumn (stack bank i pair : Nat) (s : State) (prow : Nat) : State :=
  let b := rowKey stack bank prow
  { s with array := wrBytes s.array (b + 1104 + 64 * pair) (rdBytes s.array (b + 64 * i) 64) }

/-- Spare the two columns of a line position in every row of a bank (Table 12.8 step 1). -/
def spareColumns (s : State) (stack bank i : Nat) : State :=
  let s := (List.range 49152).foldl (fun s row => testCopied s stack bank row i) s
  let pair := columnsUsed (getStack s stack) bank
  let s := (List.range 49408).foldl (copyColumn stack bank i pair) s
  modStack s stack fun k => { k with columns := sput 0 k.columns (16 * bank + i) (pair + 1), fused := k.fused + 2 }

/-- What a window can do for an entry (Table 12.8). -/
inductive SpareAct where
  | column (i : Nat)
  | soft
  | row
  | exhausted
  | keep
  deriving DecidableEq, Repr

/-- The first step of Table 12.8 whose condition an entry meets. -/
def spareAct (auto : Nat) (k : Stack) (e : SpareEntry) : SpareAct :=
  match if bitOf auto 2 && columnsUsed k e.bank < 4 then columnPosition k e.bank else none with
  | some i => .column i
  | none =>
    if !bitOf auto 1 then .keep
    else if k.softRows.contains (e.bank, e.row) then .soft
    else if sget 0 k.sparesUsed e.bank < 256 then .row
    else .exhausted

/-- Fuse operations of a step: each column group is one. -/
def SpareAct.cost : SpareAct → Nat
  | .column _ => 2
  | _ => 1

/-- Carry out a step of Table 12.8 that fits. -/
def doSpare (s : State) (stack : Nat) (e : SpareEntry) : SpareAct → State
  | .column i =>
    let rows := (getStack s stack).pendingSpare.filter fun x => x.bank = e.bank && bitOf x.lines.toNat i
    let s := spareColumns s stack e.bank i
    rows.foldl (fun s x => rowSpared (dropSpare s stack x) evIntSpareColumn stack x.bank x.row x.lines.toNat) s
  | .soft =>
    let s := modStack (dropSpare s stack e) stack fun k =>
      { k with fused := k.fused + 1, softRows := k.softRows.filter (· ≠ (e.bank, e.row)) }
    rowSpared s evIntSpareRow stack e.bank e.row e.lines.toNat
  | .row =>
    let s := (List.range 16).foldl (fun s i => testCopied s stack e.bank e.row i) s
    match spareRow s stack e.bank e.row with
    | some s =>
      rowSpared (modStack (dropSpare s stack e) stack fun k => { k with fused := k.fused + 1 }) evIntSpareRow stack e.bank e.row
        e.lines.toNat
    | none => s
  | _ => s

/-- One entry of a stack's list in a window, by Table 12.8. Only a step that is carried out costs fuse operations and budget. -/
def spareStep (auto : Nat) (limited : Bool) (stack : Nat) (w : Work) (e : SpareEntry) : Work :=
  let k := getStack w.s stack
  if !k.pendingSpare.any (fun x => x.bank = e.bank && x.row = e.row) then w
  else
    match spareAct auto k e with
    | .keep => w
    | .exhausted =>
      if k.exhausted.contains e.bank then w
      else
        { w with s := logLine (modStack w.s stack fun k => { k with exhausted := k.exhausted ++ [e.bank] })
                        evIntSpareExhausted stack e.bank e.row e.lines.toNat 4 }
    | a =>
      if !fuseWindow w.s (1 + stack) || k.writeHold || w.fuses < a.cost then w.defer stack e
      else
        let f := w.fits limited
        if !f.2 then f.1.defer stack e
        else { f.1 with s := doSpare f.1.s stack e a, fuses := f.1.fuses - a.cost, done := f.1.done + 1 }

/-- The soft-spared entries of a stack, or the others. -/
def entriesOf (s : State) (stack : Nat) (soft : Bool) : List SpareEntry :=
  let k := getStack s stack
  k.pendingSpare.filter fun e => k.softRows.contains (e.bank, e.row) = soft

/-- The entries of every stack. -/
def spareLists (auto : Nat) (limited soft : Bool) (w : Work) : Work :=
  (List.range 8).foldl (fun w n => (entriesOf w.s n soft).foldl (spareStep auto limited n) w) w

/-- Fuse one lane of a path. -/
def fuseLane (s : State) (id : PathId) (l : Nat) : State :=
  { s with paths := updFirst (fun x : PathId × Path => x.1 = id)
                      (fun x => (x.1, { x.2 with fusedLanes := x.2.fusedLanes ++ [l] })) s.paths }

/-- Fuse the lanes that paths steer (R385). -/
def fuseLanes (auto : Nat) (limited : Bool) (w : Work) : Work :=
  if !bitOf auto 3 then w
  else
    (w.s.paths.map (·.1)).foldl (fun w id =>
      match w.s.paths.find? fun e => e.1 = id with
      | none => w
      | some e =>
        (e.2.steered.filter fun l => !e.2.fusedLanes.contains l).foldl (fun w l =>
          if !fuseWindow w.s 0 || w.fuses = 0 then { w with deferred := w.deferred + 1 }
          else
            let f := w.fits limited
            if !f.2 then { f.1 with deferred := f.1.deferred + 1 }
            else
              { f.1 with fuses := f.1.fuses - 1, done := f.1.done + 1, s := fuseLane f.1.s id l }) w) w

/-- The physical cores of a cluster that may replace a retired one: above 63, not retired, not bad, not mapped (R154). -/
def spareCore (s : State) (cluster : Nat) : Option Nat :=
  (rangeFrom 64 4).find? fun p =>
    !s.retiredCores.contains (68 * cluster + p) && !s.badCores.contains (68 * cluster + p) &&
      !((List.range 64).any fun l => physicalOf s (64 * cluster + l) = p)

/-- The logical core that a physical core carries by the repair map. -/
def logicalOn (s : State) (c : Nat) : Option Nat :=
  ((List.range 64).find? fun l => physicalOf s (64 * (c / 68) + l) = c % 68).map (64 * (c / 68) + ·)

/-- The core that takes over a logical number: its program in the state of R73, with zeroed scratch. It starts when an open window ends
(R155). -/
def mapCore (s : State) (n p : Nat) : State :=
  let s := { s with repairMap := sput 0 s.repairMap n (p + 1), paths := s.paths.filter fun e => e.1 ≠ .coreInside n }
  match deckOf s with
  | some d =>
    let s := modCtl s fun c => { c with spareCores := c.spareCores.filter (· ≠ n) ++ [n] }
    setCore (dropCoreWait s n) n { loadedCore d n with run := .halted, ticketGen := (getCore s n).ticketGen + 1 }
  | none => s

/-- Retire one bad physical core; its logical number passes to the lowest-numbered spare that is good (R154). DESIGN CHOICE (log 155):
a core whose cluster has no such spare left is not retired; it stays marked bad and carries its logical number on. -/
def retireCore (s : State) (c : Nat) : State × Bool :=
  let gone (s : State) : State :=
    { s with badCores := s.badCores.filter (· ≠ c), retiredCores := s.retiredCores ++ [c] }
  match logicalOn s c with
  | none => (gone s, true)
  | some n =>
    match spareCore s (c / 68) with
    | none => (s, false)
    | some p => (mapCore (gone s) n p, true)

/-- Retire the cores marked bad, under AUTO bit 0. -/
def retireBad (auto : Nat) (limited : Bool) (w : Work) : Work :=
  if !bitOf auto 0 then w
  else
    w.s.badCores.foldl (fun w c =>
      if !fuseWindow w.s 0 || w.fuses = 0 then { w with deferred := w.deferred + 1 }
      else
        let f := w.fits limited
        if !f.2 then { f.1 with deferred := f.1.deferred + 1 }
        else
          let r := retireCore f.1.s c
          if r.2 then { f.1 with s := r.1, fuses := f.1.fuses - 1, done := f.1.done + 1 }
          else { f.1 with deferred := f.1.deferred + 1 }) w

/-- Retrain FAILED ports (R348). -/
def retrainFailed (w : Work) : Work :=
  (List.range 12).foldl (fun w p =>
    if (getPort w.s p).state = .failed && !w.stopped then { w with s := startTraining w.s p, done := w.done + 1 } else w) w

/-- Log that a fuse operation of the compute die waits outside its window, once until the next repair window (R550). -/
def noteFuseWait (s : State) : State :=
  if s.sec.fuseLogged || fuseWindow s 0 then s
  else
    logGen { s with sec := { s.sec with fuseLogged := true } } evThmFuseWindow (uDiode 0) none
      [BitVec.ofInt 32 (getDiode s 0).temp] []

/-- Log once per window that a fuse operation waits outside its window (R550). -/
def logFuseWait (s : State) (auto : Nat) : State :=
  let waits := (bitOf auto 0 && !s.badCores.isEmpty) || !s.sec.fuseQueue.isEmpty ||
    (bitOf auto 3 && s.paths.any fun e => e.2.steered.any fun l => !e.2.fusedLanes.contains l)
  let s := { s with sec := { s.sec with fuseLogged := false } }
  let s := if waits then noteFuseWait s else s
  (List.range 8).foldl (fun s n =>
    if !(getStack s n).pendingSpare.isEmpty && !fuseWindow s (1 + n) then
      logGen s evThmFuseWindow (uDiode (1 + n)) none [BitVec.ofInt 32 (getDiode s (1 + n)).temp] []
    else s) s

/-- The work of a window in the order of R588. -/
def windowWork (s : State) (auto fuseMax : Nat) (limited : Bool) : Work :=
  let s := logFuseWait s auto
  let w : Work := { s := s, fuses := fuseMax, done := 0, deferred := 0, stopped := false }
  let w := fuseLanes auto limited (spareLists auto limited true w)
  retrainFailed (spareLists auto limited false (retireBad auto limited w))

end Sys2Proof.Machine
end

