-- ==== Sys2Proof/Machine/BackInv.lean ====
section
/-! DEFINITION. The snoop filter and the end of a back-invalidation: what the accesses that wait for it do (R504, R508 to
R511, R522). -/

namespace Sys2Proof.Machine

/-- The set of the snoop filter that a device physical address falls into: 1,048,576 entries, 16 ways (R508). -/
def snoopSet (dpa : Nat) : Nat := dpa / 64 % 65536

/-- Enter a line that the host now may hold; the list keeps allocation order. -/
def snoopEnter (s : State) (dpa : Nat) (exclusive : Bool) : State :=
  modHost s fun h =>
    if h.snoop.any fun e => e.1 = dpa then
      { h with snoop := h.snoop.map fun e => if e.1 = dpa then (dpa, exclusive) else e }
    else { h with snoop := h.snoop ++ [(dpa, exclusive)] }

/-- The device physical address of a host physical address under a decoder: the interleave's selector bits are taken out (R502;
PRESUMED from CXL 3.1). -/
def hdmDpa (d : HdmDecoder) (hpa : Nat) : Nat :=
  let off := hpa - d.hpaBase
  d.dpaBase + off / (d.granularity * d.ways) * d.granularity + off % d.granularity

/-- How many lines of a region the snoop filter shows as held (R508). -/
def regionHeld (s : State) (r : Region) : Nat :=
  (s.host.snoop.filter fun e => dpaOfAddr r.base ≤ e.1 && e.1 < dpaOfAddr r.base + r.size).length

/-- The device physical address of a host physical address under a committed decoder. -/
def decodeHpa (s : State) (hpa : Nat) : Option Nat :=
  (s.host.decoders.find? fun e => e.2.committed && e.2.hpaBase ≤ hpa && hpa < e.2.hpaBase + e.2.size).map fun e => hdmDpa e.2 hpa

/-- Serve a host read of a decoded line: it waits for a back-invalidation of the line, or for the eviction of the least
recently allocated entry of a full set (R504, R509). -/
def hostRead (s : State) (hpa dpa : Nat) (exclusive : Bool) : State :=
  let line := addrOfDpa dpa / 64
  let key := dpa / 64 * 64
  let w := BiWaiter.hostRead hpa exclusive
  if s.host.biPending.any (·.dpa = key) then backInvalidate s key w
  else if (hostHolds s key).isSome then serveRead (snoopEnter s key exclusive) (.host hpa) line 0
  else
    let mine := s.host.snoop.filter fun e => snoopSet e.1 = snoopSet key
    match mine.head? with
    | some old =>
      if 16 ≤ mine.length then backInvalidate s old.1 w
      else serveRead (snoopEnter s key exclusive) (.host hpa) line 0
    | none => serveRead (snoopEnter s key exclusive) (.host hpa) line 0

/-- Rewrite a line with its stored data and its poison flag set, once the write window allows it (R236, R522). -/
def injectLine (s : State) (line : Nat) : State :=
  match kittyGet s line with
  | some c => kittySet s line (some { c with poison := 0xFFFF, dirty := true })
  | none =>
    let n := lineStack line
    if (getStack s n).writeHold then holdWrite s n (.inject line)
    else
      let s := admitWaiting ((wcbEntry (getStack s n) line).elim s fun e => drainEntry s e 0) n
      if underRepair s line then s
      else
        let p := linePlace s line
        clearUnrepaired (unrefuse (writeLine s p (readRaw s p).data true) line) line

/-- Eight free values as a line. -/
def freeLine (s : State) : Line × State :=
  let vs := (List.range 8).map fun i => (Config.freeValue (s.freeNext + i)).toNat * 2 ^ (64 * i)
  (BitVec.ofNat 512 vs.sum, { s with freeNext := s.freeNext + 8 })

/-- Answer a host read with poison; the data is not specified (R506). -/
def poisonedReply (s : State) (hpa : Nat) : State :=
  let f := freeLine s
  toHost f.2 (.memRsp hpa f.1 true)

/-- What a waiting access does once its back-invalidation is complete. A script's operation start and an access of a core
come again. -/
def runWaiter (s : State) : BiWaiter → State
  | .core _ => s
  | .script _ _ _ => s
  | .firmware => s
  | .hostRead hpa ex =>
    match decodeHpa s hpa with
    | some d => hostRead s hpa d ex
    | none => poisonedReply s hpa
  | .write e => answerSender (chargedWrite s e) e.sender
  | .poison d none => injectLine s (addrOfDpa d / 64)
  | .poison d (some data) =>
    outsideWrite s { line := addrOfDpa d / 64, data := data, mask := fullMask, poison := 0, sender := .none }

/-- A back-invalidation completes: the entry goes and the waiting accesses proceed (R510). -/
def completeBi (s : State) (dpa : Nat) : State :=
  match s.host.biPending.find? (·.dpa = dpa) with
  | none => s
  | some b =>
    let s := modHost s fun h =>
      let rest := h.biPending.filter (·.dpa ≠ dpa)
      { h with biPending := rest, snoop := h.snoop.filter fun e => e.1 ≠ dpa, leaving := if rest.isEmpty then [] else h.leaving }
    let s := wakeCores s (.hostCopy (addrOfDpa dpa / 64))
    b.waiters.foldl (fun s w => runWaiter s w) s

/-- Whether a host write to a line waits to be accepted. -/
def hostWriteWaits (s : State) (line : Nat) : Bool :=
  let isHost (e : WcbEntry) : Bool := e.line = line && (match e.sender with | .host _ => true | _ => false)
  let k := getStack s (lineStack line)
  (k.queue.any fun a => match a with | .write e => isHost e | _ => false) ||
    (s.regWait.any fun w => match w.2.2 with | .lineWrite e => isHost e | _ => false) || (k.repairs ++ k.repairQueue).any fun r => r.writes.any isHost

/-- BIRspI has arrived: the back-invalidation completes once no earlier host write to the line waits (R510). -/
def answerBi (s : State) (dpa : Nat) : State :=
  if hostWriteWaits s (addrOfDpa dpa / 64) then
    modHost s fun h => { h with biPending := updFirst (·.dpa = dpa) (fun e => { e with answered := true }) h.biPending }
  else completeBi s dpa

/-- Complete the answered back-invalidations whose host writes have been accepted. -/
def settleBi (s : State) : State :=
  (s.host.biPending.filter (·.answered)).foldl (fun s e => answerBi s e.dpa) s

end Sys2Proof.Machine
end

