-- ==== Sys2Proof/Machine/Crypto.lean ====
section
/-! DEFINITION. SHA-384, HMAC, HKDF and ECDSA P-384 verification, which the deck loader and the security functions use
(R64, R66, R596, R599, R601, R609). The algorithms are FIPS 180-4, RFC 2104, RFC 5869 and FIPS 186-5. -/

namespace Sys2Proof.Machine

/-! ### SHA-384 -/

/-- Round constants 0 to 15 of SHA-384 (FIPS 180-4). -/
def shaK0 : List W64 :=
  [0x428A2F98D728AE22, 0x7137449123EF65CD, 0xB5C0FBCFEC4D3B2F, 0xE9B5DBA58189DBBC,
   0x3956C25BF348B538, 0x59F111F1B605D019, 0x923F82A4AF194F9B, 0xAB1C5ED5DA6D8118,
   0xD807AA98A3030242, 0x12835B0145706FBE, 0x243185BE4EE4B28C, 0x550C7DC3D5FFB4E2,
   0x72BE5D74F27B896F, 0x80DEB1FE3B1696B1, 0x9BDC06A725C71235, 0xC19BF174CF692694]

/-- Round constants 16 to 31 of SHA-384 (FIPS 180-4). -/
def shaK1 : List W64 :=
  [0xE49B69C19EF14AD2, 0xEFBE4786384F25E3, 0x0FC19DC68B8CD5B5, 0x240CA1CC77AC9C65,
   0x2DE92C6F592B0275, 0x4A7484AA6EA6E483, 0x5CB0A9DCBD41FBD4, 0x76F988DA831153B5,
   0x983E5152EE66DFAB, 0xA831C66D2DB43210, 0xB00327C898FB213F, 0xBF597FC7BEEF0EE4,
   0xC6E00BF33DA88FC2, 0xD5A79147930AA725, 0x06CA6351E003826F, 0x142929670A0E6E70]

/-- Round constants 32 to 47 of SHA-384 (FIPS 180-4). -/
def shaK2 : List W64 :=
  [0x27B70A8546D22FFC, 0x2E1B21385C26C926, 0x4D2C6DFC5AC42AED, 0x53380D139D95B3DF,
   0x650A73548BAF63DE, 0x766A0ABB3C77B2A8, 0x81C2C92E47EDAEE6, 0x92722C851482353B,
   0xA2BFE8A14CF10364, 0xA81A664BBC423001, 0xC24B8B70D0F89791, 0xC76C51A30654BE30,
   0xD192E819D6EF5218, 0xD69906245565A910, 0xF40E35855771202A, 0x106AA07032BBD1B8]

/-- Round constants 48 to 63 of SHA-384 (FIPS 180-4). -/
def shaK3 : List W64 :=
  [0x19A4C116B8D2D0C8, 0x1E376C085141AB53, 0x2748774CDF8EEB99, 0x34B0BCB5E19B48A8,
   0x391C0CB3C5C95A63, 0x4ED8AA4AE3418ACB, 0x5B9CCA4F7763E373, 0x682E6FF3D6B2B8A3,
   0x748F82EE5DEFB2FC, 0x78A5636F43172F60, 0x84C87814A1F0AB72, 0x8CC702081A6439EC,
   0x90BEFFFA23631E28, 0xA4506CEBDE82BDE9, 0xBEF9A3F7B2C67915, 0xC67178F2E372532B]

/-- Round constants 64 to 79 of SHA-384 (FIPS 180-4). -/
def shaK4 : List W64 :=
  [0xCA273ECEEA26619C, 0xD186B8C721C0C207, 0xEADA7DD6CDE0EB1E, 0xF57D4F7FEE6ED178,
   0x06F067AA72176FBA, 0x0A637DC5A2C898A6, 0x113F9804BEF90DAE, 0x1B710B35131C471B,
   0x28DB77F523047D84, 0x32CAAB7B40C72493, 0x3C9EBE0A15C9BEBC, 0x431D67C49C100D4C,
   0x4CC5D4BECB3E42B6, 0x597F299CFC657E2A, 0x5FCB6FAB3AD6FAEC, 0x6C44198C4A475817]

/-- The 80 round constants. -/
def shaK : List W64 := shaK0 ++ shaK1 ++ shaK2 ++ shaK3 ++ shaK4

/-- The initial hash value. -/
def sha384Init : List W64 :=
  [0xCBBB9D5DC1059ED8, 0x629A292A367CD507, 0x9159015A3070DD17, 0x152FECD8F70E5939,
   0x67332667FFC00B31, 0x8EB44A8768581511, 0xDB0C2E0D64F98FA7, 0x47B5481DBEFA4FA4]

/-- Word `i` of a list of words. -/
def wordAt (l : List W64) (i : Nat) : W64 := (l[i]?).getD 0

/-- Rotate right. -/
def rotr (x : W64) (n : Nat) : W64 := (x >>> n) ||| (x <<< (64 - n))

/-- One new word of the message schedule, kept newest first. -/
def shaSched (w : List W64) : W64 :=
  let a := wordAt w 1
  let b := wordAt w 14
  let s1 := rotr a 19 ^^^ rotr a 61 ^^^ (a >>> 6)
  let s0 := rotr b 1 ^^^ rotr b 8 ^^^ (b >>> 7)
  s1 + wordAt w 6 + s0 + wordAt w 15

/-- Extend a reversed schedule by `n` words. -/
def shaExtend : Nat → List W64 → List W64
  | 0, w => w
  | n + 1, w => shaExtend n (shaSched w :: w)

/-- One round on the eight working words. -/
def shaRound (v : List W64) (kw : W64) : List W64 :=
  match v with
  | [a, b, c, d, e, f, g, h] =>
    let s1 := rotr e 14 ^^^ rotr e 18 ^^^ rotr e 41
    let ch := (e &&& f) ^^^ (~~~ e &&& g)
    let t1 := h + s1 + ch + kw
    let s0 := rotr a 28 ^^^ rotr a 34 ^^^ rotr a 39
    let maj := (a &&& b) ^^^ (a &&& c) ^^^ (b &&& c)
    [t1 + s0 + maj, a, b, c, d + t1, e, f, g]
  | _ => v

/-- One 128-byte block. -/
def shaBlock (h : List W64) (bs : List Byte) : List W64 :=
  let w0 := (List.range 16).map fun i => BitVec.ofNat 64 (beNat ((bs.drop (8 * i)).take 8))
  let w := (shaExtend 64 w0.reverse).reverse
  let v := (shaK.zip w).foldl (fun v e => shaRound v (e.1 + e.2)) h
  (h.zip v).map fun e => e.1 + e.2

/-- The blocks of a padded message, `n` of them. -/
def shaBlocks : Nat → List W64 → List Byte → List W64
  | 0, h, _ => h
  | n + 1, h, bs => shaBlocks n (shaBlock h (bs.take 128)) (bs.drop 128)

/-- SHA-384 of a byte string, as 48 bytes. -/
def sha384 (bs : List Byte) : List Byte :=
  let pad := (128 - (bs.length + 17) % 128) % 128
  let m := bs ++ [0x80] ++ List.replicate pad 0 ++ beBytes 16 (8 * bs.length)
  ((shaBlocks (m.length / 128) sha384Init m).take 6).flatMap fun w => beBytes 8 w.toNat

/-- A 48-byte digest as one value, first byte most significant. -/
def digestOf (bs : List Byte) : BitVec 384 := BitVec.ofNat 384 (beNat bs)

/-- The SHA-384 value of a byte string. -/
def hash384 (bs : List Byte) : BitVec 384 := digestOf (sha384 bs)

/-- The 48 bytes of a digest value. -/
def digestBytes (d : BitVec 384) : List Byte := beBytes 48 d.toNat

/-! ### HMAC and HKDF -/

/-- HMAC-SHA-384 (RFC 2104) for a key of at most 128 bytes. -/
def hmac384 (key msg : List Byte) : List Byte :=
  let k := key ++ List.replicate (128 - key.length) 0
  sha384 (k.map (· ^^^ 0x5C) ++ sha384 (k.map (· ^^^ 0x36) ++ msg))

/-- HKDF-SHA-384 with an empty salt, for an output of at most 96 bytes (R599). -/
def hkdf384 (ikm info : List Byte) (n : Nat) : List Byte :=
  let prk := hmac384 (List.replicate 48 0) ikm
  let t1 := hmac384 prk (info ++ [1])
  (t1 ++ hmac384 prk (t1 ++ info ++ [2])).take n

/-! ### ECDSA P-384 -/

/-- The field prime. -/
def ecP : Nat := 2 ^ 384 - 2 ^ 128 - 2 ^ 96 + 2 ^ 32 - 1
/-- The curve's coefficient b. -/
def ecB : Nat := 0xB3312FA7E23EE7E4988E056BE3F82D19181D9C6EFE8141120314088F5013875AC656398D8A2ED19D2A85C8EDD3EC2AEF
/-- The order of the generator. -/
def ecN : Nat := 0xFFFFFFFFFFFFFFFFFFFFFFFFFFFFFFFFFFFFFFFFFFFFFFFFC7634D81F4372DDF581A0DB248B0A77AECEC196ACCC52973
/-- The generator's coordinates. -/
def ecGx : Nat := 0xAA87CA22BE8B05378EB1C71EF320AD746E1D3B628BA79B9859F741E082542A385502F25DBF55296C3A545E3872760AB7
def ecGy : Nat := 0x3617DE4A96262C6F5D9E98BF9292DC29F8F41DBD289A147CE9DA3113B5F0B8C00A60B1CE1D7E819D7A431D7C90EA0E5F

/-- A point in Jacobian coordinates; z = 0 is the point at infinity. -/
structure EcPoint where
  x : Nat
  y : Nat
  z : Nat
  deriving DecidableEq, Repr

/-- Difference in the field. -/
def ecSub (a b : Nat) : Nat := (a + ecP - b % ecP) % ecP

/-- Doubling, for a = −3. -/
def ecDouble (p : EcPoint) : EcPoint :=
  if p.z = 0 then p
  else
    let zz := p.z * p.z % ecP
    let m := 3 * (ecSub p.x zz * ((p.x + zz) % ecP) % ecP) % ecP
    let yy := p.y * p.y % ecP
    let s := 4 * p.x * yy % ecP
    let x := ecSub (m * m % ecP) (2 * s)
    let y := ecSub (m * ecSub s x % ecP) (8 * (yy * yy % ecP))
    { x := x, y := y, z := 2 * p.y * p.z % ecP }

/-- Addition. -/
def ecAdd (p q : EcPoint) : EcPoint :=
  if p.z = 0 then q
  else if q.z = 0 then p
  else
    let z1 := p.z * p.z % ecP
    let z2 := q.z * q.z % ecP
    let u1 := p.x * z2 % ecP
    let u2 := q.x * z1 % ecP
    let s1 := p.y * q.z % ecP * z2 % ecP
    let s2 := q.y * p.z % ecP * z1 % ecP
    let h := ecSub u2 u1
    let r := ecSub s2 s1
    if h = 0 then (if r = 0 then ecDouble p else { x := 1, y := 1, z := 0 })
    else
      let hh := h * h % ecP
      let hhh := h * hh % ecP
      let v := u1 * hh % ecP
      let x := ecSub (ecSub (r * r % ecP) hhh) (2 * v)
      { x := x, y := ecSub (r * ecSub v x % ecP) (s1 * hhh), z := p.z * q.z % ecP * h % ecP }

/-- Scalar multiple by the `n` low bits of `k`. -/
def ecMul (p : EcPoint) (k : Nat) : Nat → EcPoint
  | 0 => { x := 1, y := 1, z := 0 }
  | n + 1 =>
    let q := ecDouble (ecMul p (k / 2) n)
    if k % 2 = 1 then ecAdd q p else q

/-- Modular power by the `n` low bits of the exponent. -/
def powMod (b e m : Nat) : Nat → Nat
  | 0 => 1 % m
  | n + 1 =>
    let h := powMod b (e / 2) m n
    if e % 2 = 1 then h * h % m * b % m else h * h % m

/-- Inverse modulo a prime of at most 384 bits. -/
def invMod (a m : Nat) : Nat := powMod a (m - 2) m 384

/-- ECDSA P-384 verification of a message hash: R and S in range, the key on the curve, and the equation. -/
def ecdsaVerify (hash r s kx ky : Nat) : Bool :=
  let onCurve := kx < ecP && ky < ecP && ky * ky % ecP = (kx * kx % ecP * kx + (ecP - 3) * kx + ecB) % ecP
  if !(0 < r && r < ecN && 0 < s && s < ecN && onCurve) then false
  else
    let w := invMod s ecN
    let g : EcPoint := { x := ecGx, y := ecGy, z := 1 }
    let q : EcPoint := { x := kx, y := ky, z := 1 }
    let t := ecAdd (ecMul g (hash * w % ecN) 384) (ecMul q (r * w % ecN) 384)
    if t.z = 0 then false
    else
      let zi := invMod t.z ecP
      t.x * (zi * zi % ecP) % ecP % ecN = r

end Sys2Proof.Machine
end

