-- ==== Sys2Proof/Machine/Cache.lean ====
section
/-! DEFINITION. Memory as the control firmware reads and writes it, and the key-value cache's bookkeeping: page pools,
allocation, keys, headers, the prefix tree, spilled pages (chapter 14). A page in the slow tier is numbered
`2^24 × (1 + table) + spill slot`, so that its old page number can be used again. -/

namespace Sys2Proof.Machine

/-! ### Memory as the control firmware sees it (R329, R330) -/

/-- A line as every write that has been accepted leaves it, where some are still on their way: the writes that wait to cross the stack
interface and those that wait at the controller, over a line (R329, R333). -/
def overWaiting (s : State) (line : Nat) (v : Line × BitVec 16) : Line × BitVec 16 :=
  let es := (getStack s (lineStack line)).queue.filterMap (fun a => match a with | .write e => some e | _ => none) ++
    s.regWait.filterMap fun w => match w.2.2 with | .lineWrite e => some e | _ => none
  (es.filter (·.line = line)).foldl (fun (v : Line × BitVec 16) e =>
    let c := overlay { data := v.1, poison := v.2, dirty := false } e.data e.mask e.poison false
    (c.data, c.poison)) v

/-- A line at its controller for the firmware: a full entry; a partial one merged, without its drain where something holds that; a free
value where a row operation that stores the row is in progress, whose result the read would wait for (R227, R288, R289). -/
def fwCtlRead (s : State) (line : Nat) : State × Line × BitVec 16 :=
  let p := linePlace s line
  let k := getStack s p.stack
  let under := k.runs.any fun r => r.banks.any fun b =>
    b.bank = p.bank && b.inRow && !b.ended && (nextStep r b).any fun st => st.writes && st.row = p.row
  let full := (wcbEntry k line).any fun e => e.mask = fullMask
  if under && !full then
    let f := freeLine s
    (f.2, f.1, 0)
  else
    let r :=
      match wcbEntry k line with
      | some e =>
        if full || !readBlocked s line then ctlRead s .firmware line 0
        else
          let r := readTested s line 0 0 .firmware
          (r.1, r.2.map fun (v : Line × Bool) => (mergeLine v.1 e.data e.mask, v.2 || e.poison ≠ 0))
      | none => ctlRead s .firmware line 0
    match r.2 with
    | some v => (r.1, v.1, poisonAll v.2)
    | none => (r.1, 0, 0xFFFF)

/-- Read one line: its data and the poison of its words. The waits of a firmware read are time alone (log 167): it is charged and goes
on, and returns what the line holds once every write before it has been accepted (R329, R652). -/
def fwReadLine (s : State) (line : Nat) : State × Line × BitVec 16 :=
  match kittyGet s line with
  | some c => (s, c.data, c.poison)
  | none =>
    let r := fwCtlRead (chargeLine s line) line
    (r.1, overWaiting r.1 line r.2)

/-- Read lines in order. -/
def fwReadLines (s : State) : List Nat → State × List (Nat × Line × BitVec 16)
  | [] => (s, [])
  | l :: r =>
    let a := fwReadLine s l
    let b := fwReadLines a.1 r
    (b.1, (l, a.2) :: b.2)

/-- Read `n` bytes, each with its word's poison. -/
def fwRead (s : State) (a n : Nat) : State × List (Byte × Bool) :=
  let r := fwReadLines s (spanLines a n)
  (r.1, (rangeFrom a n).map fun x =>
    match r.2.find? fun e => e.1 = x / 64 with
    | some e => (lineByte e.2.1 (x % 64), bitOf e.2.2.toNat (x % 64 / 4))
    | none => (0, true))

/-- Read one 32-bit word and its poison. -/
def fwRead32 (s : State) (a : Nat) : State × W32 × Bool :=
  let r := fwRead s a 4
  (r.1, BitVec.ofNat 32 (bytesVal r.2), r.2.any (·.2))

/-- Write bytes. -/
def fwWrite (s : State) (a : Nat) (bs : List Byte) : State :=
  if bs = [] then s
  else (spanLines a bs.length).foldl (fun s l => fwWriteLine s (fwLineEntry a bs l)) s

/-- Write bytes for a sender, who is answered once they are performed. -/
def fwWriteAs (s : State) (w : Sender) (a : Nat) (bs : List Byte) : State :=
  if bs = [] then s
  else (spanLines a bs.length).foldl (fun s l => fwWriteLine s { fwLineEntry a bs l with sender := w }) s

/-! ### Pages (R456 to R462) -/

/-- Device address of the first byte of a page. -/
def pageAddr (p : Nat) : Nat := p * 2 ^ 15
/-- Device address of byte `o` of a page (R456). -/
def pageByte (p o : Nat) : Nat := o % 32768 + o / 32768 * 2 ^ 20 + pageAddr p
/-- Memory channel of a page (Table 14.1). -/
def pageChan (p : Nat) : Nat := p % 32
/-- The bank slot and stack of a page. -/
def pageSlot (p : Nat) : Nat × Nat := (p / 2 ^ 21, p / 32 % 2 ^ 16 / 1536)
/-- The number of a page that is in a spill slot. -/
def spillNumber (table slot : Nat) : Nat := 2 ^ 24 * (1 + table) + slot
/-- Whether a region is one of a table's page pools (R461). -/
def isPool (t : Nat) (r : Region) : Bool := r.owner = t && r.banked && r.cls = .recompute && r.scriptTarget

/-- A table's page pools in the running deck. -/
def poolsOf (s : State) (t : Nat) : List Region := ((deckOf s).map fun d => d.regions.filter (isPool t)).getD []

/-- Whether a page number lies in a table's pools. -/
def inPool (s : State) (t p : Nat) : Bool :=
  p % 64 < 32 && (poolsOf s t).any fun r => r.base ≤ pageAddr p && pageAddr p < r.base + r.size

/-- Whether a page is free: nothing is recorded of it. -/
def pageFree (s : State) (p : Nat) : Bool := getPage s p = Page.free

/-- The first number from `i` on, of `n`, that satisfies a test. -/
def searchFrom (p : Nat → Bool) : Nat → Nat → Option Nat
  | 0, _ => none
  | n + 1, i => if p i then some i else searchFrom p n (i + 1)

/-- The lowest frame of a table's pools that satisfies a test; frames are numbered by page number / 64. -/
def findFrame (s : State) (t : Nat) (p : Nat → Bool) : Option Nat :=
  ((poolsOf s t).filterMap fun r => searchFrom p (r.size / 2 ^ 21) (r.base / 2 ^ 21)).min?

/-- Pages that a table has in one memory channel. -/
def poolPages (s : State) (t : Nat) : Nat := ((poolsOf s t).map fun r => r.size / 2 ^ 21).sum

/-- Pages of a table and a channel that are not free. -/
def usedPages (s : State) (t chan : Nat) : Nat :=
  (s.cache.pages.filter fun e => inMemory e.1 && e.2.table = t && pageChan e.1 = chan).length

/-- Whether some pin holds a page (R473). -/
def isPinned (s : State) (p : Nat) : Bool := s.cache.pins.any fun e => e.2.used && e.2.pages.contains p

/-- The sessions whose page lists hold a page. -/
def holders (s : State) (p : Nat) : List Nat := (s.sessions.filter fun e => e.2.pages.contains p).map (·.1)

/-- Rename a page in every page list, pin and parent pointer. -/
def renamePage (s : State) (a b : Nat) : State :=
  let sub (p : Nat) : Nat := if p = a then b else p
  let pg := getPage s a
  let s := setPage (setPage s a Page.free) b pg
  { s with sessions := s.sessions.map fun e => (e.1, { e.2 with pages := e.2.pages.map sub }),
           cache := { s.cache with
             pages := s.cache.pages.map fun e => (e.1, { e.2 with parent := e.2.parent.map sub }),
             pins := s.cache.pins.map fun e => (e.1, { e.2 with pages := e.2.pages.map sub }) } }

/-- Give back a table's spill slot. -/
def freeSpill (s : State) (table slot : Nat) : State :=
  { s with cache := { s.cache with spillUsed := s.cache.spillUsed.filter (· ≠ (table, slot)) } }

/-- Head a bucket's chain with a node, or leave it empty. -/
def setBucket (s : State) (bucket : Nat) (head : Option Nat) : State :=
  { s with cache := { s.cache with
      buckets := s.cache.buckets.filter (fun e => e.1 ≠ bucket) ++ (head.map fun n => (bucket, n)).toList } }

/-- The bucket of a key: bits 21:0. -/
def bucketOf (key : W64) : Nat := key.toNat % 2 ^ 22

/-- Take a page's node out of its bucket's chain; the page is private then, and no node follows it (R467, R468). -/
def leaveTree (s : State) (p : Nat) : State :=
  let g := getPage s p
  if !g.shared then s
  else
    let s :=
      if bucketHead s (bucketOf g.key) = some g.node then setBucket s (bucketOf g.key) g.next
      else
        match s.cache.pages.find? fun e => e.2.shared && e.2.next = some g.node with
        | some e => modPage s e.1 fun x => { x with next := g.next }
        | none => s
    modPage s p fun x => { x with shared := false, refs := 0, parent := none, node := 0, next := none }

/-- Free a page with its node, or the spill slot it lies in. A page whose line is poisoned does not enter its free list; its record keeps
the last round before (R464, R471). -/
def freePage (s : State) (p : Nat) : State :=
  let pg := getPage s p
  let s :=
    match pg.spill with
    | some n => freeSpill s pg.table n
    | none => s
  setPage (leaveTree s p) p
    (if inMemory p && pg.state = .recomputing then { Page.free with table := pg.table, dirtyFree := true, last := s.lastRound }
     else Page.free)

/-- Lower REFS of a shared page, or free a private one (R471). -/
def dropPage (s : State) (p : Nat) : State :=
  let pg := getPage s p
  if pg.shared then setPage s p { pg with refs := pg.refs - 1 }
  else if (holders s p).isEmpty && !isPinned s p then freePage s p
  else s

/-- Empty a session's page list (R471). -/
def dropSessionPages (s : State) (slot : Nat) : State :=
  let ps := (getSess s slot).pages
  ps.foldl dropPage (modSess s slot fun c => { c with pages := [] })

/-! ### Reclaim and allocation (R463, R471) -/

/-- The page with the smallest LAST of some. -/
def oldest : List (Nat × Page) → Option Nat
  | [] => none
  | e :: r =>
    match oldest r with
    | none => some e.1
    | some p =>
      match r.find? fun x => x.1 = p with
      | some q => if q.2.last.toNat < e.2.last.toNat then some p else some e.1
      | none => some e.1

/-- The cached pages of a table: shared, held by nothing, resident and not pinned. -/
def cachedPages (s : State) (t : Nat) : List (Nat × Page) :=
  s.cache.pages.filter fun e =>
    inMemory e.1 && e.2.table = t && e.2.shared && e.2.refs = 0 && e.2.state = .resident && !isPinned s e.1

/-- The cached pages of every table, those in the slow tier among them. -/
def cachedNodes (s : State) : List (Nat × Page) :=
  s.cache.pages.filter fun e =>
    e.2.shared && e.2.refs = 0 && (e.2.state = .resident || e.2.state = .spilled) && !isPinned s e.1

/-- Reclaim the cached page of a channel with the smallest LAST. -/
def reclaim (s : State) (t chan : Nat) : Option State :=
  (oldest ((cachedPages s t).filter fun e => pageChan e.1 = chan)).map (freePage s)

/-- What an allocation answers: a page, a wait for a spill in progress, or no page. -/
inductive Alloc where
  | page (p : Nat)
  | spilling
  | none
  deriving DecidableEq, Repr

/-- The lowest spill slot of a table that is not in use. -/
def freeSlot (s : State) (t : Nat) : Option Nat :=
  match (getTable s t).spillWindow with
  | none => none
  | some (_, _, slots) => searchFrom (fun n => !s.cache.spillUsed.contains (t, n)) (min slots (s.cache.spillUsed.length + 1)) 0

/-- Full pages that may be spilled: private or cached, resident, not pinned, not used in the last 64 rounds (R479). -/
def spillable (s : State) (t : Nat) : List (Nat × Page) :=
  s.cache.pages.filter fun e =>
    inMemory e.1 && e.2.table = t && e.2.tokens.length = 32 && e.2.state = .resident && !isPinned s e.1 &&
      (!e.2.shared || e.2.refs = 0) && 64 ≤ (s.lastRound - e.2.last).toNat

/-- A free page of a table for position 32 × k of a session whose last page is `prev` (R463). -/
def pickPage (s : State) (t : Nat) (prev : Option Nat) (k : Nat) : Option Nat :=
  let chan := k % 32
  let near :=
    match prev with
    | some p => if chan ≠ 0 && inMemory p && inPool s t (64 * (p / 64) + chan) && pageFree s (64 * (p / 64) + chan)
                then some (64 * (p / 64) + chan) else none
    | none => none
  let fresh :=
    if chan = 0 then
      (findFrame s t fun f =>
        ((List.range 32).all fun c => pageFree s (64 * f + c)) &&
          (match prev with | some p => pageSlot (64 * f) ≠ pageSlot p | none => true)).map (64 * ·)
    else none
  match near, fresh with
  | some p, _ => some p
  | none, some p => some p
  | none, none => (findFrame s t fun f => pageFree s (64 * f + chan)).map fun f => 64 * f + chan

/-- The record of a newly allocated page. -/
def newPage (s : State) (t : Nat) (first : Nat) : Page :=
  { Page.free with state := .resident, table := t, last := s.lastRound, first := w32 first }

/-- Allocate the page for position 32 × k (R463). -/
def allocPage (s : State) (t : Nat) (prev : Option Nat) (k : Nat) : State × Alloc :=
  match pickPage s t prev k with
  | some p => (setPage s p (newPage s t (32 * k)), .page p)
  | none =>
    match reclaim s t (k % 32) with
    | some s' =>
      match pickPage s' t prev k with
      | some p => (setPage s' p (newPage s' t (32 * k)), .page p)
      | none => (s', .none)
    | none =>
      let waits := s.cache.pages.any fun e => inMemory e.1 && e.2.table = t && e.2.state = .spilling && pageChan e.1 = k % 32
      let can := (spillable s t).any fun e => pageChan e.1 = k % 32
      (s, if waits || (can && (freeSlot s t).isSome) then .spilling else .none)

/-! ### Keys and headers (R460, R465, R466) -/

/-- The key of a page (R465). -/
def pageKey (parent : W64) (tokens : List W32) : W64 :=
  crc64 (leBytes 8 parent.toNat ++ tokens.flatMap fun t => leBytes 4 t.toNat)

/-- The 1,024 bytes of a header row (Table 14.3). -/
def headerBytes (key parent : W64) (first table origin : Nat) (tokens : List W32) : List Byte :=
  let toks := (tokens.flatMap fun t => leBytes 4 t.toNat) ++ List.replicate (128 - 4 * tokens.length) 0
  leBytes 8 key.toNat ++ leBytes 8 parent.toNat ++ leBytes 4 first ++ leBytes 1 1 ++ leBytes 1 table ++ leBytes 1 origin ++
    List.replicate 41 0 ++ toks ++ List.replicate 320 0 ++ toks ++ List.replicate 384 0

/-- Address of a page's header row. -/
def headerAddr (p : Nat) : Nat := pageByte p 64512

/-- Write a page's header row (R460). -/
def writeHeader (s : State) (p : Nat) (key parent : W64) (first table origin : Nat) (tokens : List W32) : State :=
  fwWrite s (headerAddr p) (headerBytes key parent first table origin tokens)

/-- The 32 tokens of bytes, where none is poisoned. -/
def tokensOf (bs : List (Byte × Bool)) : Option (List W32) :=
  if bs.any (·.2) then none
  else some ((List.range 32).map fun i => BitVec.ofNat 32 (bytesVal ((bs.drop (4 * i)).take 4)))

/-- What a read of TOKENS_A or TOKENS_B gives. -/
def headerWords (b : State × List (Byte × Bool)) : State × Option (List W32) := (b.1, tokensOf b.2)

/-- The tokens of a page's header row once TOKENS_A is read, which was `a`: those, or TOKENS_B where a line of TOKENS_A does
not pass (R487). -/
def headerFirst (a : State × List (Byte × Bool)) (second : Nat) : State × Option (List W32) :=
  match tokensOf a.2 with
  | some t => (a.1, some t)
  | none => headerWords (fwRead a.1 second 128)

/-- The tokens of a page's header row: TOKENS_A, or TOKENS_B (R487). -/
def headerTokens (s : State) (p : Nat) : State × Option (List W32) :=
  headerFirst (fwRead s (64 + headerAddr p) 128) (512 + headerAddr p)

/-- The tokens that a node's page holds: of its header row, or as recorded while the page is in the slow tier. -/
def nodeTokens (s : State) (p : Nat) : State × Option (List W32) :=
  if inMemory p then headerTokens s p else (s, some (getPage s p).tokens)

/-! ### The prefix tree (R466 to R469, R472) -/

/-- The nodes of a chain, from one on; the count limits it. -/
def chainNodes (s : State) : Nat → Option Nat → List (Nat × Page)
  | 0, _ => []
  | _ + 1, none => []
  | n + 1, some i =>
    match nodePage s i with
    | none => []
    | some e => e :: chainNodes s n e.2.next

/-- The nodes of a key's bucket in chain order. -/
def bucketChain (s : State) (key : W64) : List (Nat × Page) := chainNodes s s.cache.pages.length (bucketHead s (bucketOf key))

/-- The first node of a key's bucket with that key, a table and a parent: its page (R466, R469). -/
def findNode (s : State) (key : W64) (t : Nat) (parent : Option Nat) : Option Nat :=
  ((bucketChain s key).find? fun e => e.2.key = key && e.2.table = t && e.2.parent = parent).map (·.1)

/-- Nodes in use. -/
def nodeCount (s : State) : Nat := (s.cache.pages.filter fun e => e.2.shared).length

/-- The lowest node index that is not in use. -/
def freeNode (s : State) : Nat := (searchFrom (fun i => (nodePage s i).isNone) (nodeCount s + 1) 0).getD 0

/-- Give a page a node: it heads the chain of its key's bucket (R467; DESIGN CHOICE, log 84: the manual orders no chain). -/
def addNode (s : State) (p : Nat) (parent : Option Nat) (refs : Nat) : State :=
  let g := getPage s p
  let n := freeNode s
  let s := setPage s p { g with shared := true, node := n, next := bucketHead s (bucketOf g.key), parent := parent, refs := refs }
  setBucket s (bucketOf g.key) (some n)

/-- Log SRV_TREE_FULL at most once per local second (R468). -/
def logTreeFull (s : State) (t : Nat) : State :=
  let sec := s.meter.toNat / 100000000
  if s.cache.treeFullAt = some sec then s
  else logGen { s with cache := { s.cache with treeFullAt := some sec } } evSrvTreeFull uCtl (some t) [w32 t] []

/-- Give a page a node where one is free; a full tree first gives up the cached page of smallest LAST, whatever its table (R468, R471). -/
def roomNode (s : State) (p : Nat) (parent : Option Nat) (refs : Nat) : State :=
  if nodeCount s < 4194304 then addNode s p parent refs
  else
    match oldest (cachedNodes s) with
    | some q => addNode (freePage s q) p parent refs
    | none => logTreeFull s (getPage s p).table

/-- The node of a page, or none where it has none (R469). -/
def parentNode (s : State) (prev : Option Nat) : Option Nat := prev.filter fun p => (getPage s p).shared

/-- Enter REBUILDING: every node goes, pages in lists become private, cached pages are freed. Causes: 0 power-up, 1 successor, 2 poison, 3
flush (R472). -/
def startRebuild (s : State) (cause : Nat) (tables : Nat → Bool) : State :=
  let ns := (s.cache.pages.filter fun e => e.2.shared && tables e.2.table).map (·.1)
  let s := ns.foldl (fun s p =>
    let s := leaveTree s p
    if (holders s p).isEmpty && !isPinned s p then freePage s p else s) s
  let s := { s with cache := { s.cache with rebuilding := true, scanNext := 0, entered := 0 } }
  logGen s evSrvTreeRebuild uCtl none [w32 cause] []

/-- The line of a node in the module area. -/
def nodeLine (s : State) (node : Nat) : Option Nat := (areaBase s).map fun b => (b + sessionTableBytes + 32 * node) / 64

/-- The line of a bucket's word in the module area. -/
def bucketLine (s : State) (bucket : Nat) : Option Nat := (areaBase s).map fun b => (b + sessionTableBytes + treeBytes + 4 * bucket) / 64

/-- The lines that the firmware reads to look a key up: of its bucket's word and of the nodes of its chain. -/
def chainLines (s : State) (key : W64) : List Nat :=
  (bucketLine s (bucketOf key)).toList ++ (bucketChain s key).filterMap fun e => nodeLine s e.2.node

/-- Lines that are read and found poisoned. -/
def badLines (s : State) (lines : List Nat) : State × List Nat :=
  let r := fwReadLines s lines
  (r.1, (r.2.filter fun e => e.2.2 ≠ 0).map (·.1))

/-- Write zeros over whole lines, which clears their poison (R226). -/
def zeroLines (s : State) (lines : List Nat) : State :=
  lines.foldl (fun s l => fwWriteLine s { line := l, data := 0, mask := fullMask, poison := 0, sender := .none }) s

/-- The tree for a lookup of a key: of use unless it is being rebuilt; a poisoned word of it starts a rebuild (R472, R652). -/
def openTree (s : State) (key : W64) : State × Bool :=
  if s.cache.rebuilding then (s, false)
  else
    let r := badLines s (chainLines s key)
    if r.2.isEmpty then (r.1, true) else (startRebuild (zeroLines r.1 r.2) 2 fun _ => true, false)

/-- Enter a full page of a session in the tree, unless a node with its key, table and parent exists (R468). -/
def enterTree (s : State) (p : Nat) (prev : Option Nat) (refs : Nat) : State :=
  let g := getPage s p
  let r := openTree s g.key
  let par := parentNode r.1 prev
  if !r.2 || (findNode r.1 g.key g.table par).isSome then r.1 else roomNode r.1 p par refs

/-- A page of a page list is full: its key is formed, its header written, and it is entered in the tree. -/
def pageFull (s : State) (p : Nat) (prev : Option Nat) (refs : Nat) : State :=
  let pg := getPage s p
  let parent : W64 := match prev with | some q => (getPage s q).key | none => 0
  let key := pageKey parent pg.tokens
  let s := setPage s p { pg with key := key, parentKey := parent }
  let s := writeHeader s p key parent pg.first.toNat pg.table pg.origin pg.tokens
  enterTree s p prev refs

/-- Add one committed token at a position of a page list. -/
def commitToken (s : State) (pages : List Nat) (pos : Nat) (decode : Bool) (refs : Nat) (tok : W32) : State :=
  match pages[pos / 32]? with
  | none => s
  | some p =>
    let pg := getPage s p
    let pg := { pg with tokens := pg.tokens ++ [tok], origin := if decode then 1 else pg.origin }
    let s := setPage s p pg
    if pg.tokens.length = 32 then
      pageFull s p (if pos / 32 = 0 then none else pages[pos / 32 - 1]?) refs
    else s

/-- Commit tokens from a position on (R458, R468). -/
def commitTokens (s : State) (pages : List Nat) (pos : Nat) (decode : Bool) (refs : Nat) : List W32 → State
  | [] => s
  | t :: r => commitTokens (commitToken s pages pos decode refs t) pages (pos + 1) decode refs r

/-- Match input tokens against the tree page by page (R469): the pages attached, the tokens left. The count limits the
pages tried. -/
def matchPrefix (s : State) (t : Nat) (prev : Option Nat) : Nat → List W32 → State × List Nat × List W32
  | 0, toks => (s, [], toks)
  | n + 1, toks =>
    if toks.length ≤ 32 then (s, [], toks)
    else
      let pkey : W64 := match prev with | some q => (getPage s q).key | none => 0
      let key := pageKey pkey (toks.take 32)
      let o := openTree s key
      let s := o.1
      match if o.2 then findNode s key t (parentNode s prev) else none with
      | none => (s, [], toks)
      | some p =>
        let h := nodeTokens s p
        if h.2 = some (toks.take 32) then
          let s := modPage h.1 p fun g => { g with refs := g.refs + 1, last := s.lastRound }
          let r := matchPrefix s t (some p) n (toks.drop 32)
          (r.1, p :: r.2.1, r.2.2)
        else if h.1.cache.collided.contains key then (h.1, [], toks)
        else
          let s := { h.1 with cache := { h.1.cache with collided := h.1.cache.collided ++ [key] } }
          (logGen s evSrvKeyCollision uCtl (some t) [w32 t] [key], [], toks)

/-! ### Sessions -/

/-- The slot of a handle that is valid on this module (R431). -/
def sessOf (s : State) (h : W64) : Option Nat :=
  let slot := h.toNat % 2 ^ 20
  let c := getSess s slot
  let t := h.toNat / 2 ^ 20 % 64
  match tableEntry s t with
  | none => none
  | some e =>
    if c.state ≠ .free && c.state ≠ .shadow && e.sessBase ≤ slot && slot < e.sessBase + e.sessCount && sessHandle s slot = h
    then some slot else none

/-- The line of a session's entry in the module area. -/
def sessionLine (s : State) (slot : Nat) : List Nat := ((areaBase s).map fun b => b / 64 + slot).toList

/-- The firmware reads a session's entry; a poisoned word of it is answered, and its line is written whole again (R652). -/
def readSession (s : State) (slot : Nat) : State × Bool :=
  let r := badLines s (sessionLine s slot)
  (zeroLines r.1 r.2, !r.2.isEmpty)

/-- The next generation of a session slot (R431). -/
def nextSessGen (g : BitVec 22) : BitVec 22 := if g + 1 = 0 then 1 else g + 1

/-- A session slot becomes free and its handle is retired; its pages go (R431, R471). -/
def retireSession (s : State) (slot : Nat) : State :=
  let s := dropSessionPages s slot
  modSess s slot fun c => { Session.free with gen := nextSessGen c.gen }

/-- Give a session input tokens (R430, R469): at a page boundary they are first matched against the tree. -/
def giveTokens (s : State) (slot : Nat) (toks : List W32) : State :=
  let c := getSess s slot
  let all := c.prompt ++ toks
  if c.position.toNat % 32 = 0 then
    let prev := if c.position.toNat = 0 then none else c.pages[c.position.toNat / 32 - 1]?
    let r := matchPrefix s c.table prev (all.length / 32) all
    modSess r.1 slot fun c =>
      { c with pages := c.pages.take (c.position.toNat / 32) ++ r.2.1, position := c.position + w32 (32 * r.2.1.length),
               prompt := r.2.2 }
  else modSess s slot fun c => { c with prompt := all }

end Sys2Proof.Machine
end

