-- ==== Sys2Proof/Machine/Channels.lean ====
section
/-! DEFINITION. Channels: handles, completion entries and rings, the ends of requests, closing (R418 to R427, R449 to R453,
R512). -/

namespace Sys2Proof.Machine

/-! ### Handles (Table 13.1, R418) -/

/-- The handle of a channel index. -/
def chanHandle (s : State) (n : Nat) : W32 :=
  let c := getChan s n
  BitVec.ofNat 32 (c.gen.toNat * 2 ^ 20 + c.table % 64 * 2 ^ 14 + n)

/-- The channel index of a valid handle. -/
def chanOf (s : State) (h : W32) : Option Nat :=
  let n := h.toNat % 2 ^ 14
  let t := h.toNat / 2 ^ 14 % 64
  let c := getChan s n
  match tableEntry s t with
  | none => none
  | some e =>
    if h ≠ 0 && e.chanBase ≤ n && n < e.chanBase + e.chanCount && c.state ≠ .free && c.gen.toNat = h.toNat / 2 ^ 20
    then some n else none

/-- The next generation of a channel index (R418). -/
def nextChanGen (g : BitVec 12) : BitVec 12 := if g + 1 = 0 then 1 else g + 1

/-! ### Messages toward the host that charge a table (Table 7.10) -/

/-- The CXL egress resource. -/
def cxlEgress : Nat := 9

/-- Send a host-directed message, charging `n` payload bytes to a table, or let it wait for the regulator. With bus
mastering clear nothing is issued (R527). -/
def hostCharged (s : State) (table n : Nat) (m : HostMsg) : State :=
  if !s.host.busMaster then s
  else if canCharge s table cxlEgress n then toHost (charge s table cxlEgress n) m
  else waitCharge s table cxlEgress n (.host m)

/-! ### Completion entries (Table 13.7, R425 to R427) -/

/-- The 32 bytes of a completion entry written at the channel's write position. -/
def completionBytes (c : Channel) (e : Completion) : List Byte :=
  let phase := if c.cqWrite.toNat / 2 ^ c.cqLog2 % 2 = 0 then 1 else 0
  let toks := e.tokens.flatMap fun t => leBytes 4 t.toNat
  leBytes 4 e.tag.toNat ++ leBytes 4 c.sqRead.toNat ++
    [BitVec.ofNat 8 e.kind, BitVec.ofNat 8 e.status, BitVec.ofNat 8 (if e.kind = 0 then e.tokens.length else 0), phase] ++
    (toks ++ List.replicate (16 - toks.length) 0).take 16 ++ leBytes 4 e.position.toNat

/-- Host address of a channel's next completion entry. -/
def completionAddr (c : Channel) : W64 := c.cqBase + w64 (32 * (c.cqWrite.toNat % 2 ^ c.cqLog2))

/-- Whether a channel may write a completion entry now. -/
def canComplete (s : State) (c : Channel) : Bool :=
  s.host.busMaster && (c.state = .opened || c.state = .closing) && (c.cqWrite - c.cqRead).toNat < 2 ^ c.cqLog2

/-- Write one completion entry. -/
def writeCompletion (s : State) (n : Nat) (e : Completion) : State :=
  let c := getChan s n
  let s := hostCharged s c.table 32 (.wrCur (completionAddr c) (completionBytes c e))
  setChan s n { c with cqWrite := c.cqWrite + 1, unsent := c.unsent ++ [e], notify := true }

/-- Write what the ring has room for of a list of entries; the rest stays in the backlog, in order (R426). -/
def writeBacklog (s : State) (n : Nat) : List Completion → State
  | [] => modChan s n fun c => { c with backlog := [] }
  | e :: r => if canComplete s (getChan s n) then writeBacklog (writeCompletion s n e) n r
              else modChan s n fun c => { c with backlog := e :: r }

/-- Change the tallies of a table. -/
def modTally (s : State) (t : Nat) (f : TableTally → TableTally) : State := setTally s t (f (getTally s t))

/-- Queue a completion entry; the producer tallies count its tokens or its final entry (R453). -/
def queueEntry (s : State) (n : Nat) (e : Completion) : State :=
  let s := modTally s (getChan s n).table fun t =>
    if e.kind = 0 then { t with tokProd := t.tokProd + w64 e.tokens.length }
    else if e.kind = 1 then { t with reqProd := t.reqProd + 1 } else t
  writeBacklog s n ((getChan s n).backlog ++ [e])

/-- Queue the final entry of a request; its tag has then ended (R428, R449). -/
def finalEntry (s : State) (n : Nat) (tag : W32) (status : Nat) (pos : W32) (tokens : List W32) : State :=
  let s := queueEntry s n { tag := tag, kind := 1, status := status, tokens := tokens, position := pos }
  modChan s n fun c => { c with doneTags := c.doneTags ++ [tag] }

/-- Send an MSI-X message, behind what waits at the regulator of a table: entries written before it arrive before it (R427). -/
def sendMsixBehind (s : State) (table v : Nat) : State :=
  if s.host.busMaster && s.regWait.any fun w => w.1 / 16 = table then waitCharge s table cxlEgress 0 (.host (.msix v)) else sendMsix s v

/-- Send at most one MSI-X message for each channel that wrote entries since its last one (R427). -/
def notifyChannels (s : State) (t : Nat) : State :=
  let ns := (s.channels.filter fun e => e.2.table = t && e.2.notify).map (·.1)
  ns.foldl (fun s n =>
    let v := (getChan s n).vector
    let s := modChan s n fun c => { c with notify := false }
    if v = 0xFFFF then s else sendMsixBehind s t v) s

/-! ### Requests that end -/

/-- End a session's running request with a status, ABORTED where an ABORT of it has been accepted; its channel is told, where it is still
there (R449). -/
def endRequest (s : State) (slot status : Nat) : State :=
  let c := getSess s slot
  let status := if c.aborting then 1 else status
  let s := modSess s slot fun c =>
    { c with phase := .none, aborting := false, left := 0, draft := [], folds := 0, shipping := false,
             state := if c.state = .running then .idle else c.state }
  match chanOf s c.reqChan with
  | some n => finalEntry s n c.tag status c.position []
  | none => s

/-- Whether a session runs a request. -/
def busySession (c : Session) : Bool := c.phase ≠ .none

/-- The sessions that run a request of a channel. -/
def busyOf (s : State) (n : Nat) : List Nat :=
  let h := chanHandle s n
  (s.sessions.filter fun e => e.2.state ≠ .free && e.2.state ≠ .shadow && e.2.reqChan = h && busySession e.2).map (·.1)

/-! ### Channels that become free (R419, R450) -/

/-- The watch line is given up when its channel becomes FREE (R512). -/
def releaseWatch (s : State) (n : Nat) : State :=
  if (getChan s n).held then toHostReq s (.cleanEvict (getChan s n).watch) else s

/-- A channel index becomes FREE with a generation increment; its sessions are detached. -/
def freeChannel (s : State) (n : Nat) : State :=
  let h := chanHandle s n
  let d := (getChan s n).destroying
  let s := releaseWatch s n
  let s := { s with sessions := s.sessions.map fun e => if e.2.chan = h then (e.1, { e.2 with chan := 0 }) else e }
  let s := modChan s n fun c => { Channel.free with gen := nextChanGen c.gen }
  if d then endBackground s 0xC041 .success 0 [] else s

/-- Whether a CLOSING channel has ended its last request and its entries are written and sent. -/
def closingDone (s : State) (n : Nat) : Bool :=
  let c := getChan s n
  c.state = .closing && c.backlog.isEmpty && c.unsent.isEmpty && c.sqRead = c.sqHead && (busyOf s n).isEmpty

/-- The channels of a table that are not FREE. -/
def chansOf (s : State) (t : Nat) : List Nat :=
  (s.channels.filter fun e => e.2.state ≠ .free && e.2.table = t).map (·.1)

/-- The last step of TABLE_DISABLE: every session of the table is closed, and every channel whose entries are written
and sent becomes FREE; with the last one the command completes (R450). -/
def finishDisable (s : State) (t : Nat) : State :=
  if !(getTable s t).disabling then s
  else
    let ss := (s.sessions.filter fun e => e.2.state ≠ .free && e.2.state ≠ .shadow && e.2.table = t).map (·.1)
    let close := ss.map (sessHandle s)
    let s := ss.foldl retireSession s
    let s := modRound s t fun r => { r with closes := r.closes ++ close }
    let s := (chansOf s t).foldl (fun s n => if closingDone s n then freeChannel s n else s) s
    if (chansOf s t).isEmpty then
      let s := modTable s t fun k => { k with enabled := false, disabling := false }
      endBackground (logGen s evSrvTableDisabled uCtl (some t) [w32 t] []) 0xC044 .success 0 []
    else s

/-- Free a CLOSING channel whose work has ended. A channel of a table that is being disabled waits for the table's round
boundary, after which its table's disabling looks again (R450). -/
def checkClosing (s : State) (n : Nat) : State :=
  let t := (getChan s n).table
  if closingDone s n then
    if !(getTable s t).disabling then freeChannel s n
    else if (getRound s t).isOpen || (getRound s t).again then s else finishDisable s t
  else s

/-- What a round boundary of a table brings: aborted requests end with ABORTED, requests of CLOSING channels with CLOSED,
channels become FREE (R449, R450). -/
def boundary (s : State) (t : Nat) : State :=
  let ab := (s.sessions.filter fun e => e.2.table = t && busySession e.2 && e.2.aborting).map (·.1)
  let s := ab.foldl (fun s i => endRequest s i 1) s
  let cl := (s.sessions.filter fun e =>
    e.2.table = t && busySession e.2 && (chanOf s e.2.reqChan).any fun n => (getChan s n).state = .closing).map (·.1)
  let s := cl.foldl (fun s i => endRequest s i 7) s
  let s := (chansOf s t).foldl checkClosing s
  finishDisable s t

end Sys2Proof.Machine
end

