-- ==== Sys2Proof/Machine/Spill.lean ====
section
/-! DEFINITION. Moving pages to the slow tier and back (R478 to R483, R517 to R519). -/

namespace Sys2Proof.Machine

/-- An enabled slow-tier window: its base and size. -/
def slowWindow (s : State) (w : Nat) : Option (Nat × Nat) :=
  let k := sget (false, 0, 0) s.host.slow w
  if k.1 then some k.2 else none

/-- Host physical address of a spill slot of a table on this module, where its window and its size hold it (R478). -/
def spillAddr (s : State) (t n : Nat) : Option Nat :=
  match (getTable s t).spillWindow with
  | none => none
  | some (w, off, slots) =>
    match slowWindow s w with
    | some (b, size) => if n < slots && off + 65536 * (n + 1) ≤ size then some (b + off + 65536 * n) else none
    | none => none

/-- Issue a slow-tier request with the next tag (R518, R584). -/
def uioIssue (s : State) (table : Nat) (u : UioUse) (n : Nat) (m : HostMsg) : State :=
  let s := startDeadline s (.uio s.host.uioTag)
  let s := modHost s fun h => { h with uio := h.uio ++ [(h.uioTag, u, s.gen)], uioTag := h.uioTag + 1 }
  hostCharged s table n m

/-- Write 512 bytes of a page at offset `off` to a host address; poisoned lines go with CXL poison (R400, R518, R519). -/
def issuePiece (s : State) (t p n a off : Nat) : State :=
  let r := fwRead s (pageByte p off) 512
  let bad := (List.range 8).filter fun j => ((r.2.drop (64 * j)).take 64).any (·.2)
  let s := bad.foldl (fun s j => (poisonToHost s (pageByte p (off + 64 * j) / 64)).1) r.1
  uioIssue s t (.spill p n off) 512 (.uioWrite (w64 (a + off)) (r.2.map (·.1)) (BitVec.ofNat 8 (bad.map (2 ^ ·)).sum))

/-- Write a page to a spill slot, 512 bytes a request (R518, R519). -/
def issueSpill (s : State) (t p n a : Nat) : State :=
  (List.range 128).foldl (fun s i => issuePiece s t p n a (512 * i)) s

/-- Read a spill slot into a page for a prefetch slot, 512 bytes a request (R482). -/
def issuePrefetch (s : State) (t slot p n a : Nat) : State :=
  (List.range 128).foldl (fun s i =>
    uioIssue s t (.prefetch t slot p n (512 * i)) 0 (.uioRead (w64 (a + 512 * i)) 512)) s

/-- A serving message of one entry that names a page and a spill slot (Table 14.7). -/
def spillMsg (s : State) (t kind p n : Nat) (ok : Bool) : ServMsg :=
  { kind := kind, part := 0, parts := 1, table := t, round := s.lastRound, gen := s.gen,
    entries := [{ session := 0, position := w32 n, slot := 0, kind := 0, flags := if ok then 1 else 0, count := 0,
                  newPage := w32 p }], tokens := [] }

/-- PAUSE ends with SUCCESS once every private page of the session is in the slow tier; its time to live starts (R483). -/
def checkPaused (s : State) (slot : Nat) : State :=
  let c := getSess s slot
  if c.phase = .pausing && c.pages.all fun p => (getPage s p).shared || !inMemory p then
    let s := endRequest s slot 0
    modSess s slot fun c => { c with state := .paused, ttlStart := s.meter.toNat }
  else s

/-- A spill ends badly: the page stays resident, its slot is free (R479). -/
def failSpill (s : State) (p n member : Nat) : State :=
  let t := (getPage s p).table
  let s := modPage (freeSpill s t n) p fun g => { g with state := .resident, spill := none, spillReplies := [] }
  logGen s evSrvSpillFailed uCtl (some t) [w32 p, w32 member] []

/-- A member's spill result at the dealer: the page is free once every member has reported success (R479, R480). -/
def spillReply (s : State) (src p n : Nat) (ok : Bool) : State :=
  let g := getPage s p
  if !(g.state = .spilling && g.spill = some n) then s
  else if !ok then failSpill s p n src
  else
    let rs := g.spillReplies.filter (fun e => e.1 ≠ src) ++ [(src, true)]
    let s := modPage s p fun g => { g with spillReplies := rs }
    let all := ((deckOf s).map fun d => ownIndex s :: otherMembers s d).getD []
    if all.all fun m => rs.any fun e => e.1 = m then
      let v := spillNumber g.table n
      let hs := holders s p
      let s := renamePage (modPage s p fun g => { g with state := .spilled, spillReplies := [] }) p v
      hs.foldl checkPaused s
    else s

/-- Report this module's part of a spill to the dealer. -/
def reportSpill (s : State) (t p n : Nat) (ok : Bool) : State :=
  match deckOf s with
  | none => s
  | some d =>
    if isDealer s then spillReply s (ownIndex s) p n ok
    else sendFrame s (dealerIndex s d) t (.serving (spillMsg s t 6 p n ok))

/-- Start writing this module's copy of a page to a spill slot; a module that cannot write it reports failure (R478). -/
def localSpill (s : State) (t p n : Nat) : State :=
  match spillAddr s t n with
  | some a => if s.host.busMaster then issueSpill s t p n a else reportSpill s t p n false
  | none => reportSpill s t p n false

/-- The dealer spills a page (R479). -/
def spillPage (s : State) (t p : Nat) : State :=
  match freeSlot s t, deckOf s with
  | some n, some d =>
    let s := { s with cache := { s.cache with spillUsed := s.cache.spillUsed ++ [(t, n)] } }
    let s := modPage s p fun g => { g with state := .spilling, spill := some n, spillReplies := [] }
    let s := (otherMembers s d).foldl (fun s m => sendFrame s m t (.serving (spillMsg s t 5 p n false))) s
    localSpill s t p n
  | _, _ => s

/-- Abandon the spill of a page that a round needs (R480). -/
def abandonSpill (s : State) (p : Nat) : State :=
  let g := getPage s p
  match g.state, g.spill with
  | .spilling, some n =>
    modPage (freeSpill s g.table n) p fun g => { g with state := .resident, spill := none, spillReplies := [] }
  | _, _ => s

/-- Spill one page of each memory channel whose free pages have fallen below 1/64 of its pool (R479). -/
def spillShort (s : State) (t : Nat) : State :=
  (List.range 32).foldl (fun s c =>
    let total := poolPages s t
    if 64 * (total - usedPages s t c) < total then
      match oldest ((spillable s t).filter fun e => pageChan e.1 = c) with
      | some p => spillPage s t p
      | none => s
    else s) s

/-- Spill the private pages of the sessions that are being paused (R483). -/
def spillPausing (s : State) (t : Nat) : State :=
  let ps := (s.sessions.filter fun e => e.2.table = t && e.2.phase = .pausing).flatMap fun e =>
    e.2.pages.filter fun p => inMemory p && !(getPage s p).shared && (getPage s p).state = .resident
  ps.foldl (fun s p => spillPage s t p) s

/-- The other requests of an operation that failed are completed without effect; the failure is logged once (R518). -/
def killUio (s : State) (p : UioUse → Bool) (window : Nat) (addr : W64) : State :=
  let s := modHost s fun h => { h with uio := h.uio.map fun e => if p e.2.1 then (e.1, .dead, e.2.2) else e }
  logGen s evHstSlowTierError uCxl none [w32 window] [addr]

end Sys2Proof.Machine
end

