-- ==== Sys2Proof/Machine/Rounds.lean ====
section
/-! DEFINITION. Rounds: the round area, what the dealer puts into a round, marks and lists, reports and verdicts, the
emission of tokens (R26 to R31, R401, R416, R434 to R446, R464, R480 to R490). -/

namespace Sys2Proof.Machine

/-! ### The round area (R436, R437, Table 13.15) -/

/-- A table's round area: the lowest-numbered striped region of class replay that it owns. -/
def roundArea (s : State) (t : Nat) : Option Region :=
  match deckOf s with
  | none => none
  | some d =>
    let rs := d.regions.filter fun r => r.owner = t && !r.banked && r.cls = .replay
    match (rs.map (·.region)).min? with
    | some n => rs.find? fun r => r.region = n
    | none => none

/-- Slots of a kind in a round: 1 decode, 2 rider, 3 draft, 4 prefetch. -/
def kindCap (p : RoundPlan) (kind : Nat) : Nat :=
  match kind with
  | 1 => p.sessions | 2 => p.riders | 3 => p.drafts | 4 => p.prefetch | _ => 0

/-- First slot index of a kind. -/
def kindBase (p : RoundPlan) (kind : Nat) : Nat :=
  match kind with
  | 1 => 0 | 2 => p.sessions | 3 => p.sessions + p.riders | _ => p.sessions + p.riders + p.drafts

/-- All slots of a round. -/
def slotTotal (p : RoundPlan) : Nat := p.sessions + p.riders + p.drafts + p.prefetch

/-- Bytes of a slot's page list, token list and output, each 8-byte aligned. -/
def slotBytes (sl : RoundSlot) : Nat := 8 * sl.pages.length + 8 * ceilDiv sl.tokens.length 2 + 16

/-- Offsets of page list, token list and output for each slot, from a cursor on. -/
def slotOffsets : Nat → List RoundSlot → List (Nat × Nat × Nat × Nat)
  | _, [] => []
  | c, sl :: r =>
    let t := c + 8 * sl.pages.length
    let o := t + 8 * ceilDiv sl.tokens.length 2
    (sl.slot, c, t, o) :: slotOffsets (o + 16) r

/-- The plan of the running deck. -/
def planOf (s : State) : Option RoundPlan := (deckOf s).map (·.plan)

/-- First byte after the header and the entries. -/
def listsStart (p : RoundPlan) : Nat := 64 * (1 + slotTotal p)

/-- Offsets of a slot's lists in the round area. -/
def offsetsOf (s : State) (t slot : Nat) : Option (Nat × Nat × Nat) :=
  match planOf s with
  | none => none
  | some p => ((slotOffsets (listsStart p) (getRound s t).slots).find? fun e => e.1 = slot).map (·.2)

/-- The 64 bytes of a slot's entry. KEY and PARAM are zero on members. -/
def entryBytes (s : State) (sl : RoundSlot) (at_ : Nat × Nat × Nat) : List Byte :=
  let c := match sessOf s sl.session with | some i => getSess s i | none => Session.free
  leBytes 8 sl.session.toNat ++ leBytes 4 sl.position.toNat ++ leBytes 1 sl.kind ++ leBytes 1 (if sl.mandatory then 2 else 0) ++
    leBytes 2 sl.count ++ leBytes 8 c.key.toNat ++ leBytes 8 c.param.toNat ++ leBytes 4 at_.1 ++ leBytes 4 sl.pages.length ++
    leBytes 4 at_.2.1 ++ leBytes 4 0 ++ leBytes 4 0 ++ leBytes 4 at_.2.2 ++ leBytes 4 0 ++ leBytes 4 0

/-- Write a table's round tables; READY follows once every other byte of them is performed (R26, R437). -/
def writeArea (s : State) (t : Nat) : State :=
  match roundArea s t, planOf s with
  | some a, some p =>
    let r := getRound s t
    let offs := slotOffsets (listsStart p) r.slots
    let entry (i : Nat) : List Byte :=
      match r.slots.find? fun sl => sl.slot = i, offs.find? fun o => o.1 = i with
      | some sl, some o => entryBytes s sl o.2
      | _, _ => List.replicate 64 0
    let head := leBytes 4 0 ++ leBytes 4 r.round.toNat ++ leBytes 2 s.gen.toNat ++ leBytes 2 r.slots.length ++ List.replicate 52 0
    let w := Sender.area t a.base
    let s := fwWriteAs s w a.base (head ++ (List.range (slotTotal p)).flatMap entry)
    let s := r.slots.foldl (fun s sl =>
      match offs.find? fun o => o.1 = sl.slot with
      | none => s
      | some o =>
        let s := fwWriteAs s w (a.base + o.2.1) (sl.pages.flatMap fun q => leBytes 8 (pageAddr q))
        fwWriteAs s w (a.base + o.2.2.1) (sl.tokens.flatMap fun k => leBytes 4 k.toNat)) s
    answerSender (modRound s t fun r => { r with written := true }) w
  | _, _ => s

/-- STATUS of a slot as the deck has written it. -/
def slotStatus (s : State) (t slot : Nat) : State × Nat :=
  match roundArea s t with
  | none => (s, 0)
  | some a =>
    let r := fwRead32 s (a.base + 64 * (1 + slot) + 48)
    (r.1, if r.2.2 then 0 else r.2.1.toNat)

/-- Write a word of a slot's entry. -/
def slotWrite (s : State) (t slot off v : Nat) : State :=
  match roundArea s t with
  | none => s
  | some a => fwWrite s (a.base + 64 * (1 + slot) + off) (leBytes 4 v)

/-- The first `n` words of a slot's output, with their poison. -/
def outWords (s : State) (t slot n : Nat) : State × List (W32 × Bool) :=
  match roundArea s t, offsetsOf s t slot with
  | some a, some o =>
    let r := fwRead s (a.base + o.2.2) (4 * n)
    (r.1, (List.range n).map fun i =>
      let w := (r.2.drop (4 * i)).take 4
      (BitVec.ofNat 32 (bytesVal w), w.any (·.2)))
  | _, _ => (s, [])

/-- The output tokens of a slot with their poison: OUT_COUNT of them, at most four. A poisoned OUT_COUNT names no number of tokens: it
stands as one poisoned token (R401, R652). -/
def slotOut (s : State) (t slot : Nat) : State × List (W32 × Bool) :=
  match roundArea s t with
  | none => (s, [])
  | some a =>
    let c := fwRead32 s (a.base + 64 * (1 + slot) + 56)
    if c.2.2 then (c.1, [(0, true)]) else outWords c.1 t slot (min 4 c.2.1.toNat)

/-- Whether a slot holds droppable work: rider, draft or prefetch (R30). -/
def droppable (sl : RoundSlot) : Bool := 2 ≤ sl.kind && sl.kind ≤ 4

/-- The statuses of the droppable slots of a table's round. -/
def statuses (s : State) (t : Nat) : List RoundSlot → State × List (RoundSlot × Nat)
  | [] => (s, [])
  | sl :: r =>
    let a := slotStatus s t sl.slot
    let b := statuses a.1 t r
    (b.1, (sl, a.2) :: b.2)

/-! ### Folding (R30, R441) -/

/-- The firmware writes FOLD into one unfinished droppable slot. A prefetch slot is the firmware's own work: it ends folded. -/
def foldSlot (s : State) (t : Nat) (sl : RoundSlot) : State :=
  let s := modTable s t fun k => { k with folds := satInc 0xFFFFFFFF k.folds }
  let s := modRound s t fun r => { r with slots := updFirst (fun x : RoundSlot => x.slot = sl.slot) (fun x => { x with fold := true }) r.slots }
  let s := slotWrite s t sl.slot 44 1
  if sl.kind = 4 then
    let s := modHost s fun h => { h with uio := h.uio.map fun e =>
      match e.2.1 with
      | .prefetch t' i _ _ _ => if t' = t && i = sl.slot then (e.1, .dead, e.2.2) else e
      | _ => e }
    slotWrite s t sl.slot 48 2
  else s

/-- Fold the unfinished droppable slots of a table's round that some test takes. -/
def foldSlots (s : State) (t : Nat) (p : RoundSlot → Bool) : State :=
  let q := statuses s t ((getRound s t).slots.filter fun sl => droppable sl && !sl.mandatory && !sl.fold && p sl)
  q.2.foldl (fun s e => if e.2 = 0 then foldSlot s t e.1 else s) q.1

/-- Fold what droppable work of a table's round is unfinished, where its budget has expired and its tables are written. Mandatory work
carries no deadline. -/
def foldRound (s : State) (t : Nat) : State :=
  let r := getRound s t
  if !(r.isOpen && r.written && r.expired) then s else foldSlots s t fun _ => true

/-! ### Members' reports (R443) -/

/-- Zero the poisoned lines of this module's copy of a page (R464). -/
def cleanPage (s : State) (p : Nat) : State :=
  (List.range 1024).foldl (fun s i =>
    let line := pageByte p (64 * i) / 64
    let r := fwReadLine s line
    if r.2.2 = 0 then r.1
    else fwWriteLine r.1 { line := line, data := 0, mask := fullMask, poison := 0, sender := .none }) s

/-- The free pages of a table in whose copy on this module a line is poisoned. A member knows a page as free once no list it follows
holds it. -/
def dirtyPages (s : State) (t : Nat) : List Nat :=
  (s.cache.pages.filter fun e =>
    e.2.dirtyFree && e.2.table = t && (holders s e.1).isEmpty && !(s.cache.jobs.any fun j => j.pages.contains e.1)).map (·.1)

/-- Clean this module's copy of every free page in which a line is poisoned. -/
def cleanPages (s : State) (t : Nat) : State := (dirtyPages s t).foldl cleanPage s

/-- Entries that the 32 parts of a list or report hold (Table 13.13). -/
def listCap : Nat := 576

/-- Cut the entries of a list or report into parts of at most 18 (Table 13.13). -/
def listParts (kind t : Nat) (r : W32) (g : BitVec 16) (es : List ServEntry) : List ServMsg :=
  let n := max 1 (ceilDiv es.length 18)
  (List.range n).map fun i =>
    { kind := kind, part := i, parts := n, table := t, round := r, gen := g, entries := (es.drop (18 * i)).take 18, tokens := [] }

/-- Whether every part of a message is held. -/
def partsHeld (ms : List ServMsg) : Bool :=
  match ms.head? with
  | none => false
  | some m => (List.range m.parts).all fun i => ms.any fun x => x.part = i

/-- Keep a part of a report: a member's newer message replaces an older one. -/
def holdReport (s : State) (t src : Nat) (m : ServMsg) : State :=
  modRound s t fun r =>
    { r with reports := r.reports.filter (fun e => !(e.1 = src && (e.2.part = m.part || e.2.parts ≠ m.parts))) ++ [(src, m)] }

/-- A module reports its round to the dealer once every droppable slot has its STATUS. Free pages that it has cleaned need
no entry: a report stands for every copy being clean (R464). -/
def tryReport (s : State) (t : Nat) : State :=
  let r := getRound s t
  if r.reported || !r.written then s
  else
    let q := statuses s t (r.slots.filter droppable)
    if q.2.any fun e => e.2 = 0 then q.1
    else
      let clean := dirtyPages q.1 t
      let s := cleanPages q.1 t
      let s := modRound s t fun r => { r with reported := true }
      let ms := listParts 2 t r.round s.gen (q.2.map fun e =>
        { session := e.1.session, position := e.1.position, slot := e.1.slot, kind := e.1.kind,
          flags := if e.2 = 1 then 1 else 0, count := e.1.count, newPage := e.1.newPage })
      match deckOf s with
      | none => s
      | some d =>
        if isDealer s then ms.foldl (fun s m => holdReport s t (ownIndex s) m) s
        else
          let s := clean.foldl (fun s p => setPage s p Page.free) s
          ms.foldl (fun s m => sendFrame s (dealerIndex s d) t (.serving m)) s

/-- The parts of a member's report. -/
def reportOf (s : State) (t m : Nat) : List ServMsg := ((getRound s t).reports.filter fun e => e.1 = m).map (·.2)

/-- Whether every member has reported a table's round. -/
def allReported (s : State) (t : Nat) : Bool :=
  match deckOf s with
  | none => false
  | some d => (ownIndex s :: otherMembers s d).all fun m => partsHeld (reportOf s t m)

/-- Whether every member reported a slot complete. -/
def committed (s : State) (t slot : Nat) : Bool :=
  match deckOf s with
  | none => false
  | some d =>
    allReported s t && (ownIndex s :: otherMembers s d).all fun m =>
      (reportOf s t m).any fun r => r.entries.any fun e => e.slot = slot && bitOf e.flags.toNat 0

/-! ### Verdicts at the dealer (R443, R444, R482, R488) -/

/-- A rider's session after a COMMIT: its tokens are committed, and the request moves on when the prompt is done. -/
def riderCommit (s : State) (i : Nat) (sl : RoundSlot) : State :=
  let c := getSess s i
  let s := commitTokens s c.pages c.position.toNat false 1 (sl.tokens.take sl.count)
  let s := modSess s i fun c =>
    { c with position := c.position + w32 sl.count, prompt := c.prompt.drop sl.count, folds := 0,
             prefillLeft := c.prefillLeft - w32 sl.count }
  let c := getSess s i
  if c.phase = .prefill && c.prompt.length ≤ 1 then
    if c.append then endRequest s i 0 else modSess s i fun c => { c with phase := .decode }
  else s

/-- A rider's session after a verdict without COMMIT (R444). -/
def riderFold (s : State) (i t : Nat) : State :=
  let c := getSess s i
  let s := modSess s i fun c => { c with folds := min 4 (c.folds + 1) }
  if c.folds = 3 then
    let s := modTable s t fun k => { k with promotions := satInc 0xFFFFFFFF k.promotions }
    logGen s evSrvRiderPromoted uCtl (some t) [] [sessHandle s i]
  else s

/-- The page that a recompute rider rewrites (R487). -/
def recomputePage (s : State) (sl : RoundSlot) : Option Nat :=
  let p := sl.newPage.toNat
  if sl.kind = 2 && (getPage s p).state = .recomputing && sl.pages.contains p then some p else none

/-- Change a pin slot. -/
def modPin (s : State) (n : Nat) (f : Pin → Pin) : State :=
  { s with cache := { s.cache with pins := smod Pin.free s.cache.pins n f } }

/-- A prefix handle (Table 14.5). -/
def pinHandle (s : State) (n : Nat) : W64 :=
  let p := sget Pin.free s.cache.pins n
  BitVec.ofNat 64 (ownIndex s % 2 ^ 13 * 2 ^ 51 + p.gen.toNat * 2 ^ 24 + p.table % 64 * 2 ^ 18 + n)

/-- The pin slot of a valid prefix handle. -/
def pinOf (s : State) (h : W64) : Option Nat :=
  let n := h.toNat % 2 ^ 12
  if (sget Pin.free s.cache.pins n).used && pinHandle s n = h then some n else none

/-- A pin's rider after a COMMIT; with the last one the pin is ready and its command completes (R473, R492). -/
def pinCommit (s : State) (n : Nat) (sl : RoundSlot) : State :=
  let p := sget Pin.free s.cache.pins n
  let s := commitTokens s p.pages p.committed false 1 (sl.tokens.take sl.count)
  let s := modPin s n fun p => { p with committed := p.committed + sl.count, ready := p.committed + sl.count = p.tokens.length }
  if (sget Pin.free s.cache.pins n).ready then endBackground s 0xC050 .success 0 (leBytes 8 (pinHandle s n).toNat) else s

/-- The mark of a rider's SESSION that names a pin or a prefill job and no session of this group: reserved bit 50 (DESIGN
CHOICE: the manual does not say how such a rider is named). -/
def guestTag : W64 := 0x0004000000000000

/-- The handle that a guest rider's SESSION carries. -/
def guestOf (h : W64) : Option W64 := if bitOf h.toNat 50 then some (h - guestTag) else none

/-- Change the job of a session. -/
def modJob (s : State) (h : W64) (f : PrefillJob → PrefillJob) : State :=
  { s with cache := { s.cache with jobs := updFirst (fun j : PrefillJob => j.session = h) f s.cache.jobs } }

/-- Pages that follow NEW_PAGE for the next memory channels of its frame (R463). -/
def pageRun (first n : Nat) : List Nat := (List.range n).map fun i => 64 * (first / 64) + (first % 64 + i) % 32

/-- The frame that writes a chunk that has been read to a decode member. -/
def chunkFrame (s : State) (j : PrefillJob) (dest page off : Nat) (bs : List (Byte × Bool)) : Frame :=
  { hdr := { dest := dest, src := ownIndex s, gen := s.gen, table := j.table, poison := bs.any (·.2) },
    body := .memWrite s.fabTag (pageByte page off) (bs.map (·.1))
      (if bs.any (·.2) then (List.range 128).map fun i => ((bs.drop (4 * i)).take 4).any (·.2) else []) }

/-- Write 512 bytes of this module's copy of a page to a decode member; its acknowledgement names the tag. A page for which there is no
route is never acknowledged (R362, R447, R448). -/
def shipChunk (s : State) (j : PrefillJob) (own page off dest : Nat) : State × PrefillJob :=
  let r := fwRead s (pageByte own off) 512
  let s := r.1
  let f := chunkFrame s j dest page off r.2
  let tag := s.fabTag
  let s := sendCharged { s with fabTag := tag + 1 } j.table f
  if (routePort s dest f.body).isNone then (s, { j with failed := true })
  else ({ s with fabTags := s.fabTags ++ [(dest, tag)] }, { j with acks := j.acks ++ [(tag, own, page, off, dest)] })

/-- Ship this module's copies of a job's pages to the decode members that take them (R447). -/
def shipPages (s : State) (j : PrefillJob) : State × PrefillJob :=
  let targets := pageRun j.newPage.toNat j.pages.length
  let work := (Config.shipTargets (ownIndex s) j.src).flatMap fun m =>
    (j.pages.zip targets).flatMap fun e => (List.range 128).map fun i => (e.1, e.2, 512 * i, m)
  work.foldl (fun (a : State × PrefillJob) w => shipChunk a.1 a.2 w.1 w.2.1 w.2.2.1 w.2.2.2) (s, { j with shipping := true })

/-- A PREFILL_DONE for a job (Table 13.13). -/
def doneMsg (s : State) (j : PrefillJob) (ok : Bool) : ServMsg :=
  { kind := 4, part := 0, parts := 1, table := j.table, round := s.lastRound, gen := s.gen, tokens := [],
    entries := [{ session := j.session, position := 0, slot := 0, kind := 0, flags := if ok then 1 else 0, count := 0,
                  newPage := j.newPage }] }

/-- A job ends at the pool's dealer: its pages go, the next list tells the members, and PREFILL_DONE goes to the decode dealer (R447). -/
def finishJob (s : State) (j : PrefillJob) (ok : Bool) : State :=
  let s := { s with cache := { s.cache with jobs := s.cache.jobs.filter fun x => x.session ≠ j.session } }
  let s := j.pages.foldl dropPage s
  let s := modRound s j.table fun r => { r with closes := r.closes ++ [j.session + guestTag] }
  sendFrame s j.src 64 (.serving (doneMsg s j ok))

/-- A pool member's result reaches the pool's dealer: with the last one the job ends, well only if every page of every member has been
acknowledged with STATUS 0 (R447). -/
def jobResult (s : State) (h : W64) (src : Nat) (ok : Bool) : State :=
  match s.cache.jobs.find? (fun j => j.session = h), deckOf s with
  | some j, some d =>
    let j := { j with done := j.done.filter (fun e => e.1 ≠ src) ++ [(src, ok)] }
    if (ownIndex s :: otherMembers s d).all fun m => j.done.any fun e => e.1 = m then finishJob s j (j.done.all (·.2))
    else modJob s h fun _ => j
  | _, _ => s

/-- This module's part of a job is over once each of its writes has been acknowledged; a member then reports to the pool's dealer (DESIGN
CHOICE, log 174: R447 gives the report no message; the model sends PREFILL_DONE). -/
def partShipped (s : State) (j : PrefillJob) : State :=
  if !(j.shipping && j.acks.isEmpty) then s
  else
    match deckOf s with
    | none => s
    | some d =>
      if isDealer s then jobResult s j.session (ownIndex s) (!j.failed)
      else sendFrame s (dealerIndex s d) j.table (.serving (doneMsg s j (!j.failed)))

/-- The last rider of a job has its COMMIT: its pages are shipped. -/
def shipJob (s : State) (j : PrefillJob) : State :=
  let r := shipPages s j
  partShipped (modJob r.1 j.session fun _ => r.2) r.2

/-- A job's rider after a COMMIT; with the last one its pages are shipped. -/
def jobCommit (s : State) (j : PrefillJob) (sl : RoundSlot) : State :=
  let j := { j with committed := j.committed + sl.count }
  if j.committed = j.tokens.length then shipJob s j else modJob s j.session fun _ => j

/-- A prompt that a pool has not shipped whole runs again as riders; SRV_SHIP_FAILED is logged (R448). -/
def shipFailed (s : State) (i : Nat) : State :=
  let s := modSess s i fun c => { c with phase := .prefill }
  logGen s evSrvShipFailed uCtl (some (getSess s i).table) [] [sessHandle s i]

/-- Pages whose acknowledgement an abort of the group may have cut off count as unacknowledged (R448; DESIGN CHOICE, log 174). -/
def unackedJobs (s : State) : State :=
  (s.cache.jobs.filter fun j => !j.acks.isEmpty).foldl (fun s j =>
    let j' := { j with acks := [], failed := true }
    partShipped (modJob s j.session fun _ => j') j') s

/-- A prefetch slot's page after COMMIT: it lies in memory again and its spill slot is free (R482). RESUME ends with
SUCCESS when every page is back (R485). -/
def prefetchCommit (s : State) (i : Nat) (sl : RoundSlot) : State :=
  match sl.tokens.head? with
  | none => s
  | some n =>
    let v := spillNumber (getSess s i).table n.toNat
    let g := getPage s v
    if g.state ≠ .prefetching then s
    else
      let s := freeSpill s g.table n.toNat
      let s := renamePage (modPage s v fun g => { g with state := .resident, spill := none, fetchFails := 0 }) v sl.newPage.toNat
      let c := getSess s i
      if c.phase = .resuming && !c.aborting && c.pages.all inMemory then endRequest s i 0 else s

/-- A prefetch slot's page without COMMIT: it is tried again, or recomputed after its second failure (R482). -/
def prefetchFold (s : State) (i : Nat) (sl : RoundSlot) : State :=
  match sl.tokens.head? with
  | none => s
  | some n =>
    let v := spillNumber (getSess s i).table n.toNat
    let g := getPage s v
    if g.state ≠ .prefetching then s
    else if g.fetchFails = 0 then
      setPage (modPage s v fun g => { g with state := .spilled, fetchFails := 1 }) sl.newPage.toNat Page.free
    else
      let p := sl.newPage.toNat
      let s := freeSpill s g.table n.toNat
      let s := renamePage (modPage s v fun g =>
        { g with state := .recomputing, prev := .resident, spill := none, fetchFails := 0 }) v p
      writeHeader s p g.key g.parentKey g.first.toNat g.table g.origin g.tokens

/-- A recompute rider after COMMIT: the header is rewritten with ORIGIN 2 and the page returns to its state (R488). -/
def recomputeCommit (s : State) (p : Nat) : State :=
  let g := getPage s p
  let s := writeHeader s p g.key g.parentKey g.first.toNat g.table 2 g.tokens
  modPage s p fun g => { g with state := g.prev, origin := 2 }

/-- Apply one verdict at the dealer. -/
def applyVerdict (s : State) (t : Nat) (sl : RoundSlot) (ok : Bool) : State :=
  match recomputePage s sl with
  | some p => if ok then recomputeCommit s p else s
  | none =>
    let g := guestOf sl.session
    match sl.kind, g.bind (pinOf s), g.bind (fun h => s.cache.jobs.find? fun j => j.session = h), sessOf s sl.session with
    | 2, some n, _, _ => if ok then pinCommit s n sl else s
    | 2, none, some j, _ => if ok then jobCommit s j sl else s
    | 2, none, none, some i =>
      let c := getSess s i
      if c.phase = .prefill && c.position = sl.position && !c.aborting then (if ok then riderCommit s i sl else riderFold s i t)
      else s
    | 3, _, _, some i =>
      let o := outWords s t sl.slot sl.count
      if ok && (getSess s i).phase = .decode && !(o.2.any (·.2)) then modSess o.1 i fun c => { c with draft := o.2.map (·.1) } else s
    | 4, _, _, some i => if ok then prefetchCommit s i sl else prefetchFold s i sl
    | _, _, _, _ => s

/-- The verdict entries of a closed round and the state after them. A page whose lines were poisoned is free again with the reports of a
round that began after it was freed (R464; DEDUCED, log 91). -/
def settleRound (s : State) (t : Nat) : State :=
  let r := getRound s t
  if !r.verdictDue then s
  else
    let ds := r.slots.filter droppable
    let vs := ds.map fun sl => (sl, committed s t sl.slot)
    let s := vs.foldl (fun s v => applyVerdict s t v.1 v.2) s
    let clean (e : Nat × Page) : Bool := e.2.dirtyFree && e.2.table = t && aheadOf r.round e.2.last
    let dirty := if allReported s t then (s.cache.pages.filter clean).map (·.1) else []
    let s := dirty.foldl (fun s p => setPage s p Page.free) s
    modRound s t fun r =>
      { r with verdictDue := false, reportsLost := false, reports := [], slots := [],
               verdicts := vs.map fun v =>
                 { session := v.1.session, position := v.1.position, slot := v.1.slot, kind := 0,
                   flags := if v.2 then 1 else 0, count := v.1.count, newPage := v.1.newPage } }

/-! ### Filling a round (R438 to R440) -/

/-- A round being filled. -/
structure Fill where
  s : State
  slots : List RoundSlot
  cursor : Nat
  size : Nat
  entries : Nat
  full : Bool

/-- Whether a slot of a kind is left, and an entry of the list for it (Table 13.13). -/
def Fill.room (f : Fill) (p : RoundPlan) (kind : Nat) : Bool :=
  (f.slots.filter fun sl => sl.kind = kind).length < kindCap p kind && f.slots.length < f.entries

/-- Put a slot into the round where its lists fit; a slot that does not fit is left out (R437). -/
def Fill.put (f : Fill) (p : RoundPlan) (sl : RoundSlot) : Fill :=
  let n := (f.slots.filter fun x => x.kind = sl.kind).length
  if !f.room p sl.kind then f
  else if f.size < f.cursor + slotBytes sl then { f with full := true }
  else { f with slots := f.slots ++ [{ sl with slot := kindBase p sl.kind + n }], cursor := f.cursor + slotBytes sl }

/-- Insert by a key, smallest first. -/
def insertBy (key : Nat → Nat) (a : Nat) : List Nat → List Nat
  | [] => [a]
  | b :: r => if key a < key b then a :: b :: r else b :: insertBy key a r

/-- Sort by a key. -/
def sortBy (key : Nat → Nat) : List Nat → List Nat
  | [] => []
  | a :: r => insertBy key a (sortBy key r)

/-- Free values that stand for tokens no rule gives. -/
def freeTokens (s : State) : Nat → State × List W32
  | 0 => (s, [])
  | n + 1 =>
    let f := takeFree s
    let r := freeTokens f.2 n
    (r.1, BitVec.ofNat 32 f.1.toNat :: r.2)

/-- Whether a channel takes entries of sessions placed in a round: it is OPEN and its backlog has room (R426, R438). -/
def chanTakes (s : State) (h : W32) : Bool :=
  (chanOf s h).any fun n => (getChan s n).state = .opened && (getChan s n).backlog.length < 64

/-- Whether the dealer may place a session of a table: its own channel and that of its request take entries (R438, R449). -/
def placeable (s : State) (c : Session) : Bool := chanTakes s c.chan && chanTakes s c.reqChan && !c.aborting

/-- Whether every page of a session lies in memory and is resident. -/
def allResident (s : State) (c : Session) : Bool := c.pages.all fun p => (getPage s p).state = .resident

/-- Order a spill for a memory channel that has no page left, where none is under way yet (R463, R479). -/
def spillChan (s : State) (t chan : Nat) : State :=
  match oldest ((spillable s t).filter fun e => pageChan e.1 = chan) with
  | some p => spillPage s t p
  | none => s

/-- Grow a page list of a table to a length (R463): the list, and 0 done, 1 waits for a spill, 2 no page. -/
def growList (s : State) (t need : Nat) : Nat → List Nat → State × List Nat × Nat
  | 0, l => (s, l, if need ≤ l.length then 0 else 1)
  | fuel + 1, l =>
    if need ≤ l.length then (s, l, 0)
    else
      let r := allocPage s t l.getLast? l.length
      match r.2 with
      | .page q => growList r.1 t need fuel (l ++ [q])
      | .spilling => (spillChan r.1 t (l.length % 32), l, 1)
      | .none => (r.1, l, 2)

/-- Grow a session's page list to a length: 0 done, 1 waits for a spill, 2 no page. -/
def growPages (s : State) (i need : Nat) : State × Nat :=
  let c := getSess s i
  let g := growList s c.table need (need + 1) c.pages
  (modSess g.1 i fun c => { c with pages := g.2.1 }, g.2.2)

/-- Mark the pages of a slot as used in the round being filled. -/
def touch (s : State) (pages : List Nat) : State := pages.foldl (fun s p => modPage s p fun g => { g with last := s.lastRound + 1 }) s

/-- The sessions of a table in a phase, by ascending ADMIT. -/
def sessionsIn (s : State) (t : Nat) (p : Session → Bool) : List Nat :=
  sortBy (fun i => (getSess s i).arrival)
    ((s.sessions.filter fun e => e.2.table = t && e.2.state ≠ .free && e.2.state ≠ .shadow && p e.2).map (·.1))

/-- A page number as a word; none is 0xFFFF_FFFF (Table 13.14). -/
def pageWord (p : Option Nat) : W32 := match p with | some q => w32 q | none => 0xFFFFFFFF

/-- Place a session's slot of `count + 1` input tokens covering `cover` positions, growing its page list first. NEW_PAGE names the first
page that no COMMIT has linked yet, also when an attempt is made again, and the first of all for a prompt that a pool has shipped (R434,
R443, R448). -/
def placeSession (f : Fill) (p : RoundPlan) (i kind count cover : Nat) (toks : List W32) : Fill :=
  let c := getSess f.s i
  if !(f.room p kind && placeable f.s c) then f
  else
    let s := c.pages.foldl abandonSpill f.s
    if !allResident s c then { f with s := s }
    else
      let told := if c.shipping then 0 else ceilDiv c.position.toNat 32
      let g := growPages s i (ceilDiv (c.position.toNat + cover) 32)
      if g.2 = 2 then { f with s := endRequest g.1 i 6 }
      else if g.2 = 1 then { f with s := g.1 }
      else
        let c := getSess g.1 i
        let f := { f with s := touch g.1 c.pages }
        f.put p { slot := 0, session := sessHandle f.s i, position := c.position, kind := kind,
                  mandatory := kind = 1 || (kind = 2 && 4 ≤ c.folds), newSession := !c.named, close := false, count := count,
                  newPage := pageWord c.pages[told]?, pages := c.pages, tokens := toks, fold := false, status := 0 }

/-- A decode slot: the pending token and the committed draft (R439, R440). -/
def placeDecode (f : Fill) (p : RoundPlan) (i : Nat) : Fill :=
  let c := getSess f.s i
  let r := if c.prompt = [] then freeTokens f.s 1 else (f.s, c.prompt.take 1)
  placeSession { f with s := r.1 } p i 1 c.draft.length (1 + c.draft.length) (r.2 ++ c.draft)

/-- A rider slot: up to 128 prompt tokens, never the last one (R439). -/
def placeRider (f : Fill) (p : RoundPlan) (i : Nat) : Fill :=
  let c := getSess f.s i
  let n := min 128 (c.prompt.length - 1)
  placeSession f p i 2 n n (c.prompt.take (n + 1))

/-- A draft slot for a decode session of the round (R440). -/
def placeDraft (f : Fill) (p : RoundPlan) (sl : RoundSlot) : Fill :=
  let r := freeTokens f.s (4 - min 4 sl.tokens.length)
  { f with s := r.1 }.put p
    { sl with kind := 3, mandatory := false, newSession := false, count := 3, newPage := 0xFFFFFFFF,
              tokens := (sl.tokens ++ r.2).take 4 }

/-- Prefetch slots for a session with pages in the slow tier, one page a slot (R481). -/
def placePrefetch (f : Fill) (p : RoundPlan) (i : Nat) : Fill :=
  let c := getSess f.s i
  if !placeable f.s c then f
  else
    (c.pages.zip (List.range c.pages.length)).foldl (fun f e =>
      let g := getPage f.s e.1
      match g.state, g.spill with
      | .spilled, some n =>
        if !f.room p 4 then f
        else
          let r := allocPage f.s c.table (if e.2 = 0 then none else c.pages[e.2 - 1]?) e.2
          match r.2 with
          | .page q =>
            let s := setPage r.1 q { getPage r.1 q with state := .prefetching }
            let s := modPage s e.1 fun g => { g with state := .prefetching }
            { f with s := s }.put p
              { slot := 0, session := sessHandle s i, position := c.position, kind := 4, mandatory := false,
                newSession := !c.named, close := false, count := 1, newPage := w32 q, pages := [q], tokens := [w32 n],
                fold := false, status := 0 }
          | .spilling => { f with s := spillChan r.1 c.table (e.2 % 32) }
          | .none => { f with s := if busySession (getSess r.1 i) then endRequest r.1 i 6 else r.1 }
      | _, _ => f) f

/-- The pages whose nodes descend from those of some pages, generation by generation; the count limits them. -/
def descendants (s : State) : Nat → List Nat → List Nat
  | 0, _ => []
  | n + 1, ps =>
    let kids := (s.cache.pages.filter fun e => e.2.shared && e.2.parent.any fun p => ps.contains p).map (·.1)
    if kids.isEmpty then [] else kids ++ descendants s n kids

/-- The next generation of a pin slot: 24 bits, skipping 0. -/
def nextPinGen (g : BitVec 24) : BitVec 24 := if g + 1 = 0 then 1 else g + 1

/-- A pin is given up for which no page is found or whose page is lost; a command that has not completed ends with an internal error (DESIGN
CHOICE, log 174: CAPACITY of R463 is the status of a request, and R490 speaks of sessions). -/
def dropPin (s : State) (n : Nat) : State :=
  let k := sget Pin.free s.cache.pins n
  let h := pinHandle s n
  let s := modRound s k.table fun r => { r with closes := r.closes ++ [h + guestTag] }
  let s := k.pages.foldl dropPage (modPin s n fun p => { Pin.free with gen := nextPinGen p.gen })
  if k.ready then s else endBackground s 0xC050 .internalError 0 []

/-- A page is lost: its holders' requests fail, their pages from there on go, the node and its descendants leave the tree
(R490). -/
def pageLost (s : State) (p : Nat) : State :=
  let g := getPage s p
  let hs := holders s p
  let mask := (g.table :: hs.map fun i => (getSess s i).table).eraseDups
  let kids := descendants s s.cache.pages.length [p]
  let s := hs.foldl (fun s i =>
    let cut := (g.first.toNat / 32)
    let c := getSess s i
    let s := modSess s i fun c => { c with position := g.first, pages := c.pages.take cut, prompt := [] }
    let s := (c.pages.drop cut).foldl (fun s q => if q = p then s else dropPage s q) s
    if busySession c then endRequest s i 8 else s) s
  let s := ((s.cache.pins.filter fun e => e.2.used && e.2.pages.contains p).map (·.1)).foldl dropPin s
  let s := kids.foldl leaveTree s
  let s := kids.foldl (fun s q => if (holders s q).isEmpty && !isPinned s q then freePage s q else s) s
  let s := freePage s p
  logGen s evSrvPageLost uCtl (some g.table) [w32 p] [w64 (mask.map (2 ^ ·)).sum]

/-- The pages of a page's ancestors in the tree, and the page; the count limits them. -/
def lineage (s : State) : Nat → Nat → List Nat
  | 0, p => [p]
  | n + 1, p =>
    match (getPage s p).parent with
    | some q => lineage s n q ++ [p]
    | none => [p]

/-- The page list that a page's recompute uses: of a session that holds the page or else of a pin, cut at the page; of a cached page its
ancestors (R487; DESIGN CHOICE, log 176, for a page that no session holds). -/
def recomputeList (s : State) (p : Nat) : List Nat :=
  let n := (getPage s p).first.toNat / 32 + 1
  match (holders s p).head?, s.cache.pins.find? fun e => e.2.used && e.2.pages.contains p with
  | some i, _ => (getSess s i).pages.take n
  | none, some e => e.2.pages.take n
  | none, none => lineage s n p

/-- The tokens of a page to recompute, from its header row. A page that is not full has no header row of its own, so its tokens are lost
(DESIGN CHOICE, log 176). -/
def recomputeTokens (s : State) (p : Nat) : State × Option (List W32) :=
  if (getPage s p).tokens.length < 32 then (s, none) else headerTokens s p

/-- A recompute rider for a page (R487), or its loss (R490). -/
def placeRecompute (f : Fill) (p : RoundPlan) (pg : Nat) : Fill :=
  if !f.room p 2 then f
  else
    let h := recomputeTokens f.s pg
    match h.2 with
    | none => { f with s := pageLost h.1 pg }
    | some toks =>
      let g := getPage h.1 pg
      let r := freeTokens h.1 1
      let handle : W64 := match (holders h.1 pg).head? with | some i => sessHandle h.1 i | none => 0
      let q := { f with s := r.1 }.put p
        { slot := 0, session := handle, position := g.first, kind := 2, mandatory := true, newSession := false, close := false,
          count := 32, newPage := w32 pg, pages := recomputeList h.1 pg, tokens := toks ++ r.2, fold := false, status := 0 }
      if f.slots.length < q.slots.length then { q with s := logGen q.s evSrvPageRecompute uCtl (some g.table) [w32 pg] [] } else q

/-- A mandatory rider over a plain page list. -/
def putRider (f : Fill) (p : RoundPlan) (h : W64) (pos : Nat) (pages : List Nat) (toks : List W32) : Fill :=
  let n := min 128 toks.length
  let r := freeTokens f.s (n + 1 - min (n + 1) toks.length)
  { f with s := r.1 }.put p
    { slot := 0, session := h, position := w32 pos, kind := 2, mandatory := true, newSession := false, close := false,
      count := n, newPage := pageWord pages[ceilDiv pos 32]?, pages := pages, tokens := toks.take (n + 1) ++ r.2, fold := false,
      status := 0 }

/-- A pin's rider (R473). -/
def placePin (f : Fill) (p : RoundPlan) (n : Nat) : Fill :=
  let k := sget Pin.free f.s.cache.pins n
  if k.ready || !k.used || !f.room p 2 then f
  else
    let toks := k.tokens.drop k.committed
    let g := growList f.s k.table (ceilDiv (k.committed + min 128 toks.length) 32) 5 k.pages
    let f := { f with s := modPin g.1 n fun k => { k with pages := g.2.1 } }
    if g.2.2 = 2 then { f with s := dropPin f.s n }
    else if g.2.2 = 0 then putRider f p (pinHandle f.s n + guestTag) k.committed g.2.1 toks
    else f

/-- A prefill job's rider (R447); a job for which no page is found ends badly (R448, R463). -/
def placeJob (f : Fill) (p : RoundPlan) (h : W64) : Fill :=
  match f.s.cache.jobs.find? fun j => j.session = h with
  | none => f
  | some j =>
    if j.tokens = [] || j.committed = j.tokens.length || !f.room p 2 then f
    else
      let toks := j.tokens.drop j.committed
      let g := growList f.s j.table (ceilDiv (j.committed + min 128 toks.length) 32) 5 j.pages
      let f := { f with s := modJob g.1 h fun j => { j with pages := g.2.1 } }
      if g.2.2 = 2 then { f with s := finishJob f.s { j with pages := g.2.1 } false }
      else if g.2.2 = 0 then putRider f p (h + guestTag) j.committed g.2.1 toks
      else f

/-- The pages of a table that wait for their recompute. -/
def lostPages (s : State) (t : Nat) : List Nat :=
  (s.cache.pages.filter fun e => inMemory e.1 && e.2.table = t && e.2.state = .recomputing).map (·.1)

/-- An empty round. -/
def newFill (s : State) (t : Nat) (p : RoundPlan) : Fill :=
  { s := s, slots := [], cursor := listsStart p, size := ((roundArea s t).map (·.size)).getD 0,
    entries := listCap - (getRound s t).verdicts.length, full := false }

/-- The recompute riders of a round: first of all slots (R438, R487). -/
def fillRecompute (t : Nat) (p : RoundPlan) (f : Fill) : Fill := (lostPages f.s t).foldl (fun f pg => placeRecompute f p pg) f

/-- Fill a round in the order of R438. -/
def fillRound (s : State) (t : Nat) (p : RoundPlan) : Fill :=
  let f := fillRecompute t p (newFill s t p)
  let f := (sessionsIn f.s t fun c => c.phase = .prefill && 4 ≤ c.folds).foldl (fun f i => placeRider f p i) f
  let f := ((f.s.cache.pins.filter fun e => e.2.table = t).map (·.1)).foldl (fun f n => placePin f p n) f
  let f := ((f.s.cache.jobs.filter fun j => j.table = t).map (·.session)).foldl (fun f h => placeJob f p h) f
  let f := (sessionsIn f.s t fun c => c.phase = .decode).foldl (fun f i => placeDecode f p i) f
  let f := (sessionsIn f.s t fun c => c.phase = .prefill && c.folds < 4).foldl (fun f i => placeRider f p i) f
  let f := (f.slots.filter fun sl => sl.kind = 1).foldl (fun f sl => placeDraft f p sl) f
  (sessionsIn f.s t fun c => c.phase = .queued || c.phase = .prefill || c.phase = .decode || c.phase = .resuming).foldl
    (fun f i => placePrefetch f p i) f

/-! ### Marks and lists (R370, R371, R434, R435) -/

/-- The entry of a slot in a list. -/
def slotEntry (sl : RoundSlot) : ServEntry :=
  { session := sl.session, position := sl.position, slot := sl.slot, kind := sl.kind,
    flags := BitVec.ofNat 8 ((if sl.mandatory then 2 else 0) + (if sl.newSession then 4 else 0)), count := sl.count,
    newPage := sl.newPage }

/-- The entry that closes a session (Table 13.14). -/
def closeEntry (h : W64) : ServEntry :=
  { session := h, position := 0, slot := 0, kind := 0, flags := 8, count := 0, newPage := 0xFFFFFFFF }

/-- The firmware starts the reads of a round's prefetch slots; one that it cannot start is folded (R482). -/
def startPrefetches (s : State) (t : Nat) : State :=
  ((getRound s t).slots.filter fun sl => sl.kind = 4).foldl (fun s sl =>
    match sl.tokens.head?, sl.pages.head? with
    | some n, some q =>
      match spillAddr s t n.toNat with
      | some a => if s.host.busMaster then issuePrefetch s t sl.slot q n.toNat a else slotWrite s t sl.slot 48 2
      | none => slotWrite s t sl.slot 48 2
    | _, _ => slotWrite s t sl.slot 48 2) s

/-- Send a table's round mark down the tree and its list to every member, and write the own round tables; the budget starts (R370, R434,
R441). Closes that the 32 parts of the list cannot hold wait for the next one. -/
def announceRound (s : State) (t : Nat) (d : Deck) : State :=
  let n := s.lastRound + 1
  let s := { s with lastRound := n }
  let s := modRound s t fun r =>
    { r with isOpen := true, round := n, written := false, again := false, startMeter := s.meter.toNat, expired := false, reports := [],
             reported := false, heldMark := none, parts := [] }
  let s := (childrenOf s d (ownIndex s)).foldl (fun s m => sendFrame s m t (.roundMark d.role.group n)) s
  let r := getRound s t
  let k := listCap - r.verdicts.length - r.slots.length
  let s := modRound s t fun r => { r with closesSent := r.closes.take k, closes := r.closes.drop k }
  let es := (r.closes.take k).map closeEntry ++ r.verdicts ++ r.slots.map slotEntry
  let s := (listParts 1 t n s.gen es).foldl (fun s m => (otherMembers s d).foldl (fun s k => sendFrame s k t (.serving m)) s) s
  startPrefetches (writeArea s t) t

/-- Whether the dealer may send a round mark of a table: the group serves, the pools are filled, nothing holds marks, and the table is
enabled and has a round-closing trick. -/
def mayMark (s : State) (d : Deck) (t : Nat) : Bool :=
  isDealer s && s.ctl.group = .serving && !s.loader.poolFill && !s.ctl.heldSwitch && !s.ctl.windowOpen && !s.ctl.windowAsked &&
    s.ctl.fwPhase ≠ .waiting && s.ctl.idState = .running &&
    (getTable s t).enabled && !(getRound s t).isOpen && (closingTrick d t).isSome

/-- Whether the dealer may start a new round of a table: not while the table is being disabled (R450). -/
def mayStart (s : State) (d : Deck) (t : Nat) : Bool := mayMark s d t && !(getTable s t).disabling

/-- Whether the dealer still waits for reports of the last round; those that an abort has cut off are not waited for (R443; DESIGN CHOICE,
log 174). -/
def awaitsReports (s : State) (t : Nat) : Bool :=
  let r := getRound s t
  r.verdictDue && !r.reportsLost && !allReported s t

/-- The firmware reads the session entries of a table's running requests; one with a poisoned word ends its request with POISONED (R652). -/
def readSessions (s : State) (t : Nat) : State :=
  ((s.sessions.filter fun e => e.2.table = t && busySession e.2 && e.2.state ≠ .shadow).map (·.1)).foldl (fun s i =>
    let r := readSession s i
    if r.2 then endRequest r.1 i 8 else r.1) s

/-- Start the next round of a table at the dealer once every member has reported the last one (R438, R443). -/
def startRound (s : State) (t : Nat) : State :=
  match deckOf s with
  | none => s
  | some d =>
    if !mayStart s d t || (getRound s t).again || awaitsReports s t then s
    else
      let s := settleRound s t
      let s := readSessions s t
      let s := spillPausing (spillShort s t) t
      let f := fillRound s t d.plan
      let s := modRound f.s t fun r => { r with slots := f.slots, poisonReplay := false }
      let s := if f.full then logGen s evSrvRoundAreaFull uCtl (some t) [w32 t, s.lastRound + 1] [] else s
      let s := f.slots.foldl (fun s sl =>
        match sessOf s sl.session with
        | some i => modSess s i fun c => { c with named := true, shipping := false }
        | none => s) s
      raiseRecheck (announceRound s t d)

/-- Replay a round after an abort: a new ROUND number, the same slots with nothing folded, and the closes of the aborted list again; a round
replayed for poison carries recompute riders first (R401, R446, R487). The round of a table that is being disabled is replayed with its
droppable slots folded (R450). -/
def replayRound (s : State) (t : Nat) : State :=
  match deckOf s with
  | none => s
  | some d =>
    if !(mayMark s d t && (getRound s t).again) then s
    else
      let r := getRound s t
      let f := if r.poisonReplay then fillRecompute t d.plan (newFill s t d.plan) else newFill s t d.plan
      let f := r.slots.foldl (fun f sl => f.put d.plan { sl with fold := false }) f
      let s := modRound f.s t fun r => { r with slots := f.slots, closes := r.closesSent ++ r.closes }
      let s := if f.full then logGen s evSrvRoundAreaFull uCtl (some t) [w32 t, s.lastRound + 1] [] else s
      let s := announceRound s t d
      if (getTable s t).disabling then foldSlots s t fun _ => true else s

/-- Start or replay the round of every table (R574). -/
def startRounds (s : State) : State :=
  match deckOf s with
  | none => s
  | some d => (d.tables.map (·.table)).foldl (fun s t => startRound (replayRound s t) t) s

/-! ### A round closes (R401, R416, R441, R445) -/

/-- Tokens up to and with the first that the deck marks as final. -/
def upToFinal (param : W64) : List W32 → List W32
  | [] => []
  | t :: r => if Config.finalMark param t then [t] else t :: upToFinal param r

/-- Emit a decode slot's tokens (R416, R440). -/
def emitSlot (s : State) (t : Nat) (sl : RoundSlot) : State :=
  match sessOf s sl.session with
  | none => s
  | some i =>
    let c := getSess s i
    let o := slotOut s t sl.slot
    let out := (o.2.map (·.1)).take (sl.count + 1)
    if c.phase ≠ .decode || c.aborting || c.position ≠ sl.position then s
    else if o.2.any (·.2) then
      endRequest (logGen o.1 evIntPoisonToken uCtl (some t) [(getRound s t).round] [sl.session]) i 8
    else
      let toks := upToFinal c.param (out.take c.left.toNat)
      if toks = [] then o.1
      else
        let ends := toks.length = c.left.toNat || (toks.getLast?.any fun k => Config.finalMark c.param k)
        let s := commitTokens o.1 c.pages c.position.toNat true 1 (sl.tokens.take toks.length)
        let s := modSess s i fun c =>
          { c with position := c.position + w32 toks.length, left := c.left - w32 toks.length,
                   prompt := toks.getLast?.toList, draft := [] }
        let s := match chanOf s c.reqChan with
          | some n => queueEntry s n { tag := c.tag, kind := 0, status := 0, tokens := toks, position := (getSess s i).position }
          | none => s
        if ends then endRequest s i 0 else s

/-- The decode slots of a round whose output holds a poisoned token. -/
def poisonedSlots (s : State) (t : Nat) : List RoundSlot → State × List RoundSlot
  | [] => (s, [])
  | sl :: r =>
    let o := slotOut s t sl.slot
    let q := poisonedSlots o.1 t r
    (q.1, if o.2.any (·.2) then sl :: q.2 else q.2)

/-- What every module counts when a round closes: rounds, and an overrun where BUDGET has passed (R445, Table 13.17). -/
def countClose (s : State) (t : Nat) : State :=
  let r := getRound s t
  let s := modTable s t fun k => { k with rounds := k.rounds + 1 }
  let s := modCtl s fun c => { c with stalledRound := none, roundsSinceWindow := c.roundsSinceWindow + 1 }
  if budgetOf s < s.meter.toNat - r.startMeter then
    let s := modTable s t fun k => { k with overruns := satInc 0xFFFFFFFF k.overruns }
    let sec := s.meter.toNat / 100000000
    if r.overrunLogged = some sec then s
    else
      logGen (modRound s t fun r => { r with overrunLogged := some sec }) evSrvRoundOverrun uCtl (some t)
        [w32 t, w32 (getTable s t).overruns] []
  else s

/-- Open a round on a member whose mark has been accepted; its budget runs from the mark's receipt, which may lie back (R28, R30). -/
def openRound (s : State) (t : Nat) (n : W32) : State :=
  modRound s t fun r =>
    { r with isOpen := true, round := n, written := false, reported := false, heldMark := none,
             startMeter := if r.heldMark.isSome then r.heldAt else s.meter.toNat, expired := r.heldMark.isSome && r.heldExpired,
             parts := r.parts.filter fun m => m.round = n }

/-- The round of a table closes on this module. The dealer checks its tokens first: on the first poisoned one the round
is cancelled and replayed, else its tokens are emitted (R401, R416). -/
def roundClosed (s : State) (t : Nat) : State :=
  let r := getRound s t
  if !r.isOpen then s
  else
    let s := tryReport s t
    if isDealer s then
      let q := poisonedSlots s t (r.slots.filter fun sl => sl.kind = 1)
      match q.2 with
      | sl :: _ =>
        if !r.poisonReplay then
          let s := logGen q.1 evIntPoisonToken uCtl (some t) [r.round] [sl.session]
          let s := modRound s t fun r => { r with poisonReplay := true }
          groupAbort s (ownIndex s) (evIntPoisonToken.word uCtl)
        else
          let s := modRound (countClose q.1 t) t fun r => { r with isOpen := false, verdictDue := true }
          notifyChannels (boundary ((r.slots.filter fun sl => sl.kind = 1).foldl (fun s sl => emitSlot s t sl) s) t) t
      | [] =>
        let s := modRound (countClose q.1 t) t fun r => { r with isOpen := false, verdictDue := true }
        let s := (r.slots.filter fun sl => sl.kind = 1).foldl (fun s sl => emitSlot s t sl) s
        notifyChannels (boundary s t) t
    else
      let s := modRound (countClose s t) t fun r => { r with isOpen := false, verdictDue := true }
      match r.heldMark with
      | some n => if s.ctl.fwPhase = .waiting then s else openRound s t n
      | none => s

/-- A prefetch slot has its STATUS: a round that has closed without it is reported now (R443, R482). -/
def lateReport (s : State) (t : Nat) : State :=
  let r := getRound s t
  if r.isOpen || !r.verdictDue || r.reported then s
  else
    let s := tryReport s t
    if isDealer s then startRounds s else s

end Sys2Proof.Machine
end

