-- ==== Sys2Proof/Machine/Install.lean ====
section
/-! DEFINITION. Loading a verified deck into the machine: step 6 of a live switch and the start of R99 (R92, R95, R99, R111,
R234, R241, R245, R301, R316, R369, R393, R403, R462). -/

namespace Sys2Proof.Machine

/-! ### Tricks -/

/-- The home cluster of a trick entry (R300). -/
def homeOf (e : TrickEntry) : Nat := ((e.masks.map (·.1)).min?).getD 0

/-- Number of children of this module in the combine tree of the running deck. -/
def childCount (s : State) : Nat := ((deckOf s).map fun d => (childrenOf s d (ownIndex s)).length).getD 0

/-- A trick slot as a deck entry sets it; EPOCH is kept (R301). -/
def trickFrom (t : Trick) (e : TrickEntry) (children : Nat) : Trick :=
  { epoch := t.epoch, arrived := 0, expected := e.expected, children := if e.spanning then children else 0, childArrived := 0,
    valid := true, spanning := e.spanning, table := e.table, sent := false }

/-- The switch trick: spanning, with one local member (R313). -/
def switchTrick (t : Trick) (children : Nat) : Trick :=
  { epoch := t.epoch, arrived := 0, expected := 1, children := children, childArrived := 0, valid := false, spanning := true,
    table := 0, sent := false }

/-- Load the trick map. Each member cluster knows its tricks' epochs (DEDUCED: R303 needs a value before the first
release). -/
def installTricks (s : State) (d : Deck) : State :=
  let n := childCount s
  let s := { s with tricks := s.tricks.foldl (fun m e => sput Trick.empty m e.1 { Trick.empty with epoch := e.2.epoch }) [],
                    arrives := [], releases := [], clusterPlays := [], known := [] }
  let s := d.tricks.foldl (fun s e => setTrick s e.trick (trickFrom (getTrick s e.trick) e n)) s
  let s := setTrick s 0 (switchTrick (getTrick s 0) n)
  d.tricks.foldl (fun s e =>
    e.masks.foldl (fun s m => { s with known := sput 0 s.known (knownKey e.trick m.1) (getTrick s e.trick).epoch }) s) s

/-! ### Streams, regulators, tables -/

/-- A stream's ends as a deck entry sets them (R316); the tallies go on. -/
def streamFrom (k : Stream) (e : StreamEntry) : Stream :=
  { Stream.empty with prodValid := e.kind ≠ 2, consValid := e.kind ≠ 1, avail := if e.kind ≠ 2 then e.initial else 0,
                      ptally := k.ptally, ctally := k.ctally }

/-- Load the credit map. -/
def installStreams (s : State) (d : Deck) : State :=
  let s := { s with streams := s.streams.foldl (fun m e =>
                      sput Stream.empty m e.1 { Stream.empty with ptally := e.2.ptally, ctally := e.2.ctally }) [],
                    creditFlight := [], pushes := [] }
  d.streams.foldl (fun s e => setStream s e.stream (streamFrom (getStream s e.stream) e)) s

/-- Load the regulator set: a pair without an entry is disabled (R241, R245). -/
def installRegs (s : State) (d : Deck) : State :=
  let s := { s with regs := [] }
  d.regs.foldl (fun s e => setReg s (pairOf e.table e.resource)
    { enable := true, refill := w32 e.refill, depth := w32 e.depth, level := (e.depth : Int), rejected := false,
      pend := none }) s

/-- Enable the tables whose entry says so (Table 3.11). -/
def installTables (s : State) (d : Deck) : State :=
  (List.range 64).foldl (fun s t =>
    modTable s t fun k => { k with enabled := (d.tables.find? fun e => e.table = t).any (·.enabled), disabling := false }) s

/-! ### Stacks -/

/-- Region rows of a stack. -/
def regionRows (d : Deck) (stack : Nat) : Nat :=
  ((d.regions.filter fun r => addrStack r.base = stack).map fun r => r.size / 1024).sum

/-- Start a scrub lap (R403). -/
def startLap (s : State) (n : Nat) : State :=
  let total := ((deckOf s).map fun d => regionRows d n).getD 0
  modStack s n fun k =>
    { k with scrub := { k.scrub with running := total ≠ 0, trump := false, late := false, read := 0, total := total,
                                     cursors := [], owed := [], start := k.meter.toNat } }

/-- Note whether a stack's refresh step exceeds the deck's thermal class; entry is logged once (R234). -/
def checkClass (s : State) (n : Nat) : State :=
  let k := getStack s n
  let cls := (planOf s).map (·.thermalClass)
  let above := cls.any fun c => c < k.refreshStep
  let s := setStack s n { k with overClass := above }
  if above && !k.overClass then logGen s evThmStackOverClass (uStack n) none [w32 k.refreshStep, w32 (cls.getD 0)] []
  else s

/-! ### The source directory (R393) -/

/-- Ask a peer about one source region. -/
def askSource (s : State) (r : Region) : State := sendFrame s r.srcModule 64 (.directoryAsk r.srcRegion)

/-- Build the directory of a deck: every entry is pending until its peer answers. -/
def installDirectory (s : State) (d : Deck) : State :=
  (d.regions.filter fun r => r.cls = .source && r.srcKind = 1).foldl (fun s r =>
    askSource { s with directory := sput none s.directory r.region (some .pending) } r) { s with directory := [] }

/-! ### Page pools (R461, R462) -/

/-- Frames of every page pool of a deck that lie in no region of another. -/
def newFrames (d : Deck) (old : List Region) : List Nat :=
  let rs := d.tables.flatMap fun t => d.regions.filter (isPool t.table)
  let fs := rs.flatMap fun r => rangeFrom (r.base / 2 ^ 21) (r.size / 2 ^ 21)
  fs.filter fun f => !(old.any fun r => r.base < (f + 1) * 2 ^ 21 && f * 2 ^ 21 < r.base + r.size)

/-! ### The whole of it -/

/-- Everything of a deck but its programs takes effect; `old` are the regions that keep their contents. -/
def installDeck (s : State) (d : Deck) (slot : Nat) (old : List Region) : State :=
  let fill := newFrames d old
  let s := modLoader s fun l =>
    { l with running := some d, runningSlot := slot, poolFill := !fill.isEmpty, fillFrames := fill, image := l.newImage }
  let s := match s.routesPending with
    | some r => logBare { s with routes := r, routesPending := none } evFabRouteLoaded uFabric
    | none => s
  let s := modCtl s fun c => { c with windowOpen := false, windowDone := [], spareCores := [] }
  let s := { s with cores := s.cores.foldl (fun m e => sput Core.empty m e.1 { Core.empty with ticketGen := e.2.ticketGen + 1 }) [],
                    latchFlight := s.latchFlight.map fun f => { f with core := 4096 } }
  let s := installTables (installRegs (installStreams (installTricks s d) d) d) d
  let s := (List.range 8).foldl (fun s n => checkClass (startLap s n) n) s
  let s := installDirectory s d
  let s := sidesForRoles s
  (List.range 12).foldl takeRole s

end Sys2Proof.Machine
end

