-- ==== Sys2Proof/Machine/Members.lean ====
section
/-! DEFINITION. A member's part of a round: shadows of the dealer's sessions, what a round list tells it, and the writing of
its round tables (R26, R28, R414, R434, R435, R440, R443, R447, R460, R465, R481). What no message carries is a free value: the tokens of
prompts, the pages of a matched prefix. -/

namespace Sys2Proof.Machine

/-- What a member follows of a handle, a session's shadow or a pin or job: its page list, the tokens it has put into round areas for it by
position, and the candidates of a draft that has its COMMIT. -/
structure Follow where
  pages : List Nat
  position : Nat
  tokens : List W32
  cands : List W32
  deriving DecidableEq, Repr

/-- The slot of a session's shadow. A shadow keeps the handle in KEY, which members have no other use for. -/
def shadowOf (s : State) (h : W64) : Option Nat :=
  let n := h.toNat % 2 ^ 20
  if (getSess s n).state = .shadow && (getSess s n).key = h then some n else none

/-- The job or pin of a guest rider's handle. -/
def guestJob (s : State) (g : W64) : Option PrefillJob := s.cache.jobs.find? fun j => j.session = g

/-- What a member holds for a handle. -/
def followOf (s : State) (h : W64) : Option Follow :=
  match guestOf h with
  | some g => (guestJob s g).map fun j => { pages := j.pages, position := j.committed, tokens := j.tokens, cands := [] }
  | none =>
    (shadowOf s h).map fun n =>
      let c := getSess s n
      { pages := c.pages, position := c.position.toNat, tokens := c.prompt, cands := c.draft }

/-- Set what a member holds for a handle. The prompt of a job is known and stays. -/
def setFollow (s : State) (t : Nat) (h : W64) (f : Follow) : State :=
  match guestOf h with
  | some g =>
    let fresh : PrefillJob := { src := ownIndex s, table := t, session := g, newPage := 0, parts := [], total := 0, tokens := [],
                                pages := [], committed := 0, acks := [], shipping := false, failed := false, done := [] }
    let j := (guestJob s g).getD fresh
    let j := { j with pages := f.pages, committed := f.position, tokens := if j.total = 0 then f.tokens else j.tokens }
    { s with cache := { s.cache with jobs := s.cache.jobs.filter (fun x => x.session ≠ g) ++ [j] } }
  | none =>
    modSess s (h.toNat % 2 ^ 20) fun c =>
      { Session.free with gen := c.gen, state := .shadow, table := t, key := h, pages := f.pages, position := w32 f.position,
                          prompt := f.tokens, draft := f.cands }

/-- Forget a handle (Table 13.14, CLOSE). -/
def dropFollow (s : State) (h : W64) : State :=
  match guestOf h with
  | some g => { s with cache := { s.cache with jobs := s.cache.jobs.filter fun j => j.session ≠ g } }
  | none =>
    match shadowOf s h with
    | some n => modSess s n fun c => { Session.free with gen := c.gen }
    | none => s

/-- Free page numbers. -/
def freePages (s : State) (n : Nat) : State × List Nat :=
  let r := freeTokens s n
  (r.1, r.2.map fun w => w.toNat % 2 ^ 24)

/-- Tokens up to a position: those that are known, then free values. -/
def knownTo (s : State) (toks : List W32) (n : Nat) : State × List W32 :=
  let r := freeTokens s (n - toks.length)
  (r.1, toks ++ r.2)

/-- The parent key of page `k` of a token list: the key of the pages before it (R465). -/
def chainKey (toks : List W32) : Nat → W64
  | 0 => 0
  | k + 1 => pageKey (chainKey toks k) ((toks.drop (32 * k)).take 32)

/-- The header row of page `k` of a list that became full, with its origin (R460). -/
def memberHeader (s : State) (t p k origin : Nat) (toks : List W32) : State :=
  writeHeader s p (chainKey toks (k + 1)) (chainKey toks k) (32 * k) t origin ((toks.drop (32 * k)).take 32)

/-- The header row of a page that has been recomputed: its tokens as this module's own row has them (R488). Its lines have been written
whole. -/
def recomputedHeader (s : State) (t p first : Nat) : State :=
  let b := fwRead s (headerAddr p + 8) 8
  let r := headerTokens b.1 p
  let k := match r.2 with | some toks => (r.1, toks) | none => freeTokens r.1 32
  let parent : W64 := w64 (bytesVal b.2)
  modPage (writeHeader k.1 p (pageKey parent k.2) parent first t 2 k.2) p fun g => { g with dirtyFree := false }

/-- A member's page list advances to a position: pages that became full get their header rows. -/
def advance (s : State) (t : Nat) (f : Follow) (to_ origin : Nat) : State × Follow :=
  let k := knownTo s f.tokens to_
  ((rangeFrom (f.position / 32) (to_ / 32 - f.position / 32)).foldl (fun s i =>
    match f.pages[i]? with
    | some p => memberHeader s t p i origin k.2
    | none => s) k.1, { f with tokens := k.2 })

/-- The spilled pages of a list, in order: page and spill slot. -/
def spilledOf (s : State) (f : Follow) : List (Nat × Nat) :=
  f.pages.filterMap fun p => (getPage s p).spill.map fun n => (p, n)

/-- Clear the spill marks of pages that a round uses in place. -/
def inPlace (s : State) (f : Follow) : State :=
  f.pages.foldl (fun s p => if (getPage s p).spill.isSome then modPage s p fun g => { g with spill := none } else s) s

/-- A job whose last rider has its COMMIT: this member's copies of its pages are shipped (R447). -/
def jobAdvanced (s : State) (h : W64) : State :=
  match (guestOf h).bind (guestJob s) with
  | some j => if j.total ≠ 0 && j.tokens ≠ [] && j.committed = j.tokens.length && !j.shipping then shipJob s j else s
  | none => s

/-- One verdict at a member: with COMMIT a rider's pages are linked, a draft's candidates are handed on, a prefetched page takes its place
(R443, R482, R488). -/
def memberVerdict (s : State) (t : Nat) (e : ServEntry) : State :=
  match (getRound s t).slots.find? fun sl =>
    sl.slot = e.slot && sl.session = e.session && sl.position = e.position && sl.newPage = e.newPage with
  | none => s
  | some sl =>
    if !bitOf e.flags.toNat 0 then s
    else
      let f := followOf s sl.session
      let pos := sl.position.toNat
      match sl.kind, f with
      | 2, some f =>
        if f.position ≤ pos then
          let a := advance s t { f with pages := sl.pages, position := pos } (pos + sl.count) 0
          jobAdvanced (setFollow a.1 t sl.session { a.2 with position := pos + sl.count }) sl.session
        else recomputedHeader s t sl.newPage.toNat pos
      | 2, none => recomputedHeader s t sl.newPage.toNat pos
      | 3, some f =>
        let o := outWords s t sl.slot sl.count
        setFollow o.1 t sl.session { f with cands := o.2.map (·.1) }
      | 4, some f =>
        match (spilledOf s f).find? fun x => sl.tokens.head? = some (w32 x.2), sl.pages.head? with
        | some x, some q =>
          let s := modPage s x.1 fun g => { g with spill := none }
          setFollow s t sl.session { f with pages := f.pages.map fun p => if p = x.1 then q else p }
        | _, _ => s
      | _, _ => s

/-- Positions that a slot covers. -/
def coverOf (e : ServEntry) : Nat :=
  match e.kind with
  | 1 => 1 + e.count
  | 2 => e.count
  | _ => 1

/-- The index in a page list of the page that NEW_PAGE names: the last up to a position whose memory channel is the page's (R458). -/
def newIndex (pos newPage : Nat) : Nat := ceilDiv pos 32 - (ceilDiv pos 32 + 32 - pageChan newPage) % 32

/-- The pages of a slot of a member: those it follows, where NEW_PAGE names the first new one; free values where no list has named one
(R434, R443). -/
def slotPages (s : State) (f : Follow) (e : ServEntry) : State × List Nat × List Nat :=
  let pos := e.position.toNat
  let need := ceilDiv (pos + coverOf e) 32
  let start := if e.newPage = 0xFFFFFFFF then need else newIndex pos e.newPage.toNat
  let pad := freePages s (start - f.pages.length)
  let base := f.pages ++ pad.2
  if e.newPage = 0xFFFFFFFF then (pad.1, base, base)
  else (pad.1, base.take start, base.take start ++ pageRun e.newPage.toNat (need - start))

/-- The `COUNT + 1` input tokens of a slot of a member (R437, R439, R440): a decode slot has its last token and the candidates of the draft
handed on, any other what is known from its position on; what no message carries is a free value. -/
def slotTokens (s : State) (f : Follow) (e : ServEntry) : State × List W32 :=
  if e.kind = 1 then
    let r := freeTokens s 1
    knownTo r.1 (r.2 ++ f.cands.take e.count) (e.count + 1)
  else knownTo s ((f.tokens.drop e.position.toNat).take (e.count + 1)) (e.count + 1)

/-- A member's slot for a list entry (R434, R437). -/
def memberSlot (s : State) (t : Nat) (e : ServEntry) : State × RoundSlot :=
  let pos := e.position.toNat
  let old := if bitOf e.flags.toNat 2 then none else followOf s e.session
  let a := advance s t (old.getD { pages := [], position := pos, tokens := [], cands := [] }) pos 1
  let f0 := a.2
  let s := a.1
  let base (pages : List Nat) (toks : List W32) : RoundSlot :=
    { slot := e.slot, session := e.session, position := e.position, kind := e.kind, mandatory := bitOf e.flags.toNat 1,
      newSession := bitOf e.flags.toNat 2, close := false, count := e.count, newPage := e.newPage, pages := pages, tokens := toks,
      fold := false, status := 0 }
  if e.kind = 4 then
    let n := ((getRound s t).slots.filter fun sl => sl.kind = 4 && sl.session = e.session).length
    let s := if old.isSome then s else setFollow s t e.session f0
    (s, base [e.newPage.toNat] (((spilledOf s f0)[n]?).map fun x => w32 x.2).toList)
  else if e.kind = 2 && pos < f0.position then
    let toks := slotTokens s f0 e
    (inPlace toks.1 f0, base (f0.pages.take (pos / 32 + 1)) toks.2)
  else
    let g := slotPages s f0 e
    let toks := slotTokens g.1 f0 e
    let f1 : Follow := { f0 with position := max pos f0.position, pages := if e.kind = 1 then g.2.2 else g.2.1,
                                 tokens := if e.kind = 3 then f0.tokens else f0.tokens.take pos ++ toks.2,
                                 cands := if e.kind = 1 then [] else f0.cands }
    let s := if e.session = 0 then toks.1 else setFollow (inPlace toks.1 f1) t e.session f1
    (s, base g.2.2 toks.2)

/-- Take the slots of a list one by one. -/
def memberSlots (s : State) (t : Nat) : List ServEntry → State
  | [] => s
  | e :: r =>
    let q := memberSlot s t e
    memberSlots (modRound q.1 t fun r => { r with slots := r.slots ++ [q.2] }) t r

/-- The entries of a list in the order of its parts. -/
def listEntries (ms : List ServMsg) : List ServEntry :=
  match ms.head? with
  | none => []
  | some m => (List.range m.parts).flatMap fun i => ((ms.find? fun x => x.part = i).map (·.entries)).getD []

/-- A member that holds a round's mark and its whole list writes the round tables (R435); a budget that has expired folds its droppable
work at once. -/
def memberWrite (s : State) (t : Nat) : State :=
  let r := getRound s t
  if isDealer s || !r.isOpen || r.written || !partsHeld r.parts then s
  else
    let es := listEntries r.parts
    let s := (es.filter fun e => bitOf e.flags.toNat 3).foldl (fun s e => dropFollow s e.session) s
    let s := (es.filter fun e => e.kind = 0 && !bitOf e.flags.toNat 3).foldl (fun s e => memberVerdict s t e) s
    let s := modRound s t fun r => { r with slots := [], parts := [] }
    let s := memberSlots s t (es.filter fun e => e.kind ≠ 0)
    foldRound (startPrefetches (writeArea s t) t) t

/-- Whether a member holds round marks: from a switch's announce on (Table 3.19), until the takeover of an online activation (Table
17.5), and until its page pools are filled (R462). -/
def marksHeld (s : State) : Bool := s.ctl.heldSwitch || s.ctl.fwPhase = .waiting || s.loader.poolFill

/-- Open the marks that wait, once nothing holds them. -/
def openHeld (s : State) : State :=
  let ts := if marksHeld s then [] else (s.rounds.filter fun e => e.2.heldMark.isSome && !e.2.isOpen).map (·.1)
  ts.foldl (fun s t =>
    match (getRound s t).heldMark with
    | some n => memberWrite (openRound s t n) t
    | none => s) s

end Sys2Proof.Machine
end

