-- ==== Sys2Proof/Machine/Group.lean ====
section
/-! DEFINITION. Group formation, epoch alignment, READY, demotion and the loss of a dealer (R34, R311, R312, R417, R566, R567,
R573, R574, R581 to R583). -/

namespace Sys2Proof.Machine

/-- Whether the configuration store accepts writes: the compute die reads 0 °C to 85 °C (R549). -/
def storeWindow (s : State) : Bool :=
  let d := getDiode s 0
  d.valid && !d.failed && 0 ≤ d.temp && d.temp ≤ 340

/-! ### Messages -/

/-- EPOCH of every spanning trick the module defines, the switch trick among them (R313, R566). -/
def spanningPairs (s : State) (d : Deck) : List (Nat × W32) :=
  (0, (getTrick s 0).epoch) :: (d.tricks.filter (·.spanning)).map fun e => (e.trick, (getTrick s e.trick).epoch)

/-- The parts of a group message: at most 60 pairs each (Table 17.3). -/
def groupParts (s : State) (d : Deck) (kind : Nat) (arg : W32) (pairs : List (Nat × W32)) : List GroupMsg :=
  let n := max 1 (ceilDiv pairs.length 60)
  (List.range n).map fun i =>
    { kind := kind, part := i, parts := n, gen := s.gen, group := d.role.group, arg := arg, deckId := d.id.deckId,
      deckSerial := d.id.serial, pairs := (pairs.drop (60 * i)).take 60 }

/-- Send a group message in its parts. -/
def sendGroup (s : State) (dest : Nat) (ms : List GroupMsg) : State :=
  ms.foldl (fun s m => sendFrame s dest 64 (.group m)) s

/-- Send JOIN to the dealer (R566). -/
def sendJoin (s : State) : State :=
  match deckOf s with
  | none => s
  | some d =>
    sendGroup s (dealerIndex s d)
      (groupParts s d 1 (if s.ctl.rejoin then 1 else 0) (spanningPairs s d))

/-- A member that is still forming sends JOIN again when a port has trained: at its start no port may have been usable
(DESIGN CHOICE). -/
def joinAgain (s : State) : State := if s.ctl.group = .forming && !isDealer s then sendJoin s else s

/-! ### Values of R566 -/

/-- Steps from `b` to `a` in the cycle of generations 1 to 0xFFFF. -/
def genSteps (a b : BitVec 16) : Nat := (a.toNat + 0xFFFF - b.toNat) % 0xFFFF

/-- Whether a generation is higher than another. -/
def genHigher (a b : BitVec 16) : Bool := 1 ≤ genSteps a b && genSteps a b ≤ 32767

/-- The highest generation of some, of which those 32,768 or more steps from the dealer's own are left out. -/
def highestGen (own : BitVec 16) (gs : List (BitVec 16)) : BitVec 16 :=
  let gs := (own :: gs).filter fun g => g ≠ 0 && (own = 0 || genSteps g own < 32768)
  (gs.find? fun g => !(gs.any fun x => genHigher x g)).getD 0

/-- The higher of two epochs (R566). -/
def higherEpoch (a b : W32) : W32 := if aheadOf b a then b else a

/-- Whether the parts of a message from a module are all held. -/
def groupHeld (ms : List (Nat × GroupMsg)) (src kind : Nat) : Bool :=
  let mine := (ms.filter fun e => e.1 = src && e.2.kind = kind).map (·.2)
  match mine.head? with
  | none => false
  | some m => (List.range m.parts).all fun i => mine.any fun x => x.part = i

/-- Keep a part of a message; a newer message of its sender replaces an older one. -/
def holdPart (s : State) (src : Nat) (m : GroupMsg) : State :=
  modCtl s fun c =>
    { c with joined := (c.joined.filter fun e =>
        !(e.1 = src && e.2.kind = m.kind && (e.2.part = m.part || e.2.gen ≠ m.gen || e.2.parts ≠ m.parts))) ++ [(src, m)] }

/-- Drop the parts of a kind from a sender. -/
def dropParts (s : State) (src kind : Nat) : State :=
  modCtl s fun c => { c with joined := c.joined.filter fun e => !(e.1 = src && e.2.kind = kind) }

/-- Set EPOCH of one spanning trick; its member clusters know the new value (R312). -/
def setEpoch (s : State) (n : Nat) (e : W32) : State :=
  let t := getTrick s n
  if !t.spanning then s
  else
    let s := setTrick s n { t with epoch := e }
    match trickEntry s n with
    | none => s
    | some te => te.masks.foldl (fun s m => { s with known := sput 0 s.known (knownKey n m.1) e }) s

/-! ### At the dealer -/

/-- Prompts that a pool was shipping when the group was aborted run as riders, for writes of their pages may have been dropped (R448;
DESIGN CHOICE, log 174). -/
def reclaimShipped (s : State) : State :=
  ((s.sessions.filter fun e => e.2.phase = .shipped).map (·.1)).foldl shipFailed s

/-- Every member is ready after its alignment: the group serves, and the first or the replayed mark goes out (R566,
R574). -/
def checkServing (s : State) (d : Deck) : State :=
  if (ownIndex s :: otherMembers s d).all fun m => s.ctl.readyFrom.contains m then
    startRounds (unackedJobs (reclaimShipped (modCtl s fun c => { c with group := .serving, awaitAlign := false, readyFrom := [] })))
  else s

/-- Send ALIGN to every other member and wait for READY (R312, R566, R567). -/
def sendAlign (s : State) (d : Deck) : State :=
  let s := modCtl s fun c => { c with awaitAlign := true, readyFrom := [ownIndex s] }
  let s := (otherMembers s d).foldl (fun s m => sendGroup s m (groupParts s d 2 0 (spanningPairs s d))) s
  checkServing s d

/-- Once every member has joined, set the generation and the epochs and form the group (R566). -/
def tryForm (s : State) : State :=
  match deckOf s with
  | none => s
  | some d =>
    if !(isDealer s && s.ctl.group = .forming && !s.ctl.awaitAlign) then s
    else if !((otherMembers s d).all fun m => groupHeld s.ctl.joined m 1) then s
    else
      let js := (s.ctl.joined.filter fun e => e.2.kind = 1).map (·.2)
      let s := { s with gen := genSucc (highestGen s.gen (js.map (·.gen))) }
      let s := (js.flatMap (·.pairs)).foldl (fun s p => setEpoch s p.1 (higherEpoch (getTrick s p.1).epoch p.2)) s
      let s := modCtl s fun c => { c with joined := [] }
      sendAlign (logGen s evBupGroupFormed uCtl none [d.role.group, w32 s.gen.toNat] []) d

/-- A module that has started its deck takes part in its group: the dealer waits for JOINs, a member sends one (R566). -/
def joinGroup (s : State) : State :=
  let s := modCtl s fun c => { c with group := .forming, awaitAlign := !isDealer s, joined := [], readyFrom := [] }
  if isDealer s then tryForm s else sendJoin s

/-- After an abort: once READY has come from every member the dealer aligns the epochs, and a second READY from each
lets the round be replayed (R312, R574). -/
def checkReady (s : State) : State :=
  match deckOf s with
  | none => s
  | some d =>
    if !isDealer s then s
    else if s.ctl.awaitAlign then checkServing s d
    else if (s.ctl.group = .recovering || s.ctl.group = .held) &&
        (ownIndex s :: otherMembers s d).all fun m => s.ctl.readyFrom.contains m then
      sendAlign s d
    else s

/-! ### Demotion (R417, R582) -/

/-- Close every channel and every session that this module holds, retiring their handles. -/
def closeAll (s : State) : State :=
  let cs := (s.channels.filter fun e => e.2.state ≠ .free).map (·.1)
  let s := cs.foldl freeChannel s
  let ss := (s.sessions.filter fun e => e.2.state ≠ .free && e.2.state ≠ .shadow).map (·.1)
  ss.foldl retireSession s

/-- The lost dealer finds the successor in its role. -/
def demote (s : State) (d : Deck) : State :=
  let s := modCtl (closeAll s) fun c => { c with demoted := true, successorRole := true }
  logGen s evBupDemoted uCtl none [w32 d.role.successor] []

/-- A member learns from a message's SRC that the successor holds the dealer role; the lost dealer is demoted (R370, R582).
The answer says whether the role has moved. -/
def learnDealer (s : State) (d : Deck) (src : Nat) : State × Bool :=
  if src ≠ d.role.successor || src = d.role.dealer || s.ctl.successorRole || src = ownIndex s then (s, false)
  else if ownIndex s = d.role.dealer then (demote s d, true)
  else
    let n (s : State) : Nat := (childrenOf s d (ownIndex s)).length
    let s := modCtl s fun c => { c with successorRole := true }
    ({ s with tricks := s.tricks.map fun e => if e.2.spanning then (e.1, { e.2 with children := n s }) else e }, true)

/-! ### At a member -/

/-- Adopt the values of an ALIGN and send READY (R312, R567). -/
def adoptAlign (s : State) (d : Deck) (src : Nat) : State :=
  let ms := (s.ctl.joined.filter fun e => e.1 = src && e.2.kind = 2).map (·.2)
  let s := dropParts s src 2
  let s := { s with gen := ((ms.head?).map (·.gen)).getD s.gen }
  let s := (ms.flatMap (·.pairs)).foldl (fun s p => setEpoch s p.1 p.2) s
  let s := unackedJobs (modCtl s fun c => { c with group := .serving, awaitAlign := false, rejoin := false })
  sendGroup s src (groupParts s d 3 s.ctl.abortCode [])

end Sys2Proof.Machine
end

