-- ==== Sys2Proof/Machine/ScriptRows.lean ====
section
/-! DEFINITION. The script controller and the bank units of a stack: permits, row boundaries, row operations, results (R249 to R251, R258,
R263, R264, R267 to R291, R294, R297). -/

namespace Sys2Proof.Machine

/-! ### Rows of a bank before an operation (R228, R290, R331) -/

/-- Whether a line lies in some rows of a bank. -/
def lineIn (s : State) (stack bank : Nat) (rows : List Nat) (line : Nat) : Bool :=
  let p := linePlace s line
  p.stack = stack && p.bank = bank && rows.contains p.row

/-- Every kitty writes back its dirty copies of the rows' lines; an operation that stores also invalidates every copy
(R290, R331). -/
def flushRows (s : State) (stack bank : Nat) (rows : List Nat) (stores : Bool) : State :=
  let ls := (s.kitty.map (·.1)).filter (lineIn s stack bank rows)
  ls.foldl (fun s l => let s := writeBackLine s l; if stores then kittySet s l none else s) s

/-- Whether a write to the rows is still in the buffer, or waits at the controller or to cross the stack interface. -/
def rowsDirty (s : State) (stack bank : Nat) (rows : List Nat) : Bool :=
  let k := getStack s stack
  let mine (line : Nat) : Bool := lineIn s stack bank rows line
  (k.wcb.any fun e => mine e.line) || (k.queue.any fun a => match a with | .write e => mine e.line | _ => false) ||
    s.regWait.any fun w => match w.2.2 with | .lineWrite e => mine e.line | _ => false

/-- Whether a write to the rows still waits to cross the stack interface: an operation waits for the write-backs it needs (R331). -/
def rowsCrossing (s : State) (stack bank : Nat) (rows : List Nat) : Bool :=
  s.regWait.any fun w => match w.2.2 with | .lineWrite e => lineIn s stack bank rows e.line | _ => false

/-- Drain every entry for the rows' lines, and the writes to them that wait for an entry (R228). -/
def drainRows (s : State) (stack bank : Nat) (rows : List Nat) : State :=
  let mine (line : Nat) : Bool := lineIn s stack bank rows line
  let s := ((getStack s stack).wcb.filter fun e => mine e.line).foldl (fun s e => drainEntry s e 0) s
  let isMine (a : CtlAccess) : Bool := match a with | .write e => mine e.line | _ => false
  let ws := (getStack s stack).queue.filter isMine
  let s := modStack s stack fun k => { k with queue := k.queue.filter fun a => !isMine a }
  let s := ws.foldl (fun s a =>
    match a with
    | .write e => answerSender (drainEntry s { e with sender := .none } 0) e.sender
    | _ => s) s
  settleBi (admitWaiting s stack)

/-! ### Starting banks (R284, R286, R287) -/

/-- Banks of an operation. -/
def banksOf (o : ScriptOp) : List Nat := runBanks (opChannels o) (opSlots o) o

/-- The part of a run on a bank. -/
def bankOf (r : ScriptRun) (bank : Nat) : Option BankRun := r.banks.find? (·.bank = bank)

/-- Change a run's part on a bank. -/
def modBank (s : State) (stack : Nat) (key : RunKey) (bank : Nat) (f : BankRun → BankRun) : State :=
  modStack s stack fun k => modRun k key fun r => { r with banks := updFirst (·.bank = bank) f r.banks }

/-- The rows that a run's operation touches on a bank. -/
def runRows (r : ScriptRun) (bank : Nat) : List Nat := ((opOf r).map fun o => (opRows o r.rowAdd bank).map (·.2)).getD []

/-- Whether a run's source row still waits in its bank's row latch for the exchange bus: the next one is loaded while a row crosses, and
the latch holds one row (R248, R279). -/
def rowLatched (k : Stack) (r : ScriptRun) : Bool := k.bus.any fun x => (x.core, x.ticket, x.gen) = runKey r

/-- What keeps a bank at its row boundary: a refresh, a scrub row, a reset, held writes, a transfer still to come, or a row latch still
in use (R233, R236, R248, R290). -/
def rowBlocked (k : Stack) (r : ScriptRun) (b : BankRun) (o : ScriptOp) (st : RowStep) : Bool :=
  !b.started || b.inRow || b.ended || b.held.isSome || r.abort || k.resetting || k.refreshing.contains b.bank ||
    k.scrub.active.contains b.bank || (st.writes && k.writeHold) ||
    (o.op = 0x12 && (if st.writes then b.rows.isEmpty else rowLatched k r))

/-- Begin the next row operation of a bank unless something keeps it at the row boundary; a store that only the write window keeps is held
from then on (R237). Before the first one of an operation every kitty
writes back its dirty copies of the operation's rows and the buffered writes to them drain; the operation waits for this (R228, R290,
R331). -/
def beginRow (s : State) (stack : Nat) (r : ScriptRun) (b : BankRun) : State :=
  match opOf r, nextStep r b with
  | some o, some st =>
    let k := getStack s stack
    if rowBlocked k r b o st then
      let d := Deadline.rowHold stack b.bank
      if st.writes && k.writeHold && !rowBlocked { k with writeHold := false } r b o st && !runsDeadline s d then startDeadline s d
      else s
    else
      let rows := runRows r b.bank
      let s := if b.done = 0 then flushRows s stack b.bank rows (opStores o) else s
      let waits := b.done = 0 && (rowsCrossing s stack b.bank rows || ((getStack s stack).writeHold && rowsDirty s stack b.bank rows))
      if waits then s
      else
        let s := if b.done = 0 then drainRows s stack b.bank rows else s
        openRow (modBank s stack (runKey r) b.bank fun b => { b with inRow := true }) stack b.bank st.row
  | _, _ => s

/-- Take up the operation that holds a bank, where one does. -/
def resumeBank (s : State) (stack bank : Nat) : State :=
  (getStack s stack).runs.foldl (fun s r =>
    match bankOf r bank with
    | some b => beginRow s stack r b
    | none => s) s

/-- A row boundary of a bank (R287): waiting accesses, then a refresh that is due, then a scrub row of a trump scrubber,
then the next row. -/
def bankBoundary (s : State) (stack bank : Nat) : State :=
  let s := settleBi (pump s stack)
  let k := getStack s stack
  if k.refreshing.contains bank || k.scrub.active.contains bank then s
  else if k.refreshDue.contains bank then
    modStack s stack fun k =>
      { closeRows k bank with refreshDue := k.refreshDue.filter (· ≠ bank), refreshing := k.refreshing ++ [bank] }
  else if k.scrub.trump && k.scrub.owed.contains bank then
    modStack s stack fun k =>
      { k with scrub := { k.scrub with owed := k.scrub.owed.filter (· ≠ bank), active := k.scrub.active ++ [bank] } }
  else resumeBank s stack bank

/-! ### The exchange bus (R248, R281, R295) -/

/-- Whether a transfer still belongs to a run that goes on. -/
def xferLive (k : Stack) (x : BusXfer) : Bool := (runAt k (x.core, x.ticket, x.gen)).any fun r => !r.abort

/-- Whether a waiting row may cross: every destination has begun the operation and its row latch is free. A row of a script that has ended
crosses to be dropped (R248, R295). -/
def xferReady (k : Stack) (x : BusXfer) : Bool :=
  match runAt k (x.core, x.ticket, x.gen) with
  | none => true
  | some r => r.abort || x.dests.all fun d => (bankOf r d.1).any fun b => b.started && b.rows.isEmpty

/-- The transfer that the bus takes next: of the ready ones, the first of the first memory channel after the one served last. -/
def nextXfer (k : Stack) : Option (BusXfer × List BusXfer) :=
  let key (x : BusXfer) := (x.channel + 31 - k.busLast % 32) % 32
  match ((k.bus.filter (xferReady k)).map key).min? with
  | none => none
  | some m => takeFirst (fun x => xferReady k x && key x = m) k.bus

/-- A free bus takes a waiting row, which leaves its source's row latch; the source may load its next row. -/
def grantBus (s : State) (stack : Nat) : State :=
  let k := getStack s stack
  if k.busNow.isSome then s
  else
    match nextXfer k with
    | none => s
    | some (x, rest) =>
      let s := setStack s stack { k with busNow := some x, busLast := x.channel, bus := rest }
      match runAt (getStack s stack) (x.core, x.ticket, x.gen) with
      | none => s
      | some r => r.banks.foldl (fun s b => if x.dests.any (·.1 = b.bank) then s else beginRow s stack r b) s

/-! ### Permits (R258, R284) -/

/-- Close the oldest early open of a stack for an operation that finds no free permit; its permit passes on (R258). -/
def robEarly (k : Stack) : Option Stack :=
  match k.earlyOpens with
  | e :: r => some { closeEarlyRows k e with earlyOpens := r }
  | [] => none

/-- Take a permit for an operation of a run on a bank: that of the early open that stands for it, with its open rows; else, once another
early open of the bank is closed, a free one or that of the oldest early open (R258, R284). -/
def takePermit (k : Stack) (r : ScriptRun) (o : ScriptOp) (bank : Nat) : Option Stack :=
  let own := k.earlyOpens.any fun e => e.bank = bank && e.script = r.card.script && opStream o && (opLatches o).contains e.latch
  if own then some { k with earlyOpens := k.earlyOpens.filter (·.bank ≠ bank) }
  else
    let k := closeEarly k bank
    if k.permits < 384 then some { k with permits := k.permits + 1 } else robEarly k

/-- Start an operation of a run on a bank when no other operation runs on the bank, no write to its rows is held and a permit is to be
had. The answer says whether it started. -/
def startBank (s : State) (stack : Nat) (w : RunKey × Nat) : State × Bool :=
  match runAt (getStack s stack) w.1 with
  | none => (s, true)
  | some r =>
    match opOf r with
    | none => (s, true)
    | some o =>
      let bank := w.2
      if r.abort then (s, true)
      else if bankRunning (getStack s stack) bank then (s, false)
      else if (getStack s stack).writeHold && rowsDirty s stack bank (runRows r bank) then (s, false)
      else
        match takePermit (getStack s stack) r o bank with
        | none => (s, false)
        | some k =>
          let s := modBank (setStack s stack k) stack (runKey r) bank fun b => { b with started := true }
          (grantBus (bankBoundary s stack bank) stack, true)

/-- Go through the waiting banks in the order in which they arrived; a bank for which an earlier one waits is passed over.
`one` stops after the first that starts. -/
def startWaiting (one : Bool) (stack : Nat) : List (RunKey × Nat) → List Nat → State → State
  | [], _, s => s
  | w :: rest, seen, s =>
    if seen.contains w.2 then startWaiting one stack rest seen s
    else
      let r := startBank s stack w
      if r.2 then
        let s := modStack r.1 stack fun k => { k with permitWait := k.permitWait.filter (· ≠ w) }
        if one then s else startWaiting one stack rest seen s
      else startWaiting one stack rest (w.2 :: seen) r.1

/-! ### SCRIPT_OPERATION_START (R263, R264) -/

/-- The region of an operation's rows by its index in REGIONS. -/
def scriptRegion (s : State) (r : ScriptRun) (i : Nat) : Option Region :=
  (deckOf s).bind fun d => (r.card.regions[i]?).bind fun n => d.regions.find? fun g => g.region = n

/-- Device address of a row under the banked placement (R262). -/
def bankedRow (stack bank row : Nat) : Nat :=
  stack * 2 ^ 36 + (bank / 32 * 1536 + row / 32) * 2 ^ 20 + bank % 32 * 2 ^ 15 + row % 32 * 2 ^ 10

/-- Whether a row lies within 0 to 49,151 and inside its operation's region. -/
def rowInRegion (s : State) (stack : Nat) (r : ScriptRun) (bank : Nat) (x : Nat × Nat) : Bool :=
  x.2 ≤ 49151 &&
    match scriptRegion s r x.1 with
    | some g => g.base ≤ bankedRow stack bank x.2 && bankedRow stack bank x.2 + 1024 ≤ g.base + g.size
    | none => false

/-- Whether a row lies in a host-shared region. -/
def rowShared (s : State) (stack bank : Nat) (x : Nat × Nat) : Bool :=
  (regionOf s (bankedRow stack bank x.2)).any (·.hostShared)

/-- The latches of a bank. -/
def latchOf (k : Stack) (bank latch : Nat) : Latch := sget Latch.empty k.latches (4 * bank + latch)

/-- The first check of R264 that an operation fails, with its bank and row. -/
def opRefusal (s : State) (stack : Nat) (r : ScriptRun) (o : ScriptOp) : Option (Ev × Nat × Nat) :=
  let rows := (banksOf o).flatMap fun b => (opRows o r.rowAdd b).map fun x => (b, x)
  match rows.find? fun e => !rowInRegion s stack r e.1 e.2 with
  | some e => some (evTnsScriptRowRange, e.1, e.2.2)
  | none =>
    match rows.find? fun e => rowShared s stack e.1 e.2 with
    | some e => some (evTnsScriptHostShared, e.1, e.2.2)
    | none =>
      let k := getStack s stack
      ((banksOf o).find? fun b => (latchNeeds o).any fun n =>
        !(o.op = 0x12 && b = xcopySource o) && (!(latchOf k b n.1).valid || (latchOf k b n.1).length < n.2)).map
          fun b => (evTnsScriptLatch, b, o.rowA + r.rowAdd)

/-- Lines of a script's regions that the host holds. -/
def heldByHost (s : State) (r : ScriptRun) : List Nat :=
  (s.host.snoop.map (·.1)).filter fun dpa =>
    (List.range r.card.regions.length).any fun i =>
      (scriptRegion s r i).any fun g => g.base ≤ addrOfDpa dpa && addrOfDpa dpa < g.base + g.size

/-- The first operation from an index on that is no LGROUP. -/
def skipGroups (ops : List ScriptOp) (i : Nat) : Nat :=
  i + ((ops.drop i).takeWhile fun o => o.op = 0x01).length

/-- A run at END whose results have all been delivered is complete (R292). -/
def completeRun (s : State) (stack : Nat) (key : RunKey) : State :=
  match runAt (getStack s stack) key with
  | none => s
  | some r =>
    match opOf r with
    | some o => if o.op = 0 && r.results.isEmpty && !r.active && !r.abort then finishRun s stack r 0 else s
    | none => s

/-- A bank's part of an operation that has not started. -/
def newBank (b : Nat) : BankRun :=
  { bank := b, started := false, inRow := false, done := 0, rows := [], held := none, ended := false }

/-- SCRIPT_OPERATION_START: the controller checks and starts a run's next operation. The script waits until the host holds
no line of its regions (R263, R264, R290). -/
def execScriptOperationStart (stack : Fin 8) (core : CoreId) (ticket : Fin 4) (s : State) : Out :=
  let n := stack.val
  match runOf (getStack s n) core.idx ticket.val with
  | none => .next s
  | some r =>
    if r.active || r.abort then .next s
    else
      let held := heldByHost s r
      if !held.isEmpty then
        .next (held.foldl (fun s dpa => backInvalidate s dpa (.script n r.core r.ticket)) s)
      else
        let i := skipGroups r.card.ops r.opIdx
        let r := { r with opIdx := i }
        let s := modStack s n fun k => modRun k (runKey r) fun _ => r
        match r.card.ops[i]? with
        | none => .next s
        | some o =>
          if o.op = 0 then .next (completeRun s n (runKey r))
          else
            match opRefusal s n r o with
            | some e => .next (faultRun s n r e.1 (e.2.1 % 32) (e.2.1 / 32) (w32 e.2.2))
            | none =>
              let bs := banksOf o
              let r := { r with active := true, banks := bs.map newBank }
              let ws := bs.map fun b => (runKey r, b)
              let old := (getStack s n).permitWait
              let s := modStack s n fun k =>
                { modRun k (runKey r) fun _ => r with permitWait := k.permitWait ++ ws }
              .next (startWaiting false n ws (old.map (·.2)) s)

/-- STREAMING_PERMIT_TAKEN: the first waiting bank that can start does (R284, R286). -/
def execStreamingPermitTaken (stack : Fin 8) (s : State) : Out :=
  .next (startWaiting true stack.val (getStack s stack.val).permitWait [] s)

/-! ### Testing and writing rows (R282, R283) -/

/-- Join the hold of a line under repair once (R396). -/
def holdOnce (s : State) (line : Nat) (who : Consumer) : State :=
  let k := getStack s (lineStack line)
  if (k.repairs ++ k.repairQueue).any fun r => r.line = line && r.consumers.contains who then s else joinRepair s line who

/-- The failures that a command reports for a line of a row. -/
def failsAt (dist : List (Nat × Nat)) (i : Nat) : Nat := ((dist.find? fun e => e.1 = i).map (·.2)).getD 0

/-- Test the first `lines` lines of a row for a bank unit: a persistent source-class line holds the bank, any other is
written back poisoned. The answer is the row with its poison by line, or the line that holds it (R276, R277, R389 to
R392). Lines already under repair hold it too. -/
def testRow (s : State) (stack bank row lines det : Nat) (who : Consumer) (dist : List (Nat × Nat)) :
    State × Except Nat (RowData × BitVec 16) :=
  let at_ (i : Nat) := lineOfRow s stack bank row i
  let free := (List.range lines).filter fun i => !underRepair s (at_ i) && !readsPoisoned (getStack s stack) (at_ i)
  let t := free.foldl (fun (a : State × List Nat) i =>
    let r := testLine a.1 (at_ i) (failsAt dist i)
    (r.1, if r.2 then a.2 else a.2 ++ [i])) (s, [])
  let s := if t.2.isEmpty then t.1 else logPersistent t.1 stack bank row ((t.2.map fun i => 2 ^ i).sum) det
  let s := t.2.foldl (fun s i => (actPersistent s (at_ i) det who false).1) s
  let held := (List.range lines).filter fun i => underRepair s (at_ i)
  let s := held.foldl (fun s i => holdOnce s (at_ i) who) s
  match held with
  | i :: _ => (s, .error (at_ i))
  | [] =>
    let k := getStack s stack
    let raws := (List.range 16).map fun i => readRaw s { stack := stack, bank := bank, row := row, line := i }
    (s, .ok (BitVec.ofNat 8192 (leNat (raws.flatMap fun r => bytesOfLine r.data)),
      BitVec.ofNat 16 (((List.range lines).map fun i =>
        if ((raws[i]?).any RawLine.poisoned) || readsPoisoned k (at_ i) then 2 ^ i else 0).sum)))

/-- Line `i` of a row. -/
def rowLine (d : RowData) (i : Nat) : Line := BitVec.ofNat 512 (d.toNat / 2 ^ (512 * i))

/-- Write a row: every line with the check and the poison that Table 8.8 gives; each counts as a full-line write. -/
def putRow (s : State) (stack bank row : Nat) (d : RowData) (check : Nat → W32) (poison : BitVec 16) : State :=
  (List.range 16).foldl (fun s i =>
    let r : RawLine := { data := rowLine d i, check := check i, flags := if bitOf poison.toNat i then 1 else 0 }
    let line := lineOfRow s stack bank row i
    clearUnrepaired (unrefuse (storeRawLine s stack bank row i r) line) line) s

/-- The fresh checks of a row. -/
def freshChecks (d : RowData) (i : Nat) : W32 := lineCheck (rowLine d i)

/-- The mask of a masked LOGIC, from its latch's first 1,024 value bytes; every bit where the operation is unmasked. -/
def maskRow (k : Stack) (o : ScriptOp) (bank : Nat) : RowData :=
  match logicMask o with
  | none => ~~~ (0 : RowData)
  | some l => BitVec.ofNat 8192 (leNat (rdBytes (latchOf k bank l).values 0 1024))

/-- Rows that wait in a bank unit: the row latch, or rows that crossed the exchange bus. -/
def headRow (b : BankRun) : RowData × BitVec 16 := ((b.rows.head?).map (·.2)).getD (0, 0)

/-- What a Store writes: the data, their poison (R278 to R280, Table 8.8). A masked Store keeps the bits of the row that
the mask does not name. -/
def storeData (s : State) (stack bank row : Nat) (o : ScriptOp) (b : BankRun) : RowData × BitVec 16 :=
  match o.op with
  | 0x10 => (BitVec.ofNat 8192 (leNat (List.replicate 1024 (BitVec.ofNat 8 (fieldOf o.x 12 8)))), 0)
  | 0x13 =>
    let m := maskRow (getStack s stack) o bank
    let old := BitVec.ofNat 8192 (leNat ((List.range 16).flatMap fun i =>
      bytesOfLine (readRaw s { stack := stack, bank := bank, row := row, line := i }).data))
    ((logicRow 4 0 (headRow b).1 &&& m) ||| (old &&& ~~~ m), (headRow b).2)
  | _ => headRow b

/-- CHECK of a line that XOR derives from its operands' checks (Table 8.8). -/
def xorCheck (a b : W32) : W32 := a ^^^ b ^^^ lineCheck 0

/-- Whether some line of a row that is to be stored is under repair, and which. -/
def rowUnderRepair (s : State) (stack bank row : Nat) : Option Nat :=
  ((List.range 16).map (lineOfRow s stack bank row)).find? (underRepair s)

/-- The effect of one row operation: the state and the bank's rows after it, or the line that holds it. -/
def rowEffect (s : State) (stack : Nat) (r : ScriptRun) (b : BankRun) (o : ScriptOp) (st : RowStep)
    (dist : List (Nat × Nat)) : State × Except Nat Rows :=
  let who := Consumer.bank r.core r.ticket b.bank
  match st with
  | .read row lines =>
    let t := testRow s stack b.bank row lines 1 who dist
    (t.1, t.2.map fun v => b.rows ++ [(row, v)])
  | .load row =>
    let t := testRow s stack b.bank row 16 1 who dist
    match t.2 with
    | .error l => (t.1, .error l)
    | .ok v =>
      if o.op = 0x12 then
        let i := row - (o.rowB + r.rowAdd)
        let x : BusXfer :=
          { channel := b.bank % 32, core := r.core, ticket := r.ticket, gen := r.gen,
            dests := ((banksOf o).filter (· ≠ b.bank)).map fun d => (d, o.rowA + r.rowAdd + i), data := v.1, poison := v.2 }
        (modStack t.1 stack fun k => { k with bus := k.bus ++ [x] }, .ok b.rows)
      else (t.1, .ok [(row, v)])
  | .store row =>
    match rowUnderRepair s stack b.bank row with
    | some l => (holdOnce s l who, .error l)
    | none =>
      let v := storeData s stack b.bank row o b
      (putRow s stack b.bank row v.1 (freshChecks v.1) v.2, .ok b.rows.tail)
  | .combine row =>
    let t := testRow s stack b.bank row 16 1 who dist
    match t.2 with
    | .error l => (t.1, .error l)
    | .ok v =>
      let src := headRow b
      let m := maskRow (getStack t.1 stack) o b.bank
      let new := (logicRow (logicFn o) v.1 src.1 &&& m) ||| (v.1 &&& ~~~ m)
      let old (i : Nat) := (readRaw t.1 { stack := stack, bank := b.bank, row := row, line := i }).check
      let chk (i : Nat) := if logicFn o = 2 && (logicMask o).isNone then xorCheck (old i) (freshChecks src.1 i) else freshChecks new i
      (putRow t.1 stack b.bank row new chk (v.2 ||| src.2), .ok b.rows.tail)

/-! ### Results (R267 to R276) -/

/-- Whether a result's value is not stated: a raw latch under a floating stream, or a score unit that is not defined. -/
def openVector (o : ScriptOp) (rs : List (Nat × Rows × List (Nat × Latch))) (u : ScoreUnit) (l : Nat) : Bool :=
  match o.op with
  | 0x20 => rs.any fun e => (latchIn e.2.2 l).raw
  | 0x21 => rs.any fun e => (latchIn e.2.2 l).raw
  | 0x22 => !u.defined || u.scores.length < opCount o * rs.length
  | _ => false

/-- Give results of some vectors fresh free values (R274). -/
def freeResults (s : State) (vs : List Nat) : List Res → State × List Res
  | [] => (s, [])
  | x :: rest =>
    if vs.contains x.1 then
      let f := takeFree s
      let q := freeResults f.2 vs rest
      (q.1, (x.1, x.2.1, f.1.truncate 32, x.2.2.2) :: q.2)
    else
      let q := freeResults s vs rest
      (q.1, x :: q.2)

/-- Score unit of a memory channel and a latch. -/
def scoreOf (k : Stack) (chan l : Nat) : ScoreUnit := sget ScoreUnit.empty k.scores (4 * chan + l)

/-- The results of a memory channel whose banks have all ended; SCORE leaves its score units behind (Table 8.6). -/
def channelResults (s : State) (stack chan : Nat) (r : ScriptRun) (o : ScriptOp) : State × List Res :=
  let k := getStack s stack
  let d : ChanData := (opSlots o).map fun slot =>
    let bank := 32 * slot + chan
    (slot, ((bankOf r bank).map (·.rows)).getD [], (opLatches o).map fun l => (l, latchOf k bank l))
  let lv := (opLatches o).zip (List.range 4)
  let open_ := (lv.filter fun e => openVector o d (scoreOf k chan e.1) e.1).map (·.2)
  match o.op with
  | 0x20 => freeResults s open_ (dotResults o r.rowAdd d)
  | 0x21 =>
    let us := lv.map fun e =>
      (e.1, e.2, { scoreUnit (scoreBuffer o r.rowAdd d e.1) with defined := !open_.contains e.2 })
    let s := modStack s stack fun k =>
      { k with scores := us.foldl (fun m u => sput ScoreUnit.empty m (4 * chan + u.1) u.2.2) k.scores }
    freeResults s open_ (us.flatMap fun u => [(u.2.1, 0, u.2.2.m, u.2.2.poison), (u.2.1, 1, u.2.2.sum, u.2.2.poison)])
  | 0x22 => freeResults s open_ (lv.flatMap fun e => valueResults o r.rowAdd e.2 d (scoreOf k chan e.1))
  | 0x23 => (s, popResults o r.rowAdd d)
  | _ => (s, [])

/-- Place a channel's results at the cursor (R267). -/
def placeResults (r : ScriptRun) (o : ScriptOp) (chan : Nat) (rs : List Res) : List (Nat × Nat × W32 × Bool) :=
  let j := ((opChannels o).takeWhile (· ≠ chan)).length
  rs.map fun x => (x.1, r.cursor + j * perChannel o + x.2.1, x.2.2.1, x.2.2.2)

/-- A channel's results go on their way when its last bank has ended. -/
def channelDone (s : State) (stack : Nat) (key : RunKey) (chan : Nat) (o : ScriptOp) : State :=
  match runAt (getStack s stack) key with
  | none => s
  | some r =>
    if opStream o && r.banks.all fun b => b.bank % 32 ≠ chan || b.ended then
      let q := channelResults s stack chan r o
      modStack q.1 stack fun k => modRun k key fun r => { r with results := r.results ++ placeResults r o chan q.2 }
    else s

/-- The operation has ended on every bank: the cursor advances and the run stands at its next operation (R263, R267). -/
def operationDone (s : State) (stack : Nat) (key : RunKey) (o : ScriptOp) : State :=
  match runAt (getStack s stack) key with
  | none => s
  | some r =>
    if r.banks.all (·.ended) then
      let s := modStack s stack fun k => modRun k key fun r =>
        { r with active := false, banks := [], opIdx := r.opIdx + 1, cursor := r.cursor + perChannel o * popBits 32 o.chMask }
      completeRun s stack key
    else s

/-- A bank has ended its last row, or has stopped: it returns its permit (R284, R294). -/
def bankEnded (s : State) (stack : Nat) (key : RunKey) (bank : Nat) : State :=
  let s := modBank s stack key bank fun b => { b with inRow := false, ended := true }
  modStack s stack fun k => returnPermits k 1

/-- An aborted run ends once every bank has stopped (R294, R296). -/
def stopDone (s : State) (stack : Nat) (key : RunKey) : State :=
  match runAt (getStack s stack) key with
  | none => s
  | some r => if runBusy r then s else finishRun s stack r (if r.faulted then 3 else 1)

/-! ### The end of a row operation (R250, R282, R283, R287, R294) -/

/-- A bank ends its row operation, or is held in it by a repair, and meets a row boundary. -/
def rowDone (s : State) (n : Nat) (r : ScriptRun) (b : BankRun) (o : ScriptOp) (st : RowStep) (disturbed : List (Nat × Nat)) :
    State :=
  let key := runKey r
  let e := rowEffect s n r b o st disturbed
  match e.2 with
  | .error l => modBank e.1 n key b.bank fun b => { b with held := some l }
  | .ok rows =>
    let s := modBank e.1 n key b.bank fun b => { b with inRow := false, done := b.done + 1, rows := rows }
    let s :=
      if r.abort then stopDone (bankEnded s n key b.bank) n key
      else if b.done + 1 < (bankSteps o r.rowAdd b.bank).length then s
      else operationDone (channelDone (bankEnded s n key b.bank) n key (b.bank % 32) o) n key o
    grantBus (bankBoundary s n b.bank) n

/-- The run of a ticket that has a row operation in progress on a bank. -/
def rowRun (k : Stack) (core ticket bank : Nat) : Option (ScriptRun × BankRun) :=
  k.runs.findSome? fun r =>
    if r.core = core && r.ticket = ticket then
      (r.banks.find? fun b => b.bank = bank && b.inRow && !b.ended && b.held.isNone).map fun b => (r, b)
    else none

/-- ROW_OPERATION_DONE: a bank ends its row operation. -/
def execRowOperationDone (stack : Fin 8) (core : CoreId) (ticket : Fin 4) (bank : Fin 768) (disturbed : List (Nat × Nat))
    (s : State) : Out :=
  match rowRun (getStack s stack.val) core.idx ticket.val bank.val with
  | none => .next s
  | some (r, b) =>
    match opOf r, nextStep r b with
    | some o, some st => .next (rowDone s stack.val r b o st disturbed)
    | _, _ => .next s

/-- The rows of aborted scripts that are in progress end, where no repair holds them (R294, R297). -/
def endRows (s : State) : State :=
  (List.range 8).foldl (fun s n =>
    ((getStack s n).runs.filter (·.abort)).foldl (fun s r =>
      (r.banks.filter fun b => b.inRow && !b.ended && b.held.isNone).foldl (fun s b =>
        match runAt (getStack s n) (runKey r), opOf r, nextStep r b with
        | some r, some o, some st => rowDone s n r b o st []
        | _, _, _ => s) s) s) s

end Sys2Proof.Machine
end

