-- ==== Sys2Proof/Machine/Switch.lean ====
section
/-! DEFINITION. The switch trick and the live switch of a group (R95 to R98, R313, Table 3.19), and the takeover by the
standby core at a round boundary (R36, R585). -/

namespace Sys2Proof.Machine

/-- Whether no round is open on this module. -/
def noOpenRound (s : State) : Bool := s.rounds.all fun e => !e.2.isOpen

/-- This module's children in the tree that the switch trick uses; a module that switches alone has none. -/
def switchChildren (s : State) : List Nat :=
  if s.loader.alone then []
  else ((switchDeck s).map fun d => childrenOf s d (ownIndex s)).getD []

/-- Whether this module is the root of the switch trick. -/
def switchRoot (s : State) : Bool :=
  s.loader.alone || (switchDeck s).any fun d => ownIndex s = dealerIndex s d

/-- Send a message down the tree of the switch. -/
def switchDown (s : State) (b : FrameBody) : State := sendAll s b (switchChildren s)

/-- Mark the staging slot ACTIVE and the other PREVIOUS; the staging state becomes EMPTY (step 9). Outside the store's
window the marks wait (R98). -/
def writeMarks (s : State) : State :=
  if s.loader.phase = .marking && storeWindow s then
    modLoader s fun l =>
      { l with mark0 := if l.stageSlot = 0 then .active else .previous, mark1 := if l.stageSlot = 1 then .active else .previous,
               phase := .none, stage := .empty, staged := none, alone := false }
  else s

/-- Step 8: the switch trick has released a second time. The dealer sends the first round marks of the new deck; a member opens the round
of one that has come before the release. -/
def deckSwitched (s : State) : State :=
  let old := s.loader.previousId
  let new := ((deckOf s).map (·.id.deckId)).getD 0
  let alone := s.loader.alone
  let s := logGen s evDckSwitched uDeck none [] [old, new]
  let s := modCtl s fun c => { c with heldSwitch := false }
  let s := writeMarks (modLoader s fun l => { l with phase := .marking, gathered := [] })
  let s := endBackground s 0xC014 .success 0 []
  if alone then joinGroup s
  else
    let s := modCtl s fun c => { c with group := .serving, awaitAlign := false }
    if isDealer s then startRounds s else openHeld s

/-- Step 6: every ticket is aborted and its banks end their rows (R294, R297), the job generation grows and the load of the new deck
starts. A table's round that has closed is settled first
on the dealer; a mark of the old deck that is held is dropped with its generation (R29, R98); the successor's role ends (R34). -/
def switchLoad (s : State) : State :=
  match s.loader.armed with
  | none => s
  | some d =>
    let old := deckOf s
    let s := ((old.map fun o => o.tables.map (·.table)).getD []).foldl (fun s t => if isDealer s then settleRound s t else s) s
    let s := { endRows (abortTickets s) with gen := genSucc s.gen }
    let s := { s with rounds := s.rounds.map fun e => (e.1, { e.2 with heldMark := none, parts := [] }) }
    let s := modCtl s fun c => { c with successorRole := false }
    let prev := (old.map (·.id.deckId)).getD 0
    let s := installDeck s d s.loader.stageSlot ((old.map (·.regions)).getD [])
    modLoader s fun l => { l with phase := .loading, armed := none, dropArmed := false, previousId := prev }

/-- The switch trick closes or is released: EPOCH grows, the release goes on to the children under the generation in
force, and the step it stands for follows. -/
def switchRelease (s : State) : State :=
  let t := getTrick s 0
  let grp := ((switchDeck s).map (·.role.group)).getD 0
  let s := setTrick s 0 { trickCancel t with epoch := t.epoch + 1 }
  let s := switchDown s (.trickRelease 0 grp t.epoch)
  match s.loader.phase with
  | .played => switchLoad s
  | .replayed => deckSwitched s
  | _ => s

/-- The local part and the children's arrives of the switch trick: the root closes it, a member sends its arrive (R307,
R313). -/
def switchComplete (s : State) : State :=
  let t := getTrick s 0
  if t.arrived = 1 && t.childArrived = (switchChildren s).length then
    if switchRoot s then switchRelease s
    else if t.sent then s
    else
      match switchDeck s with
      | none => s
      | some d =>
        match parentOf s d (ownIndex s) with
        | some p => sendFrame (setTrick s 0 { t with sent := true }) p 64 (.trickArrive 0 d.role.group t.epoch)
        | none => s
  else s

/-- The active control core plays the switch trick (steps 4 and 7). -/
def playSwitch (s : State) : State :=
  let s := modLoader s fun l =>
    { l with phase := if l.phase = .loading then .replayed else .played,
             stage := if l.phase = .loading then l.stage else .switching }
  let t := getTrick s 0
  switchComplete (setTrick s 0 { t with arrived := 1, expected := 1, spanning := true, children := (switchChildren s).length })

/-- What this module answers to the gather of step 2. -/
def switchAnswer (s : State) : SwitchState :=
  { armed := s.loader.stage = .armed,
    id := ((s.loader.armed.orElse fun _ => s.loader.staged).map (·.id)).getD { deckId := 0, serial := 0, digest := 0, keySlot := 0 } }

/-- Answer the dealer of the running deck about the armed deck. -/
def answerSwitch (s : State) : State :=
  match switchDeck s with
  | some d => sendFrame s (dealerIndex s d) 64 (.switchState (switchAnswer s))
  | none => s

/-- End the switch because a member does not hold the dealer's deck (step 3). -/
def peerMismatch (s : State) (member : Nat) : State :=
  let c := evDckPeerMismatch.word uDeck
  startRounds (endSwitch (logGen s evDckPeerMismatch uDeck none [w32 member] []) c c)

/-- Step 4, once nothing of a round is open. A module that is no longer ARMED, because a recovery has reset a control core (R94), cannot
play: a member answers "not armed", and the dealer ends the switch as for a member without the deck (DEDUCED from R93 and R96). -/
def maybePlay (s : State) : State :=
  if !(s.loader.phase = .announced && noOpenRound s) then s
  else if s.loader.armed.isSome then playSwitch s
  else if switchRoot s then peerMismatch s (ownIndex s)
  else openHeld (answerSwitch (cancelSwitch s))

/-- A member accepts the announce: it holds marks and plays when its round has closed. -/
def acceptAnnounce (s : State) : State :=
  let s := modCtl s fun c => { c with heldSwitch := true }
  maybePlay (modLoader s fun l => { l with phase := .announced })

/-- Step 7: the load has completed. -/
def loadDone (s : State) : State :=
  match deckOf s with
  | none => s
  | some d => playSwitch (loadPrograms s d)

/-! ### Takeover (R36, R569, R585) -/

/-- The standby core becomes active; the other is no longer ready. -/
def takeOver (s : State) : State :=
  modCtl s fun c => { c with activeCore := 1 - c.activeCore, standbyReady := false, missed := 0 }

/-- Step 4 of an online activation, at a round boundary: the old active core stays ready on the old image. -/
def maybeTakeOver (s : State) : State :=
  if s.ctl.fwPhase = .waiting && noOpenRound s then
    startDeadline (modCtl (takeOver s) fun c => { c with fwPhase := .probation, standbyReady := true }) .probation
  else s

end Sys2Proof.Machine
end

