-- ==== Sys2Proof/Machine/Closing.lean ====
section
/-! DEFINITION. Tricks and tallies: plays of members, closing, releases, the re-alignment of tallies, repair windows, and what
the release of a round-closing trick brings (R302 to R309, R314, R324 to R326, R416, R453, R587, R588). -/

namespace Sys2Proof.Machine

/-! ### Tallies (R325, R326, R453) -/

/-- The consumer re-aligns a stream's tally to the mark of an epoch (R326). -/
def realign (s : State) (n t : Nat) (epoch count : W32) (missing : Option W32) : State :=
  let k := getStream s n
  let s := modTally s t fun y => { y with lastEpoch := epoch }
  let s := setStream s n { k with ctally := count }
  if k.ctally = count then s
  else
    let c := ((streamEntry s n).map fun e => coreOfField e.consumer / 64).getD 0
    let s := modTally s t fun y => { y with drifts := satInc 0xFFFFFFFF y.drifts }
    logGen s evSynTallyDrift (uCluster c) (some t) [w32 t, w32 n, epoch, missing.getD 0xFFFFFFFF]
      [w64 count.toNat, w64 k.ctally.toNat]

/-- What follows the first element of a list that a test accepts. -/
def afterFirst {α : Type} (p : α → Bool) : List α → List α
  | [] => []
  | a :: l => if p a then l else afterFirst p l

/-- Re-align to the first of the marks `ms` whose epoch has been released. The releases before that epoch have no mark: their epochs are
missing, and the entry names the first of them. -/
def applyMark (s : State) (n t : Nat) (ms : List (W32 × W32)) : State :=
  let k := getStream s n
  match ms.find? fun m => k.rels.contains m.1 with
  | none => s
  | some m =>
    let missing := if k.rels.head? = some m.1 then none else k.rels.head?
    let s := setStream s n { k with marks := afterFirst (fun x => x == m) k.marks, rels := afterFirst (fun r => r == m.1) k.rels }
    realign s n t m.1 m.2 missing

/-- Apply the marks that the consumer holds, in epoch order, each once its epoch has been released. -/
def tryRealign (s : State) (n t : Nat) : State :=
  (getStream s n).marks.foldl (fun s _ => applyMark s n t (getStream s n).marks) s

/-- A tally mark reaches the consumer (R325). A mark sent again for an epoch, after an abort, takes the place of the one before. -/
def takeMark (s : State) (n t : Nat) (count epoch : W32) : State :=
  tryRealign (modStream s n fun k => { k with marks := k.marks.filter (fun m => m.1 ≠ epoch) ++ [(epoch, count)] }) n t

/-- The release of an epoch of the closing trick reaches a consumer. -/
def takeRelease (s : State) (n t : Nat) (epoch : W32) : State :=
  tryRealign (modStream s n fun k => { k with rels := k.rels.filter (· ≠ epoch) ++ [epoch] }) n t

/-- The marks of a stream that have no push of it ahead any more reach the consumer. -/
def deliverMarks (s : State) (n t : Nat) : State :=
  let due := (getStream s n).marksAhead.filter fun m => m.1 = 0
  let s := modStream s n fun k => { k with marksAhead := k.marksAhead.filter fun m => m.1 ≠ 0 }
  due.foldl (fun s m => takeMark s n t m.2.2 m.2.1) s

/-- A push of an on-die stream has left the route: the marks behind it are one push nearer. -/
def marksMove (s : State) (n t : Nat) : State :=
  deliverMarks (modStream s n fun k => { k with marksAhead := k.marksAhead.map fun m => (m.1 - 1, m.2) }) n t

/-- The TOKENS and REQUESTS marks of a table, which the dealer takes at local completion and keeps inside the module (R325, R453). -/
def markTable (s : State) (t : Nat) (epoch : W32) : State :=
  modTally s t fun y => { y with mark := some (epoch, y.tokProd, y.reqProd) }

/-- Send the tally marks of a table's streams when the local part of its closing trick is complete. A mark travels behind the pushes of
its stream that are on their way, on the die and at the regulator (R325, R333). -/
def sendMarks (s : State) (d : Deck) (t : Nat) (epoch : W32) : State :=
  let s := if isDealer s then markTable s t epoch else s
  (d.streams.filter fun e => e.table = t && e.kind ≠ 2).foldl (fun s e =>
    let c := (getStream s e.stream).ptally
    if e.kind = 0 then
      let ahead := (s.pushes.filter fun p => p.stream = e.stream).length
      deliverMarks (modStream s e.stream fun k => { k with marksAhead := k.marksAhead ++ [(ahead, epoch, c)] }) e.stream t
    else sendBehind s e.remote t (.tallyMark e.stream c epoch)) s

/-- Tokens and final entries of a list of completion entries. -/
def entryTokens (es : List Completion) : Nat := ((es.filter fun e => e.kind = 0).map fun e => e.tokens.length).sum
def entryFinals (es : List Completion) : Nat := (es.filter fun e => e.kind = 1).length

/-- Re-align one of the two tallies kept on the dealer. `prod` and `cons` are the counts now, `mark` is the producer count that the mark
carries, `queued` counts what is queued and not yet sent. What has been queued since the mark, and what is still to be sent, is no drift:
the counts part only by what R451 discards (R453). The consumer count is moved by the difference, so for the entries of the mark it is the
producer count. -/
def realignCount (s : State) (t : Nat) (epoch tally : W32) (prod cons mark : W64) (queued : Nat) : State × W64 :=
  let own := cons + w64 queued - (prod - mark)
  if own = mark then (s, cons)
  else
    let s := modTally s t fun y => { y with drifts := satInc 0xFFFFFFFF y.drifts }
    (logGen s evSynTallyDrift uCtl (some t) [w32 t, tally, epoch, 0xFFFFFFFF] [mark, own], cons + (mark - own))

/-- The dealer's TOKENS and REQUESTS tallies at the release of a table's closing trick, once it holds the mark of that epoch. -/
def realignTable (s : State) (t : Nat) (epoch : W32) : State :=
  let qs := (s.channels.filter fun e => e.2.table = t).flatMap fun e => e.2.backlog ++ e.2.unsent
  let y := getTally s t
  match y.mark with
  | none => s
  | some m =>
    if m.1 ≠ epoch then s
    else
      let a := realignCount s t epoch 0xFFFF0001 y.tokProd y.tokCons m.2.1 (entryTokens qs)
      let b := realignCount a.1 t epoch 0xFFFF0002 y.reqProd y.reqCons m.2.2 (entryFinals qs)
      modTally b.1 t fun y => { y with tokCons := a.2, reqCons := b.2, mark := none, lastEpoch := epoch }

/-! ### Repair windows (R587, R588) -/

/-- This module's window is over: it serves on, and the spares that it mapped in start (R155). -/
def closeWindow (s : State) : State :=
  let s := s.ctl.spareCores.foldl (fun s n =>
    modCore s n fun c => if c.run = .halted && c.fault.isNone then { c with run := .running } else c) s
  modCtl s fun c =>
    { c with windowOpen := false, windowDone := [], spareCores := [], group := if c.group = .window then .serving else c.group }

/-- The dealer learns that a member's window has ended; after the last one rounds go on (R588). -/
def windowFrom (s : State) (d : Deck) (src : Nat) : State :=
  let s := modCtl s fun c => { c with windowDone := c.windowDone.filter (· ≠ src) ++ [src] }
  if (ownIndex s :: otherMembers s d).all fun m => s.ctl.windowDone.contains m then
    startRounds (endBackground (closeWindow s) 0xC072 .success 0 [])
  else s

/-- A member's window ends: it reports to the dealer, logs its counts and serves on. -/
def endWindow (s : State) : State :=
  let s := logGen s evBupRepairWindow uCtl none [w32 s.ctl.windowActions, w32 s.ctl.windowDeferred] []
  match deckOf s with
  | none => endBackground (closeWindow s) 0xC072 .success 0 []
  | some d =>
    if isDealer s then windowFrom s d (ownIndex s)
    else
      endBackground (sendGroup (closeWindow s) (dealerIndex s d) (groupParts s d 5 0 [])) 0xC072 .success 0 []

/-- Every AUTO bit and no limit of fuse operations: the policy where no deck gives one. -/
def openPolicy : Nat × Nat := (0xFFFF, 2 ^ 32)

/-- The policy of the running deck: AUTO, FUSE_MAX. Without a deck the window that host software asks for has no limit (DESIGN CHOICE). -/
def sparePolicy (s : State) : Nat × Nat := ((deckOf s).map fun d => (d.spare.auto, d.spare.fuseMax)).getD openPolicy

/-- A member's window: its work, and the end of it where the budget did not stop it. -/
def workWindow (s : State) : State :=
  let p := sparePolicy s
  let w := windowWork (startDeadline s .window) p.1 p.2 (deckOf s).isSome
  let s := modCtl w.s fun c => { c with windowOpen := true, windowActions := w.done, windowDeferred := w.deferred }
  if w.stopped then s else endWindow s

/-- The dealer opens a window in place of the next round mark (R587). -/
def openWindow (s : State) : State :=
  match deckOf s with
  | none => workWindow s
  | some d =>
    if !(isDealer s && s.ctl.windowAsked && noOpenRound s) then s
    else
      let s := modCtl s fun c =>
        { c with windowAsked := false, windowOpen := true, windowDone := [], roundsSinceWindow := 0, group := .window }
      let s := (otherMembers s d).foldl (fun s m => sendGroup s m (groupParts s d 4 0 [])) s
      workWindow s

/-! ### Releases and closing (R304, R305, R307, R308) -/

/-- A cluster learns a trick's EPOCH: its members that wait are released. -/
def clusterReleased (s : State) (trick cluster : Nat) (e : W32) : State :=
  let s := { s with known := sput 0 s.known (knownKey trick cluster) e }
  { s with cores := s.cores.map fun x =>
      if x.1 / 64 = cluster && (x.2.wait = .trickIssue trick || x.2.wait = .trickRelease trick) then
        (x.1, { x.2 with wait := .none }) else x }

/-- Send a trick's release to its member clusters; the home cluster has it at once. -/
def sendReleases (s : State) (e : TrickEntry) : State :=
  let ep := (getTrick s e.trick).epoch
  let home := homeOf e
  e.masks.foldl (fun s m =>
    if m.1 = home then clusterReleased s e.trick home ep
    else { s with releases := s.releases ++ [(m.1, e.trick, ep)] }) s

/-- What follows when a table's round has closed: a held switch, a takeover, a window, or the next round. -/
def afterClose (s : State) (t : Nat) : State :=
  let s := maybeTakeOver (maybePlay (memberWrite s t))
  let s := openWindow s
  if isDealer s then startRounds s else openHeld s

/-- The release of a table's round-closing trick for an epoch (R314, R326, R416). -/
def closingRelease (s : State) (d : Deck) (t : Nat) (epoch : W32) : State :=
  let s := (d.streams.filter fun e => e.table = t && e.kind ≠ 1).foldl (fun s e => takeRelease s e.stream t epoch) s
  let s := if isDealer s then realignTable s t epoch else s
  afterClose (roundClosed s t) t

/-- A slot is released: EPOCH grows, the release goes down the tree and to the member clusters, and a round may close
(R304, R308). -/
def releaseTrick (s : State) (d : Deck) (e : TrickEntry) : State :=
  let t := getTrick s e.trick
  let s := setTrick s e.trick { trickCancel t with epoch := t.epoch + 1 }
  let s :=
    if e.spanning then
      (childrenOf s d (ownIndex s)).foldl (fun s m => sendFrame s m e.table (.trickRelease e.trick d.role.group t.epoch)) s
    else s
  let s := sendReleases s e
  if closingTrick d e.table = some e.trick then closingRelease s d e.table t.epoch else s

/-- Close a trick or send its arrive, where its local part and its children's arrives allow (R304, R307). -/
def checkTrick (s : State) (d : Deck) (e : TrickEntry) : State :=
  let t := getTrick s e.trick
  if t.arrived ≠ t.expected then s
  else if !e.spanning then releaseTrick s d e
  else if t.childArrived ≠ t.children then s
  else if isDealer s then releaseTrick s d e
  else if t.sent then s
  else
    match parentOf s d (ownIndex s) with
    | some p => sendFrame (setTrick s e.trick { t with sent := true }) p e.table (.trickArrive e.trick d.role.group t.epoch)
    | none => s

/-- Member plays reach the home cluster; a local part that completes sends the tally marks of its table. -/
def addArrived (s : State) (trick n : Nat) : State :=
  match deckOf s, trickEntry s trick with
  | some d, some e =>
    let t := getTrick s trick
    let s := setTrick s trick { t with arrived := t.arrived + n }
    let done := t.arrived + n = t.expected
    let s := if done && closingTrick d e.table = some trick then sendMarks s d e.table t.epoch else s
    checkTrick s d e
  | _, _ => s

/-- Members of a trick in a cluster. -/
def clusterMembers (e : TrickEntry) (cluster : Nat) : Nat :=
  ((e.masks.find? fun m => m.1 = cluster).map fun m => popBits 64 m.2.toNat).getD 0

/-- A core's play counts: in its home cluster at once, else with the arrive of its cluster (Table 9.2). -/
def countPlay (s : State) (e : TrickEntry) (n : Nat) : State :=
  let c := n / 64
  if c = homeOf e then addArrived s e.trick 1
  else
    let k := knownKey e.trick c
    let v := sget 0 s.clusterPlays k + 1
    if v = clusterMembers e c then
      { s with clusterPlays := sput 0 s.clusterPlays k 0, arrives := s.arrives ++ [(c, e.trick, v)] }
    else { s with clusterPlays := sput 0 s.clusterPlays k v }

/-- A child's arrive for the current epoch (R307). -/
def childArrive (s : State) (trick : Nat) : State :=
  let t := getTrick s trick
  let s := setTrick s trick { t with childArrived := t.childArrived + 1 }
  if trick = 0 then switchComplete s
  else
    match deckOf s, trickEntry s trick with
    | some d, some e => checkTrick s d e
    | _, _ => s

end Sys2Proof.Machine
end

