-- ==== Sys2Proof/Machine/Flags.lean ====
section
/-! DEFINITION. Predication, program order and loops: what surrounds every play (R144, R146 to R150). -/

namespace Sys2Proof.Machine

/-- How a play ends at its core. -/
inductive PlayEnd where
  /-- The play took effect; the core goes on at the next play. -/
  | done (s : State)
  /-- The play took effect and set the play index itself. -/
  | moved (s : State)
  /-- The play waits at issue; nothing of it has taken effect. -/
  | wait (s : State)
  /-- The play faults, with its software number and offending address. -/
  | fault (s : State) (e : Ev) (number : Nat) (addr : W64)
  deriving DecidableEq, Repr

/-- Reaching index `pc`: the end of a body starts its next iteration or pops its level (R148). -/
def loopEnds : List LoopLevel → Nat → List LoopLevel × Nat
  | [], pc => ([], pc)
  | l :: r, pc =>
    if pc = l.first + l.body then
      if l.count = 0 || l.iter + 1 < l.count then ({ l with iter := l.iter + 1 } :: r, l.first)
      else loopEnds r pc
    else (l :: r, pc)

/-- Continue a core at an index. -/
def goTo (c : Core) (pc : Nat) : Core :=
  let r := loopEnds c.loops pc
  { c with loops := r.1, pc := r.2, wait := .none }

/-- Continue a core at its next play. -/
def nextPlay (s : State) (n : Nat) : State := modCore s n fun c => goTo c (c.pc + 1)

/-- Whether a predicated play runs: p[PRED] XOR PNEG (R146). -/
def predRuns (c : Core) (h : PlayHdr) : Bool := !h.pen || (predOf c h.pred.val != h.pneg)

/-- Finish a play. -/
def finishPlay (n : Nat) : PlayEnd → State
  | .done s => nextPlay s n
  | .moved s => s
  | .wait s => s
  | .fault s e number addr => coreFault s n e number addr

/-- Whether a core issues a play: it runs, waits for nothing and its quadrant is on. -/
def coreIssues (s : State) (n : Nat) : Bool :=
  (getCore s n).run = .running && (getCore s n).wait = .none && clusterOn s (n / 64)

/-- The effect of a play whose words are read: a descriptor slot that fails its parity holds no descriptor to use, and the play faults
as on a poisoned address (DEDUCED from R150, log 158). -/
def readWords (h : PlayHdr) (body : State → Nat → PlayEnd) (s : State) (n : Nat) : PlayEnd :=
  match h.parity with
  | none => body s n
  | some (.desc r) => .fault (failWord s n (.desc r)) evIntPoisonAddress 0 0
  | some .preds => body s n
  | some w => body (failWord s n w) n

/-- Issue a play: nothing on a core that issues none; a word of the program store that fails its parity faults the core before the
play issues (R386); a poisoned predicate faults (R150); a play whose predicate does not let it run ends as `skipped` says (R146,
R147). -/
def issueWith (s : State) (h : PlayHdr) (skipped body : State → Nat → PlayEnd) : Out :=
  let n := h.core.idx
  if !coreIssues s n then .next s
  else if h.parity = some .program then .next (coreFault s n evIntStoredWordParity 0 0)
  else
    let s := if h.parity = some .preds then failWord s n .preds else s
    let c := getCore s n
    if h.pen && predBad c h.pred.val then .next (coreFault s n evIntPoisonPredicate 0 0)
    else if !predRuns c h then .next (finishPlay n (skipped s n))
    else .next (finishPlay n (readWords h body s n))

/-- Issue a play that does nothing when its predicate does not let it run. -/
def issue (s : State) (h : PlayHdr) (body : State → Nat → PlayEnd) : Out := issueWith s h (fun s _ => .done s) body

end Sys2Proof.Machine
end

