-- ==== Sys2Proof/Machine/Tensor.lean ====
section
/-! DEFINITION. Tensor plays: exact block products into accumulator tiles (Tables 4.9 and 4.10, R123 to R126, R163 to
R168), and the checks of Table 6.4 that every engine play shares. -/

namespace Sys2Proof.Machine

/-- A fault of a play with no software number. -/
def bad (s : State) (e : Ev) : PlayEnd := .fault s e 0 0

/-- Orders 1 and 2 of Table 6.4 for the operands of a play: each descriptor slot with the scalar register that offsets
it. A poisoned offset bites (R150). -/
def takeOperands (c : Core) (ops : List (Nat × Nat)) : Except Ev (List Desc) :=
  let ds := ops.map fun o => parseDesc (sget 0 c.descs o.1)
  if !(ds.all descValid) then .error evTnsDescInvalid
  else
    (ds.zip ops).foldr (fun e acc =>
      if sregBad c e.2.2 then .error evIntPoisonAddress
      else
        let off := (sreg c e.2.2).toInt
        if !offsetFits e.1 off then .error evTnsOperand
        else acc.map (moveDesc e.1 off :: ·)) (.ok [])

/-- The table of a core, 64 where no table holds its cluster. -/
def coreTable (s : State) (n : Nat) : Nat := (tableOfCore s n).getD 64

/-- The fault of orders 4 and 5 as a play's end (R109, R200). A play whose ranges meet the results of an outstanding script waits for
it (R144). -/
def rangeEnd (s : State) (n : Nat) (ds : List Desc) (ok : State → PlayEnd) : PlayEnd :=
  match rangeFault s (coreTable s n) ds with
  | some f => .fault s f.1 0 (BitVec.ofInt 64 f.2)
  | none =>
    match doutMeets s n (ds.flatMap extents) with
    | some t => .wait (coreWaits s n (.ticket t))
    | none => ok s

/-- Read an operand that lies in scratch. -/
def readLocal (s : State) (n : Nat) (d : Desc) : List RdElem := gather (coreView (getCore s n) []) d

/-- Element `k` of a list of elements. -/
def elemAt (l : List RdElem) (k : Nat) : RdElem := (l[k]?).getD { bits := 0, val := FV.zero, poison := false, scale := 0, sl := 0 }

/-! ### Pairs (Table 4.10) -/

/-- Whether the tensor engine takes two types, and the kind of tile: true for INT32 (R124). -/
def pairKind (a b : Elem) : Option Bool :=
  let f4 (t : Elem) := t = .fp4
  let f6 (t : Elem) := t = .e3m2 || t = .e2m3
  let f8 (t : Elem) := t = .e4m3 || t = .e5m2
  let small (t : Elem) := f4 t || f6 t || f8 t
  if small a && small b then some false
  else if a = .int4 && b = .int4 then some true
  else if (a = .int8 && (b = .int8 || b = .int4)) || (b = .int8 && a = .int4) then some true
  else if (a = .bf16 && b = .bf16) || (a = .fp16 && b = .fp16) then some false
  else none

/-! ### Tiles -/

/-- The place of an element of a tile. -/
def tileKey (m n : Nat) : Nat := 64 * m + n

/-- A cleared tile of a kind (R123). -/
def clearTile (isInt : Bool) : Tile := { isInt := isInt, elems := [], poison := [] }

/-- Accumulator tile of a core. -/
def tileOf (c : Core) (acc : Nat) : Tile := sget Tile.zero c.tiles acc

/-- Write a tile of a core. -/
def setTile (s : State) (n acc : Nat) (t : Tile) : State :=
  modCore s n fun c => { c with tiles := sput Tile.zero c.tiles acc t }

/-- Write tile elements; a poisoned element holds an unspecified value (R399). -/
def putTile (s : State) (n acc : Nat) (t : Tile) : List (Nat × W32 × Bool) → State
  | [] => setTile s n acc t
  | (k, v, p) :: r =>
    let f := takeFree s
    let v := if p then f.1.truncate 32 else v
    putTile (if p then f.2 else s) n acc { t with elems := sput 0 t.elems k v, poison := sput false t.poison k p } r

/-- The block length a floating pair uses along K (R165): none when two scaled operands differ. -/
def pairBlock (a b : Desc) : Option Nat :=
  if a.block ≠ 0 && b.block ≠ 0 && blockLen a.block ≠ blockLen b.block then none
  else some (if a.block ≠ 0 then blockLen a.block else if b.block ≠ 0 then blockLen b.block else 32)

/-- Add the block results of one output element into its tile value in ascending K (R166, R167). -/
def accumBlocks (as bs : List RdElem) (len : Nat) : Nat → W32 → W32
  | 0, acc => acc
  | j + 1, acc =>
    let acc := accumBlocks as bs len j acc
    let ps := (List.range len).map fun i => (elemAt as (j * len + i)).val.mul (elemAt bs (j * len + i)).val
    fadd acc (blockResult ps)

/-- The integer of an element. -/
def intOf (v : FV) : Int :=
  match v with
  | .num neg m e => let k : Int := (m * 2 ^ e.toNat : Nat); if neg then -k else k
  | _ => 0

/-- The sum of products of one output element of an INT32 tile (R168). -/
def accumInts (as bs : List RdElem) (acc : W32) : W32 :=
  acc + BitVec.ofInt 32 (((as.zip bs).map fun e => intOf e.1.val * intOf e.2.val).sum)

/-- TMMA on operands as read (R123 to R126, R166 to R168, Table 12.5). -/
def tmmaTile (t : Tile) (a b : List RdElem) (m n k len : Nat) : List (Nat × W32 × Bool) :=
  (List.range m).flatMap fun i => (List.range n).map fun j =>
    let as := (a.drop (i * k)).take k
    let bs := (b.drop (j * k)).take k
    let key := tileKey i j
    let old := sget 0 t.elems key
    let v := if t.isInt then accumInts as bs old else accumBlocks as bs len (k / len) old
    (key, v, sget false t.poison key || as.any (·.poison) || bs.any (·.poison))

/-- TMMA: tile ACC ← (ZERO ? 0 : tile ACC) + A × Bᵀ. -/
def execTmma (h : PlayHdr) (f : FmtT) (s : State) : Out :=
  issue s h fun s n =>
    let c := getCore s n
    match takeOperands c [(f.da.val, f.sa.val), (f.db.val, f.sb.val)] with
    | .error e => bad s e
    | .ok [a, b] =>
      let k := dimN a.size 0
      let m := dimN a.size 1
      let nn := dimN b.size 1
      let zero := bitOf f.mode.toNat 0
      if !(a.rank = 2 && b.rank = 2 && descLocal a && descLocal b && dimN b.size 0 = k && m ≤ 64 && nn ≤ 64 && k ≤ 65536) then
        bad s evTnsOperand
      else
        match pairKind (descElem a) (descElem b), pairBlock a b with
        | none, _ => bad s evTnsTypePair
        | some _, none => bad s evTnsOperand
        | some isInt, some len =>
          if k % len ≠ 0 then bad s evTnsOperand
          else if !zero && (tileOf c f.acc.val).isInt ≠ isInt then bad s evTnsAccKind
          else
            rangeEnd s n [a, b] fun s =>
              let t := if zero then clearTile isInt else tileOf c f.acc.val
              .done (putTile s n f.acc.val t (tmmaTile t (readLocal s n a) (readLocal s n b) m nn k len))
    | .ok _ => .moved s

/-- TZERO: tile ACC ← 0 of the kind that INT names. -/
def execTzero (h : PlayHdr) (f : FmtT) (s : State) : Out :=
  issue s h fun s n => .done (setTile s n f.acc.val (clearTile (bitOf f.mode.toNat 0)))

/-- Whether C suits TOUT or TLOAD: a matrix of at most 64 × 64 in scratch. -/
def tileShape (d : Desc) : Bool :=
  d.rank = 2 && descLocal d && d.block = 0 && dimN d.size 0 ≤ 64 && dimN d.size 1 ≤ 64

/-- TOUT: C ← tile ACC, converted to C's element type. -/
def execTout (h : PlayHdr) (f : FmtT) (s : State) : Out :=
  issue s h fun s n =>
    let c := getCore s n
    match takeOperands c [(f.dc.val, f.sc.val)] with
    | .error e => bad s e
    | .ok [d] =>
      let t := tileOf c f.acc.val
      let el := descElem d
      let kinds := if t.isInt then el = .int32 else el = .fp32 || el = .bf16 || el = .fp16
      if !(tileShape d && kinds && writable d) then bad s evTnsOperand
      else
        rangeEnd s n [d] fun s =>
          let vals := (tuples d).map fun x =>
            let key := tileKey ((x[1]?).getD 0) ((x[0]?).getD 0)
            let w := sget 0 t.elems key
            (if t.isInt then w.toNat else el.encode (f32 w), sget false t.poison key)
          .done (commitWords s n (scatter d vals))
    | .ok _ => .moved s

/-- TLOAD: tile ACC ← C, of FP32 or INT32 by INT. -/
def execTload (h : PlayHdr) (f : FmtT) (s : State) : Out :=
  issue s h fun s n =>
    let c := getCore s n
    match takeOperands c [(f.dc.val, f.sc.val)] with
    | .error e => bad s e
    | .ok [d] =>
      let isInt := bitOf f.mode.toNat 0
      if !(tileShape d && descElem d = (if isInt then .int32 else .fp32)) then bad s evTnsOperand
      else
        rangeEnd s n [d] fun s =>
          let vals := ((tuples d).zip (readLocal s n d)).map fun e =>
            (tileKey ((e.1[1]?).getD 0) ((e.1[0]?).getD 0), BitVec.ofNat 32 e.2.bits, e.2.poison)
          .done (putTile s n f.acc.val (clearTile isInt) vals)
    | .ok _ => .moved s

end Sys2Proof.Machine
end

