-- ==== Sys2Proof/Machine/Mover.lean ====
section
/-! DEFINITION. Mover plays (Table 4.12, R130 to R134, R201 to R207, R316 to R322). -/

namespace Sys2Proof.Machine

/-! ### Copies -/

/-- MCOPY: C ← A in C's layout, from a snapshot of A (R201 to R205). MODE bit 5 reads through (R112). -/
def execMcopy (h : PlayHdr) (f : FmtT) (s : State) : Out :=
  issue s h fun s n =>
    match takeOperands (getCore s n) [(f.da.val, f.sa.val), (f.dc.val, f.sc.val)] with
    | .error e => bad s e
    | .ok [a, c] =>
      if !(copyable a c && writable c) then bad s evTnsOperand
      else
        rangeEnd s n [a, c] fun s =>
          if copyClash a c false then bad s evTnsCopyOverlap
          else
            let r := fetchLines s n (bitOf f.mode.toNat 5) (deviceLines [a])
            match r.2 with
            | none => .wait r.1
            | some snap =>
              let vals := gather (coreView (getCore r.1 n) snap) a
              let w := writeWords r.1 n (scatterScaled c vals)
              if w.2 then .done w.1 else .wait w.1
    | .ok _ => .moved s

/-- MFILL: every element of C ← the low bits of IMM32. -/
def execMfill (h : PlayHdr) (f : FmtT) (s : State) : Out :=
  issue s h fun s n =>
    match takeOperands (getCore s n) [(f.dc.val, f.sc.val)] with
    | .error e => bad s e
    | .ok [c] =>
      if !writable c then bad s evTnsOperand
      else
        rangeEnd s n [c] fun s =>
          let v := f.imm.toNat % 2 ^ (descElem c).bits
          let w := writeWords s n (scatter c ((List.range (elemCount c)).map fun _ => (v, false)))
          if w.2 then .done w.1 else .wait w.1
    | .ok _ => .moved s

/-- The atomic operation of MRED for a type (Table 4.12). -/
def redOp (t : Elem) : Option Nat :=
  match t with
  | .int32 => some 0 | .fp32 => some 2 | .bf16 => some 3 | _ => none

/-- Add each element of A to its element of C in the home kitties, in index order (R182). -/
def redElems (s : State) (op : Nat) (c : Desc) (vals : List RdElem) : State :=
  ((tuples c).zip vals).foldl (fun s e =>
    if inBound c e.1 then
      (kittyAtom s (c.base + dotOff e.1 c.stride * ((descElem c).bits / 8 : Nat)).toNat op e.2.bits 0 e.2.poison).1
    else s) s

/-- MRED: each element of device tensor C ← C + A, each addition atomic in the home kitty (R131, R206). -/
def execMred (h : PlayHdr) (f : FmtT) (s : State) : Out :=
  issue s h fun s n =>
    match takeOperands (getCore s n) [(f.da.val, f.sa.val), (f.dc.val, f.sc.val)] with
    | .error e => bad s e
    | .ok [a, c] =>
      match redOp (descElem c) with
      | none => bad s evTnsOperand
      | some op =>
        if !(copyable a c && c.block = 0 && writable c) then bad s evTnsOperand
        else if descLocal c then .fault s evTnsAddressRange 0 (BitVec.ofInt 64 c.base)
        else
          rangeEnd s n [a, c] fun s =>
            if copyClash a c true then bad s evTnsCopyOverlap
            else
              let r := fetchLines s n (bitOf f.mode.toNat 5) (deviceLines [a])
              match r.2 with
              | none => .wait r.1
              | some snap =>
                let vals := gather (coreView (getCore r.1 n) snap) a
                let lines := deviceLines [c]
                let w := ensureLines (linesRoom r.1 lines) n [] lines
                if w.2 then
                  .done (lines.foldl (fun s l => modCore s n fun k => rcDrop k l) (redElems w.1 op c vals))
                else .wait w.1
    | .ok _ => .moved s

/-! ### Words -/

/-- s[SA] + IMM32, sign-extended. -/
def wordAddr (c : Core) (f : FmtT) : W64 := sreg c f.sa.val + f.imm.signExtend 64

/-- The checks of a play that uses a scalar as an address: its fault with the address, or none. One that meets the results of an
outstanding script waits for it (R144). -/
def addrEnd (s : State) (n : Nat) (r : Nat) (a : W64) (len align : Nat) (dev : Bool) (ok : Nat → PlayEnd) : PlayEnd :=
  if sregBad (getCore s n) r then bad s evIntPoisonAddress
  else
    match addressFault s n a.toNat len align dev with
    | some e => .fault s e 0 (if e = evTnsScratchRange then 0 else a)
    | none =>
      match doutMeets s n [(0, a.toNat, a.toNat + len - 1)] with
      | some t => .wait (coreWaits s n (.ticket t))
      | none => ok a.toNat

/-- MLDS: s[MODE 4:0] ← 8 bytes at s[SA] + IMM32. -/
def execMlds (h : PlayHdr) (f : FmtT) (s : State) : Out :=
  issue s h fun s n =>
    addrEnd s n f.sa.val (wordAddr (getCore s n) f) 8 8 false fun a =>
      let r := coreRead s n a 8 (bitOf f.mode.toNat 5)
      match r.2 with
      | none => .wait r.1
      | some bs => .done (setSreg r.1 n (fieldOf f.mode.toNat 0 5) (BitVec.ofNat 64 (bytesVal bs)) (halvesBad bs))

/-- MSTS: 8 bytes at s[SA] + IMM32 ← s[MODE 4:0]. -/
def execMsts (h : PlayHdr) (f : FmtT) (s : State) : Out :=
  issue s h fun s n =>
    let c := getCore s n
    addrEnd s n f.sa.val (wordAddr c f) 8 8 false fun a =>
      let r := fieldOf f.mode.toNat 0 5
      let w := writeWords s n (store8 a (sreg c r) (sregPoison c r))
      if w.2 then .done w.1 else .wait w.1

/-- MATOM: an atomic in the home kitty; the old value goes to s[MODE 4:0]. A selector of 7 names no operation and reaches
no core (R117). DESIGN CHOICE (log 153): a 4-byte or 2-byte old value is zero-extended and leaves the upper half
unpoisoned. -/
def execMatom (h : PlayHdr) (f : FmtT) (s : State) : Out :=
  issue s h fun s n =>
    let c := getCore s n
    let op := fieldOf f.mode.toNat 6 3
    if op = 7 then .moved s
    else
      addrEnd s n f.sa.val (wordAddr c f) (atomBytes op) (atomBytes op) true fun a =>
        let w := ensureLines (linesRoom s [a / 64]) n [] [a / 64]
        if !w.2 then .wait w.1
        else
          let mask := 2 ^ (8 * atomBytes op)
          let opBad := sregBad c f.sb.val || (op = 6 && sregBad c f.sc.val)
          let r := kittyAtom w.1 a op ((sreg c f.sb.val).toNat % mask) ((sreg c f.sc.val).toNat % mask) opBad
          let s := modCore r.1 n fun k => rcDrop k (a / 64)
          .done (setSreg s n (fieldOf f.mode.toNat 0 5) (BitVec.ofNat 64 r.2.1) r.2.2)

/-! ### Descriptors -/

/-- Put a descriptor in a slot. -/
def setDesc (s : State) (n slot : Nat) (d : BitVec 1024) : State :=
  modCore s n fun c => { c with descs := sput 0 c.descs slot d }

/-- DLOAD: d[DC] ← 128 bytes at s[SA] + IMM32, always read-through (R134, R208). -/
def execDload (h : PlayHdr) (f : FmtT) (s : State) : Out :=
  issue s h fun s n =>
    addrEnd s n f.sa.val (wordAddr (getCore s n) f) 128 1 false fun a =>
      let r := coreRead s n a 128 true
      match r.2 with
      | none => .wait r.1
      | some bs =>
        let d := BitVec.ofNat 1024 (bytesVal bs)
        if bs.any (·.2) then bad r.1 evIntPoisonAddress
        else if descValid (parseDesc d) then .done (setDesc r.1 n f.dc.val d) else bad r.1 evTnsDescInvalid

/-- A descriptor with another BASE. -/
def withBase (d : BitVec 1024) (a : Nat) : BitVec 1024 :=
  BitVec.ofNat 1024 (d.toNat % 2 ^ 64 + a * 2 ^ 64 + d.toNat / 2 ^ 112 * 2 ^ 112)

/-- DBASE: the base of d[DC] ← s[SA] + IMM32 (R134). DESIGN CHOICE (log 152): a sum with bits 63:48 not zero is no valid
base, TNS_DESC_INVALID, and not a scalar address out of range. -/
def execDbase (h : PlayHdr) (f : FmtT) (s : State) : Out :=
  issue s h fun s n =>
    let c := getCore s n
    let a := (wordAddr c f).toNat
    if sregBad c f.sa.val then bad s evIntPoisonAddress
    else if 2 ^ 48 ≤ a then bad s evTnsDescInvalid
    else
      let d := withBase (sget 0 c.descs f.dc.val) a
      if descValid (parseDesc d) then .done (setDesc s n f.dc.val d) else bad s evTnsDescInvalid

/-! ### Pushes (R133, R318, R321, R322, R364) -/

/-- The bytes that written words hold, by consumer scratch offset, each with its word's poison. -/
def pushBytes (m : Sparse WordPut) : List (Nat × Byte × Bool) :=
  m.flatMap fun e => ((List.range 4).filter fun i => fieldOf e.2.mask (8 * i) 8 = 255).map fun i =>
    (4 * (e.1 - localBit / 4) + i, BitVec.ofNat 8 (fieldOf e.2.value (8 * i) 8), e.2.poison)

/-- Cut bytes into runs of consecutive offsets, each of at most 512 bytes (Table 11.8). -/
def pushRuns : List (Nat × Byte × Bool) → List (Nat × List (Byte × Bool))
  | [] => []
  | (o, b, p) :: r =>
    match pushRuns r with
    | (o', bs) :: rs => if o' = o + 1 && bs.length < 512 then (o, (b, p) :: bs) :: rs else (o, [(b, p)]) :: (o', bs) :: rs
    | [] => [(o, [(b, p)])]

/-- Poison of each 32-bit word of a run, none where no word is poisoned (R361). -/
def runMask (bs : List (Byte × Bool)) : List Bool :=
  if bs.any (·.2) then (List.range (ceilDiv bs.length 4)).map fun i => ((bs.drop (4 * i)).take 4).any (·.2) else []

/-- The cores of this module whose CTAKE waits on a stream. -/
def creditWaiters (s : State) (stream : Nat) : List Nat := (s.cores.filter fun e => e.2.wait = .credits stream).map (·.1)

/-- Every CTAKE that waits on a stopped stream faults with SYN_CREDIT_STOPPED (R322). The abort of the job is left to what stopped the stream. -/
def stopWaiters (s : State) (stream : Nat) : State :=
  (creditWaiters s stream).foldl (fun s n => stopCore s n evSynCreditStopped 0 0) s

/-- A stream stops at this module's end with a fault code; the other end of a fabric stream gets a stop message (R321,
R322). -/
def stopStream (s : State) (e : StreamEntry) (code : W32) : State :=
  let s := stopWaiters (modStream s e.stream fun k => { k with stopped := true }) e.stream
  if e.kind = 0 then s else sendFrame s e.remote e.table (.streamStop e.stream code)

/-- Fault a sync play or a push on a stream. -/
def streamFault (s : State) (n : Nat) (e : StreamEntry) (ev : Ev) : PlayEnd :=
  bad (if ev = evSynCreditStopped then s else stopStream s e (ev.word (uCluster (n / 64)))) ev

/-- Send the frames of a push on a fabric stream; UNITS stands in the last (R364). -/
def sendPush (s : State) (e : StreamEntry) (units : Nat) (runs : List (Nat × List (Byte × Bool))) : State :=
  (runs.zip (List.range runs.length)).foldl (fun s r =>
    let last := r.2 + 1 = runs.length
    sendCharged s e.table
      { hdr := { dest := e.remote, src := ownIndex s, gen := s.gen, table := e.table, poison := r.1.2.any (·.2) },
        body := .push e.stream r.1.1 (r.1.2.map (·.1)) (if last then units else 0) (runMask r.1.2) }) s

/-- MPUSH: A's elements, written in C's layout into the consumer's scratch on stream IMM32[13:0]. -/
def execMpush (h : PlayHdr) (f : FmtT) (s : State) : Out :=
  issue s h fun s n =>
    match takeOperands (getCore s n) [(f.da.val, f.sa.val), (f.dc.val, f.sc.val)] with
    | .error e => bad s e
    | .ok [a, c] =>
      if !(descLocal a && descLocal c && copyable a c && writable c) then bad s evTnsOperand
      else
        rangeEnd s n [a, c] fun s =>
          let st := f.imm.toNat % 2 ^ 14
          match streamEntry s st with
          | none => .moved s
          | some e =>
            let k := getStream s st
            let units := ceilDiv (extentBytes c) (2 ^ e.unitLog2)
            if k.stopped then streamFault s n e evSynCreditStopped
            else if k.taken < units then streamFault s n e evSynCreditUnderflow
            else
              let bytes := pushBytes (scatterScaled c (readLocal s n a))
              let s := setStream s st { k with taken := k.taken - units, ptally := k.ptally + BitVec.ofNat 32 units }
              let s := modCore s n fun c => { c with unperformed := c.unperformed + 1 }
              if e.kind = 0 then
                .done { s with pushes := s.pushes ++ [{ stream := st, producer := n, units := units, bytes := bytes, gen := s.gen }] }
              else .done (sendPush s e units (pushRuns bytes))
    | .ok _ => .moved s

end Sys2Proof.Machine
end

