-- ==== Sys2Proof/Machine/Sync.lean ====
section
/-! DEFINITION. Sync plays (Table 4.13, R135 to R137, R302 to R305, R316 to R322, R334 to R337). A play that names a trick or a
stream that its core has no part in reaches no core (R121) and changes nothing here. -/

namespace Sys2Proof.Machine

/-! ### Tricks -/

/-- Whether a core is a member of a trick entry. -/
def isMember (e : TrickEntry) (n : Nat) : Bool := e.masks.any fun m => m.1 = n / 64 && bitOf m.2.toNat (n % 64)

/-- Empty a core's read cache (R114). -/
def rcEmpty (s : State) (n : Nat) : State := modCore s n fun c => { c with rcache := [] }

/-- A core's member record of a trick (R302). -/
def memberRecord (s : State) (n trick : Nat) : Option W32 := sget none (getCore s n).members trick

/-- Set a member record to the epoch that the core's cluster knows. -/
def setRecord (s : State) (n trick : Nat) : State :=
  modCore s n fun c => { c with members := sput none c.members trick (some (knownEpoch s trick (n / 64))) }

/-- The common part of TPLAY and TPW: wait until earlier writes are performed and until the epoch already played has been
released (R303), else play. -/
def playTrick (s : State) (n trick : Nat) (play : TrickEntry → PlayEnd) : PlayEnd :=
  match trickEntry s trick with
  | none => .moved s
  | some e =>
    if !isMember e n then .moved s
    else if (getCore s n).unperformed ≠ 0 then .wait (coreWaits s n .performed)
    else if memberRecord s n trick = some (knownEpoch s trick (n / 64)) then .wait (coreWaits s n (.trickIssue trick))
    else play e

/-- TPLAY: plays trick ID. -/
def execTplay (h : PlayHdr) (f : FmtY) (s : State) : Out :=
  issue s h fun s n =>
    playTrick s n f.id.toNat fun e => .moved (countPlay (nextPlay (setRecord s n f.id.toNat) n) e n)

/-- The wait for the release after the core's last play of a trick (R305). -/
def awaitTrick (s : State) (n trick : Nat) (inv : Bool) : PlayEnd :=
  match memberRecord s n trick with
  | none => bad s evSynWaitUnplayed
  | some r =>
    if r = knownEpoch s trick (n / 64) then .wait (coreWaits s n (.trickRelease trick))
    else .done (modCore (if inv then rcEmpty s n else s) n fun c => { c with tpwPlayed := false })

/-- TWAIT: waits for trick ID's release. -/
def execTwait (h : PlayHdr) (f : FmtY) (s : State) : Out :=
  issue s h fun s n => awaitTrick s n f.id.toNat f.inv

/-- TPW: TPLAY, then TWAIT. The core notes that the play has counted, and waits for the release. -/
def execTpw (h : PlayHdr) (f : FmtY) (s : State) : Out :=
  issue s h fun s n =>
    if (getCore s n).tpwPlayed then awaitTrick s n f.id.toNat f.inv
    else
      playTrick s n f.id.toNat fun e =>
        let s := modCore (setRecord s n f.id.toNat) n fun c => { c with tpwPlayed := true, wait := .trickRelease f.id.toNat }
        .moved (countPlay s e n)

/-! ### Credits -/

/-- A core's end of a stream: true for the producer, false for the consumer. -/
def streamEnd (s : State) (e : StreamEntry) (n : Nat) : Option Bool :=
  let k := getStream s e.stream
  if k.prodValid && coreOfField e.producer = n then some true
  else if k.consValid && coreOfField e.consumer = n then some false
  else none

/-- CTAKE: waits for COUNT credits or COUNT delivered units, then takes them (R317, R319, R322). -/
def execCtake (h : PlayHdr) (f : FmtY) (s : State) : Out :=
  issue s h fun s n =>
    let st := f.id.toNat
    let k := f.count.toNat
    match streamEntry s st with
    | none => .moved s
    | some e =>
      match streamEnd s e n with
      | none => .moved s
      | some prod =>
        let r := getStream s st
        if r.stopped then streamFault s n e evSynCreditStopped
        else if prod then
          if k ≤ r.avail then .done (setStream s st { r with avail := r.avail - k, taken := r.taken + k })
          else .wait (coreWaits s n (.credits st))
        else if k ≤ r.delivered then .done (setStream s st { r with delivered := r.delivered - k, held := r.held + k })
        else .wait (coreWaits s n (.credits st))

/-- CSEND: returns COUNT credits to the producer (R320 to R322). -/
def execCsend (h : PlayHdr) (f : FmtY) (s : State) : Out :=
  issue s h fun s n =>
    let st := f.id.toNat
    let k := f.count.toNat
    match streamEntry s st with
    | none => .moved s
    | some e =>
      let r := getStream s st
      if !(r.consValid && coreOfField e.consumer = n) then .moved s
      else if r.stopped then streamFault s n e evSynCreditStopped
      else if r.held < k then streamFault s n e evSynCreditOverflow
      else
        let s := setStream s st { r with held := r.held - k }
        if e.kind = 0 then .done { s with creditFlight := s.creditFlight ++ [(st, k)] }
        else .done (sendFrame s e.remote e.table (.credit st k))

/-! ### Words and fences -/

/-- ACQ: s[SD] ← 8 bytes at s[SA], read through. -/
def execAcq (h : PlayHdr) (f : FmtY) (s : State) : Out :=
  issue s h fun s n =>
    addrEnd s n f.sa.val (sreg (getCore s n) f.sa.val) 8 8 false fun a =>
      let r := coreRead s n a 8 true
      match r.2 with
      | none => .wait r.1
      | some bs => .done (setSreg r.1 n f.sd.val (BitVec.ofNat 64 (bytesVal bs)) (halvesBad bs))

/-- REL: 8 bytes at s[SA] ← s[SD], once every earlier access is performed. -/
def execRel (h : PlayHdr) (f : FmtY) (s : State) : Out :=
  issue s h fun s n =>
    let c := getCore s n
    addrEnd s n f.sa.val (sreg c f.sa.val) 8 8 false fun a =>
      if c.unperformed ≠ 0 then .wait (coreWaits s n .performed)
      else
        let w := writeWords s n (store8 a (sreg c f.sd.val) (sregPoison c f.sd.val))
        if w.2 then .done w.1 else .wait w.1

/-- The comparison of POLL (Table 4.6). A code of 4 to 7 names none. -/
def pollCmp (cmp v imm : Nat) : Option Bool :=
  match cmp with
  | 0 => some (v = imm)
  | 1 => some (v ≠ imm)
  | 2 => some (imm ≤ v)
  | 3 => some (v < imm)
  | _ => none

/-- POLL: reads through the home kitty until the comparison holds. A read whose value does not satisfy it leaves the core at
the play, which reads again; a poisoned value faults (R150). -/
def execPoll (h : PlayHdr) (f : FmtY) (s : State) : Out :=
  issue s h fun s n =>
    addrEnd s n f.sa.val (sreg (getCore s n) f.sa.val) 8 8 false fun a =>
      let r := coreRead s n a 8 true
      match r.2 with
      | none => .wait r.1
      | some bs =>
        if bs.any (·.2) then bad r.1 evIntPoisonPredicate
        else if pollCmp f.cmp.toNat (bytesVal bs) f.imm.toNat = some true then
          .done (setSreg r.1 n f.sd.val (BitVec.ofNat 64 (bytesVal bs)) 0)
        else .moved r.1

/-- FENCE: waits until every earlier access is performed; a push counts as an access to its consumer's module (R337), so
both kinds wait for the same. -/
def execFence (h : PlayHdr) (_f : FmtY) (s : State) : Out :=
  issue s h fun s n => if (getCore s n).unperformed ≠ 0 then .wait (coreWaits s n .performed) else .done s

/-- INVR: drops the read-cache lines that the extents of d[DA] overlap, or all of them with INV. -/
def execInvr (h : PlayHdr) (f : FmtY) (s : State) : Out :=
  issue s h fun s n =>
    if f.inv then .done (rcEmpty s n)
    else
      match takeOperands (getCore s n) [(f.da.val, 0)] with
      | .error e => bad s e
      | .ok ds =>
        rangeEnd s n ds fun s =>
          .done ((deviceLines ds).foldl (fun s l => modCore s n fun c => rcDrop c l) s)

end Sys2Proof.Machine
end

