-- ==== Sys2Proof/Machine/BankPlays.lean ====
section
/-! DEFINITION. Bank plays (Table 4.14, R138 to R142, R252 to R255, R265, R266, R293). A play that names a script of another
table or of no table reaches no core and changes nothing here. -/

namespace Sys2Proof.Machine

/-! ### Parameters (Table 8.3) -/

/-- ROW_ADD of a parameter. -/
def parRowAdd (v : W64) : Nat := fieldOf v.toNat 0 20
/-- GROUP of a parameter. -/
def parGroup (v : W64) : Nat := fieldOf v.toNat 32 8
/-- Whether a parameter's reserved bits are zero. -/
def parClean (v : W64) : Bool := fieldOf v.toNat 20 12 = 0 && fieldOf v.toNat 40 24 = 0

/-- The LGROUP of a script that declares a group. -/
def groupOf (p : Script) (g : Nat) : Option ScriptOp := p.ops.find? fun o => o.op = 0x01 && fieldOf o.x 0 8 = g
/-- CHUNK of an LGROUP. -/
def chunkOf (o : ScriptOp) : Nat := 32 * fieldOf o.x 8 7

/-- Whether a stack's near-bank half runs: on, in regulation, and not under recovery. -/
def halfUp (s : State) (stack : Nat) : Bool :=
  halfOn s stack && !s.ctl.recovering.contains (.nearBank (stack / 4)) && !s.ctl.recovering.contains .wholeModule

/-- The script of a play, of its core's table. -/
def playScript (s : State) (n : Nat) (f : FmtB) : Option Script :=
  (scriptOf s f.script.toNat).filter fun p => p.table = coreTable s n

/-! ### BLATCH -/

/-- The operand of a BLATCH as read: FP8 of block shape 0 or 1, or UINT8 (R254). DESIGN CHOICE (log 166): a latch has no place for
second-level scales (Table 8.1), so those of an operand that has them are not latched. -/
def latchOperand (d : Desc) : Bool :=
  descLocal d &&
    (((descElem d = .e4m3 || descElem d = .e5m2) && d.block ≤ 1) || (descElem d = .uint8 && d.block = 0))

/-- The latch contents of one chunk; an unscaled FP8 vector has every scale 0x7F (R253, R254). -/
def chunkLatch (d : Desc) (es : List RdElem) : Latch :=
  let raw := descElem d = .uint8
  { values := wrBytes [] 0 (es.map fun e => BitVec.ofNat 8 e.bits),
    scales := if raw then []
              else wrBytes [] 0 ((List.range (es.length / 32)).map fun i =>
                if d.block = 0 then 0x7F else BitVec.ofNat 8 (elemAt es (32 * i)).scale),
    length := es.length, valid := true, e5 := descElem d = .e5m2, raw := raw,
    poison := (List.range es.length).filter fun i => (elemAt es i).poison }

/-- The chunks of a BLATCH on their way, under a number that no chunk under way has: chunk `i` to the `i`-th slot of the group, in every
channel. -/
def latchChunks (s : State) (n stack latch : Nat) (p : Script) (par : W64) (g : ScriptOp) (d : Desc) (es : List RdElem) :
    List LatchFlight :=
  let id := 1 + (s.latchFlight.map (·.id)).foldl max 0
  ((opSlots g).zip (List.range 24)).flatMap fun e =>
    (opChannels g).map fun c =>
      { id := id, core := n, stack := stack, bank := 32 * e.1 + c, latch := latch, card := p, param := par,
        content := chunkLatch d ((es.drop (e.2 * chunkOf g)).take (chunkOf g)) }

/-- A BLATCH that the stack drops, with its code (R255). -/
def dropLatch (s : State) (stack : Nat) (p : Script) (e : Ev) (n : Nat) : State :=
  logAtDie s e (uNear stack) 0 (some p.table) (scriptDetail p stack 0 0xFF 0xFF 0 n 0xFFFFFFFF)

/-- BLATCH. The stack's tests come after the core's; each chunk crosses the stack interface once (R253 to R255). -/
def execBlatch (h : PlayHdr) (f : FmtB) (s : State) : Out :=
  issue s h fun s n =>
    let c := getCore s n
    match playScript s n f with
    | none => .moved s
    | some p =>
      match takeOperands c [(f.din.val, 0)] with
      | .ok [d] =>
        if sregBad c f.sp.val then bad s evIntPoisonAddress
        else
          let par := sreg c f.sp.val
          let g := groupOf p (parGroup par)
          let fits := match g with
            | some o => elemCount d = chunkOf o * (opSlots o).length
            | none => true
          if !(latchOperand d && fits) then bad s evTnsOperand
          else
            rangeEnd s n [d] fun s =>
              let stack := scriptStack s p
              let n64 := elemCount d + (if d.block = 0 then 0 else elemCount d / 32)
              match g with
              | none => .done (dropLatch s stack p evTnsScriptParam n)
              | some o =>
                if !parClean par then .done (dropLatch s stack p evTnsScriptParam n)
                else if !halfUp s stack then .done (dropLatch s stack p evTnsScriptUnavailable n)
                else if !coreMayCharge s n p.table stack n64 then
                  .wait (coreWaits (coreQueue s n p.table stack n64) n (.regulator (pairOf p.table stack)))
                else
                  let fs := latchChunks s n stack f.latch.val p par o d (readLocal s n d)
                  let s := coreCharge s n p.table stack n64
                  .done (modCore { s with latchFlight := s.latchFlight ++ fs } n fun c =>
                    { c with unperformed := c.unperformed + fs.length })
      | .ok _ => .moved s
      | .error e => bad s e

/-! ### BISSUE -/

/-- Whether d[DOUT] takes a script's results: local, FP32, or INT32 for POPC, rank 1 or 2, and large enough (R266). -/
def doutFits (p : Script) (d : Desc) : Bool :=
  let t := if p.ops.any (·.op = 0x23) then Elem.int32 else .fp32
  descLocal d && descElem d = t && d.block = 0 && (d.rank = 1 || d.rank = 2) && writable d &&
    cursorTotal p ≤ dimN d.size 0 && vectorCount p ≤ (if d.rank = 1 then 1 else dimN d.size 1)

/-- The checks of d[DOUT], which every BISSUE names. -/
def doutEnd (s : State) (n : Nat) (p : Script) (slot : Nat) (ok : State → PlayEnd) : PlayEnd :=
  match takeOperands (getCore s n) [(slot, 0)] with
  | .ok [d] => if doutFits p d then rangeEnd s n [d] ok else bad s evTnsOperand
  | .ok _ => .moved s
  | .error e => bad s e

/-- Hand a script to its stack's controller, under a new generation of the ticket (R295). A bad parameter or a half that is
off refuses it before any operation (R265). -/
def startScript (s : State) (n : Nat) (p : Script) (f : FmtB) : State :=
  let c := getCore s n
  let stack := scriptStack s p
  let gen := c.ticketGen + 1
  let par := sreg c f.sp.val
  let r : ScriptRun :=
    { core := n, ticket := f.ticket.val, gen := gen, card := p, rowAdd := parRowAdd par, dout := f.dout.val,
      doutDesc := sget 0 c.descs f.dout.val, opIdx := 0, active := false, banks := [], cursor := 0, results := [],
      abort := false, faulted := false }
  let s := setCore s n { c with ticketGen := gen, tickets := sput Ticket.free c.tickets f.ticket.val (.busy stack gen) }
  let s := modStack s stack fun k => { k with runs := k.runs ++ [r] }
  if !parClean par then faultRun s stack r evTnsScriptParam 0xFF 0xFF 0xFFFFFFFF
  else if !halfUp s stack then faultRun s stack r evTnsScriptUnavailable 0xFF 0xFF 0xFFFFFFFF
  else s

/-- BISSUE: starts a script once every earlier write of the core is performed (R139, R140, R265, R266). -/
def execBissue (h : PlayHdr) (f : FmtB) (s : State) : Out :=
  issue s h fun s n =>
    match playScript s n f with
    | none => .moved s
    | some p =>
      doutEnd s n p f.dout.val fun s =>
        let c := getCore s n
        if sregBad c f.sp.val then bad s evIntPoisonAddress
        else if sget Ticket.free c.tickets f.ticket.val ≠ .free then bad s evTnsTicket
        else if c.unperformed ≠ 0 then .wait (coreWaits s n .performed)
        else .done (startScript s n p f)

/-! ### BAWAIT and BABORT -/

/-- Return a ticket's status and free it (R142). -/
def takeStatus (s : State) (n ticket sd : Nat) (status : Nat) : PlayEnd :=
  let s := modCore s n fun c => { c with tickets := sput Ticket.free c.tickets ticket .free }
  .done (setSreg s n sd (w64 status) 0)

/-- BAWAIT: waits for a ticket to end. -/
def execBawait (h : PlayHdr) (f : FmtB) (s : State) : Out :=
  issue s h fun s n =>
    match sget Ticket.free (getCore s n).tickets f.ticket.val with
    | .free => bad s evTnsTicket
    | .ended st => takeStatus s n f.ticket.val f.sd.val st
    | .busy _ _ => .wait (coreWaits s n (.ticket f.ticket.val))

/-- BABORT: aborts a ticket's script, unless it has completed, and waits for its one status (R293, R294). -/
def execBabort (h : PlayHdr) (f : FmtB) (s : State) : Out :=
  issue s h fun s n =>
    let t := f.ticket.val
    match sget Ticket.free (getCore s n).tickets t with
    | .free => bad s evTnsTicket
    | .ended st => takeStatus s n t f.sd.val (if st = 0 then 2 else st)
    | .busy stack gen =>
      let s := coreWaits s n (.ticket t)
      match runAt (getStack s stack) (n, t, gen) with
      | none => .wait s
      | some r => if r.abort then .wait s else .wait (stopRun s stack r 1)

end Sys2Proof.Machine
end

