-- ==== Sys2Proof/Machine/Scripts.lean ====
section
/-! DEFINITION. What reaches a stack's bank units and what leaves them: rows that cross the exchange bus, results on their way to d[DOUT],
chunks that reach their latches (R255 to R258, R266, R281, R292, R295, R404). -/

namespace Sys2Proof.Machine

/-! ### A row crosses the exchange bus -/

/-- A row reaches one destination bank, which may store it. -/
def landRow (s : State) (stack : Nat) (x : BusXfer) (d : Nat × Nat) : State :=
  let key : RunKey := (x.core, x.ticket, x.gen)
  let s := modBank s stack key d.1 fun b => { b with rows := b.rows ++ [(d.2, x.data, x.poison)] }
  match runAt (getStack s stack) key with
  | some r =>
    match bankOf r d.1 with
    | some b => beginRow s stack r b
    | none => s
  | none => s

/-- EXCHANGE_BUS_TRANSFER_DONE: the row under way arrives, or is dropped and counted under an older generation; the bus
takes the next waiting row. An idle bus takes one that has become ready. -/
def execExchangeBusTransferDone (stack : Fin 8) (s : State) : Out :=
  let n := stack.val
  let k := getStack s n
  match k.busNow with
  | none => .next (grantBus s n)
  | some x =>
    let live := xferLive k x
    let s := setStack s n { k with busNow := none, lateDrops := if live then k.lateDrops else satAdd 0xFFFF k.lateDrops x.dests.length }
    .next (grantBus (if live then x.dests.foldl (fun s d => landRow s n x d) s else s) n)

/-! ### Results reach d[DOUT] -/

/-- One result of a run reaches its element of d[DOUT]; the last one completes the script (R266, R292). -/
def landResult (s : State) (n : Nat) (r : ScriptRun) : State :=
  match r.results with
  | [] => s
  | x :: rest =>
    let d := parseDesc r.doutDesc
    let at_ := [x.2.1, x.1, 0, 0, 0, 0]
    let s := modStack s n fun k => modRun k (runKey r) fun r => { r with results := rest }
    let s := if inBound d at_ then commitWords s r.core (putElem d [] at_ x.2.2.1.toNat x.2.2.2) else s
    completeRun s n (runKey r)

/-- Whether a result of a ticket waits at its regulator. -/
def resultWaits (s : State) (n core ticket : Nat) : Bool := s.regWait.any fun w => w.2.2 = .result n core ticket

/-- BANK_RESULT_DELIVERY: one result reaches its element of d[DOUT], or is dropped and counted when it belongs to an older
generation (R295). Results charge the stack interface, and wait in their place for their regulator (Table 7.10, R242). -/
def execBankResultDelivery (stack : Fin 8) (core : CoreId) (ticket : Fin 4) (s : State) : Out :=
  let n := stack.val
  let k := getStack s n
  match takeFirst (fun e : Nat × Nat × Nat => e.1 = core.idx && e.2.1 = ticket.val) k.lateResults with
  | some (e, rest) =>
    .next (setStack s n { k with lateResults := if 1 < e.2.2 then (e.1, e.2.1, e.2.2 - 1) :: rest else rest,
                                 lateDrops := satInc 0xFFFF k.lateDrops })
  | none =>
    match runOf k core.idx ticket.val with
    | none => .next s
    | some r =>
      if r.results.isEmpty || r.abort || resultWaits s n core.idx ticket.val then .next s
      else if canCharge s r.card.table n 4 then .next (landResult (charge s r.card.table n 4) n r)
      else .next (waitCharge s r.card.table n 4 (.result n core.idx ticket.val))

/-! ### LATCH_WRITE (R255, R256, R258) -/

/-- A number of a core's writes is performed (R334, R336). -/
def performWrites (s : State) (core k : Nat) : State :=
  if 4096 ≤ core then s
  else
    let c := getCore s core
    let u := c.unperformed - k
    setCore s core { c with unperformed := u, wait := if u = 0 && c.wait = .performed then .none else c.wait }

/-- Whether a bank is idle (R404): no operation in progress or waiting, no access waiting, no refresh, no early open. -/
def bankIdle (s : State) (stack bank : Nat) : Bool :=
  let k := getStack s stack
  !(bankRunning k bank || k.permitWait.any (fun w => w.2 = bank) || k.refreshing.contains bank ||
    k.refreshDue.contains bank || k.scrub.active.contains bank || k.earlyOpens.any (·.bank = bank) || k.resetting ||
    k.queue.any fun a => (linePlace s a.line).bank = bank)

/-- The first two rows that a script's first stream operation on a latch reads in a bank (R258). -/
def earlyRows (p : Script) (bank latch rowAdd : Nat) : Option (List Nat) :=
  (p.ops.find? fun o => opStream o && (opLatches o).contains latch && (banksOf o).contains bank).map fun o =>
    ((bankSteps o rowAdd bank).map RowStep.row).take 2

/-- An idle bank opens the rows of its stream early, where a permit is free (R258). -/
def earlyOpen (s : State) (f : LatchFlight) : State :=
  let k := getStack s f.stack
  match earlyRows f.card f.bank f.latch (parRowAdd f.param) with
  | none => s
  | some rows =>
    if bankIdle s f.stack f.bank && k.permits < 384 then
      let s := rows.foldl (fun s r => openRow s f.stack f.bank r) s
      modStack s f.stack fun k =>
        { k with permits := k.permits + 1,
                 earlyOpens := k.earlyOpens ++ [{ bank := f.bank, script := f.card.script, latch := f.latch, rows := rows }] }
    else s

/-- Whether an operation that runs on a bank reads a latch of it (R256). -/
def latchBusy (s : State) (stack bank latch : Nat) : Bool :=
  (getStack s stack).runs.any fun r =>
    (r.banks.any fun b => b.bank = bank && b.started && !b.ended) && (opOf r).any fun o => (latchNeeds o).any (·.1 = latch)

/-- LATCH_WRITE: the oldest chunk on its way to a bank unit enters its latch, unless an operation reads the latch; a chunk
that meets a half that is off is dropped, with every chunk of its BLATCH. -/
def execLatchWrite (stack : Fin 8) (bank : Fin 768) (s : State) : Out :=
  match takeFirst (fun f : LatchFlight => f.stack = stack.val && f.bank = bank.val) s.latchFlight with
  | none => .next s
  | some (f, rest) =>
    if !halfUp s f.stack then
      let same (g : LatchFlight) : Bool := g.id = f.id
      let gone := (s.latchFlight.filter same).length
      let s := { s with latchFlight := s.latchFlight.filter fun g => !same g }
      .next (performWrites (dropLatch s f.stack f.card evTnsScriptUnavailable (f.core % 4096)) f.core gone)
    else if latchBusy s f.stack f.bank f.latch then .next s
    else
      let s := modStack { s with latchFlight := rest } f.stack fun k =>
        { k with latches := sput Latch.empty k.latches (4 * f.bank + f.latch) f.content }
      .next (earlyOpen (performWrites s f.core 1) f)

end Sys2Proof.Machine
end

