-- ==== Sys2Proof/Machine/OnDie.lean ====
section
/-! DEFINITION. Events on the compute die: accesses ordered at a kitty, messages of tricks, pushes and credits on their way,
path parity (R182, R304 to R306, R318 to R321, R329 to R335, R381 to R386). -/

namespace Sys2Proof.Machine

/-! ### Kitties -/

/-- Whether an agent's accesses pass back-invalidation: a core's reads and writes, the firmware's and the fabric's writes
(R335, Table 15.5). -/
def invalidates (who : Agent) (write : Bool) : Bool :=
  match who with
  | .core _ => true
  | .firmware => write
  | .fabric => write
  | .cxl => false

/-- Read a line for a charged reader that misses its kitty, or wait for the regulator (R219, R242, R243). -/
def fetchCharged (s : State) (who : Consumer) (line : Nat) : State × Option (Line × BitVec 16) :=
  if (kittyGet s line).isSome || !chargedReader who then fetchOutside s who line 0
  else if lineCharges s line then fetchOutside (chargeLine s line) who line 0
  else (waitCross s line 64 (.lineRead who (64 * line) 0), none)

/-- Bring a line to its kitty for a core's access; none while a regulator, the bank or a repair holds the read. -/
def fillLine (s : State) (who : Consumer) (line : Nat) : State × Bool :=
  if (kittyGet s line).isSome then (s, true)
  else
    let r := fetchCharged s who line
    match r.2 with
    | none => (r.1, false)
    | some v => (kittySet (linesRoom r.1 [line]) line (some { data := v.1, poison := v.2, dirty := false }), true)

/-- The byte mask of a write of some bytes at an address, within its line. -/
def accessMask (addr n : Nat) : BitVec 64 := BitVec.ofNat 64 ((2 ^ min n (64 - addr % 64) - 1) * 2 ^ (addr % 64))

/-- A write of some bytes at an address as a write of its line. -/
def accessEntry (addr : Nat) (bs : List Byte) (poison : Bool) : WcbEntry :=
  { line := addr / 64, data := patchLine 0 (addr % 64) bs, mask := accessMask addr bs.length, poison := poisonAll poison, sender := .none }

/-- Who waits for the back-invalidation that an access causes. -/
def agentWaiter (who : Agent) (addr : Nat) (write : Option (List Byte)) (poison : Bool) : BiWaiter :=
  match who, write with
  | .core n, _ => .core n
  | _, some bs => .write (accessEntry addr bs poison)
  | _, none => .firmware

/-- A core's access at its home kitty: a read fills the line, a write updates it (R329, R335). -/
def coreAccess (s : State) (n addr : Nat) (write : Option (List Byte)) (poison : Bool) : State :=
  let line := addr / 64
  if !kittyOn s line then s
  else
    match write with
    | none => (fillLine s (.core n) line).1
    | some bs =>
      let mask := accessMask addr bs.length
      let r := if mask = fullMask then (linesRoom s [line], true) else fillLine s (.core n) line
      if r.2 then
        let c := (kittyGet r.1 line).getD { data := 0, poison := 0, dirty := false }
        kittySet r.1 line (some (overlay c (patchLine 0 (addr % 64) bs) mask (poisonAll poison) true))
      else r.1

/-- The access of another agent: a write updates the kitty's copy or enters the buffer, a read takes the copy or the stack's
line (R330). What the CXL port reads and writes charges no regulator (R243). -/
def otherAccess (s : State) (who : Agent) (addr : Nat) (write : Option (List Byte)) (poison : Bool) : State :=
  match who, write with
  | .cxl, none => (fetchOutside s .firmware (addr / 64) 0).1
  | _, none => (fetchCharged s .firmware (addr / 64)).1
  | .cxl, some bs => outsideWrite s (accessEntry addr bs poison)
  | _, some bs => chargedWrite s (accessEntry addr bs poison)

/-- KITTY_ACCESS: an access arrives at its home kitty and is ordered there. One that must wait for the host's copy of its
line has its effect when it is presented again after the answer (R335). -/
def execKittyAccess (who : Agent) (addr : Nat) (write : Option (List Byte)) (poison parity : Bool) (s : State) : Out :=
  let line := addr / 64
  if !populated addr then .fault .noSuchLine
  else
    let t := lineOwner s line
    let s := if parity && write.isNone then
        kittyParity s addr t (.core (homeCluster line) 0 0 (t.getD 0) 0 0 0xFFFFFFFF (w64 addr))
      else s
    if (hostHolds s (lineDpa line)).isSome && invalidates who write.isSome then
      .next (backInvalidate s (lineDpa line) (agentWaiter who addr write poison))
    else
      match who with
      | .core n => .next (coreAccess s n addr write poison)
      | _ => .next (otherAccess s who addr write poison)

/-- KITTY_ATOMIC: one indivisible read, operate and write on an aligned word (R182 to R185). -/
def execKittyAtomic (addr : Nat) (op : Fin 7) (operand compare : W64) (poison : Bool) (s : State) : Out :=
  let line := addr / 64
  let size := atomBytes op.val
  if !populated addr then .fault .noSuchLine
  else if addr % size ≠ 0 || !kittyOn s line then .next s
  else if (hostHolds s (lineDpa line)).isSome then .next (backInvalidate s (lineDpa line) .firmware)
  else
    let r := fillLine s .firmware line
    if r.2 then
      .next (kittyAtom r.1 addr op.val (operand.toNat % 2 ^ (8 * size)) (compare.toNat % 2 ^ (8 * size)) poison).1
    else .next r.1

/-! ### Tricks -/

/-- LOCAL_TRICK_ARRIVE: a member cluster's arrive reaches the home cluster. -/
def execLocalTrickArrive (cluster : Fin 64) (trick : Nat) (s : State) : Out :=
  match takeFirst (fun e : Nat × Nat × Nat => e.1 = cluster.val && e.2.1 = trick) s.arrives with
  | none => .next s
  | some (e, rest) => .next (addArrived { s with arrives := rest } trick e.2.2)

/-- LOCAL_TRICK_RELEASE: a release reaches a member cluster. -/
def execLocalTrickRelease (cluster : Fin 64) (trick : Nat) (s : State) : Out :=
  match takeFirst (fun e : Nat × Nat × W32 => e.1 = cluster.val && e.2.1 = trick) s.releases with
  | none => .next s
  | some (e, rest) => .next (clusterReleased { s with releases := rest } trick cluster.val e.2.2)

/-! ### Pushes and credits -/

/-- A scratch byte that an outside agent writes into a core: its word takes the poison of the bytes that land. -/
def landBytes (s : State) (n : Nat) (bs : List (Nat × Byte × Bool)) : State :=
  commitWords s n (bs.foldl (fun m e => putBits m ((localBit + e.1 : Nat) : Int) 0 8 e.2.1.toNat e.2.2) [])

/-- Units land at a consumer: DELIVERED and its tally grow and a waiting CTAKE looks again (R318, R324). -/
def landUnits (s : State) (stream units : Nat) : State :=
  wakeCores (modStream s stream fun k =>
    { k with delivered := k.delivered + units, ctally := k.ctally + BitVec.ofNat 32 units }) (.credits stream)

/-- ON_DIE_PUSH_LANDING: the oldest push of a stream lands. One of an older job generation is dropped and counted by the
consumer's tally alone (R323, Table 9.4). -/
def execOnDiePushLanding (stream : Nat) (s : State) : Out :=
  match takeFirst (fun p : PushFlight => p.stream = stream) s.pushes, streamEntry s stream with
  | some (p, rest), some e =>
    let s := { s with pushes := rest }
    let s :=
      if p.gen ≠ s.gen then modStream s stream fun k => { k with ctally := k.ctally + BitVec.ofNat 32 p.units }
      else performWrites (landUnits (landBytes s (coreOfField e.consumer) p.bytes) stream p.units) p.producer 1
    .next (marksMove s stream e.table)
  | _, _ => .next s

/-- Credits reach the producer end; a count above OUTSTANDING stops the stream, logged against no core (R320, R321). -/
def returnCredits (s : State) (e : StreamEntry) (count : Nat) : State :=
  let k := getStream s e.stream
  let u := uCluster (coreOfField e.producer / 64)
  if k.stopped then s
  else if e.initial - k.avail - k.taken < count then
    let s := logGen s evSynCreditOverflow u (some e.table) [w32 e.stream] []
    requestAbort (stopStream s e (evSynCreditOverflow.word u)) (evSynCreditOverflow.word u)
  else wakeCores (setStream s e.stream { k with avail := k.avail + count }) (.credits e.stream)

/-- ON_DIE_CREDIT_RETURN: the oldest credits on their way on a stream reach its producer end. -/
def execOnDieCreditReturn (stream : Nat) (s : State) : Out :=
  match takeFirst (fun e : Nat × Nat => e.1 = stream) s.creditFlight, streamEntry s stream with
  | some (c, rest), some e => .next (returnCredits { s with creditFlight := rest } e c.2)
  | _, _ => .next s

/-! ### Paths (R381 to R385) -/

/-- Spare word lanes of a path (Table 12.1). -/
def pathSpares : PathId → Nat
  | .mesh _ => 2
  | .coreInside _ => 0
  | _ => 1

/-- The stack whose spine lies under a cluster (Table 1.3). -/
def spineStack (cluster : Nat) : Nat := ((List.range 8).find? fun n => (nearClusters n).contains cluster).getD 0

/-- The unit that raises a path's events: its receiving end (Table 20.3). Mesh links and spine taps are numbered so that
the receiving cluster, or the tapped one, is the number modulo 64. -/
def pathUnit : PathId → Nat
  | .mesh n => uCluster (n % 64)
  | .spine n => uStack (spineStack (n % 64))
  | .stackIf n _ => uStack (n % 8)
  | .exchange n => uNear (n % 8)
  | .coreInside n => uCluster (n / 64)

/-- The reset domain that holds a path (Table 17.4). -/
def pathDomain : PathId → ResetDomain
  | .mesh n => .quadrant (quadrantOf (n % 64))
  | .spine n => .quadrant (quadrantOf (n % 64))
  | .stackIf n _ => .stack (n % 8)
  | .exchange n => .nearBank (n % 8 / 4)
  | .coreInside n => .quadrant (quadrantOf (n / 64))

/-- The record of a path. -/
def getPath (s : State) (p : PathId) : Path := ((s.paths.find? fun e => e.1 = p).map (·.2)).getD Path.clean
/-- Change the record of a path. -/
def setPath (s : State) (p : PathId) (v : Path) : State :=
  if s.paths.any fun e => e.1 = p then { s with paths := updFirst (fun e : PathId × Path => e.1 = p) (fun e => (e.1, v)) s.paths }
  else { s with paths := s.paths ++ [(p, v)] }

/-- Steer a path's lane onto a free spare, or none where it has no spare left (R383). -/
def steerLane (s : State) (id : PathId) (v : Path) (lane : Nat) : Option State :=
  let left := v.spares.getD (pathSpares id)
  if left = 0 then none
  else
    let s := setPath s id { v with failures := 0, steered := v.steered ++ [lane], spares := some (left - 1) }
    some (logGen { s with lanesSpared := satInc 0xFF s.lanesSpared } evIntPathLaneSpared (pathUnit id) none [w32 lane] [])

/-- Mark the physical core that carries a logical one as bad. -/
def markBad (s : State) (n : Nat) : State :=
  let c := 68 * (n / 64) + physicalOf s n
  if s.badCores.contains c then s else { s with badCores := s.badCores ++ [c] }

/-- A transfer fails for the fourth time: its lane is steered onto a spare and it is sent again, or the path fails (R383, R384). A core
whose inner path fails again is marked bad (DESIGN CHOICE, log 159: the second fourth failure is a repeated one). -/
def fourthFailure (s : State) (id : PathId) (v : Path) (lane : Nat) : State :=
  let failed (s : State) := { s with pathsFailed := satInc 0xFF s.pathsFailed }
  match id with
  | .coreInside n =>
    let s := failed (setPath s id { v with failures := 0, retained := [], strikes := v.strikes + 1 })
    coreFault (if v.strikes = 0 then s else markBad s n) n evIntPathFailed 0 0
  | _ =>
    match steerLane s id v lane with
    | some s => s
    | none =>
      let s := setPath s id { v with failures := 0, retained := [], failed := true }
      let s := logGen (failed s) evIntPathFailed (pathUnit id) none [w32 lane] []
      abortAndRecover s (pathDomain id) (evIntPathFailed.word (pathUnit id))

/-- Even parity of a received word and the bit on its own wire (R381). -/
def evenParity (w : W32 × Bool) : Bool := (List.range 32).foldl (fun p i => p != w.1.getLsbD i) w.2 = false

/-- The receiver tests a transfer that it expects next: a good one is accepted and acknowledged, and leaves the sender's retain buffer;
a failing one stays there to be replayed (R381, R382). -/
def testTransfer (s : State) (id : PathId) (v : Path) (received : List (W32 × Bool)) (lane : Nat) : State :=
  if received.all evenParity then
    setPath s id { v with failures := 0, retained := v.retained.drop 1, last := received.map (·.1) }
  else if v.failures < 3 then
    setPath { s with pathReplays := satInc 0xFFFF s.pathReplays } id { v with failures := v.failures + 1 }
  else fourthFailure s id v lane

/-- PATH_TRANSFER_RECEIVE: the words of a transfer arrive with their parity bits. After a failure every later transfer is discarded
until the failed one comes again; the sender, which holds at most 16, resends what it retains in order (R381 to R384). -/
def execPathTransferReceive (path : PathId) (replay : Bool) (sent : List W32) (received : List (W32 × Bool)) (lane : Nat)
    (s : State) : Out :=
  let v := getPath s path
  if v.failed then .next s
  else
    match v.retained, replay with
    | [], true => .next s
    | [], false => .next (testTransfer s path { v with retained := [sent] } received lane)
    | _ :: _, true => .next (testTransfer s path v received lane)
    | r, false => .next (if r.length < 16 then setPath s path { v with retained := r ++ [sent] } else s)

end Sys2Proof.Machine
end

