-- ==== Sys2Proof/Machine/Ports.lean ====
section
/-! DEFINITION. Events of Weazen ports: training steps, link loss, violations, quarantine, NACKs (R348 to R353, R357, R368,
R374 to R377, R650). -/

namespace Sys2Proof.Machine

/-! ### Ports that leave ACTIVE (R357, R366, R374, R650) -/

/-- A port that trains again from step 1 of Table 11.2. -/
def retrainPort (s : State) (p : Nat) : State :=
  if mayTrain s p then moveRoutes s p fun q => { portOff q with state := .training, step := 1 }
  else moveRoutes s p portOff

/-- An ACTIVE port declares its link down (R650). -/
def linkDown (s : State) (p : Nat) : State :=
  if (getPort s p).state = .active then
    portLeavesActive (retrainPort (logBare s evFabLinkDown (uPort p)) p) p evFabLinkDown
  else s

/-- The frames of virtual lane 1 that a retain buffer holds, with their class, in order. -/
def retainedLane1 (q : Port) : List (Nat × Frame) := q.retain.flatMap fun r => r.frames.filter fun f => laneOf f.2.body = 1

/-- A port retires: its retained frames of lane 1 leave on the alternates in the class they had, the other retained flits are discarded
(R357). One that was ACTIVE raises the abort (R374). -/
def retirePort (s : State) (p : Nat) (seq : BitVec 10) : State :=
  let fs := retainedLane1 (getPort s p)
  let active := (getPort s p).state = .active
  let s := logGen s evFabPortRetired (uPort p) none [w32 seq.toNat] []
  let s := modPort s p fun q => { q with state := .retired, retain := [], credits := [], rxPart := [] }
  let s := fs.foldl (fun s f => routeFrom s none f.1 f.2) s
  let s := moveRoutes s p id
  if active then portLeavesActive s p evFabPortRetired else s

/-! ### Violations (R375, R376) -/

/-- Answer a frame with a NACK to its SRC that carries the reason and the frame's header, at most 1,000 per port and local second; a NACK
is never answered. -/
def sendNack (s : State) (p reason : Nat) (src : Nat) (isNack : Bool) (head : List Byte) : State :=
  if isNack then s
  else
    let n := (getPort s p).nacks
    let s := modPort s p fun q => { q with nacks := n + 1 }
    if n < 1000 then sendFrame s src 64 (.nack reason head) else s

/-- The violations of a port in the running second. -/
def secondTotal (q : Port) : Nat := (q.secViol.map (·.2)).sum

/-- Count a violation against a port; one that reaches the threshold quarantines it. -/
def countViolation (s : State) (p reason : Nat) : State :=
  let s := modPort s p fun q =>
    { q with violations := satInc 0xFFFF q.violations, secViol := sput 0 q.secViol reason (sget 0 q.secViol reason + 1) }
  let q := getPort s p
  if q.state = .active && max 1 s.quarThreshold.toNat ≤ secondTotal q then
    let s := logGen s evFabPortQuarantined (uPort p) none [w32 (secondTotal q)] []
    portLeavesActive (moveRoutes s p fun q => { q with state := .quarantined }) p evFabPortQuarantined
  else s

/-- A frame that breaks the protocol is dropped, answered and counted against its ingress port; a malformed NACK is dropped silently. -/
def badFrame (s : State) (p reason : Nat) (src : Nat) (isNack : Bool) (head : List Byte) : State :=
  if isNack then s else countViolation (sendNack s p reason src isNack head) p reason

/-- A frame whose header is in order breaks the protocol. One that no port brought counts nowhere. -/
def violation (s : State) (p : Option Nat) (reason : Nat) (f : Frame) : State :=
  match p with
  | some p => badFrame s p reason f.hdr.src (typeOf f.body = 0x3F) (headBytes f.hdr.cls f)
  | none => s

/-- FAB_VIOLATION_SECOND_TICK: a whole local second ends. Violations are logged by port and reason, the counts of the second
become LAST_SECOND, and the NACK allowance starts again (R375, R376). -/
def execFabViolationSecondTick (s : State) : Out :=
  .next ((List.range 12).foldl (fun s p =>
    let q := getPort s p
    let s := q.secViol.foldl (fun s e => logGen s evFabPeerViolation (uPort p) none [w32 e.1, w32 e.2] []) s
    modPort s p fun q => { q with lastSecond := min 0xFFFF (secondTotal q), secViol := [], nacks := 0 }) s)

/-! ### Quarantine ends (R377) -/

/-- A quarantined port is cleared: it returns to ACTIVE, where the checks of a deck switch that came meanwhile pass; its routes return to
it at the next generation change. -/
def clearPort (s : State) (p : Nat) : State :=
  if (getPort s p).state = .quarantined then
    let s := startDeadline (modPort s p fun q => { q with state := .active, awayGen := some s.gen }) (.flit p)
    applyChecks (logBare s evFabPortCleared (uPort p)) p true
  else s

/-- QUAR_CLEAR at its destination: from the dealer of the group, naming this module and a port. One with poison is dropped (Table 12.7). -/
def takeQuarClear (s : State) (hdr : FrameHdr) (port target : Nat) : State :=
  match deckOf s with
  | none => s
  | some d => if !hdr.poison && target = ownIndex s && hdr.src = dealerIndex s d && port < 12 then clearPort s port else s

/-- QUAR_CLEAR: a quarantined port named by the dealer returns to ACTIVE. -/
def execQuarClear (hdr : FrameHdr) (port target : Nat) (s : State) : Out := .next (takeQuarClear s hdr port target)

/-- NACK: a dropped frame's NACK arrives at its source. No rule gives the source an action, and no NACK is answered
(R375). -/
def execNack (_hdr : FrameHdr) (_reason : Nat) (_header : List Byte) (s : State) : Out := .next s

/-! ### Training (R348 to R353) -/

/-- Apply the checks to a port and let a member that still forms its group ask again through it. -/
def checkPort (s : State) (p : Nat) (recheck : Bool) : State :=
  let s := applyChecks s p recheck
  if (getPort s p).state = .active then joinAgain s else s

/-- A TRAIN body arrives: it ends step 5 of training, or is checked again on a trained port. -/
def takeTrain (s : State) (p : Nat) (b : TrainBody) : State :=
  let q := getPort s p
  if trained q then checkPort (setPort s p { q with peer := some b }) p true
  else if q.state = .training && q.step = 5 then checkPort (setPort s p { q with peer := some b }) p false
  else if q.state = .training && q.step = 4 then setPort s p { q with peer := some b }
  else s

/-- TRAIN: a TRAIN frame is received on a port. -/
def execTrain (port : Fin 12) (body : TrainBody) (s : State) : Out := .next (takeTrain s port.val body)

/-- CABLE_PRESENT: a cable is there; a port that may train begins at step 1. -/
def execCablePresent (port : Fin 12) (s : State) : Out :=
  let s := modPort s port.val fun q => { q with cable := true }
  .next (if (getPort s port.val).state = .off then startTraining s port.val else s)

/-- A training step begins; its bound counts from now (R348). -/
def enterStep (s : State) (p n : Nat) : State := startDeadline (modPort s p fun q => { q with step := n }) (.trainStep p)

/-- TRAIN_PATTERN_DETECTED: step 1 ends once the peer's pattern is on the lanes. -/
def execTrainPatternDetected (port : Fin 12) (s : State) : Out :=
  let q := getPort s port.val
  .next (if q.state = .training && q.step = 1 then enterStep s port.val 2 else s)

/-- TRAIN_STEP_DONE: a step of Table 11.2 ends. Step 4 is followed by the exchange of TRAIN frames, which ends once the peer's
body is there. -/
def execTrainStepDone (port : Fin 12) (s : State) : Out :=
  let p := port.val
  let q := getPort s p
  if q.state ≠ .training then .next s
  else if q.step = 2 || q.step = 3 then .next (enterStep s p (q.step + 1))
  else if q.step = 4 then .next (sendTrain (enterStep s p 5) p)
  else if q.step = 5 && q.peer.isSome then .next (checkPort s p false)
  else .next s

/-- TRAIN_STEP_TIMEOUT: a step has exceeded its bound. Training restarts at step 1; the third failed attempt leaves the port
FAILED. Step 1 has no bound. -/
def execTrainStepTimeout (port : Fin 12) (s : State) : Out :=
  let p := port.val
  let q := getPort s p
  if q.state ≠ .training || q.step < 2 then .next s
  else
    let s := expire s (.trainStep p) (stepBound q.step)
    if q.attempts < 2 then
      .next (moveRoutes s p fun q => { portOff q with state := .training, step := 1, attempts := q.attempts + 1 })
    else
      let s := logGen s evFabTrainFail (uPort p) none [w32 q.step] []
      .next (moveRoutes s p fun q => { portOff q with state := .failed, attempts := 3 })

/-- LANE_SIGNAL_LOSS: every lane of an ACTIVE port reports loss of signal (R650). -/
def execLaneSignalLoss (port : Fin 12) (s : State) : Out := .next (linkDown s port.val)

/-- FLIT_TIMEOUT: an ACTIVE port has received no good flit for 1,000 counts (R650). -/
def execFlitTimeout (port : Fin 12) (s : State) : Out :=
  .next (linkDown (if (getPort s port.val).state = .active then expire s (.flit port.val) 1000 else s) port.val)

end Sys2Proof.Machine
end

