-- ==== Sys2Proof/Machine/SourceRepair.lean ====
section
/-! DEFINITION. Source repair: the source directory, fetches, the rewrite of a line, the unrepaired list (R393 to R398). -/

namespace Sys2Proof.Machine

/-! ### The directory (R393) -/

/-- A region of the running deck by number. -/
def regionNo (s : State) (n : Nat) : Option Region := (deckOf s).bind fun d => d.regions.find? fun r => r.region = n

/-- Set a directory entry. -/
def setDir (s : State) (region : Nat) (e : DirState) : State := { s with directory := sput none s.directory region (some e) }

/-- A peer's answer for a pending region; a peer that runs no deck leaves it pending. -/
def directoryReply (s : State) (region : Nat) (answer : Option DirAnswer) : State :=
  match sget none s.directory region, regionNo s region, answer with
  | some .pending, some r, some a =>
    if a.size = r.size && a.cls = .source && a.owner = r.owner then setDir s region (.valid a.base)
    else logGen (setDir s region .invalid) evIntSourceMismatch uCtl none [w32 region, w32 r.srcModule] []
  | _, _, _ => s

/-- SOURCE_DIRECTORY_REPLY: a pending entry takes a peer's answer. -/
def execSourceDirectoryReply (region : Nat) (answer : Option DirAnswer) (s : State) : Out := .next (directoryReply s region answer)

/-- This module answers a peer that asks about one of its regions: none while it runs no deck. -/
def answerDirectory (s : State) (src region : Nat) : State :=
  sendFrame s src 64 (.directoryAnswer region
    ((deckOf s).map fun _ =>
      match regionNo s region with
      | some r => { base := r.base, size := r.size, cls := r.cls, owner := r.owner }
      | none => { base := 0, size := 0, cls := .none, owner := 255 }))

/-- A peer's answer reaches every region that names its region as source. -/
def takeDirectory (s : State) (src region : Nat) (answer : Option DirAnswer) : State :=
  (s.directory.map (·.1)).foldl (fun s n =>
    if (regionNo s n).any fun r => r.srcModule = src && r.srcRegion = region then directoryReply s n answer else s) s

/-- SOURCE_DIRECTORY_RETRY: once per local second every pending entry is asked for again. -/
def execSourceDirectoryRetry (s : State) : Out :=
  .next ((s.directory.filter fun e => e.2 = some .pending).foldl (fun s e =>
    match regionNo s e.1 with
    | some r => askSource s r
    | none => s) s)

/-! ### Fetches (R394, R397) -/

/-- Where a line's source lies: the address at a peer whose base is known and whose route has a usable port, or the host address in an
enabled window of the slow tier. -/
def sourceAt (s : State) (r : Region) (base : Option Nat) (line : Nat) : Option Nat :=
  let off := lineAddr line - r.base
  if r.srcKind = 1 then
    if (routePort s r.srcModule (.memRead 0 0 64)).isSome then base.map (· + off) else none
  else if r.srcKind = 2 then
    match slowWindow s r.srcModule with
    | some (b, size) => if off + 64 ≤ size && s.host.busMaster then some (b + off) else none
    | none => none
  else none

/-- Where a line's source lies by the directory as it stands. -/
def sourceAddr (s : State) (r : Region) (line : Nat) : Option Nat := sourceAt s r (sourceBase s r) line

/-- Where the source of a line under repair lies, by the attributes that the repair started with (R396); an entry that was pending then may
have become valid since. -/
def repairSource (s : State) (e : Repair) : Option Nat :=
  e.region.bind fun r => sourceAt s r (e.base.orElse fun _ => sourceBase s r) e.line

/-- Ask a peer for 64 bytes with a new tag. -/
def askPeer (s : State) (r : Region) (addr : Nat) : State × Nat :=
  let tag := s.fabTag
  (sendFrame { s with fabTag := tag + 1, fabTags := s.fabTags ++ [(r.srcModule, tag)] } r.srcModule r.owner
    (.memRead tag addr 64), tag)

/-- Change a stack's repair entry of a line. -/
def modRepair (s : State) (line : Nat) (f : Repair → Repair) : State :=
  modStack s (lineStack line) fun k => { k with repairs := updFirst (·.line = line) f k.repairs }

/-- The repair entry of a line. -/
def repairOf (s : State) (line : Nat) : Option Repair := (getStack s (lineStack line)).repairs.find? (·.line = line)

/-- Fetch a line from its source for a repair entry. -/
def fetchFor (s : State) (r : Region) (line addr : Nat) : State :=
  let s := startDeadline s (.source line)
  if r.srcKind = 1 then
    let q := askPeer s r addr
    modRepair q.1 line fun e => { e with fetching := true, tag := q.2, gen := s.gen, addr := addr }
  else
    let s := modRepair s line fun e => { e with fetching := true, gen := s.gen, addr := addr }
    uioIssue s r.owner (.refetch (lineStack line) line) 0 (.uioRead (w64 addr) 64)

/-! ### The end of a repair (R394 to R397) -/

/-- The table that a consumer's poison reaches. -/
def consumerTable (s : State) : Consumer → Option Nat
  | .core n => tableOfCore s n
  | .bank c _ _ => tableOfCore s c
  | _ => none

/-- Serve what a line's repair held, then apply the writes that waited, in order; a queued repair takes the entry. A merge
over a line that stays poisoned is logged (R225, R396). -/
def releaseLine (s : State) (line : Nat) (poisoned : Bool) : State :=
  match repairOf s line with
  | none => s
  | some e =>
    let n := lineStack line
    let s := dropDeadline s (.source line)
    let s := modStack s n fun k =>
      let rest := k.repairs.filter (·.line ≠ line)
      { k with repairs := rest ++ k.repairQueue.take (16 - rest.length), repairQueue := k.repairQueue.drop (16 - rest.length) }
    let p := linePlace s line
    let s := e.consumers.foldl (fun s c =>
      match c with
      | .merge w =>
        if (getStack s n).writeHold then enterNow s w
        else
          let s := drainEntry s w 0
          if poisoned then logLine s evIntWcbMergePoison p.stack p.bank p.row (2 ^ p.line) 2 else s
      | .bank core ticket bank => resumeBank (releaseBank s line core ticket bank) n bank
      | c => serveRead s c line 0) s
    settleBi (e.writes.foldl enterAnswered s)

/-- Whether the end of a line's repair waits for the write window (R236). -/
def repairHeld (s : State) (line : Nat) : Bool :=
  (getStack s (lineStack line)).heldWrites.any fun w =>
    match w with
    | .repair l _ _ => l = line
    | .unreach l => l = line
    | _ => false

/-- The place of a line under repair. -/
def repairPlace (e : Repair) : Place := { stack := lineStack e.line, bank := e.bank, row := e.row, line := e.pos }

/-- The source is unreachable: once the write window allows it, the line is written back poisoned and joins the unrepaired list, and its
consumers receive poison (R236, R397). -/
def unreachable (s : State) (line : Nat) : State :=
  match repairOf s line with
  | none => s
  | some e =>
    let p := repairPlace e
    if repairHeld s line then s
    else if (getStack s p.stack).writeHold then holdWrite s p.stack (.unreach line)
    else
      let ts := ((regionTable e.region).toList ++ e.consumers.filterMap (consumerTable s)).eraseDups
      let s := poisonAt s p e.region line 4
      let d : Detail :=
        match regionDetail e.region p.stack p.bank p.row (2 ^ p.line) 4 with
        | .line a b c d' r l g _ det => .line a b c d' r l g (w64 ((ts.map (2 ^ ·)).sum)) det
        | x => x
      let s := logEvent s evIntSourceUnreachable (uStack p.stack) (regionTable e.region) d
      releaseLine { s with unrepaired := if s.unrepaired.contains line then s.unrepaired else s.unrepaired ++ [line] } line true

/-- Write fetched data to the line at a place and verify it with one more read; where that fails, switch the row onto a free spare row,
write it there and verify it there (R394, R395). True: the line holds the data. -/
def rewriteLine (s : State) (p : Place) (line : Nat) (data : Line) (fails : Nat) : State × Bool :=
  let s := unrefuse (writeLine s p data false) line
  let t := testPlace s p fails
  if t.2 then (t.1, true)
  else
    match softSpare t.1 p.stack p.bank p.row (2 ^ p.line) with
    | none => (t.1, false)
    | some s => testPlace (pendSpare (writeLine s p data false) p.stack p.bank p.row (2 ^ p.line) false) p 0

/-- Fetched data reach a line under repair, and its array once the write window allows it (R236). -/
def repairLine (s : State) (line : Nat) (data : Line) (fails : Nat) : State :=
  match repairOf s line with
  | none => s
  | some e =>
    let p := repairPlace e
    if repairHeld s line then s
    else if (getStack s p.stack).writeHold then holdWrite s p.stack (.repair line data fails)
    else
      let r := rewriteLine s p line data fails
      if r.2 then
        let s := logRegion r.1 e.region evIntLineRepaired p.stack p.bank p.row (2 ^ p.line) 4
        let s := mediaRecord s evIntLineRepaired false 6 (dpaOfAddr (lineAddr line))
        releaseLine (pendSpare (clearUnrepaired s line) p.stack p.bank p.row (2 ^ p.line) false) line false
      else unreachable r.1 line

/-- Fetched data reach a line of the unrepaired list; a line that was written whole in the meantime is no longer there. -/
def refetchLine (s : State) (line : Nat) (data : Line) (fails : Nat) : State :=
  if s.unrepaired.contains line && !underRepair s line then
    let p := linePlace s line
    if (getStack s p.stack).writeHold then holdWrite s p.stack (.refetch line data fails)
    else
      let r := rewriteLine s p line data fails
      if r.2 then clearUnrepaired r.1 line else r.1
  else s

/-- What a held write into the arrays does when the write window opens again (R236). -/
def runHeld (s : State) (n : Nat) : HeldWrite → State
  | .poison line det => writePoisoned s line det
  | .inject line => injectLine s line
  | .repair line data fails => repairLine s line data fails
  | .refetch line data fails => refetchLine s line data fails
  | .unreach line => unreachable s line
  | .spare bank row mask => (softSpare s n bank row mask).getD s

/-! ### Commands -/

/-- SOURCE_REPAIR_REPORT: the firmware fetches the line from its source, or finds the source unreachable. -/
def execSourceRepairReport (stack : Fin 8) (line : Nat) (s : State) : Out :=
  if lineStack line ≠ stack.val then .next s
  else
    match repairOf s line with
    | none => .next s
    | some e =>
      if e.fetching || repairHeld s line then .next s
      else
        match e.region, repairSource s e with
        | some r, some a => .next (fetchFor s r line a)
        | _, _ => .next (unreachable s line)

/-- SOURCE_FETCH_TIMEOUT: a fetch has had no reply for 100,000 counts. -/
def execSourceFetchTimeout (stack : Fin 8) (line : Nat) (s : State) : Out :=
  if lineStack line = stack.val && (repairOf s line).any (·.fetching) then .next (unreachable (expire s (.source line) 100000) line) else .next s

/-- Fetch one line of the unrepaired list again, where it still lies in a region of class source and its source can be reached. -/
def refetch (s : State) (line : Nat) : State :=
  match (regionOf s (lineAddr line)).filter fun r => r.cls = .source with
  | none => s
  | some r =>
    match sourceAddr s r line with
    | none => s
    | some a =>
      if r.srcKind = 1 then
        let q := askPeer s r a
        { q.1 with refetches := q.1.refetches.filter (·.1 ≠ line) ++ [(line, q.2, s.gen)] }
      else uioIssue s r.owner (.refetch (lineStack line) line) 0 (.uioRead (w64 a) 64)

/-- UNREPAIRED_REFETCH_TICK: once per local second every line of the unrepaired list is fetched again. -/
def execUnrepairedRefetchTick (s : State) : Out := .next (s.unrepaired.foldl refetch s)

end Sys2Proof.Machine
end

