-- ==== Sys2Proof/Machine/Frames.lean ====
section
/-! DEFINITION. Frames of lanes 2 and 3 at their destination: pushes, credits, stops, tally marks, memory frames, tricks (R307 to
R309, R320 to R326, R336, R361 to R365, R400, R447). `port` is the ingress port, where a frame came by one. -/

namespace Sys2Proof.Machine

/-- A frame with a body. -/
def frameOf (hdr : FrameHdr) (b : FrameBody) : Frame := { hdr := hdr, body := b }

/-- Reason TARGET (Table 11.12). -/
def reasonTarget : Nat := 7
/-- Reason GROUP. -/
def reasonGroup : Nat := 6

/-- A frame of an older or other generation is dropped and counted (R365). -/
def lateDrop (s : State) : State := { s with genLateDrops := satInc 0xFFFF s.genLateDrops }

/-- The stream of a frame as this end and its peer have it: its kind, the peer and the table agree. -/
def streamFor (s : State) (hdr : FrameHdr) (stream kind : Nat) : Option StreamEntry :=
  (streamEntry s stream).bind fun e => if e.kind = kind && e.remote = hdr.src && e.table = hdr.table then some e else none

/-- The stream of a frame that either end may receive. -/
def streamEither (s : State) (hdr : FrameHdr) (stream : Nat) : Option StreamEntry :=
  (streamEntry s stream).bind fun e => if e.kind ≠ 0 && e.remote = hdr.src && e.table = hdr.table then some e else none

/-- The unit that raises a message's code: its ingress port, else a cluster (Table 20.3). -/
def ingressUnit (port : Option Nat) (cluster : Nat) : Nat :=
  match port with
  | some p => uPort p
  | none => uCluster cluster

/-- The cluster of this module's end of a stream. -/
def endCluster (e : StreamEntry) : Nat := coreOfField (if e.kind = 2 then e.consumer else e.producer) / 64

/-! ### Streams -/

/-- A poisoned credit, acknowledgement or stop stops the stream (Table 12.6). -/
def poisonStop (s : State) (port : Option Nat) (e : StreamEntry) : State :=
  let u := ingressUnit port (endCluster e)
  let s := logGen s evSynMsgPoison u (some e.table) [w32 e.stream] []
  if (getStream s e.stream).stopped then s
  else requestAbort (stopStream s e (evSynMsgPoison.word u)) (evSynMsgPoison.word u)

/-- PUSH at its consumer (R323, R364). -/
def takePush (s : State) (port : Option Nat) (hdr : FrameHdr) (stream offset : Nat) (data : List Byte) (units : Nat)
    (mask : List Bool) : State :=
  let f := frameOf hdr (.push stream offset data units mask)
  if hdr.gen ≠ s.gen then
    let s := lateDrop s
    match streamFor s hdr stream 2 with
    | some _ => modStream s stream fun k => { k with ctally := k.ctally + BitVec.ofNat 32 units }
    | none => s
  else
    match streamFor s hdr stream 2 with
    | none => violation s port reasonTarget f
    | some e =>
      if scratchBytes < offset + data.length then violation s port reasonTarget f
      else
        let bs := (data.zip (List.range data.length)).map fun x =>
          (offset + x.2, x.1, hdr.poison && ((mask[x.2 / 4]?).getD false))
        let s := landBytes s (coreOfField e.consumer) bs
        if units = 0 then s else sendFrame (landUnits s stream units) hdr.src e.table (.pushAck stream units)

/-- PUSH: a push frame lands in the consumer's scratch. -/
def execPush (hdr : FrameHdr) (stream offset : Nat) (data : List Byte) (units : Nat) (mask : List Bool) (s : State) : Out :=
  .next (takePush s none hdr stream offset data units mask)

/-- PUSH_ACK at the producer: the push is performed (R318, R336). -/
def takePushAck (s : State) (port : Option Nat) (hdr : FrameHdr) (stream units : Nat) : State :=
  if hdr.gen ≠ s.gen then lateDrop s
  else
    match streamFor s hdr stream 1 with
    | none => violation s port reasonTarget (frameOf hdr (.pushAck stream units))
    | some e => if hdr.poison then poisonStop s port e else performWrites s (coreOfField e.producer) 1

/-- PUSH_ACK: the producer counts a fabric push as performed. -/
def execPushAck (hdr : FrameHdr) (stream units : Nat) (s : State) : Out := .next (takePushAck s none hdr stream units)

/-- CREDIT at the producer end (R320, R323). -/
def takeCredit (s : State) (port : Option Nat) (hdr : FrameHdr) (stream count : Nat) : State :=
  if hdr.gen ≠ s.gen then lateDrop s
  else
    match streamFor s hdr stream 1 with
    | none => violation s port reasonTarget (frameOf hdr (.credit stream count))
    | some e => if hdr.poison then poisonStop s port e else returnCredits s e count

/-- CREDIT: returned credits of a fabric stream reach the producer end. -/
def execCredit (hdr : FrameHdr) (stream count : Nat) (s : State) : Out := .next (takeCredit s none hdr stream count)

/-- STREAM_STOP: the other end has stopped; this module logs it once, as the fault of the CTAKE that waits where one does, and asks for the
abort (R322, R372). -/
def takeStreamStop (s : State) (port : Option Nat) (hdr : FrameHdr) (stream : Nat) (code : W32) : State :=
  if hdr.gen ≠ s.gen then lateDrop s
  else
    match streamEither s hdr stream with
    | none => violation s port reasonTarget (frameOf hdr (.streamStop stream code))
    | some e =>
      if hdr.poison then poisonStop s port e
      else if (getStream s stream).stopped then s
      else
        let u := uCluster (endCluster e)
        let waiting := creditWaiters s stream
        let s := stopWaiters (modStream s stream fun k => { k with stopped := true }) stream
        let s := if waiting.isEmpty then logGen s evSynCreditStopped u (some e.table) [w32 stream, code] [] else s
        requestAbort s (evSynCreditStopped.word u)

/-- STREAM_STOP: a stop message stops the local end of a fabric stream. -/
def execStreamStop (hdr : FrameHdr) (stream : Nat) (code : W32) (s : State) : Out :=
  .next (takeStreamStop s none hdr stream code)

/-- TALLY_MARK at the consumer; a poisoned mark is dropped and counts as missing (R326, Table 12.6). -/
def takeTallyMark (s : State) (port : Option Nat) (hdr : FrameHdr) (stream : Nat) (count epoch : W32) : State :=
  if hdr.gen ≠ s.gen then lateDrop s
  else
    match streamFor s hdr stream 2 with
    | none => violation s port reasonTarget (frameOf hdr (.tallyMark stream count epoch))
    | some e =>
      if hdr.poison then logGen s evSynMsgPoison (ingressUnit port (endCluster e)) (some e.table) [w32 stream] []
      else takeMark s stream e.table count epoch

/-- TALLY_MARK: a tally mark arrives. -/
def execTallyMark (hdr : FrameHdr) (stream : Nat) (count epoch : W32) (s : State) : Out :=
  .next (takeTallyMark s none hdr stream count epoch)

/-! ### Memory frames (R362, R363) -/

/-- Whether an address range and its length are what a memory frame may carry (Table 11.8). -/
def memShape (addr len : Nat) : Bool := addr % 64 = 0 && len % 64 = 0 && 64 ≤ len && len ≤ 512

/-- The region of the frame's table that holds a whole range, where it is of a recovery class. -/
def memRegion (s : State) (hdr : FrameHdr) (addr len : Nat) (c : RecClass) : Option Region :=
  (regionOf s addr).bind fun r =>
    if r.owner = hdr.table && r.cls = c && addr + len ≤ r.base + r.size && memShape addr len then some r else none

/-- A request that R362 does not serve is answered with STATUS 2 and counts as a violation. -/
def denyMem (s : State) (port : Option Nat) (hdr : FrameHdr) (b : FrameBody) : State :=
  let s := routeFrame s 0
    { hdr := { dest := hdr.src, src := ownIndex s, gen := hdr.gen, table := hdr.table, poison := false }, body := b }
  match port with
  | some p => countViolation s p reasonTarget
  | none => s

/-- MEM_READ: served from a source-class region of its table whatever its GEN. Each line that no kitty holds charges the owner of the
region (Table 7.10). -/
def takeMemRead (s : State) (port : Option Nat) (hdr : FrameHdr) (tag addr len : Nat) : State :=
  match memRegion s hdr addr len .source with
  | none => denyMem s port hdr (.memData tag 2 [] [])
  | some r =>
    let n := addrStack addr
    let bytes := 64 * ((rangeFrom (addr / 64) (len / 64)).filter fun l => (kittyGet s l).isNone).length
    if bytes = 0 || canCharge s r.owner n bytes then answerRead (charge s r.owner n bytes) hdr.src tag addr len hdr.gen 0
    else waitCharge s r.owner n bytes (.lineRead (.fabric hdr.src tag addr len hdr.gen) addr 0)

/-- MEM_READ: a fabric read request is served or denied. -/
def execMemRead (port : Fin 12) (hdr : FrameHdr) (tag address length : Nat) (s : State) : Out :=
  .next (takeMemRead s (some port.val) hdr tag address length)

/-- A poison mask of sixteen words. -/
def wordMask (ms : List Bool) : BitVec 16 :=
  BitVec.ofNat 16 ((ms.zip (List.range 16)).map fun e => if e.1 then 2 ^ e.2 else 0).sum

/-- The lines of a MEM_WRITE as full-line writes, with the poison of their words (R226, R361). -/
def memWrites (hdr : FrameHdr) (tag addr : Nat) (data : List Byte) (mask : List Bool) : List WcbEntry :=
  (List.range (data.length / 64)).map fun i =>
    { line := addr / 64 + i, data := lineOfBytes ((data.drop (64 * i)).take 64), mask := fullMask,
      poison := if hdr.poison then wordMask ((mask.drop (16 * i)).take 16) else 0, sender := .fabric hdr.src tag hdr.gen }

/-- MEM_WRITE: accepted into a device-owned recompute-class region of its table whatever its GEN. A line that the host holds
is first called back (R510). -/
def takeMemWrite (s : State) (port : Option Nat) (hdr : FrameHdr) (tag addr : Nat) (data : List Byte) (mask : List Bool) :
    State :=
  match (memRegion s hdr addr data.length .recompute).filter fun r => !r.hostShared with
  | none => denyMem s port hdr (.memAck tag 2)
  | some _ =>
    let es := memWrites hdr tag addr data mask
    let one (s : State) (e : WcbEntry) : State :=
      if (hostHolds s (lineDpa e.line)).isSome then backInvalidate s (lineDpa e.line) (.write e) else chargedWrite s e
    answerSender (es.foldl one s) (.fabric hdr.src tag hdr.gen)

/-- MEM_WRITE: a fabric full-line write is accepted or denied. -/
def execMemWrite (port : Fin 12) (hdr : FrameHdr) (tag address : Nat) (data : List Byte) (mask : List Bool) (s : State) : Out :=
  .next (takeMemWrite s (some port.val) hdr tag address data mask)

/-! ### Answers to this module's requests -/

/-- The line whose repair fetches with a tag from a peer. -/
def repairOfTag (s : State) (src tag : Nat) : Option Repair :=
  (s.stackMap.flatMap fun e => e.2.repairs).find? fun r =>
    r.fetching && r.tag = tag && r.region.any fun g => g.srcKind = 1 && g.srcModule = src

/-- Issue a source fetch again under the generation in force (R365, R398). -/
def fetchAgain (s : State) (src tag : Nat) : State :=
  match repairOfTag s src tag with
  | some r =>
    match r.region, repairSource s r with
    | some g, some a => fetchFor s g r.line a
    | _, _ => unreachable s r.line
  | none =>
    match s.refetches.find? fun e => e.2.1 = tag with
    | some e => refetch { s with refetches := s.refetches.filter fun x => x.1 ≠ e.1 } e.1
    | none => s

/-- A peer denies a source: its region is asked for again (R393). -/
def directoryStale (s : State) (line : Nat) : State :=
  match regionOf s (lineAddr line) with
  | some r => if r.cls = .source && r.srcKind = 1 then askSource (setDir s r.region .pending) r else s
  | none => s

/-- MEM_DATA at the requester: it ends a source fetch, or is dropped for its generation and asked for again. -/
def takeMemData (s : State) (hdr : FrameHdr) (tag status : Nat) (data : List Byte) (disturbed : Nat) : State :=
  match takeFirst (fun e : Nat × Nat => e = (hdr.src, tag)) s.fabTags with
  | none => s
  | some (_, rest) =>
    let s := { s with fabTags := rest }
    if hdr.gen ≠ s.gen then fetchAgain (lateDrop s) hdr.src tag
    else
      let good := status = 0 && !hdr.poison && data.length = 64
      match repairOfTag s hdr.src tag with
      | some r =>
        let s := if status = 2 then directoryStale s r.line else s
        if good then repairLine s r.line (lineOfBytes data) disturbed else unreachable s r.line
      | none =>
        match s.refetches.find? fun e => e.2.1 = tag with
        | none => s
        | some e =>
          let s := { s with refetches := s.refetches.filter fun x => x.1 ≠ e.1 }
          let s := if status = 2 then directoryStale s e.1 else s
          if good then refetchLine s e.1 (lineOfBytes data) disturbed else s

/-- MEM_DATA: a fabric read reply arrives. -/
def execMemData (hdr : FrameHdr) (tag status : Nat) (data : List Byte) (_mask : List Bool) (disturbed : Nat) (s : State) : Out :=
  .next (takeMemData s hdr tag status data disturbed)

/-- MEM_ACK at the requester: a page write of a prefill job is acknowledged; one dropped for its generation is sent again. -/
def takeMemAck (s : State) (hdr : FrameHdr) (tag status : Nat) : State :=
  match takeFirst (fun e : Nat × Nat => e = (hdr.src, tag)) s.fabTags with
  | none => s
  | some (_, rest) =>
    let s := { s with fabTags := rest }
    let mine (a : Nat × Nat × Nat × Nat × Nat) : Bool := a.1 = tag && a.2.2.2.2 = hdr.src
    match s.cache.jobs.find? fun j => j.acks.any mine with
    | none => if hdr.gen ≠ s.gen then lateDrop s else s
    | some j =>
      let rest := { j with acks := j.acks.filter fun a => !mine a }
      if hdr.gen ≠ s.gen then
        match j.acks.find? mine with
        | none => lateDrop s
        | some a =>
          let q := shipChunk (lateDrop s) rest a.2.1 a.2.2.1 a.2.2.2.1 hdr.src
          partShipped (modJob q.1 j.session fun _ => q.2) q.2
      else
        let j' := { rest with failed := j.failed || status ≠ 0 }
        partShipped (modJob s j.session fun _ => j') j'

/-- MEM_ACK: a fabric write acknowledgement reaches the requester. -/
def execMemAck (hdr : FrameHdr) (tag status : Nat) (s : State) : Out := .next (takeMemAck s hdr tag status)

/-! ### Tricks (R307 to R309) -/

/-- The group of the deck that a trick message concerns. -/
def fabricGroup (s : State) : Option W32 := (switchDeck s).map (·.role.group)

/-- Whether a slot is spanning here: the switch trick, or a selected entry of KIND 1. -/
def spanningSlot (s : State) (slot : Nat) : Bool := slot = 0 || (trickEntry s slot).any (·.spanning)

/-- The cluster whose hub holds a slot. -/
def slotCluster (s : State) (slot : Nat) : Nat := ((trickEntry s slot).map homeOf).getD 0

/-- The tests of R309, in order, before a trick message takes effect. -/
def takeTrick (s : State) (port : Option Nat) (hdr : FrameHdr) (b : FrameBody) (slot : Nat) (group epoch : W32)
    (act : State → State) : State :=
  if hdr.gen ≠ s.gen then { lateDrop s with spanLateDrops := satInc 0xFFFF s.spanLateDrops }
  else if fabricGroup s ≠ some group then violation s port reasonGroup (frameOf hdr b)
  else
    let c := slotCluster s slot
    let t := (trickEntry s slot).map (·.table)
    let bad (e : Ev) (u : Nat) (args : List W32) : State := requestAbort (logGen s e u t args []) (e.word u)
    if hdr.poison then bad evSynMsgPoison (ingressUnit port c) [w32 slot]
    else if !spanningSlot s slot then bad evSynSpanUnknown (uCluster c) [w32 slot]
    else if epoch ≠ (getTrick s slot).epoch then
      bad evSynSpanEpoch (uCluster c) [w32 slot, epoch, (getTrick s slot).epoch]
    else act s

/-- TRICK_ARRIVE: a child's arrive reaches its parent. -/
def takeArrive (s : State) (port : Option Nat) (hdr : FrameHdr) (slot : Nat) (group epoch : W32) : State :=
  takeTrick s port hdr (.trickArrive slot group epoch) slot group epoch fun s => childArrive s slot

/-- TRICK_ARRIVE: the parent counts the arrive and may forward or close the epoch. -/
def execTrickArrive (hdr : FrameHdr) (slot : Nat) (group epoch : W32) (s : State) : Out :=
  .next (takeArrive s none hdr slot group epoch)

/-- TRICK_RELEASE: EPOCH grows first, then the release goes on (R308). -/
def takeReleaseFrame (s : State) (port : Option Nat) (hdr : FrameHdr) (slot : Nat) (group epoch : W32) : State :=
  takeTrick s port hdr (.trickRelease slot group epoch) slot group epoch fun s =>
    if slot = 0 then switchRelease s
    else
      match deckOf s, trickEntry s slot with
      | some d, some e => releaseTrick s d e
      | _, _ => s

/-- TRICK_RELEASE: a spanning release arrives. -/
def execTrickRelease (hdr : FrameHdr) (slot : Nat) (group epoch : W32) (s : State) : Out :=
  .next (takeReleaseFrame s none hdr slot group epoch)

end Sys2Proof.Machine
end

