-- ==== Sys2Proof/Machine/HostMem.lean ====
section
/-! DEFINITION. The CXL port as a target: host memory reads and writes, back-invalidation answers, snoops, HDM decoders and
partner violations (R496, R499, R502 to R513, R526). -/

namespace Sys2Proof.Machine

/-- Whether traffic of an IDE stream reaches the port: 0 CXL.io, 1 CXL.cachemem. In the insecure state it is dropped (Table 15.14). -/
def ideOpen (s : State) (stream : Nat) : Bool := !bitOf s.host.ideInsecure.toNat stream

/-! ### Partner violations (R526, Table 15.14) -/

/-- Sixteen bytes of a header that the model does not see. -/
def freeHeader (s : State) : List Byte × State :=
  let a := takeFree s
  let b := takeFree a.2
  (leBytes 8 a.1.toNat ++ leBytes 8 b.1.toNat, b.2)

/-- Record a violation: the log keeps the last 256 entries with kind, sequence number and 16 bytes of the header; it counts for
its kind in the current local second. -/
def recordViolation (s : State) (kind : Nat) (header : List Byte) : State :=
  let seq := sget 0 s.seqs 0
  modHost s fun h =>
    let log := h.partner ++ [(kind, seq, (header ++ List.replicate 16 0).take 16)]
    { h with partner := log.drop (log.length - 256), partnerTotal := satInc 0xFFFF h.partnerTotal,
             partnerSec := smod 0 h.partnerSec kind (· + 1) }

/-- Record a violation whose header the model does not see. -/
def partnerSeen (s : State) (kind : Nat) : State :=
  let f := freeHeader s
  recordViolation f.2 kind f.1

/-- How the port answers a violation of a kind (Table 15.14): a malformed TLP and an unexpected completion are reported through AER,
and an IDE check failure puts its stream into the insecure state. The command does not say which of the two streams it is: a free bit
does. -/
def answerViolation (s : State) (kind : Nat) : State :=
  match kind with
  | 2 => toHost s .unsupportedRequest
  | 3 => toHost s (.completerAbort 0)
  | 1 | 4 => toHost s (.aer kind)
  | 10 =>
    let f := takeFree s
    modHost f.2 fun h => { h with ideInsecure := h.ideInsecure ||| BitVec.ofNat 2 (2 ^ (f.1.toNat % 2)) }
  | _ => s

/-- PARTNER_VIOLATION: a malformed or unexpected host transaction, by its kind 1 to 10. -/
def execPartnerViolation (kind : Fin 11) (header : List Byte) (s : State) : Out :=
  if kind.val = 0 then .next s else .next (answerViolation (recordViolation s kind.val header) kind.val)

/-- PARTNER_VIOLATION_SECOND_TICK: each kind that occurred in the last whole local second is logged once with its count. -/
def execPartnerViolationSecondTick (s : State) : Out :=
  let ks := s.host.partnerSec
  let s := modHost s fun h => { h with partnerSec := [], partnerLastSec := min 0xFFFF ((ks.map (·.2)).sum) }
  .next (ks.foldl (fun s e => logGen s evHstPartnerViolation uCxl none [w32 e.1, w32 e.2] []) s)

/-- BAR0_ACCESS_INVALID: an access of a size or alignment outside R499. -/
def execBar0AccessInvalid (offset size : Nat) (s : State) : Out :=
  if !ideOpen s 0 then .next s
  else if (size = 4 && offset % 4 = 0) || (size = 8 && offset % 8 = 0) then .next s
  else .next (toHost (partnerSeen s 3) (.completerAbort offset))

/-- GLOBAL_PERSISTENT_FLUSH: acknowledged in each phase with no action (Table 15.1). -/
def execGlobalPersistentFlush (phase : Nat) (s : State) : Out := .next (toHost s (.gpfAck phase))

/-! ### HDM decoders (R502) -/

/-- Whether host-shared regions of enabled tables hold every device physical address from `a` to below `b`; each step passes
one region. -/
def sharedCover (s : State) (d : Deck) : Nat → Nat → Nat → Bool
  | 0, a, b => b ≤ a
  | k + 1, a, b =>
    if b ≤ a then true
    else
      match regionAt d (addrOfDpa a) with
      | none => false
      | some r =>
        r.hostShared && r.owner < 64 && (getTable s r.owner).enabled &&
          sharedCover s d k (dpaOfAddr r.base + r.size) b

/-- The tests of R502. Granularity is a power of two (PRESUMED from CXL 3.1). -/
def commitAllowed (s : State) (n hpaBase size dpaBase ways gran : Nat) : Bool :=
  match deckOf s with
  | none => false
  | some d =>
    s.ctl.mediaReady && [1, 2, 4, 8, 16].contains ways && [256, 512, 1024, 2048, 4096, 8192, 16384].contains gran &&
      0 < size && sharedCover s d (d.regions.length + 1) dpaBase (dpaBase + size / ways) &&
      dpaBase + size / ways ≤ 8 * 0x900000000 &&
      s.host.decoders.all fun e =>
        e.1 = n || !e.2.committed || hpaBase + size ≤ e.2.hpaBase || e.2.hpaBase + e.2.size ≤ hpaBase

/-- A committed decoder is decommitted: the held lines of its range are back-invalidated (Table 15.5). -/
def decommit (s : State) (n : Nat) : State :=
  let d := sget HdmDecoder.off s.host.decoders n
  let held := s.host.snoop.filter fun e => d.committed && d.dpaBase ≤ e.1 && e.1 < d.dpaBase + d.size / max 1 d.ways
  let s := held.foldl (fun s e => backInvalidate s e.1 .firmware) s
  modHost s fun h =>
    { h with decoders := sput HdmDecoder.off h.decoders n HdmDecoder.off, leaving := if d.committed then h.leaving ++ [d] else h.leaving }

/-- HDM_DECODER_COMMIT: a decoder is committed, or its Error Not Committed bit is set. One that is committed is decommitted
first (DESIGN CHOICE: the table of commands has no decommit of its own). -/
def execHdmDecoderCommit (decoder : Fin 4) (hpaBase size dpaBase ways granularity : Nat) (s : State) : Out :=
  let s := decommit s decoder.val
  let ok := commitAllowed s decoder.val hpaBase size dpaBase ways granularity
  let d : HdmDecoder :=
    { committed := ok, errNotCommitted := !ok, hpaBase := hpaBase, size := size, dpaBase := dpaBase, ways := ways,
      granularity := granularity }
  let s := modHost s fun h => { h with decoders := sput HdmDecoder.off h.decoders decoder.val d }
  if ok then .next s else .next (logGen s evHstHdmCommitRefused uCxl none [w32 decoder.val] [])

/-! ### CXL.mem requests -/

/-- The device physical address of a request that the port serves: media is ready and a committed decoder maps it (R503,
R506). -/
def servedDpa (s : State) (hpa : Nat) : Option Nat := if s.ctl.mediaReady then decodeHpa s hpa else none

/-- The device physical address of a write: also of a write-back of a line whose back-invalidation under a decoder that was
decommitted is outstanding, so that no line changes with the window (R510, R527). -/
def writtenDpa (s : State) (hpa : Nat) : Option Nat :=
  match servedDpa s hpa with
  | some d => some d
  | none =>
    ((s.host.leaving.filter fun d => d.hpaBase ≤ hpa && hpa < d.hpaBase + d.size).map (hdmDpa · hpa)).find? fun a =>
      s.host.biPending.any fun b => b.dpa = a / 64 * 64

/-- MEM_RD: a host read, for an exclusive copy or a shared one. -/
def execMemRd (hpa : Nat) (exclusive : Bool) (s : State) : Out :=
  if !ideOpen s 1 then .next s
  else
  match servedDpa s hpa with
  | none => .next (poisonedReply (partnerSeen s 5) hpa)
  | some d => .next (hostRead s hpa d exclusive)

/-- MEM_WR: a host write of a whole line or of the bytes of a mask. Cmp is returned when it is performed (R505). -/
def execMemWr (hpa : Nat) (data : Line) (mask : BitVec 64) (poison : Bool) (s : State) : Out :=
  if !ideOpen s 1 then .next s
  else
  match writtenDpa s hpa with
  | none => .next (toHost (partnerSeen s 5) (.cmp hpa))
  | some d =>
    let e : WcbEntry := { line := addrOfDpa d / 64, data := data, mask := mask, poison := poisonAll poison, sender := .host hpa }
    .next (answerSender (outsideWrite s e) (.host hpa))

/-- BIRSPI: the host has answered a back-invalidation. One that none is outstanding for is a violation. -/
def execBirspi (dpa : Nat) (s : State) : Out :=
  if !ideOpen s 1 then .next s
  else if s.host.biPending.any fun e => e.dpa = dpa && !e.answered then .next (answerBi s dpa) else .next (partnerSeen s 6)

/-- BISNPINV_TIMEOUT: no answer within 1,000,000 counts; the access completes as if the line were answered (R511). -/
def execBisnpinvTimeout (dpa : Nat) (s : State) : Out :=
  if s.host.biPending.any fun e => e.dpa = dpa && !e.answered then
    .next (completeBi (logGen (partnerSeen (expire s (.biSnoop dpa) (10 * countsMs)) 7) evHstBiTimeout uCxl none [] [w64 dpa]) dpa)
  else .next s

end Sys2Proof.Machine
end

