-- ==== Sys2Proof/Machine/ChannelEvents.lean ====
section
/-! DEFINITION. Watch lines, rings and the ends of CXL.cache requests (R423 to R426, R451, R453, R512, R513, R515). -/

namespace Sys2Proof.Machine

/-! ### Watch lines -/

/-- The channel whose watch line holds a host address. -/
def watchedBy (s : State) (addr : W64) : Option Nat :=
  (s.channels.find? fun e => e.2.state ≠ .free && e.2.watch.toNat / 64 = addr.toNat / 64).map (·.1)

/-- A held watch line is lost: its slot wakes and the firmware reads the line again (R423). -/
def wakeChannel (s : State) (n : Nat) : State :=
  let c := getChan s n
  if c.state ≠ .free && c.held then
    toHostReq (setChan s n { c with held := false, wakePending := true, wakes := satInc 0xFFFF c.wakes }) (.rdShared c.watch)
  else s

/-- WATCH_WAKE: a snoop invalidates a held watch line. -/
def execWatchWake (chan : Fin 16384) (s : State) : Out := if ideOpen s 1 then .next (wakeChannel s chan.val) else .next s

/-- SNPINV: answered whatever the state of the channel; a held watch line wakes its slot. -/
def execSnpinv (addr : W64) (s : State) : Out :=
  if !ideOpen s 1 then .next s
  else
  match watchedBy s addr with
  | some n =>
    if (getChan s n).held then .next (wakeChannel (toHost s (.snpRsp true false)) n) else .next (toHost s (.snpRsp false false))
  | none => .next (toHost s (.snpRsp false false))

/-- SNPDATA: SnpData or SnpCur; a held watch line stays shared. -/
def execSnpdata (addr : W64) (s : State) : Out :=
  if !ideOpen s 1 then .next s
  else .next (toHost s (.snpRsp ((watchedBy s addr).any fun n => (getChan s n).held) ((watchedBy s addr).any fun n => (getChan s n).held)))

/-- Ask for the submission entries at ring positions from `p` on. -/
def fetchEntries (s : State) (n : Nat) (p : W32) (k : Nat) : State :=
  let c := getChan s n
  (List.range k).foldl (fun s i =>
    toHostReq s (.rdCurr (c.sqBase + w64 (64 * ((p.toNat + i) % 2 ^ c.sqLog2))) 64)) s

/-- Act on a watch line that has been read: SQ_HEAD within the ring, else it overruns; CQ_READ frees entries (R424, R426). -/
def serveWatch (s : State) (n : Nat) (sqHead cqRead : W32) : State :=
  let c := getChan s n
  let size := 2 ^ c.sqLog2
  let tooFar := size < (sqHead - c.sqRead).toNat
  let head := if tooFar then c.sqRead + w32 size else sqHead
  let s := if tooFar && !c.overrun then logGen s evSrvRingOverrun uCtl (some c.table) [chanHandle s n] [] else s
  let s := modChan s n fun c =>
    { c with held := true, wakePending := false, sqHead := head, cqRead := cqRead, overrun := c.overrun || tooFar }
  let s := fetchEntries s n c.sqHead (head - c.sqHead).toNat
  checkClosing (writeBacklog s n (getChan s n).backlog) n

/-- WATCH_WAKE_SERVICE: the firmware has read the watch line of a channel that was woken or that does not hold its line yet. A
suspended channel is served after CHAN_RESUME. -/
def execWatchWakeService (chan : Fin 16384) (sqHead cqRead : W32) (s : State) : Out :=
  let c := getChan s chan.val
  if (c.wakePending || !c.held) && s.host.busMaster && ideOpen s 1 && (c.state = .opened || c.state = .closing) then
    .next (serveWatch s chan.val sqHead cqRead)
  else .next s

/-! ### Sent and lost completion entries -/

/-- The consumer tallies count an entry that the port has sent (R453). -/
def tallySent (s : State) (t : Nat) (e : Completion) : State :=
  modTally s t fun k =>
    if e.kind = 0 then { k with tokCons := k.tokCons + w64 e.tokens.length }
    else if e.kind = 1 then { k with reqCons := k.reqCons + 1 } else k

/-- Whether a host message writes into a channel's completion ring. -/
def inRing (c : Channel) : HostMsg → Bool
  | .wrCur a _ => c.cqBase.toNat ≤ a.toNat && a.toNat < c.cqBase.toNat + 32 * 2 ^ c.cqLog2
  | _ => false

/-- The entries that a channel has not sent are discarded; lost tokens are counted by request in its GAP, and their ring
positions are used again (R451; DEDUCED). -/
def discardUnsent (s : State) (n : Nat) : State :=
  let c := getChan s n
  let lost := c.unsent.filter fun e => e.kind = 0 && !e.tokens.isEmpty
  let add (m : List (W32 × W32)) (e : Completion) : List (W32 × W32) :=
    let k := w32 e.tokens.length
    if m.any fun g => g.1 = e.tag then m.map fun g => if g.1 = e.tag then (g.1, g.2 + k) else g else m ++ [(e.tag, k)]
  let s := { s with regWait := s.regWait.filter fun w => match w.2.2 with | .host m => !inRing c m | _ => true }
  setChan s n { c with unsent := [], cqWrite := c.cqWrite - w32 c.unsent.length,
                       gap := c.gap + w32 ((lost.map fun e => e.tokens.length).sum), gapTags := lost.foldl add c.gapTags }

/-- An open channel becomes suspended; what it has not sent is lost (R451, R515). -/
def suspendChannel (s : State) (n : Nat) : State :=
  checkClosing
    (modChan (discardUnsent s n) n fun c => { c with state := if c.state = .opened then .suspended else c.state }) n

/-- D2H_COMPLETION: a CXL.cache request of a channel completes, or GO-Err suspends it. With bus mastering clear it is
discarded (R527); a write's completion that nothing awaits is a violation. -/
def execD2hCompletion (chan : Fin 16384) (write goErr : Bool) (s : State) : Out :=
  let n := chan.val
  let c := getChan s n
  if !s.host.busMaster || !ideOpen s 1 then .next s
  else if c.state = .free then .next (partnerSeen s 8)
  else if goErr then .next (suspendChannel (logGen s evHstCacheGoErr uCxl none [chanHandle s n] []) n)
  else if write then
    match c.unsent with
    | e :: r => .next (checkClosing (tallySent (setChan s n { c with unsent := r }) c.table e) n)
    | [] => .next (partnerSeen s 8)
  else .next s

end Sys2Proof.Machine
end

