-- ==== Sys2Proof/Machine/SlowTier.lean ====
section
/-! DEFINITION. Completions of slow-tier requests (R479, R482, R397, R518, R584). -/

namespace Sys2Proof.Machine

/-- The table of a page's pool. -/
def pageTable (s : State) (p : Nat) : Nat := ((regionOf s (pageAddr p)).map (·.owner)).getD 0

/-- Whether two requests serve one operation. -/
def sameOp : UioUse → UioUse → Bool
  | .spill p n _, .spill q m _ => p = q && n = m
  | .prefetch t i p n _, .prefetch u j q m _ => t = u && i = j && p = q && n = m
  | .refetch _ l, .refetch _ k => l = k
  | _, _ => false

/-- The window and the host address of a request. -/
def uioPlace (s : State) : UioUse → Nat × Nat
  | .spill p n off =>
    let t := pageTable s p
    ((((getTable s t).spillWindow).map (·.1)).getD 0, (spillAddr s t n).getD 0 + off)
  | .prefetch t _ _ n off => ((((getTable s t).spillWindow).map (·.1)).getD 0, (spillAddr s t n).getD 0 + off)
  | .refetch _ line =>
    match repairOf s line with
    | some e => (((e.region.map (·.srcModule)).getD 0), e.addr)
    | none =>
      match regionOf s (lineAddr line) with
      | some r => (r.srcModule, (sourceAddr s r line).getD 0)
      | none => (0, 0)
  | .dead => (0, 0)

/-- An operation of the slow tier fails: its other requests end without effect, it is logged once, and what it served fails
(R518). -/
def failUio (s : State) (u : UioUse) : State :=
  let at_ := uioPlace s u
  let s := killUio s (sameOp u) at_.1 (w64 at_.2)
  match u with
  | .spill p n _ => reportSpill s (pageTable s p) p n false
  | .prefetch t slot _ _ _ => lateReport (slotWrite s t slot 48 2) t
  | .refetch _ line => unreachable s line
  | .dead => s

/-- The operation that a late completion served is issued again under the new generation; a prefetch is issued again by the
replayed round (R584). -/
def againUio (s : State) (u : UioUse) : State :=
  let s := modHost s fun h => { h with dmaDrops := satInc 0xFFFF h.dmaDrops }
  match u with
  | .spill p n off =>
    let t := pageTable s p
    match spillAddr s t n with
    | some a =>
      if s.host.busMaster then issuePiece s t p n a off else failUio s u
    | none => failUio s u
  | .refetch _ line =>
    match repairOf s line with
    | some e =>
      match e.region, repairSource s e with
      | some r, some a => fetchFor s r line a
      | _, _ => unreachable s line
    | none => refetch s line
  | _ => s

/-- A request has completed well. -/
def doneUio (s : State) (u : UioUse) (data : List Byte) (disturbed : Nat) : State :=
  let last := !(s.host.uio.any fun e => sameOp u e.2.1)
  match u with
  | .spill p n _ => if last then reportSpill s (pageTable s p) p n true else s
  | .prefetch t slot p _ off =>
    let s := fwWrite s (pageByte p off) (data.take 512)
    if last then lateReport (slotWrite s t slot 48 1) t else s
  | .refetch _ line =>
    if (repairOf s line).any (·.fetching) then repairLine s line (lineOfBytes data) disturbed
    else refetchLine s line (lineOfBytes data) disturbed
  | .dead => s

/-- Bytes that a read brings. -/
def uioBytes : UioUse → Nat
  | .prefetch .. => 512
  | .refetch .. => 64
  | _ => 0

/-- UIO_COMPLETION: a slow-tier request completes. One without a matching request is a violation, but for one that arrives with bus
mastering clear, which is discarded (R526, R527). -/
def execUioCompletion (tag : Nat) (ok : Bool) (data : List Byte) (disturbed : Nat) (s : State) : Out :=
  if !ideOpen s 0 then .next s
  else
  match takeFirst (fun e : Nat × UioUse × BitVec 16 => e.1 = tag) s.host.uio with
  | none => if s.host.busMaster then .next (partnerSeen s 9) else .next s
  | some (e, rest) =>
    let s := dropDeadline (modHost s fun h => { h with uio := rest }) (.uio tag)
    if e.2.1 = .dead then .next s
    else if e.2.2 ≠ s.gen then .next (againUio s e.2.1)
    else if ok && (uioBytes e.2.1 = 0 || data.length = uioBytes e.2.1) then .next (doneUio s e.2.1 data disturbed)
    else .next (failUio s e.2.1)

/-- UIO_TIMEOUT: a request has no completion within 1,000,000 counts. -/
def execUioTimeout (tag : Nat) (s : State) : Out :=
  match takeFirst (fun e : Nat × UioUse × BitVec 16 => e.1 = tag) s.host.uio with
  | none => .next s
  | some (e, rest) =>
    let s := modHost (expire s (.uio tag) (10 * countsMs)) fun h => { h with uio := rest }
    if e.2.1 = .dead then .next s else .next (failUio s e.2.1)

/-- Every operation of the slow tier that is under way fails (R527). -/
def failAllUio (s : State) : State :=
  s.host.uio.foldl (fun s e =>
    match s.host.uio.find? fun x => x.1 = e.1 with
    | some x => if x.2.1 = .dead then s else failUio s x.2.1
    | none => s) s

end Sys2Proof.Machine
end

