-- ==== Sys2Proof/Machine/HostResets.lean ====
section
/-! DEFINITION. Bus Master Enable, function-level reset, CXL Reset, hot reset and link training (R451, R452, R497, R527, R605),
and the end of a staging that fails (R90). -/

namespace Sys2Proof.Machine

/-! ### Staging that ends (R90) -/

/-- The staging state becomes EMPTY and the staging slot holds nothing. -/
def dropStaged (s : State) : State :=
  modLoader s fun l =>
    { l with stage := .empty, staged := none, armed := none, fetched := 0, fetchLen := 0, skipLogged := [],
             slot0 := if l.stageSlot = 0 then [] else l.slot0, mark0 := if l.stageSlot = 0 then .empty else l.mark0,
             slot1 := if l.stageSlot = 1 then [] else l.slot1, mark1 := if l.stageSlot = 1 then .empty else l.mark1 }

/-- A staging ends with a fault and state EMPTY; DECK_STAGE reports it. -/
def failStage (s : State) (e : Ev) (offset : W32) (a32 : List W32) (a64 : List W64) : State :=
  endBackground (dropStaged (deckFault s e offset a32 a64)) 0xC012 .invalidInput (e.word uDeck) []

/-- A copy from host memory that can no longer be read ends with DCK_STAGE_FETCH. -/
def failFetch (s : State) : State :=
  if s.loader.stage = .staging then
    failStage s evDckStageFetch noOffset [] [s.loader.fetchAddr + w64 s.loader.fetched]
  else s

/-! ### What the host's actions stop -/

/-- The channels that are not FREE. -/
def liveChannels (s : State) : List Nat := (s.channels.filter fun e => e.2.state ≠ .free).map (·.1)

/-- Host-directed requests end: spills, prefetches and refetches fail, what has not been sent is discarded, staging ends
(R527). -/
def stopRequests (s : State) : State :=
  let s := failFetch (failAllUio s)
  { s with regWait := s.regWait.filter fun w => match w.2.2 with | .host _ => false | _ => true }

/-- BUS_MASTER_CLEAR: host software clears Bus Master Enable. -/
def execBusMasterClear (s : State) : Out :=
  let s := modHost (stopRequests s) fun h => { h with busMaster := false }
  let s := (liveChannels s).foldl suspendChannel s
  .next (logBare s evHstBmeCleared uCxl)

/-- The command in progress of the Primary Mailbox is abandoned without a response; its effects proceed, and DECK_STAGE ends EMPTY
(R527). The interface over MCTP is no part of the function (DEDUCED). -/
def abandonMailbox (s : State) : State :=
  let mine := s.background.any fun b => b.running && b.cci = 0
  let staging := mine && s.background.any (·.opcode = 0xC012)
  let s := { s with replies := sput none s.replies 0 none, background := s.background.map fun b => if mine then { b with cci := 2 } else b }
  if staging && s.loader.stage = .verifying then endBackground (dropStaged s) 0xC012 .aborted 0 [] else s

/-- What a function-level reset does: every channel becomes FREE and its sessions are detached, the requester's state is
cleared, link keys are erased (R452, R527, R605). A table that is being disabled and has no round left is disabled then (R420). -/
def resetFunction (s : State) : State :=
  let s := stopRequests (abandonMailbox s)
  let s := (liveChannels s).foldl freeChannel s
  let s := s.host.uio.foldl (fun s e => dropDeadline s (.uio e.1)) s
  let s := modHost s fun h => { h with busMaster := false, uio := [] }
  let idle := (s.tables.map (·.1)).filter fun t => !(getRound s t).isOpen && !(getRound s t).again
  let s := idle.foldl finishDisable s
  { s with sec := { s.sec with keySets := [], keyActive := [] } }

/-- FUNCTION_LEVEL_RESET. -/
def execFunctionLevelReset (s : State) : Out := .next (logBare (resetFunction s) evHstFlr uCxl)

/-- Every held line is back-invalidated, the decoders are decommitted and the snoop filter is emptied; write-backs of those lines are
still accepted (R510, R527). -/
def resetMemory (s : State) : State :=
  let s := s.host.snoop.foldl (fun s e => backInvalidate s e.1 .firmware) s
  modHost s fun h =>
    { h with decoders := [], snoop := [], leaving := h.leaving ++ (h.decoders.filter (·.2.committed)).map (·.2) }

/-- CXL_RESET: as function-level reset, and the host loses its windows. -/
def execCxlReset (s : State) : Out := .next (logBare (resetMemory (resetFunction s)) evHstCxlReset uCxl)

/-- Hot reset, link down or PERST_N: as CXL Reset, and the link retrains. Nothing is sent over the link that is down. -/
def hotReset (s : State) : State :=
  let s := resetMemory (resetFunction (modHost s fun h => { h with busMaster := false }))
  logBare (modHost s fun h => { h with linkUp := false, width := 0, rate := 0 }) evHstHotReset uCxl

/-- HOT_RESET. -/
def execHotReset (s : State) : Out := .next (hotReset s)

/-- CXL_LINK_UP: the link has trained, from step 3 of Table 17.1 on. A narrower or slower link is logged once per training
(R497). No command of the table sets Bus Master Enable: the host's configuration of the port that follows a training is taken
as part of it (DESIGN CHOICE). -/
def execCxlLinkUp (width rate : Nat) (s : State) : Out :=
  if !s.power.inputOn || s.host.perst || s.ringOsc then .next s
  else
    let s := modHost s fun h => { h with linkUp := true, width := width, rate := rate, busMaster := true }
    if width < 8 || rate < 64 then .next (logGen s evHstLinkDegraded uCxl none [w32 width, w32 rate] []) else .next s

end Sys2Proof.Machine
end

