-- ==== Sys2Proof/Machine/Mailbox.lean ====
section
/-! DEFINITION. The command channel interfaces: replies, background operations, vendor commands and their signatures, and the
records of the event logs as bytes (R520 to R526, R564, R609 to R611, R640 to R642, R648). -/

namespace Sys2Proof.Machine

/-! ### Replies and background operations -/

/-- Whether an interface takes a command: there is input power, and the Primary Mailbox, interface 0, is reached over CXL.io. -/
def hears (s : State) (cci : Nat) : Bool := s.power.inputOn && (cci ≠ 0 || ideOpen s 0)

/-- Answer a command. -/
def reply (s : State) (cci op : Nat) (st : Status) (code : W32) (out : List Byte) : State :=
  { s with replies := sput none s.replies cci (some { opcode := op, status := st, code := code, out := out }) }

/-- Answer with Success and an output. -/
def replyOk (s : State) (cci op : Nat) (out : List Byte) : State := reply s cci op .success 0 out

/-- Refuse a vendor command: its code stands in the first four bytes of the output (R523). -/
def refuse (s : State) (cci op : Nat) (code : W32) : State := reply s cci op .invalidInput code (leBytes 4 code.toNat)

/-- Log a code and refuse a command with it (R640). -/
def refuseWith (s : State) (cci op : Nat) (e : Ev) (u : Nat) (t : Option Nat) (a32 : List W32) (a64 : List W64) : State :=
  refuse (logGen s e u t a32 a64) cci op (e.word u)

/-- Whether a background operation runs. -/
def bgBusy (s : State) : Bool := s.background.any (·.running)

/-- Start a background operation (R520, R523). -/
def startBg (s : State) (cci op : Nat) : State :=
  reply { s with background := some { cci := cci, opcode := op, running := true, percent := 0, result := .success, code := 0,
                                      out := [] } } cci op .backgroundStarted 0 []

/-! ### Signed commands (R609 to R611, Table 18.6) -/

/-- Whether an owner slot is enrolled. -/
def enrolled (s : State) (k : Nat) : Bool := k < 4 && sget 0 s.sec.ownerState k = 1

/-- Some bytes of a list. -/
def cut (bs : List Byte) (lo n : Nat) : List Byte := (bs.drop lo).take n

/-- The number of the first condition of R611 that a privileged command fails, or 0. `who` says which key slots may sign it:
0xFF is Velyrith's. -/
def signFault (s : State) (op : Nat) (nonce : Option (BitVec 128)) (own trailer : List Byte) (who : Nat → Bool) : Nat :=
  let k := ((trailer.head?).map (·.toNat)).getD 0
  let key := hash384 (cut trailer 120 96)
  let hash := hash384 (leBytes 2 op ++ own ++ cut trailer 0 24)
  if nonce ≠ some (BitVec.ofNat 128 (leNat (cut trailer 8 16))) then 1
  else if !(who k && ((enrolled s k && sget 0 s.sec.ownerHash k = key) || (k = 0xFF && s.sec.vendorHash = key))) then 2
  else if !ecdsaVerify hash.toNat (beNat (cut trailer 24 48)) (beNat (cut trailer 72 48)) (beNat (cut trailer 120 48))
      (beNat (cut trailer 168 48)) then 3
  else if (cut trailer 1 7).any (· ≠ 0) then 4
  else 0

/-- Any enrolled owner slot may sign. -/
def anyOwner (k : Nat) : Bool := k < 4

/-! ### Vendor commands (R523, R564, R648) -/

/-- Whether the module is in misdeal. -/
def inMisdeal (s : State) : Bool := s.ctl.idState = .misdeal

/-- The vendor commands that misdeal accepts (R564). -/
def misdealVendor (op : Nat) : Bool := [0xC001, 0xC010, 0xC011, 0xC012, 0xC015, 0xC070, 0xC071, 0xC073].contains op

/-- The tests that follow the signature: reserved fields, misdeal, one background operation at a time. -/
def vendorBody (s : State) (cci op : Nat) (own : List Byte) (reservedOk : List Byte → Bool) (bg : Bool)
    (act : State → List Byte → State) : State :=
  if !reservedOk own then reply s cci op .invalidInput 0 (leBytes 4 0)
  else if inMisdeal s && !misdealVendor op then refuseWith s cci op evBupInMisdeal uMgmt none [w32 op] []
  else if bg && bgBusy s then reply s cci op .busy 0 []
  else act s own

/-- A vendor command that is not signed, with an input of `len` bytes. Without input power nothing answers. -/
def vendor (s : State) (cci op : Nat) (input : List Byte) (len : Nat) (reservedOk : List Byte → Bool) (bg : Bool)
    (act : State → List Byte → State) : State :=
  if !hears s cci then s
  else if input.length ≠ len then reply s cci op .invalidLength 0 []
  else vendorBody s cci op input reservedOk bg act

/-- A privileged command: it uses up the interface's nonce, and its trailer of 216 bytes follows its input. -/
def signed (s : State) (cci op : Nat) (input : List Byte) (len : Nat) (reservedOk : List Byte → Bool) (bg : Bool)
    (who : List Byte → Nat → Bool) (act : State → List Byte → State) : State :=
  if !hears s cci then s
  else
    let nonce := sget none s.sec.nonces cci
    let s := { s with sec := { s.sec with nonces := sput none s.sec.nonces cci none } }
    if input.length ≠ len + 216 then reply s cci op .invalidLength 0 []
    else
      let own := input.take len
      match signFault s op nonce own (input.drop len) (who own) with
      | 0 => vendorBody s cci op own reservedOk bg act
      | n => reply (logGen s evSecCmdRejected uMgmt none [w32 op, w32 n] []) cci op .invalidSecurity 0 []

/-- Byte `i` of an input. -/
def inByte (own : List Byte) (i : Nat) : Nat := ((own[i]?).map (·.toNat)).getD 0
/-- A little-endian field of an input. -/
def inField (own : List Byte) (lo n : Nat) : Nat := leNat (cut own lo n)
/-- Whether the bytes from `lo` on are zero. -/
def zeroFrom (own : List Byte) (lo : Nat) : Bool := (own.drop lo).all (· = 0)
/-- Whether some bytes are zero. -/
def zeroBytes (own : List Byte) (lo n : Nat) : Bool := (cut own lo n).all (· = 0)
/-- An input without reserved fields. -/
def noReserved (_ : List Byte) : Bool := true

/-! ### Event records as bytes (Tables 4.17, 8.10, 12.4, 15.11, 20.4) -/

/-- Pad to a length with zero bytes. -/
def padTo (n : Nat) (bs : List Byte) : List Byte := (bs ++ List.replicate n 0).take n

/-- The 64 bytes of a detail. -/
def detailBytes (code : W32) : Detail → List Byte
  | .none => padTo 64 (leBytes 4 code.toNat)
  | .general a32 a64 =>
    padTo 64 (leBytes 4 code.toNat ++ padTo 16 (a32.flatMap fun v => leBytes 4 v.toNat) ++ leBytes 4 0 ++
      a64.flatMap fun v => leBytes 8 v.toNat)
  | .core c l p t play number it addr =>
    padTo 64 (leBytes 4 code.toNat ++ leBytes 1 c ++ leBytes 1 l ++ leBytes 1 p ++ leBytes 1 t ++ leBytes 2 play ++
      leBytes 2 number ++ leBytes 4 it.toNat ++ leBytes 8 addr.toNat)
  | .line st ch sl cls row lines region tables det =>
    padTo 64 (leBytes 4 code.toNat ++ leBytes 1 st ++ leBytes 1 ch ++ leBytes 1 sl ++ leBytes 1 cls ++ leBytes 4 row ++
      leBytes 2 lines ++ leBytes 2 region ++ leBytes 8 tables.toNat ++ leBytes 1 det)
  | .script t st sc op ch sl ticket row c l =>
    padTo 64 (leBytes 4 code.toNat ++ leBytes 1 t ++ leBytes 1 st ++ leBytes 2 sc ++ leBytes 1 op ++ leBytes 1 ch ++
      leBytes 1 sl ++ leBytes 1 ticket ++ leBytes 4 row.toNat ++ leBytes 1 c ++ leBytes 1 l)
  | .train port own peer =>
    padTo 64 (leBytes 4 code.toNat ++ leBytes 4 port ++ padTo 16 own ++ padTo 16 peer)
  | .media .. => padTo 64 []
  | .dram .. => padTo 64 []
  | .memModule _ => padTo 64 []

/-- UUID of the vendor-specific record (Table 15.11). -/
def recordUuid : List Byte :=
  [0x5d, 0x3e, 0x8a, 0x41, 0x7c, 0x02, 0x4b, 0x9e, 0xa1, 0xf6, 0x0c, 0x37, 0xe2, 0xb9, 0x4d, 0x18]

/-- UUIDs of CXL 3.1's General Media, DRAM and Memory Module Event Records (PRESUMED). -/
def mediaUuid : List Byte := [0xfb, 0xcd, 0x0a, 0x77, 0xc2, 0x60, 0x41, 0x7f, 0x85, 0xa9, 0x08, 0x8b, 0x16, 0x21, 0xeb, 0xa6]
@[inherit_doc mediaUuid] def dramUuid : List Byte :=
  [0x60, 0x1d, 0xcb, 0xb3, 0x9c, 0x06, 0x4e, 0xab, 0xb8, 0xaf, 0x4e, 0x9b, 0xfb, 0x5c, 0x96, 0x24]
@[inherit_doc mediaUuid] def moduleUuid : List Byte :=
  [0xfe, 0x92, 0x74, 0x75, 0xdd, 0x59, 0x43, 0x39, 0xa5, 0x86, 0x79, 0xba, 0xb1, 0x13, 0xb7, 0x74]

/-- The common header of a record: its length, severity and handle. The layout is CXL 3.1's (PRESUMED); the Timestamp is 0. -/
def recordHeader (uuid : List Byte) (sev handle : Nat) : List Byte :=
  uuid ++ [0x80] ++ leBytes 3 sev ++ leBytes 2 handle ++ List.replicate 26 0

/-- The 128 bytes of a record: of Table 15.11, or of a standard record in CXL 3.1's layout (PRESUMED) with the fields of Table
15.12. -/
def recordBytes (sev handle : Nat) (r : EventRec) : List Byte :=
  match r.detail with
  | .media dpa path tr stack channel =>
    padTo 128 (recordHeader mediaUuid sev handle ++ leBytes 8 dpa ++ [0] ++ leBytes 1 (if path then 2 else 0) ++ leBytes 1 tr ++
      leBytes 2 9 ++ leBytes 1 channel ++ List.replicate 4 0 ++ leBytes 1 stack ++ leBytes 1 channel)
  | .dram dpa channel bank row =>
    padTo 128 (recordHeader dramUuid sev handle ++ leBytes 8 dpa ++ [0, 0, 6] ++ leBytes 2 0x31 ++ leBytes 1 channel ++
      List.replicate 5 0 ++ leBytes 1 bank ++ leBytes 3 row)
  | .memModule temp =>
    padTo 128 (recordHeader moduleUuid sev handle ++ [3, 0, 0, 0, 0] ++ leBytes 2 temp.toNat)
  | _ =>
    recordHeader recordUuid sev handle ++ leBytes 4 r.code.toNat ++ leBytes 4 r.seq.toNat ++ leBytes 1 r.die ++
      List.replicate 3 0 ++ leBytes 4 r.epoch.toNat ++ detailBytes r.code r.detail

end Sys2Proof.Machine
end

