-- ==== Sys2Proof/Machine/PortConfig.lean ====
section
/-! DEFINITION. What the CXL port announces: the features of Table 15.1, and the header, base address registers and register blocks of the
function (R496, R498). Nothing here changes with the state. -/

namespace Sys2Proof.Machine

/-! ### Features (R496, Table 15.1) -/

/-- The features that Table 15.1 answers with yes or no. -/
inductive PortFeature where
  | type2 | flit256 | flit68 | hdmDb | hdmH | hdmD | biSnpInv | biSnpCur | biSnpData | coherentCache | uioRequester
  | uioCompleter | linkIde | selectiveIde | teeProtocol | dynamicCapacity | persistentMemory | viral | functionReset | cxlReset
  | memClear | srIov | msix | aer | cxlRas | primaryMailbox | secondaryMailbox | mctpCci
  deriving DecidableEq, Repr

/-- Whether the capability structure that would announce a feature reports it. -/
def PortFeature.announced : PortFeature → Bool
  | .flit68 | .hdmH | .hdmD | .biSnpCur | .biSnpData | .uioCompleter | .selectiveIde | .teeProtocol | .dynamicCapacity
  | .persistentMemory | .viral | .memClear | .srIov | .secondaryMailbox => false
  | .type2 | .flit256 | .hdmDb | .biSnpInv | .coherentCache | .uioRequester | .linkIde | .functionReset | .cxlReset | .msix | .aer
  | .cxlRas | .primaryMailbox | .mctpCci => true

/-- Counts and sizes of Table 15.1: link lanes, HDM decoders, bytes of the device coherent cache, MSI-X vectors, mailbox payload. -/
def portLanes : Nat := 8
@[inherit_doc portLanes] def hdmDecoders : Nat := 4
@[inherit_doc portLanes] def coherentCacheBytes : Nat := 2 ^ 21
@[inherit_doc portLanes] def msixVectors : Nat := 2048
@[inherit_doc portLanes] def mailboxPayload : Nat := 4096

/-! ### The function's header (R498, Table 15.2) -/

/-- Device ID of the function. -/
def deviceId : BitVec 16 := 0xA128

/-- Class code, subclass and programming interface: a processing accelerator. -/
def classCode24 : BitVec 24 := 0x120000

/-- The bytes of a base address register pair, 0, 2 or 4: register blocks, component registers, MSI-X. -/
def barBytes (bar : Nat) : Nat :=
  match bar with
  | 0 => 2 ^ 24 | 2 => 2 ^ 16 | 4 => 2 ^ 16 | _ => 0

/-- The constant fields of a double word of the Type 0 header: identity, class code, header type, and the low bits of a 64-bit,
non-prefetchable base address register (the header's layout is PCI Express's, PRESUMED). What software programs there is not part
of the model. -/
def headerDword (o : Nat) : BitVec 32 :=
  match o with
  | 0x00 => deviceId ++ Config.vendorId
  | 0x08 => classCode24 ++ (0 : BitVec 8)
  | 0x10 | 0x18 | 0x20 => 4
  | _ => 0

/-- Where the Register Locator DVSEC places a block: BAR and offset of the component registers, and of the CXL device registers. -/
def componentBlock : Nat × Nat := (2, 0)
@[inherit_doc componentBlock] def deviceBlock : Nat × Nat := (0, 0x1000)
/-- Offset in BAR2 of the CXL capability header array. -/
def capabilityArray : Nat := 0x1000
/-- Offsets in BAR4 of the MSI-X table and of the pending bit array, and the bytes of each. -/
def msixTableAt : Nat × Nat := (0, 16 * msixVectors)
@[inherit_doc msixTableAt] def msixPendingAt : Nat × Nat := (0x8000, msixVectors / 8)

end Sys2Proof.Machine
end

