-- ==== Sys2Proof/Machine/MailStandard.lean ====
section
/-! DEFINITION. The standard mailbox commands of Table 15.9 (R501, R520 to R525, R545, R549, R563 to R565, R585, R597). Payload
layouts that the manual leaves to CXL 3.1 are taken from that standard (PRESUMED) or are free bytes. -/

namespace Sys2Proof.Machine

/-- A standard command; without input power nothing answers. -/
def standard (s : State) (cci : Nat) (act : State → State) : State := if hears s cci then act s else s

/-! ### Identity and background operations -/

/-- IDENTIFY. -/
def execIdentify (cci : Fin 2) (s : State) : Out :=
  .next (standard s cci.val fun s =>
    replyOk s cci.val 0x0001 (leBytes 2 Config.vendorId.toNat ++ leBytes 2 deviceId.toNat ++ Config.standardBytes 0x0001))

/-- The number of a return code (CXL 3.1, PRESUMED). -/
def returnCode : Status → Nat
  | .success => 0 | .backgroundStarted => 1 | .invalidInput => 2 | .unsupported => 3 | .internalError => 4 | .busy => 6
  | .authFailed => 0x0B | .aborted => 0x12 | .invalidSecurity => 0x14 | .invalidLength => 0x16
  | .invalidHandle => 0x0E

/-- BACKGROUND_OPERATION_STATUS: whether the operation runs, its opcode, its return code, and the NUMBER of its fault code. An
operation whose command was abandoned reports nothing (R527). -/
def execBackgroundOperationStatus (cci : Fin 2) (s : State) : Out :=
  .next (standard s cci.val fun s =>
    let out :=
      match s.background with
      | some b =>
        if b.cci < 2 || b.running then
          leBytes 1 ((if b.running then 1 else 0) + 2 * b.percent) ++ leBytes 1 0 ++ leBytes 2 b.opcode ++
            leBytes 2 (if b.running then 0 else returnCode b.result) ++ leBytes 2 b.code.toNat ++ b.out
        else List.replicate 8 0
      | none => List.replicate 8 0
    let code := ((s.background.filter fun b => b.cci < 2 && !b.running).map (·.code)).getD 0
    reply s cci.val 0x0002 .success code out)

/-- Whether the switch has reached step 4 of Table 3.19 on this module. -/
def switchPlayed (s : State) : Bool :=
  match s.loader.phase with
  | .played | .loading | .replayed | .marking => true
  | _ => false

/-- The fuse operations of a background command. -/
def fuseOpcode : FuseOp → Nat
  | .enroll _ _ => 0xC022 | .revoke _ => 0xC023 | .svn _ => 0xC024 | .debug => 0xC025

/-- Stop the background operation where the rules let it stop: a switch before step 4, a staging, an arming, a fuse operation
that is not written (R521, R607). -/
def abortBackground (s : State) (op : Nat) : Option State :=
  let c := evDckDiscarded.word uDeck
  match op with
  | 0xC014 =>
    if switchPlayed s then none
    else some (startRounds (endSwitch (logGen s evDckDiscarded uDeck none [w32 (stageNumber s.loader.stage)] []) c c))
  | 0xC012 => some (failStage s evDckDiscarded noOffset [w32 (stageNumber s.loader.stage)] [])
  | 0xC013 =>
    some (endBackground (modLoader (deckFault s evDckDiscarded noOffset [w32 5] []) fun l => { l with stage := .verified, armed := none })
      0xC013 .aborted c [])
  | 0xC022 | 0xC023 | 0xC024 | 0xC025 =>
    let s := { s with sec := { s.sec with fuseQueue := s.sec.fuseQueue.filter fun f => fuseOpcode f ≠ op } }
    some (endBackground s op .aborted 0 [])
  | _ => none

/-- REQUEST_ABORT_BACKGROUND_OPERATION. -/
def execRequestAbortBackgroundOperation (cci : Fin 2) (s : State) : Out :=
  .next (standard s cci.val fun s =>
    match s.background.filter (·.running) with
    | some b =>
      match abortBackground s b.opcode with
      | some s => replyOk s cci.val 0x0005 []
      | none => reply s cci.val 0x0005 .unsupported 0 []
    | none => reply s cci.val 0x0005 .invalidInput 0 [])

/-! ### Event logs (R525) -/

/-- The log of a number. -/
def getLogNo (s : State) (n : Nat) : EventLog := sget emptyLog s.logs n

/-- The handle of the record at a place of a log: never 0, and the same for as long as the record stays. -/
def handleAt (l : EventLog) (i : Nat) : Nat := (l.cleared + i) % 65535 + 1

/-- GET_EVENT_RECORDS: the overflow flag and count, and up to 31 records from the oldest. -/
def execGetEventRecords (cci : Fin 2) (log : Fin 4) (s : State) : Out :=
  .next (standard s cci.val fun s =>
    let l := getLogNo s log.val
    let rs := l.records.take 31
    let flags := (if l.overflow then 1 else 0) + (if 31 < l.records.length then 2 else 0)
    let head := leBytes 1 flags ++ leBytes 1 0 ++ leBytes 2 l.overflowCount ++ List.replicate 16 0 ++ leBytes 2 rs.length ++
      List.replicate 10 0
    let body := ((List.range rs.length).zip rs).flatMap fun e => recordBytes log.val (handleAt l e.1) e.2
    replyOk s cci.val 0x0100 (head ++ body))

/-- A log without its first `k` records. An emptied log forgets its overflow (R525). -/
def clearFirst (l : EventLog) (k : Nat) : EventLog :=
  let left := l.records.drop k
  { cleared := l.cleared + min k l.records.length, records := left, overflow := l.overflow && !left.isEmpty,
    overflowCount := if left.isEmpty then 0 else l.overflowCount }

/-- CLEAR_EVENT_RECORDS: all records of a log, or those that handles name. Handles that do not name the oldest records of the log in
their order are refused and clear nothing (PRESUMED from CXL 3.1). -/
def execClearEventRecords (cci : Fin 2) (log : Fin 4) (all : Bool) (handles : List W32) (s : State) : Out :=
  .next (standard s cci.val fun s =>
    let l := getLogNo s log.val
    let k := if all then l.records.length else handles.length
    let named := (List.range k).map fun i => w32 (handleAt l i)
    if !all && (l.records.length < k || handles ≠ named) then reply s cci.val 0x0101 .invalidHandle 0 []
    else replyOk { s with logs := sput emptyLog s.logs log.val (clearFirst l k) } cci.val 0x0101 [])

/-- GET_EVENT_INTERRUPT_POLICY. -/
def execGetEventInterruptPolicy (cci : Fin 2) (s : State) : Out :=
  .next (standard s cci.val fun s => replyOk s cci.val 0x0102 (padTo 4 s.host.policy))

/-- SET_EVENT_INTERRUPT_POLICY: one setting for each of the four logs. -/
def execSetEventInterruptPolicy (cci : Fin 2) (settings : List Byte) (s : State) : Out :=
  .next (standard s cci.val fun s =>
    if settings.length < 4 then reply s cci.val 0x0103 .invalidLength 0 []
    else replyOk (modHost s fun h => { h with policy := settings.take 4 }) cci.val 0x0103 [])

/-! ### Firmware (R549, R564, R565, R585, R596, R597) -/

/-- The image of a firmware slot, 0 A and 1 B. -/
def fwSlot (s : State) (k : Nat) : Option FwImage := if k = 0 then s.ctl.fw0 else s.ctl.fw1

/-- GET_FW_INFO: two slots, the running one and the one that waits for activation, online activation only. -/
def execGetFwInfo (cci : Fin 2) (s : State) : Out :=
  .next (standard s cci.val fun s =>
    let staged := if s.ctl.fwPhase = .none then 0 else 2 - s.ctl.bootSlot
    let name (k : Nat) : List Byte :=
      padTo 16 (((fwSlot s k).map fun f => leBytes 1 f.patch ++ leBytes 1 f.minor ++ leBytes 1 f.major).getD [])
    replyOk s cci.val 0x0200 (leBytes 1 2 ++ leBytes 1 (1 + s.ctl.bootSlot + 8 * staged) ++ leBytes 1 1 ++ List.replicate 13 0 ++
      name 0 ++ name 1))

/-- The fields of a firmware image (Table 18.2). -/
def parseFw (bs : List Byte) : FwImage :=
  { major := inByte bs 10, minor := inByte bs 9, patch := inByte bs 8, generation := inByte bs 11, svn := inField bs 12 2,
    deckMajor := inByte bs 14, digest := digestOf (cut bs 48 48), bytes := bs }

/-- The number of the first check of R597 that an image fails, or 0. Image bytes past LENGTH count as a failed DIGEST. -/
def fwFault (s : State) (bs : List Byte) : Nat :=
  let f := parseFw bs
  let len := inField bs 16 8
  if cut bs 0 8 ≠ [0x4E, 0x59, 0x44, 0x4C, 0x46, 0x57, 0x49, 0x4D] then 1
  else if f.generation ≠ 1 || cut bs 15 1 ≠ [0] || !zeroBytes bs 24 24 || !zeroBytes bs 288 32 || bs.length < 320 then 2
  else if hash384 (cut bs 192 96) ≠ s.sec.vendorHash then 3
  else if f.svn < s.sec.svnMin || 64 < f.svn then 4
  else if bs.length ≠ len || 2 ^ 25 < len ||
      hash384 (bs.take 48 ++ List.replicate 144 0 ++ bs.drop 192) ≠ f.digest then 5
  else if !ecdsaVerify f.digest.toNat (beNat (cut bs 96 48)) (beNat (cut bs 144 48)) (beNat (cut bs 192 48)) (beNat (cut bs 240 48))
    then 6
  else 0

/-- Set the image and the mark of a firmware slot. -/
def setFw (s : State) (k : Nat) (f : Option FwImage) (m : Mark) : State :=
  modCtl s fun c => if k = 0 then { c with fw0 := f, fwMark0 := m } else { c with fw1 := f, fwMark1 := m }

/-- TRANSFER_FW: step 1 of Table 17.5, into the slot that does not run. CXL slots 1 and 2 are A and B. -/
def execTransferFw (cci : Fin 2) (slot : Nat) (image : List Byte) (s : State) : Out :=
  .next (standard s cci.val fun s =>
    let k := slot - 1
    if slot = 0 || 2 < slot || k = s.ctl.bootSlot then reply s cci.val 0x0201 .invalidInput 0 []
    else if !(s.ctl.fwPhase = .none || s.ctl.fwPhase = .transferred) then reply s cci.val 0x0201 .busy 0 []
    else if !storeWindow s then
      refuseWith s cci.val 0x0201 evThmStoreWindow (uDiode 0) none [BitVec.ofInt 32 (getDiode s 0).temp] []
    else
      match fwFault s image with
      | 0 => replyOk (modCtl (setFw s k (some (parseFw image)) .empty) fun c => { c with fwPhase := .transferred }) cci.val 0x0201 []
      | n => reply (logGen s evSecFwRejected uMgmt none [w32 n] []) cci.val 0x0201 .authFailed 0 [])

/-- Misdeal's restart from step 2 of Table 17.1 with the new image (R565). -/
def restartBoot (s : State) (k : Nat) : State :=
  let s := logBare s evBupMisdealExit uMgmt
  let s := setFw (setFw s k (fwSlot s k) .active) (1 - k) (fwSlot s (1 - k)) .previous
  modCtl s fun c => { c with idState := .boot, fwPhase := .none, mediaReady := false }

/-- ACTIVATE_FW: steps 2 and 3 of Table 17.5 begin; only online activation of a transferred image is accepted. -/
def execActivateFw (cci : Fin 2) (online : Bool) (slot : Nat) (s : State) : Out :=
  .next (standard s cci.val fun s =>
    let k := slot - 1
    let ok := online && slot ≠ 0 && slot ≤ 2 && k ≠ s.ctl.bootSlot && s.ctl.fwPhase = .transferred &&
      ((fwSlot s k).any fun f => (deckOf s).isNone || f.deckMajor = 1)
    if !ok then reply s cci.val 0x0202 .invalidInput 0 []
    else if inMisdeal s then replyOk (restartBoot s k) cci.val 0x0202 []
    else replyOk (startDeadline (modCtl s fun c => { c with fwPhase := .loading, standbyReady := false }) .standbyLoad) cci.val 0x0202 [])

/-! ### Logs, maintenance and the memory device -/

/-- GET_SUPPORTED_LOGS: the Command Effects Log and the vendor debug log. -/
def execGetSupportedLogs (cci : Fin 2) (s : State) : Out :=
  .next (standard s cci.val fun s => replyOk s cci.val 0x0400 (leBytes 2 2 ++ List.replicate 6 0 ++ Config.standardBytes 0x0400))

/-- GET_LOG. -/
def execGetLog (cci : Fin 2) (vendorLog : Bool) (s : State) : Out :=
  .next (standard s cci.val fun s => replyOk s cci.val 0x0401 (Config.standardBytes (if vendorLog then 0x10401 else 0x0401)))

/-- PERFORM_MAINTENANCE: post-package repair of a row of a committed window (R524). -/
def execPerformMaintenance (cci : Fin 2) (soft : Bool) (dpa _disturbed : Nat) (s : State) : Out :=
  .next (standard s cci.val fun s =>
    if !inWindow s dpa then reply s cci.val 0x0600 .invalidInput 0 []
    else
      let p := placeOf s (addrOfDpa dpa)
      if soft then
        match softSpareHeld s p.stack p.bank p.row (2 ^ p.line) with
        | some s => replyOk (pendSpare s p.stack p.bank p.row (2 ^ p.line) true) cci.val 0x0600 []
        | none => reply s cci.val 0x0600 .invalidInput 0 []
      else
        let s := pendSpare s p.stack p.bank p.row (2 ^ p.line) true
        let listed := (getStack s p.stack).pendingSpare.any fun e => e.bank = p.bank && e.row = p.row
        reply s cci.val 0x0600 (if listed then .success else .invalidInput) 0 [])

/-- IDENTIFY_MEMORY_DEVICE: 1,152 units of 256 MiB, all volatile; 0 in misdeal (R501). -/
def execIdentifyMemoryDevice (cci : Fin 2) (s : State) : Out :=
  .next (standard s cci.val fun s =>
    let cap := if inMisdeal s then 0 else 1152
    replyOk s cci.val 0x4000 (padTo 16 (Config.standardBytes 0x4000) ++ leBytes 8 cap ++ leBytes 8 cap ++ leBytes 8 0 ++ leBytes 8 0 ++
      leBytes 2 1024 ++ leBytes 2 1024 ++ leBytes 2 1024 ++ leBytes 2 1024 ++ leBytes 4 0 ++ leBytes 3 256 ++ leBytes 2 0))

/-- The highest of the valid diode readings, in units of 0.25 °C (R545). -/
def hottest (s : State) : Int :=
  (List.range 9).foldl (fun (m : Int) d =>
    let k := getDiode s d
    if k.valid && !k.failed then max m k.temp else m) (-160)

/-- GET_HEALTH_INFO: the device temperature is the highest reading, in °C; the other fields are CXL's. -/
def execGetHealthInfo (cci : Fin 2) (s : State) : Out :=
  .next (standard s cci.val fun s =>
    let media := if s.ctl.mediaReady then 0 else 1
    let status := (if s.power.depthDie + s.power.depthNb0 + s.power.depthNb1 = 0 then 0 else 2) + (if inMisdeal s then 4 else 0)
    replyOk s cci.val 0x4200 (leBytes 1 status ++ leBytes 1 media ++ leBytes 1 0 ++ leBytes 1 0 ++
      leBytes 2 ((hottest s / 4) % 65536).toNat ++ Config.standardBytes 0x4200))

/-! ### Poison (R522) -/

/-- The lines of committed windows that the module has found poisoned or has refused. -/
def poisonList (s : State) : List Nat :=
  let found := s.host.mediaRecords ++ s.host.poisonLogged
  let refused := s.stackMap.flatMap fun e => e.2.refused.map lineDpa
  let bad (dpa : Nat) : Bool :=
    let line := addrOfDpa dpa / 64
    match kittyGet s line with
    | some c => c.poison ≠ 0
    | none => (readRaw s (linePlace s line)).poisoned
  (found.filter bad ++ refused).eraseDups.filter (inWindow s)

/-- A poison command, which misdeal does not accept (R564). -/
def poisonCommand (s : State) (cci op : Nat) (act : State → State) : State :=
  standard s cci fun s => if inMisdeal s then reply s cci op .unsupported 0 [] else act s

/-- GET_POISON_LIST: up to 256 records; the overflow flag is set beyond that. -/
def execGetPoisonList (cci : Fin 2) (s : State) : Out :=
  .next (poisonCommand s cci.val 0x4300 fun s =>
    let l := poisonList s
    replyOk s cci.val 0x4300 (leBytes 1 (if 256 < l.length then 2 else 0) ++ leBytes 1 0 ++ leBytes 8 0 ++
      leBytes 2 (min 256 l.length) ++ List.replicate 20 0 ++ (l.take 256).flatMap fun d => leBytes 8 d ++ leBytes 4 1 ++ leBytes 4 0))

/-- A poison command on a line: it waits for the back-invalidation of the line. -/
def poisonLine (s : State) (cci op dpa : Nat) (data : Option Line) : State :=
  poisonCommand s cci op fun s =>
    let key := dpa / 64 * 64
    if dpa % 64 ≠ 0 || !inWindow s dpa then reply s cci op .invalidInput 0 []
    else
      let s := replyOk s cci op []
      if (hostHolds s key).isSome || s.host.biPending.any (·.dpa = key) then backInvalidate s key (.poison key data)
      else runWaiter s (.poison key data)

/-- INJECT_POISON: a line is rewritten with its stored data and its poison flag set. -/
def execInjectPoison (cci : Fin 2) (dpa : Nat) (s : State) : Out := .next (poisonLine s cci.val 0x4301 dpa none)

/-- CLEAR_POISON: a full-line write of the 64 bytes given. -/
def execClearPoison (cci : Fin 2) (dpa : Nat) (data : Line) (s : State) : Out := .next (poisonLine s cci.val 0x4302 dpa (some data))

/-- MAILBOX_UNSUPPORTED: an opcode outside Tables 15.9 and 15.10. -/
def execMailboxUnsupported (cci : Fin 2) (opcode : Nat) (s : State) : Out :=
  .next (standard s cci.val fun s => reply s cci.val opcode .unsupported 0 [])

end Sys2Proof.Machine
end

