-- ==== Sys2Proof/Machine/Marks.lean ====
section
/-! DEFINITION. Dealer messages of lane 1 and the live switch at a member and at the dealer (R28, R29, R95 to R97, R353, R367,
R370 to R374, R402, R435, R581, R582). -/

namespace Sys2Proof.Machine

/-! ### What every dealer message passes first (R370, R402) -/

/-- Whether a message comes from the dealer of the group, which is the successor once it has taken the role (R34, R370). -/
def fromDealer (s : State) (d : Deck) (src : Nat) : Bool := src = dealerIndex s d

/-- Whether an ABORT comes from the dealer or from the successor: by the successor's ABORT a member learns that it has the role (R582). -/
def fromSuccessor (s : State) (d : Deck) (src : Nat) : Bool :=
  fromDealer s d src || (src = d.role.successor && d.role.members.any fun e => e.1 = src)

/-- The tests of a frame of lane 1 before it is accepted: no poison, the right group, a SRC that holds the dealer role. -/
def takeDealer (s : State) (port : Option Nat) (hdr : FrameHdr) (b : FrameBody) (group : W32) (ok : State → Deck → Nat → Bool)
    (act : State → Deck → State) : State :=
  match switchDeck s with
  | none => s
  | some d =>
    if hdr.poison then logGen s evSynMsgPoison (ingressUnit port 0) none [] []
    else if group ≠ d.role.group then violation s port reasonGroup (frameOf hdr b)
    else if !ok s d hdr.src then s
    else act s d

/-- Forward a dealer message that this module accepts to its children, with the SRC and the generation that it carries (R370). -/
def forwardDown (s : State) (hdr : FrameHdr) (b : FrameBody) : State :=
  (switchDeck s).elim s fun d =>
    (childrenOf s d (ownIndex s)).foldl (fun s m => routeFrame s hdr.cls { hdr := { hdr with dest := m }, body := b }) s

/-! ### Round marks (R28, R29, R371) -/

/-- A member accepts a round mark: the round opens, or the mark waits for the release of the round before it. -/
def acceptMark (s : State) (table : Nat) (round : W32) : State :=
  let s := { s with lastRound := round }
  let s :=
    if (getRound s table).isOpen || marksHeld s then
      modRound s table fun r => { r with heldMark := some round, heldAt := s.meter.toNat, heldExpired := false, parts := [] }
    else memberWrite (openRound s table round) table
  raiseRecheck s

/-- ROUND_MARK at a member: accepted if its GEN is current and its ROUND ahead, forwarded, and acted on; any other is dropped and counted
(R370, R371, R567). -/
def takeRoundMark (s : State) (port : Option Nat) (hdr : FrameHdr) (group round : W32) : State :=
  takeDealer s port hdr (.roundMark group round) group fromDealer fun s _ =>
    if hdr.gen ≠ s.gen || !aheadOf round s.lastRound || s.ctl.awaitAlign || isDealer s then lateDrop s
    else acceptMark (forwardDown s hdr (.roundMark group round)) hdr.table round

/-- ROUND_MARK: a round mark arrives. -/
def execRoundMark (hdr : FrameHdr) (group round : W32) (s : State) : Out := .next (takeRoundMark s none hdr group round)

/-! ### Aborts (R372, R373, R581, R582) -/

/-- ABORT_REQ at its destination: the dealer aborts for a request of its generation; the successor starts to probe. -/
def takeAbortReq (s : State) (port : Option Nat) (hdr : FrameHdr) (group code : W32) : State :=
  match deckOf s with
  | none => s
  | some d =>
    if hdr.poison then logGen s evSynMsgPoison (ingressUnit port 0) none [] []
    else if group ≠ d.role.group then violation s port reasonGroup (frameOf hdr (.abortReq group code))
    else if hdr.gen ≠ s.gen then lateDrop s
    else if isDealer s then groupAbort s hdr.src code
    else if ownIndex s = d.role.successor then
      beginProbes s code
    else s

/-- ABORT_REQ: forwarded by its route, or acted on at its destination. -/
def execAbortReq (hdr : FrameHdr) (group code : W32) (s : State) : Out :=
  .next (if hdr.dest = ownIndex s then takeAbortReq s none hdr group code
         else routeFrame s 0 (frameOf hdr (.abortReq group code)))

/-- ABORT at a member: accepted if its GEN differs from the current one; then forwarded and adopted. A member that learns of a new dealer
asks it for admission (R566, R582). -/
def takeAbort (s : State) (port : Option Nat) (hdr : FrameHdr) (origin : Nat) (group code : W32) : State :=
  takeDealer s port hdr (.abort origin group code) group fromSuccessor fun s d =>
    let q := learnDealer s d hdr.src
    let s := q.1
    if hdr.gen = s.gen || isDealer s then s
    else
      let s := forwardDown s hdr (.abort origin group code)
      let s := modCtl (adoptAbort s hdr.gen code) fun c => { c with probing := false, probesMissed := 0 }
      let s := openHeld s
      if q.2 then sendJoin s else s

/-- ABORT: a member adopts the abort's generation and prepares for the replay. -/
def execAbort (hdr : FrameHdr) (origin : Nat) (group code : W32) (s : State) : Out := .next (takeAbort s none hdr origin group code)

/-! ### The live switch (R95 to R97) -/

/-- SWITCH_ANNOUNCE at a member; one that is no longer ARMED answers "not armed" (R93). -/
def takeAnnounce (s : State) (port : Option Nat) (hdr : FrameHdr) (group serial : W32) : State :=
  takeDealer s port hdr (.switchAnnounce group serial) group fromDealer fun s _ =>
    let s := forwardDown s hdr (.switchAnnounce group serial)
    if s.loader.phase ≠ .none then s
    else if s.loader.armed.any fun a => a.id.serial = serial then acceptAnnounce s
    else answerSwitch s

/-- SWITCH_ANNOUNCE: a member holds further marks and plays the switch trick after its round. -/
def execSwitchAnnounce (hdr : FrameHdr) (group serial : W32) (s : State) : Out := .next (takeAnnounce s none hdr group serial)

/-- SWITCH_CANCEL at a member: its play is withdrawn and it accepts round marks again. -/
def takeCancel (s : State) (port : Option Nat) (hdr : FrameHdr) (group code : W32) : State :=
  takeDealer s port hdr (.switchCancel group code) group fromDealer fun s _ =>
    openHeld (cancelSwitch (forwardDown s hdr (.switchCancel group code)))

/-- SWITCH_CANCEL: a member withdraws from the switch. -/
def execSwitchCancel (hdr : FrameHdr) (group code : W32) (s : State) : Out := .next (takeCancel s none hdr group code)

/-- Whether a member's deck is the dealer's: equal ID, serial and D, and ARMED. -/
def sameDeck (a : DeckId) (m : SwitchState) : Bool :=
  m.armed && m.id.deckId = a.deckId && m.id.serial = a.serial && m.id.digest = a.digest

/-- Step 3, once every member has answered: the announce, or the end of the switch (R96). -/
def gatherDone (s : State) (d : Deck) : State :=
  match s.loader.armed with
  | none => peerMismatch s (ownIndex s)
  | some a =>
    match s.loader.gathered.find? fun m => !sameDeck a.id m.2 with
    | some m => peerMismatch s m.1
    | none => acceptAnnounce (switchDown s (.switchAnnounce d.role.group a.id.serial))

/-- SWITCH_GATHER_REPLY: a member's state reaches the dealer. A "not armed" that comes after the announce ends the switch as at step
3 (DEDUCED from R93 and R96). -/
def takeGatherReply (s : State) (member : Nat) (st : SwitchState) : State :=
  match switchDeck s with
  | none => s
  | some d =>
    if !(otherMembers s d).contains member then s
    else if (s.loader.phase = .announced || s.loader.phase = .played) && switchRoot s && !st.armed then peerMismatch s member
    else if s.loader.phase ≠ .gathering then s
    else
      let s := modLoader s fun l => { l with gathered := l.gathered.filter (fun e => e.1 ≠ member) ++ [(member, st)] }
      if (otherMembers s d).all fun m => s.loader.gathered.any fun e => e.1 = m then gatherDone s d else s

/-- SWITCH_GATHER_REPLY: a member's answer of step 2. -/
def execSwitchGatherReply (member : Nat) (st : SwitchState) (s : State) : Out := .next (takeGatherReply s member st)

/-- SWITCH_GATHER_TIMEOUT: step 2 has exceeded 10 local ms. -/
def execSwitchGatherTimeout (s : State) : Out :=
  match switchDeck s with
  | none => .next s
  | some d =>
    if s.loader.phase ≠ .gathering then .next s
    else
      let left := ((otherMembers s d).filter fun m => !s.loader.gathered.any fun e => e.1 = m).length
      let c := evDckSwitchTimeout.word uDeck
      let s := expire s .gather (10 * countsMs)
      .next (startRounds (endSwitch (logGen s evDckSwitchTimeout uDeck none [w32 left] []) c c))

/-- SWITCH_LOAD_DONE: the load of step 6 ends. A member that cannot complete it enters group recovery under the new deck
(R97, R402). -/
def execSwitchLoadDone (failed : Bool) (s : State) : Out :=
  if s.loader.phase ≠ .loading then .next s
  else if failed then
    .next (abortAndRecover (deckFault s evDckSwitchCommit noOffset [] []) .wholeModule (evDckSwitchCommit.word uDeck))
  else .next (loadDone s)

end Sys2Proof.Machine
end

