-- ==== Sys2Proof/Machine/SecurityCommands.lean ====
section
/-! DEFINITION. The security commands of the mailbox, nonces, and the writing of security fuses (R593, R595, R598, R606 to R611;
Tables 18.1, 18.5). -/

namespace Sys2Proof.Machine

/-! ### Nonces (R610) -/

/-- SEC_NONCE_GET: a fresh 16-byte nonce for the interface that asks. -/
def execSecNonceGet (cci : Fin 2) (input : List Byte) (s : State) : Out :=
  .next (vendor s cci.val 0xC020 input 0 noReserved false fun s _ =>
    let a := takeFree s
    let b := takeFree a.2
    let n : BitVec 128 := b.1 ++ a.1
    let s := startDeadline b.2 (.nonce cci.val)
    replyOk { s with sec := { s.sec with nonces := sput none s.sec.nonces cci.val (some n) } } cci.val 0xC020
      (leBytes 16 n.toNat))

/-- NONCE_EXPIRY: an unused nonce expires. -/
def execNonceExpiry (cci : Fin 2) (s : State) : Out :=
  let s := expire s (.nonce cci.val) (60 * countsSec)
  .next { s with sec := { s.sec with nonces := sput none s.sec.nonces cci.val none } }

/-! ### Owner slots (R593, R606) -/

/-- OWNER_STATE: two bits for each slot. -/
def ownerStateByte (s : State) : Nat := ((List.range 4).map fun k => sget 0 s.sec.ownerState k * 4 ^ k).sum

/-- SEC_KEY_STATE: OWNER_STATE, the count of SVN_MIN, the DEBUG state and the four owner hashes (DESIGN CHOICE of layout). -/
def execSecKeyState (cci : Fin 2) (input : List Byte) (s : State) : Out :=
  .next (vendor s cci.val 0xC021 input 0 noReserved false fun s _ =>
    replyOk s cci.val 0xC021 (leBytes 1 (ownerStateByte s) ++ leBytes 1 s.sec.svnMin ++ leBytes 1 s.sec.debug ++ List.replicate 5 0 ++
      (List.range 4).flatMap fun k => digestBytes (sget 0 s.sec.ownerHash k)))

/-- The enrolled slots. -/
def enrolledSlots (s : State) : List Nat := (List.range 4).filter (enrolled s)

/-- A fuse operation of a background command waits for the compute die's fuse window (R550, R607). -/
def queueFuse (s : State) (cci op : Nat) (f : FuseOp) : State :=
  let s := startBg { s with sec := { s.sec with fuseQueue := s.sec.fuseQueue ++ [f] } } cci op
  noteFuseWait s

/-- SEC_OWNER_ENROLL: a key hash goes into an empty slot once the fuse is written. Where no slot is enrolled Velyrith's key signs,
else an enrolled key. -/
def execSecOwnerEnroll (cci : Fin 2) (input : List Byte) (s : State) : Out :=
  let who (_ : List Byte) (k : Nat) : Bool := if (enrolledSlots s).isEmpty then k = 0xFF else k < 4
  .next (signed s cci.val 0xC022 input 56 (zeroBytes · 1 7) true who fun s own =>
    let slot := inByte own 0
    if 4 ≤ slot || sget 0 s.sec.ownerState slot ≠ 0 then refuse s cci.val 0xC022 0
    else queueFuse s cci.val 0xC022 (.enroll slot (digestOf (cut own 8 48))))

/-- SEC_OWNER_REVOKE: a slot is revoked once the fuse is written. Another enrolled slot's key signs; a revocation of the last enrolled
slot is refused whichever enrolled key signs it (DEDUCED: with one slot no other key could sign, and SEC_LAST_SLOT would never be seen). -/
def execSecOwnerRevoke (cci : Fin 2) (input : List Byte) (s : State) : Out :=
  let last (slot : Nat) : Bool := enrolledSlots s = [slot]
  let who (own : List Byte) (k : Nat) : Bool := k < 4 && (k ≠ inByte own 0 || last (inByte own 0))
  .next (signed s cci.val 0xC023 input 8 (zeroFrom · 1) true who fun s own =>
    let slot := inByte own 0
    if last slot then refuseWith s cci.val 0xC023 evSecLastSlot uMgmt none [w32 slot] []
    else if !enrolled s slot then refuse s cci.val 0xC023 0
    else queueFuse s cci.val 0xC023 (.revoke slot))

/-! ### SVN_MIN and DEBUG (R595, R598) -/

/-- The firmware slot that runs: from the takeover of an online activation on, the new one (Table 17.5). 2 stands for the boot ROM's
own minimal firmware (R558). -/
def runSlot (s : State) : Nat :=
  match s.ctl.fwPhase with
  | .probation | .reloading => 1 - s.ctl.bootSlot
  | _ => s.ctl.bootSlot

/-- The running firmware image, where a slot's image runs. -/
def runningFw (s : State) : Option FwImage := if runSlot s < 2 then fwSlot s (runSlot s) else none

/-- SEC_SVN_ADVANCE: SVN_MIN rises to the running image's version, unless the other slot's image would then fail. -/
def execSecSvnAdvance (cci : Fin 2) (input : List Byte) (s : State) : Out :=
  .next (signed s cci.val 0xC024 input 0 noReserved true (fun _ => anyOwner) fun s _ =>
    let svn := ((runningFw s).map (·.svn)).getD s.sec.svnMin
    if (fwSlot s (1 - runSlot s)).any fun f => f.svn < svn then
      refuseWith s cci.val 0xC024 evSecSvnRefused uMgmt none [w32 svn] []
    else queueFuse s cci.val 0xC024 (.svn svn))

/-- SEC_DEBUG_UNLOCK: Velyrith's key only. PERMANENT 1 fuses DEBUG; PERMANENT 0 writes the one-shot record at once. -/
def execSecDebugUnlock (cci : Fin 2) (input : List Byte) (s : State) : Out :=
  .next (signed s cci.val 0xC025 input 8 (fun own => inByte own 0 < 2 && zeroFrom own 1) false (fun _ k => k = 0xFF) fun s own =>
    if inByte own 0 = 1 then
      if bgBusy s then reply s cci.val 0xC025 .busy 0 [] else queueFuse s cci.val 0xC025 .debug
    else
      let s := { s with sec := { s.sec with unlockRecord := true } }
      replyOk (logGen s evSecDebugUnlocked uMgmt none [w32 0] []) cci.val 0xC025 [])

/-! ### Writing the fuses (R607, R608) -/

/-- A revocation's effect on the deck loader: a staged, verified or armed deck of the slot is gone; one whose switch trick has been
played completes its switch. -/
def dropRevoked (s : State) (slot : Nat) : State :=
  let id := (s.loader.armed.orElse fun _ => s.loader.staged).map (·.id.keySlot)
  let named := id.getD (inByte (if s.loader.stageSlot = 0 then s.loader.slot0 else s.loader.slot1) 28)
  let holds := s.loader.stage ≠ .empty && s.loader.stage ≠ .staging
  if !holds || named ≠ slot || switchPlayed s then s
  else
    let s := if s.loader.phase = .none then s else answerSwitch (dropStaged (cancelSwitch s))
    logGen (dropStaged s) evSecStagedRevoked uMgmt none [w32 slot] []

/-- One fuse operation is written. A fuse that is set stays set, so a written field is the old one with more bits set (Table 18.1). -/
def writeFuse (s : State) (f : FuseOp) : State :=
  match f with
  | .enroll slot h =>
    let s := { s with sec := { s.sec with
      ownerHash := sput 0 s.sec.ownerHash slot (sget 0 s.sec.ownerHash slot ||| h),
      ownerState := sput 0 s.sec.ownerState slot (sget 0 s.sec.ownerState slot ||| 1) } }
    endBackground (logGen s evSecOwnerEnrolled uMgmt none [w32 slot] []) 0xC022 .success 0 []
  | .revoke slot =>
    let s := { s with sec := { s.sec with ownerState := sput 0 s.sec.ownerState slot (sget 0 s.sec.ownerState slot ||| 3) } }
    dropRevoked (endBackground (logGen s evSecOwnerRevoked uMgmt none [w32 slot] []) 0xC023 .success 0 []) slot
  | .svn n =>
    let s := { s with sec := { s.sec with svnMin := max s.sec.svnMin n } }
    endBackground (logGen s evSecSvnAdvanced uMgmt none [w32 s.sec.svnMin] []) 0xC024 .success 0 []
  | .debug =>
    let s := { s with sec := { s.sec with debugFuse := 3 } }
    endBackground (logGen s evSecDebugUnlocked uMgmt none [w32 1] []) 0xC025 .success 0 []

/-- FUSE_WRITE: the oldest pending security fuse operation is written, once the compute die is in its fuse window. -/
def execFuseWrite (s : State) : Out :=
  match s.sec.fuseQueue with
  | f :: r =>
    if s.power.inputOn && fuseWindow s 0 then .next (writeFuse { s with sec := { s.sec with fuseQueue := r } } f)
    else .next s
  | [] => .next s

end Sys2Proof.Machine
end

