-- ==== Sys2Proof/Machine/Attest.lean ====
section
/-! DEFINITION. The SPDM responder and the keys of link encryption (R602 to R605; Tables 18.3, 18.4). The SPDM message codes and
capability bits are those of the SPDM standard (PRESUMED). -/

namespace Sys2Proof.Machine

/-! ### Answers -/

/-- Answer an SPDM request. Without input power nothing answers. -/
def spdm (s : State) (act : State → State) : State := if s.power.inputOn then act s else s

/-- An SPDM ERROR response. -/
def spdmError (s : State) (e : Byte) : State := toHost s (.spdm 0x7F [e, 0])
/-- UnexpectedRequest: a request out of its order. -/
def spdmUnexpected (s : State) : State := spdmError s 0x04
/-- InvalidRequest. -/
def spdmInvalid (s : State) : State := spdmError s 0x01

/-- Erase every IDE key set and the secure session (R605). -/
def loseSession (s : State) : State :=
  { s with sec := { s.sec with spdmSession := false, spdmHandshake := false, keySets := [], keyActive := [] } }

/-- A free value of 384 bits: the hash of a transcript, whose form the SPDM standard gives. -/
def freeHash (s : State) : BitVec 384 × State :=
  let r := (List.range 6).foldl (fun (a : BitVec 384 × State) _ =>
    let v := takeFree a.2
    (a.1 <<< 64 ||| v.1.setWidth 384, v.2)) (0, s)
  r

/-- A free value of 32 bytes: the responder's own nonce or random data. -/
def freeNonce (s : State) : List Byte × State :=
  (List.range 4).foldl (fun (a : List Byte × State) _ =>
    let v := takeFree a.2
    (a.1 ++ leBytes 8 v.1.toNat, v.2)) ([], s)

/-- A response signed with the alias key. -/
def signedResponse (s : State) (code : Nat) (body : List Byte) : State :=
  let h := freeHash s
  toHost h.2 (.spdm code (body ++ Config.aliasSign s.sec.cdi h.1))

/-! ### Connection set-up -/

/-- SPDM_GET_VERSION: versions 1.2 and 1.3; the connection begins anew. -/
def execSpdmGetVersion (s : State) : Out :=
  .next (spdm s fun s =>
    let s := loseSession s
    toHost { s with sec := { s.sec with spdmVersion := true, spdmCaps := false, spdmAlgs := false } }
      (.spdm 0x04 [0, 2, 0x00, 0x12, 0x00, 0x13]))

/-- SPDM_GET_CAPABILITIES: CERT, CHAL, MEAS with signature, ENCRYPT, MAC, KEY_EX, HBEAT and CHUNK. -/
def execSpdmGetCapabilities (s : State) : Out :=
  .next (spdm s fun s =>
    if !s.sec.spdmVersion then spdmUnexpected s
    else toHost { s with sec := { s.sec with spdmCaps := true } } (.spdm 0x61 (leBytes 4 0x222D6)))

/-- SPDM_NEGOTIATE_ALGORITHMS: ECDSA P-384 and SHA-384. -/
def execSpdmNegotiateAlgorithms (s : State) : Out :=
  .next (spdm s fun s =>
    if !s.sec.spdmCaps then spdmUnexpected s
    else toHost { s with sec := { s.sec with spdmAlgs := true } } (.spdm 0x63 (leBytes 4 0x80 ++ leBytes 4 0x02)))

/-! ### Certificates and challenges -/

/-- SPDM_GET_DIGESTS: slot 0 is the only slot that is not empty. -/
def execSpdmGetDigests (s : State) : Out :=
  .next (spdm s fun s =>
    if !s.sec.spdmAlgs then spdmUnexpected s
    else toHost s (.spdm 0x01 ([0x01] ++ sha384 (Config.certChain s.sec.cdi))))

/-- SPDM_GET_CERTIFICATE: the chain of slot 0. -/
def execSpdmGetCertificate (slot : Nat) (s : State) : Out :=
  .next (spdm s fun s =>
    if !s.sec.spdmAlgs then spdmUnexpected s
    else if slot ≠ 0 then spdmInvalid s
    else toHost s (.spdm 0x02 (Config.certChain s.sec.cdi)))

/-- SPDM_CHALLENGE: signed with the alias key. -/
def execSpdmChallenge (slot : Nat) (nonce : List Byte) (s : State) : Out :=
  .next (spdm s fun s =>
    if !s.sec.spdmAlgs then spdmUnexpected s
    else if slot ≠ 0 || nonce.length ≠ 32 then spdmInvalid s
    else
      let n := freeNonce s
      signedResponse n.2 0x03 (sha384 (Config.certChain s.sec.cdi) ++ n.1))

/-! ### Measurements (Table 18.4, R604) -/

/-- The running deck's identity, once it has been installed at step 6 of Table 3.19. -/
def measuredDeck (s : State) : Option Deck := s.loader.running

/-- The value of a measurement block: whether it is a digest, and its bytes. Without a running image or deck a block of one is empty
(DESIGN CHOICE). -/
def measurement (s : State) (i : Nat) : Option (Bool × List Byte) :=
  match i with
  | 1 => some (true, digestBytes Config.bootRomDigest)
  | 2 => some (false, ((runningFw s).map fun f => digestBytes f.digest).getD [])
  | 3 => some (false, ((runningFw s).map fun f => leBytes 1 f.patch ++ leBytes 1 f.minor ++ leBytes 1 f.major ++ leBytes 2 f.svn).getD [] ++
      leBytes 1 s.sec.svnMin)
  | 4 => some (false, ((measuredDeck s).map fun d => digestBytes d.id.digest).getD [])
  | 5 => some (false, ((measuredDeck s).map fun d =>
      leBytes 8 d.id.deckId.toNat ++ leBytes 4 d.id.serial.toNat ++ leBytes 1 d.id.keySlot ++ d.annotation.take 64).getD [])
  | 6 => some (true, sha384 (((List.range 4).flatMap fun k => digestBytes (sget 0 s.sec.ownerHash k)) ++ leBytes 1 (ownerStateByte s)))
  | 7 => some (false, leBytes 1 s.sec.debug)
  | 8 => some (false, leBytes 2 (ownIndex s))
  | _ => none

/-- A block as a DMTF measurement: its index, the DMTF specification, a size, the value's type and size, and the value. -/
def measurementBlock (s : State) (i : Nat) : List Byte :=
  match measurement s i with
  | none => []
  | some (digest, v) =>
    let type := (if digest then 0 else 0x80) + (if i = 1 then 0 else if i = 2 || i = 3 then 1 else 3)
    leBytes 1 i ++ [1] ++ leBytes 2 (3 + v.length) ++ leBytes 1 type ++ leBytes 2 v.length ++ v

/-- SPDM_GET_MEASUREMENTS: index 0 asks for the number of blocks, 255 for all of them; all blocks of one response are read in one
state. -/
def execSpdmGetMeasurements (index : Nat) (signed_ : Bool) (nonce : List Byte) (s : State) : Out :=
  .next (spdm s fun s =>
    if !s.sec.spdmAlgs then spdmUnexpected s
    else if (signed_ && nonce.length ≠ 32) || (8 < index && index ≠ 255) then spdmInvalid s
    else
      let is := if index = 0 then [] else if index = 255 then [1, 2, 3, 4, 5, 6, 7, 8] else [index]
      let n := freeNonce s
      let body := (if index = 0 then [8, 0] else leBytes 1 0 ++ leBytes 1 is.length) ++ is.flatMap (measurementBlock s) ++ n.1
      if signed_ then signedResponse n.2 0x60 body else toHost n.2 (.spdm 0x60 body))

/-! ### The secure session -/

/-- SPDM_KEY_EXCHANGE: the handshake of a secure session begins. -/
def execSpdmKeyExchange (slot : Nat) (exchange : List Byte) (s : State) : Out :=
  .next (spdm s fun s =>
    if !s.sec.spdmAlgs then spdmUnexpected s
    else if slot ≠ 0 || exchange.length ≠ 96 then spdmInvalid s
    else
      let n := freeNonce { s with sec := { s.sec with spdmHandshake := true } }
      signedResponse n.2 0x64 n.1)

/-- SPDM_FINISH: the session is established where its verify data match. -/
def execSpdmFinish (verify : List Byte) (s : State) : Out :=
  .next (spdm s fun s =>
    if !s.sec.spdmHandshake then spdmUnexpected s
    else if Config.finishMatches verify then
      toHost { s with sec := { s.sec with spdmHandshake := false, spdmSession := true } } (.spdm 0x65 [])
    else spdmError { s with sec := { s.sec with spdmHandshake := false } } 0x06)

/-- SPDM_HEARTBEAT. -/
def execSpdmHeartbeat (s : State) : Out :=
  .next (spdm s fun s => if s.sec.spdmSession then toHost s (.spdm 0x68 []) else spdmUnexpected s)

/-- SPDM_END_SESSION: the session's key sets are erased. -/
def execSpdmEndSession (s : State) : Out :=
  .next (spdm s fun s => if s.sec.spdmSession then toHost (loseSession s) (.spdm 0x6C []) else spdmUnexpected s)

/-- SPDM_SESSION_LOSS: the session is lost. -/
def execSpdmSessionLoss (s : State) : Out := .next (loseSession s)

/-! ### IDE keys (R605) -/

/-- The number of a stream's direction. -/
def keyWay (stream dir : Nat) : Nat := 2 * stream + dir
/-- The number of a key set. -/
def keySlotOf (stream dir set : Nat) : Nat := 2 * keyWay stream dir + set
/-- Whether the numbers name a key set: streams 0 CXL.io and 1 CXL.cachemem, two directions, two sets. -/
def keyNamed (stream dir set : Nat) : Bool := stream < 2 && dir < 2 && set < 2

/-- IDE_KEY_PROG: an AES-GCM-256 key is taken over a secure session only. -/
def execIdeKeyProg (stream dir set : Nat) (key : List Byte) (s : State) : Out :=
  if s.sec.spdmSession && keyNamed stream dir set && key.length = 32 then
    .next { s with sec := { s.sec with keySets := sput none s.sec.keySets (keySlotOf stream dir set) (some key) } }
  else .next s

/-- KEY_SET_GO: the named set takes effect at the next flit boundary of its direction. Keys that are set again end the insecure
state (Table 15.14). -/
def execKeySetGo (stream dir set : Nat) (s : State) : Out :=
  if s.sec.spdmSession && keyNamed stream dir set && (sget none s.sec.keySets (keySlotOf stream dir set)).isSome then
    .next (modHost { s with sec := { s.sec with keyActive := sput none s.sec.keyActive (keyWay stream dir) (some set) } }
      fun h => { h with ideInsecure := h.ideInsecure &&& ~~~(BitVec.ofNat 2 (2 ^ stream)) })
  else .next s

/-- KEY_SET_STOP: the key set is erased. -/
def execKeySetStop (stream dir set : Nat) (s : State) : Out :=
  if s.sec.spdmSession && keyNamed stream dir set then
    let w := keyWay stream dir
    .next { s with sec := { s.sec with
      keySets := sput none s.sec.keySets (keySlotOf stream dir set) none,
      keyActive := if sget none s.sec.keyActive w = some set then sput none s.sec.keyActive w none else s.sec.keyActive } }
  else .next s

end Sys2Proof.Machine
end

