-- ==== Sys2Proof/Machine/GroupEvents.lean ====
section
/-! DEFINITION. Group messages and group timers: admission, alignment, READY, repair windows, probes, the loss of a member or of the
dealer, budgets and stalls of rounds (R34, R312, R417, R441, R566, R567, R571, R574, R581 to R583, R587, R588). -/

namespace Sys2Proof.Machine

/-- Whether a group message concerns this module's group. -/
def ownGroup (s : State) (m : GroupMsg) : Bool := (deckOf s).any fun d => d.role.group = m.group

/-- Note a member as ready. -/
def noteReady (s : State) (src : Nat) : State :=
  modCtl s fun c => { c with readyFrom := c.readyFrom.filter (· ≠ src) ++ [src] }

/-! ### Admission (R566, R567) -/

/-- JOIN at the dealer. A deck that differs is refused. A member that comes back while the group recovers or is held counts
as ready; one that comes back at any other time is sent the values in force. -/
def takeJoin (s : State) (src : Nat) (m : GroupMsg) : State :=
  match deckOf s with
  | none => s
  | some d =>
    if !isDealer s || !ownGroup s m || !(otherMembers s d).contains src then s
    else if m.deckId ≠ d.id.deckId || m.deckSerial ≠ d.id.serial then deckFault s evDckPeerMismatch noOffset [w32 src] []
    else
      let s := holdPart s src m
      if !groupHeld s.ctl.joined src 1 then s
      else if s.ctl.group = .forming && !s.ctl.awaitAlign then tryForm s
      else if (s.ctl.group = .recovering || s.ctl.group = .held) && !s.ctl.awaitAlign then
        checkReady (noteReady (dropParts s src 1) src)
      else sendGroup (dropParts s src 1) src (groupParts s d 2 0 (spanningPairs s d))

/-- JOIN: the dealer admits or refuses a member. -/
def execJoin (src : Nat) (m : GroupMsg) (s : State) : Out := .next (takeJoin s src m)

/-- ALIGN at a member; a lost dealer that finds the successor in its role joins as a member (R582). -/
def takeAlign (s : State) (src : Nat) (m : GroupMsg) : State :=
  match deckOf s with
  | none => s
  | some d =>
    if !ownGroup s m || !fromDealer s d src || src = ownIndex s then s
    else
      let s := holdPart s src m
      if groupHeld s.ctl.joined src 2 then openHeld (adoptAlign (learnDealer s d src).1 d src) else s

/-- ALIGN: a member adopts the group's generation and epochs and sends READY. -/
def execAlign (src : Nat) (m : GroupMsg) (s : State) : Out := .next (takeAlign s src m)

/-- READY at the dealer, with its current GEN (R574). -/
def takeReady (s : State) (src : Nat) (m : GroupMsg) : State :=
  if !isDealer s || !ownGroup s m || m.gen ≠ s.gen then s else checkReady (noteReady s src)

/-- READY: a member's READY reaches the dealer. -/
def execReady (src : Nat) (m : GroupMsg) (s : State) : Out := .next (takeReady s src m)

/-! ### Repair windows (R587, R588) -/

/-- WINDOW_OPEN: a member starts its window; the dealer takes it as a member's request for one. -/
def takeWindowOpen (s : State) (m : GroupMsg) : State :=
  if !ownGroup s m then s
  else if isDealer s then openWindow (modCtl s fun c => { c with windowAsked := true })
  else workWindow (modCtl s fun c => { c with group := if c.group = .serving then .window else c.group })

/-- WINDOW_OPEN: a member starts its repair window actions. -/
def execWindowOpen (m : GroupMsg) (s : State) : Out := .next (takeWindowOpen s m)

/-- WINDOW_DONE at the dealer. -/
def takeWindowDone (s : State) (src : Nat) (m : GroupMsg) : State :=
  match deckOf s with
  | none => s
  | some d => if isDealer s && ownGroup s m && s.ctl.windowOpen then windowFrom s d src else s

/-- WINDOW_DONE: a member's window end reaches the dealer. -/
def execWindowDone (src : Nat) (m : GroupMsg) (s : State) : Out := .next (takeWindowDone s src m)

/-- REPAIR_WINDOW_PERIOD: WINDOW_PERIOD closed rounds have passed; a period of 0 opens none. -/
def execRepairWindowPeriod (s : State) : Out :=
  match deckOf s with
  | none => .next s
  | some d =>
    if isDealer s && d.spare.windowPeriod ≠ 0 && d.spare.windowPeriod ≤ s.ctl.roundsSinceWindow && !s.ctl.windowOpen then
      .next (openWindow (modCtl s fun c => { c with windowAsked := true }))
    else .next s

/-- The WINDOW_BUDGET of the running deck; a window without a deck has no limit (R588, R596). -/
def windowBudget (s : State) : Nat := ((deckOf s).map (·.spare.windowBudget)).getD 0

/-- WINDOW_BUDGET_EXPIRY: a member's window that its budget stopped ends. -/
def execWindowBudgetExpiry (s : State) : Out :=
  .next (if s.ctl.windowOpen && !s.ctl.windowDone.contains (ownIndex s) then endWindow (expire s .window (windowBudget s)) else s)


/-! ### Losing the dealer (R417, R581) -/

/-- PROBE: the dealer answers the successor. -/
def takeProbe (s : State) (src : Nat) (m : GroupMsg) : State :=
  match deckOf s with
  | none => s
  | some d => if isDealer s && ownGroup s m then sendGroup s src (groupParts s d 7 0 []) else s

/-- PROBE: the dealer answers with PROBE_ACK. -/
def execProbe (src : Nat) (m : GroupMsg) (s : State) : Out := .next (takeProbe s src m)

/-- PROBE_ACK: the dealer lives. -/
def takeProbeAck (s : State) (m : GroupMsg) : State :=
  if ownGroup s m then modCtl s fun c => { c with probesMissed := 0 } else s

/-- PROBE_ACK: the successor learns that the dealer lives. -/
def execProbeAck (m : GroupMsg) (s : State) : Out := .next (takeProbeAck s m)

/-- The sessions of the lost dealer end: the next round lists close every shadow, one entry is logged per table, and the
prefix tree is built again (R417, R472). -/
def endShadows (s : State) (d : Deck) : State :=
  let s := d.tables.foldl (fun s e =>
    let hs := (s.sessions.filter fun x => x.2.state = .shadow && x.2.table = e.table).map fun x => x.2.key
    let js := (s.cache.jobs.filter fun j => j.table = e.table).map fun j => j.session + guestTag
    let s := (hs ++ js).foldl dropFollow s
    let s := modRound s e.table fun r => { r with closes := r.closes ++ hs ++ js, slots := [], again := false, verdictDue := false }
    if hs = [] then s else logGen s evSrvSessionLost uCtl (some e.table) [w32 e.table, w32 hs.length] []) s
  startRebuild s 1 fun _ => true

/-- The successor declares the dealer lost and takes its role: it sets a new generation, aborts, and forms the group again
without the lost module. -/
def assumeRole (s : State) (d : Deck) : State :=
  let s := logGen s evBupDealerLost uCtl none [w32 d.role.dealer] []
  let code := s.ctl.abortCode
  let s := modCtl s fun c => { c with probing := false, probesMissed := 0, successorRole := true }
  let n := (childrenOf s d (ownIndex s)).length
  let s := { s with tricks := s.tricks.map fun e => if e.2.spanning then (e.1, { e.2 with children := n }) else e }
  let s := endShadows (groupAbort s (ownIndex s) code) d
  tryForm (modCtl s fun c => { c with group := .forming, awaitAlign := false, joined := [], readyFrom := [] })

/-- PROBE_TIMER: every 30 local ms the successor probes the dealer; after three probes without an answer it takes the role. -/
def execProbeTimer (s : State) : Out :=
  match deckOf s with
  | none => .next s
  | some d =>
    if !s.ctl.probing || ownIndex s ≠ d.role.successor || s.ctl.successorRole then .next s
    else
      let s := expire s .probe (30 * countsMs)
      if 3 ≤ s.ctl.probesMissed then .next (assumeRole s d)
      else
        let s := startDeadline (modCtl s fun c => { c with probesMissed := c.probesMissed + 1 }) .probe
        .next (sendGroup s d.role.dealer (groupParts s d 6 0 []))

/-- ABORT_REQ_TIMEOUT: a request without an ABORT for 10 local ms is copied to the successor; a successor that asked itself
begins to probe. -/
def execAbortReqTimeout (s : State) : Out :=
  match deckOf s, s.ctl.requestedAbort with
  | some d, some code =>
    if s.ctl.successorRole || !(d.role.members.any fun e => e.1 = d.role.successor) then .next s
    else
      let s := modCtl (expire s .abortReq (10 * countsMs)) fun c => { c with requestedAbort := none }
      if ownIndex s = d.role.successor then .next (beginProbes s code)
      else .next (sendFrame s d.role.successor 64 (.abortReq d.role.group code))
  | _, _ => .next s

/-- MEMBER_READY_TIMEOUT: a member has sent no READY or JOIN within 10 local s of an abort; the dealer holds the group. -/
def execMemberReadyTimeout (member : Nat) (s : State) : Out :=
  match deckOf s with
  | none => .next s
  | some d =>
    if isDealer s && s.ctl.group = .recovering && (otherMembers s d).contains member && !s.ctl.readyFrom.contains member then
      let s := reachDeadline s .memberReady (10 * countsSec)
      .next (logGen (modCtl s fun c => { c with group := .held }) evBupMemberLost uCtl none [w32 member] [])
    else .next s

/-! ### Budgets and stalls of rounds (R30, R441, R571) -/

/-- ROUND_BUDGET_EXPIRY: BUDGET counts have passed since this module's receipt of a round mark of the table: that of the open round, or,
where its budget is over, of the mark that waits for its release (R28, R30). The expiry of a round whose tables are not written is kept
until they are. -/
def execRoundBudgetExpiry (table : Fin 64) (s : State) : Out :=
  let t := table.val
  let r := getRound s t
  if r.isOpen && !r.expired then
    .next (foldRound (modRound (reachMeter s 0 (r.startMeter + budgetOf s)) t fun r => { r with expired := true }) t)
  else if r.heldMark.isSome && !r.heldExpired then
    .next (modRound (reachMeter s 0 (r.heldAt + budgetOf s)) t fun r => { r with heldExpired := true })
  else .next s

/-- The stall bound of a round mark, in counts (R571). -/
def stallBound (s : State) : Nat := max 10000000 (64 * budgetOf s)

/-- ROUND_STALL: the closing trick has not released within the stall bound; the dealer aborts. -/
def execRoundStall (table : Fin 64) (s : State) : Out :=
  let r := getRound s table.val
  if isDealer s && r.isOpen then
    let s := reachMeter s 0 (r.startMeter + stallBound s)
    .next (groupAbort (logGen s evBupRoundStall uCtl (some table.val) [w32 table.val, r.round] []) (ownIndex s) (evBupRoundStall.word uCtl))
  else .next s

end Sys2Proof.Machine
end

