-- ==== Sys2Proof/Machine/Requests.lean ====
section
/-! DEFINITION. Requests: what the control firmware does with each submission entry, and the events that carry a request on
(R428 to R432, R447, R449, R452, R469, R472, R473, R483 to R485, R601). -/

namespace Sys2Proof.Machine

/-! ### Statuses (Table 13.9) -/

def stSuccess : Nat := 0
def stAborted : Nat := 1
def stAlready : Nat := 2
def stInvalid : Nat := 3
def stNoSession : Nat := 4
def stBusy : Nat := 5
def stCapacity : Nat := 6
def stClosed : Nat := 7
def stNoRequest : Nat := 9
def stPrefix : Nat := 10

/-! ### The checks of R429 -/

/-- The fields of an entry that every opcode bounds (Table 13.6). -/
def entryFits (e : Submission) (code : Nat) : Bool :=
  e.opcode = code && e.reserved && e.tokenCount.toNat ≤ 1048576 && e.tokensAddr.toNat % 4 = 0

/-- Handle the next entry of a channel: it is read from the ring; a CLOSING channel ends it with CLOSED, a malformed one ends
with INVALID. -/
def submit (s : State) (n : Nat) (e : Submission) (code : Nat) (act : State → State) : State :=
  let c := getChan s n
  if !(c.state = .opened || c.state = .closing) || c.sqRead = c.sqHead then s
  else
    let s := setChan s n { c with sqRead := c.sqRead + 1, doneTags := c.doneTags.filter (· ≠ e.tag) }
    if c.state = .closing then checkClosing (finalEntry s n e.tag stClosed 0 []) n
    else if !entryFits e code then finalEntry s n e.tag stInvalid 0 []
    else act s

/-- A request on a session of the channel's table. The firmware reads the session's entry; with a poisoned word the session's running
request ends with POISONED (R429, R652). -/
def withSession (s : State) (n : Nat) (e : Submission) (act : State → Nat → State) : State :=
  match (sessOf s e.session).filter fun i => (getSess s i).table = (getChan s n).table with
  | none => finalEntry s n e.tag stNoSession 0 []
  | some i =>
    let r := readSession s i
    act (if r.2 && busySession (getSess r.1 i) then endRequest r.1 i 8 else r.1) i

/-- A request on a session that runs nothing, whichever channel the session is bound to (R429). -/
def withIdle (s : State) (n : Nat) (e : Submission) (act : State → Nat → State) : State :=
  withSession s n e fun s i =>
    if busySession (getSess s i) then finalEntry s n e.tag stBusy (getSess s i).position [] else act s i

/-- A session starts to run a request of a channel. -/
def runRequest (s : State) (n i : Nat) (e : Submission) (p : ReqPhase) : State :=
  modSess s i fun c => { c with state := .running, phase := p, tag := e.tag, aborting := false, reqChan := chanHandle s n }

/-! ### OPEN (R432, R473, R601) -/

/-- The session key base of the running image (Table 18.3). -/
def sessionKeyBase (s : State) : List Byte := hkdf384 (digestBytes s.sec.cdi) ([0x4E, 0x59, 0x44, 0x4C, 0x2D, 0x53, 0x45, 0x53, 0x53]) 48

/-- KEY of a session (R601). -/
def sessionKey (s : State) (h : W64) : W64 := w64 (leNat ((hmac384 (sessionKeyBase s) (leBytes 8 h.toNat)).take 8))

/-- The lowest free slot of a table's SESS range. -/
def freeSession (s : State) (t : Nat) : Option Nat :=
  match tableEntry s t with
  | none => none
  | some e => searchFrom (fun i => (getSess s i).state = .free) (min e.sessCount (s.sessions.length + 1)) e.sessBase

/-- Allocate a session with a page list. -/
def openSession (s : State) (n i : Nat) (e : Submission) (pages : List Nat) (pos : Nat) : State :=
  let s := modSess s i fun c =>
    { Session.free with gen := c.gen, table := (getChan s n).table, chan := chanHandle s n, state := .idle, pages := pages,
                        position := w32 pos }
  let h := sessHandle s i
  let s := modSess s i fun c => { c with key := sessionKey s h }
  let s := pages.foldl (fun s p => modPage s p fun g => if g.shared then { g with refs := g.refs + 1 } else g) s
  finalEntry s n e.tag stSuccess (w32 pos) [BitVec.ofNat 32 h.toNat, BitVec.ofNat 32 (h.toNat / 2 ^ 32)]

/-- OPEN: allocates a session slot and returns its handle. -/
def execOpenSession (chan : Fin 16384) (e : Submission) (s : State) : Out :=
  let n := chan.val
  .next (submit s n e 0x01 fun s =>
    if e.session ≠ 0 then finalEntry s n e.tag stInvalid 0 []
    else
      let t := (getChan s n).table
      let pin := (pinOf s e.arg).filter fun k =>
        let p := sget Pin.free s.cache.pins k
        p.ready && p.table = t
      if e.arg ≠ 0 && pin.isNone then finalEntry s n e.tag stPrefix 0 []
      else
        match freeSession s t with
        | none => finalEntry s n e.tag stCapacity 0 []
        | some i =>
          match pin with
          | some k =>
            let p := sget Pin.free s.cache.pins k
            openSession s n i e p.pages p.tokens.length
          | none => openSession s n i e [] 0)

/-! ### GENERATE and APPEND (R430, R439, R447) -/

/-- The parts of a prefill job: at most 100 prompt tokens each (R447). -/
def jobParts (s : State) (t : Nat) (h : W64) (first : Nat) (toks : List W32) : List ServMsg :=
  let n := max 1 (ceilDiv toks.length 100)
  (List.range n).map fun i =>
    { kind := 3, part := i, parts := n, table := t, round := s.lastRound, gen := s.gen, tokens := (toks.drop (100 * i)).take 100,
      entries := [{ session := h, position := 0, slot := 0, kind := 0, flags := 0, count := ((toks.drop (100 * i)).take 100).length,
                    newPage := w32 first }] }

/-- Whether a prompt can go to a prefill pool: it starts the session, and its pages lie one after another in one frame, which is
all that a job can name. -/
def poolPages? (c : Session) (pages : List Nat) (need : Nat) : Option Nat :=
  match pages.head? with
  | some p => if c.position = 0 && pages = pageRun p need then some p else none
  | none => none

/-- The prompt runs as riders, or at a prefill pool where the installation hands the table's prompts to one. -/
def startPrefill (s : State) (i : Nat) : State :=
  let c := getSess s i
  let n := c.prompt.length - 1
  let rider (s : State) : State := modSess s i fun c => { c with phase := .prefill, prefillLeft := w32 n }
  match Config.poolDealer c.table with
  | none => rider s
  | some d =>
    let need := ceilDiv n 32
    if c.position ≠ 0 || c.pages ≠ [] || 32 < need then rider s
    else
      let g := growPages s i need
      if g.2 ≠ 0 then rider g.1
      else
        match poolPages? c (getSess g.1 i).pages need with
        | none => rider g.1
        | some p =>
          let s := modSess g.1 i fun c => { c with phase := .shipped, prefillLeft := w32 n }
          (jobParts s c.table (sessHandle s i) p (c.prompt.take n)).foldl (fun s m => sendFrame s d 64 (.serving m)) s

/-- A QUEUED request has its input tokens: prefix matching, then PREFILL, DECODE or the end of an APPEND. A request whose ABORT has been
accepted goes no further (R449). -/
def tokensReady (s : State) (i : Nat) (toks : List W32) : State :=
  if (getSess s i).aborting then s
  else
  let s := giveTokens s i toks
  let c := getSess s i
  if 2 ≤ c.prompt.length then startPrefill s i
  else if c.append then endRequest s i stSuccess
  else modSess s i fun c => { c with phase := .decode, prefillLeft := 0 }

/-- Admit a GENERATE or APPEND: QUEUED until its tokens are fetched. -/
def admitRequest (s : State) (n i : Nat) (e : Submission) (app : Bool) : State :=
  let s := modSess (runRequest s n i e .queued) i fun c =>
    { c with left := if app then 0 else e.maxNew, param := e.param, arrival := s.admitNext, append := app, folds := 0,
             draft := [], fetchAddr := e.tokensAddr }
  let s := { s with admitNext := s.admitNext + 1 }
  if e.tokenCount = 0 then tokensReady s i []
  else toHostReq s (.rdCurr e.tokensAddr (4 * e.tokenCount.toNat))

/-- GENERATE: appends input tokens, then generates up to MAX_NEW tokens. -/
def execGenerate (chan : Fin 16384) (e : Submission) (s : State) : Out :=
  let n := chan.val
  .next (submit s n e 0x02 fun s =>
    if e.arg ≠ 0 || e.maxNew = 0 || 1048576 < e.maxNew.toNat then finalEntry s n e.tag stInvalid 0 []
    else withIdle s n e fun s i => admitRequest s n i e false)

/-- APPEND: appends input tokens and generates nothing. -/
def execAppend (chan : Fin 16384) (e : Submission) (s : State) : Out :=
  let n := chan.val
  .next (submit s n e 0x03 fun s =>
    if e.arg ≠ 0 then finalEntry s n e.tag stInvalid 0 []
    else withIdle s n e fun s i => admitRequest s n i e true)

/-- REQUEST_TOKENS_FETCHED: a queued request's input tokens arrive. -/
def execRequestTokensFetched (slot : Nat) (tokens : List W32) (s : State) : Out :=
  .next (if (getSess s slot).phase = .queued then tokensReady s slot tokens else s)

/-! ### ABORT (R449) -/

/-- The session of a channel that runs the request with a tag. -/
def targetOf (s : State) (n : Nat) (tag : W32) : Option Nat :=
  (busyOf s n).find? fun i => (getSess s i).tag = tag

/-- The droppable slots of a session in the open round are folded. -/
def foldSession (s : State) (i : Nat) : State :=
  let t := (getSess s i).table
  let h := sessHandle s i
  if (getRound s t).isOpen && (getRound s t).written then foldSlots s t fun sl => sl.session = h else s

/-- ABORT: aborts a tag. One whose final entry is queued keeps its result. -/
def execAbortRequest (chan : Fin 16384) (e : Submission) (s : State) : Out :=
  let n := chan.val
  .next (submit s n e 0x04 fun s =>
    if e.arg.toNat / 2 ^ 32 ≠ 0 then finalEntry s n e.tag stInvalid 0 []
    else
      withSession s n e fun s i =>
        let tag := BitVec.ofNat 32 e.arg.toNat
        let pos := (getSess s i).position
        match targetOf s n tag with
        | some k => finalEntry (foldSession (modSess s k fun c => { c with aborting := true }) k) n e.tag stAborted pos []
        | none => finalEntry s n e.tag (if (getChan s n).doneTags.contains tag then stAlready else stNoRequest) pos [])

/-! ### PAUSE, RESUME, CLOSE, ATTACH (R452, R471, R483 to R485) -/

/-- PAUSE: spills a session's private pages and pauses it with a time to live. -/
def execPause (chan : Fin 16384) (e : Submission) (s : State) : Out :=
  let n := chan.val
  .next (submit s n e 0x05 fun s =>
    if e.arg.toNat < 60 || 64800 < e.arg.toNat then finalEntry s n e.tag stInvalid 0 []
    else
      withIdle s n e fun s i =>
        let s := modSess (runRequest s n i e .pausing) i fun c => { c with ttl := e.arg.toNat }
        checkPaused (spillPausing s (getSess s i).table) i)

/-- RESUME: brings a paused session's pages back; its time to live is cancelled. -/
def execResume (chan : Fin 16384) (e : Submission) (s : State) : Out :=
  let n := chan.val
  .next (submit s n e 0x06 fun s =>
    if e.arg ≠ 0 then finalEntry s n e.tag stInvalid 0 []
    else
      withIdle s n e fun s i =>
        let s := modSess (runRequest s n i e .resuming) i fun c => { c with ttl := 0 }
        if (getSess s i).pages.all inMemory then endRequest s i stSuccess else s)

/-- Close a session: its pages go, its handle is retired, and the next list tells the members. -/
def closeSession (s : State) (i : Nat) : State :=
  let h := sessHandle s i
  let t := (getSess s i).table
  modRound (retireSession s i) t fun r => { r with closes := r.closes ++ [h] }

/-- CLOSE: ends the session and frees its pages. -/
def execClose (chan : Fin 16384) (e : Submission) (s : State) : Out :=
  let n := chan.val
  .next (submit s n e 0x07 fun s =>
    if e.arg ≠ 0 then finalEntry s n e.tag stInvalid 0 []
    else
      withIdle s n e fun s i =>
        let pos := (getSess s i).position
        finalEntry (closeSession s i) n e.tag stSuccess pos [])

/-- ATTACH: binds a detached session of the channel's table to this channel. A session that is bound already is no detached
session. -/
def execAttach (chan : Fin 16384) (e : Submission) (s : State) : Out :=
  let n := chan.val
  .next (submit s n e 0x08 fun s =>
    if e.arg ≠ 0 then finalEntry s n e.tag stInvalid 0 []
    else
      withSession s n e fun s i =>
        let c := getSess s i
        if c.chan ≠ 0 then finalEntry s n e.tag stInvalid c.position []
        else finalEntry (setSess s i { c with chan := chanHandle s n }) n e.tag stSuccess c.position [])

/-- PAUSE_TTL_EXPIRY: a paused session's time to live has passed; one whose RESUME came first stays. -/
def execPauseTtlExpiry (slot : Nat) (s : State) : Out :=
  let c := getSess s slot
  if c.state = .paused && !busySession c then
    let s := reachMeter s 0 (c.ttlStart + c.ttl * countsSec)
    .next (logGen (closeSession s slot) evSrvPauseExpired uCtl (some c.table) [] [sessHandle s slot])
  else .next s

/-! ### Rebuilding the prefix tree (R472) -/

/-- A page's header row: FORMAT, KEY, PARENT and its two token copies. -/
def readHeader (s : State) (p : Nat) : State × Option (W64 × W64 × List (Option (List W32))) :=
  let h := fwRead s (headerAddr p) 64
  let a := fwRead h.1 (64 + headerAddr p) 128
  let b := fwRead a.1 (512 + headerAddr p) 128
  if h.2.any (·.2) then (b.1, none)
  else
    let bs := h.2.map (·.1)
    if leNat ((bs.drop 20).take 1) ≠ 1 then (b.1, none)
    else (b.1, some (w64 (leNat (bs.take 8)), w64 (leNat ((bs.drop 8).take 8)), [tokensOf a.2, tokensOf b.2]))

/-- The node whose page comes before a page with a parent key, among those entered. -/
def scannedParent (s : State) (t : Nat) (parent : W64) : Option Nat :=
  (s.cache.pages.find? fun e => e.2.shared && e.2.table = t && e.2.key = parent && parent ≠ 0).map (·.1)

/-- Enter a scanned page as a node; pages already entered that follow it take it as their parent. -/
def enterScanned (s : State) (p : Nat) (key parent : W64) (toks : List W32) : State :=
  let g := getPage s p
  let par := scannedParent s g.table parent
  let refs := (holders s p).length + (s.cache.pins.filter fun e => e.2.used && e.2.pages.contains p).length
  let s := addNode (setPage s p { g with key := key, parentKey := parent, tokens := toks }) p par refs
  { s with cache := { s.cache with
      entered := s.cache.entered + 1,
      pages := s.cache.pages.map fun e =>
        if e.2.shared && e.2.table = g.table && e.2.parent = none && e.2.parentKey = key && e.1 ≠ p then
          (e.1, { e.2 with parent := some p }) else e } }

/-- Scan one page. A tail page stays private, whatever header an earlier use has left in it (R468); so does a page whose node is there
already. -/
def scanPage (s : State) (p : Nat) : State :=
  let s := { s with cache := { s.cache with scanNext := p + 1 } }
  if (getPage s p).tokens.length < 32 then s
  else
  let h := readHeader s p
  match h.2 with
  | none => h.1
  | some (key, parent, copies) =>
    match copies.findSome? fun c => c.filter fun toks => pageKey parent toks = key with
    | some toks =>
      let t := (getPage h.1 p).table
      if (findNode h.1 key t (scannedParent h.1 t parent)).isSome then h.1
      else if nodeCount h.1 < 4194304 then enterScanned h.1 p key parent toks
      else logTreeFull h.1 t
    | none => h.1

/-- The lowest allocated page from a number on. -/
def nextAllocated (s : State) (from_ : Nat) : Option Nat :=
  ((s.cache.pages.filter fun e => from_ ≤ e.1 && inMemory e.1 && e.2.state ≠ .free && !e.2.dirtyFree).map (·.1)).min?

/-- The rebuild ends: the tree is READY. A prefix flush that started it completes. -/
def treeReady (s : State) : State :=
  let n := s.cache.entered
  let s := { s with cache := { s.cache with rebuilding := false } }
  endBackground (logGen s evSrvTreeReady uCtl none [w32 n] []) 0xC052 .success 0 []

/-- TREE_REBUILD_STEP: in idle time the dealer scans the header row of the next allocated page. -/
def execTreeRebuildStep (s : State) : Out :=
  if !s.cache.rebuilding then .next s
  else
    match nextAllocated s s.cache.scanNext with
    | some p => .next (scanPage s p)
    | none => .next (treeReady s)

end Sys2Proof.Machine
end

