-- ==== Sys2Proof/Machine/ChannelCommands.lean ====
section
/-! DEFINITION. The serving commands of the mailbox (R413, R420, R421, R450, R451, R514; Tables 13.3, 13.4, 13.16). -/

namespace Sys2Proof.Machine

/-! ### The words of a channel (Table 13.16) -/

/-- The number of a channel state. -/
def chanStateNumber : ChanState → Nat
  | .free => 0 | .opened => 1 | .suspended => 2 | .closing => 3

/-- CHAN_STATE, CHAN_SQ_READ, CHAN_CQ_WRITE and CHAN_GAP of an index. -/
def chanWords (s : State) (n : Nat) : List W32 :=
  let c := getChan s n
  let table := if c.state = .free then 0 else c.table % 64
  [w32 (c.gen.toNat * 2 ^ 20 + table * 2 ^ 14 + min 64 c.backlog.length * 4 + chanStateNumber c.state), c.sqRead, c.cqWrite, c.gap]

/-! ### CHAN_CREATE -/

/-- Whether some byte of a range of host addresses lies in one of the module's own committed decoders (R514). -/
def inOwnDecoder (s : State) (a n : Nat) : Bool :=
  s.host.decoders.any fun e => e.2.committed && a < e.2.hpaBase + e.2.size && e.2.hpaBase < a + n

/-- The lowest free channel index of a table. -/
def freeChanIndex (s : State) (e : TableEntry) : Option Nat :=
  searchFrom (fun n => (getChan s n).state = .free) e.chanCount e.chanBase

/-- Whether R421 or R514 refuses the fields of a CHAN_CREATE. -/
def chanFieldsBad (s : State) (own : List Byte) : Bool :=
  let sq := inByte own 1
  let cq := inByte own 2
  let sqBase := inField own 8 8
  let cqBase := inField own 16 8
  let watch := inField own 24 8
  sq < 4 || 12 < sq || cq < 4 || 14 < cq || sqBase % 4096 ≠ 0 || cqBase % 4096 ≠ 0 || watch % 64 ≠ 0 ||
    (2048 ≤ inField own 4 2 && inField own 4 2 ≠ 0xFFFF) ||
    inByte own 3 ≠ 0 || !zeroBytes own 6 2 || !zeroFrom own 32 || !s.host.busMaster || (watchedBy s (w64 watch)).isSome ||
    inOwnDecoder s sqBase (64 * 2 ^ sq) || inOwnDecoder s cqBase (32 * 2 ^ cq) || inOwnDecoder s watch 64

/-- Open a channel index as a CHAN_CREATE asks; the firmware fetches its watch line. -/
def openChannel (s : State) (n : Nat) (own : List Byte) : State :=
  let s := modChan s n fun c =>
    { Channel.free with
      state := .opened, gen := c.gen, table := inByte own 0, sqLog2 := inByte own 1, cqLog2 := inByte own 2,
      vector := inField own 4 2, sqBase := w64 (inField own 8 8), cqBase := w64 (inField own 16 8),
      watch := w64 (inField own 24 8) }
  toHostReq s (.rdShared (getChan s n).watch)

/-- CHAN_CREATE: opens the lowest free index of a table's range and returns its handle. -/
def execChanCreate (cci : Fin 2) (input : List Byte) (s : State) : Out :=
  .next (vendor s cci.val 0xC040 input 40 noReserved false fun s own =>
    let t := inByte own 0
    let refused := refuseWith s cci.val 0xC040 evSrvChanRefused uCtl (some t) [w32 t] []
    if (deckOf s).isNone then refuseWith s cci.val 0xC040 evSrvNoDeck uCtl none [w32 0xC040] []
    else if !isDealer s then refuseWith s cci.val 0xC040 evSrvNotDealer uCtl none [w32 0xC040] []
    else
      match tableEntry s t with
      | none => refused
      | some e =>
        if !(getTable s t).enabled || (getTable s t).disabling || chanFieldsBad s own then refused
        else
          match freeChanIndex s e with
          | none => refused
          | some n =>
            let s := openChannel s n own
            replyOk s cci.val 0xC040 (leBytes 4 (chanHandle s n).toNat))

/-! ### CHAN_DESTROY, CHAN_RESUME, CHAN_QUERY -/

/-- Refuse a command whose handle is not valid (R420). -/
def staleRefuse (s : State) (cci op : Nat) (handle : Nat) : State :=
  refuseWith s cci op evSrvHandleStale uCtl none [w32 op] [w64 handle]

/-- Read again what a suspended channel missed: its watch line where it is not held or has been woken, and the entries it had
still to fetch. -/
def resumeFetch (s : State) (n : Nat) : State :=
  let c := getChan s n
  let s := if c.wakePending || !c.held then toHostReq s (.rdShared c.watch) else s
  fetchEntries s n c.sqRead (c.sqHead - c.sqRead).toNat

/-- A channel becomes CLOSING. -/
def closeChannel (s : State) (n : Nat) : State :=
  let was := (getChan s n).state
  let s := modChan s n fun c => { c with state := .closing }
  writeBacklog (if was = .suspended then resumeFetch s n else s) n (getChan s n).backlog

/-- CHAN_DESTROY: the channel becomes CLOSING; the command completes when its index is FREE. -/
def execChanDestroy (cci : Fin 2) (input : List Byte) (s : State) : Out :=
  .next (vendor s cci.val 0xC041 input 8 (zeroFrom · 4) true fun s own =>
    match chanOf s (w32 (inField own 0 4)) with
    | none => staleRefuse s cci.val 0xC041 (inField own 0 4)
    | some n =>
      let s := modChan (startBg s cci.val 0xC041) n fun c => { c with destroying := true }
      checkClosing (closeChannel s n) n)

/-- The gap entries of a channel, one for each request that lost tokens. -/
def gapEntries (c : Channel) : List Completion :=
  c.gapTags.map fun g => { tag := g.1, kind := 2, status := 0, tokens := [], position := g.2 }

/-- CHAN_RESUME: a suspended channel writes its gap entries, each of them logged, and its backlog, and fetches again. A channel that is not
suspended stays as it is. -/
def execChanResume (cci : Fin 2) (input : List Byte) (s : State) : Out :=
  .next (vendor s cci.val 0xC042 input 8 (zeroFrom · 4) false fun s own =>
    match chanOf s (w32 (inField own 0 4)), s.host.busMaster with
    | some n, true =>
      let c := getChan s n
      if c.state ≠ .suspended then replyOk s cci.val 0xC042 []
      else
        let s := c.gapTags.foldl (fun s g => logGen s evSrvCqGap uCtl (some c.table) [chanHandle s n, g.2] []) s
        let s := setChan s n { c with state := .opened, gap := 0, gapTags := [] }
        let s := resumeFetch (writeBacklog s n (gapEntries c ++ c.backlog)) n
        replyOk s cci.val 0xC042 []
    | _, _ => staleRefuse s cci.val 0xC042 (inField own 0 4))

/-- CHAN_QUERY: the four words of CHAN_STATE. -/
def execChanQuery (cci : Fin 2) (input : List Byte) (s : State) : Out :=
  .next (vendor s cci.val 0xC043 input 8 (zeroFrom · 4) false fun s own =>
    match chanOf s (w32 (inField own 0 4)) with
    | none => staleRefuse s cci.val 0xC043 (inField own 0 4)
    | some n => replyOk s cci.val 0xC043 ((chanWords s n).flatMap fun v => leBytes 4 v.toNat))

/-! ### TABLE_DISABLE and TABLE_ENABLE -/

/-- TABLE_DISABLE: every channel of the table becomes CLOSING, and the droppable slots of its open round are folded, so that the round comes
to its boundary; the rest follows there, at once where no round is open or to be replayed. A table that is not enabled is refused (DESIGN CHOICE: the manual gives no code). -/
def execTableDisable (cci : Fin 2) (input : List Byte) (s : State) : Out :=
  .next (signed s cci.val 0xC044 input 8 (zeroFrom · 1) true (fun _ => anyOwner) fun s own =>
    let t := inByte own 0
    if (tableEntry s t).isNone || !(getTable s t).enabled || (getTable s t).disabling then refuse s cci.val 0xC044 0
    else
      let s := modTable (startBg s cci.val 0xC044) t fun k => { k with disabling := true }
      let s := (chansOf s t).foldl closeChannel s
      let r := getRound s t
      if r.again then s
      else if r.isOpen then (if r.written then foldSlots s t fun _ => true else s)
      else boundary s t)

/-- TABLE_ENABLE: a disabled table that the running map names is enabled; the dealer starts its rounds. -/
def execTableEnable (cci : Fin 2) (input : List Byte) (s : State) : Out :=
  .next (signed s cci.val 0xC045 input 8 (zeroFrom · 1) false (fun _ => anyOwner) fun s own =>
    let t := inByte own 0
    if (tableEntry s t).isNone || (getTable s t).enabled then refuse s cci.val 0xC045 0
    else
      let s := logGen (modTable s t fun k => { k with enabled := true }) evSrvTableEnabled uCtl (some t) [w32 t] []
      replyOk (startRounds s) cci.val 0xC045 [])

end Sys2Proof.Machine
end

