-- ==== Sys2Proof/Machine/CacheCommands.lean ====
section
/-! DEFINITION. The cache, slow-tier and identity commands of the mailbox (R473, R478, R492, R517, R523, R526; Tables 14.5, 14.8,
15.10, 15.17). -/

namespace Sys2Proof.Machine

/-! ### Pins (R473, Table 14.5) -/

/-- Refuse a command that only the dealer accepts (R492). -/
def dealerRefuse (s : State) (cci op : Nat) : State := refuseWith s cci op evSrvNotDealer uCtl none [w32 op] []

/-- The lowest free pin slot of 4,096. -/
def freePin (s : State) : Option Nat := searchFrom (fun n => !(sget Pin.free s.cache.pins n).used) 4096 0

/-- PREFIX_PIN: the tokens come with the command as the read from host memory gives them; they become mandatory riders of the table.
While bus mastering is off nothing can be read, and too short a read is no prefix: the command then ends with an internal error
(DESIGN CHOICE). -/
def execPrefixPin (cci : Fin 2) (input : List Byte) (tokens : List W32) (s : State) : Out :=
  .next (vendor s cci.val 0xC050 input 16 (zeroBytes · 1 3) true fun s own =>
    let t := inByte own 0
    let n := inField own 4 4
    if !isDealer s then dealerRefuse s cci.val 0xC050
    else if (tableEntry s t).isNone || n % 32 ≠ 0 || n < 32 || 65536 < n then refuse s cci.val 0xC050 0
    else
      match freePin s with
      | none => refuseWith s cci.val 0xC050 evSrvPinRefused uCtl (some t) [w32 t] []
      | some i =>
        let s := startBg s cci.val 0xC050
        if !s.host.busMaster || tokens.length < n then endBackground s 0xC050 .internalError 0 []
        else
          let s := toHostReq s (.rdCurr (w64 (inField own 8 8)) (4 * n))
          modPin s i fun p =>
            { p with used := true, table := t, pages := [], tokens := tokens.take n, committed := 0, ready := false })

/-- PREFIX_UNPIN: the pages' REFS go down, the slot is free and its GEN grows; the next list tells the members. -/
def execPrefixUnpin (cci : Fin 2) (input : List Byte) (s : State) : Out :=
  .next (vendor s cci.val 0xC051 input 8 noReserved false fun s own =>
    if !isDealer s then dealerRefuse s cci.val 0xC051
    else
      match (pinOf s (w64 (inField own 0 8))).filter fun i => (sget Pin.free s.cache.pins i).ready with
      | none => staleRefuse s cci.val 0xC051 (inField own 0 8)
      | some i =>
        let p := sget Pin.free s.cache.pins i
        let h := pinHandle s i
        let s := modRound s p.table fun r => { r with closes := r.closes ++ [h + guestTag] }
        let s := modPin s i fun p => { Pin.free with gen := nextPinGen p.gen }
        replyOk (p.pages.foldl dropPage s) cci.val 0xC051 [])

/-- PREFIX_FLUSH: the table's cached pages and nodes go, and the tree is rebuilt. -/
def execPrefixFlush (cci : Fin 2) (input : List Byte) (s : State) : Out :=
  .next (vendor s cci.val 0xC052 input 8 (zeroFrom · 1) true fun s own =>
    let t := inByte own 0
    if !isDealer s then dealerRefuse s cci.val 0xC052
    else if 64 ≤ t then refuse s cci.val 0xC052 0
    else startRebuild (startBg s cci.val 0xC052) 3 (· = t))

/-! ### Spill windows (R478, R492) -/

/-- Whether a spill slot of a table is in use: by the dealer's list, or by a page that this module follows. -/
def spillInUse (s : State) (t : Nat) : Bool :=
  s.cache.spillUsed.any (·.1 = t) || s.sessions.any fun e => e.2.state ≠ .free && e.2.table = t && !e.2.pages.all inMemory

/-- Requests in flight between pages and spill slots of a table come to nothing. -/
def deadSpills (s : State) (t : Nat) : State :=
  modHost s fun h => { h with uio := h.uio.map fun u =>
    match u.2.1 with
    | .spill p _ _ => if (getPage s p).table = t then (u.1, .dead, u.2.2) else u
    | .prefetch t' _ _ _ _ => if t' = t then (u.1, .dead, u.2.2) else u
    | _ => u }

/-- Abandon every spill slot of a table: spills under way end, paused sessions are closed, and what lies only in the slow tier is
lost (R490). -/
def abandonSlots (s : State) (t : Nat) : State :=
  let of_ (p : Page → Bool) (s : State) : List Nat := (s.cache.pages.filter fun e => e.2.table = t && p e.2).map (·.1)
  let s := deadSpills s t
  let s := (of_ (fun g => g.state = .spilling) s).foldl abandonSpill s
  let paused := (s.sessions.filter fun e => e.2.state = .paused && e.2.table = t).map (·.1)
  let s := paused.foldl (fun s i => closeSession (if busySession (getSess s i) then endRequest s i 7 else s) i) s
  let away := of_ (fun g => g.spill.isSome) s
  let s := away.foldl (fun s p =>
    if !(getPage s p).spill.isSome then s else if (holders s p).isEmpty then freePage s p else pageLost s p) s
  { s with cache := { s.cache with spillUsed := s.cache.spillUsed.filter (·.1 ≠ t) } }

/-- KV_SPILL_SET: the spill window of a table on this module; a size of 0 abandons every slot. -/
def execKvSpillSet (cci : Fin 2) (input : List Byte) (s : State) : Out :=
  .next (signed s cci.val 0xC053 input 16 (zeroBytes · 2 2) false (fun _ => anyOwner) fun s own =>
    let t := inByte own 0
    let w := inByte own 1
    let n := inField own 4 4
    if 64 ≤ t || 16 ≤ w then refuse s cci.val 0xC053 0
    else if n ≠ 0 && spillInUse s t then refuseWith s cci.val 0xC053 evSrvHandleStale uCtl none [w32 0xC053] [w64 0]
    else
      let s := if n = 0 then abandonSlots s t else s
      replyOk (modTable s t fun k => { k with spillWindow := some (w, inField own 8 8, n) }) cci.val 0xC053 [])

/-! ### Slow-tier windows (R517) -/

/-- Whether a spill slot or a source directory entry uses a slow-tier window. -/
def windowInUse (s : State) (w : Nat) : Bool :=
  (s.tables.any fun e => e.2.spillWindow.any fun k => k.1 = w && 0 < k.2.2) ||
    (deckOf s).any fun d => d.regions.any fun r => r.cls = .source && r.srcKind = 2 && r.srcModule = w

/-- SLOW_WINDOW_SET: writes a window unless it is in use. -/
def execSlowWindowSet (cci : Fin 2) (input : List Byte) (s : State) : Out :=
  .next (signed s cci.val 0xC060 input 24 (fun own => inByte own 1 < 2 && zeroBytes own 2 6) false (fun _ => anyOwner) fun s own =>
    let w := inByte own 0
    let size := inField own 16 8
    if 16 ≤ w || size % 65536 ≠ 0 then refuse s cci.val 0xC060 0
    else if windowInUse s w then refuseWith s cci.val 0xC060 evHstWindowInUse uCxl none [w32 w] []
    else
      replyOk (modHost s fun h =>
        { h with slow := sput (false, 0, 0) h.slow w (inByte own 1 = 1, inField own 8 8, size) }) cci.val 0xC060 [])

/-- SLOW_WINDOW_QUERY: a window in the layout of SLOW_WINDOW_SET's input (DESIGN CHOICE: the manual gives no layout). -/
def execSlowWindowQuery (cci : Fin 2) (input : List Byte) (s : State) : Out :=
  .next (vendor s cci.val 0xC061 input 8 (zeroFrom · 1) false fun s own =>
    let w := inByte own 0
    if 16 ≤ w then refuse s cci.val 0xC061 0
    else
      let k := sget (false, 0, 0) s.host.slow w
      replyOk s cci.val 0xC061 (leBytes 1 w ++ [if k.1 then 1 else 0] ++ List.replicate 6 0 ++ leBytes 8 k.2.1 ++ leBytes 8 k.2.2))

/-! ### VND_IDENTIFY and PARTNER_LOG_READ -/

/-- The vendor opcodes of Table 15.10. -/
def vendorOpcodes : List Nat :=
  [0xC000, 0xC001] ++ rangeFrom 0xC010 6 ++ rangeFrom 0xC020 6 ++ rangeFrom 0xC030 3 ++ rangeFrom 0xC040 6 ++ rangeFrom 0xC050 4 ++
    [0xC060, 0xC061] ++ rangeFrom 0xC070 5

/-- VND_IDENTIFY: the command set version 1.0 (Table 15.4) and the opcodes (DESIGN CHOICE of layout). -/
def execVndIdentify (cci : Fin 2) (input : List Byte) (s : State) : Out :=
  .next (vendor s cci.val 0xC000 input 0 noReserved false fun s _ =>
    replyOk s cci.val 0xC000 ([1, 0, 0, 0] ++ leBytes 4 vendorOpcodes.length ++
      vendorOpcodes.flatMap fun op => leBytes 2 op))

/-- PARTNER_LOG_READ: the newest entries that fit in a payload of 4 KiB, oldest first: kind, sequence number and header bytes, 24
bytes each (DESIGN CHOICE of layout). -/
def execPartnerLogRead (cci : Fin 2) (input : List Byte) (s : State) : Out :=
  .next (vendor s cci.val 0xC001 input 0 noReserved false fun s _ =>
    let es := s.host.partner.drop (s.host.partner.length - 170)
    replyOk s cci.val 0xC001 (es.flatMap fun e => leBytes 4 e.1 ++ leBytes 4 e.2.1.toNat ++ padTo 16 e.2.2))

end Sys2Proof.Machine
end

