-- ==== Sys2Proof/Machine/DeckPlays.lean ====
section
/-! DEFINITION. What the deck loader checks of one play, one program, one descriptor initialisation and one script operation
(R116 to R118, R120, R193, R259, R260; Tables 4.2 to 4.14, 8.4, 8.5). -/

namespace Sys2Proof.Machine

/-! ### Plays -/

/-- The bits of a field. -/
def bits (lo w : Nat) : Nat := (2 ^ w - 1) * 2 ^ lo

/-- The bits that a play of a class and operation uses beyond the header of Table 4.2, by the formats of Tables 4.3 to 4.7 and the
play's own definition; a play of no listed operation uses none and is no play. A field that only one form of a play uses counts in
that form alone (DEDUCED from R117): SY or IMM48 of SCMP, the sources of PLOG, the mask register of VTOPK, SC of MATOM. -/
def playFields (cls op : Nat) (v : Nat) : Option Nat :=
  let sd := bits 16 5
  let sx := bits 21 5
  let sy := bits 26 5
  let pd := bits 31 3
  let fn := bits 34 4
  let imm48 := bits 64 48
  let da := bits 16 6
  let db := bits 22 6
  let dc := bits 28 6
  let sa := bits 34 5
  let sb := bits 39 5
  let sc := bits 44 5
  let acc := bits 49 2
  let mode (w : Nat) : Nat := bits 51 w
  let imm := bits 64 32
  let abc := da + db + dc + sa + sb + sc
  let ac := da + dc + sa + sc
  let id := bits 16 14
  let count := bits 30 13
  let inv := bits 43 1
  let script := bits 16 12
  let ticket := bits 28 2
  let sp := bits 42 5
  match cls, op with
  | 0, 0x01 => some 0
  | 0, 0x02 => some 0
  | 0, 0x03 => some (bits 16 16)
  | 0, 0x04 => some (bits 16 20 + bits 36 11)
  | 0, 0x05 => some (bits 16 11)
  | 0, 0x08 => some (sd + imm48)
  | 0, 0x09 => some (sd + sx + imm48)
  | 0, 0x0A => some (sd + sx + sy + fn)
  | 0, 0x0B => some (pd + sx + fn + (if bitOf v 37 then imm48 else sy))
  | 0, 0x0C => some (pd + fn + (if fieldOf v 34 4 = 4 || fieldOf v 34 4 = 5 then 0 else bits 21 3 + bits 26 3))
  | 0, 0x0D => some (pd + sx + bits 64 6)
  | 0, 0x0E => some (sd + bits 34 2)
  | 1, 0x01 => some (acc + da + db + sa + sb + mode 1)
  | 1, 0x02 => some (acc + mode 1)
  | 1, 0x03 => some (acc + dc + sc)
  | 1, 0x04 => some (acc + dc + sc + mode 1)
  | 2, 0x01 => some abc
  | 2, 0x02 => some abc
  | 2, 0x03 => some abc
  | 2, 0x04 => some abc
  | 2, 0x05 => some abc
  | 2, 0x06 => some abc
  | 2, 0x07 => some (ac + imm)
  | 2, 0x08 => some (ac + imm)
  | 2, 0x09 => some ac
  | 2, 0x0A => some abc
  | 2, 0x0B => some ac
  | 2, 0x10 => some ac
  | 2, 0x11 => some ac
  | 2, 0x12 => some ac
  | 2, 0x13 => some ac
  | 2, 0x14 => some ac
  | 2, 0x15 => some ac
  | 2, 0x16 => some ac
  | 2, 0x20 => some ac
  | 2, 0x21 => some ac
  | 2, 0x22 => some ac
  | 2, 0x23 => some (ac + imm + (if bitOf v 51 then mode 6 else 0))
  | 2, 0x24 => some ac
  | 2, 0x25 => some (da + db + sa + sb + mode 5)
  | 2, 0x26 => some (dc + sa + sb + sc)
  | 3, 0x01 => some (ac + bits 56 1)
  | 3, 0x02 => some (dc + sc + imm)
  | 3, 0x03 => some (sa + imm + mode 6)
  | 3, 0x04 => some (sa + imm + mode 5)
  | 3, 0x05 => some (sa + sb + imm + mode 9 + (if fieldOf v 57 3 = 6 then sc else 0))
  | 3, 0x06 => some (ac + bits 56 1)
  | 3, 0x07 => some (ac + bits 64 14)
  | 3, 0x08 => some (dc + sa + imm)
  | 3, 0x09 => some (dc + sa + imm)
  | 4, 0x01 => some id
  | 4, 0x02 => some (id + inv)
  | 4, 0x03 => some (id + inv)
  | 4, 0x04 => some (id + count)
  | 4, 0x05 => some (id + count)
  | 4, 0x06 => some (bits 44 5 + bits 58 5)
  | 4, 0x07 => some (bits 44 5 + bits 58 5)
  | 4, 0x08 => some (bits 44 5 + bits 55 3 + bits 58 5 + imm)
  | 4, 0x09 => some (bits 63 1)
  | 4, 0x0A => some (bits 49 6 + inv)
  | 5, 0x01 => some (script + bits 30 6 + sp + bits 47 2)
  | 5, 0x02 => some (script + ticket + bits 36 6 + sp)
  | 5, 0x03 => some (ticket + bits 49 5)
  | 5, 0x04 => some (ticket + bits 49 5)
  | _, _ => none

/-- CLASS of a play. -/
def playClass (v : Nat) : Nat := fieldOf v 0 4
/-- OP of a play. -/
def playOp (v : Nat) : Nat := fieldOf v 4 6

/-- Whether a play is of a class and operation. -/
def isPlay (v cls op : Nat) : Bool := playClass v = cls && playOp v = op

/-- The offsets of the tests that fail among some. -/
def failedAt (xs : List (Nat × Bool)) : List Nat := (xs.filter fun e => !e.2).map (·.1)

/-- The byte that holds the lowest set bit of a number. -/
def lowByte (v : Nat) : Nat := ((List.range 32).find? fun i => v / 256 ^ i % 256 ≠ 0).getD 0

/-- The offset of the first non-zero byte of a number that stands at an offset, where it has one. -/
def strayByte (off v : Nat) : List Nat := if v = 0 then [] else [off + lowByte v]

/-- The ranges that the tables of chapter 4 state for a play's fields, each with the byte in which its field begins. -/
def playRanges (v : Nat) : List (Nat × Bool) :=
  match playClass v, playOp v with
  | 0, 0x04 => [(4, fieldOf v 36 11 ≠ 0)]
  | 0, 0x05 => [(2, fieldOf v 16 11 ≠ 0)]
  | 0, 0x0A => [(4, fieldOf v 34 4 ≤ 9)]
  | 0, 0x0B => [(4, fieldOf v 34 3 ≤ 5)]
  | 0, 0x0C => [(4, fieldOf v 34 4 ≤ 5)]
  | 2, 0x23 => [(8, 1 ≤ fieldOf v 64 32 && fieldOf v 64 32 ≤ 16)]
  | 3, 0x05 => [(7, fieldOf v 57 3 ≤ 6)]
  | 4, 0x01 => [(2, fieldOf v 16 14 ≠ 0)]
  | 4, 0x02 => [(2, fieldOf v 16 14 ≠ 0)]
  | 4, 0x03 => [(2, fieldOf v 16 14 ≠ 0)]
  | 4, 0x04 => [(3, 1 ≤ fieldOf v 30 13 && fieldOf v 30 13 ≤ 4096)]
  | 4, 0x05 => [(3, 1 ≤ fieldOf v 30 13 && fieldOf v 30 13 ≤ 4096)]
  | 4, 0x08 => [(6, fieldOf v 55 3 ≤ 3)]
  | _, _ => []

/-- The bytes of a play that fail R120 by themselves: its class and operation are defined, unused bits are zero, its fields in range. -/
def playFaults (v : Nat) : List Nat :=
  match playFields (playClass v) (playOp v) v with
  | none => [0]
  | some f => strayByte 0 (v &&& (2 ^ 128 - 1 - (0x7FFF + f))) ++ failedAt (playRanges v)

/-- Whether a play by itself passes R120. -/
def playWellFormed (v : Nat) : Bool := (playFaults v).isEmpty

/-- Where a LOOP or SKIP at an index does not keep to its loops, the byte of its length; `ends` are the last plays of the open bodies,
innermost first, and `n` is the number of plays. -/
def loopFaults (n i : Nat) (ends : List Nat) (v : Nat) : List Nat :=
  if isPlay v 0 0x04 then
    let e := i + fieldOf v 36 11
    failedAt [(4, e < n && (match ends with | [] => true | x :: _ => e ≤ x) && ends.length < 4)]
  else if isPlay v 0 0x05 then
    let land_ := i + fieldOf v 16 11 + 1
    failedAt [(2, match ends with | [] => land_ ≤ n | x :: _ => land_ ≤ x + 1)]
  else []

/-- The first byte of a program's plays that fails R120. -/
def badPlay (n : Nat) : Nat → List Nat → List (BitVec 128) → Option Nat
  | _, _, [] => none
  | i, ends, p :: r =>
    let v := p.toNat
    let ends := ends.dropWhile (· < i)
    match (playFaults v ++ loopFaults n i ends v).min? with
    | some b => some (16 * i + b)
    | none => badPlay n (i + 1) (if isPlay v 0 0x04 then (i + fieldOf v 36 11) :: ends else ends) r

/-! ### Descriptor initialisations -/

/-- The bytes of a descriptor that fail a check of Table 6.3; a check over several fields fails at the last of them that it names, and a
field that is out of range at its first byte (DESIGN CHOICE: R651 says "the first failing payload byte"). -/
def descFaults (b : BitVec 1024) : List Nat :=
  let d := parseDesc b
  let q := if isFp6 (descElem d) then 4 else 2
  let form (a : Int) : Bool := if isLocal d.base then isLocal a else isDevice a
  let dim (i : Nat) : List (Nat × Bool) :=
    let s := dimN d.size i
    let n := dimN d.bound i
    if i < d.rank then [(40 + 4 * i, 1 ≤ n && n ≤ s && (bitOf d.clamp i || n = s))]
    else
      [(16 + 4 * i, decide (s = 1)), (40 + 4 * i, decide (n = 1)), (64 + 5 * i, decide (dimZ d.stride i = 0)), (4, !bitOf d.clamp i)] ++
        (if i = 0 then [] else [(109 + 3 * i, decide (dimZ d.scaleStride i = 0))])
  let block (off n0 n1 : Nat) : List (Nat × Bool) :=
    [(off, d.block = 0 || n0 % blockLen d.block = 0), (off + 4, d.block ≠ 3 || n1 % 16 = 0)]
  let packed : List (Nat × Bool) :=
    if 8 ≤ (descElem d).bits then []
    else
      [(64, decide (dimZ d.stride 0 = 1)), (16, decide (dimN d.size 0 % q = 0)), (40, decide (dimN d.bound 0 % q = 0))] ++
        (List.range 5).map fun i => (69 + 5 * i, decide (dimZ d.stride (i + 1) % (q : Int) = 0))
  failedAt
    ([(0, decide (d.version = 1)), (1, descBytes b 1 1 < 8 && 1 ≤ d.rank && d.rank ≤ 6),
      (2, descBytes b 2 1 < 64 && (Elem.ofCode d.type).isSome),
      (3, descBytes b 3 1 < 8 && (d.block = 0 || (4 ≤ d.type && d.type ≤ 8)) && (!d.sl || d.block ≠ 0)),
      (4, descBytes b 4 1 < 64), (5, decide (d.scaleType = (if d.block = 0 then 0 else 0x10))),
      (8, (isLocal d.base || isDevice d.base) &&
            ((descElem d).bits < 8 || d.base % ((descElem d).bits / 8 : Nat) = 0)),
      (64, d.block = 0 || dimZ d.stride 0 = 1), (94, d.block = 0 || form d.scaleBase), (100, !d.sl || form d.slBase),
      (106, !isFp6 (descElem d) || form d.hiBase)] ++
      (List.range 6).flatMap dim ++ block 16 (dimN d.size 0) (dimN d.size 1) ++ block 40 (dimN d.bound 0) (dimN d.bound 1) ++ packed) ++
    strayByte 6 (descBytes b 6 2) ++ strayByte 14 (descBytes b 14 2) ++ strayByte 127 (descBytes b 127 1) ++
    (if d.block = 0 then strayByte 94 (descBytes b 94 6) else []) ++ (if d.sl then [] else strayByte 100 (descBytes b 100 6)) ++
    (if isFp6 (descElem d) then [] else strayByte 106 (descBytes b 106 6))

/-- The first byte of a descriptor that fails Table 6.3, where it is not valid. -/
def badDesc (b : BitVec 1024) : Option Nat :=
  if descValid (parseDesc b) then none else some (((descFaults b).min?).getD 0)

/-! ### Script operations -/

/-- The operation of 16 bytes (Table 8.4). -/
def parseOp (v : Nat) : ScriptOp :=
  { op := fieldOf v 0 8, ra := fieldOf v 8 2, rb := fieldOf v 10 2, chMask := fieldOf v 16 32, slotMask := fieldOf v 48 24,
    rowA := fieldOf v 72 16, rowB := fieldOf v 88 16, x := fieldOf v 104 24 }

/-- Where the X field of an operation does not keep to Table 8.5: bytes from its first, which is byte 13 of the operation. -/
def xFaults (o : ScriptOp) : List Nat :=
  let x := o.x
  let above (bit : Nat) : List Nat := strayByte 0 (x / 2 ^ bit * 2 ^ bit)
  let count : List (Nat × Bool) := [(0, opCount o ≠ 0)]
  match o.op with
  | 0x00 => above 0
  | 0x01 => failedAt [(1, 1 ≤ fieldOf x 8 7 && fieldOf x 8 7 ≤ 64)] ++ above 15
  | 0x10 => failedAt count ++ above 20
  | 0x11 => failedAt count ++ above 12
  | 0x12 => failedAt (count ++ [(2, decide (fieldOf x 17 5 ≤ 23))]) ++ above 22
  | 0x13 => failedAt (count ++ [(1, decide (logicFn o ≤ 4))]) ++ above 18
  | 0x20 => failedAt [(0, fieldOf x 0 3 ≤ 4 && !bitOf x 3)] ++ above 19
  | 0x21 => failedAt count ++ above 21
  | 0x22 => failedAt count ++ above 21
  | 0x23 => failedAt count ++ above 23
  | _ => []

/-- The operation codes of Table 8.5. -/
def opListed (op : Nat) : Bool := [0x00, 0x01, 0x10, 0x11, 0x12, 0x13, 0x20, 0x21, 0x22, 0x23].contains op

/-- The bytes of an operation that fail R260 by themselves, in a script of `regions` regions. An XCOPY whose source bank is one of its
destinations fails at SRC_SLOT. -/
def opFaults (regions v : Nat) : List Nat :=
  let o := parseOp v
  failedAt
    [(0, opListed o.op), (1, fieldOf v 12 4 = 0 && o.ra < regions && o.rb < regions), (2, o.op = 0x00 || o.chMask ≠ 0),
     (6, o.op = 0x00 || o.slotMask ≠ 0), (9, o.rowA ≤ 49151), (11, o.rowB ≤ 49151),
     (15, !(o.op = 0x12 && bitOf o.chMask (fieldOf o.x 12 5) && bitOf o.slotMask (fieldOf o.x 17 5)))] ++
    (xFaults o).map (13 + ·)

/-- The first byte of a script's operations that fails R260; `groups` are the groups declared, while only LGROUPs have come. A
misplaced END or LGROUP fails at OP, a GROUP declared twice at its field. -/
def badOp (regions n : Nat) : Nat → Option (List Nat) → List Nat → Option Nat
  | _, _, [] => none
  | i, groups, v :: r =>
    let o := parseOp v
    let g := fieldOf o.x 0 8
    let order : List Nat :=
      failedAt [(0, decide ((o.op = 0x00) ↔ (i + 1 = n)) && (o.op ≠ 0x01 || groups.isSome)),
                (13, o.op ≠ 0x01 || !(groups.any fun gs => gs.contains g))]
    match (opFaults regions v ++ order).min? with
    | some b => some (16 * i + b)
    | none => badOp regions n (i + 1) (if o.op = 0x01 then groups.map (g :: ·) else none) r

end Sys2Proof.Machine
end

