-- ==== Sys2Proof/Machine/DeckCards.lean ====
section
/-! DEFINITION. Deck header, card frames and card payloads: checks 1 to 12 of Table 3.15 and the deck that the selected cards give
(R63 to R72, R86, R244, R651; Tables 3.1 to 3.15, 3.25). -/

namespace Sys2Proof.Machine

/-- A fault of a deck: the code and the deck offset that DECK_FAULT_OFFSET reports. -/
abbrev DeckFault := Ev × Nat

/-! ### Header (checks 1 to 8) -/

/-- The largest image, 224 MiB. -/
def maxDeck : Nat := 224 * 2 ^ 20

/-- The reserved bytes of a header, as offsets. -/
def headerReserved : List Nat := [11] ++ rangeFrom 29 3 ++ rangeFrom 44 4 ++ rangeFrom 288 32

/-- The first check among 1 to 8 that an image of `len` staged bytes fails. The deck's authenticity is settled before anything
beyond the header is read. -/
def deckHeaderFault (s : State) (bs : List Byte) (len : Nat) : Option DeckFault :=
  let total := inField bs 16 8
  let slot := inByte bs 28
  let key := hash384 (cut bs 192 96)
  let d := hash384 (bs.take 48 ++ List.replicate 144 0 ++ bs.drop 192)
  if cut bs 0 8 ≠ [0x4E, 0x59, 0x44, 0x4C, 0x44, 0x45, 0x43, 0x4B] then some (evDckMagic, 0)
  else if inField bs 12 4 ≠ 320 then some (evDckFormat, 12)
  else if inByte bs 8 ≠ 1 then some (evDckFormat, 8)
  else if inByte bs 10 ≠ 1 then some (evDckGeneration, 10)
  else if total ≠ len || total % 8 ≠ 0 || total < 320 || maxDeck < total then some (evDckLength, 16)
  else if !enrolled s slot then some (evDckKeySlot, 28)
  else if sget 0 s.sec.ownerHash slot ≠ key then some (evDckKeySlot, 192)
  else if digestOf (cut bs 48 48) ≠ d then some (evDckDigest, 48)
  else if !ecdsaVerify d.toNat (beNat (cut bs 96 48)) (beNat (cut bs 144 48)) (beNat (cut bs 192 48)) (beNat (cut bs 240 48)) then
    some (evDckSignature, 96)
  else if inByte bs 9 = 0 then
    (headerReserved.find? fun i => inByte bs i ≠ 0).map fun i => (evDckReservedNonzero, i)
  else none

/-! ### Frames (check 9) -/

/-- A card: its frame (Table 3.2), the deck offset of the frame, and its payload. -/
structure Card where
  off : Nat
  type : Nat
  version : Nat
  flags : Nat
  selector : Nat
  payload : List Byte
  deriving DecidableEq, Repr

/-- The first failing field of a frame, in the order in which check 9 names them; a frame that would pass the end of the body, of
which `left` bytes remain, fails at its first byte. Where both FLAGS bits 7:3 and reserved bytes are non-zero, FLAGS is reported: check 9
gives no order of the two (DESIGN CHOICE). -/
def frameFault (off left : Nat) (f : List Byte) : Option DeckFault :=
  let sel := inField f 8 2
  let len := inField f 4 4
  if left < 16 || inField f 0 2 = 0 then some (evDckCardFrame, off)
  else if len % 8 ≠ 0 then some (evDckCardFrame, off + 4)
  else if left < 16 + len then some (evDckCardFrame, off)
  else if 0x1FFF < sel && sel ≠ 0xFFFF then some (evDckCardFrame, off + 8)
  else if 8 ≤ inByte f 3 then some (evDckCardFrame, off + 3)
  else ((rangeFrom 10 6).find? fun i => inByte f i ≠ 0).map fun i => (evDckCardFrame, off + i)

/-- The cards of a body from an offset on; `n` bounds their number. -/
def cards : Nat → Nat → List Byte → Except DeckFault (List Card)
  | 0, _, _ => .ok []
  | n + 1, off, bs =>
    if bs.isEmpty then .ok []
    else
      let len := inField bs 4 4
      match frameFault off bs.length (bs.take 16) with
      | some e => .error e
      | none =>
        let c : Card := { off := off, type := inField bs 0 2, version := inByte bs 2, flags := inByte bs 3,
                          selector := inField bs 8 2, payload := cut bs 16 len }
        match cards n (off + 16 + len) (bs.drop (16 + len)) with
        | .ok cs => .ok (c :: cs)
        | .error e => .error e

/-- Check 9: the frames end at TOTAL_LENGTH and number CARD_COUNT. -/
def framesOf (bs : List Byte) : Except DeckFault (List Card) :=
  match cards bs.length 320 (bs.drop 320) with
  | .error e => .error e
  | .ok cs => if cs.length = inField bs 24 4 then .ok cs else .error (evDckCardFrame, 24)

/-! ### Selection, types and versions (check 10) -/

/-- Whether a module selects a card (R69). Without an index only the cards for every module are selected. -/
def selects (index : Option Nat) (c : Card) : Bool :=
  (c.flags % 8 = 0 || c.flags % 2 = 1) && (c.selector = 0xFFFF || index = some c.selector)

/-- The critical card types of Table 3.3, with their least and largest counts. -/
def cardCounts : List (Nat × Nat × Nat) :=
  [(1, 1, 4096), (2, 1, 1), (3, 1, 1), (4, 0, 1), (5, 0, 1), (6, 0, 4096), (7, 0, 1), (8, 1, 1), (9, 1, 1), (10, 0, 1), (11, 1, 1)]

/-- Whether a selected card is skipped: an optional card of another type or major version (R70, R71). -/
def skipped (c : Card) : Bool := 0x8000 ≤ c.type && !(c.type = 0x8001 && c.version / 16 = 1)

/-- Check 10 on one selected card. -/
def typeFault (c : Card) : Option DeckFault :=
  if 0x8000 ≤ c.type then none
  else if !cardCounts.any (·.1 = c.type) then some (evDckCardUnknown, c.off)
  else if c.version / 16 ≠ 1 then some (evDckCardVersion, c.off + 2)
  else none

/-- The first fault that a check finds over a list. -/
def firstFault {α : Type} (f : α → Option DeckFault) : List α → Option DeckFault
  | [] => none
  | a :: r => match f a with
    | some e => some e
    | none => firstFault f r

/-! ### Layout of payloads -/

/-- Size of one entry of a card with an entry table of a fixed entry size. -/
def entrySize (t : Nat) : Nat :=
  match t with
  | 2 => 8 | 3 => 32 | 5 => 16 | 7 => 16 | 8 => 32 | _ => 0

/-- Offsets of trick entries in a payload and the offset past the last, or nothing where the payload is short. -/
def trickOffsets (p : List Byte) : Nat → Nat → Option (List Nat × Nat)
  | 0, off => some ([], off)
  | n + 1, off =>
    if p.length < off + 16 then none
    else
      match trickOffsets p n (off + 16 + 8 * popBits 64 (inField p (off + 8) 8)) with
      | some (os, fin) => some (off :: os, fin)
      | none => none

/-- Length of the known fields of a payload, or nothing where it is shorter than they are (R71). -/
def knownLength (c : Card) : Option Nat :=
  let p := c.payload
  let fit (least n : Nat) : Option Nat := if p.length < least || p.length < n then none else some n
  match c.type with
  | 1 => fit 24 (24 + 16 * inField p 16 2 + 136 * inByte p 18)
  | 4 => if p.length < 8 then none else
    match trickOffsets p (inField p 0 4) 8 with
    | some (_, fin) => fit 8 fin
    | none => none
  | 6 => fit 16 (16 + 16 * inField p 4 2)
  | 9 => fit 32 32
  | 10 => fit 16 16
  | 11 => fit 64 (64 + 4 * inField p 8 2)
  | _ => fit 8 (8 + entrySize c.type * inField p 0 4)

/-- Offsets in a payload of its entries, or of its plays, descriptor initialisations, operations or members. -/
def entryOffsets (c : Card) : List Nat :=
  let p := c.payload
  let every (base size n : Nat) : List Nat := (List.range n).map fun i => base + size * i
  match c.type with
  | 4 => ((trickOffsets p (inField p 0 4) 8).map (·.1)).getD []
  | 6 => every 16 16 (inField p 4 2)
  | 11 => every 64 4 (inField p 8 2)
  | 1 => every 24 16 (inField p 16 2)
  | 9 => []
  | 10 => []
  | _ => every 8 (entrySize c.type) (inField p 0 4)

/-- Offsets of the descriptor initialisations of a program. -/
def descOffsets (c : Card) : List Nat :=
  (List.range (inByte c.payload 18)).map fun i => 24 + 16 * inField c.payload 16 2 + 136 * i

/-! ### Reserved bytes (check 11) -/

/-- Reserved bytes of a payload as offsets with the bits that must be zero. -/
def reservedBytes (c : Card) : List (Nat × Nat) :=
  let all (off n : Nat) : List (Nat × Nat) := (rangeFrom off n).map fun i => (i, 0xFF)
  let each (f : Nat → List (Nat × Nat)) : List (Nat × Nat) := (entryOffsets c).flatMap f
  match c.type with
  | 1 => all 19 5 ++ (descOffsets c).flatMap fun o => all (o + 1) 7
  | 2 => all 4 4 ++ each fun o => all (o + 7) 1
  | 3 => all 4 4 ++ each fun o => [(o + 3, 0xC0)] ++ all (o + 4) 4 ++ all (o + 25) 1 ++ all (o + 30) 2
  | 4 => all 4 4 ++ each fun o => all (o + 6) 2
  | 5 => all 4 4 ++ each fun o => all (o + 13) 3
  | 6 => all 3 1 ++ all 7 1
  | 7 => all 4 4 ++ each fun o => all (o + 2) 2 ++ all (o + 12) 4
  | 8 => all 4 4 ++ each fun o => [(o + 1, 0xFE)] ++ all (o + 10) 2 ++ all (o + 20) 4
  | 9 => all 24 8
  | 10 => [(8, 0xF0)] ++ all 9 1 ++ all 12 4
  | 11 => all 14 2 ++ all 28 4 ++ all 56 8
  | _ => []

/-- Check 11, reserved bytes: those of the known fields and, at minor version 0, every byte past them. -/
def reservedFault (c : Card) (known : Nat) : Option DeckFault :=
  match (reservedBytes c).find? fun e => inByte c.payload e.1 &&& e.2 ≠ 0 with
  | some e => some (evDckReservedNonzero, c.off + 16 + e.1)
  | none =>
    if c.version % 16 = 0 then
      ((rangeFrom known (c.payload.length - known)).find? fun i => inByte c.payload i ≠ 0).map fun i =>
        (evDckReservedNonzero, c.off + 16 + i)
    else none

/-! ### Field ranges (check 11) -/

/-- A field of a payload as offset, width in bytes, least and largest value. -/
def badField (p : List Byte) (off n lo hi : Nat) : List Nat :=
  let v := inField p off n
  if lo ≤ v && v ≤ hi then [] else [off]

/-- Keys already listed earlier: the offset of each repeat. -/
def repeats {α : Type} [DecidableEq α] : List (Nat × α) → List α → List Nat
  | [], _ => []
  | (o, k) :: r, seen => if seen.contains k then o :: repeats r seen else repeats r (k :: seen)

/-- Payload offsets of the bytes that fail check 11: of fields that are out of their stated range, of the plays that fail R120, the
descriptors that fail R193, the script operations that fail R260 and the regulator entries that break R244. A field of several bytes
that is out of range fails at its first byte, one whose byte has a range of its own at that byte (DESIGN CHOICE). -/
def badFields (c : Card) : List Nat :=
  let p := c.payload
  let es := entryOffsets c
  match c.type with
  | 1 =>
    let plays := es.map fun o => BitVec.ofNat 128 (inField p o 16)
    badField p 16 2 1 2048 ++ badField p 18 1 0 64 ++ ((badPlay plays.length 0 [] plays).map (24 + ·)).toList ++
      (descOffsets c).flatMap fun o =>
        badField p o 1 0 63 ++ ((badDesc (BitVec.ofNat 1024 (inField p (o + 8) 128))).map (o + 8 + ·)).toList
  | 2 => es.flatMap fun o =>
    badField p (o + 2) 1 0 63 ++ badField p (o + 3) 1 0 0x47 ++ badField p (o + 4) 1 0 1 ++ badField p (o + 5) 1 0 2 ++
      badField p (o + 6) 1 0 1
  | 3 => es.flatMap fun o =>
    (if inByte p (o + 2) < 64 || inByte p (o + 2) = 0xFF then [] else [o + 2]) ++
      (if inByte p (o + 3) % 4 < 2 then [] else [o + 3]) ++ strayByte (o + 14) (inField p (o + 14) 2) ++ badField p (o + 24) 1 0 2
  | 4 => es.flatMap fun o =>
    badField p o 2 1 16383 ++ badField p (o + 2) 1 0 63 ++ badField p (o + 3) 1 0 1
  | 5 => es.flatMap fun o =>
    let core (i : Nat) : List Nat := badField p i 1 0 63 ++ badField p (i + 1) 1 0 63
    badField p o 2 0 16383 ++ badField p (o + 2) 1 0 63 ++ badField p (o + 3) 1 0 2 ++ core (o + 4) ++ core (o + 6) ++
      (if inByte p (o + 3) = 0 then badField p (o + 8) 2 0xFFFF 0xFFFF else []) ++ badField p (o + 10) 2 1 4096 ++
      badField p (o + 12) 1 6 16
  | 6 =>
    let n := inField p 4 2
    let regions := inByte p 6
    badField p 0 2 0 4095 ++ badField p 2 1 0 63 ++ badField p 4 2 1 256 ++ badField p 6 1 1 4 ++
      ((List.range 4).filter (regions ≤ ·)).flatMap (fun i => badField p (8 + 2 * i) 2 0 0) ++
      ((badOp regions n 0 (some []) (es.map fun o => inField p o 16)).map (16 + ·)).toList
  | 7 =>
    es.flatMap (fun o =>
      badField p o 1 0 63 ++ badField p (o + 1) 1 0 9 ++ badField p (o + 4) 4 1 0xFFFFFFFF ++ badField p (o + 8) 4 4096 0xFFFFFFFF) ++
      repeats (es.map fun o => (o, inField p o 2)) []
  | 8 => es.flatMap fun o => badField p o 1 0 63
  | 9 =>
    let cls := inByte p 7
    badField p 4 2 1 256 ++ badField p 6 1 1 4 ++ badField p 7 1 0 2 ++
      badField p 8 2 (if cls = 0 then 40 else if cls = 1 then 80 else 160) 0xFFFF ++ badField p 12 4 1000 1000000 ++
      badField p 16 4 1 0xFFFFFFFF
  | 11 => badField p 8 2 1 8192 ++ (rangeFrom 16 12).flatMap fun i => badField p i 1 0 3
  | _ => []

/-- Check 11 on one selected critical card: length, reserved bytes, ranges. -/
def payloadFault (c : Card) : Option DeckFault :=
  if 0x8000 ≤ c.type then none
  else
    match knownLength c with
    | none => some (evDckCardField, c.off + 4)
    | some known =>
      match reservedFault c known with
      | some e => some e
      | none => (badFields c).min?.map fun i => (evDckCardField, c.off + 16 + i)

/-! ### Counts (check 12) -/

/-- Check 12: the first selected card past its type's largest count, or a type below its least. -/
def countFault (cs : List Card) : Option DeckFault :=
  let past := cardCounts.filterMap fun e => ((cs.filter (·.type = e.1)).drop e.2.2).head?.map (·.off)
  match past.min? with
  | some o => some (evDckCardCount, o)
  | none =>
    if cardCounts.any fun e => (cs.filter (·.type = e.1)).length < e.2.1 then some (evDckCardCount, 0xFFFFFFFF) else none

/-! ### The deck that the selected cards give -/

/-- The selected cards of a type. -/
def ofType (cs : List Card) (t : Nat) : List Card := cs.filter (·.type = t)

/-- Every entry of the cards of a type, read by a function of payload and offset, with its deck offset. -/
def cardEntries {α : Type} (cs : List Card) (t : Nat) (f : List Byte → Nat → α) : List (Nat × α) :=
  (ofType cs t).flatMap fun c => (entryOffsets c).map fun o => (c.off + 16 + o, f c.payload o)

/-- Core program card. -/
def readProgram (c : Card) : ProgramCard :=
  let p := c.payload
  { clusterMask := w64 (inField p 0 8), coreMask := w64 (inField p 8 8),
    plays := (entryOffsets c).map fun o => BitVec.ofNat 128 (inField p o 16),
    descs := (descOffsets c).map fun o => (inByte p o, BitVec.ofNat 1024 (inField p (o + 8) 128)) }

/-- Route entry. -/
def readRoute (p : List Byte) (o : Nat) : Route :=
  { route := inField p o 2, source := inByte p (o + 2), dest := inByte p (o + 3), order := inByte p (o + 4),
    ringDir := inByte p (o + 5), lane := inByte p (o + 6) }

/-- Recovery class by its code. -/
def recClassOf (n : Nat) : RecClass :=
  match n with
  | 0 => .none | 1 => .source | 2 => .recompute | _ => .replay

/-- Region entry. -/
def readRegion (p : List Byte) (o : Nat) : Region :=
  let attr := inByte p (o + 3)
  { region := inField p o 2, owner := inByte p (o + 2), banked := attr % 4 = 1, cls := recClassOf (fieldOf attr 2 2),
    hostShared := bitOf attr 4, scriptTarget := bitOf attr 5, base := inField p (o + 8) 8, size := inField p (o + 16) 8,
    srcKind := inByte p (o + 24), srcModule := inField p (o + 26) 2, srcRegion := inField p (o + 28) 2 }

/-- Trick entry. -/
def readTrick (p : List Byte) (o : Nat) : TrickEntry :=
  let cs := setBitsBelow 64 (inField p (o + 8) 8)
  { trick := inField p o 2, table := inByte p (o + 2), spanning := inByte p (o + 3) = 1, expected := inField p (o + 4) 2,
    masks := ((List.range cs.length).zip cs).map fun e => (e.2, w64 (inField p (o + 16 + 8 * e.1) 8)) }

/-- Credit stream entry. -/
def readStream (p : List Byte) (o : Nat) : StreamEntry :=
  { stream := inField p o 2, table := inByte p (o + 2), kind := inByte p (o + 3), producer := inField p (o + 4) 2,
    consumer := inField p (o + 6) 2, remote := inField p (o + 8) 2, initial := inField p (o + 10) 2, unitLog2 := inByte p (o + 12) }

/-- Bank script card. -/
def readScript (c : Card) : Script :=
  let p := c.payload
  { script := inField p 0 2, table := inByte p 2, regions := (List.range (inByte p 6)).map fun i => inField p (8 + 2 * i) 2,
    ops := (entryOffsets c).map fun o => parseOp (inField p o 16) }

/-- Regulator entry. -/
def readReg (p : List Byte) (o : Nat) : RegEntry :=
  { table := inByte p o, resource := inByte p (o + 1), refill := inField p (o + 4) 4, depth := inField p (o + 8) 4 }

/-- Table entry. -/
def readTable (p : List Byte) (o : Nat) : TableEntry :=
  { table := inByte p o, enabled := inByte p (o + 1) % 2 = 1, trickBase := inField p (o + 2) 2, trickCount := inField p (o + 4) 2,
    chanBase := inField p (o + 6) 2, chanCount := inField p (o + 8) 2, sessBase := inField p (o + 12) 4,
    sessCount := inField p (o + 16) 4, clusterMask := w64 (inField p (o + 24) 8) }

/-- Round plan card. -/
def readPlan (p : List Byte) : RoundPlan :=
  { budget := inField p 0 4, sessions := inField p 4 2, batch := inByte p 6, thermalClass := inByte p 7,
    refreshAllow := inField p 8 2, riders := inField p 10 2, trumpInterval := inField p 12 4, lapDeadline := inField p 16 4,
    drafts := inField p 20 2, prefetch := inField p 22 2 }

/-- Spare policy card; a deck without one has period 0 and no automatic repair (Table 3.13). -/
def readSpare (p : List Byte) : SparePolicy :=
  { windowPeriod := inField p 0 4, windowBudget := inField p 4 4, auto := inByte p 8, fuseMax := inField p 10 2 }

/-- Fabric role card. -/
def readRole (p : List Byte) : FabricRole :=
  { group := w32 (inField p 0 4), dealer := inField p 4 2, successor := inField p 6 2, widen := inField p 10 2,
    deepen := inField p 12 2, roles := (rangeFrom 16 12).map (inByte p), neighbours := (List.range 12).map fun i => inField p (32 + 2 * i) 2,
    members := (List.range (inField p 8 2)).map fun i => (inField p (64 + 4 * i) 2, inField p (66 + 4 * i) 2) }

/-- The payload of the first selected card of a type. -/
def payloadOf (cs : List Card) (t : Nat) : List Byte := ((ofType cs t).head?.map (·.payload)).getD []

/-- Identity of a deck from its header. -/
def readId (bs : List Byte) : DeckId :=
  { deckId := w64 (inField bs 32 8), serial := w32 (inField bs 40 4), digest := digestOf (cut bs 48 48), keySlot := inByte bs 28 }

/-- The deck that the selected cards give. -/
def readDeck (bs : List Byte) (cs : List Card) : Deck :=
  { id := readId bs, programs := (ofType cs 1).map readProgram, routes := (cardEntries cs 2 readRoute).map (·.2),
    regions := (cardEntries cs 3 readRegion).map (·.2), tricks := (cardEntries cs 4 readTrick).map (·.2),
    streams := (cardEntries cs 5 readStream).map (·.2), scripts := (ofType cs 6).map readScript,
    regs := (cardEntries cs 7 readReg).map (·.2), tables := (cardEntries cs 8 readTable).map (·.2),
    plan := readPlan (payloadOf cs 9), spare := readSpare (payloadOf cs 10), role := readRole (payloadOf cs 11),
    annotation := (payloadOf cs 0x8001).take 64 }

end Sys2Proof.Machine
end

