-- ==== Sys2Proof/Machine/DeckRules.lean ====
section
/-! DEFINITION. The cross-card rules of check 13 (R73 to R85, R121, R217, R261, R315, R407, R436, R461, R647) and the whole of a
deck's verification (R86, R651, Table 3.15). Every rule answers the deck offsets of the items that break it; the first of them is the
one reported. -/

namespace Sys2Proof.Machine

/-- The selected cards read once, each item with its deck offset. -/
structure Parsed where
  index : Nat
  programs : List (Nat × ProgramCard)
  routes : List (Nat × Route)
  regions : List (Nat × Region)
  tricks : List (Nat × TrickEntry)
  streams : List (Nat × StreamEntry)
  scripts : List (Nat × Script)
  tables : List (Nat × TableEntry)
  plan : Nat × RoundPlan
  role : Nat × FabricRole
  regionMap : Nat
  deriving DecidableEq, Repr

/-- Deck offset of the payload of the first selected card of a type. -/
def payloadAt (cs : List Card) (t : Nat) : Nat := ((ofType cs t).head?.map fun c => c.off + 16).getD 0

/-- Read the selected cards of a deck for the module of an index. -/
def parseCards (index : Nat) (cs : List Card) : Parsed :=
  { index := index, programs := (ofType cs 1).map fun c => (c.off + 16, readProgram c), routes := cardEntries cs 2 readRoute,
    regions := cardEntries cs 3 readRegion, tricks := cardEntries cs 4 readTrick, streams := cardEntries cs 5 readStream,
    scripts := (ofType cs 6).map fun c => (c.off + 16, readScript c), tables := cardEntries cs 8 readTable,
    plan := (payloadAt cs 9, readPlan (payloadOf cs 9)), role := (payloadAt cs 11, readRole (payloadOf cs 11)),
    regionMap := payloadAt cs 3 }

/-- The offsets of the items of a list that fail a test. -/
def failing {α : Type} (xs : List (Nat × α)) (ok : α → Bool) : List Nat := (xs.filter fun e => !ok e.2).map (·.1)

/-- The offsets of the items that share a span `[lo, hi)` with an earlier one. -/
def clashes {α : Type} (f : α → Nat × Nat) : List (Nat × α) → List α → List Nat
  | [], _ => []
  | (o, a) :: r, seen =>
    let x := f a
    let hit := seen.any fun b => let y := f b; x.1 < x.2 && y.1 < y.2 && x.1 < y.2 && y.1 < x.2
    if hit then o :: clashes f r (a :: seen) else clashes f r (a :: seen)

/-! ### Numbers that are unique in their map -/

/-- Numbers that the tables of chapter 3 call unique; a trick slot has one entry (DEDUCED: Table 9.1 holds one). -/
def uniqueRule (x : Parsed) : List Nat :=
  repeats (x.routes.map fun e => (e.1, e.2.route)) [] ++ repeats (x.regions.map fun e => (e.1, e.2.region)) [] ++
    repeats (x.tricks.map fun e => (e.1, e.2.trick)) [] ++ repeats (x.streams.map fun e => (e.1, e.2.stream)) [] ++
    repeats (x.tables.map fun e => (e.1, e.2.table)) [] ++ repeats (x.scripts.map fun e => (e.1, e.2.script)) []

/-! ### Tables (R80, R82, R436) -/

/-- Whether a range of `n` numbers from `b` lies in `lo` to `hi`. -/
def rangeIn (lo hi b n : Nat) : Bool := n = 0 || (lo ≤ b && b + n ≤ hi + 1)

/-- The round area of a table in a region map (R436). -/
def roundAreaOf (rs : List (Nat × Region)) (t : Nat) : Option Region :=
  let own := (rs.map (·.2)).filter fun r => r.owner = t && !r.banked && r.cls = .replay
  (own.map (·.region)).min?.bind fun n => own.find? fun r => r.region = n

/-- R80, R82 and R436. -/
def tableRule (x : Parsed) : List Nat :=
  failing x.tables (fun t =>
    rangeIn 1 16383 t.trickBase t.trickCount && rangeIn 0 16383 t.chanBase t.chanCount &&
      rangeIn 0 1048575 t.sessBase t.sessCount) ++
    clashes (fun t => (t.trickBase, t.trickBase + t.trickCount)) x.tables [] ++
    clashes (fun t => (t.chanBase, t.chanBase + t.chanCount)) x.tables [] ++
    clashes (fun t => (t.sessBase, t.sessBase + t.sessCount)) x.tables [] ++
    (repeats (x.tables.flatMap fun e => (setBitsBelow 64 e.2.clusterMask.toNat).map fun c => (e.1, c)) []) ++
    failing x.tables fun t =>
      (t.chanCount = 0 && t.sessCount = 0) || ((roundAreaOf x.regions t.table).any fun r => 2 ^ 20 ≤ r.size)

/-! ### Regions (R75 to R78, R84, R217, R461) -/

/-- A region by itself: R75, R77, R78, R84, R461. -/
def regionOk (r : Region) : Bool :=
  let grain := if r.banked then 2 ^ 10 else 2 ^ 15
  r.base < 2 ^ 39 && addrOffset r.base < 0x900000000 && addrOffset r.base + r.size ≤ 0x900000000 &&
    r.base % grain = 0 && r.size % grain = 0 &&
    (if r.cls = .source then r.srcKind = 1 || r.srcKind = 2 else r.srcKind = 0) &&
    (r.srcKind ≠ 1 || r.srcModule < 2 ^ 13) && (!r.scriptTarget || (r.banked && !r.hostShared)) &&
    (!(r.owner < 64 && isPool r.owner r) || (r.base % 2 ^ 21 = 0 && r.size % 2 ^ 21 = 0))

/-- The interleave units that a region overlaps, as a span. -/
def unitSpan (r : Region) : Nat × Nat := if r.size = 0 then (0, 0) else (r.base / 2 ^ 20, (r.base + r.size - 1) / 2 ^ 20 + 1)

/-- R217: a region of one mode that overlaps a unit of an earlier region of the other. -/
def modeClashes : List (Nat × Region) → List Region → List Nat
  | [], _ => []
  | (o, r) :: rest, seen =>
    let a := unitSpan r
    let hit := seen.any fun q => q.banked ≠ r.banked && a.1 < (unitSpan q).2 && (unitSpan q).1 < a.2
    if hit then o :: modeClashes rest (r :: seen) else modeClashes rest (r :: seen)

/-- R75 to R78, R84, R217, R461. -/
def regionRule (x : Parsed) : List Nat :=
  failing x.regions regionOk ++ clashes (fun r => (r.base, r.base + r.size)) x.regions [] ++ modeClashes x.regions [] ++
    failing x.regions (fun r =>
      r.region ≠ 0 || (r.owner = 0xFF && !r.banked && !r.hostShared && r.cls = .none && 2 ^ 29 ≤ r.size)) ++
    (if x.regions.any fun e => e.2.region = 0 then [] else [x.regionMap])

/-! ### Routes (R74) -/

/-- Hops between two clusters: ring distance of rows, column distance, and the repeater of the centre line (R21). -/
def meshHops (a b : Nat) : Nat :=
  let ra := a / 8
  let rb := b / 8
  let ca := a % 8
  let cb := b % 8
  min ((ra + 8 - rb) % 8) ((rb + 8 - ra) % 8) + (max ca cb - min ca cb) + (if decide (ca < 4) = decide (cb < 4) then 0 else 1)

/-- The cluster at which a route ends: DEST, or the cluster whose tap enters the stack (R20, R21). -/
def routeEnd (r : Route) : Nat :=
  if r.dest < 64 then r.dest
  else
    let near := nearClusters (r.dest - 64)
    let least := ((near.map (meshHops r.source)).min?).getD 0
    (near.find? fun c => meshHops r.source c = least).getD 0

/-- Whether a route crosses the ring seam between rows 7 and 0; north is toward row 0. -/
def crossesSeam (r : Route) : Bool :=
  let a := r.source / 8
  let b := routeEnd r / 8
  let north := if r.ringDir = 0 then (a + 8 - b) % 8 ≤ (b + 8 - a) % 8 else r.ringDir = 1
  if a = b then false else if north then a < b else b < a

/-- The lanes a route occupies. -/
def lanesOf (r : Route) : List Nat := if r.lane = 1 then [1] else if crossesSeam r then [0, 1] else [0]

/-- R74: `order` gives the ORDER of lanes that earlier routes occupy. -/
def routeOrder : List (Nat × Route) → (Nat → Option Nat) → List Nat
  | [], _ => []
  | (o, r) :: rest, order =>
    if (lanesOf r).any fun l => (order l).any (· ≠ r.order) then o :: routeOrder rest order
    else routeOrder rest fun l => if (lanesOf r).contains l then some r.order else order l

/-- R74. -/
def routeRule (x : Parsed) : List Nat :=
  failing x.routes (fun r => !(r.lane = 1 && crossesSeam r)) ++ routeOrder x.routes fun _ => none

/-! ### Tricks (R79, R80, R315) -/

/-- Flat numbers of the member cores of a trick entry. -/
def trickCores (e : TrickEntry) : List Nat := e.masks.flatMap fun m => (setBitsBelow 64 m.2.toNat).map (64 * m.1 + ·)

/-- Whether a core is a member of a trick. -/
def memberOf (e : TrickEntry) (core : Nat) : Bool := e.masks.any fun m => m.1 = core / 64 && bitOf m.2.toNat (core % 64)

/-- Whether this module has a child in the MEMBER_LIST. -/
def hasChild (x : Parsed) : Bool := x.role.2.members.any fun m => m.2 = x.index && m.1 ≠ x.index

/-- R315: entries that bring a core over 64 tricks; `n` counts what came before. -/
def trickLoad : List (Nat × TrickEntry) → Sparse Nat → List Nat
  | [], _ => []
  | (o, e) :: rest, n =>
    let cs := trickCores e
    let after := cs.foldl (fun m c => sput 0 m c (sget 0 m c + 1)) n
    if cs.any fun c => 64 < sget 0 after c then o :: trickLoad rest after else trickLoad rest after

/-- R79, R80, R315. -/
def trickRule (x : Parsed) : List Nat :=
  failing x.tricks (fun e =>
    e.expected = (trickCores e).length &&
      (x.tables.any fun t => t.2.table = e.table && t.2.trickBase ≤ e.trick && e.trick < t.2.trickBase + t.2.trickCount) &&
      (if e.spanning then e.expected ≠ 0 || hasChild x else e.expected ≠ 0)) ++ trickLoad x.tricks []

/-! ### Streams (R84, R315, R647) -/

/-- The round-closing trick of a table (R314). -/
def closingOf (x : Parsed) (t : Nat) : Option TrickEntry :=
  let ks := (x.tricks.map (·.2)).filter fun e => e.table = t && e.spanning
  (ks.map (·.trick)).min?.bind fun n => ks.find? fun e => e.trick = n

/-- The cores of this module that hold an end of a stream. -/
def endsOf (e : StreamEntry) : List Nat :=
  (if e.kind ≠ 2 then [coreOfField e.producer] else []) ++ (if e.kind ≠ 1 then [coreOfField e.consumer] else [])

/-- R84, R315: a table's streams need its round-closing trick, reported at the table, and every end is its member. -/
def streamRule (x : Parsed) : List Nat :=
  let tableAt (e : Nat × StreamEntry) : Nat := ((x.tables.find? fun t => t.2.table = e.2.table).map (·.1)).getD e.1
  failing x.streams (fun e => e.kind = 0 || e.remote < 2 ^ 13) ++
    (x.streams.filter fun e => (closingOf x e.2.table).isNone).map tableAt ++
    failing x.streams fun e => (closingOf x e.table).all fun k => (endsOf e).all (memberOf k)

/-! ### Programs (R73, R121, R315) -/

/-- Flat numbers of the cores that a program loads into. -/
def programCores (p : ProgramCard) : List Nat :=
  (setBitsBelow 64 p.clusterMask.toNat).flatMap fun c => (setBitsBelow 64 p.coreMask.toNat).map (64 * c + ·)

/-- R73: programs that name a core an earlier one names. -/
def programClashes : List (Nat × ProgramCard) → List (W64 × W64) → List Nat
  | [], _ => []
  | (o, p) :: rest, seen =>
    let hit := seen.any fun q => q.1 &&& p.clusterMask ≠ 0 && q.2 &&& p.coreMask ≠ 0
    if hit then o :: programClashes rest ((p.clusterMask, p.coreMask) :: seen)
    else programClashes rest ((p.clusterMask, p.coreMask) :: seen)

/-- The table of a cluster in the table map. -/
def tableFor (x : Parsed) (c : Nat) : Option Nat := (x.tables.find? fun t => bitOf t.2.clusterMask.toNat c).map (·.2.table)

/-- R121 and R315 on one play for one core: tricks, streams and scripts exist and belong to the core's table, the core is a member of
tricks it plays and holds the end of a stream that its role needs. A CTAKE serves either end. -/
def playOk (x : Parsed) (core v : Nat) : Bool :=
  let tab := tableFor x (core / 64)
  let id := fieldOf v 16 14
  let trick := (x.tricks.find? fun e => e.2.trick = id).map (·.2)
  let stream (n : Nat) := (x.streams.find? fun e => e.2.stream = n).map (·.2)
  let prod (e : StreamEntry) : Bool := e.kind ≠ 2 && coreOfField e.producer = core
  let cons (e : StreamEntry) : Bool := e.kind ≠ 1 && coreOfField e.consumer = core
  if isPlay v 4 0x01 || isPlay v 4 0x03 then trick.any fun e => some e.table = tab && memberOf e core
  else if isPlay v 4 0x02 then trick.any fun e => some e.table = tab
  else if isPlay v 4 0x04 then (stream id).any fun e => some e.table = tab && (prod e || cons e) && fieldOf v 30 13 ≤ e.initial
  else if isPlay v 4 0x05 then (stream id).any fun e => some e.table = tab && cons e
  else if isPlay v 3 0x07 then (stream (fieldOf v 64 14)).any fun e => some e.table = tab && prod e
  else if isPlay v 5 0x01 || isPlay v 5 0x02 then
    (x.scripts.find? fun e => e.2.script = fieldOf v 16 12).any fun e => some e.2.table = tab
  else true

/-- R73, R121, R315. -/
def programRule (x : Parsed) : List Nat :=
  programClashes x.programs [] ++ x.programs.flatMap fun p =>
    let cs := programCores p.2
    failing (((List.range p.2.plays.length).zip p.2.plays).map fun e => (p.1 + 24 + 16 * e.1, e.2))
      fun v => cs.all fun c => playOk x c v.toNat

/-! ### Scripts (R81, R261) -/

/-- The region of an operation's index. -/
def scriptRegionOf (x : Parsed) (p : Script) (i : Nat) : Option Region :=
  (p.regions[i]?).bind fun n => (x.regions.find? fun e => e.2.region = n).map (·.2)

/-- Device address of a row of a bank in banked placement (R262). -/
def bankedAddr (stack bank row : Nat) : Nat :=
  stack * 2 ^ 36 + (bank / 32 * 1536 + row / 32) * 2 ^ 20 + bank % 32 * 2 ^ 15 + row % 32 * 2 ^ 10

/-- Whether `n` rows of a bank from `row` lie in a region (R261). -/
def rowsIn (r : Region) (bank row n : Nat) : Bool :=
  n = 0 || (row + n ≤ 49152 && r.base ≤ bankedAddr (addrStack r.base) bank row &&
    bankedAddr (addrStack r.base) bank (row + n - 1) + 1024 ≤ r.base + r.size)

/-- Whether an operation's rows lie in its regions, on every bank that runs them. -/
def opRowsIn (x : Parsed) (p : Script) (o : ScriptOp) : Bool :=
  let inside (i bank row n : Nat) : Bool := n = 0 || ((scriptRegionOf x p i).any fun r => rowsIn r bank row n)
  if o.op = 0x12 then
    inside o.rb (xcopySource o) o.rowB (rowsB o) && (opBanks o).all fun b => inside o.ra b o.rowA (rowsA o)
  else (opBanks o).all fun b => inside o.ra b o.rowA (rowsA o) && inside o.rb b o.rowB (rowsB o)

/-- R261 on VALUE: it matches the last SCORE before it. -/
def valueMatches (last : Option ScriptOp) (o : ScriptOp) : Bool :=
  last.any fun k => k.chMask = o.chMask && k.slotMask = o.slotMask && fieldOf k.x 0 12 = fieldOf o.x 0 12 &&
    fieldOf k.x 12 4 = fieldOf o.x 12 4 && fieldOf k.x 16 4 = fieldOf o.x 16 4

/-- Offsets of the operations that break R261; `last` is the last SCORE. -/
def opFailures (x : Parsed) (p : Script) : List (Nat × ScriptOp) → Option ScriptOp → List Nat
  | [], _ => []
  | (off, o) :: rest, last =>
    let last := if o.op = 0x21 then some o else last
    let ok := opRowsIn x p o && (o.op ≠ 0x21 || opCount o * popBits 24 o.slotMask ≤ 4096) && (o.op ≠ 0x22 || valueMatches last o)
    if ok then opFailures x p rest last else off :: opFailures x p rest last

/-- R81, R261. -/
def scriptRule (x : Parsed) : List Nat :=
  x.scripts.flatMap fun e =>
    let rs := (List.range e.2.regions.length).map (scriptRegionOf x e.2)
    let ok := rs.all fun r => r.any fun r => r.scriptTarget && r.owner = e.2.table
    let homes := (rs.filterMap id).map fun r => addrStack r.base
    if ok && homes.all (some · = homes.head?) then
      opFailures x e.2 (((List.range e.2.ops.length).zip e.2.ops).map fun o => (e.1 + 16 + 16 * o.1, o.2)) none
    else [e.1]

/-! ### Fabric role and round plan (R84, R85, R407, Table 3.14) -/

/-- Whether a member's parents lead to the dealer within `n` links. -/
def reaches (ms : List (Nat × Nat)) (dealer : Nat) : Nat → Nat → Bool
  | 0, m => m = dealer
  | n + 1, m => m = dealer || ((ms.find? fun e => e.1 = m).any fun e => reaches ms dealer n e.2)

/-- R84 and R85: rules of a member at its entry, the others at the card. -/
def roleRule (x : Parsed) : List Nat :=
  let r := x.role.2
  let ms := ((List.range r.members.length).zip r.members).map fun e => (x.role.1 + 64 + 4 * e.1, e.2)
  let named (m : Nat) : Bool := r.members.any fun e => e.1 = m
  let whole := r.dealer < 2 ^ 13 && (r.successor = 0xFFFF || (r.successor < 2 ^ 13 && named r.successor)) && named r.dealer &&
    (r.neighbours.all fun m => m = 0xFFFF || m < 2 ^ 13) && r.widen * r.deepen = r.members.length &&
    r.members.all fun m => reaches r.members r.dealer r.members.length m.1
  (if whole then [] else [x.role.1]) ++
    failing ms (fun m => m.1 < 2 ^ 13 && (if m.1 = r.dealer then m.2 = 0xFFFF else m.2 < 2 ^ 13)) ++
    repeats (ms.map fun m => (m.1, m.2.1)) []

/-- R407. -/
def planRule (x : Parsed) : List Nat :=
  if x.plan.2.trumpInterval * 49152 ≤ x.plan.2.lapDeadline * 25000000 then [] else [x.plan.1]

/-! ### Verification (R86) -/

/-- Check 13: the deck offset of the first item that breaks a rule. -/
def consistencyFault (x : Parsed) : Option DeckFault :=
  (uniqueRule x ++ tableRule x ++ regionRule x ++ routeRule x ++ trickRule x ++ streamRule x ++ programRule x ++ scriptRule x ++
    roleRule x ++ planRule x).min?.map fun o => (evDckConsistency, o)

/-- The selected cards that count: those that are not skipped. An optional card with a bad payload is skipped too; the annotation has
no fields to be short of. -/
def counted (sel : List Card) : List Card := sel.filter fun c => !skipped c

/-- Checks 11 to 13 for the module of an index. -/
def selectionFault (index : Nat) (sel : List Card) : Option DeckFault :=
  let cs := counted sel
  match firstFault payloadFault cs with
  | some e => some e
  | none =>
    match countFault cs with
    | some e => some e
    | none => consistencyFault (parseCards index cs)

/-- Verify an image that was staged with `len` bytes: the first fault, and the cards selected once check 10 has passed. With no index
set, checks 11 to 13 are left to arming. -/
def verifyDeck (s : State) (bs : List Byte) (len : Nat) (index : Option Nat) : Option DeckFault × List Card :=
  match deckHeaderFault s bs len with
  | some e => (some e, [])
  | none =>
    match framesOf bs with
    | .error e => (some e, [])
    | .ok cs =>
      let sel := cs.filter (selects index)
      match firstFault typeFault sel with
      | some e => (some e, [])
      | none => (index.bind fun i => selectionFault i sel, sel)

end Sys2Proof.Machine
end

