-- ==== Sys2Proof/Machine/DeckCommands.lean ====
section
/-! DEFINITION. The deck commands: query, index, staging, arming, the switch, discarding, and the fill of page pools (R87 to R95,
R99, R100, R462, R649; Tables 3.15 to 3.20). -/

namespace Sys2Proof.Machine

/-! ### Helpers -/

/-- Refuse a deck command: its code stands in DECK_LAST_FAULT with no offset. -/
def deckRefuse (s : State) (cci op : Nat) (e : Ev) (a32 : List W32) (a64 : List W64) : State :=
  refuse (deckFault s e noOffset a32 a64) cci op (e.word uDeck)

/-- Refuse a deck command that the staging state does not allow (R88). -/
def stateRefuse (s : State) (cci op : Nat) : State :=
  deckRefuse s cci op evDckState [w32 op, w32 (stageNumber s.loader.stage)] []

/-- The temperature of the compute die as an event value. -/
def storeTemp (s : State) : W32 := BitVec.ofInt 32 (getDiode s 0).temp

/-- The image of a deck slot. -/
def slotImage (s : State) (k : Nat) : List Byte := if k = 0 then s.loader.slot0 else s.loader.slot1
/-- The mark of a deck slot. -/
def slotMark (s : State) (k : Nat) : Mark := if k = 0 then s.loader.mark0 else s.loader.mark1

/-- The staging slot (R649). -/
def stagingSlot (s : State) : Nat :=
  let l := s.loader
  if l.running.isSome then 1 - l.runningSlot
  else if l.mark0 = .empty then 0
  else if l.mark1 = .empty then 1
  else if l.mark0 = .active then 1
  else if l.mark1 = .active then 0
  else 0

/-- Log each skipped card of a deck's selected cards that has not been logged since the deck was staged (Table 3.23: once per card). -/
def noteSkipped (s : State) (cs : List Card) : State :=
  let new := cs.filter fun c => skipped c && !s.loader.skipLogged.contains c.off
  let s := new.foldl (fun s c => logGen s evDckOptionalSkipped uDeck none [w32 c.off, w32 c.type] []) s
  modLoader s fun l => { l with skipLogged := l.skipLogged ++ new.map (·.off) }

/-- SKIPPED of a deck that has verified: the skipped cards among those it selects (Table 3.20). -/
def countSkipped (cs : List Card) : Nat := min 255 (cs.filter skipped).length

/-- Where nothing is staged the checks do not begin; a deck that has been staged is VERIFYING from here on (Table 3.17, step 3). -/
def beginVerify (s : State) : State :=
  if s.loader.stage = .staged then modLoader s fun l => { l with stage := .verifying } else s

/-! ### DECK_QUERY and DECK_SET_INDEX -/

/-- DECK_QUERY: Table 3.18. -/
def execDeckQuery (cci : Fin 2) (input : List Byte) (s : State) : Out :=
  .next (vendor s cci.val 0xC010 input 0 noReserved false fun s _ =>
    let types := cardCounts.map (·.1) ++ [0x8001]
    replyOk s cci.val 0xC010 ([1, 0, 1, 0] ++ leBytes 2 types.length ++ [0, 0] ++ types.flatMap fun t => leBytes 2 t ++ [0x10, 0x10]))

/-- DECK_SET_INDEX: the index takes effect at once; it is kept in the configuration store when its window allows. A verified deck is
selected anew at arming. -/
def execDeckSetIndex (cci : Fin 2) (input : List Byte) (s : State) : Out :=
  .next (signed s cci.val 0xC011 input 8 (fun own => inField own 0 2 < 2 ^ 13 && zeroFrom own 2) false (fun _ => anyOwner) fun s own =>
    let st := s.loader.stage
    if !(st = .empty || st = .staged || st = .verified) then stateRefuse s cci.val 0xC011
    else
      let i := inField own 0 2
      replyOk (modLoader s fun l =>
        { l with index := some i, storedIndex := if storeWindow s then some i else l.storedIndex,
                 staged := if l.index = some i then l.staged else none }) cci.val 0xC011 [])

/-! ### Staging (steps 1 to 4 of Table 3.17) -/

/-- Read the next part of an image from host memory. -/
def fetchNext (s : State) : State :=
  let l := s.loader
  toHostReq s (.ioRead (l.fetchAddr + w64 l.fetched) (min 4096 (l.fetchLen - l.fetched)))

/-- Begin to stage an image of a length from host memory. -/
def stageDeck (s : State) (cci : Nat) (addr : W64) (len : Nat) : State :=
  if s.loader.stage ≠ .empty then stateRefuse s cci 0xC012
  else if len < 320 || len % 8 ≠ 0 || maxDeck < len then deckRefuse s cci 0xC012 evDckLength [noOffset] []
  else if !storeWindow s then deckRefuse s cci 0xC012 evDckStoreWindow [storeTemp s] []
  else
    let k := stagingSlot s
    let s := modLoader (startBg s cci 0xC012) fun l =>
      { l with stage := .staging, stageSlot := k, fetchAddr := addr, fetchLen := len, fetched := 0, staged := none, armed := none,
               slot0 := if k = 0 then [] else l.slot0, mark0 := if k = 0 then .empty else l.mark0,
               slot1 := if k = 1 then [] else l.slot1, mark1 := if k = 1 then .empty else l.mark1 }
    if s.host.busMaster then fetchNext s else failFetch s

/-- DECK_STAGE. -/
def execDeckStage (cci : Fin 2) (input : List Byte) (s : State) : Out :=
  .next (vendor s cci.val 0xC012 input 16 noReserved true fun s own =>
    stageDeck s cci.val (w64 (inField own 0 8)) (inField own 8 8))

/-- DECK_STAGE_READ_COMPLETION: data are written to the staging slot; after the last the deck is STAGED, and verification begins with the
next reference edge. An error, a poisoned or an empty completion ends staging. -/
def execDeckStageReadCompletion (data : List Byte) (error : Bool) (s : State) : Out :=
  if s.loader.stage ≠ .staging then .next s
  else if error || data.isEmpty then .next (failFetch s)
  else
    let d := data.take (s.loader.fetchLen - s.loader.fetched)
    let s := modLoader s fun l =>
      { l with fetched := l.fetched + d.length, slot0 := if l.stageSlot = 0 then l.slot0 ++ d else l.slot0,
               slot1 := if l.stageSlot = 1 then l.slot1 ++ d else l.slot1 }
    if s.loader.fetched < s.loader.fetchLen then .next (fetchNext s)
    else .next (modLoader s fun l => { l with stage := .staged })

/-- DECK_VERIFY_DONE: VERIFIED, or EMPTY with the first fault. -/
def execDeckVerifyDone (s : State) : Out :=
  let s := beginVerify s
  if s.loader.stage ≠ .verifying then .next s
  else
    let bs := slotImage s s.loader.stageSlot
    let v := verifyDeck s bs s.loader.fetchLen s.loader.index
    let s := noteSkipped s v.2
    match v.1 with
    | some (e, o) => .next (failStage s e (w32 o) [w32 o] [])
    | none =>
      let s := modLoader s fun l =>
        { l with stage := .verified, skipped := countSkipped v.2,
                 staged := if l.index.isSome then some (readDeck bs (counted v.2)) else none }
      .next (endBackground s 0xC012 .success 0 [])

/-! ### Arming (R91, steps 5 to 7 of Table 3.17) -/

/-- Whether the new map of a table leaves out something that the table holds open. -/
def tableConflict (s : State) (d : Deck) (t : Nat) : Bool :=
  let cs := (s.channels.filter fun e => e.2.state ≠ .free && e.2.table = t).map (·.1)
  let ss := (s.sessions.filter fun e => e.2.state ≠ .free && e.2.table = t).map (·.1)
  match d.tables.find? fun e => e.table = t with
  | none => !cs.isEmpty || !ss.isEmpty
  | some n =>
    cs.any (fun i => i < n.chanBase || n.chanBase + n.chanCount ≤ i) || ss.any fun i => i < n.sessBase || n.sessBase + n.sessCount ≤ i

/-- Whether some committed decoder maps a byte of a region; a decoder that is interleaved maps its part of the module's addresses. -/
def windowOver (s : State) (r : Region) : Bool :=
  let lo := dpaOfAddr r.base
  s.host.decoders.any fun e =>
    e.2.committed && e.2.dpaBase < lo + r.size && lo < e.2.dpaBase + e.2.size / max 1 e.2.ways

/-- Whether two regions have the same BASE, SIZE and ATTR. -/
def sameExtent (a b : Region) : Bool :=
  a.base = b.base && a.size = b.size && a.banked = b.banked && a.cls = b.cls && a.hostShared = b.hostShared && a.scriptTarget = b.scriptTarget

/-- The table at which a deck conflicts with the running module; 0xFF stands for the module area (R91). A region of the new map is
the same one when it has the BASE (DEDUCED). -/
def liveConflict (s : State) (d : Deck) : Option Nat :=
  match deckOf s with
  | none => none
  | some old =>
    match (List.range 64).find? (tableConflict s d) with
    | some t => some t
    | none =>
      let moved := old.regions.find? fun r => r.hostShared && windowOver s r && !(d.regions.any (sameExtent r))
      match moved with
      | some r => some r.owner
      | none =>
        match old.regions.find? (·.region = 0), d.regions.find? (·.region = 0) with
        | some a, some b => if a.base ≤ b.base && b.base + b.size ≤ a.base + a.size then none else some 0xFF
        | _, _ => none

/-- The deck that the staged image gives this module, with the faults that arming finds: no index, checks 10 to 13 for cards that
verification has not seen, the group, the running module. The answer also carries the selected cards. -/
def armChecks (s : State) (bs : List Byte) : (List Card × Except (Ev × W32 × List W32) Deck) :=
  match s.loader.index with
  | none => ([], .error (evDckArmIndex, noOffset, [0xFFFF]))
  | some i =>
    match framesOf bs with
    | .error e => ([], .error (e.1, w32 e.2, [w32 e.2]))
    | .ok cs =>
      let sel := cs.filter (selects (some i))
      let fault := if s.loader.staged.isSome then none else (firstFault typeFault sel).orElse fun _ => selectionFault i sel
      match fault with
      | some e => (sel, .error (e.1, w32 e.2, [w32 e.2]))
      | none =>
        let d := readDeck bs (counted sel)
        if !d.role.members.any (·.1 = i) then (sel, .error (evDckArmIndex, noOffset, [w32 i]))
        else
          match liveConflict s d with
          | some t => (sel, .error (evDckArmLiveConflict, noOffset, [w32 t]))
          | none => (sel, .ok d)

/-- DECK_ARM: the arm checks, then the load image is built. -/
def execDeckArm (cci : Fin 2) (input : List Byte) (s : State) : Out :=
  .next (vendor s cci.val 0xC013 input 0 noReserved true fun s _ =>
    if s.loader.stage ≠ .verified then stateRefuse s cci.val 0xC013
    else
      let a := armChecks s (slotImage s s.loader.stageSlot)
      let s := startBg (noteSkipped s a.1) cci.val 0xC013
      match a.2 with
      | .ok d =>
        modLoader s fun l =>
          { l with stage := .arming, staged := some d, skipped := countSkipped a.1 }
      | .error (e, o, args) => endBackground (deckFault s e o args []) 0xC013 .invalidInput (e.word uDeck) [])

/-- Build the load image of a deck in its module area (step 6 of Table 3.17). The manual gives neither its form nor its place: its lines
are free values, as many as the deck's own bytes fill, at a free place past the first 256 MiB of the area, which hold the structures of
chapters 13 and 14 (DESIGN CHOICE). -/
def writeImage (s : State) (d : Deck) (bytes : Nat) : State :=
  match d.regions.find? (·.region = 0) with
  | none => s
  | some r =>
    let n := ceilDiv bytes 64
    let v := takeFree s
    let first := r.base / 64 + 2 ^ 22 + v.1.toNat % (r.size / 64 - 2 ^ 22 - n + 1)
    let s := modLoader v.2 fun l => { l with newImage := (first, n) }
    (rangeFrom first n).foldl (fun s line =>
      let q := freeLine s
      fwWriteLine q.2 { line := line, data := q.1, mask := fullMask, poison := 0, sender := .none }) s

/-- DECK_ARM_BUILD_DONE: the load image is built. -/
def execDeckArmBuildDone (s : State) : Out :=
  if s.loader.stage ≠ .arming then .next s
  else
    let s := match s.loader.staged with
      | some d => writeImage s d s.loader.fetchLen
      | none => s
    .next (endBackground (modLoader s fun l => { l with stage := .armed, armed := l.staged }) 0xC013 .success 0 [])

/-! ### The switch and discarding -/

/-- Whether this module runs a deck but is held out of its group (R98). -/
def heldOut (s : State) : Bool := s.ctl.group = .forming && !isDealer s

/-- DECK_SWITCH: step 1 of Table 3.19, and the gather of step 2. A module held out of its group switches alone. -/
def execDeckSwitch (cci : Fin 2) (input : List Byte) (s : State) : Out :=
  .next (vendor s cci.val 0xC014 input 0 noReserved true fun s _ =>
    match s.loader.stage, s.loader.armed with
    | .armed, some a =>
      if a.role.dealer ≠ ownIndex s && !heldOut s then deckRefuse s cci.val 0xC014 evDckNotDealer [w32 a.role.dealer] []
      else
        let alone := heldOut s
        let s := modLoader (startBg s cci.val 0xC014) fun l => { l with phase := .gathering, gathered := [], alone := alone }
        let s := startDeadline s .gather
        match switchDeck s with
        | none => s
        | some d =>
          let ms := if alone then [] else otherMembers s d
          let s := ms.foldl (fun s m => sendFrame s m 64 .switchGather) s
          if ms.isEmpty then gatherDone s d else s
    | _, _ => stateRefuse s cci.val 0xC014)

/-- What a discard does in a state from EMPTY to ARMED (R93). -/
def discardStaged (s : State) : State :=
  let st := s.loader.stage
  let note := [w32 (stageNumber st)]
  match st with
  | .empty => s
  | .staging => failStage s evDckDiscarded noOffset note []
  | .staged => failStage s evDckDiscarded noOffset note []
  | .verifying => failStage s evDckDiscarded noOffset note []
  | .arming =>
    endBackground (dropStaged (deckFault s evDckDiscarded noOffset note [])) 0xC013 .invalidInput (evDckDiscarded.word uDeck) []
  | _ => dropStaged s

/-- A discard while a switch is announced or gathered: the dealer cancels it for the group, a member answers "not armed". -/
def discardSwitch (s : State) : State :=
  if s.loader.phase = .none then s
  else if switchRoot s then
    let c := evDckDiscarded.word uDeck
    startRounds (endSwitch (logGen s evDckDiscarded uDeck none [w32 (stageNumber s.loader.stage)] []) c c)
  else openHeld (answerSwitch (modLoader (cancelSwitch s) fun l => { l with stage := .empty }))

/-- DECK_DISCARD: the answer byte of R93. From the first release of the switch trick to the second, while the module loads the deck or has
played again, the answer is 1 (DESIGN CHOICE: R93 speaks of one release; a module whose load is not over has not switched). -/
def execDeckDiscard (cci : Fin 2) (input : List Byte) (s : State) : Out :=
  .next (vendor s cci.val 0xC015 input 0 noReserved false fun s _ =>
    match s.loader.phase with
    | .played => replyOk s cci.val 0xC015 [1]
    | .loading => replyOk s cci.val 0xC015 [1]
    | .replayed => replyOk s cci.val 0xC015 [1]
    | .marking => replyOk s cci.val 0xC015 [2]
    | _ => replyOk (if s.loader.phase = .none then discardStaged s else dropStaged (discardSwitch s)) cci.val 0xC015 [0])

/-! ### Page pools (R462) -/

/-- Fill a frame: zero data, valid checks, no poison. -/
def fillFrame (s : State) (frame : Nat) : State :=
  (List.range 32768).foldl (fun s i =>
    let a := frame * 2 ^ 21 + 64 * i
    clearUnrepaired (unrefuse (writeLine s (placeOf s a) 0 false) (a / 64)) (a / 64)) s

/-- Whether the write window of a stack holds a fill (R236). -/
def fillHeld (s : State) : Bool := s.loader.fillFrames.any fun f => (getStack s (addrStack (f * 2 ^ 21))).writeHold

/-- POOL_FILL_DONE: the fills end; the first round mark of the deck is accepted. Fills that the write window holds are not over. -/
def execPoolFillDone (s : State) : Out :=
  if !s.loader.poolFill || fillHeld s then .next s
  else
    let s := s.loader.fillFrames.foldl fillFrame s
    let s := modLoader s fun l => { l with poolFill := false, fillFrames := [] }
    .next (if isDealer s then startRounds s else openHeld s)

end Sys2Proof.Machine
end

