-- ==== Sys2Proof/Machine/Scrubber.lean ====
section
/-! DEFINITION. The scrubbers (R403 to R408, Table 12.11). -/

namespace Sys2Proof.Machine

/-- Whether a row of a bank lies in a region of the running deck. -/
def inRegions (s : State) (stack bank row : Nat) : Bool := (regionOf s (rowAddr s stack bank row)).isSome

/-- The next row of a bank that the lap has still to read. -/
def scrubRow (s : State) (stack bank : Nat) : Option Nat :=
  let c := sget 0 (getStack s stack).scrub.cursors bank
  searchFrom (inRegions s stack bank) (49152 - c) c

/-- Rows read in the lap, per mille. -/
def coverage (k : Scrub) : Nat := if k.total = 0 then 0 else 1000 * k.read / k.total

/-- Change a stack's scrubber. -/
def modScrub (s : State) (stack : Nat) (f : Scrub → Scrub) : State := modStack s stack fun k => { k with scrub := f k.scrub }

/-- SCRUB_ROW_START: a scrub row starts on an idle bank with rows left (R404). -/
def execScrubRowStart (stack : Fin 8) (bank : Fin 768) (s : State) : Out :=
  let n := stack.val
  if (getStack s n).scrub.running && bankIdle s n bank.val && (scrubRow s n bank.val).isSome then
    .next (modScrub s n fun c => { c with active := c.active ++ [bank.val] })
  else .next s

/-- TRUMP_SCRUB_DUE: in trump, every bank with rows left owes one scrub row, at once where no row operation is in progress
(R287, R405). -/
def execTrumpScrubDue (stack : Fin 8) (s : State) : Out :=
  let n := stack.val
  let k := getStack s n
  if !k.scrub.trump then .next s
  else
    let bs := (List.range 768).filter fun b => (scrubRow s n b).isSome && !k.scrub.active.contains b
    let s := modScrub s n fun c => { c with owed := bs }
    .next (bs.foldl (fun s b => if bankInRow (getStack s n) b then s else bankBoundary s n b) s)

/-- Lines of a scrub row: those with a buffer entry or under repair are skipped (R229, R396). -/
def scrubLines (s : State) (stack bank row : Nat) : List Nat :=
  (List.range 16).filter fun i =>
    (wcbEntry (getStack s stack) (lineOfRow s stack bank row i)).isNone && !underRepair s (lineOfRow s stack bank row i)

/-- Read and test one row; lines already poisoned are counted (R408). -/
def scrubRead (s : State) (stack bank row : Nat) (dist : List (Nat × Nat)) : State :=
  let at_ (i : Nat) := lineOfRow s stack bank row i
  let raws := (scrubLines s stack bank row).map fun i =>
    (i, readRaw s { stack := stack, bank := bank, row := row, line := i })
  let s := modScrub s stack fun c =>
    { c with poisoned := c.poisoned + (raws.filter fun e => e.2.pass && e.2.poisoned).length }
  let t := raws.foldl (fun (a : State × List Nat) e =>
    let r := testLine a.1 (at_ e.1) (failsAt dist e.1)
    (r.1, if r.2 then a.2 else a.2 ++ [e.1])) (s, [])
  let s := if t.2.isEmpty then t.1 else logPersistent t.1 stack bank row ((t.2.map fun i => 2 ^ i).sum) 3
  t.2.foldl (fun s i => (actPersistent s (at_ i) 3 .firmware false).1) s

/-- A lap ends when every row has been read: it is logged with its duration and the next one starts (R403, R406). -/
def endLap (s : State) (stack : Nat) : State :=
  let k := getStack s stack
  if k.scrub.running && k.scrub.total ≤ k.scrub.read then
    let ms := (k.meter.toNat - k.scrub.start) / 100000
    let s := logGen s evIntScrubLapDone (uStack stack) none [w32 ms] []
    startLap (modScrub s stack fun c => { c with laps := (c.laps + 1) % 4096, lastLap := ms }) stack
  else s

/-- SCRUB_ROW_DONE: a scrub row ends, its failing lines are handled, and the bank meets a row boundary. -/
def execScrubRowDone (stack : Fin 8) (bank : Fin 768) (disturbed : List (Nat × Nat)) (s : State) : Out :=
  let n := stack.val
  if !(getStack s n).scrub.active.contains bank.val then .next s
  else
    let s := modScrub s n fun c => { c with active := c.active.filter (· ≠ bank.val) }
    match scrubRow s n bank.val with
    | none => .next (bankBoundary s n bank.val)
    | some row =>
      let s := scrubRead s n bank.val row disturbed
      let s := modScrub s n fun c => { c with cursors := sput 0 c.cursors bank.val (row + 1), read := c.read + 1 }
      .next (bankBoundary (endLap s n) n bank.val)

/-- SCRUB_LAP_TRUMP_CHECK: 75 % of the deadline is used; with less than 75 % of the rows read the scrubber is trump
(R405). -/
def execScrubLapTrumpCheck (stack : Fin 8) (s : State) : Out :=
  let n := stack.val
  let c := (getStack s n).scrub
  if c.running && !c.trump && 4 * c.read < 3 * c.total then
    .next (logGen (modScrub s n fun c => { c with trump := true }) evIntScrubTrump (uStack n) none [w32 (coverage c)] [])
  else .next s

/-- SCRUB_LAP_DEADLINE: a lap that passes its deadline is logged once (R406). -/
def execScrubLapDeadline (stack : Fin 8) (s : State) : Out :=
  let n := stack.val
  let c := (getStack s n).scrub
  if c.running && !c.late then
    .next (logGen (modScrub s n fun c => { c with late := true }) evIntScrubLapLate (uStack n) none [w32 (coverage c)] [])
  else .next s

end Sys2Proof.Machine
end

