-- ==== Sys2Proof/Machine/Registers.lean ====
section
/-! DEFINITION. The registers of BAR0: what a read of each returns, and what writes do (R12, R55, R57, R104, R153, R240, R245, R246,
R298, R327, R378, R411, R454, R494, R499, R500, R516, R526, R539, R543, R553, R554, R590). Offsets that no block defines read zero. -/

namespace Sys2Proof.Machine

/-- A flag as a number. -/
def flag (b : Bool) (bit : Nat) : Nat := if b then 2 ^ bit else 0
/-- A count that a field of `w` bits holds, at its largest value beyond. -/
def capped (w n : Nat) : Nat := min (2 ^ w - 1) n

/-! ### Identity, events and heartbeat (Tables 15.4, 15.13, 17.7, 17.8) -/

/-- The number of ID_STATE.STATE. -/
def idStateNumber : IdState → Nat
  | .boot => 0 | .selfTest => 1 | .running => 2 | .misdeal => 3

/-- The ID block. -/
def idWord (s : State) (o : Nat) : Nat :=
  match o with
  | 0x00 => 0x31414C56 | 0x04 => 0x3838322D | 0x08 => 0x00000101 | 0x0C => 0x00010001
  | 0x10 => ((runningFw s).map fun f => f.major * 2 ^ 24 + f.minor * 2 ^ 16 + f.patch * 2 ^ 8).getD 0 + flag (runSlot s = 1) 0
  | 0x14 => flag s.ctl.mediaReady 8 + idStateNumber s.ctl.idState
  | _ => 0

/-- The EVT block. -/
def evtWord (s : State) (o : Nat) : Nat :=
  match o with
  | 0x0 => (sget 0 s.seqs 0).toNat
  | 0x4 => s.host.partnerLastSec * 2 ^ 16 + capped 16 s.host.partnerTotal
  | _ => 0

/-- The number of a group state (Table 17.8). -/
def groupNumber : GroupState → Nat
  | .none => 0 | .forming => 1 | .serving => 2 | .recovering => 3 | .held => 4 | .window => 5

/-- The HB block. -/
def hbWord (s : State) (o : Nat) : Nat :=
  let c := s.ctl
  match o with
  | 0x00 => c.mgmtCount.toNat
  | 0x04 => capped 8 c.hangs * 2 ^ 16 + capped 8 c.mgmtRestarts * 2 ^ 8 + flag c.standbyReady 1 + c.activeCore % 2
  | 0x08 => c.beat0.toNat
  | 0x0C => c.beat1.toNat
  | 0x10 =>
    let k := if c.recovering.isEmpty then (0, 0) else domainKind c.recKind
    flag (!c.recovering.isEmpty) 31 + k.1 * 2 ^ 27 + k.2 * 2 ^ 22 + capped 16 c.recCount
  | 0x14 => capped 16 s.host.dmaDrops
  | 0x18 => flag c.demoted 4 + flag (isDealer s) 3 + groupNumber c.group
  | _ => 0

/-! ### Thermal and power (Tables 16.7 to 16.9) -/

/-- The throttle depth that applies to a domain (R542). -/
def depthOf (s : State) (n : Nat) : Nat :=
  if n = 16 then s.power.depthNb0 else if n = 17 then s.power.depthNb1 else s.power.depthDie

/-- The rail of a domain in millivolts: the larger of 650 and SETPOINT − 25 × D, and 0 while it is off (R539). -/
def railOf (s : State) (n : Nat) : Nat :=
  let d := getDomain s n
  if d.on then max 650 (d.setpoint - 25 * depthOf s n) else 0

/-- The THERM block. -/
def thermWord (s : State) (o : Nat) : Nat :=
  let p := s.power
  if o = 0 then
    flag (fuseWindow s 0) 17 + flag (storeWindow s) 16 + flag p.tripLatch 15 + flag p.shutdown 14 +
      flag (p.floorDie || p.floorNb0 || p.floorNb1) 13 + p.depthNb1 * 2 ^ 8 + p.depthNb0 * 2 ^ 4 + p.depthDie
  else if o = 4 then flag p.limitRejected 8 + p.throttleAt
  else if 0x10 ≤ o && o < 0x34 then
    let d := getDiode s ((o - 0x10) / 4)
    flag d.valid 31 + flag d.failed 30 + d.interval * 2 ^ 28 + (d.temp % 4096).toNat
  else 0

/-- The PWR block. -/
def pwrWord (s : State) (o : Nat) : Nat :=
  if o = 0 then capped 16 s.power.watts * 2 ^ 16 + capped 16 s.power.voltage
  else if 0x100 ≤ o && o < 0x150 then
    let n := (o - 0x100) / 4
    let d := getDomain s n
    flag d.on 31 + flag d.inReg 30 + depthOf s n * 2 ^ 26 + railOf s n * 2 ^ 10 + d.setpoint
  else 0

/-! ### Deck, tables, regulators (Tables 3.20 to 3.22, 7.11, 7.12, 13.17) -/

/-- The DECK block. -/
def deckWord (s : State) (o : Nat) : Nat :=
  let l := s.loader
  match o with
  | 0x0 => capped 8 l.skipped * 2 ^ 8 + flag l.running.isSome 4 + flag (l.running.isSome && l.runningSlot = 1) 3 + stageNumber l.stage
  | 0x4 => l.lastFault.toNat
  | 0x8 => l.faultOffset.toNat
  | 0xC => flag l.index.isSome 31 + l.index.getD 0 % 2 ^ 13
  | _ => 0

/-- The TBL block of a table. -/
def tblWord (s : State) (t o : Nat) : Nat :=
  let k := getTable s t
  match o with
  | 0x00 => flag k.disabling 1 + flag k.enabled 0
  | 0x04 => k.rounds.toNat
  | 0x08 => capped 32 k.overruns
  | 0x0C => capped 32 k.folds
  | 0x10 => capped 32 k.promotions
  | 0x14 => (s.sessions.filter fun e => e.2.state ≠ .free && e.2.table = t).length
  | _ => 0

/-- The RGL block of a pair. ENABLE, REFILL and DEPTH read the value last written, which may still wait for its microsecond (R12). -/
def rglWord (s : State) (pair o : Nat) : Nat :=
  let r := getReg s pair
  let v := r.pend.getD (r.enable, r.refill, r.depth)
  match o with
  | 0x0 => flag r.rejected 2 + flag r.pend.isSome 1 + flag v.1 0
  | 0x4 => v.2.1.toNat
  | 0x8 => v.2.2.toNat
  | 0xC => (r.level % 2 ^ 32).toNat
  | _ => 0

/-! ### Watch unit, channels, tricks (Tables 9.5 to 9.8, 13.16, 15.8) -/

/-- The WATCH block. -/
def watchWord (s : State) (o : Nat) : Nat :=
  if o = 0 then (s.channels.filter fun e => e.2.held).length
  else if 0x10000 ≤ o && o < 0x20000 then
    let c := getChan s ((o - 0x10000) / 4)
    flag c.held 31 + flag c.wakePending 30 + capped 16 c.wakes
  else 0

/-- The CHAN block. -/
def chanWord (s : State) (o : Nat) : Nat :=
  if o < 0x40000 then (((chanWords s (o / 16))[o % 16 / 4]?).getD 0).toNat else 0

/-- A trick slot's registers. -/
def slotWord (s : State) (n o : Nat) : Nat :=
  let t := getTrick s n
  match o with
  | 0x0 => t.epoch.toNat
  | 0x4 => t.expected * 2 ^ 16 + t.arrived
  | 0x8 => t.children * 2 ^ 16 + t.childArrived
  | 0xC => flag t.sent 10 + flag t.valid 9 + flag t.spanning 8 + t.table
  | _ => 0

/-- A stream's registers. -/
def streamWord (s : State) (n o : Nat) : Nat :=
  let k := getStream s n
  match o with
  | 0x0 => flag k.stopped 31 + flag k.prodValid 30 + k.avail * 2 ^ 13 + k.taken
  | 0x4 => flag k.consValid 31 + k.delivered * 2 ^ 13 + k.held
  | 0x8 => if k.prodValid then k.ptally.toNat else 0
  | 0xC => if k.consValid then k.ctally.toNat else 0
  | _ => 0

/-- One of the four counts of a table's tallies. -/
def tallyCount (s : State) (t k : Nat) : W64 :=
  let y := getTally s t
  match k with
  | 0 => y.tokProd | 1 => y.tokCons | 2 => y.reqProd | _ => y.reqCons

/-- A table's tally registers; a hi register reads what the last read of its lo register has latched (R327). -/
def tallyWord (s : State) (t o : Nat) : Nat :=
  if o < 0x20 then
    if o % 8 = 0 then (tallyCount s t (o / 8)).toNat % 2 ^ 32 else (sget 0 s.talHi (4 * t + o / 8)).toNat
  else if o = 0x20 then capped 32 (getTally s t).drifts
  else if o = 0x24 then (getTally s t).lastEpoch.toNat
  else 0

/-- The TRK block. -/
def trkWord (s : State) (o : Nat) : Nat :=
  if o = 0 then capped 16 s.spanLateDrops * 2 ^ 16
  else if 0x10000 ≤ o && o < 0x20000 then slotWord s ((o - 0x10000) / 16) (o % 16)
  else if 0x60000 ≤ o && o < 0xB0000 then streamWord s ((o - 0x60000) / 16) (o % 16)
  else if 0xB0000 ≤ o && o < 0xB1000 then tallyWord s ((o - 0xB0000) / 64) (o % 64)
  else 0

/-! ### Fabric and stacks (Tables 7.9, 8.11, 11.13 to 11.15, 12.10 to 12.12) -/

/-- The number of a port state. -/
def portNumber : PortState → Nat
  | .off => 0 | .training => 1 | .mgmtOnly => 2 | .active => 3 | .quarantined => 4 | .retired => 5 | .failed => 6 | .incompatible => 7

/-- A port's registers. -/
def portWord (s : State) (n o : Nat) : Nat :=
  let p := getPort s n
  match o with
  | 0x0 =>
    (p.peer.map fun b => 2 ^ 31 + b.module % 2 ^ 13 * 2 ^ 18 + b.port % 16 * 2 ^ 14).getD 0 + p.verMinor % 16 * 2 ^ 10 +
      p.verMajor % 16 * 2 ^ 6 + p.role % 4 * 2 ^ 4 + portNumber p.state
  | 0x4 => capped 16 p.violations * 2 ^ 16 + capped 16 p.replays
  | 0x8 => capped 16 p.lastSecond
  | 0xC => capped 32 p.corrected
  | _ => 0

/-- The FAB block. -/
def fabWord (s : State) (o : Nat) : Nat :=
  if o = 0 then flag s.routesPending.isSome 16 + s.quarThreshold.toNat
  else if o = 4 then capped 16 s.genLateDrops * 2 ^ 16 + s.gen.toNat
  else if 0x100 ≤ o && o < 0x1C0 then portWord s ((o - 0x100) / 16) (o % 16)
  else 0

/-- The STK block of a stack. -/
def stkWord (s : State) (n o : Nat) : Nat :=
  let k := getStack s n
  match o with
  | 0x00 =>
    capped 11 k.refused.length * 2 ^ 16 + flag k.refusedFull 5 + flag (stackAsleep k) 4 + flag k.overClass 3 + flag k.writeHold 2 +
      k.refreshStep
  | 0x10 => capped 16 k.lateDrops * 2 ^ 16 + flag k.busNow.isSome 9 + k.permits
  | 0x20 => capped 16 k.persistent * 2 ^ 16 + capped 16 k.transient
  | 0x24 => flag k.scrub.trump 31 + flag k.scrub.late 30 + k.scrub.laps % 4096 * 2 ^ 12 + coverage k.scrub
  | 0x28 => capped 32 k.scrub.lastLap
  | 0x2C =>
    let full := k.pendingSpare.any fun e => 256 ≤ sget 0 k.sparesUsed e.bank
    flag (256 ≤ k.pendingSpare.length) 31 + flag full 30 + capped 9 k.pendingSpare.length * 2 ^ 16 +
      capped 8 k.softRows.length * 2 ^ 8 + capped 8 k.fused
  | _ => 0

/-! ### Telemetry (Tables 2.6 to 2.9, 4.18, 12.13, 14.9) -/

/-- Whether the compute die's meter advances from its ring oscillator, or has lost its reference clock at least once. -/
def meterStatus (s : State) : Nat := flag s.refLostSeen 1 + flag s.ringOsc 0

/-- The faulted logical cores of a cluster from a core on. -/
def faultedWord (s : State) (c from_ : Nat) : Nat :=
  ((List.range 32).map fun k => flag ((getCore s (64 * c + from_ + k)).run = .faulted) k).sum

/-- A table's cache registers; zero on a module that is not a dealer (R494). -/
def kvWord (s : State) (t o : Nat) : Nat :=
  if !isDealer s then 0
  else
    match o with
    | 0x0 => (s.cache.pages.filter fun e => inMemory e.1 && e.2.table = t && e.2.state ≠ .free && !e.2.dirtyFree).length
    | 0x4 => (s.cache.spillUsed.filter (·.1 = t)).length
    | 0x8 => 32 * poolPages s t - ((List.range 32).map (usedPages s t)).sum
    | 0xC => flag s.cache.rebuilding 31 + capped 23 (s.cache.pages.filter fun e => e.2.shared && e.2.table = t).length
    | _ => 0

/-- The TEL block. -/
def telWord (s : State) (o : Nat) : Nat :=
  if o = 0 then s.meter.toNat % 2 ^ 32
  else if o = 4 then s.meterHi.toNat
  else if o = 8 then meterStatus s
  else if 0x100 ≤ o && o < 0x140 then (sget 0 s.pace ((o - 0x100) / 4)).toNat
  else if 0x200 ≤ o && o < 0x400 then faultedWord s ((o - 0x200) / 8) (o % 8 * 8)
  else if o = 0x400 then capped 16 s.pathReplays * 2 ^ 16 + capped 8 s.lanesSpared * 2 ^ 8 + capped 8 s.pathsFailed
  else if 0x800 ≤ o && o < 0xC00 then kvWord s ((o - 0x800) / 16) (o % 16)
  else 0

/-! ### Reads -/

/-- What a read of the 4-byte register at a BAR0 offset returns; offsets that no block defines read zero (R499, Table 15.3). -/
def regRead (s : State) (o : Nat) : W32 :=
  w32 (
    if o < 0x1000 then idWord s o
    else if o < 0x10000 then (Config.mbxWord s.ctl.mediaReady o).toNat
    else if o < 0x20000 then evtWord s (o - 0x10000)
    else if o < 0x30000 then hbWord s (o - 0x20000)
    else if o < 0x40000 then thermWord s (o - 0x30000)
    else if o < 0x50000 then pwrWord s (o - 0x40000)
    else if o < 0x100000 then 0
    else if o < 0x200000 then deckWord s (o - 0x100000)
    else if o < 0x201000 then tblWord s ((o - 0x200000) / 64) (o % 64)
    else if o < 0x300000 then 0
    else if o < 0x304000 then
      if o % 256 / 16 < 10 then rglWord s (pairOf ((o - 0x300000) / 256) (o % 256 / 16)) (o % 16) else 0
    else if o < 0x400000 then 0
    else if o < 0x500000 then watchWord s (o - 0x400000)
    else if o < 0x600000 then chanWord s (o - 0x500000)
    else if o < 0x700000 then trkWord s (o - 0x600000)
    else if o < 0x800000 then fabWord s (o - 0x700000)
    else if o < 0x880000 then stkWord s ((o - 0x800000) / 65536) (o % 65536)
    else if o < 0x900000 then 0
    else telWord s (o - 0x900000))

/-! ### Reads whose source is poisoned (R402) -/

/-- Whether a read of a line would find it poisoned. -/
def linePoisoned (s : State) (line : Nat) : Bool :=
  let k := getStack s (lineStack line)
  match wcbEntry k line with
  | some e => e.poison ≠ 0
  | none => readsPoisoned k line || (readRaw s (linePlace s line)).poisoned

/-- The lines of the module area that the value of a register comes from: TBL_SESSIONS counts the table's entries in use (R433), and
TEL_KV_TREE its nodes (R467; DEDUCED, log 175: every other value is held on the die). -/
def sourceLines (s : State) (o : Nat) : List Nat :=
  if 0x200000 ≤ o && o < 0x201000 && o % 64 = 0x14 then
    let t := (o - 0x200000) / 64
    (s.sessions.filter fun e => e.2.state ≠ .free && e.2.table = t).flatMap fun e => sessionLine s e.1
  else if 0x900800 ≤ o && o < 0x900C00 && o % 16 = 0xC then
    let t := (o - 0x900800) / 16
    (s.cache.pages.filter fun e => e.2.shared && e.2.table = t).flatMap fun e => (nodeLine s e.2.node).toList
  else []

/-- What a read of a register completes with: its value, or nothing where that comes from a poisoned word (Table 12.7). -/
def hostRegRead (s : State) (o : Nat) : Option W32 := if (sourceLines s o).any (linePoisoned s) then none else some (regRead s o)

/-- What a read of a register latches: a read of TEL_METER_LO, or of the lo register of a tally pair, latches the upper bits of the same
count into its hi register (R55, R327). -/
def latchHi (s : State) (offset : Nat) : State :=
  if offset = 0x900000 then { s with meterHi := BitVec.ofNat 24 (s.meter.toNat / 2 ^ 32) }
  else if 0x6B0000 ≤ offset && offset < 0x6B1000 && offset % 64 < 0x20 && offset % 8 = 0 then
    let t := (offset - 0x6B0000) / 64
    let k := offset % 64 / 8
    { s with talHi := sput 0 s.talHi (4 * t + k) (BitVec.ofNat 32 ((tallyCount s t k).toNat / 2 ^ 32)) }
  else s

/-- A read of 8 bytes is two of 4, the lower address first (R499): so that of TEL_METER_LO is consistent with its hi register. -/
def regRead8 (s : State) (o : Nat) : W64 := regRead (latchHi s o) (o + 4) ++ regRead s o

/-- TEL_METER_LO_READ: a read of TEL_METER_LO, or of the lo register of a tally pair, latches its hi register. A read of a register whose
value comes from a poisoned word completes with Completer Abort (R402). -/
def execTelMeterLoRead (offset : Nat) (s : State) : Out :=
  if !hears s 0 then .next s
  else if (hostRegRead s offset).isNone then
    .next (toHost (logGen s evIntBusError uCxl none [w32 offset] []) (.completerAbort offset))
  else .next (latchHi s offset)

/-! ### Writes -/

/-- A write to a regulator's register: REFILL, DEPTH and ENABLE wait together for the next local microsecond; REJECTED is cleared by a
1 (R246). -/
def writeRgl (s : State) (pair o : Nat) (v : W32) : State :=
  let r := getReg s pair
  let p := r.pend.getD (r.enable, r.refill, r.depth)
  match o with
  | 0x0 =>
    setReg s pair { r with rejected := r.rejected && !bitOf v.toNat 2, pend := some (bitOf v.toNat 0, p.2.1, p.2.2) }
  | 0x4 => setReg s pair { r with pend := some (p.1, v, p.2.2) }
  | 0x8 => setReg s pair { r with pend := some (p.1, p.2.1, v) }
  | _ => s

/-- A write to THERM_LIMIT_CTL: a throttle point outside 80 to 95 °C is ignored and sets REJECTED, which a 1 clears (Table 16.7). -/
def writeThermLimit (s : State) (v : W32) : State :=
  let t := v.toNat % 256
  let p := s.power
  let p := { p with limitRejected := p.limitRejected && !bitOf v.toNat 8 }
  { s with power := if 80 ≤ t && t ≤ 95 then { p with throttleAt := t } else { p with limitRejected := true } }

/-- A write to a domain's SETPOINT: millivolts from 650 to 850 in steps of 5, else ignored (R539). -/
def writeSetpoint (s : State) (n : Nat) (v : W32) : State :=
  let mv := v.toNat % 1024
  if 650 ≤ mv && mv ≤ 850 && mv % 5 = 0 then setDomain s n { getDomain s n with setpoint := mv } else s

/-- A write to a BAR0 register; writes to read-only registers and undefined offsets are ignored (R12, R499). -/
def regWrite (s : State) (o : Nat) (v : W32) : State :=
  if o = 0x30000 then { s with power := { s.power with tripLatch := s.power.tripLatch && !bitOf v.toNat 15 } }
  else if o = 0x30004 then writeThermLimit s v
  else if 0x40100 ≤ o && o < 0x40150 && o % 4 = 0 then writeSetpoint s ((o - 0x40100) / 4) v
  else if 0x300000 ≤ o && o < 0x304000 && o % 256 / 16 < 10 then writeRgl s (pairOf ((o - 0x300000) / 256) (o % 256 / 16)) (o % 16) v
  else if o = 0x700000 then { s with quarThreshold := BitVec.ofNat 16 v.toNat }
  else if o = 0x900008 then { s with refLostSeen := s.refLostSeen && !bitOf v.toNat 1 }
  else s

/-- A write of 8 bytes is two of 4, the lower address first (R499). -/
def regWrite8 (s : State) (o : Nat) (v : W64) : State := regWrite (regWrite s o (v.truncate 32)) (o + 4) ((v >>> 32).truncate 32)

/-- RGL_WRITE. -/
def execRglWrite (offset : Nat) (value : W32) (s : State) : Out :=
  if hears s 0 && 0x300000 ≤ offset && offset < 0x304000 && offset % 4 = 0 then .next (regWrite s offset value) else .next s

/-- THERM_LIMIT_CTL_WRITE. -/
def execThermLimitCtlWrite (value : W32) (s : State) : Out :=
  if hears s 0 then .next (writeThermLimit s value) else .next s

/-- PWR_DOMAIN_SETPOINT_WRITE. -/
def execPwrDomainSetpointWrite (domain : Fin 20) (value : W32) (s : State) : Out :=
  if hears s 0 then .next (writeSetpoint s domain.val value) else .next s

/-- REGISTER_WRITE. -/
def execRegisterWrite (offset : Nat) (value : W32) (s : State) : Out :=
  if hears s 0 then .next (regWrite s offset value) else .next s

end Sys2Proof.Machine
end

