-- ==== Sys2Proof/Machine/Thermal.lean ====
section
/-! DEFINITION. Diodes and what their samples do: sampling intervals, throttling, thermal shutdown, temperature windows, refresh steps
(R230, R231, R234, R236, R540 to R550). Readings are in units of 0.25 °C. -/

namespace Sys2Proof.Machine

/-! ### Throttle depths (R542 to R545) -/

/-- The key of a depth: 0 the compute die, 1 and 2 the near-bank halves. -/
def depthKey (die : Nat) : Nat := if die = 0 then 0 else 1 + (die - 1) / 4

/-- A throttle depth. -/
def getDepth (s : State) (key : Nat) : Nat :=
  match key with
  | 0 => s.power.depthDie | 1 => s.power.depthNb0 | _ => s.power.depthNb1

/-- Whether R544 has logged since a depth last returned to 0. -/
def getFloor (s : State) (key : Nat) : Bool :=
  match key with
  | 0 => s.power.floorDie | 1 => s.power.floorNb0 | _ => s.power.floorNb1

/-- Set a depth. -/
def putDepth (s : State) (key n : Nat) : State :=
  let p := s.power
  { s with power :=
      match key with
      | 0 => { p with depthDie := n } | 1 => { p with depthNb0 := n } | _ => { p with depthNb1 := n } }

/-- Set whether R544 has logged. -/
def putFloor (s : State) (key : Nat) (b : Bool) : State :=
  let p := s.power
  { s with power :=
      match key with
      | 0 => { p with floorDie := b } | 1 => { p with floorNb0 := b } | _ => { p with floorNb1 := b } }

/-- The domains whose rails a depth governs (R542). -/
def governed (key : Nat) : List Nat :=
  match key with
  | 0 => List.range 16 ++ [18, 19] | 1 => [16] | _ => [17]

/-- Add a Memory Module Event Record "temperature change" with the highest of the readings (R545). -/
def moduleRecord (s : State) (e : Ev) : State := addStandard s e (.memModule (BitVec.ofInt 16 (hottest s / 4)))

/-- A temperature as an event value. -/
def tempWord (t : Int) : W32 := BitVec.ofInt 32 t

/-- A depth takes a new value at a sample of a die; leaving 0 and returning to 0 are logged (R543, R545). -/
def setDepth (s : State) (key n die : Nat) : State :=
  let old := getDepth s key
  if n = old then s
  else
    let s := putDepth s key n
    if old = 0 then logGen (moduleRecord s evThmThrottleStart) evThmThrottleStart (uDiode die) none [w32 n] []
    else if n = 0 then logBare (moduleRecord (putFloor s key false) evThmThrottleEnd) evThmThrottleEnd (uDiode die)
    else s

/-- Whether a failed diode holds a depth at its largest value until power is lost (R541). -/
def pinnedDepth (s : State) (key : Nat) : Bool := (List.range 9).any fun d => depthKey d = key && (getDiode s d).failed

/-- Whether every rail that a depth governs stands at its lowest voltage. -/
def atFloor (s : State) (key : Nat) : Bool :=
  (governed key).all fun n => (getDomain s n).setpoint ≤ 650 + 25 * getDepth s key

/-- A sample's effect on the depth of its die (R543, R544): one step up at or above the throttle point, one step down at 3 °C below it.
A raising sample that finds every rail at 650 mV is logged once. -/
def throttle (s : State) (die : Nat) (temp point : Int) : State :=
  let key := depthKey die
  if pinnedDepth s key then s
  else if point ≤ temp then
    let s :=
      if atFloor s key && !getFloor s key then
        logGen (putFloor s key true) evThmThrottleFloor (uDiode die) none [tempWord temp] []
      else s
    setDepth s key (min 8 (getDepth s key + 1)) die
  else if temp ≤ point - 12 then setDepth s key (getDepth s key - 1) die
  else s

/-- Whether a stack's reading steps its half's depth: it is at least the latest reading of every other stack of the half whose diode
has not failed (R542). -/
def leadsHalf (s : State) (stack : Nat) (temp : Int) : Bool :=
  (rangeFrom (4 * (stack / 4)) 4).all fun n =>
    let d := getDiode s (1 + n)
    n = stack || d.failed || !d.valid || d.temp ≤ temp

/-! ### Refresh steps and the write window (R231, R234, R236) -/

/-- The refresh step that a stack temperature selects (Table 7.7). -/
def stepOf (temp : Int) : Nat := if temp ≤ 340 then 0 else if temp ≤ 380 then 1 else 2

/-- A stack takes a refresh step; a change is logged (R231, R234). -/
def setRefreshStep (s : State) (n new : Nat) : State :=
  let old := (getStack s n).refreshStep
  if new = old then s
  else
    let s := modStack s n fun k => { k with refreshStep := new, coolSince := none }
    checkClass (logGen s evThmStackRefreshStep (uStack n) none [w32 old, w32 new] []) n

/-- The threshold that a step has crossed, less 3 °C. -/
def coolPoint (step : Nat) : Int := if step = 2 then 368 else 328

/-- A sample's effect on a stack's refresh step: up at once, one step down once every sample of 32 local milliseconds has been cool
enough (R231). -/
def sampleStep (s : State) (n : Nat) (temp : Int) : State :=
  let k := getStack s n
  let want := stepOf temp
  if k.refreshStep < want then setRefreshStep s n want
  else if want < k.refreshStep && temp ≤ coolPoint k.refreshStep then
    match k.coolSince with
    | none => modStack s n fun k => { k with coolSince := some k.meter.toNat }
    | some t =>
      if k.meter.toNat - t < 3200000 then s
      else
        let s := setRefreshStep s n (k.refreshStep - 1)
        if 0 < k.refreshStep - 1 && temp ≤ coolPoint (k.refreshStep - 1) then
          modStack s n fun k => { k with coolSince := some k.meter.toNat }
        else s
  else modStack s n fun k => { k with coolSince := none }

/-- Whether a deadline counts how long a stack's write window holds a write. -/
def isHoldOf (n : Nat) : Deadline → Bool
  | .writeHold m _ => m = n
  | .rowHold m _ => m = n
  | _ => false

/-- A stack's writes may go on: the writes into its arrays that waited are carried out, and the banks that were kept at a row boundary, the
accesses and the operations that wait for them continue. -/
def resumeWrites (s : State) (n : Nat) : State :=
  let held := (getStack s n).heldWrites
  let s := { s with deadlines := s.deadlines.filter fun e => !isHoldOf n e.1 }
  let s := if (getStack s n).writeHold then s
    else held.foldl (fun s w => runHeld s n w) (modStack s n fun k => { k with heldWrites := [] })
  let k := getStack s n
  let banks := ((k.runs.flatMap fun r => r.banks.map (·.bank)) ++ k.queue.map fun a => (linePlace s a.line).bank).eraseDups
  let s := banks.foldl (fun s b => if bankInRow (getStack s n) b then s else bankBoundary s n b) (settleBi (pump s n))
  startWaiting false n (getStack s n).permitWait [] s

/-- A sample's effect on a stack's write window (R236). -/
def sampleWindow (s : State) (n : Nat) (temp : Int) : State :=
  let k := getStack s n
  if !k.writeHold && (temp < 0 || 420 < temp) then
    logGen (startDeadline (setStack s n { k with writeHold := true }) (.writeHold n none)) evThmStackWriteHold (uStack n) none [tempWord temp] []
  else if k.writeHold && 8 ≤ temp && temp ≤ 412 then
    let s := logGen (setStack s n { k with writeHold := false }) evThmStackWriteResume (uStack n) none [tempWord temp] []
    resumeWrites s n
  else s

/-! ### Thermal shutdown (R546, R547) -/

/-- Every switched domain off, in order, and every stack on its way into self-refresh, its buffers draining (R534 to
R536, R224, R235). -/
def allOff (s : State) : State :=
  let s := (List.range 16).foldl quadrantOff s
  let s := (List.range 2).foldl nearOff s
  let s := (List.range 2).foldl sideOff s
  (List.range 8).foldl (fun s n => modStack s n fun k => { k with selfRefresh := true, draining := k.wcb.map (·.line) }) s

/-- A reading at or above 110 °C: the abort is asked for, then everything that can be switched off is (R546). -/
def enterShutdown (s : State) (die : Nat) (temp : Int) : State :=
  let s := { s with power := { s.power with shutdown := true } }
  let s := logGen (moduleRecord s evThmShutdown) evThmShutdown (uDiode die) none [tempWord temp] []
  allOff (requestAbort s (evThmShutdown.word (uDiode die)))

/-- Whether every diode that has not failed reads at or below 90 °C. -/
def allCool (s : State) : Bool :=
  (List.range 9).all fun d => (getDiode s d).failed || !(getDiode s d).valid || (getDiode s d).temp ≤ 360

/-- Thermal shutdown ends: the whole module is recovered. In misdeal and during self-test nothing serves that could be recovered, and the
stacks stay as those states leave them (DEDUCED). -/
def leaveShutdown (s : State) (die : Nat) (temp : Int) : State :=
  let s := { s with power := { s.power with shutdown := false } }
  let s := logGen (moduleRecord s evThmShutdownClear) evThmShutdownClear (uDiode die) none [tempWord temp] []
  if s.ctl.idState = .running then beginRecovery s .wholeModule else s

/-! ### The configuration store's window (R90, R98, R549) -/

/-- BUP_FW_ACTIVATED: the last step of an online activation (step 7 of Table 17.5): slot marks are written and the management core runs
the new image. Outside the store window the marks wait. -/
def finishActivation (s : State) : State :=
  if s.ctl.fwPhase ≠ .reloading || !s.ctl.fwMarksPending || !storeWindow s then s
  else
    let k := 1 - s.ctl.bootSlot
    let v := ((fwSlot s k).map fun f => f.major * 2 ^ 16 + f.minor * 2 ^ 8 + f.patch).getD 0
    let s := setFw (setFw s k (fwSlot s k) .active) (1 - k) (fwSlot s (1 - k)) .previous
    let s := modCtl s fun c => { c with bootSlot := k, fwPhase := .none, fwMarksPending := false }
    logGen s evBupFwActivated uMgmt none [w32 v] []

/-- What the store's window brings: outside it a staging ends; inside it the module index and slot marks that waited are written. -/
def storeChanged (s : State) : State :=
  if storeWindow s then
    finishActivation (writeMarks (modLoader s fun l => { l with storedIndex := l.index }))
  else if s.loader.stage = .staging then failStage s evDckStoreWindow noOffset [storeTemp s] []
  else s

/-! ### Samples (R540, R541, Tables 16.3, 16.4) -/

/-- The limits of a die. -/
def limitsOf (s : State) (die : Nat) : List Int :=
  if die = 0 then [0, 340, 40, 280, 4 * s.power.throttleAt, 440] else [0, 420, 40, 280, 340, 380, 440]

/-- The interval code of a reading: its distance from the nearest limit (Table 16.3). -/
def intervalOf (s : State) (die : Nat) (temp : Int) : Nat :=
  let near (w : Int) : Bool := (limitsOf s die).any fun l => temp - l ≤ w && l - temp ≤ w
  if near 12 then 2 else if near 40 then 1 else 0

/-- A diode fails: logged once; its depth is at its largest value, a stack's refresh step is 2 and its write window stays open (R541). -/
def failDiode (s : State) (die : Nat) : State :=
  let s := setDiode s die { getDiode s die with failed := true }
  let s := logBare s evThmSensorFail (uDiode die)
  let s := setDepth s (depthKey die) 8 die
  if die = 0 then storeChanged s
  else
    let n := die - 1
    let s := setRefreshStep s n 2
    if (getStack s n).writeHold then resumeWrites (modStack s n fun k => { k with writeHold := false }) n else s

/-- Note the first failure of a start-up (R561, R562). -/
def noteFailure (s : State) (code : W32) : State :=
  modCtl s fun c => { c with firstFailure := if c.firstFailure = 0 then code else c.firstFailure }

/-- What a good sample does at its die, its limits in order. -/
def goodSample (s : State) (die : Nat) (temp : Int) : State :=
  let s := setDiode s die { valid := true, failed := false, interval := intervalOf s die temp, temp := temp }
  let s :=
    if die = 0 then storeChanged (throttle s 0 temp (4 * s.power.throttleAt))
    else
      let n := die - 1
      let s := sampleWindow (sampleStep s n temp) n temp
      if leadsHalf s n temp then throttle s die temp 380 else s
  if !s.power.shutdown && 440 ≤ temp then enterShutdown s die temp
  else if s.power.shutdown && allCool s then leaveShutdown s die temp
  else s

end Sys2Proof.Machine
end

