-- ==== Sys2Proof/Machine/Startup.lean ====
section
/-! DEFINITION. Input power, the order in which rails and domains come up, the boot ROM, self-test, misdeal and the start of a deck
(R46, R99, R529 to R538, R548, R552, R556 to R565, R594, R595, R599, R622; Tables 16.2, 17.1, 17.2, 18.3). -/

namespace Sys2Proof.Machine

/-! ### Loss of power -/

/-- A stack without power keeps its fuses alone: rows and columns that fuses spare. A soft spare is gone (R395). -/
def stackUnpowered (k : Stack) : Stack :=
  let fusedRows := k.spareRows.filter fun e => !k.softRows.contains (e.1 / 49152, e.1 % 49152)
  let used (bank : Nat) : Nat := ((fusedRows.filter fun e => e.1 / 49152 = bank).map (·.2)).foldl max 0
  { Stack.empty with
    spareRows := fusedRows, columns := k.columns,
    sparesUsed := k.sparesUsed.foldl (fun m e => sput 0 m e.1 (used e.1)) [] }

/-- A path without power keeps the lanes that fuses steer. -/
def pathUnpowered (p : Path) : Path :=
  let loose := (p.steered.filter fun l => !p.fusedLanes.contains l).length
  { Path.clean with steered := p.fusedLanes, fusedLanes := p.fusedLanes, spares := p.spares.map (· + loose) }

/-- The deck loader without power: what the configuration store holds. -/
def loaderUnpowered (l : Loader) : Loader :=
  { Loader.empty with
    slot0 := l.slot0, slot1 := l.slot1, mark0 := l.mark0, mark1 := l.mark1, index := l.storedIndex, storedIndex := l.storedIndex }

/-- The module without power: fuses, the configuration store and the latch of a hardware trip are kept; everything else is as at
power-up. The commands that wait are the outside world's. -/
def powerLost (s : State) (tripped enableOpen : Bool) : State :=
  { State.reset with
    pending := s.pending, freeNext := s.freeNext, repairMap := s.repairMap, retiredCores := s.retiredCores,
    paths := s.paths.map fun e => (e.1, pathUnpowered e.2),
    stackMap := s.stackMap.foldl (fun m e => sput Stack.empty m e.1 (stackUnpowered e.2)) [],
    ports := s.ports.foldl (fun m e => sput Port.off m e.1 { Port.off with cable := e.2.cable }) [],
    loader := loaderUnpowered s.loader,
    host := { HostPort.reset with perst := s.host.perst },
    power := { Power.reset with tripped := s.power.tripped || tripped, enableOpen := enableOpen },
    ctl := { Control.reset with
             fw0 := s.ctl.fw0, fw1 := s.ctl.fw1, fwMark0 := s.ctl.fwMark0, fwMark1 := s.ctl.fwMark1 },
    sec := { Security.reset with
             vendorHash := s.sec.vendorHash, ownerHash := s.sec.ownerHash, ownerState := s.sec.ownerState,
             svnMin := s.sec.svnMin, uds := s.sec.uds, debugFuse := s.sec.debugFuse, unlockRecord := s.sec.unlockRecord } }

/-- INPUT_POWER_LOSS: the input stays below 44 V for 100 µs. -/
def execInputPowerLoss (s : State) : Out := .next (powerLost s false s.power.enableOpen)

/-- VIN_ENABLE_OPEN: the opening is loss of module power (R622). -/
def execVinEnableOpen (s : State) : Out := .next (powerLost s false true)

/-- THERMAL_TRIP: the comparator removes power from every rail; the trip is remembered (R548). -/
def execThermalTrip (s : State) : Out := if s.power.inputOn then .next (powerLost s true s.power.enableOpen) else .next s

/-! ### Input power (R552, Table 17.1 step 1) -/

/-- INPUT_POWER_APPLIED: the input, in units of 10 mV, reaches 46 V after it was absent: the always-on rails come up and the meters start
at zero. A trip before this power-up is reported (R548). -/
def execInputPowerApplied (voltage mgmtAddr : Nat) (s : State) : Out :=
  if s.power.inputOn || voltage < 4600 then .next s
  else
    let trip := s.power.tripped
    let s := { s with power := { s.power with
      inputOn := true, voltage := voltage, mgmtAddr := mgmtAddr, enableOpen := false, tripped := false, tripLatch := trip } }
    if trip then .next (logBare s evThmTripped uMgmt) else .next s

/-- INPUT_LOW: the input has fallen below 46 V; logged once per excursion. -/
def execInputLow (voltage : Nat) (s : State) : Out :=
  if !s.power.inputOn || 4600 ≤ voltage then .next s
  else
    let was := s.power.inputLow
    let s := { s with power := { s.power with voltage := voltage, inputLow := true } }
    if was then .next s else .next (logGen s evThmInputLow uInput none [w32 voltage] [])

/-- INPUT_EXCURSION_END: the input is at 46 V or above again. -/
def execInputExcursionEnd (voltage : Nat) (s : State) : Out :=
  if !s.power.inputOn || voltage < 4600 then .next s
  else .next { s with power := { s.power with voltage := voltage, inputLow := false } }

/-! ### Misdeal (R562, R563) -/

/-- Enter misdeal: every switched domain is off, no deck runs, and the stacks keep their contents in self-refresh. -/
def enterMisdeal (s : State) (code : W32) : State :=
  let was := s.ctl.idState = .misdeal
  let s := allOff s
  let s := modCtl s fun c =>
    { c with idState := .misdeal, mediaReady := false, testing := false, group := .none, recovering := [] }
  let s := modLoader s fun l =>
    { l with running := none, armed := none, phase := .none, poolFill := false,
             stage := if l.stage = .armed || l.stage = .switching || l.stage = .arming then .verified else l.stage }
  let s := { s with cores := [], regWait := [] }
  if was then s else logGen s evBupMisdealEnter uMgmt none [code] []

/-! ### The boot ROM (R558, R594, R595, R599) -/

/-- The first check that a firmware slot's image fails, or 0; an empty slot fails the first one. -/
def slotFault (s : State) (k : Nat) : Nat := ((fwSlot s k).map fun f => fwFault s f.bytes).getD 1

/-- The slots with a mark. -/
def slotsMarked (s : State) (m : Mark) : List Nat :=
  (if s.ctl.fwMark0 = m then [0] else []) ++ (if s.ctl.fwMark1 = m then [1] else [])

/-- The DEBUG state of this power cycle; the one-shot record is erased (R595). -/
def formDebug (s : State) : State :=
  let d := if s.sec.debugFuse = 3 then 3 else if s.sec.unlockRecord then 1 else 0
  { s with sec := { s.sec with debug := d, unlockRecord := false } }

/-- CDI of an image: HMAC of its digest, version and the DEBUG state under UDS (Table 18.3). -/
def cdiOf (s : State) (f : FwImage) : BitVec 384 :=
  digestOf (hmac384 (digestBytes s.sec.uds) (digestBytes f.digest ++ leBytes 2 f.svn ++ leBytes 1 s.sec.debug))

/-- The boot ROM's keys. UDS is read once in a power cycle, so a restart in misdeal keeps the CDI it has (DEDUCED from R594). Without an
image, CDI is a free value: the manual gives no digest for the boot ROM's own firmware. -/
def deriveKeys (s : State) (f : Option FwImage) : State :=
  if s.sec.udsBlocked then s
  else
    let s := formDebug s
    match f with
    | some f => { s with sec := { s.sec with cdi := cdiOf s f, udsBlocked := true } }
    | none =>
      let v := freeHash s
      { v.2 with sec := { v.2.sec with cdi := v.1, udsBlocked := true } }

/-- Switch on the next domain in the order of Table 16.2: after the first sample of all nine diodes, with none failed and none at or above
110 °C, each domain once the one before it is in regulation. -/
def advancePower (s : State) : State :=
  let ready := (List.range 9).all fun d => (getDiode s d).valid && !(getDiode s d).failed && (getDiode s d).temp < 440
  if !(s.ctl.testing && ready && !s.power.shutdown) then s
  else
    match (List.range 20).find? fun n => !(getDomain s n).inReg with
    | some n => if (getDomain s n).on || (getDomain s n).failed then s
      else startDeadline (setDomain s n { getDomain s n with on := true }) (.regulation n)
    | none => s

/-- Self-test begins (step 5 of Table 17.1). -/
def beginTest (s : State) (keep : Bool) : State :=
  let s := modCtl s fun c =>
    { c with idState := if c.idState = .misdeal then .misdeal else .selfTest, mediaReady := false, testing := true,
             selfTestStart := s.meter.toNat, keepMemory := keep, firstFailure := 0 }
  let s := (List.range 20).foldl (fun s n => setDomain s n { getDomain s n with failed := false }) s
  advancePower s

/-- BOOT_FW_VERIFIED: steps 2 and 4 of Table 17.1. The boot ROM verifies the ACTIVE slot, then the PREVIOUS one; the control firmware is
loaded into both control cores and self-test begins. If both slots fail, the boot ROM's own firmware runs in misdeal. -/
def execBootFwVerified (s : State) : Out :=
  if !s.power.inputOn || s.ctl.idState ≠ .boot then .next s
  else
    let first := (slotsMarked s .active).head?
    let firstFault := (first.map (slotFault s)).getD 1
    let second := (slotsMarked s .previous).head?
    let start (s : State) (k : Nat) : State :=
      let s := deriveKeys s (fwSlot s k)
      let s := modCtl s fun c => { c with bootSlot := k, activeCore := 0, standbyReady := true }
      beginTest s false
    match first, firstFault with
    | some k, 0 => .next (start s k)
    | _, n =>
      match second.filter fun k => slotFault s k = 0 with
      | some k => .next (start (logGen s evBupFwBootFallback uMgmt none [w32 n] []) k)
      | none =>
        let code := evBupFwNone.word uMgmt
        let s := deriveKeys (logBare s evBupFwNone uMgmt) none
        let s := modCtl s fun c =>
          { c with bootSlot := 2, activeCore := 0, standbyReady := true,
                   selfTest := { SelfTest.none with run := true, result := 2, firstCode := code } }
        .next (enterMisdeal s code)

/-! ### Domains (R537, R538) -/

/-- A fabric side in regulation lets its ports train (R348, R353). -/
def sideUp (s : State) (n : Nat) : State :=
  if n < 18 then s else (rangeFrom (6 * (n - 18)) 6).foldl (fun s p => if (getPort s p).state = .off then startTraining s p else s) s

/-- A quadrant in regulation lets the accesses go on that wait for it (R534). -/
def quadrantUp (s : State) (n : Nat) : State := if n < 16 then wakeCores s (.quadrant n) else s

/-- DOMAIN_IN_REGULATION: the rail that was switched on stands; the next domain in order is switched on. -/
def execDomainInRegulation (domain : Fin 20) (s : State) : Out :=
  let n := domain.val
  let d := getDomain s n
  if !d.on || d.inReg then .next s
  else .next (advancePower (sideUp (quadrantUp (setDomain s n { d with inReg := true }) n) n))

/-! ### Starting the deck (R99, step 10) -/

/-- What starting a slot's deck finds: its deck, or the code of what fails. A slot that verifies but cannot be armed, because the index is
unset or no member, is treated as one that does not verify (DESIGN CHOICE: R99 names the failed verification alone). -/
def bootDeck (s : State) (k : Nat) : State × Except W32 Deck :=
  let bs := slotImage s k
  let s := modLoader s fun l => { l with skipLogged := [] }
  let v := verifyDeck s bs bs.length s.loader.index
  match v.1 with
  | some e => (deckFault s e.1 (w32 e.2) [w32 e.2] [], .error (e.1.word uDeck))
  | none =>
    match s.loader.index with
    | none => (deckFault s evDckArmIndex noOffset [0xFFFF] [], .error (evDckArmIndex.word uDeck))
    | some i =>
      let d := readDeck bs (counted v.2)
      if d.role.members.any (·.1 = i) then
        (noteSkipped (modLoader s fun l => { l with skipped := countSkipped v.2 }) v.2, .ok d)
      else (deckFault s evDckArmIndex noOffset [w32 i] [], .error (evDckArmIndex.word uDeck))

/-- Start a deck without a switch trick: its load image is built, everything of it takes effect, its pools are filled and the module takes part in its group. The
dealer's tree is rebuilt at once: no header has a format yet (R472). -/
def runDeck (s : State) (d : Deck) (k : Nat) : State :=
  let s := writeImage s d (slotImage s k).length
  let s := loadPrograms (installDeck s d k []) d
  let s := if isDealer s then treeReady (startRebuild s 0 fun _ => true) else s
  joinGroup s

/-- Start the deck of the slot marked ACTIVE, or of the one marked PREVIOUS. -/
def startDeck (s : State) : State :=
  let marked (s : State) (m : Mark) : Option Nat :=
    if s.loader.mark0 = m then some 0 else if s.loader.mark1 = m then some 1 else none
  let try_ (s : State) (m : Mark) : State × Except W32 (Deck × Nat) :=
    match marked s m with
    | none => (s, .error 0)
    | some k =>
      match bootDeck s k with
      | (s, .ok d) => (s, .ok (d, k))
      | (s, .error c) => (s, .error c)
  match try_ s .active with
  | (s, .ok (d, k)) => runDeck s d k
  | (s, .error c) =>
    match try_ s .previous with
    | (s, .ok (d, k)) => runDeck (deckFault s evDckBootFallback noOffset [c] []) d k
    | (s, .error _) => deckFault s evDckBootNone noOffset [] []

/-! ### The end of self-test (R559 to R562, step 9) -/

/-- What spares did about what a self-test found: spares used, and the quadrants, halves and stacks where none was left. -/
structure Cover where
  used : Nat
  quadrants : Nat
  nearBank : Nat
  stackBits : Nat
  deriving DecidableEq, Repr

/-- A unit without a spare for what failed counts by the reset domain that holds it (DEDUCED from R559, log 160). -/
def Cover.lost (v : Cover) : ResetDomain → Cover
  | .quadrant q => { v with quadrants := v.quadrants ||| 2 ^ q }
  | .nearBank h => { v with nearBank := v.nearBank ||| 2 ^ h }
  | .stack n => { v with stackBits := v.stackBits ||| 2 ^ n }
  | _ => v

/-- Failed cores are bad; each that carries a logical number is retired onto a passing spare, where its cluster has one (R559). -/
def coverCores (s : State) (v : Cover) (cores : List Nat) : State × Cover :=
  let fresh := cores.filter fun c => !s.retiredCores.contains c && !s.badCores.contains c
  cores.foldl (fun r c =>
    if r.1.badCores.contains c && (logicalOn r.1 c).isSome then
      let m := retireCore r.1 c
      (m.1, if m.2 then { r.2 with used := r.2.used + 1 } else r.2)
    else r) ({ s with badCores := s.badCores ++ fresh.eraseDups }, v)

/-- A failed row is soft-spared and listed for fusing (R395, R559). -/
def coverRow (r : State × Cover) (e : Fin 8 × Fin 768 × Nat × BitVec 16) : State × Cover :=
  match softSpareHeld r.1 e.1.val e.2.1.val e.2.2.1 e.2.2.2.toNat with
  | some s => (pendSpare s e.1.val e.2.1.val e.2.2.1 e.2.2.2.toNat false, { r.2 with used := r.2.used + 1 })
  | none => (r.1, r.2.lost (.stack e.1.val))

/-- A failed word lane is steered (R383, R559). -/
def coverLane (r : State × Cover) (e : PathId × Nat) : State × Cover :=
  match steerLane r.1 e.1 (getPath r.1 e.1) e.2 with
  | some s => (s, { r.2 with used := r.2.used + 1 })
  | none => (r.1, r.2.lost (pathDomain e.1))

/-- Everything of a self-test's findings that spares cover is repaired (R559). -/
def coverTest (s : State) (t : TestFindings) : State × Cover :=
  let r := coverCores s { used := 0, quadrants := 0, nearBank := 0, stackBits := 0 } (t.cores.map (·.val))
  t.lanes.foldl coverLane (t.rows.foldl coverRow r)

/-- The clusters with fewer than 64 good physical cores (R156). -/
def shortClusters (s : State) : W64 :=
  w64 ((List.range 64).map fun c =>
    flag (((List.range 68).filter fun p => !s.retiredCores.contains (68 * c + p) && !s.badCores.contains (68 * c + p)).length < 64) c).sum

/-- RESULT of a self-test: bit 0 pass, bits 1 to 8 the phases that failed (Table 17.2). -/
def testResult (r : SelfTest) : Nat :=
  let bad := flag (r.quadrants ≠ 0) 2 + flag (r.clustersShort ≠ 0) 3 + flag (r.nearBank ≠ 0) 4 + flag (r.badStacks ≠ 0) 5 +
    flag (r.ports ≠ 0) 6 + flag (r.domains ≠ 0) 7 + flag (r.diodes ≠ 0) 8
  if bad = 0 then 1 else bad

/-- The result in its fields, after what spares covered. -/
def testRecord (s : State) (t : TestFindings) (v : Cover) : SelfTest :=
  let domains := ((List.range 20).map fun n => flag ((getDomain s n).failed) n).sum
  let failedDiodes := ((List.range 9).map fun d => flag ((getDiode s d).failed) d).sum
  let r : SelfTest :=
    { run := true, result := 0, quadrants := (t.quadrants ||| v.quadrants) % 2 ^ 16, nearBank := (t.nearBank ||| v.nearBank) % 4,
      badStacks := (t.stackMask ||| v.stackBits) % 2 ^ 8, ports := t.ports % 2 ^ 12, diodes := (t.diodes ||| failedDiodes) % 2 ^ 9,
      clustersShort := shortClusters s, domains := domains, firstCode := 0, sparesUsed := capped 16 v.used,
      duration := (s.meter.toNat - s.ctl.selfTestStart) / 100000 }
  let n := testResult r
  let code := if n = 1 then 0 else if s.ctl.firstFailure ≠ 0 then s.ctl.firstFailure else evBupSelftestFail.word uMgmt
  { r with result := w32 n, firstCode := code }

/-- Every stack serves again; a march without KEEP_MEMORY has left no line that passes its check (R560). -/
def openStacks (s : State) : State :=
  let s := (List.range 8).foldl (fun s n => modStack s n fun k => { k with selfRefresh := false, resetting := false }) s
  if s.ctl.keepMemory then (List.range 8).foldl resumeWrites s
  else
    let s := (List.range 8).foldl (fun s n =>
      modStack s n fun k =>
        let reads := k.queue.filter fun a => match a with | .read _ _ _ => true | _ => false
        { k with wcb := [], queue := reads, heldWrites := [], draining := [], undrained := [], refused := [], refusedFull := false }) s
    (List.range 8).foldl resumeWrites { s with array := [], unrepaired := [], directory := [] }

/-- Self-test passes: memory is ready, the module runs and its deck is started. -/
def passTest (s : State) : State :=
  let was := s.ctl.idState = .misdeal
  let s := openStacks s
  let s := modCtl s fun c => { c with idState := .running, mediaReady := true, testing := false }
  let s := if was then logBare s evBupMisdealExit uMgmt else s
  startDeck s

/-- Self-test ends. The manual gives a retired core no event of its own; the result counts it (log 161). -/
def endTest (s : State) (t : TestFindings) : State :=
  let v := coverTest s t
  let r := testRecord v.1 t v.2
  let s := modCtl v.1 fun c => { c with selfTest := r }
  if r.result = 1 then
    let s := logGen s evBupSelftestPass uMgmt none [w32 r.duration] []
    endBackground (passTest s) 0xC071 .success 0 []
  else
    let s := logGen s evBupSelftestFail uMgmt none [r.result, r.firstCode] []
    endBackground (enterMisdeal s r.firstCode) 0xC071 .internalError r.firstCode []

/-- SELFTEST_COMPLETE: step 9 of Table 17.1, with what the test programs found. It cannot come before every domain stands, unless a domain
or a diode has failed. -/
def execSelftestComplete (t : TestFindings) (s : State) : Out :=
  let stands := (List.range 20).all fun n => (getDomain s n).inReg
  let broken := (List.range 20).any (fun n => (getDomain s n).failed) || (List.range 9).any fun d => (getDiode s d).failed
  if s.ctl.testing && (stands || broken) then .next (endTest s t) else .next s

end Sys2Proof.Machine
end

