-- ==== Sys2Proof/Machine/Recover.lean ====
section
/-! DEFINITION. The ends of domain recoveries, failures of domains, self-test and repair commands, and misdeal's way out
(R94, R99, R534 to R538, R561, R565, R576 to R580, R587, R588, R591; Tables 17.2, 17.4, 17.9). -/

namespace Sys2Proof.Machine

/-- The switched domain of a reset domain (Tables 16.1, 17.4); a stack and a control core have none. -/
def switchedOf : ResetDomain → List Nat
  | .quadrant n => [n]
  | .nearBank n => [16 + n]
  | .fabricSide n => [18 + n]
  | .stack _ => []
  | .controlCore _ => []
  | .wholeModule => List.range 20

/-! ### What comes back (Table 17.4) -/

/-- Load again the programs of some cores from the load image. -/
def reloadCores (s : State) (cores : List Nat) : State :=
  match deckOf s with
  | none => s
  | some d =>
    (cores.filter fun n => (programOf d n).isSome).foldl (fun s n => setCore (dropCoreWait s n) n (freshCore s d n)) s

/-- The load image is read again; where a line reads as poisoned it is rebuilt from the ACTIVE deck slot (Table 17.4). -/
def rereadImage (s : State) : State :=
  match deckOf s with
  | none => s
  | some d =>
    let r := (rangeFrom s.loader.image.1 s.loader.image.2).foldl (fun (r : State × Bool) line =>
      let v := fwReadLine r.1 line
      (v.1, r.2 || v.2.2 ≠ 0)) (s, false)
    if r.2 then
      let s := writeImage r.1 d (slotImage r.1 r.1.loader.runningSlot).length
      modLoader s fun l => { l with image := l.newImage }
    else r.1

/-- A quadrant is on and tested: its cores have their programs, and the accesses that wait for it go on. -/
def quadrantBack (s : State) (q : Nat) : State :=
  let cores := (clustersOfQuadrant q).flatMap fun c => rangeFrom (64 * c) 64
  wakeCores (reloadCores (domainOn s q) cores) (.quadrant q)

/-- A near-bank half is on and tested. -/
def nearBack (s : State) (h : Nat) : State := domainOn s (16 + h)

/-- A fabric side is on and tested: its ports retrain; a side without a port in use stays off (R533). -/
def sideBack (s : State) (f : Nat) : State :=
  sidesForRoles ((rangeFrom (6 * f) 6).foldl startTraining (domainOn s (18 + f)))

/-- What rewrites a line whose buffered entry was lost: its stored data, poisoned. -/
def lostEntry (line : Nat) : WcbEntry := { line := line, data := 0, mask := 0, poison := 0xFFFF, sender := .none }

/-- A stack controller runs again: lost lines are poisoned, and what waited goes on (R578). -/
def stackBack (s : State) (n : Nat) : State :=
  let lost := (getStack s n).undrained
  let s := modStack s n fun k => { k with resetting := false, selfRefresh := false, undrained := [] }
  let s := lost.foldl (fun s l =>
    if (getStack s n).writeHold then modStack (enterNow s (lostEntry l)) n fun k => { k with draining := (k.draining ++ [l]).eraseDups }
    else drainEntry s (lostEntry l) 0) s
  let s := if lost.isEmpty then s else logGen s evBupWcbLost (uStack n) none [w32 lost.length] []
  resumeWrites s n

/-- A control core holds its firmware again and is the standby. -/
def coreBack (s : State) : State := modCtl s fun c => { c with standbyReady := true }

/-- The paths of a domain carry transfers again, with nothing retained. -/
def pathsBack (s : State) (d : ResetDomain) : State :=
  { s with paths := s.paths.map fun e =>
      if d = .wholeModule || pathDomain e.1 = d then (e.1, { e.2 with failed := false, failures := 0, retained := [] }) else e }

/-- Everything of a reset domain that has passed is back. -/
def domainBack (s : State) (d : ResetDomain) : State :=
  let s := pathsBack s d
  match d with
  | .quadrant q => quadrantBack s q
  | .nearBank h => nearBack s h
  | .fabricSide f => sideBack s f
  | .stack n => stackBack s n
  | .controlCore _ => coreBack s
  | .wholeModule =>
    let s := rereadImage ((List.range 8).foldl stackBack s)
    let s := (List.range 16).foldl quadrantBack s
    let s := (List.range 2).foldl nearBack s
    coreBack ((List.range 2).foldl sideBack s)

/-! ### The end of a recovery (R576, R579, R580) -/

/-- The last domain has ended: one event, the answer of RECOVER, READY, and what waited for the recovery. -/
def recoveryEnds (s : State) : State :=
  let k := domainKind s.ctl.recKind
  let s := logGen s evBupRecoveryDone uCtl none [w32 k.1, w32 k.2] []
  let s := sendReady (endBackground s 0xC074 .success 0 [])
  let s := if s.ctl.group = .forming then (if isDealer s then tryForm s else sendJoin s) else s
  if s.loader.phase = .loading then loadDone s else s

/-- A domain's recovery fails: the whole module is recovered, or enters misdeal where that was tried (R579). -/
def recoveryFails (s : State) (d : ResetDomain) : State :=
  if d = .wholeModule then
    let code := if s.ctl.firstFailure = 0 then evBupSelftestFail.word uMgmt else s.ctl.firstFailure
    endBackground (enterMisdeal s code) 0xC074 .internalError code []
  else
    let s := beginRecovery s .wholeModule
    if s.ctl.group = .recovering then s else requestAbort s (evBupRecoveryStart.word uCtl)

/-- No finding of the test programs. -/
def TestFindings.clean : TestFindings :=
  { quadrants := 0, nearBank := 0, stackMask := 0, ports := 0, diodes := 0, cores := [], rows := [], lanes := [] }

/-- The result of the self-test with KEEP_MEMORY that a whole-module recovery runs (Table 17.4). Of one that fails the command does not say
which phases failed: free bits, at least one of them set. -/
def recoveryRecord (s : State) (passed : Bool) : State :=
  let r := testRecord s TestFindings.clean { used := 0, quadrants := 0, nearBank := 0, stackBits := 0 }
  if passed then modCtl s fun c => { c with selfTest := { r with result := 1, firstCode := 0 } }
  else
    let f := takeFree s
    let code := if s.ctl.firstFailure = 0 then evBupSelftestFail.word uMgmt else s.ctl.firstFailure
    modCtl f.2 fun c => { c with selfTest := { r with result := w32 (2 * (f.1.toNat % 255 + 1)), firstCode := code } }

/-- A domain's recovery ends. -/
def domainEnds (s : State) (d : ResetDomain) (passed : Bool) : State :=
  let s := if d = .wholeModule then recoveryRecord s passed else s
  if passed then
    let s := modCtl (domainBack s d) fun c => { c with recovering := c.recovering.filter (· ≠ d) }
    if s.ctl.recovering.isEmpty then recoveryEnds s else s
  else recoveryFails s d

/-- RECOVERY_DONE: a domain that recovers has passed or failed its test. No switched domain comes on while thermal shutdown lasts. -/
def execRecoveryDone (d : ResetDomain) (passed : Bool) (s : State) : Out :=
  let waits := s.power.shutdown && (match d with | .controlCore _ => false | _ => true)
  if !s.ctl.recovering.contains d || waits then .next s else .next (domainEnds s d passed)

/-- DOMAIN_FAILURE_DETECTED: a stack controller, the exchange bus or script controllers of a half, or the port logic of a side fails; the
domain recovers inside a group abort. A module whose self-test is not over has nothing that serves. -/
def execDomainFailureDetected (d : ResetDomain) (s : State) : Out :=
  if s.ctl.idState ≠ .running || s.ctl.recovering.contains d then .next s
  else .next (abortAndRecover s d (evBupRecoveryStart.word uCtl))

/-- DOMAIN_REGULATION_TIMEOUT: a rail that was switched on has missed its bound: the domain stays off. During start-up self-test fails and
the module enters misdeal; a recovery of the domain fails (R538, R562, R579). -/
def execDomainRegulationTimeout (domain : Fin 20) (s : State) : Out :=
  let n := domain.val
  let d := getDomain s n
  let recov := s.ctl.recovering.find? fun r => (switchedOf r).contains n
  if !(recov.isSome || (d.on && !d.inReg)) then .next s
  else
    let s := expire s (.regulation n) countsMs
    let s := setDomain s n { d with on := false, inReg := false, failed := true }
    let s := logBare s evThmDomainFault (uDomain n)
    if s.ctl.testing then
      .next (endTest (noteFailure s (evThmDomainFault.word (uDomain n))) TestFindings.clean)
    else
      match recov with
      | some r => .next (recoveryFails s r)
      | none => .next s

/-! ### Diodes (R540, R541) -/

/-- A sample of a die: what it finds, and the power-up step that waited for it. -/
def takeSample (s : State) (die : Nat) (reading : Option Int) : State :=
  let good := reading.filter fun t => -160 ≤ t && t ≤ 500
  match good with
  | some t => advancePower (goodSample s die t)
  | none =>
    let s := if s.ctl.testing then noteFailure s (evThmSensorFail.word (uDiode die)) else s
    let s := failDiode s die
    if s.power.shutdown && allCool s then leaveShutdown s die (hottest s) else s

/-- DIODE_SAMPLE: a die samples its diode, in units of 0.25 °C, and applies its limits. A failed diode stays failed until power is lost. -/
def execDiodeSample (die : Fin 9) (reading : Option Int) (s : State) : Out :=
  if !s.power.inputOn || (getDiode s die.val).failed then .next s else .next (takeSample s die.val reading)

/-! ### Commands of Table 17.9 -/

/-- The self-test result of Table 17.2. -/
def selfTestBytes (t : SelfTest) : List Byte :=
  leBytes 4 t.result.toNat ++ leBytes 2 t.quadrants ++ leBytes 1 t.nearBank ++ leBytes 1 t.badStacks ++ leBytes 2 t.ports ++
    leBytes 2 t.diodes ++ leBytes 8 t.clustersShort.toNat ++ leBytes 4 t.domains ++ leBytes 4 t.firstCode.toNat ++
    leBytes 2 t.sparesUsed ++ leBytes 2 0 ++ leBytes 4 t.duration

/-- SELFTEST_RESULT. -/
def execSelftestResult (cci : Fin 2) (input : List Byte) (s : State) : Out :=
  .next (vendor s cci.val 0xC070 input 0 noReserved false fun s _ => replyOk s cci.val 0xC070 (selfTestBytes s.ctl.selfTest))

/-- RETEST: self-test runs again in misdeal or on a module that runs no deck; its domains are switched off first. -/
def execRetest (cci : Fin 2) (input : List Byte) (s : State) : Out :=
  .next (signed s cci.val 0xC071 input 8 (fun own => inByte own 0 < 2 && zeroFrom own 1) true (fun _ => anyOwner) fun s own =>
    if !(inMisdeal s || (deckOf s).isNone) || s.ctl.testing then refuseWith s cci.val 0xC071 evBupRetestRefused uMgmt none [] []
    else beginTest (allOff (startBg s cci.val 0xC071)) (inByte own 0 = 1))

/-- REPAIR_WINDOW_OPEN: the dealer's next window; a member forwards the request, and a module with no deck opens its window at once. -/
def execRepairWindowOpen (cci : Fin 2) (input : List Byte) (s : State) : Out :=
  .next (signed s cci.val 0xC072 input 0 noReserved true (fun _ => anyOwner) fun s _ =>
    let s := startBg s cci.val 0xC072
    match deckOf s with
    | none => workWindow s
    | some d =>
      if isDealer s then openWindow (modCtl s fun c => { c with windowAsked := true })
      else sendGroup s (dealerIndex s d) (groupParts s d 4 0 []))

/-- REPAIR_APPLY: in misdeal, the work of a repair window with every action and no limit. -/
def execRepairApply (cci : Fin 2) (input : List Byte) (s : State) : Out :=
  .next (signed s cci.val 0xC073 input 0 noReserved true (fun _ => anyOwner) fun s _ =>
    if !inMisdeal s then refuse s cci.val 0xC073 0
    else endBackground (windowWork (startBg s cci.val 0xC073) openPolicy.1 openPolicy.2 false).s 0xC073 .success 0 [])

/-- RECOVER: the abort and recovery of a reset domain. -/
def execRecover (cci : Fin 2) (input : List Byte) (s : State) : Out :=
  .next (signed s cci.val 0xC074 input 8 (zeroFrom · 2) true (fun _ => anyOwner) fun s own =>
    match domainOfKind (inByte own 0) (inByte own 1) with
    | none => refuse s cci.val 0xC074 0
    | some d => abortAndRecover (startBg s cci.val 0xC074) d (evBupRecoveryStart.word uCtl))

end Sys2Proof.Machine
end

