-- ==== Sys2Proof/Machine/ControlCores.lean ====
section
/-! DEFINITION. The control cores' heartbeats and the management core's watchdog, the online activation of firmware, and the reset pin
of the CXL port (R36, R557, R568 to R570, R585, R586; Tables 17.5, 17.7). -/

namespace Sys2Proof.Machine

/-! ### Heartbeats (R568 to R570) -/

/-- The beat counter of a control core. -/
def beatOf (s : State) (core : Nat) : W32 := if core = 0 then s.ctl.beat0 else s.ctl.beat1

/-- CONTROL_BEAT: the active control core makes one beat. -/
def execControlBeat (s : State) : Out :=
  if !s.power.inputOn then .next s
  else
    .next (modCtl s fun c =>
      { c with beat0 := if c.activeCore = 0 then c.beat0 + 1 else c.beat0,
               beat1 := if c.activeCore = 0 then c.beat1 else c.beat1 + 1 })

/-- A hang in probation ends the activation: the core on the old image takes over (R586). A hang while the new image waits brings its
core into service, and probation with it (DEDUCED from R568). -/
def hangInActivation (s : State) : State :=
  match s.ctl.fwPhase with
  | .probation => logGen (modCtl s fun c => { c with fwPhase := .none }) evBupFwActivateFail uMgmt none [w32 5] []
  | .waiting => startDeadline (modCtl s fun c => { c with fwPhase := .probation }) .probation
  | _ => s

/-- The active core is hung. The standby takes over, asks for an abort, and the hung core recovers as a domain; with no standby ready
the whole module recovers (R568, R569). -/
def declareHang (s : State) : State :=
  let code := evBupHangControl.word uCtl
  let old := s.ctl.activeCore
  let s := logGen s evBupHangControl uCtl none [w32 old] []
  let s := modCtl s fun c => { c with hangs := satInc 0xFF c.hangs, missed := 0 }
  if s.ctl.standbyReady then
    let s := hangInActivation (takeOver s)
    let s := modCtl s fun c => { c with beatSeen := beatOf s c.activeCore }
    beginRecovery (requestAbort s code) (.controlCore old)
  else if s.ctl.idState = .running then abortAndRecover s .wholeModule code
  else s

/-- HEARTBEAT_CHECK: the management core's check at the end of each local millisecond. While the whole module recovers, both control cores
are in reset and make no beat (Table 17.4). -/
def execHeartbeatCheck (s : State) : Out :=
  if !s.power.inputOn || s.ctl.idState = .boot || s.ctl.recovering.contains .wholeModule then .next s
  else
    let b := beatOf s s.ctl.activeCore
    if b ≠ s.ctl.beatSeen then .next (modCtl s fun c => { c with beatSeen := b, missed := 0 })
    else if s.ctl.missed < 2 then .next (modCtl s fun c => { c with missed := c.missed + 1 })
    else .next (declareHang s)

/-- MGMT_BEAT: the management core counts up. -/
def execMgmtBeat (s : State) : Out :=
  if s.power.inputOn then .next (startDeadline (modCtl s fun c => { c with mgmtCount := c.mgmtCount + 1 }) .watchdog) else .next s

/-- MGMT_WATCHDOG_EXPIRY: the management core restarts from its boot ROM, and nothing else does. -/
def execMgmtWatchdogExpiry (s : State) : Out :=
  if s.power.inputOn then
    let s := startDeadline (expire s .watchdog (50 * countsMs)) .watchdog
    .next (logBare (modCtl s fun c => { c with mgmtRestarts := satInc 0xFF c.mgmtRestarts }) evBupMgmtRestart uCtl)
  else .next s

/-! ### Online activation (Table 17.5, R585, R586) -/

/-- STANDBY_IMAGE_READY: step 3 ends; the takeover comes at the next round boundary, which may be now. -/
def execStandbyImageReady (s : State) : Out :=
  if s.ctl.fwPhase ≠ .loading then .next s
  else
    let s := maybeTakeOver (modCtl s fun c => { c with fwPhase := .waiting, standbyReady := true })
    .next (if s.ctl.fwPhase = .waiting then s else if isDealer s then startRounds s else openHeld s)

/-- STANDBY_LOAD_TIMEOUT: step 3 exceeds its bound; the standby holds the old image again. -/
def execStandbyLoadTimeout (s : State) : Out :=
  if s.ctl.fwPhase ≠ .loading then .next s
  else
    let s := expire s .standbyLoad (2 * countsSec)
    .next (logGen (modCtl s fun c => { c with fwPhase := .none, standbyReady := true }) evBupFwActivateFail uMgmt none [w32 3] [])

/-- FW_PROBATION_EXPIRY: step 5 ends without a hang; the old active core is loaded with the new image. -/
def execFwProbationExpiry (s : State) : Out :=
  if s.ctl.fwPhase ≠ .probation then .next s
  else
    .next (modCtl (expire s .probation (10 * countsSec)) fun c => { c with fwPhase := .reloading, standbyReady := false })

/-- OLD_ACTIVE_RELOADED: step 6 ends; the management core restarts into the new image and the slot marks are written, inside the store's
window. -/
def execOldActiveReloaded (s : State) : Out :=
  if s.ctl.fwPhase ≠ .reloading then .next s
  else .next (finishActivation (modCtl s fun c => { c with standbyReady := true, fwMarksPending := true }))

/-! ### The CXL port's reset pin (R557) -/

/-- PERST_N_DEASSERT: the link may train. -/
def execPerstNDeassert (s : State) : Out := .next (modHost s fun h => { h with perst := false })

end Sys2Proof.Machine
end

