-- ==== Sys2Proof/Machine/FabricCommands.lean ====
section
/-! DEFINITION. The fabric commands of Table 11.16 (R369, R374, R377, R379). -/

namespace Sys2Proof.Machine

/-- Whether a route entry passes the checks of FAB_ROUTE_LOAD. -/
def routeEntryOk (e : BitVec 16) : Bool :=
  let v := e.toNat
  let port (p : Nat) : Bool := p < 12 || p = 0xF
  let pri := fieldOf v 0 4
  let alt := fieldOf v 4 4
  port pri && port alt && fieldOf v 8 2 ≠ 3 && fieldOf v 10 6 = 0 && (pri = 0xF || pri ≠ alt)

/-- The route table of a list of entries; an entry that is not listed is "no route". -/
def routeTable (es : List (BitVec 16)) : Sparse (BitVec 16) :=
  ((List.range es.length).zip es).foldl (fun m e => sput 0x00FF m e.1 e.2) []

/-- FAB_ROUTE_LOAD: the 8,192 entries come with the command as the read from host memory gives them. They take effect at the next deck
switch, or at once without an active deck. While bus mastering is off nothing can be read (DESIGN CHOICE: the command then ends with an
internal error). -/
def execFabRouteLoad (cci : Fin 2) (input : List Byte) (entries : List (BitVec 16)) (s : State) : Out :=
  .next (signed s cci.val 0xC030 input 8 noReserved true (fun _ => anyOwner) fun s own =>
    let s := startBg s cci.val 0xC030
    if !s.host.busMaster then endBackground s 0xC030 .internalError 0 []
    else
      let s := toHostReq s (.ioRead (w64 (inField own 0 8)) 16384)
      let es := entries.take 8192
      match ((List.range es.length).zip es).find? fun e => !routeEntryOk e.2 with
      | some e =>
        endBackground (logGen s evFabRouteInvalid uFabric none [w32 e.1] []) 0xC030 .invalidInput (evFabRouteInvalid.word uFabric) []
      | none =>
        let t := routeTable es
        let s := if (deckOf s).isSome then { s with routesPending := some t }
                 else logBare { s with routes := t, routesPending := none } evFabRouteLoaded uFabric
        endBackground s 0xC030 .success 0 [])

/-- FAB_PORT_CLEAR: the dealer sends QUAR_CLEAR; without an active deck the local port is cleared. A member that is not the dealer
refuses it (DEDUCED: Table 11.16 gives it no effect there). -/
def execFabPortClear (cci : Fin 2) (input : List Byte) (s : State) : Out :=
  .next (signed s cci.val 0xC031 input 8 (fun own => inByte own 1 = 0 && zeroFrom own 4) false (fun _ => anyOwner) fun s own =>
    let p := inByte own 0
    let m := inField own 2 2
    if 12 ≤ p || 2 ^ 13 ≤ m then refuse s cci.val 0xC031 0
    else if (deckOf s).isNone then replyOk (clearPort s p) cci.val 0xC031 []
    else if isDealer s then replyOk (sendFrame s m 64 (.quarClear p m)) cci.val 0xC031 []
    else refuse s cci.val 0xC031 0)

/-- FAB_PORT_RETRAIN: a port trains again from step 1; an ACTIVE one leaves ACTIVE as R374 gives, with the code of a link that goes down,
which is not logged. -/
def execFabPortRetrain (cci : Fin 2) (input : List Byte) (s : State) : Out :=
  .next (signed s cci.val 0xC032 input 8 (fun own => zeroFrom own 1) false (fun _ => anyOwner) fun s own =>
    let p := inByte own 0
    if 12 ≤ p then refuse s cci.val 0xC032 0
    else
      let active := (getPort s p).state = .active
      let s := retrainPort s p
      replyOk (if active then portLeavesActive s p evFabLinkDown else s) cci.val 0xC032 [])

end Sys2Proof.Machine
end

