-- ==== Sys2Proof/Machine/ServingEvents.lean ====
section
/-! DEFINITION. Serving messages at their destination: round lists and reports, prefill jobs, spills, page faults (R434, R435, R443,
R447, R448, R479, R480, R486). -/

namespace Sys2Proof.Machine

/-! ### Lists and reports -/

/-- ROUND_LIST at a member: a part of the round whose mark it accepted last is kept, any other is dropped and counted; with
the mark and every part the round tables are written (R435). -/
def takeRoundList (s : State) (m : ServMsg) : State :=
  if m.gen ≠ s.gen || m.round ≠ s.lastRound || isDealer s then lateDrop s
  else
    let s := modRound s m.table fun r => { r with parts := r.parts.filter (fun x => x.part ≠ m.part) ++ [m] }
    memberWrite s m.table

/-- ROUND_LIST: a part of a list arrives. -/
def execRoundList (m : ServMsg) (s : State) : Out := .next (takeRoundList s m)

/-- ROUND_REPORT at the dealer: with the last one the next round may start (R443). -/
def takeRoundReport (s : State) (src : Nat) (m : ServMsg) : State :=
  if !isDealer s || m.gen ≠ s.gen || m.round ≠ (getRound s m.table).round then s
  else startRounds (holdReport s m.table src m)

/-- ROUND_REPORT: a member's report reaches the dealer. -/
def execRoundReport (src : Nat) (m : ServMsg) (s : State) : Out := .next (takeRoundReport s src m)

/-! ### Prefill pools (R447, R448) -/

/-- A part of a prompt joins its job; with every part the prompt is there. -/
def joinJob (j : PrefillJob) (m : ServMsg) : PrefillJob :=
  let ps := j.parts.filter (fun p => p.1 ≠ m.part) ++ [(m.part, m.tokens)]
  let all := (List.range m.parts).all fun i => ps.any fun p => p.1 = i
  let toks := (List.range m.parts).flatMap fun i => ((ps.find? fun p => p.1 = i).map (·.2)).getD []
  { j with parts := ps, total := m.parts, tokens := if all then toks else j.tokens }

/-- PREFILL_JOB at a member of a prefill pool: a part of the prompt. The dealer hands it on to its members, which need NEW_PAGE, and with
every part fills the job's riders into rounds (R447; DESIGN CHOICE, log 174). -/
def takePrefillJob (s : State) (src : Nat) (m : ServMsg) : State :=
  match m.entries.head?, deckOf s with
  | some e, some d =>
    let home := if isDealer s then src else e.session.toNat / 2 ^ 51
    let fresh : PrefillJob :=
      { src := home, table := m.table, session := e.session, newPage := e.newPage, parts := [], total := m.parts, tokens := [],
        pages := [], committed := 0, acks := [], shipping := false, failed := false, done := [] }
    let j := joinJob ((s.cache.jobs.find? fun j => j.session = e.session).getD fresh) m
    let s := { s with cache := { s.cache with jobs := s.cache.jobs.filter (fun x => x.session ≠ e.session) ++ [j] } }
    if isDealer s then
      (otherMembers s d).foldl (fun s k => sendFrame s k m.table (.serving { m with round := s.lastRound, gen := s.gen })) s
    else s
  | _, _ => s

/-- PREFILL_JOB: a prefill pool's dealer takes a job. -/
def execPrefillJob (src : Nat) (m : ServMsg) (s : State) : Out := .next (takePrefillJob s src m)

/-- A shipped prompt is in the pages of this group: the request moves on, unless its ABORT has been accepted (R449). The next list names its
pages. -/
def shipped (s : State) (i : Nat) : State :=
  let c := getSess s i
  if c.aborting then s
  else
  let toks := c.prompt.take (c.prompt.length - 1)
  let s := commitTokens s c.pages c.position.toNat false 1 toks
  let s := modSess s i fun c =>
    { c with position := c.position + w32 toks.length, prompt := c.prompt.drop toks.length, prefillLeft := 0, phase := .decode,
             shipping := true }
  if c.append then endRequest s i 0 else s

/-- PREFILL_DONE at a dealer: of a pool, the result of one of its members; at the decode dealer, DECODE, or the prompt again as riders
(R447, R448). -/
def takePrefillDone (s : State) (src : Nat) (m : ServMsg) : State :=
  match m.entries.head? with
  | none => s
  | some e =>
    let ok := bitOf e.flags.toNat 0
    if isDealer s && s.cache.jobs.any fun j => j.session = e.session then jobResult s e.session src ok
    else
      match sessOf s e.session with
      | none => s
      | some i => if (getSess s i).phase ≠ .shipped then s else if ok then shipped s i else shipFailed s i

/-- PREFILL_DONE: the decode dealer moves a request on. -/
def execPrefillDone (src : Nat) (m : ServMsg) (s : State) : Out := .next (takePrefillDone s src m)

/-! ### Spills (R478 to R480) -/

/-- SPILL at a member: its copy of each page goes to the named spill slot. -/
def takeSpill (s : State) (m : ServMsg) : State :=
  if isDealer s then s
  else
    m.entries.foldl (fun s e =>
      let p := e.newPage.toNat
      localSpill (modPage s p fun g => { g with table := m.table, spill := some e.position.toNat }) m.table p e.position.toNat) s

/-- SPILL: a member writes its copy of a page to a spill slot. -/
def execSpill (m : ServMsg) (s : State) : Out := .next (takeSpill s m)

/-- SPILL_DONE at the dealer. -/
def takeSpillDone (s : State) (src : Nat) (m : ServMsg) : State :=
  if !isDealer s then s
  else m.entries.foldl (fun s e => spillReply s src e.newPage.toNat e.position.toNat (bitOf e.flags.toNat 0)) s

/-- SPILL_DONE: a member's spill result reaches the dealer. -/
def execSpillDone (src : Nat) (m : ServMsg) (s : State) : Out := .next (takeSpillDone s src m)

/-! ### Poisoned pages (R464, R486) -/

/-- A page with a poisoned line at the dealer: an allocated page is recomputed, a free one waits to be clean. -/
def poisonedPage (s : State) (t p : Nat) : State :=
  if pageFree s p then modPage s p fun g => { g with table := t, dirtyFree := true, last := s.lastRound }
  else
    let s := abandonSpill s p
    modPage s p fun g =>
      if g.dirtyFree || g.state = .recomputing then g else { g with prev := g.state, state := .recomputing }

/-- PAGE_FAULT at the dealer. -/
def takePageFault (s : State) (m : ServMsg) : State :=
  if !isDealer s then s else m.entries.foldl (fun s e => poisonedPage s m.table e.newPage.toNat) s

/-- PAGE_FAULT: the dealer marks a poisoned page recomputing. -/
def execPageFault (_src : Nat) (m : ServMsg) (s : State) : Out := .next (takePageFault s m)

end Sys2Proof.Machine
end

