-- ==== Sys2Proof/Machine/FlitReceive.lean ====
section
/-! DEFINITION. Flits at a Weazen port: order, acknowledgement and replay, link credits, and what happens to each frame that
arrives (R354 to R360, R365 to R368, R375, R376, R402). -/

namespace Sys2Proof.Machine

/-! ### Frames at their destination -/

/-- A serving message by its KIND (Tables 13.13 and 14.7). -/
def takeServing (s : State) (src : Nat) (m : ServMsg) : State :=
  match m.kind with
  | 1 => takeRoundList s m
  | 2 => takeRoundReport s src m
  | 3 => takePrefillJob s src m
  | 4 => takePrefillDone s src m
  | 5 => takeSpill s m
  | 6 => takeSpillDone s src m
  | 7 => takePageFault s m
  | _ => s

/-- A group message by its KIND (Table 17.3). -/
def takeGroup (s : State) (src : Nat) (m : GroupMsg) : State :=
  match m.kind with
  | 1 => takeJoin s src m
  | 2 => takeAlign s src m
  | 3 => takeReady s src m
  | 4 => takeWindowOpen s m
  | 5 => takeWindowDone s src m
  | 6 => takeProbe s src m
  | 7 => takeProbeAck s m
  | _ => s

/-- A message that came in MGMT frames reaches the endpoint that its kind names. -/
def takeMessage (s : State) (src : Nat) (b : FrameBody) : State :=
  match b with
  | .serving m => takeServing s src m
  | .group m => takeGroup s src m
  | .switchGather => sendFrame s src 64 (.switchState (switchAnswer s))
  | .switchState st => takeGatherReply s src st
  | .directoryAsk r => answerDirectory s src r
  | .directoryAnswer r a => takeDirectory s src r a
  | _ => s

/-- One MCTP packet at its endpoint: the packets of a message from one source are put together, and the last one completes it. A packet of
another message type changes nothing here (R434). -/
def takePacket (s : State) (src : Nat) (packet : List Byte) : State :=
  let flags := fieldAt packet 3 1
  let kind := fieldAt packet 7 1
  let bytes := packet.drop 8
  if fieldAt packet 4 1 ≠ 0x7E then s
  else
    let old := (s.mctpParts.find? fun e => e.1 = src && e.2.1 = kind).map (·.2.2)
    let s := { s with mctpParts := s.mctpParts.filter fun e => !(e.1 = src && e.2.1 = kind) }
    match if bitOf flags 7 then some bytes else old.map (· ++ bytes) with
    | none => s
    | some all =>
      if bitOf flags 6 then
        match messageBody kind all with
        | some b => takeMessage s src b
        | none => s
      else { s with mctpParts := s.mctpParts ++ [(src, kind, all)] }

/-- Consume a frame whose DEST is this module, or a TRAIN frame. A frame of lane 0 that carries poison is dropped and counted
(Table 12.7). -/
def consumeFrame (s : State) (p : Nat) (f : Frame) : State :=
  let h := f.hdr
  if laneOf f.body = 0 && h.poison then modPort s p fun q => { q with poisonDrops := q.poisonDrops + 1 }
  else
    match f.body with
    | .push st off data units mask => takePush s (some p) h st off data units mask
    | .pushAck st units => takePushAck s (some p) h st units
    | .credit st n => takeCredit s (some p) h st n
    | .streamStop st code => takeStreamStop s (some p) h st code
    | .tallyMark st n ep => takeTallyMark s (some p) h st n ep
    | .memRead tag addr len => takeMemRead s (some p) h tag addr len
    | .memData tag status data _ => takeMemData s h tag status data 0
    | .memWrite tag addr data mask => takeMemWrite s (some p) h tag addr data mask
    | .memAck tag status => takeMemAck s h tag status
    | .trickArrive slot g ep => takeArrive s (some p) h slot g ep
    | .trickRelease slot g ep => takeReleaseFrame s (some p) h slot g ep
    | .roundMark g r => takeRoundMark s (some p) h g r
    | .abortReq g code => takeAbortReq s (some p) h g code
    | .abort origin g code => takeAbort s (some p) h origin g code
    | .switchAnnounce g serial => takeAnnounce s (some p) h g serial
    | .switchCancel g code => takeCancel s (some p) h g code
    | .mgmt packet => takePacket s h.src packet
    | .quarClear port target => takeQuarClear s h port target
    | .train b => takeTrain s p b
    | .nack .. => s
    | b => takeMessage s h.src b

/-! ### Frames that arrive -/

/-- Whether a LENGTH lies in 2 to 69 and fits the frame's type; a type that Table 11.8 does not define fits any. -/
def lengthOk (r : RawFrame) : Bool :=
  let b := lengthsOf r.type r.hdr.poison
  2 ≤ r.length && r.length ≤ 69 && ((laneOfType r.type).isNone || (b.1 ≤ r.length && r.length ≤ b.2))

/-- The reason for which a frame's header breaks the protocol, if it does (Table 11.12). A frame that is longer than the link credits that
its sender holds does so too; `held` counts the units that are held already on its lane and class (R358). -/
def headerFault (q : Port) (r : RawFrame) (held : Nat) : Option Nat :=
  if (laneOfType r.type).isNone then some 1
  else if !lengthOk r then some 2
  else if !r.reservedClear then some 3
  else if some r.lane ≠ laneOfType r.type then some 4
  else if !portCarries q (.raw r.type r.arg r.body) then some 5
  else if laneUnits r.lane < held + r.length then some 8
  else none

/-- Forward a frame as it came, in the class in which it came; with no usable port it is dropped, logged and answered (R366, R368). -/
def forwardFrame (s : State) (p key : Nat) (r : RawFrame) : State :=
  let b : FrameBody := .raw r.type r.arg r.body
  let lost := (routePort s r.hdr.dest b).isNone
  let s := routeFrom s (some (p, key)) r.hdr.cls { hdr := r.hdr, body := b }
  if lost then sendNack s p 9 r.hdr.src (r.type = 0x3F) r.head else s

/-- Consume a frame: its body is checked first (R375). -/
def readAndConsume (s : State) (p : Nat) (r : RawFrame) : State :=
  match readBody r with
  | (_, some reason) => badFrame s p reason r.hdr.src (r.type = 0x3F) r.head
  | (b, none) => consumeFrame s p { hdr := if r.hdr.poison then { r.hdr with mask := bodyMask r.hdr b } else r.hdr, body := b }

/-- One whole frame of accepted flits: it takes its place in the receive buffer of its lane and class, is checked, and is consumed or
forwarded; its buffer is free when that is done (R358, R360, R375). A port in training or INCOMPATIBLE exchanges only TRAIN frames; a
quarantined one drops all but lane 0 and counts them. -/
def takeFrame (s : State) (p : Nat) (bytes : List Byte) : State :=
  let r := readFrame bytes
  let key := r.lane + 4 * r.hdr.cls
  let q := getPort s p
  let held := sget 0 q.rxHeld key
  let train := r.type = 0x22 && headerFault { q with state := .mgmtOnly } r held = none
  let fault := if train then none else headerFault q r held
  if fault = some 8 then badFrame s p 8 r.hdr.src (r.type = 0x3F) r.head
  else
    let s := modPort s p fun q => { q with rxHeld := sput 0 q.rxHeld key (held + r.length) }
    let done (s : State) : State := freeBuffer s (some (p, key)) r.length
    if train then done (readAndConsume s p r)
    else if q.state = .training || q.state = .incompatible then done s
    else if q.state = .quarantined && r.lane ≠ 0 then
      done (modPort s p fun q => { q with quarDrops := satInc 0xFFFF q.quarDrops })
    else
      match fault with
      | some reason => done (badFrame s p reason r.hdr.src (r.type = 0x3F) r.head)
      | none => if r.hdr.dest = ownIndex s then done (readAndConsume s p r) else forwardFrame s p key r

/-! ### Frames in flits (R360) -/

/-- One unit of an accepted flit goes to the frame under assembly: a unit of padding where none is, a header, or what follows. The header
of a frame whose LENGTH is bad is a violation, and the receiver looks for the next FIRST (R375). -/
def takeUnit (s : State) (p : Nat) (u : List Byte) : State :=
  let q := getPort s p
  if q.rxSkip || (q.rxPart = [] && (u[0]?).getD 0 = 0) then s
  else
    let bs := q.rxPart ++ u
    let r := readFrame bs
    let keep (part : List Byte) (skip : Bool) : State := modPort s p fun q => { q with rxPart := part, rxSkip := skip }
    if bs.length < 16 then keep bs false
    else if !lengthOk r then badFrame (keep [] true) p 2 r.hdr.src (r.type = 0x3F) r.head
    else if bs.length < 8 * r.length then keep bs false
    else takeFrame (keep [] false) p bs

/-- The payload of an accepted flit, unit by unit; after a bad LENGTH it is taken up again at FIRST. -/
def takePayload (s : State) (p : Nat) (flit : List Byte) : State :=
  let us := flitUnits flit
  if (getPort s p).rxSkip then
    if flitFirst flit = 31 then s
    else (us.drop (flitFirst flit)).foldl (fun s u => takeUnit s p u) (modPort s p fun q => { q with rxSkip := false, rxPart := [] })
  else us.foldl (fun s u => takeUnit s p u) s

/-- Whether a flit's payload is all padding: where a frame is under assembly its units belong to the frame. -/
def allPadding (q : Port) (flit : List Byte) : Bool :=
  if q.rxSkip then (flitUnits flit).all fun u => u.all (· = 0)
  else q.rxPart = [] && (flitUnits flit).all fun u => (u[0]?).getD 0 = 0

/-! ### Flits -/

/-- Whether a port reads flits: from flit lock on (Table 11.2). -/
def readsFlits (q : Port) : Bool := trained q || (q.state = .training && 4 ≤ q.step)

/-- Drop the retained flits up to an acknowledged SEQ. -/
def dropAcked (q : Port) (ack : BitVec 10) : Port :=
  match (q.retain.zip (List.range q.retain.length)).find? fun e => e.1.seq = ack with
  | some e => { q with retain := q.retain.drop (e.2 + 1) }
  | none => q

/-- Put a retained flit on the lanes again. -/
def resendFlit (s : State) (p : Nat) (r : RetFlit) : State := putFlit s p r.seq r.credit r.first r.payload

/-- The far end asks for a replay: every retained flit is sent again in order; one that fails after three replays retires the port (R356,
R357). -/
def takeNak (s : State) (p : Nat) : State :=
  let q := getPort s p
  match q.retain with
  | [] => s
  | r :: rest =>
    if 3 ≤ r.replays then retirePort s p r.seq
    else
      let all := { r with replays := r.replays + 1 } :: rest
      all.foldl (fun s r => resendFlit s p r) (setPort s p { q with retain := all, replays := satInc 0xFFFF q.replays })

/-- The header of a flit that is not discarded: acknowledgement, replay request, returned credits. -/
def takeHeader (s : State) (p : Nat) (flit : List Byte) : State :=
  let s := modPort s p fun q =>
    let q := dropAcked q (flitAck flit)
    { q with credits := sput 0 q.credits (flitKey flit) (sget 0 q.credits (flitKey flit) - flitCount flit) }
  flushTx (if flitNak flit then takeNak s p else s) p

/-- Discard a flit and ask for a replay (R356). -/
def discardFlit (s : State) (p : Nat) : State := tellPeer (modPort s p fun q => { q with rxWait := true, nakDue := true }) p

/-- Whether a flit has been accepted before: its SEQ lies behind the one that is expected. -/
def seenBefore (q : Port) (seq : BitVec 10) : Bool := 0 < (q.rxNext - seq).toNat && (q.rxNext - seq).toNat ≤ 256

/-- A good flit: a padding flit's header counts and its payload does not; the flit that is expected is accepted, and its frames are taken;
any other is discarded with its header, for which a replay is asked where none is under way. -/
def takeFlit (s : State) (p : Nat) (flit : List Byte) : State :=
  let q := getPort s p
  if allPadding q flit then tellPeer (takeHeader s p flit) p
  else if flitSeq flit = q.rxNext then
    let s := takeHeader (setPort s p { q with rxNext := q.rxNext + 1, rxWait := false, ackDue := true }) p flit
    if readsFlits (getPort s p) then tellPeer (takePayload s p flit) p else s
  else if q.rxWait || seenBefore q (flitSeq flit) then s
  else discardFlit s p

/-- FLIT_RECEIVE: a flit arrives, is corrected and checked, and is accepted in order or discarded with a NAK. -/
def execFlitReceive (port : Fin 12) (flit : Flit) (s : State) : Out :=
  let p := port.val
  if !readsFlits (getPort s p) then .next s
  else
    match goodFlit flit with
    | none => .next (discardFlit s p)
    | some bs =>
      let s := modPort s p fun q => if flit.errors.isEmpty then q else { q with corrected := satInc 0xFFFFFFFF q.corrected }
      let s := if (getPort s p).state = .active then startDeadline s (.flit p) else s
      .next (takeFlit s p bs)

/-- MGMT: a management packet reaches its endpoint or is forwarded. One with poison is dropped at its destination (Table 12.7). -/
def execMgmt (hdr : FrameHdr) (packet : List Byte) (s : State) : Out :=
  .next (if hdr.dest ≠ ownIndex s then routeFrame s hdr.cls (frameOf hdr (.mgmt packet))
         else if hdr.poison then s else takePacket s hdr.src packet)

end Sys2Proof.Machine
end

