-- ==== Sys2Proof/Machine/Meters.lean ====
section
/-! DEFINITION. The reference clock, pace counters, the refill of regulators, and the boundary-scan port (R52 to R57, R241, R242, R246, R554,
R589, R595, R612). -/

namespace Sys2Proof.Machine

/-! ### The reference clock (R52 to R54, R589) -/

/-- A Weazen port without the reference: its link is lost. A quarantined port stays so: R377 alone ends a quarantine (DEDUCED). -/
def portUnclocked (s : State) (p : Nat) : State :=
  match (getPort s p).state with
  | .active => linkDown s p
  | .mgmtOnly | .training | .incompatible => retrainPort s p
  | _ => s

/-- The compute die loses its reference: its meter runs on, its links are lost. -/
def computeUnclocked (s : State) : State :=
  let s := logBare { s with ringOsc := true, refLostSeen := true } evBupRefclkLost uCtl
  let s := (List.range 12).foldl portUnclocked s
  if s.host.linkUp then hotReset s else s

/-- REFCLK_LOST: a die has seen no edge for 40 ns and counts on its ring oscillator. -/
def execRefclkLost (die : Fin 9) (s : State) : Out :=
  if !s.power.inputOn then .next s
  else if die.val = 0 then .next (if s.ringOsc then s else computeUnclocked s)
  else .next (modStack s (die.val - 1) fun k => { k with ringOsc := true })

/-- The compute die has its reference again: ports that dropped train from step 1. The CXL link's own training ends with CXL_LINK_UP. -/
def computeClocked (s : State) : State :=
  let s := logBare { s with ringOsc := false } evBupRefclkRestored uCtl
  (List.range 12).foldl (fun s p => if (getPort s p).state = .off then startTraining s p else s) s

/-- REFCLK_RESTORED: a die has seen 1,000 edges in a row. -/
def execRefclkRestored (die : Fin 9) (s : State) : Out :=
  if die.val = 0 then .next (if s.ringOsc then computeClocked s else s)
  else .next (modStack s (die.val - 1) fun k => { k with ringOsc := false })

/-! ### Pace counters (R56, R57) -/

/-- The pace counter of a quadrant takes the cycles of the local millisecond that ends. The first millisecond after power-up was not whole:
a mark beside the counters says that it has passed. -/
def paceQuadrant (s : State) (counts : List Nat) (q : Nat) : State :=
  if !quadrantOn s q then s
  else
    let whole := sget 0 s.pace (16 + q) ≠ 0
    let v := (counts[q]?).getD 0 % 2 ^ 24
    { s with pace := sput 0 (sput 0 s.pace q (if whole then w32 (2 ^ 31 + v) else 0)) (16 + q) 1 }

/-- PACE_UPDATE: a local millisecond of the compute die ends. The input power that PWR_INPUT averages over it is measured: a value of
Config. -/
def execPaceUpdate (counts : List Nat) (s : State) : Out :=
  if !s.power.inputOn then .next s
  else
    let s := (List.range 16).foldl (fun s q => paceQuadrant s counts q) s
    .next { s with freeNext := s.freeNext + 1, power := { s.power with watts := Config.watts s.freeNext } }

/-! ### Regulators (R241, R242, R246) -/

/-- The level of an enabled regulator rises by REFILL, up to DEPTH. -/
def refillReg (r : Regulator) : Regulator :=
  if r.enable then { r with level := min (r.level + r.refill.toNat) r.depth.toNat } else r

/-- The writes that waited take effect together, or are rejected. -/
def applyPend (r : Regulator) : Regulator :=
  match r.pend with
  | none => r
  | some (en, refill, depth) =>
    if en && (refill = 0 || depth.toNat < 4096) then { r with pend := none, rejected := true }
    else
      { r with enable := en, refill := refill, depth := depth, pend := none,
               level := if en && !r.enable then depth.toNat else min r.level depth.toNat }

/-- Whether the first transfer of a table's queue may charge its pair now. -/
def mayProceed (s : State) (pair n : Nat) : Bool := canCharge { s with regWait := [] } (pair / 16) (pair % 16) n

/-- Let transfers that wait proceed, in order: a table stays behind the first of its transfers that must wait on. A core's play comes
again and keeps its place until it has issued. -/
def runQueue (s : State) (blocked : List Nat) : List (Nat × Nat × Xfer) → State
  | [] => s
  | w :: rest =>
    let t := w.1 / 16
    if blocked.contains t || !mayProceed s w.1 w.2.1 then runQueue s (t :: blocked) rest
    else
      match w.2.2 with
      | .core _ => runQueue (runXfer s w.1 w.2.2) (t :: blocked) rest
      | .result n core ticket =>
        let s := charge { s with regWait := s.regWait.erase w } t (w.1 % 16) w.2.1
        let s := match runOf (getStack s n) core ticket with
          | some r => if r.abort then s else landResult s n r
          | none => s
        runQueue s blocked rest
      | x =>
        let s := { s with regWait := s.regWait.erase w }
        runQueue (runXfer (charge s t (w.1 % 16) w.2.1) w.1 x) blocked rest

/-- Banks whose first row waits for a write-back look again (R331), and the back-invalidations that waited for a host write end. -/
def resumeRows (s : State) : State :=
  settleBi ((List.range 8).foldl (fun s n =>
    (getStack s n).runs.foldl (fun s r => r.banks.foldl (fun s b => if b.done = 0 then resumeBank s n b.bank else s) s) s) s)

/-- REGULATOR_REFILL_TICK: a local microsecond of the compute-die meter. -/
def execRegulatorRefillTick (s : State) : Out :=
  if !s.power.inputOn then .next s
  else
    let s := (s.regs.map (·.1)).foldl (fun s n => setReg s n (applyPend (refillReg (getReg s n)))) s
    .next (resumeRows (runQueue s [] s.regWait))

/-! ### The boundary-scan port (R595, R612) -/

/-- TEST_ACCESS_PORT_INSTRUCTION: the instructions of IEEE 1149.1 with IDCODE and BYPASS are numbered 0 BYPASS, 1 IDCODE, 2 SAMPLE, 3 PRELOAD,
4 EXTEST. In production DEBUG state every other one acts as BYPASS; in another DEBUG state the manual gives it no effect. -/
def execTestAccessPortInstruction (ir : Nat) (s : State) : Out :=
  if ir < 5 then .next { s with sec := { s.sec with tap := ir } }
  else if s.sec.debug = 0 then .next { s with sec := { s.sec with tap := 0 } }
  else .refused .debugInstructionUnspecified

end Sys2Proof.Machine
end

