-- ==== Sys2Proof/Machine/Scalar.lean ====
section
/-! DEFINITION. Control and scalar plays (Table 4.8, R118, R122, R146 to R148). -/

namespace Sys2Proof.Machine

/-- The play that a core fetches: the word of its program store at its play index, decoded; past the program's last play, and on
any word that names no play, none (R116 to R118). -/
def fetchPlay (s : State) (core : CoreId) : Option Instr :=
  let c := getCore s core.idx
  if c.pc < c.progLen then decodePlay core (sget 0 c.prog c.pc) else none

/-- NOP. -/
def execNop (h : PlayHdr) (s : State) : Out := issue s h fun s _ => .done s

/-- HALT: the core stops. -/
def execHalt (h : PlayHdr) (s : State) : Out :=
  issue s h fun s n => .moved (modCore s n fun c => { c with run := .halted })

/-- FAULT: TNS_SOFTWARE with NUMBER. -/
def execFault (h : PlayHdr) (number : BitVec 16) (s : State) : Out :=
  issue s h fun s _ => .fault s evTnsSoftware number.toNat 0

/-- LOOP: enters its body with iteration 0; not run, it skips the body (R147, R148). -/
def execLoop (h : PlayHdr) (count : BitVec 20) (body : BitVec 11) (s : State) : Out :=
  issueWith s h (fun s n => .moved (modCore s n fun c => goTo c (c.pc + 1 + body.toNat))) fun s n =>
    .moved (modCore s n fun c =>
      { c with loops := { first := c.pc + 1, body := body.toNat, count := count.toNat, iter := 0 } :: c.loops, pc := c.pc + 1 })

/-- SKIP: continues at the play N + 1 after it. -/
def execSkip (h : PlayHdr) (n : BitVec 11) (s : State) : Out :=
  issue s h fun s k => .moved (modCore s k fun c => goTo c (c.pc + 1 + n.toNat))

/-- The number of the scalar register that a field names. -/
def regNo (r : Fin 32) : Nat := r.val

/-- Every half of a result is poisoned when an operand is (R107). -/
def spread (bad : Bool) : BitVec 2 := if bad then 3 else 0

/-- SETI: s[SD] ← IMM48. -/
def execSeti (h : PlayHdr) (f : FmtC) (s : State) : Out :=
  issue s h fun s n => .done (setSreg s n f.sd.val (f.imm.zeroExtend 64) 0)

/-- SADDI: s[SD] ← s[SX] + IMM48. -/
def execSaddi (h : PlayHdr) (f : FmtC) (s : State) : Out :=
  issue s h fun s n =>
    let c := getCore s n
    .done (setSreg s n f.sd.val (sreg c f.sx.val + f.imm.signExtend 64) (spread (sregBad c f.sx.val)))

/-- The value of SALU (Table 4.8); a reserved FN never passes deck load (R120, R122), so a
play that carries one reaches no core and its command changes nothing. -/
def salu (fn : Nat) (x y : W64) : Option W64 :=
  match fn with
  | 0 => some (x + y)
  | 1 => some (x - y)
  | 2 => some (x * y)
  | 3 => some (x &&& y)
  | 4 => some (x ||| y)
  | 5 => some (x ^^^ y)
  | 6 => some (x <<< (y.toNat % 64))
  | 7 => some (x >>> (y.toNat % 64))
  | 8 => some (if x.toNat ≤ y.toNat then x else y)
  | 9 => some (if x.toNat ≤ y.toNat then y else x)
  | _ => none

/-- SALU. -/
def execSalu (h : PlayHdr) (f : FmtC) (s : State) : Out :=
  issue s h fun s n =>
    let c := getCore s n
    match salu f.fn.toNat (sreg c f.sx.val) (sreg c f.sy.val) with
    | some v => .done (setSreg s n f.sd.val v (spread (sregBad c f.sx.val || sregBad c f.sy.val)))
    | none => .moved s

/-- The comparison of SCMP by FN bits 2:0 (Table 4.8). -/
def scmp (cond : Nat) (x y : W64) : Option Bool :=
  match cond with
  | 0 => some (x = y)
  | 1 => some (x ≠ y)
  | 2 => some (x.toNat < y.toNat)
  | 3 => some (y.toNat ≤ x.toNat)
  | 4 => some (x.toInt < y.toInt)
  | 5 => some (y.toInt ≤ x.toInt)
  | _ => none

/-- SCMP. -/
def execScmp (h : PlayHdr) (f : FmtC) (s : State) : Out :=
  issue s h fun s n =>
    let c := getCore s n
    let imm := bitOf f.fn.toNat 3
    let y := if imm then f.imm.zeroExtend 64 else sreg c f.sy.val
    match scmp (f.fn.toNat % 8) (sreg c f.sx.val) y with
    | some b => .done (setPred s n f.pd.val b (sregBad c f.sx.val || (!imm && sregBad c f.sy.val)))
    | none => .moved s

/-- The value of PLOG (Table 4.8). -/
def plog (fn : Nat) (x y : Bool) : Option Bool :=
  match fn with
  | 0 => some (x && y)
  | 1 => some (x || y)
  | 2 => some (x != y)
  | 3 => some (x && !y)
  | 4 => some true
  | 5 => some false
  | _ => none

/-- PLOG. Set and clear ignore their sources, poison included. -/
def execPlog (h : PlayHdr) (f : FmtC) (s : State) : Out :=
  issue s h fun s n =>
    let c := getCore s n
    let x := f.sx.val % 8
    let y := f.sy.val % 8
    match plog f.fn.toNat (predOf c x) (predOf c y) with
    | some b => .done (setPred s n f.pd.val b (f.fn.toNat < 4 && (predBad c x || predBad c y)))
    | none => .moved s

/-- PBIT: p[PD] ← bit IMM48[5:0] of s[SX]; the flag is poisoned when the half of s[SX] that holds the bit is (DEDUCED from R107, log 23). -/
def execPbit (h : PlayHdr) (f : FmtC) (s : State) : Out :=
  issue s h fun s n =>
    let c := getCore s n
    let b := f.imm.toNat % 64
    .done (setPred s n f.pd.val (bitOf (sreg c f.sx.val).toNat b) (bitOf (sregPoison c f.sx.val).toNat (b / 32)))

/-- LIDX: s[SD] ← the iteration index of the active loop FN[1:0] levels out, or all ones. -/
def execLidx (h : PlayHdr) (f : FmtC) (s : State) : Out :=
  issue s h fun s n =>
    let v : W64 :=
      match (getCore s n).loops[f.fn.toNat % 4]? with
      | some l => BitVec.ofNat 64 l.iter
      | none => 0xFFFFFFFFFFFFFFFF
    .done (setSreg s n f.sd.val v 0)

/-- A zero play, or an index past the last loaded play, faults (R118). -/
def execPlayIllegal (core : CoreId) (s : State) : Out :=
  if coreIssues s core.idx && (fetchPlay s core).isNone then .next (coreFault s core.idx evTnsPlayIllegal 0 0) else .next s

end Sys2Proof.Machine
end

