-- ==== Sys2Proof/Machine/StackEvents.lean ====
section
/-! DEFINITION. Events at the memory channel controllers: reads and writes that reach them, drains, refresh and held writes
(R219 to R239, R242). -/

namespace Sys2Proof.Machine

/-! ### LINE_READ and LINE_WRITE -/

/-- LINE_READ: a line read reaches its controller, once its regulator lets it cross the stack interface. -/
def execLineRead (who : Consumer) (addr disturbed : Nat) (s : State) : Out :=
  if !populated addr then .fault .noSuchLine
  else
    let line := addr / 64
    if !chargedReader who then .next (serveRead s who line disturbed)
    else if lineCharges s line then .next (serveRead (chargeLine s line) who line disturbed)
    else .next (waitCross s line 64 (.lineRead who addr disturbed))

/-- LINE_WRITE: a line write reaches its controller and enters the buffer, once its regulator lets it cross. -/
def execLineWrite (addr : Nat) (data : Line) (mask : BitVec 64) (poison : Bool) (s : State) : Out :=
  if !populated addr then .fault .noSuchLine
  else
    let line := addr / 64
    let e : WcbEntry := { line := line, data := data, mask := mask, poison := poisonAll poison, sender := .none }
    .next (sendLine s e)

/-! ### Drains (R224, R225) -/

/-- What keeps an entry in its buffer: held writes, a refresh, a scrub row or an operation on its bank, a repair. -/
def drainHeld (s : State) (line : Nat) : Bool :=
  let k := getStack s (lineStack line)
  let b := (linePlace s line).bank
  k.writeHold || k.refreshing.contains b || k.scrub.active.contains b || bankRunning k b || underRepair s line

/-- WCB_DRAIN_DONE: an entry that drains is written and its place is free. -/
def execWcbDrainDone (stack : Fin 8) (line disturbed : Nat) (s : State) : Out :=
  let k := getStack s stack.val
  match wcbEntry k line with
  | none => .next s
  | some e =>
    if !k.draining.contains line || drainHeld s line then .next s
    else .next (settleBi (pump (markDrains (drainEntry s e disturbed) stack.val line) stack.val))

/-- WCB_DRAIN_TIMEOUT: a controller under reset has not drained in 100 µs; its entries are lost, and their lines are
rewritten poisoned once the controller runs again (R578). -/
def execWcbDrainTimeout (stack : Fin 8) (s : State) : Out :=
  let s := if (getStack s stack.val).resetting then expire s (.drain stack.val) 10000 else s
  .next (modStack s stack.val fun k =>
    if k.resetting then { k with undrained := k.undrained ++ k.wcb.map (·.line), wcb := [], draining := [] } else k)

/-! ### Refresh (R230 to R235) -/

/-- The refresh of one bank starts, or waits for its next row boundary (R233). -/
def refreshBank (k : Stack) (bank : Nat) : Stack :=
  if bankInRow k bank || k.scrub.active.contains bank || k.refreshing.contains bank then
    if k.refreshDue.contains bank then k else { k with refreshDue := k.refreshDue ++ [bank] }
  else { closeRows k bank with refreshing := k.refreshing ++ [bank] }

/-- REFRESH_DUE: the refresh of a bank slot falls due in every memory channel (R232). In a channel that is in self-refresh the arrays
refresh themselves (R235). -/
def execRefreshDue (stack : Fin 8) (slot : Fin 24) (s : State) : Out :=
  .next (modStack s stack.val fun k =>
    ((rangeFrom (32 * slot.val) 32).filter fun b => !chanAsleep s stack.val (b % 32)).foldl refreshBank k)

/-- REFRESH_DONE: a bank's refresh ends and what waited for the bank is served. -/
def execRefreshDone (stack : Fin 8) (bank : Fin 768) (s : State) : Out :=
  let k := getStack s stack.val
  if k.refreshing.contains bank.val then
    .next (bankBoundary (setStack s stack.val { k with refreshing := k.refreshing.filter (· ≠ bank.val) }) stack.val bank.val)
  else .next s

/-! ### Held writes (R236 to R239, Table 7.8) -/

/-- A refusal is logged with the line's address (R237). -/
def logRefused (s : State) (line : Nat) : State :=
  logGen s evThmStackWriteRefused (uStack (lineStack line)) none [] [w64 (lineAddr line)]

/-- A line enters the refused-line list; the list that becomes full is logged once (R238, R239). -/
def refuseLine (s : State) (line : Nat) : State :=
  let n := lineStack line
  let s := logRefused s line
  let k := getStack s n
  if k.refused.contains line then s
  else
    let k := { k with refused := k.refused ++ [line] }
    if k.refused.length < 1024 then setStack s n k
    else logBare (setStack s n { k with refusedFull := true }) evThmStackRefusedFull (uStack n)

/-- The writes that wait at a controller. -/
def queuedWrites (k : Stack) : List WcbEntry := k.queue.filterMap fun a => match a with | .write e => some e | _ => none

/-- The oldest write of a sender to a line that waits for an entry. -/
def heldSender (k : Stack) (line : Nat) : Option Sender :=
  ((queuedWrites k).find? fun e => e.line = line && e.sender ≠ .none).map (·.sender)

/-- Refuse every waiting write of a sender: the host is answered with Cmp and its lines enter the refused-line list with a
media event record each; the fabric is answered with STATUS 1 (R363, R507). -/
def refuseSender (s : State) (stack : Nat) (w : Sender) : State :=
  let ls := ((queuedWrites (getStack s stack)).filter fun e => e.sender = w).map (·.line)
  let s := modStack s stack fun k =>
    { k with queue := k.queue.filter fun a => match a with | .write e => e.sender ≠ w | _ => true }
  match w with
  | .none => s
  | .area _ _ => answerSender (ls.foldl refuseLine s) w
  | .host hpa =>
    let s := ls.foldl (fun s l => mediaRecord (refuseLine s l) evThmStackWriteRefused true 2 (lineDpa l)) s
    toHost s (.cmp hpa)
  | .fabric src tag gen =>
    let s := ls.foldl logRefused s
    routeFrame s 0 { hdr := { dest := src, src := ownIndex s, gen := gen, table := 64, poison := false }, body := .memAck tag 1 }

/-- The run and bank that held writes keep from storing the row of a line. -/
def heldStore (s : State) (line : Nat) : Option (ScriptRun × Nat) :=
  let p := linePlace s line
  (getStack s p.stack).runs.findSome? fun r =>
    (r.banks.find? fun b => b.bank = p.bank && b.started && !b.inRow && !b.ended &&
      (nextStep r b).any fun st => st.writes && st.row = p.row).map fun b => (r, b.bank)

/-- A held write into the arrays is refused: the line stays as it was and reads as poisoned from now on (R238). A repair that cannot
write its line ends with its consumers poisoned (DESIGN CHOICE, log 168: Table 7.8 names no such write). -/
def refuseHeld (s : State) (n : Nat) (w : HeldWrite) (line : Nat) : State :=
  let s := refuseLine (modStack s n fun k => { k with heldWrites := k.heldWrites.filter (· ≠ w) }) line
  match w with
  | .repair _ _ _ => releaseLine s line true
  | .unreach _ => releaseLine s line true
  | _ => s

/-- The deadline of a held write: its own, or for one that was there already that of the window that closed. -/
def lineHold (s : State) (n line : Nat) : Deadline :=
  if runsDeadline s (.writeHold n (some line)) then .writeHold n (some line) else .writeHold n none

/-- The budget of a held write, BUDGET of the running deck's round plan on the base-die meter, has passed (R237). -/
def holdOver (s : State) (n line : Nat) : State :=
  dropDeadline (reachDeadline s (lineHold s n line) (budgetOf s)) (.writeHold n (some line))

/-- WRITE_HOLD_EXPIRY: a write to a line, held for the budget, is refused by its kind (Table 7.8). While the refused-line
list is full nothing is refused (R239). What waited behind the write goes on. -/
def execWriteHoldExpiry (stack : Fin 8) (line : Nat) (s : State) : Out :=
  let n := stack.val
  let k := getStack s n
  let on (s : State) : Out := .next (bankBoundary s n (linePlace s line).bank)
  if !k.writeHold || k.refusedFull || lineStack line ≠ n then .next s
  else
    match heldSender k line with
    | some w => on (refuseSender (holdOver s n line) n w)
    | none =>
      match k.heldWrites.find? fun w => w.line = some line with
      | some w => on (refuseHeld (holdOver s n line) n w line)
      | none =>
        match wcbEntry k line with
        | some _ => on (refuseLine (modStack (holdOver s n line) n fun k => dropEntry k line) line)
        | none =>
          match heldStore s line with
          | some (r, b) =>
            let s := expire s (.rowHold n b) (budgetOf s)
            .next (faultRun (logRefused s line) n r evTnsScriptWriteRefused (b % 32) (b / 32) (w32 (linePlace s line).row))
          | none => .next s

end Sys2Proof.Machine
end

