-- ==== Sys2Proof/Machine/Vector.lean ====
section
/-! DEFINITION. Vector plays (Table 4.11, R127 to R129, R170 to R180). -/

namespace Sys2Proof.Machine

/-- The types accepted wherever an FP32 operand is (R127). -/
def isFloat (t : Elem) : Bool := t = .fp32 || t = .bf16 || t = .fp16

/-- An unscaled floating operand. -/
def plainFloat (d : Desc) : Bool := isFloat (descElem d) && d.block = 0

/-- Whether an operand fits C's index space: on each dimension the same SIZE, or SIZE 1 with stride 0 (R127). -/
def fitsSpace (c d : Desc) : Bool :=
  (List.range 6).all fun i => dimN d.size i = dimN c.size i || (dimN d.size i = 1 && dimZ d.stride i = 0)

/-- The index of an operand for an index of C: 0 along a broadcast dimension. -/
def operandTuple (d : Desc) (x : List Nat) : List Nat := (x.zip d.size).map fun e => if e.2 = 1 then 0 else e.1

/-- An operand's elements over C's index space. -/
def gatherOver (rd : Int → Byte × Bool) (c d : Desc) : List RdElem :=
  (tuples c).map fun x => readElem rd d (operandTuple d x)

/-- Checks of an elementwise play's C. -/
def destOk (c : Desc) : Bool := descLocal c && writable c

/-- An elementwise play on A: `types` says whether A and C suit it; `val` gives C's value (R127, R177). -/
def unaryPlay (s : State) (h : PlayHdr) (f : FmtT) (types : Desc → Desc → Bool) (val : FV → FV) : Out :=
  issue s h fun s n =>
    match takeOperands (getCore s n) [(f.da.val, f.sa.val), (f.dc.val, f.sc.val)] with
    | .error e => bad s e
    | .ok [a, c] =>
      if !(types a c && descLocal a && fitsSpace c a && destOk c) then bad s evTnsOperand
      else
        rangeEnd s n [a, c] fun s =>
          let xs := gatherOver (coreView (getCore s n) []) c a
          .done (commitWords s n (scatter c (xs.map fun x => ((descElem c).encode (val x.val), x.poison))))
    | .ok _ => .moved s

/-- An elementwise play on A, B and the old C; `useC` says whether C is read (R127, R177). -/
def binaryPlay (s : State) (h : PlayHdr) (f : FmtT) (useC : Bool) (val : FV → FV → FV → FV) : Out :=
  issue s h fun s n =>
    match takeOperands (getCore s n) [(f.da.val, f.sa.val), (f.db.val, f.sb.val), (f.dc.val, f.sc.val)] with
    | .error e => bad s e
    | .ok [a, b, c] =>
      if !(plainFloat a && plainFloat b && plainFloat c && descLocal a && descLocal b && fitsSpace c a && fitsSpace c b &&
          destOk c) then bad s evTnsOperand
      else
        rangeEnd s n [a, b, c] fun s =>
          let rd := coreView (getCore s n) []
          let xs := gatherOver rd c a
          let ys := gatherOver rd c b
          let zs := gatherOver rd c c
          let vals := (xs.zip (ys.zip zs)).map fun e =>
            ((descElem c).encode (val e.1.val e.2.1.val e.2.2.val), e.1.poison || e.2.1.poison || (useC && e.2.2.poison))
          .done (commitWords s n (scatter c vals))
    | .ok _ => .moved s

/-- VADD: C ← A + B. -/
def execVadd (h : PlayHdr) (f : FmtT) (s : State) : Out := binaryPlay s h f false fun x y _ => x.add y
/-- VSUB: C ← A − B. -/
def execVsub (h : PlayHdr) (f : FmtT) (s : State) : Out := binaryPlay s h f false fun x y _ => x.add y.neg
/-- VMUL: C ← A × B. -/
def execVmul (h : PlayHdr) (f : FmtT) (s : State) : Out := binaryPlay s h f false fun x y _ => x.mul y
/-- VFMA: C ← A × B + C with one rounding. -/
def execVfma (h : PlayHdr) (f : FmtT) (s : State) : Out := binaryPlay s h f true fun x y z => (x.mul y).add z
/-- VMAX: C ← maximum of A and B (R178). -/
def execVmax (h : PlayHdr) (f : FmtT) (s : State) : Out := binaryPlay s h f false fun x y _ => x.max y
/-- VMIN: C ← minimum of A and B (R178). -/
def execVmin (h : PlayHdr) (f : FmtT) (s : State) : Out := binaryPlay s h f false fun x y _ => x.min y
/-- VADDI: C ← A + IMM32 as FP32. -/
def execVaddi (h : PlayHdr) (f : FmtT) (s : State) : Out :=
  unaryPlay s h f (fun a c => plainFloat a && plainFloat c) fun x => x.add (f32 f.imm)
/-- VMULI: C ← A × IMM32 as FP32. -/
def execVmuli (h : PlayHdr) (f : FmtT) (s : State) : Out :=
  unaryPlay s h f (fun a c => plainFloat a && plainFloat c) fun x => x.mul (f32 f.imm)
/-- VCVT: C ← A converted to C's unscaled type, FP6 and FP4 excepted (R171, R172). DESIGN CHOICE (log 151): A may also be
block-scaled; its scaled values are converted. -/
def execVcvt (h : PlayHdr) (f : FmtT) (s : State) : Out :=
  unaryPlay s h f (fun _ c => c.block = 0 && !isFp6 (descElem c) && descElem c ≠ .fp4) fun x => x
/-- VDEQ: C ← block-scaled A expanded to FP32, BF16 or FP16. -/
def execVdeq (h : PlayHdr) (f : FmtT) (s : State) : Out :=
  unaryPlay s h f (fun a c => a.block ≠ 0 && plainFloat c) fun x => x

/-! ### Quantisation (R174 to R176) -/

/-- ⌊log₂ |x|⌋ of an FP32 value other than zero. -/
def floorLog2 : FV → Int
  | .num _ m e => (Nat.log2 m : Int) + e
  | _ => 0

/-- The constant emax of a type (R174). -/
def emaxOf (t : Elem) : Int :=
  match t with
  | .e4m3 => 8 | .e5m2 => 15 | .e3m2 => 4 | _ => 2

/-- Whether a value is NaN or infinite. -/
def notFinite : FV → Bool
  | .num .. => false
  | _ => true

/-- Whether a value is a zero. -/
def isZero : FV → Bool
  | .num _ m _ => m = 0
  | _ => false

/-- The E8M0 field of a block and its exponent e, from the block's x values (R174, R175). -/
def blockField (t : Elem) (xs : List FV) : Nat × Int :=
  if xs.any notFinite then (255, 0)
  else
    match ((xs.filter fun x => !isZero x).map floorLog2).max? with
    | none => (127, 0)
    | some k =>
      let e := max (-127) (min 127 (k - emaxOf t))
      ((127 + e).toNat, e)

/-- The block of an index tuple. -/
def blockKey (d : Desc) (x : List Nat) : List Nat := blockCoords d x

/-- VQUANT: C ← A × B quantised, with one scale per block; a poisoned element poisons its block (Table 12.5). -/
def execVquant (h : PlayHdr) (f : FmtT) (s : State) : Out :=
  issue s h fun s n =>
    match takeOperands (getCore s n) [(f.da.val, f.sa.val), (f.db.val, f.sb.val), (f.dc.val, f.sc.val)] with
    | .error e => bad s e
    | .ok [a, b, c] =>
      if !(plainFloat a && plainFloat b && c.block ≠ 0 && !c.sl && descLocal a && descLocal b && fitsSpace c a &&
          fitsSpace c b && destOk c) then bad s evTnsOperand
      else
        rangeEnd s n [a, b, c] fun s =>
          let rd := coreView (getCore s n) []
          let prods := ((gatherOver rd c a).zip (gatherOver rd c b)).map fun e =>
            (f32 (toF32 (e.1.val.mul e.2.val)), e.1.poison || e.2.poison)
          let cells := (tuples c).zip prods
          let vals := cells.map fun e =>
            let mine := cells.filter fun o => blockKey c o.1 = blockKey c e.1
            let fe := blockField (descElem c) (mine.map (·.2.1))
            let v := if fe.1 = 255 then FV.zero else e.2.1.mul (.num false 1 (-fe.2))
            ({ bits := (descElem c).encode v, val := v, poison := mine.any (·.2.2), scale := fe.1, sl := 0 } : RdElem)
          .done (commitWords s n (scatterScaled c vals))
    | .ok _ => .moved s

/-! ### Transcendentals (R180) -/

/-- A transcendental play: an FP32 result rounded to C's type. -/
def transPlay (s : State) (h : PlayHdr) (f : FmtT) (p : Trans) : Out :=
  unaryPlay s h f (fun a c => plainFloat a && plainFloat c) fun x => f32 (transcend p (toF32 x))

/-- VEXP2: C ← 2^A. -/
def execVexp2 (h : PlayHdr) (f : FmtT) (s : State) : Out := transPlay s h f .exp2
/-- VLOG2: C ← log₂ A. -/
def execVlog2 (h : PlayHdr) (f : FmtT) (s : State) : Out := transPlay s h f .log2
/-- VRCP: C ← 1 ÷ A. -/
def execVrcp (h : PlayHdr) (f : FmtT) (s : State) : Out := transPlay s h f .rcp
/-- VRSQRT: C ← 1 ÷ √A. -/
def execVrsqrt (h : PlayHdr) (f : FmtT) (s : State) : Out := transPlay s h f .rsqrt
/-- VTANH: C ← tanh A. -/
def execVtanh (h : PlayHdr) (f : FmtT) (s : State) : Out := transPlay s h f .tanh
/-- VSIGM: C ← 1 ÷ (1 + e^−A). -/
def execVsigm (h : PlayHdr) (f : FmtT) (s : State) : Out := transPlay s h f .sigm
/-- VSILU: C ← A ÷ (1 + e^−A). -/
def execVsilu (h : PlayHdr) (f : FmtT) (s : State) : Out := transPlay s h f .silu

/-! ### Reductions (R128, R178, R179) -/

/-- The rows of A along dimension 0. -/
def rowsOf (d : Desc) (xs : List RdElem) : List (List RdElem) :=
  let n := dimN d.size 0
  (List.range (xs.length / max 1 n)).map fun i => (xs.drop (i * n)).take n

/-- Combine adjacent lanes, `rounds` times (R128). -/
def pairLanes : Nat → List W32 → List W32
  | 0, l => l
  | k + 1, l =>
    pairLanes k ((List.range (l.length / 2)).map fun i => fadd ((l[2 * i]?).getD 0) ((l[2 * i + 1]?).getD 0))

/-- The fixed-order sum of R128; `add` adds one element to its lane. -/
def laneSum (add : W32 → FV → W32) (row : List RdElem) : W32 :=
  let lanes := (List.range 64).map fun l =>
    ((row.zip (List.range row.length)).filter fun e => e.2 % 64 = l).foldl (fun acc e => add acc e.1.val) (0 : W32)
  ((pairLanes 6 lanes).head?).getD 0

/-- A reduction: `row` gives the bits of C for one row of A with their poison; `width` is how many a row of `len` gives;
`dest` says which C suits (Table 4.11). -/
def reducePlay (s : State) (h : PlayHdr) (f : FmtT) (dest : Desc → Bool) (width : Nat → Nat)
    (row : Elem → List RdElem → List (Nat × Bool)) : Out :=
  issue s h fun s n =>
    match takeOperands (getCore s n) [(f.da.val, f.sa.val), (f.dc.val, f.sc.val)] with
    | .error e => bad s e
    | .ok [a, c] =>
      let len := dimN a.size 0
      if !(plainFloat a && descLocal a && destOk c && c.block = 0 && dest c &&
          elemCount c = elemCount a / len * width len && width len ≠ 0) then bad s evTnsOperand
      else
        rangeEnd s n [a, c] fun s =>
          .done (commitWords s n (scatter c ((rowsOf a (readLocal s n a)).flatMap (row (descElem c)))))
    | .ok _ => .moved s

/-- Whether any element of a row is poisoned. -/
def rowBad (r : List RdElem) : Bool := r.any (·.poison)

/-- VRSUM: per row of A, C ← Σ A, summed in FP32; a BF16 or FP16 C takes it rounded once more (R127). -/
def execVrsum (h : PlayHdr) (f : FmtT) (s : State) : Out :=
  reducePlay s h f (fun c => isFloat (descElem c)) (fun _ => 1) fun t r =>
    [(t.encode (f32 (laneSum (fun acc x => toF32 ((f32 acc).add x)) r)), rowBad r)]

/-- VRSSQ: per row of A, C ← Σ A², as VRSUM. -/
def execVrssq (h : PlayHdr) (f : FmtT) (s : State) : Out :=
  reducePlay s h f (fun c => isFloat (descElem c)) (fun _ => 1) fun t r =>
    [(t.encode (f32 (laneSum (fun acc x => toF32 ((f32 acc).add (x.mul x))) r)), rowBad r)]

/-- VRMAX: per row of A, C ← maximum of A (R178). -/
def execVrmax (h : PlayHdr) (f : FmtT) (s : State) : Out :=
  reducePlay s h f (fun c => isFloat (descElem c)) (fun _ => 1) fun t r =>
    match r with
    | [] => []
    | x :: xs => [(t.encode (xs.foldl (fun m y => m.max y.val) x.val), rowBad r)]

/-- Inclusive prefix sums from an FP32 accumulator, in ascending order, each stored as type `t`. -/
def scanFrom (t : Elem) (acc : W32) (p : Bool) : List RdElem → List (Nat × Bool)
  | [] => []
  | x :: xs =>
    let a := toF32 ((f32 acc).add x.val)
    (t.encode (f32 a), p || x.poison) :: scanFrom t a (p || x.poison) xs

/-- VSCAN: per row of A, C ← inclusive prefix sums. DESIGN CHOICE (log 150): the accumulator starts from +0.0, as the
lanes of R128 do, so that a leading −0 gives +0. -/
def execVscan (h : PlayHdr) (f : FmtT) (s : State) : Out :=
  reducePlay s h f (fun c => isFloat (descElem c)) (fun len => len) fun t r => scanFrom t 0 false r

/-- Whether `x` ranks above `y` (R179): NaN above +∞, zeros equal. -/
def ranksAbove (x y : FV) : Bool :=
  if y = .nan then false else if x = .nan then true else !(x.leNum y)

/-- Insert an index into a list ranked descending; equals keep ascending order. -/
def insRank (x : FV × Nat) : List (FV × Nat) → List (FV × Nat)
  | [] => [x]
  | y :: r => if ranksAbove x.1 y.1 then x :: y :: r else y :: insRank x r

/-- The indices of the `k` largest elements (R179). -/
def topIndices (row : List RdElem) (k : Nat) : List Nat :=
  (((row.map (·.val)).zip (List.range row.length)).foldl (fun l x => insRank x l) []).take k |>.map (·.2)

/-- VTOPK: per row of A, the indices of the IMM32 largest elements; with MODE bit 0, also the mask of row 0's indices. -/
def execVtopk (h : PlayHdr) (f : FmtT) (s : State) : Out :=
  issue s h fun s n =>
    match takeOperands (getCore s n) [(f.da.val, f.sa.val), (f.dc.val, f.sc.val)] with
    | .error e => bad s e
    | .ok [a, c] =>
      let len := dimN a.size 0
      let k := f.imm.toNat
      let masked := bitOf f.mode.toNat 0
      if !(plainFloat a && descLocal a && destOk c && c.block = 0 && descElem c = .int32 && 1 ≤ k && k ≤ 16 && k ≤ len &&
          (!masked || len ≤ 64) && elemCount c = elemCount a / len * k) then bad s evTnsOperand
      else
        rangeEnd s n [a, c] fun s =>
          let rows := rowsOf a (readLocal s n a)
          let vals := rows.flatMap fun r => (topIndices r k).map fun i => (i, rowBad r)
          let s := commitWords s n (scatter c vals)
          let r0 := (rows.head?).getD []
          .done (if masked then
              setSreg s n (fieldOf f.mode.toNat 1 5) (BitVec.ofNat 64 ((topIndices r0 k).map fun i => 2 ^ i).sum) (spread' (rowBad r0))
            else s)
    | .ok _ => .moved s
where
  /-- Both halves of a scalar result. -/
  spread' (b : Bool) : BitVec 2 := if b then 3 else 0

/-- VFIRST: s[MODE 4:0] ← the lowest i with A[i] ≥ B[0], or the row length. -/
def execVfirst (h : PlayHdr) (f : FmtT) (s : State) : Out :=
  issue s h fun s n =>
    match takeOperands (getCore s n) [(f.da.val, f.sa.val), (f.db.val, f.sb.val)] with
    | .error e => bad s e
    | .ok [a, b] =>
      if !(plainFloat a && plainFloat b && descLocal a && descLocal b) then bad s evTnsOperand
      else
        rangeEnd s n [a, b] fun s =>
          let row := (readLocal s n a).take (dimN a.size 0)
          let y := elemAt (readLocal s n b) 0
          let i := row.findIdx fun x => y.val.leNum x.val
          .done (setSreg s n (fieldOf f.mode.toNat 0 5) (BitVec.ofNat 64 i) (if rowBad row || y.poison then 3 else 0))
    | .ok _ => .moved s

/-! ### Random values (R129) -/

/-- Element `i` of VRAND before its conversion. -/
def randWord (key base : W64) (i : Nat) : W64 :=
  let z := key + (base + BitVec.ofNat 64 i) * 0x9E3779B97F4A7C15
  let z := (z ^^^ (z >>> 30)) * 0xBF58476D1CE4E5B9
  let z := (z ^^^ (z >>> 27)) * 0x94D049BB133111EB
  z ^^^ (z >>> 31)

/-- VRAND: keyed random values from s[SA] and s[SB]. -/
def execVrand (h : PlayHdr) (f : FmtT) (s : State) : Out :=
  issue s h fun s n =>
    let core := getCore s n
    match takeOperands core [(f.dc.val, f.sc.val)] with
    | .error e => bad s e
    | .ok [c] =>
      if !(destOk c && c.block = 0 && (descElem c = .int32 || descElem c = .fp32)) then bad s evTnsOperand
      else
        rangeEnd s n [c] fun s =>
          let p := sregBad core f.sa.val || sregBad core f.sb.val
          let vals := (List.range (elemCount c)).map fun i =>
            let z := randWord (sreg core f.sa.val) (sreg core f.sb.val) i
            (if descElem c = .int32 then (z >>> 32).toNat else (toF32 (.num false (z >>> 40).toNat (-24))).toNat, p)
          .done (commitWords s n (scatter c vals))
    | .ok _ => .moved s

end Sys2Proof.Machine
end

