-- ==== Sys2Proof/Machine/Dispatch.lean ====
section
/-! DEFINITION. The meaning of every command: one arm per constructor, each one direct call. -/

namespace Sys2Proof.Machine

def exec (i : Instr) (s : State) : Host.Outcome State Fault Refusal :=
  match i with
  | .nop h => Sys2Proof.Machine.execNop h s
  | .halt h => Sys2Proof.Machine.execHalt h s
  | .fault h number => Sys2Proof.Machine.execFault h number s
  | .loop h count body => Sys2Proof.Machine.execLoop h count body s
  | .skip h n => Sys2Proof.Machine.execSkip h n s
  | .seti h f => Sys2Proof.Machine.execSeti h f s
  | .saddi h f => Sys2Proof.Machine.execSaddi h f s
  | .salu h f => Sys2Proof.Machine.execSalu h f s
  | .scmp h f => Sys2Proof.Machine.execScmp h f s
  | .plog h f => Sys2Proof.Machine.execPlog h f s
  | .pbit h f => Sys2Proof.Machine.execPbit h f s
  | .lidx h f => Sys2Proof.Machine.execLidx h f s
  | .playIllegal core => Sys2Proof.Machine.execPlayIllegal core s
  | .tmma h f => Sys2Proof.Machine.execTmma h f s
  | .tzero h f => Sys2Proof.Machine.execTzero h f s
  | .tout h f => Sys2Proof.Machine.execTout h f s
  | .tload h f => Sys2Proof.Machine.execTload h f s
  | .vadd h f => Sys2Proof.Machine.execVadd h f s
  | .vsub h f => Sys2Proof.Machine.execVsub h f s
  | .vmul h f => Sys2Proof.Machine.execVmul h f s
  | .vfma h f => Sys2Proof.Machine.execVfma h f s
  | .vmax h f => Sys2Proof.Machine.execVmax h f s
  | .vmin h f => Sys2Proof.Machine.execVmin h f s
  | .vaddi h f => Sys2Proof.Machine.execVaddi h f s
  | .vmuli h f => Sys2Proof.Machine.execVmuli h f s
  | .vcvt h f => Sys2Proof.Machine.execVcvt h f s
  | .vquant h f => Sys2Proof.Machine.execVquant h f s
  | .vdeq h f => Sys2Proof.Machine.execVdeq h f s
  | .vexp2 h f => Sys2Proof.Machine.execVexp2 h f s
  | .vlog2 h f => Sys2Proof.Machine.execVlog2 h f s
  | .vrcp h f => Sys2Proof.Machine.execVrcp h f s
  | .vrsqrt h f => Sys2Proof.Machine.execVrsqrt h f s
  | .vtanh h f => Sys2Proof.Machine.execVtanh h f s
  | .vsigm h f => Sys2Proof.Machine.execVsigm h f s
  | .vsilu h f => Sys2Proof.Machine.execVsilu h f s
  | .vrsum h f => Sys2Proof.Machine.execVrsum h f s
  | .vrssq h f => Sys2Proof.Machine.execVrssq h f s
  | .vrmax h f => Sys2Proof.Machine.execVrmax h f s
  | .vtopk h f => Sys2Proof.Machine.execVtopk h f s
  | .vscan h f => Sys2Proof.Machine.execVscan h f s
  | .vfirst h f => Sys2Proof.Machine.execVfirst h f s
  | .vrand h f => Sys2Proof.Machine.execVrand h f s
  | .mcopy h f => Sys2Proof.Machine.execMcopy h f s
  | .mfill h f => Sys2Proof.Machine.execMfill h f s
  | .mlds h f => Sys2Proof.Machine.execMlds h f s
  | .msts h f => Sys2Proof.Machine.execMsts h f s
  | .matom h f => Sys2Proof.Machine.execMatom h f s
  | .mred h f => Sys2Proof.Machine.execMred h f s
  | .mpush h f => Sys2Proof.Machine.execMpush h f s
  | .dload h f => Sys2Proof.Machine.execDload h f s
  | .dbase h f => Sys2Proof.Machine.execDbase h f s
  | .tplay h f => Sys2Proof.Machine.execTplay h f s
  | .twait h f => Sys2Proof.Machine.execTwait h f s
  | .tpw h f => Sys2Proof.Machine.execTpw h f s
  | .ctake h f => Sys2Proof.Machine.execCtake h f s
  | .csend h f => Sys2Proof.Machine.execCsend h f s
  | .acq h f => Sys2Proof.Machine.execAcq h f s
  | .rel h f => Sys2Proof.Machine.execRel h f s
  | .poll h f => Sys2Proof.Machine.execPoll h f s
  | .fence h f => Sys2Proof.Machine.execFence h f s
  | .invr h f => Sys2Proof.Machine.execInvr h f s
  | .blatch h f => Sys2Proof.Machine.execBlatch h f s
  | .bissue h f => Sys2Proof.Machine.execBissue h f s
  | .bawait h f => Sys2Proof.Machine.execBawait h f s
  | .babort h f => Sys2Proof.Machine.execBabort h f s
  | .kittyAccess who addr write poison parity => Sys2Proof.Machine.execKittyAccess who addr write poison parity s
  | .kittyAtomic addr op operand compare poison => Sys2Proof.Machine.execKittyAtomic addr op operand compare poison s
  | .localTrickArrive cluster trick => Sys2Proof.Machine.execLocalTrickArrive cluster trick s
  | .localTrickRelease cluster trick => Sys2Proof.Machine.execLocalTrickRelease cluster trick s
  | .onDiePushLanding stream => Sys2Proof.Machine.execOnDiePushLanding stream s
  | .onDieCreditReturn stream => Sys2Proof.Machine.execOnDieCreditReturn stream s
  | .pathTransferReceive path replay sent received lane => Sys2Proof.Machine.execPathTransferReceive path replay sent received lane s
  | .lineRead who addr disturbed => Sys2Proof.Machine.execLineRead who addr disturbed s
  | .lineWrite addr data mask poison => Sys2Proof.Machine.execLineWrite addr data mask poison s
  | .wcbDrainDone stack line disturbed => Sys2Proof.Machine.execWcbDrainDone stack line disturbed s
  | .wcbDrainTimeout stack => Sys2Proof.Machine.execWcbDrainTimeout stack s
  | .refreshDue stack slot => Sys2Proof.Machine.execRefreshDue stack slot s
  | .refreshDone stack bank => Sys2Proof.Machine.execRefreshDone stack bank s
  | .writeHoldExpiry stack line => Sys2Proof.Machine.execWriteHoldExpiry stack line s
  | .latchWrite stack bank => Sys2Proof.Machine.execLatchWrite stack bank s
  | .scriptOperationStart stack core ticket => Sys2Proof.Machine.execScriptOperationStart stack core ticket s
  | .streamingPermitTaken stack => Sys2Proof.Machine.execStreamingPermitTaken stack s
  | .rowOperationDone stack core ticket bank disturbed => Sys2Proof.Machine.execRowOperationDone stack core ticket bank disturbed s
  | .exchangeBusTransferDone stack => Sys2Proof.Machine.execExchangeBusTransferDone stack s
  | .bankResultDelivery stack core ticket => Sys2Proof.Machine.execBankResultDelivery stack core ticket s
  | .scrubRowStart stack bank => Sys2Proof.Machine.execScrubRowStart stack bank s
  | .trumpScrubDue stack => Sys2Proof.Machine.execTrumpScrubDue stack s
  | .scrubRowDone stack bank disturbed => Sys2Proof.Machine.execScrubRowDone stack bank disturbed s
  | .scrubLapTrumpCheck stack => Sys2Proof.Machine.execScrubLapTrumpCheck stack s
  | .scrubLapDeadline stack => Sys2Proof.Machine.execScrubLapDeadline stack s
  | .sourceRepairReport stack line => Sys2Proof.Machine.execSourceRepairReport stack line s
  | .sourceFetchTimeout stack line => Sys2Proof.Machine.execSourceFetchTimeout stack line s
  | .unrepairedRefetchTick => Sys2Proof.Machine.execUnrepairedRefetchTick s
  | .sourceDirectoryReply region answer => Sys2Proof.Machine.execSourceDirectoryReply region answer s
  | .sourceDirectoryRetry => Sys2Proof.Machine.execSourceDirectoryRetry s
  | .flitReceive port flit => Sys2Proof.Machine.execFlitReceive port flit s
  | .laneSignalLoss port => Sys2Proof.Machine.execLaneSignalLoss port s
  | .flitTimeout port => Sys2Proof.Machine.execFlitTimeout port s
  | .cablePresent port => Sys2Proof.Machine.execCablePresent port s
  | .trainPatternDetected port => Sys2Proof.Machine.execTrainPatternDetected port s
  | .trainStepDone port => Sys2Proof.Machine.execTrainStepDone port s
  | .trainStepTimeout port => Sys2Proof.Machine.execTrainStepTimeout port s
  | .train port body => Sys2Proof.Machine.execTrain port body s
  | .push hdr stream offset data units mask => Sys2Proof.Machine.execPush hdr stream offset data units mask s
  | .pushAck hdr stream units => Sys2Proof.Machine.execPushAck hdr stream units s
  | .credit hdr stream count => Sys2Proof.Machine.execCredit hdr stream count s
  | .streamStop hdr stream code => Sys2Proof.Machine.execStreamStop hdr stream code s
  | .tallyMark hdr stream count epoch => Sys2Proof.Machine.execTallyMark hdr stream count epoch s
  | .memRead port hdr tag address length => Sys2Proof.Machine.execMemRead port hdr tag address length s
  | .memData hdr tag status data mask disturbed => Sys2Proof.Machine.execMemData hdr tag status data mask disturbed s
  | .memWrite port hdr tag address data mask => Sys2Proof.Machine.execMemWrite port hdr tag address data mask s
  | .memAck hdr tag status => Sys2Proof.Machine.execMemAck hdr tag status s
  | .trickArrive hdr slot group epoch => Sys2Proof.Machine.execTrickArrive hdr slot group epoch s
  | .trickRelease hdr slot group epoch => Sys2Proof.Machine.execTrickRelease hdr slot group epoch s
  | .switchLoadDone failed => Sys2Proof.Machine.execSwitchLoadDone failed s
  | .roundMark hdr group round => Sys2Proof.Machine.execRoundMark hdr group round s
  | .abortReq hdr group code => Sys2Proof.Machine.execAbortReq hdr group code s
  | .abort hdr origin group code => Sys2Proof.Machine.execAbort hdr origin group code s
  | .switchAnnounce hdr group serial => Sys2Proof.Machine.execSwitchAnnounce hdr group serial s
  | .switchCancel hdr group code => Sys2Proof.Machine.execSwitchCancel hdr group code s
  | .switchGatherReply member st => Sys2Proof.Machine.execSwitchGatherReply member st s
  | .switchGatherTimeout => Sys2Proof.Machine.execSwitchGatherTimeout s
  | .mgmt hdr packet => Sys2Proof.Machine.execMgmt hdr packet s
  | .quarClear hdr port target => Sys2Proof.Machine.execQuarClear hdr port target s
  | .nack hdr reason header => Sys2Proof.Machine.execNack hdr reason header s
  | .fabViolationSecondTick => Sys2Proof.Machine.execFabViolationSecondTick s
  | .roundList m => Sys2Proof.Machine.execRoundList m s
  | .roundReport src m => Sys2Proof.Machine.execRoundReport src m s
  | .prefillJob src m => Sys2Proof.Machine.execPrefillJob src m s
  | .prefillDone src m => Sys2Proof.Machine.execPrefillDone src m s
  | .spill m => Sys2Proof.Machine.execSpill m s
  | .spillDone src m => Sys2Proof.Machine.execSpillDone src m s
  | .pageFault src m => Sys2Proof.Machine.execPageFault src m s
  | .join src m => Sys2Proof.Machine.execJoin src m s
  | .align src m => Sys2Proof.Machine.execAlign src m s
  | .ready src m => Sys2Proof.Machine.execReady src m s
  | .windowOpen m => Sys2Proof.Machine.execWindowOpen m s
  | .windowDone src m => Sys2Proof.Machine.execWindowDone src m s
  | .probe src m => Sys2Proof.Machine.execProbe src m s
  | .probeAck m => Sys2Proof.Machine.execProbeAck m s
  | .probeTimer => Sys2Proof.Machine.execProbeTimer s
  | .abortReqTimeout => Sys2Proof.Machine.execAbortReqTimeout s
  | .memberReadyTimeout member => Sys2Proof.Machine.execMemberReadyTimeout member s
  | .roundBudgetExpiry table => Sys2Proof.Machine.execRoundBudgetExpiry table s
  | .roundStall table => Sys2Proof.Machine.execRoundStall table s
  | .repairWindowPeriod => Sys2Proof.Machine.execRepairWindowPeriod s
  | .windowBudgetExpiry => Sys2Proof.Machine.execWindowBudgetExpiry s
  | .watchWake chan => Sys2Proof.Machine.execWatchWake chan s
  | .watchWakeService chan sqHead cqRead => Sys2Proof.Machine.execWatchWakeService chan sqHead cqRead s
  | .d2hCompletion chan write goErr => Sys2Proof.Machine.execD2hCompletion chan write goErr s
  | .openSession chan e => Sys2Proof.Machine.execOpenSession chan e s
  | .generate chan e => Sys2Proof.Machine.execGenerate chan e s
  | .append chan e => Sys2Proof.Machine.execAppend chan e s
  | .abortRequest chan e => Sys2Proof.Machine.execAbortRequest chan e s
  | .pause chan e => Sys2Proof.Machine.execPause chan e s
  | .resume chan e => Sys2Proof.Machine.execResume chan e s
  | .close chan e => Sys2Proof.Machine.execClose chan e s
  | .attach chan e => Sys2Proof.Machine.execAttach chan e s
  | .requestTokensFetched slot tokens => Sys2Proof.Machine.execRequestTokensFetched slot tokens s
  | .pauseTtlExpiry slot => Sys2Proof.Machine.execPauseTtlExpiry slot s
  | .treeRebuildStep => Sys2Proof.Machine.execTreeRebuildStep s
  | .uioCompletion tag ok data disturbed => Sys2Proof.Machine.execUioCompletion tag ok data disturbed s
  | .uioTimeout tag => Sys2Proof.Machine.execUioTimeout tag s
  | .memRd hpa exclusive => Sys2Proof.Machine.execMemRd hpa exclusive s
  | .memWr hpa data mask poison => Sys2Proof.Machine.execMemWr hpa data mask poison s
  | .birspi dpa => Sys2Proof.Machine.execBirspi dpa s
  | .bisnpinvTimeout dpa => Sys2Proof.Machine.execBisnpinvTimeout dpa s
  | .snpinv addr => Sys2Proof.Machine.execSnpinv addr s
  | .snpdata addr => Sys2Proof.Machine.execSnpdata addr s
  | .bar0AccessInvalid offset size => Sys2Proof.Machine.execBar0AccessInvalid offset size s
  | .partnerViolation kind header => Sys2Proof.Machine.execPartnerViolation kind header s
  | .hdmDecoderCommit decoder hpaBase size dpaBase ways granularity => Sys2Proof.Machine.execHdmDecoderCommit decoder hpaBase size dpaBase ways granularity s
  | .busMasterClear => Sys2Proof.Machine.execBusMasterClear s
  | .functionLevelReset => Sys2Proof.Machine.execFunctionLevelReset s
  | .cxlReset => Sys2Proof.Machine.execCxlReset s
  | .hotReset => Sys2Proof.Machine.execHotReset s
  | .cxlLinkUp width rate => Sys2Proof.Machine.execCxlLinkUp width rate s
  | .ideKeyProg stream dir set key => Sys2Proof.Machine.execIdeKeyProg stream dir set key s
  | .keySetGo stream dir set => Sys2Proof.Machine.execKeySetGo stream dir set s
  | .keySetStop stream dir set => Sys2Proof.Machine.execKeySetStop stream dir set s
  | .spdmGetCertificate slot => Sys2Proof.Machine.execSpdmGetCertificate slot s
  | .spdmChallenge slot nonce => Sys2Proof.Machine.execSpdmChallenge slot nonce s
  | .spdmGetMeasurements index signed nonce => Sys2Proof.Machine.execSpdmGetMeasurements index signed nonce s
  | .spdmKeyExchange slot exchange => Sys2Proof.Machine.execSpdmKeyExchange slot exchange s
  | .spdmSessionLoss => Sys2Proof.Machine.execSpdmSessionLoss s
  | .identify cci => Sys2Proof.Machine.execIdentify cci s
  | .backgroundOperationStatus cci => Sys2Proof.Machine.execBackgroundOperationStatus cci s
  | .requestAbortBackgroundOperation cci => Sys2Proof.Machine.execRequestAbortBackgroundOperation cci s
  | .getEventRecords cci log => Sys2Proof.Machine.execGetEventRecords cci log s
  | .clearEventRecords cci log all handles => Sys2Proof.Machine.execClearEventRecords cci log all handles s
  | .getEventInterruptPolicy cci => Sys2Proof.Machine.execGetEventInterruptPolicy cci s
  | .setEventInterruptPolicy cci settings => Sys2Proof.Machine.execSetEventInterruptPolicy cci settings s
  | .getFwInfo cci => Sys2Proof.Machine.execGetFwInfo cci s
  | .transferFw cci slot image => Sys2Proof.Machine.execTransferFw cci slot image s
  | .activateFw cci online slot => Sys2Proof.Machine.execActivateFw cci online slot s
  | .getSupportedLogs cci => Sys2Proof.Machine.execGetSupportedLogs cci s
  | .getLog cci vendorLog => Sys2Proof.Machine.execGetLog cci vendorLog s
  | .performMaintenance cci soft dpa disturbed => Sys2Proof.Machine.execPerformMaintenance cci soft dpa disturbed s
  | .identifyMemoryDevice cci => Sys2Proof.Machine.execIdentifyMemoryDevice cci s
  | .getHealthInfo cci => Sys2Proof.Machine.execGetHealthInfo cci s
  | .getPoisonList cci => Sys2Proof.Machine.execGetPoisonList cci s
  | .injectPoison cci dpa => Sys2Proof.Machine.execInjectPoison cci dpa s
  | .clearPoison cci dpa data => Sys2Proof.Machine.execClearPoison cci dpa data s
  | .mailboxUnsupported cci opcode => Sys2Proof.Machine.execMailboxUnsupported cci opcode s
  | .vndIdentify cci input => Sys2Proof.Machine.execVndIdentify cci input s
  | .partnerLogRead cci input => Sys2Proof.Machine.execPartnerLogRead cci input s
  | .deckQuery cci input => Sys2Proof.Machine.execDeckQuery cci input s
  | .deckSetIndex cci input => Sys2Proof.Machine.execDeckSetIndex cci input s
  | .deckStage cci input => Sys2Proof.Machine.execDeckStage cci input s
  | .deckStageReadCompletion data error => Sys2Proof.Machine.execDeckStageReadCompletion data error s
  | .deckVerifyDone => Sys2Proof.Machine.execDeckVerifyDone s
  | .deckArm cci input => Sys2Proof.Machine.execDeckArm cci input s
  | .deckArmBuildDone => Sys2Proof.Machine.execDeckArmBuildDone s
  | .deckSwitch cci input => Sys2Proof.Machine.execDeckSwitch cci input s
  | .deckDiscard cci input => Sys2Proof.Machine.execDeckDiscard cci input s
  | .poolFillDone => Sys2Proof.Machine.execPoolFillDone s
  | .fabRouteLoad cci input entries => Sys2Proof.Machine.execFabRouteLoad cci input entries s
  | .fabPortClear cci input => Sys2Proof.Machine.execFabPortClear cci input s
  | .fabPortRetrain cci input => Sys2Proof.Machine.execFabPortRetrain cci input s
  | .chanCreate cci input => Sys2Proof.Machine.execChanCreate cci input s
  | .chanDestroy cci input => Sys2Proof.Machine.execChanDestroy cci input s
  | .chanResume cci input => Sys2Proof.Machine.execChanResume cci input s
  | .chanQuery cci input => Sys2Proof.Machine.execChanQuery cci input s
  | .tableDisable cci input => Sys2Proof.Machine.execTableDisable cci input s
  | .tableEnable cci input => Sys2Proof.Machine.execTableEnable cci input s
  | .prefixPin cci input tokens => Sys2Proof.Machine.execPrefixPin cci input tokens s
  | .prefixUnpin cci input => Sys2Proof.Machine.execPrefixUnpin cci input s
  | .prefixFlush cci input => Sys2Proof.Machine.execPrefixFlush cci input s
  | .kvSpillSet cci input => Sys2Proof.Machine.execKvSpillSet cci input s
  | .slowWindowSet cci input => Sys2Proof.Machine.execSlowWindowSet cci input s
  | .slowWindowQuery cci input => Sys2Proof.Machine.execSlowWindowQuery cci input s
  | .selftestResult cci input => Sys2Proof.Machine.execSelftestResult cci input s
  | .retest cci input => Sys2Proof.Machine.execRetest cci input s
  | .repairWindowOpen cci input => Sys2Proof.Machine.execRepairWindowOpen cci input s
  | .repairApply cci input => Sys2Proof.Machine.execRepairApply cci input s
  | .recover cci input => Sys2Proof.Machine.execRecover cci input s
  | .secNonceGet cci input => Sys2Proof.Machine.execSecNonceGet cci input s
  | .secKeyState cci input => Sys2Proof.Machine.execSecKeyState cci input s
  | .secOwnerEnroll cci input => Sys2Proof.Machine.execSecOwnerEnroll cci input s
  | .secOwnerRevoke cci input => Sys2Proof.Machine.execSecOwnerRevoke cci input s
  | .secSvnAdvance cci input => Sys2Proof.Machine.execSecSvnAdvance cci input s
  | .secDebugUnlock cci input => Sys2Proof.Machine.execSecDebugUnlock cci input s
  | .fuseWrite => Sys2Proof.Machine.execFuseWrite s
  | .nonceExpiry cci => Sys2Proof.Machine.execNonceExpiry cci s
  | .telMeterLoRead offset => Sys2Proof.Machine.execTelMeterLoRead offset s
  | .rglWrite offset value => Sys2Proof.Machine.execRglWrite offset value s
  | .thermLimitCtlWrite value => Sys2Proof.Machine.execThermLimitCtlWrite value s
  | .pwrDomainSetpointWrite domain value => Sys2Proof.Machine.execPwrDomainSetpointWrite domain value s
  | .registerWrite offset value => Sys2Proof.Machine.execRegisterWrite offset value s
  | .regulatorRefillTick => Sys2Proof.Machine.execRegulatorRefillTick s
  | .paceUpdate counts => Sys2Proof.Machine.execPaceUpdate counts s
  | .controlBeat => Sys2Proof.Machine.execControlBeat s
  | .heartbeatCheck => Sys2Proof.Machine.execHeartbeatCheck s
  | .mgmtBeat => Sys2Proof.Machine.execMgmtBeat s
  | .mgmtWatchdogExpiry => Sys2Proof.Machine.execMgmtWatchdogExpiry s
  | .diodeSample die reading => Sys2Proof.Machine.execDiodeSample die reading s
  | .thermalTrip => Sys2Proof.Machine.execThermalTrip s
  | .inputPowerApplied voltage mgmtAddr => Sys2Proof.Machine.execInputPowerApplied voltage mgmtAddr s
  | .inputLow voltage => Sys2Proof.Machine.execInputLow voltage s
  | .inputPowerLoss => Sys2Proof.Machine.execInputPowerLoss s
  | .vinEnableOpen => Sys2Proof.Machine.execVinEnableOpen s
  | .perstNDeassert => Sys2Proof.Machine.execPerstNDeassert s
  | .refclkLost die => Sys2Proof.Machine.execRefclkLost die s
  | .refclkRestored die => Sys2Proof.Machine.execRefclkRestored die s
  | .domainInRegulation domain => Sys2Proof.Machine.execDomainInRegulation domain s
  | .domainRegulationTimeout domain => Sys2Proof.Machine.execDomainRegulationTimeout domain s
  | .bootFwVerified => Sys2Proof.Machine.execBootFwVerified s
  | .selftestComplete t => Sys2Proof.Machine.execSelftestComplete t s
  | .recoveryDone d passed => Sys2Proof.Machine.execRecoveryDone d passed s
  | .standbyImageReady => Sys2Proof.Machine.execStandbyImageReady s
  | .standbyLoadTimeout => Sys2Proof.Machine.execStandbyLoadTimeout s
  | .fwProbationExpiry => Sys2Proof.Machine.execFwProbationExpiry s
  | .oldActiveReloaded => Sys2Proof.Machine.execOldActiveReloaded s
  | .testAccessPortInstruction ir => Sys2Proof.Machine.execTestAccessPortInstruction ir s
  | .globalPersistentFlush phase => Sys2Proof.Machine.execGlobalPersistentFlush phase s
  | .partnerViolationSecondTick => Sys2Proof.Machine.execPartnerViolationSecondTick s
  | .inputExcursionEnd voltage => Sys2Proof.Machine.execInputExcursionEnd voltage s
  | .domainFailureDetected d => Sys2Proof.Machine.execDomainFailureDetected d s
  | .spdmGetVersion => Sys2Proof.Machine.execSpdmGetVersion s
  | .spdmGetCapabilities => Sys2Proof.Machine.execSpdmGetCapabilities s
  | .spdmNegotiateAlgorithms => Sys2Proof.Machine.execSpdmNegotiateAlgorithms s
  | .spdmGetDigests => Sys2Proof.Machine.execSpdmGetDigests s
  | .spdmFinish verify => Sys2Proof.Machine.execSpdmFinish verify s
  | .spdmHeartbeat => Sys2Proof.Machine.execSpdmHeartbeat s
  | .spdmEndSession => Sys2Proof.Machine.execSpdmEndSession s

end Sys2Proof.Machine
end

