-- ==== Sys2Proof/Machine/Step.lean ====
section
/-! DEFINITION. One step of the block. -/

namespace Sys2Proof.Machine

/-- What an empty queue does: one edge of the reference passes. Every meter of a module that has power advances by one (R46, R49); a die
whose reference is lost counts on its ring oscillator, so its meter drifts against the others (R53). All nine dies are powered together, so
while none has lost its reference their offsets are zero (DESIGN CHOICE: R49 leaves them to the order in which the dies are powered). A
deck that has been staged begins to be checked (Table 3.17, step 3). -/
def idle (s : State) : State :=
  if s.power.inputOn then passEdges (beginVerify s) 1 (List.range 9) else s

/-- One step: the command in front of the queue is carried out on the machine with the rest of the queue; an empty queue
lets one reference edge pass. -/
def step (s : State) : Host.Outcome State Fault Refusal :=
  match s.pending with
  | [] => .next (idle s)
  | c :: rest => exec c { s with pending := rest }

/-- The state with the command that a word spells in front of its queue; unchanged where the word spells none. -/
def State.withFetchWord (s : State) (nbits w : Nat) : State :=
  match decodeTableWord nbits w with
  | none => s
  | some c => { s with pending := c :: s.pending }

end Sys2Proof.Machine
end

