-- ==== Sys2Proof/Machine/Pins.lean ====
section
/-! DEFINITION. What the module drives on the sideband and test contacts of its connectors (R624, R627, R629, R631; Tables 19.5 to 19.7). -/

namespace Sys2Proof.Machine

/-- What the module does with a contact. An open-drain output is pulled low or released, and a released contact is high impedance. The
signals of SMBus, of the cable identity memory and of IEEE 1149.1 follow those standards while the module is powered. -/
inductive PinDrive where
  | low
  | released
  | standard
  deriving DecidableEq, Repr

/-- The outputs of Tables 19.5 to 19.7 that the module drives at signal level. -/
inductive OutPin where
  | wakeN
  | prsntN
  | hostSmb
  | cableIdentity
  | mgmtSmb
  | tdo
  | faultN
  deriving DecidableEq, Repr

/-- FAULT_N is pulled low while ID_STATE reads misdeal or THERM_STATUS.SHUTDOWN is 1 (Table 19.7). -/
def faultDrive (s : State) : PinDrive := if s.ctl.idState = .misdeal || s.power.shutdown then .low else .released

/-- What the module drives on an output. PRSNT_N is tied to ground. Without module power every other output is high impedance (R631).
WAKE_N is never asserted (R624). -/
def drive (s : State) (p : OutPin) : PinDrive :=
  match p with
  | .prsntN => .low
  | .wakeN => .released
  | .faultN => if s.power.inputOn then faultDrive s else .released
  | .hostSmb => if s.power.inputOn then .standard else .released
  | .cableIdentity => if s.power.inputOn then .standard else .released
  | .mgmtSmb => if s.power.inputOn then .standard else .released
  | .tdo => if s.power.inputOn then .standard else .released

/-! ### Addresses and lanes (R624, R627, R629, R630) -/

/-- The SMBus addresses of the MCTP endpoints: on the host connector, and on the management connector by its straps, which are read at
power-up. -/
def hostSmbAddress : Nat := 0x64
@[inherit_doc hostSmbAddress] def mgmtSmbAddress (s : State) : Nat := 0x60 + s.power.mgmtAddr % 4

/-- The fabric connector and the pair that carry a lane of a port, and the presence contact of the port's cable end (R627). -/
def fabricPair (port lane : Nat) : Nat × Nat := (port / 4, 4 * (port % 4) + lane)
@[inherit_doc fabricPair] def presenceContact (port : Nat) : Nat × Nat := (port / 4, port % 4)

end Sys2Proof.Machine
end

