-- ==== Sys2Proof/Safety.lean ====
section
/-! DEFINITION. What counts as a sound state and as a sound step, in the terms that the statements use. -/

namespace Sys2Proof.Machine

/-- The array memory is in canonical form: addresses rise and no byte listed is the one that an unlisted address reads as. -/
def State.arrayOk (s : State) : Prop := memWf s.array = true

/-- Fuses are only ever set (Table 18.1, R598): the two hashes fused at manufacture stand, SVN_MIN does not fall, a permanent unlock
stays, an enrolled or revoked owner slot does not become empty, a revoked one stays revoked, no set bit of an owner hash is
cleared. -/
def FuseLe (a b : Security) : Prop :=
  b.vendorHash = a.vendorHash ∧ b.uds = a.uds ∧ a.svnMin ≤ b.svnMin ∧ (a.debugFuse = 3 → b.debugFuse = 3) ∧
    (∀ k, sget 0 a.ownerState k = 3 → sget 0 b.ownerState k = 3) ∧ (∀ k, sget 0 a.ownerState k ≠ 0 → sget 0 b.ownerState k ≠ 0) ∧
    (∀ k, sget 0 a.ownerHash k &&& sget 0 b.ownerHash k = sget 0 a.ownerHash k)

/-- What every command keeps between the state it starts from and the one it answers: the queue, the canonical form of the array, the
fuses that are set. -/
def Kept (s t : State) : Prop := t.pending = s.pending ∧ (s.arrayOk → t.arrayOk) ∧ FuseLe s.sec t.sec

/-- The header of a play that issues by its predicate; PLAY_ILLEGAL is no play of a program. -/
def playHdr : Instr → Option PlayHdr
  | .nop h | .halt h | .fault h _ | .loop h _ _ | .skip h _ | .seti h _ | .saddi h _ | .salu h _ | .scmp h _ | .plog h _
  | .pbit h _ | .lidx h _ | .tmma h _ | .tzero h _ | .tout h _ | .tload h _ | .vadd h _ | .vsub h _ | .vmul h _ | .vfma h _
  | .vmax h _ | .vmin h _ | .vaddi h _ | .vmuli h _ | .vcvt h _ | .vquant h _ | .vdeq h _ | .vexp2 h _ | .vlog2 h _
  | .vrcp h _ | .vrsqrt h _ | .vtanh h _ | .vsigm h _ | .vsilu h _ | .vrsum h _ | .vrssq h _ | .vrmax h _ | .vtopk h _
  | .vscan h _ | .vfirst h _ | .vrand h _ | .mcopy h _ | .mfill h _ | .mlds h _ | .msts h _ | .matom h _ | .mred h _
  | .mpush h _ | .dload h _ | .dbase h _ | .tplay h _ | .twait h _ | .tpw h _ | .ctake h _ | .csend h _ | .acq h _
  | .rel h _ | .poll h _ | .fence h _ | .invr h _ | .blatch h _ | .bissue h _ | .bawait h _ | .babort h _ => some h
  | _ => none

/-- The core of a header issues plays, no stored word that the play reads fails its parity (R386), and the header's predicate is no
poisoned flag and lets the play run (R146, R150). -/
def Runs (s : State) (h : PlayHdr) : Prop :=
  coreIssues s h.core.idx = true ∧ h.parity = none ∧
    (h.pen = true → predBad (getCore s h.core.idx) h.pred.val = false ∧ predOf (getCore s h.core.idx) h.pred.val ≠ h.pneg)

/-- The operands of a play at core `n` break none of R108 and R109, and none of their words lies where an outstanding script still has to
deliver results, so that the play need not wait (R141, R143, R144). -/
def Reaches (s : State) (n : Nat) (ds : List Desc) : Prop :=
  rangeFault s (coreTable s n) ds = none ∧ doutMeets s n (ds.flatMap extents) = none

/-- The same for a play that reads or writes `len` bytes at a byte address, aligned to `align`; `dev` says that only a device address
will do. -/
def ReachesAddr (s : State) (n a len align : Nat) (dev : Bool) : Prop :=
  addressFault s n a len align dev = none ∧ doutMeets s n [(0, a, a + len - 1)] = none

/-- Core `n` becomes `c` and goes on at play index `pc`; nothing else changes. -/
def coreAt (s : State) (n : Nat) (c : Core) (pc : Nat) : State := setCore s n (goTo c pc)

end Sys2Proof.Machine
end

