-- ==== Sys2Proof/Certificates/Slice0/Obligations.lean ====
section
/-! DEFINITION. The statements for the provers. -/

open Sys2Proof Sys2Proof.Machine

/-- A core with a scalar register written; register 0 discards what is written to it (Table 4.1). -/
def withReg (c : Core) (r : Nat) (v : W64) (p : BitVec 2) : Core :=
  if r = 0 then c else { c with sregs := sput 0 c.sregs r v, spoison := sput 0 c.spoison r p }

/-- A core with a predicate flag and its poison written. -/
def withPred (c : Core) (r : Nat) (b bad : Bool) : Core :=
  { c with preds := setBit8 c.preds r b, predPoison := setBit8 c.predPoison r bad }

/-- What a play on the elements of A and B leaves when its operands suit it: each element of C within BOUND becomes `val` of the
elements of A, B and the old C at its index, encoded in C's type, poisoned where an element that counts is; the core goes on. -/
def BinaryEffect (i : Instr) (s : State) (h : PlayHdr) (f : FmtT) (useC : Bool) (val : FV → FV → FV → FV) : Prop :=
  ∀ a b c : Desc,
    takeOperands (getCore s h.core.idx) [(f.da.val, f.sa.val), (f.db.val, f.sb.val), (f.dc.val, f.sc.val)] = .ok [a, b, c] →
    plainFloat a = true → plainFloat b = true → plainFloat c = true → descLocal a = true → descLocal b = true →
    descLocal c = true → fitsSpace c a = true → fitsSpace c b = true → writable c = true →
    Reaches s h.core.idx [a, b, c] →
    exec i s = .next (nextPlay (commitWords s h.core.idx (scatter c ((tuples c).map fun x =>
      let p := readElem (coreView (getCore s h.core.idx) []) a (operandTuple a x)
      let q := readElem (coreView (getCore s h.core.idx) []) b (operandTuple b x)
      let r := readElem (coreView (getCore s h.core.idx) []) c (operandTuple c x)
      ((descElem c).encode (val p.val q.val r.val), p.poison || q.poison || (useC && r.poison))))) h.core.idx)

/-- The same for a play on the elements of A alone; `types` says which A and C suit it. -/
def UnaryEffect (i : Instr) (s : State) (h : PlayHdr) (f : FmtT) (types : Desc → Desc → Prop) (val : FV → FV) : Prop :=
  ∀ a c : Desc,
    takeOperands (getCore s h.core.idx) [(f.da.val, f.sa.val), (f.dc.val, f.sc.val)] = .ok [a, c] →
    types a c → descLocal a = true → descLocal c = true → fitsSpace c a = true → writable c = true →
    Reaches s h.core.idx [a, c] →
    exec i s = .next (nextPlay (commitWords s h.core.idx (scatter c ((tuples c).map fun x =>
      let p := readElem (coreView (getCore s h.core.idx) []) a (operandTuple a x)
      ((descElem c).encode (val p.val), p.poison)))) h.core.idx)

/-- What a reduction leaves when its operands suit it: the rows of A along dimension 0, each reduced by `row`, fill C in order. -/
def RowEffect (i : Instr) (s : State) (h : PlayHdr) (f : FmtT) (dest : Elem → Prop) (width : Nat → Nat)
    (row : Elem → List RdElem → List (Nat × Bool)) : Prop :=
  ∀ a c : Desc,
    takeOperands (getCore s h.core.idx) [(f.da.val, f.sa.val), (f.dc.val, f.sc.val)] = .ok [a, c] →
    plainFloat a = true → descLocal a = true → descLocal c = true → writable c = true → c.block = 0 → dest (descElem c) →
    elemCount c = elemCount a / dimN a.size 0 * width (dimN a.size 0) → width (dimN a.size 0) ≠ 0 →
    Reaches s h.core.idx [a, c] →
    exec i s = .next (nextPlay (commitWords s h.core.idx (scatter c
      ((rowsOf a (gather (coreView (getCore s h.core.idx) []) a)).flatMap (row (descElem c))))) h.core.idx)

/-- The next entry of a channel's ring has been taken: the ring's read count grows, and its tag is no finished one. -/
def entryTaken (s : State) (n : Nat) (e : Submission) : State :=
  setChan s n { getChan s n with sqRead := (getChan s n).sqRead + 1, doneTags := (getChan s n).doneTags.filter (· ≠ e.tag) }

/-- An open channel has an entry to take, and the entry keeps the bounds of its opcode. -/
def takesEntry (s : State) (n : Nat) (e : Submission) (code : Nat) : Prop :=
  (getChan s n).state = .opened ∧ (getChan s n).sqRead ≠ (getChan s n).sqHead ∧ e.opcode = code ∧ e.reserved = true ∧
    e.tokenCount.toNat ≤ 1048576 ∧ e.tokensAddr.toNat % 4 = 0

/-- Session slot `i` is the session of an entry and belongs to the table of its channel; its table entry has been read, which gives
state `r`: a poisoned entry has ended the session's running request with POISONED. -/
def sessionRead (s r : State) (n : Nat) (e : Submission) (i : Nat) : Prop :=
  sessOf s e.session = some i ∧ (getSess s i).table = (getChan s n).table ∧
    ∃ q b, readSession s i = (q, b) ∧ r = if b && busySession (getSess q i) then endRequest q i 8 else q

/-- `sessionRead`, and the session runs nothing in state `r`. -/
def idleSession (s r : State) (n : Nat) (e : Submission) (i : Nat) : Prop :=
  sessionRead s r n e i ∧ busySession (getSess r i) = false

/-- An interface has its answer to a command: its opcode, return code, fault code and output. -/
def answered (s : State) (cci op : Nat) (st : Status) (code : W32) (out : List Byte) : State :=
  { s with replies := sput none s.replies cci (some { opcode := op, status := st, code := code, out := out }) }

/-- A vendor command without a signature is taken: its interface hears (input power, and a secure link for the primary mailbox), its
input has its length, misdeal accepts it or does not reign, and no background operation stands in its way. -/
def vendorTaken (s : State) (cci op len : Nat) (input : List Byte) (background : Bool) : Prop :=
  hears s cci = true ∧ input.length = len ∧ (s.ctl.idState ≠ .misdeal ∨ misdealVendor op = true) ∧
    (background = true → bgBusy s = false)

/-- A privileged command with an input of `len` bytes is taken: its trailer fails no condition of R611 under the interface's nonce,
which is used up. `s1` is the state without the nonce. -/
def signedTaken (s s1 : State) (cci op len : Nat) (input : List Byte) (who : Nat → Bool) (background : Bool) : Prop :=
  hears s cci = true ∧ input.length = len + 216 ∧
    s1 = { s with sec := { s.sec with nonces := sput none s.sec.nonces cci none } } ∧
    signFault s1 op (sget none s.sec.nonces cci) (input.take len) (input.drop len) who = 0 ∧
    (s.ctl.idState ≠ .misdeal ∨ misdealVendor op = true) ∧ (background = true → bgBusy s = false)

/-- The commands whose meaning can stop: the four accesses to an address that no stack holds, and the test access port. -/
def canStop : Instr → Bool
  | .lineRead .. | .lineWrite .. | .kittyAccess .. | .kittyAtomic .. | .testAccessPortInstruction .. => true
  | _ => false

/-- For every command and state: the step of the state with that command in front of its queue is the meaning of the command on the state with the rest of the queue. The queue is the model’s own arrangement of the spec’s whole and indivisible steps (log 1). -/
def Obligations.StepRunsFrontCommand : Prop :=
  ∀ (c : Instr) (rest : List Instr) (s : State),
    step { s with pending := c :: rest } = exec c { s with pending := rest }

/-- With an empty queue, a module that has input power and the reference at every die advances the meter of the compute die and the meters of the eight stacks by one, begins the check of a deck that is STAGED, and changes nothing else. A compute die that has lost its reference counts on its ring oscillator instead: none, one or two counts for one edge of the reference, as a free value has it, so its meter drifts against the stacks’. A module without input power stays as it is. That an idle step is one edge of the reference is the model’s choice (log 2). -/
def Obligations.IdleStepCountsMeters : Prop :=
  (∀ s : State, s.pending = [] → s.power.inputOn = false → step s = .next s) ∧
  (∀ s u : State, s.pending = [] → s.power.inputOn = true → (∀ n < 8, (getStack s n).ringOsc = false) →
    u = (if s.loader.stage = .staged then { s with loader := { s.loader with stage := .verifying } } else s) →
    ∀ m, m = (List.range 8).foldl (fun m n => smod Stack.empty m n fun k => { k with meter := k.meter + 1 }) s.stackMap →
    (s.ringOsc = false → step s = .next { u with meter := s.meter + 1, stackMap := m }) ∧
    (s.ringOsc = true → ∃ k ≤ 2, step s = .next { u with
      freeNext := s.freeNext + 1, meter := s.meter + BitVec.ofNat 56 k, stackMap := m }))

/-- At power-up the module is in BOOT, of no group, with no deck staged and its meters at zero; every trick slot has EPOCH 0 and is not valid; every channel index, session slot and pin slot is free with generation 1; every activation latch is not valid; every domain is off with setpoint 750 mV; every scrubber is stopped. The array lists nothing and is in canonical form, and no command waits: these two are the model’s (logs 1 and 8). -/
def Obligations.PowerUpState : Prop :=
  State.reset.pending = [] ∧ State.reset.array = [] ∧ State.reset.arrayOk ∧
  State.reset.ctl.idState = .boot ∧ State.reset.ctl.group = .none ∧ State.reset.loader.stage = .empty ∧
  State.reset.meter = 0 ∧
  (∀ n, (getStack State.reset n).meter = 0 ∧ (getStack State.reset n).scrub.running = false) ∧
  (∀ n, (getTrick State.reset n).epoch = 0 ∧ (getTrick State.reset n).valid = false) ∧
  (∀ n, (getChan State.reset n).state = .free ∧ (getChan State.reset n).gen = 1) ∧
  (∀ n, (getSess State.reset n).state = .free ∧ (getSess State.reset n).gen = 1) ∧
  (∀ n, (sget Pin.free State.reset.cache.pins n).used = false ∧ (sget Pin.free State.reset.cache.pins n).gen = 1) ∧
  (∀ n k, (sget Latch.empty (getStack State.reset n).latches k).valid = false) ∧
  (∀ n, (getDomain State.reset n).on = false ∧ (getDomain State.reset n).setpoint = 750)

/-- Whatever the state, if a step answers a next state then the queue of that state is the queue before without its first command. The queue is the model’s (log 1). -/
def Obligations.StepTakesOnlyTheFront : Prop :=
  ∀ s t : State, step s = .next t → t.pending = s.pending.tail

/-- Whatever the state, if its array memory is in canonical form (addresses rise, no listed byte reads as an unlisted one does) and a step answers a next state, the array memory of that state is in canonical form too: equal contents of the stacks are equal data after every command. -/
def Obligations.StepKeepsArrayForm : Prop :=
  ∀ s t : State, s.arrayOk → step s = .next t → t.arrayOk

/-- Whatever the state, if a step answers a next state then the vendor key hash and UDS stand, SVN_MIN has not fallen, a DEBUG fuse that read 3 reads 3, an owner slot that was enrolled or revoked is not empty, a revoked one is still revoked, and no set bit of an owner key hash is clear. That the clauses follow from Table 18.1’s fuses is read from it by inference. -/
def Obligations.StepOnlySetsFuses : Prop :=
  ∀ s t : State, step s = .next t →
    t.sec.vendorHash = s.sec.vendorHash ∧ t.sec.uds = s.sec.uds ∧ s.sec.svnMin ≤ t.sec.svnMin ∧
    (s.sec.debugFuse = 3 → t.sec.debugFuse = 3) ∧
    (∀ k, sget 0 s.sec.ownerState k ≠ 0 → sget 0 t.sec.ownerState k ≠ 0) ∧
    (∀ k, sget 0 s.sec.ownerState k = 3 → sget 0 t.sec.ownerState k = 3) ∧
    (∀ k, sget 0 s.sec.ownerHash k &&& sget 0 t.sec.ownerHash k = sget 0 s.sec.ownerHash k)

/-- For every play but LOOP (whose skip R147 gives) that carries PEN with a predicate that is not poisoned and does not let it run: the core goes on at its next play and nothing else changes. A play that reads a stored word which fails parity is left to the statement on stored words (R386). -/
def Obligations.PredicateFalseSkipsPlay : Prop :=
  ∀ (i : Instr) (h : PlayHdr) (s : State), playHdr i = some h → (∀ c b, i ≠ .loop h c b) →
    coreIssues s h.core.idx = true → h.parity = none → h.pen = true → predBad (getCore s h.core.idx) h.pred.val = false →
    predOf (getCore s h.core.idx) h.pred.val = h.pneg →
    exec i s = .next (coreAt s h.core.idx (getCore s h.core.idx) ((getCore s h.core.idx).pc + 1))

/-- For every play that carries PEN under a poisoned flag: the core takes the fault INT_POISON_PREDICATE and the play has no other effect. A play that reads a stored word which fails parity is left to the statement on stored words (R386). -/
def Obligations.PoisonedPredicateFaults : Prop :=
  ∀ (i : Instr) (h : PlayHdr) (s : State), playHdr i = some h →
    coreIssues s h.core.idx = true → h.parity = none → h.pen = true → predBad (getCore s h.core.idx) h.pred.val = true →
    exec i s = .next (coreFault s h.core.idx evIntPoisonPredicate 0 0)

/-- Whatever play is commanded at a core that does not issue (it is not running, its play at the head waits, or its quadrant is off), the state stays as it is. That a command for such a core changes nothing is the model’s reading (log 14). -/
def Obligations.StoppedCoreIssuesNothing : Prop :=
  ∀ (i : Instr) (n : CoreId) (s : State),
    ((playHdr i).map (·.core) = some n ∨ i = .playIllegal n) →
    ((getCore s n.idx).run ≠ .running ∨ (getCore s n.idx).wait ≠ .none ∨ clusterOn s (n.idx / 64) = false) →
    exec i s = .next s

/-- On a core that issues the play and whose predicate lets it run: NOP goes on at the next play; HALT stops the core; LOOP pushes a level with iteration 0 and goes on at the first play of its body, as the same LOOP without a predicate does; SKIP goes on N + 1 plays further. Only that core changes. A LOOP whose predicate does not let it run goes on after its body, a SKIP at its next play. -/
def Obligations.ControlPlays : Prop :=
  (∀ (s : State) (h : PlayHdr), Runs s h →
    exec (.nop h) s = .next (coreAt s h.core.idx (getCore s h.core.idx) ((getCore s h.core.idx).pc + 1))) ∧
  (∀ (s : State) (h : PlayHdr), Runs s h →
    exec (.halt h) s = .next (setCore s h.core.idx { getCore s h.core.idx with run := .halted })) ∧
  (∀ (s : State) (h : PlayHdr) (count : BitVec 20) (body : BitVec 11), Runs s h →
    exec (.loop h count body) s = exec (.loop { h with pen := false } count body) s ∧
    exec (.loop h count body) s = .next (setCore s h.core.idx
      { getCore s h.core.idx with
        pc := (getCore s h.core.idx).pc + 1,
        loops := { first := (getCore s h.core.idx).pc + 1, body := body.toNat, count := count.toNat, iter := 0 }
          :: (getCore s h.core.idx).loops })) ∧
  (∀ (s : State) (h : PlayHdr) (n : BitVec 11), Runs s h →
    exec (.skip h n) s =
      .next (coreAt s h.core.idx (getCore s h.core.idx) ((getCore s h.core.idx).pc + 1 + n.toNat))) ∧
  (∀ (s : State) (h : PlayHdr) (count : BitVec 20) (body : BitVec 11), coreIssues s h.core.idx = true →
    h.parity = none → h.pen = true → predBad (getCore s h.core.idx) h.pred.val = false →
    predOf (getCore s h.core.idx) h.pred.val = h.pneg →
    exec (.loop h count body) s =
      .next (coreAt s h.core.idx (getCore s h.core.idx) ((getCore s h.core.idx).pc + 1 + body.toNat))) ∧
  (∀ (s : State) (h : PlayHdr) (n : BitVec 11), coreIssues s h.core.idx = true →
    h.parity = none → h.pen = true → predBad (getCore s h.core.idx) h.pred.val = false →
    predOf (getCore s h.core.idx) h.pred.val = h.pneg →
    exec (.skip h n) s = .next (coreAt s h.core.idx (getCore s h.core.idx) ((getCore s h.core.idx).pc + 1)))

/-- On a core that runs the play: SETI writes its 48-bit immediate zero-extended; SADDI the source plus the immediate sign-extended; SALU the result that FN names, nine functions and a maximum; LIDX the iteration index of the loop level FN[1:0] out, or all ones when there is none. Where no source is poisoned the register holds exactly that value with no poison; with a poisoned source both halves are poisoned (the choice of log 24) and hold one fresh free value. Register 0 discards the write, every other register, flag and part of the machine stays, and the core goes on at its next play. -/
def Obligations.ScalarPlays : Prop :=
  (∀ (s : State) (h : PlayHdr) (f : FmtC), Runs s h →
    exec (.seti h f) s = .next (coreAt s h.core.idx
      (withReg (getCore s h.core.idx) f.sd.val (f.imm.zeroExtend 64) 0) ((getCore s h.core.idx).pc + 1))) ∧
  (∀ (s : State) (h : PlayHdr) (f : FmtC), Runs s h → sregBad (getCore s h.core.idx) f.sx.val = false →
    exec (.saddi h f) s = .next (coreAt s h.core.idx
      (withReg (getCore s h.core.idx) f.sd.val (sreg (getCore s h.core.idx) f.sx.val + f.imm.signExtend 64) 0)
      ((getCore s h.core.idx).pc + 1))) ∧
  (∀ (s : State) (h : PlayHdr) (f : FmtC), Runs s h → sregBad (getCore s h.core.idx) f.sx.val = true → f.sd.val ≠ 0 →
    exec (.saddi h f) s = .next (coreAt { s with freeNext := s.freeNext + 1 } h.core.idx
      (withReg (getCore s h.core.idx) f.sd.val (Config.freeValue s.freeNext) 3) ((getCore s h.core.idx).pc + 1))) ∧
  (∀ (s : State) (h : PlayHdr) (f : FmtC) (x y : W64), Runs s h →
    sreg (getCore s h.core.idx) f.sx.val = x → sreg (getCore s h.core.idx) f.sy.val = y →
    sregBad (getCore s h.core.idx) f.sx.val = false → sregBad (getCore s h.core.idx) f.sy.val = false →
    ∀ v : W64,
      (f.fn = 0 ∧ v = x + y ∨ f.fn = 1 ∧ v = x - y ∨ f.fn = 2 ∧ v = x * y ∨ f.fn = 3 ∧ v = x &&& y ∨
        f.fn = 4 ∧ v = x ||| y ∨ f.fn = 5 ∧ v = x ^^^ y ∨ f.fn = 6 ∧ v = x <<< (y.toNat % 64) ∨
        f.fn = 7 ∧ v = x >>> (y.toNat % 64) ∨ f.fn = 8 ∧ v = BitVec.ofNat 64 (min x.toNat y.toNat) ∨
        f.fn = 9 ∧ v = BitVec.ofNat 64 (max x.toNat y.toNat)) →
      exec (.salu h f) s = .next (coreAt s h.core.idx
        (withReg (getCore s h.core.idx) f.sd.val v 0) ((getCore s h.core.idx).pc + 1))) ∧
  (∀ (s : State) (h : PlayHdr) (f : FmtC), Runs s h →
    ∀ v : W64,
      (match (getCore s h.core.idx).loops[f.fn.toNat % 4]? with
        | some l => v = BitVec.ofNat 64 l.iter
        | none => v = BitVec.allOnes 64) →
      exec (.lidx h f) s = .next (coreAt s h.core.idx
        (withReg (getCore s h.core.idx) f.sd.val v 0) ((getCore s h.core.idx).pc + 1)))

/-- On a core that runs the play, with no poison in what the play reads: SCMP writes the comparison that FN[2:0] names of s[SX] with s[SY], or with the zero-extended immediate where FN bit 3 is set; PLOG the logic of two flags, or set or clear, which ignore their sources; PBIT the bit of s[SX] that IMM48[5:0] names. The flag is not poisoned, every other flag and register stays, and the core goes on at its next play. A poisoned source poisons the flag, which then holds a fresh free bit. -/
def Obligations.PredicatePlays : Prop :=
  (∀ (s : State) (h : PlayHdr) (f : FmtC) (x y : W64), Runs s h →
    sreg (getCore s h.core.idx) f.sx.val = x → sregBad (getCore s h.core.idx) f.sx.val = false →
    (if bitOf f.fn.toNat 3 then y = f.imm.zeroExtend 64
      else y = sreg (getCore s h.core.idx) f.sy.val ∧ sregBad (getCore s h.core.idx) f.sy.val = false) →
    ∀ b : Bool,
      (f.fn.toNat % 8 = 0 ∧ b = decide (x = y) ∨ f.fn.toNat % 8 = 1 ∧ b = decide (x ≠ y) ∨
        f.fn.toNat % 8 = 2 ∧ b = decide (x.toNat < y.toNat) ∨ f.fn.toNat % 8 = 3 ∧ b = decide (y.toNat ≤ x.toNat) ∨
        f.fn.toNat % 8 = 4 ∧ b = decide (x.toInt < y.toInt) ∨ f.fn.toNat % 8 = 5 ∧ b = decide (y.toInt ≤ x.toInt)) →
      exec (.scmp h f) s = .next (coreAt s h.core.idx
        (withPred (getCore s h.core.idx) f.pd.val b false) ((getCore s h.core.idx).pc + 1))) ∧
  (∀ (s : State) (h : PlayHdr) (f : FmtC) (x y : Bool), Runs s h →
    predOf (getCore s h.core.idx) (f.sx.val % 8) = x → predOf (getCore s h.core.idx) (f.sy.val % 8) = y →
    (f.fn.toNat < 4 → predBad (getCore s h.core.idx) (f.sx.val % 8) = false ∧
      predBad (getCore s h.core.idx) (f.sy.val % 8) = false) →
    ∀ b : Bool,
      (f.fn = 0 ∧ b = (x && y) ∨ f.fn = 1 ∧ b = (x || y) ∨ f.fn = 2 ∧ b = (x != y) ∨ f.fn = 3 ∧ b = (x && !y) ∨
        f.fn = 4 ∧ b = true ∨ f.fn = 5 ∧ b = false) →
      exec (.plog h f) s = .next (coreAt s h.core.idx
        (withPred (getCore s h.core.idx) f.pd.val b false) ((getCore s h.core.idx).pc + 1))) ∧
  (∀ (s : State) (h : PlayHdr) (f : FmtC), Runs s h → sregBad (getCore s h.core.idx) f.sx.val = false →
    exec (.pbit h f) s = .next (coreAt s h.core.idx
      (withPred (getCore s h.core.idx) f.pd.val ((sreg (getCore s h.core.idx) f.sx.val).getLsbD (f.imm.toNat % 64)) false)
      ((getCore s h.core.idx).pc + 1))) ∧
  (∀ (s : State) (h : PlayHdr) (f : FmtC), Runs s h → f.fn.toNat < 4 →
    (predBad (getCore s h.core.idx) (f.sx.val % 8) = true ∨ predBad (getCore s h.core.idx) (f.sy.val % 8) = true) →
    exec (.plog h f) s = .next (coreAt { s with freeNext := s.freeNext + 1 } h.core.idx
      (withPred (getCore s h.core.idx) f.pd.val (bitOf (Config.freeValue s.freeNext).toNat 0) true)
      ((getCore s h.core.idx).pc + 1)))

/-- A FAULT play faults its core with TNS_SOFTWARE and its number, a zero play or an index past the program with TNS_PLAY_ILLEGAL, any play whose own word of the program store fails its parity with INT_STORED_WORD_PARITY before it issues. A play that uses a descriptor whose word fails its parity logs that and faults as on a poisoned address, without any other effect (the choice of log 158), and an MLDS that reads a scratch word that fails its parity runs as on the state in which that word has been found poisoned and logged. In a module that runs no deck, so that there is no group to abort, a core fault leaves this: the core is faulted, waits for nothing and reports the code, play index, number, iteration index and address of Table 4.17; every other core stays; the die’s sequence number grows by one and the log of the code’s severity takes one record with that detail; the core’s place in a regulator’s queue is gone; nothing else changes but a message to the host where the event interrupt policy asks for one. -/
def Obligations.CoreFaults : Prop :=
  (∀ (s : State) (h : PlayHdr) (k : BitVec 16), Runs s h →
    exec (.fault h k) s = .next (coreFault s h.core.idx evTnsSoftware k.toNat 0)) ∧
  (∀ (s : State) (n : CoreId), coreIssues s n.idx = true → fetchPlay s n = none →
    exec (.playIllegal n) s = .next (coreFault s n.idx evTnsPlayIllegal 0 0)) ∧
  (∀ (i : Instr) (h : PlayHdr) (s : State), playHdr i = some h → coreIssues s h.core.idx = true → h.parity = some .program →
    exec i s = .next (coreFault s h.core.idx evIntStoredWordParity 0 0)) ∧
  (∀ (i : Instr) (h : PlayHdr) (r : Fin 64) (s : State), playHdr i = some h → coreIssues s h.core.idx = true →
    h.parity = some (.desc r) → h.pen = false →
    exec i s = .next (coreFault (failWord s h.core.idx (.desc r)) h.core.idx evIntPoisonAddress 0 0)) ∧
  (∀ (s : State) (h : PlayHdr) (f : FmtT) (k : Fin 49152), coreIssues s h.core.idx = true → h.pen = false →
    h.parity = some (.scratch k) →
    exec (.mlds h f) s = exec (.mlds { h with parity := none } f) (failWord s h.core.idx (.scratch k))) ∧
  (∀ (s : State) (n : Nat) (e : Ev) (k : Nat) (a : W64), deckOf s = none → n < 4096 →
    let c := getCore s n
    let t := coreFault s n e k a
    let iter : W32 := match c.loops with | [] => 0xFFFFFFFF | l :: _ => w32 l.iter
    getCore t n = { c with
      run := .faulted, wait := .none,
      fault := some { code := e.word (0x10 + n / 64), play := c.pc, number := k, iteration := iter, address := a } } ∧
    (∀ m, m ≠ n → getCore t m = getCore s m) ∧
    t.seqs = sput 0 s.seqs 0 (sget 0 s.seqs 0 + 1) ∧
    t.logs = sput emptyLog s.logs e.sev (addRecord (sget emptyLog s.logs e.sev)
      { code := e.word (0x10 + n / 64), seq := sget 0 s.seqs 0 + 1, die := 0, epoch := (getTrick s 0).epoch,
        detail := .core (n / 64) (n % 64) (physicalOf s n) 0 c.pc k iter a }) ∧
    t.regWait = s.regWait.filter (fun w => !isCoreWait n w.2.2) ∧
    { t with cores := s.cores, seqs := s.seqs, logs := s.logs, regWait := s.regWait, host := s.host } = s ∧
    { t.host with out := s.host.out } = s.host)

/-- On a core that runs the play, with descriptors in scratch that pass every check: TZERO clears tile ACC to zero of the kind that its mode names; TMMA writes every element [m][n] of M × N with the old value (zero of the pair’s kind with ZERO set) plus the product of row m of A and row n of B, integer pairs modulo 2^32 and floating pairs block by block in ascending K, poisoned where any term is; TOUT writes tile ACC to C, converted to C’s element type; TLOAD clears the tile to zero of its kind and fills [m][n] from C. The core goes on at its next play. A TMMA without ZERO whose pair needs another kind than the tile has faults with TNS_ACC_KIND, and a pair that Table 4.10 does not have with TNS_TYPE_PAIR. -/
def Obligations.TensorPlays : Prop :=
  (∀ (s : State) (h : PlayHdr) (f : FmtT), Runs s h →
    exec (.tzero h f) s = .next (coreAt s h.core.idx
      { getCore s h.core.idx with
        tiles := sput Tile.zero (getCore s h.core.idx).tiles f.acc.val
          { isInt := bitOf f.mode.toNat 0, elems := [], poison := [] } }
      ((getCore s h.core.idx).pc + 1))) ∧
  (∀ (s : State) (h : PlayHdr) (f : FmtT) (a b : Desc) (m n k len : Nat) (isInt : Bool) (old : Tile), Runs s h →
    takeOperands (getCore s h.core.idx) [(f.da.val, f.sa.val), (f.db.val, f.sb.val)] = .ok [a, b] →
    a.rank = 2 → b.rank = 2 → descLocal a = true → descLocal b = true →
    dimN a.size 0 = k → dimN b.size 0 = k → dimN a.size 1 = m → dimN b.size 1 = n → m ≤ 64 → n ≤ 64 → k ≤ 65536 →
    pairKind (descElem a) (descElem b) = some isInt → pairBlock a b = some len → k % len = 0 →
    Reaches s h.core.idx [a, b] →
    (if bitOf f.mode.toNat 0 then old = { isInt := isInt, elems := [], poison := [] }
      else old = tileOf (getCore s h.core.idx) f.acc.val ∧ old.isInt = isInt) →
    exec (.tmma h f) s = .next (nextPlay (putTile s h.core.idx f.acc.val old
      ((List.range m).flatMap fun i => (List.range n).map fun j =>
        let ra := ((readLocal s h.core.idx a).drop (i * k)).take k
        let rb := ((readLocal s h.core.idx b).drop (j * k)).take k
        (64 * i + j,
          (if isInt then
            sget 0 old.elems (64 * i + j) + BitVec.ofInt 32 ((ra.zip rb).map fun e => intOf e.1.val * intOf e.2.val).sum
          else accumBlocks ra rb len (k / len) (sget 0 old.elems (64 * i + j))),
          sget false old.poison (64 * i + j) || ra.any (·.poison) || rb.any (·.poison)))) h.core.idx)) ∧
  (∀ (s : State) (h : PlayHdr) (f : FmtT) (d : Desc), Runs s h →
    takeOperands (getCore s h.core.idx) [(f.dc.val, f.sc.val)] = .ok [d] → tileShape d = true → writable d = true →
    ((tileOf (getCore s h.core.idx) f.acc.val).isInt = true → descElem d = .int32) →
    ((tileOf (getCore s h.core.idx) f.acc.val).isInt = false →
      descElem d = .fp32 ∨ descElem d = .bf16 ∨ descElem d = .fp16) →
    Reaches s h.core.idx [d] →
    exec (.tout h f) s = .next (nextPlay (commitWords s h.core.idx (scatter d ((tuples d).map fun x =>
      let w := sget 0 (tileOf (getCore s h.core.idx) f.acc.val).elems (64 * (x[1]?).getD 0 + (x[0]?).getD 0)
      (if (tileOf (getCore s h.core.idx) f.acc.val).isInt then w.toNat else (descElem d).encode (f32 w),
        sget false (tileOf (getCore s h.core.idx) f.acc.val).poison (64 * (x[1]?).getD 0 + (x[0]?).getD 0))))) h.core.idx)) ∧
  (∀ (s : State) (h : PlayHdr) (f : FmtT) (d : Desc), Runs s h →
    takeOperands (getCore s h.core.idx) [(f.dc.val, f.sc.val)] = .ok [d] → tileShape d = true →
    descElem d = (if bitOf f.mode.toNat 0 then .int32 else .fp32) →
    Reaches s h.core.idx [d] →
    exec (.tload h f) s = .next (nextPlay (putTile s h.core.idx f.acc.val
      { isInt := bitOf f.mode.toNat 0, elems := [], poison := [] }
      ((tuples d).map fun x =>
        let e := readElem (coreView (getCore s h.core.idx) []) d x
        (64 * (x[1]?).getD 0 + (x[0]?).getD 0, BitVec.ofNat 32 e.bits, e.poison))) h.core.idx)) ∧
  (∀ (s : State) (h : PlayHdr) (f : FmtT) (a b : Desc) (len : Nat) (isInt : Bool), Runs s h →
    takeOperands (getCore s h.core.idx) [(f.da.val, f.sa.val), (f.db.val, f.sb.val)] = .ok [a, b] →
    a.rank = 2 → b.rank = 2 → descLocal a = true → descLocal b = true → dimN b.size 0 = dimN a.size 0 →
    dimN a.size 1 ≤ 64 → dimN b.size 1 ≤ 64 → dimN a.size 0 ≤ 65536 →
    (pairKind (descElem a) (descElem b) = none →
      exec (.tmma h f) s = .next (coreFault s h.core.idx evTnsTypePair 0 0)) ∧
    (pairKind (descElem a) (descElem b) = some isInt → pairBlock a b = some len → dimN a.size 0 % len = 0 →
      bitOf f.mode.toNat 0 = false → (tileOf (getCore s h.core.idx) f.acc.val).isInt ≠ isInt →
      exec (.tmma h f) s = .next (coreFault s h.core.idx evTnsAccKind 0 0)))

/-- For a destination in scratch whose extents the checks of Table 6.4 pass, and any values: writing the values over its index space changes only scratch, scratch poison and the model’s counter of free values of that core, no other core and no other part of the machine, and every scratch byte whose 32-bit word holds no byte of an extent keeps its value. -/
def Obligations.ScratchWritesStayInExtents : Prop :=
  ∀ (s : State) (n : Nat) (b : BitVec 1024) (off : Int) (ds : List Desc) (table : Nat) (vals : List (Nat × Bool)),
    (getCore s n).run = .running →
    moveDesc (parseDesc b) off ∈ ds → descLocal (moveDesc (parseDesc b) off) = true → rangeFault s table ds = none →
    let c := moveDesc (parseDesc b) off
    let t := commitWords s n (scatter c vals)
    (∀ m, m ≠ n → getCore t m = getCore s m) ∧
    { t with cores := s.cores, freeNext := s.freeNext } = s ∧
    { getCore t n with scratch := (getCore s n).scratch, scratchPoison := (getCore s n).scratchPoison } = getCore s n ∧
    (∀ o : Nat,
      (∀ e ∈ extents c, ∀ a : Int, e.2.1 ≤ a → a ≤ e.2.2 → (a.toNat - localBit) / 4 ≠ o / 4) →
      rdByte (getCore t n).scratch o = rdByte (getCore s n).scratch o)

/-- On a core that runs the play, with operands that pass every check: each element of C within BOUND becomes, with one rounding to C’s type, A + B, A − B, A × B, A × B + C, the maximum or the minimum of A and B, A + IMM32, A × IMM32, or A itself with its scales applied (VCVT to an unscaled type other than FP6 and FP4; VDEQ from a block-scaled A to FP32, BF16 or FP16); it is poisoned where an operand’s element is. Operands broadcast along dimensions of SIZE 1 with stride 0. Nothing is written but the words of C, and the core goes on at its next play. -/
def Obligations.ElementwisePlays : Prop :=
  ∀ (s : State) (h : PlayHdr) (f : FmtT), Runs s h →
    BinaryEffect (.vadd h f) s h f false (fun x y _ => x.add y) ∧
    BinaryEffect (.vsub h f) s h f false (fun x y _ => x.add y.neg) ∧
    BinaryEffect (.vmul h f) s h f false (fun x y _ => x.mul y) ∧
    BinaryEffect (.vfma h f) s h f true (fun x y z => (x.mul y).add z) ∧
    BinaryEffect (.vmax h f) s h f false (fun x y _ => x.max y) ∧
    BinaryEffect (.vmin h f) s h f false (fun x y _ => x.min y) ∧
    UnaryEffect (.vaddi h f) s h f (fun a c => plainFloat a = true ∧ plainFloat c = true) (fun x => x.add (f32 f.imm)) ∧
    UnaryEffect (.vmuli h f) s h f (fun a c => plainFloat a = true ∧ plainFloat c = true) (fun x => x.mul (f32 f.imm)) ∧
    UnaryEffect (.vcvt h f) s h f (fun _ c => c.block = 0 ∧ isFp6 (descElem c) = false ∧ descElem c ≠ .fp4) (fun x => x) ∧
    UnaryEffect (.vdeq h f) s h f (fun a c => a.block ≠ 0 ∧ plainFloat c = true) (fun x => x)

/-- On a core that runs the play, with unscaled floating operands that pass every check: each element of C within BOUND becomes the FP32 result of the function at A’s element as FP32, rounded to C’s type, and is poisoned where A’s element is; nothing else is written and the core goes on. Which value within the error bound of Table 5.7 comes is a free value of the model (log 26). -/
def Obligations.TranscendentalPlays : Prop :=
  ∀ (s : State) (h : PlayHdr) (f : FmtT), Runs s h →
    ∀ (i : Instr) (p : Trans),
      (i = .vexp2 h f ∧ p = .exp2 ∨ i = .vlog2 h f ∧ p = .log2 ∨ i = .vrcp h f ∧ p = .rcp ∨
        i = .vrsqrt h f ∧ p = .rsqrt ∨ i = .vtanh h f ∧ p = .tanh ∨ i = .vsigm h f ∧ p = .sigm ∨
        i = .vsilu h f ∧ p = .silu) →
      UnaryEffect i s h f (fun a c => plainFloat a = true ∧ plainFloat c = true) (fun x => f32 (transcend p (toF32 x)))

/-- On a core that runs the play, with operands that pass every check: VRSUM and VRSSQ give, for each row of A, the sum of its elements or of their squares over 64 lanes in the fixed order, rounded to C’s type; VRMAX the maximum; VSCAN the inclusive prefix sums; VTOPK the indices of the IMM32 largest elements of each row and, with MODE bit 0, the mask of row 0’s indices in a scalar register; VFIRST the lowest index of A’s first row whose element is at least B’s first, or the row length; VRAND the keyed random words of s[SA] and s[SB]. Results are poisoned where a term is. VQUANT writes C with one scale for each block. The core goes on at its next play. -/
def Obligations.ReductionPlays : Prop :=
  ∀ (s : State) (h : PlayHdr) (f : FmtT), Runs s h →
    RowEffect (.vrsum h f) s h f (fun t => isFloat t = true) (fun _ => 1) (fun t r =>
      [(t.encode (f32 (laneSum (fun acc x => toF32 ((f32 acc).add x)) r)), r.any (·.poison))]) ∧
    RowEffect (.vrssq h f) s h f (fun t => isFloat t = true) (fun _ => 1) (fun t r =>
      [(t.encode (f32 (laneSum (fun acc x => toF32 ((f32 acc).add (x.mul x))) r)), r.any (·.poison))]) ∧
    RowEffect (.vrmax h f) s h f (fun t => isFloat t = true) (fun _ => 1) (fun t r =>
      match r with
      | [] => []
      | x :: xs => [(t.encode (xs.foldl (fun m y => m.max y.val) x.val), (x :: xs).any (·.poison))]) ∧
    RowEffect (.vscan h f) s h f (fun t => isFloat t = true) (fun len => len) (fun t r => scanFrom t 0 false r) ∧
    (∀ a c : Desc,
      takeOperands (getCore s h.core.idx) [(f.da.val, f.sa.val), (f.dc.val, f.sc.val)] = .ok [a, c] →
      plainFloat a = true → descLocal a = true → descLocal c = true → writable c = true → c.block = 0 →
      descElem c = .int32 → 1 ≤ f.imm.toNat → f.imm.toNat ≤ 16 → f.imm.toNat ≤ dimN a.size 0 →
      (bitOf f.mode.toNat 0 = true → dimN a.size 0 ≤ 64) →
      elemCount c = elemCount a / dimN a.size 0 * f.imm.toNat →
      Reaches s h.core.idx [a, c] →
      ∀ rows t, rows = rowsOf a (gather (coreView (getCore s h.core.idx) []) a) →
        t = commitWords s h.core.idx (scatter c (rows.flatMap fun r =>
          (topIndices r f.imm.toNat).map fun i => (i, r.any (·.poison)))) →
        (bitOf f.mode.toNat 0 = false → exec (.vtopk h f) s = .next (nextPlay t h.core.idx)) ∧
        (∀ r rs, rows = r :: rs → bitOf f.mode.toNat 0 = true →
          exec (.vtopk h f) s = .next (nextPlay (setSreg t h.core.idx (fieldOf f.mode.toNat 1 5)
            (BitVec.ofNat 64 ((topIndices r f.imm.toNat).map fun i => 2 ^ i).sum)
            (if r.any (·.poison) then 3 else 0)) h.core.idx))) ∧
    (∀ a b : Desc,
      takeOperands (getCore s h.core.idx) [(f.da.val, f.sa.val), (f.db.val, f.sb.val)] = .ok [a, b] →
      plainFloat a = true → plainFloat b = true → descLocal a = true → descLocal b = true →
      Reaches s h.core.idx [a, b] →
      ∀ row y, row = (gather (coreView (getCore s h.core.idx) []) a).take (dimN a.size 0) →
        y = elemAt (gather (coreView (getCore s h.core.idx) []) b) 0 →
        exec (.vfirst h f) s = .next (nextPlay (setSreg s h.core.idx (fieldOf f.mode.toNat 0 5)
          (BitVec.ofNat 64 (row.findIdx fun x => y.val.leNum x.val))
          (if row.any (·.poison) || y.poison then 3 else 0)) h.core.idx)) ∧
    (∀ c : Desc,
      takeOperands (getCore s h.core.idx) [(f.dc.val, f.sc.val)] = .ok [c] →
      descLocal c = true → writable c = true → c.block = 0 → (descElem c = .int32 ∨ descElem c = .fp32) →
      Reaches s h.core.idx [c] →
      exec (.vrand h f) s = .next (nextPlay (commitWords s h.core.idx (scatter c ((List.range (elemCount c)).map fun i =>
        let z := randWord (sreg (getCore s h.core.idx) f.sa.val) (sreg (getCore s h.core.idx) f.sb.val) i
        (if descElem c = .int32 then (z >>> 32).toNat else (toF32 (.num false (z >>> 40).toNat (-24))).toNat,
          sregBad (getCore s h.core.idx) f.sa.val || sregBad (getCore s h.core.idx) f.sb.val)))) h.core.idx)) ∧
    (∀ a b c : Desc,
      takeOperands (getCore s h.core.idx) [(f.da.val, f.sa.val), (f.db.val, f.sb.val), (f.dc.val, f.sc.val)] = .ok [a, b, c] →
      plainFloat a = true → plainFloat b = true → c.block ≠ 0 → c.sl = false → descLocal a = true → descLocal b = true →
      descLocal c = true → fitsSpace c a = true → fitsSpace c b = true → writable c = true →
      Reaches s h.core.idx [a, b, c] →
      ∀ cells, cells = ((tuples c).map fun x =>
          let p := readElem (coreView (getCore s h.core.idx) []) a (operandTuple a x)
          let q := readElem (coreView (getCore s h.core.idx) []) b (operandTuple b x)
          (x, f32 (toF32 (p.val.mul q.val)), p.poison || q.poison)) →
        exec (.vquant h f) s = .next (nextPlay (commitWords s h.core.idx (scatterScaled c (cells.map fun e =>
          let mine := cells.filter fun o => blockCoords c o.1 = blockCoords c e.1
          let fe := blockField (descElem c) (mine.map (·.2.1))
          let v := if fe.1 = 255 then FV.zero else e.2.1.mul (.num false 1 (-fe.2))
          { bits := (descElem c).encode v, val := v, poison := mine.any (·.2.2), scale := fe.1, sl := 0 }))) h.core.idx))

/-- On a core that runs the play, with operands that pass their checks and whose device lines can be read and written now: MCOPY writes C, in C’s layout and with the scales, from the elements of A as they stood before the write; MFILL writes the low bits of IMM32 to every element of C; MRED adds each element of A to its element of device tensor C in the home kitties and drops C’s lines from the core’s read cache. The core goes on at its next play. Where a line cannot be had now, the play waits and issues again (R144). An MCOPY or MRED whose operands overlap as R202 to R204 forbid, or R206, faults with TNS_COPY_OVERLAP. -/
def Obligations.CopyFillReduce : Prop :=
  (∀ (s s1 t : State) (h : PlayHdr) (f : FmtT) (a c : Desc) (snap : List (Nat × CLine)), Runs s h →
    takeOperands (getCore s h.core.idx) [(f.da.val, f.sa.val), (f.dc.val, f.sc.val)] = .ok [a, c] →
    copyable a c = true → writable c = true → Reaches s h.core.idx [a, c] →
    copyClash a c false = false →
    fetchLines s h.core.idx (bitOf f.mode.toNat 5) (deviceLines [a]) = (s1, some snap) →
    writeWords s1 h.core.idx (scatterScaled c (gather (coreView (getCore s1 h.core.idx) snap) a)) = (t, true) →
    exec (.mcopy h f) s = .next (nextPlay t h.core.idx)) ∧
  (∀ (s t : State) (h : PlayHdr) (f : FmtT) (c : Desc), Runs s h →
    takeOperands (getCore s h.core.idx) [(f.dc.val, f.sc.val)] = .ok [c] → writable c = true →
    Reaches s h.core.idx [c] →
    writeWords s h.core.idx (scatter c (List.replicate (elemCount c)
      (f.imm.toNat % 2 ^ (descElem c).bits, false))) = (t, true) →
    exec (.mfill h f) s = .next (nextPlay t h.core.idx)) ∧
  (∀ (s s1 t : State) (h : PlayHdr) (f : FmtT) (a c : Desc) (op : Nat) (snap : List (Nat × CLine)), Runs s h →
    takeOperands (getCore s h.core.idx) [(f.da.val, f.sa.val), (f.dc.val, f.sc.val)] = .ok [a, c] →
    (descElem c = .int32 ∧ op = 0 ∨ descElem c = .fp32 ∧ op = 2 ∨ descElem c = .bf16 ∧ op = 3) →
    copyable a c = true → c.block = 0 → writable c = true → descLocal c = false →
    Reaches s h.core.idx [a, c] → copyClash a c true = false →
    fetchLines s h.core.idx (bitOf f.mode.toNat 5) (deviceLines [a]) = (s1, some snap) →
    ensureLines (linesRoom s1 (deviceLines [c])) h.core.idx [] (deviceLines [c]) = (t, true) →
    exec (.mred h f) s = .next (nextPlay ((deviceLines [c]).foldl (fun s l => modCore s h.core.idx fun k => rcDrop k l)
      (redElems t op c (gather (coreView (getCore s1 h.core.idx) snap) a))) h.core.idx)) ∧
  (∀ (s : State) (h : PlayHdr) (f : FmtT) (a c : Desc), Runs s h →
    takeOperands (getCore s h.core.idx) [(f.da.val, f.sa.val), (f.dc.val, f.sc.val)] = .ok [a, c] →
    copyable a c = true → writable c = true → Reaches s h.core.idx [a, c] →
    (copyClash a c false = true → exec (.mcopy h f) s = .next (coreFault s h.core.idx evTnsCopyOverlap 0 0)) ∧
    (copyClash a c true = true → c.block = 0 → (redOp (descElem c)).isSome = true → descLocal c = false →
      exec (.mred h f) s = .next (coreFault s h.core.idx evTnsCopyOverlap 0 0)))

/-- On a core that runs the play, with an address register that is not poisoned: MLDS at an aligned scratch address writes the eight bytes there to its register, each half poisoned where its word is; MSTS writes its register’s two words there, poison with them; MATOM on an aligned device address of a line that its powered home kitty holds and the host does not performs the one atomic there, gives the old value to its register and drops the line from the core’s read cache. The core goes on at its next play. For an address that cannot be used MLDS faults with the code of Table 4.16 that the checks give, and at an address among the results that one of its bank scripts still owes it waits for that ticket. -/
def Obligations.WordPlays : Prop :=
  (∀ (s : State) (h : PlayHdr) (f : FmtT) (o : Nat), Runs s h → sregBad (getCore s h.core.idx) f.sa.val = false →
    (sreg (getCore s h.core.idx) f.sa.val + f.imm.signExtend 64).toNat = localBit + o → o % 8 = 0 → o + 8 ≤ 0x30000 →
    doutMeets s h.core.idx [(0, ((localBit + o : Nat) : Int), ((localBit + o : Nat) : Int) + ((8 : Nat) : Int) - 1)] = none →
    exec (.mlds h f) s = .next (nextPlay (setSreg s h.core.idx (fieldOf f.mode.toNat 0 5)
      (BitVec.ofNat 64 (leNat ((List.range 8).map fun i => rdByte (getCore s h.core.idx).scratch (o + i))))
      (BitVec.ofNat 2 ((if sget false (getCore s h.core.idx).scratchPoison (o / 4) then 1 else 0) +
        (if sget false (getCore s h.core.idx).scratchPoison (o / 4 + 1) then 2 else 0)))) h.core.idx)) ∧
  (∀ (s : State) (h : PlayHdr) (f : FmtT) (o : Nat), Runs s h → sregBad (getCore s h.core.idx) f.sa.val = false →
    (sreg (getCore s h.core.idx) f.sa.val + f.imm.signExtend 64).toNat = localBit + o → o % 8 = 0 → o + 8 ≤ 0x30000 →
    doutMeets s h.core.idx [(0, ((localBit + o : Nat) : Int), ((localBit + o : Nat) : Int) + ((8 : Nat) : Int) - 1)] = none →
    let v := sreg (getCore s h.core.idx) (fieldOf f.mode.toNat 0 5)
    let p := sregPoison (getCore s h.core.idx) (fieldOf f.mode.toNat 0 5)
    exec (.msts h f) s = .next (nextPlay (putScratch (putScratch s h.core.idx (o / 4)
        { mask := 0xFFFFFFFF, value := v.toNat % 2 ^ 32, poison := bitOf p.toNat 0 }) h.core.idx (o / 4 + 1)
        { mask := 0xFFFFFFFF, value := v.toNat / 2 ^ 32 % 2 ^ 32, poison := bitOf p.toNat 1 }) h.core.idx)) ∧
  (∀ (s : State) (h : PlayHdr) (f : FmtT) (a op : Nat), Runs s h → sregBad (getCore s h.core.idx) f.sa.val = false →
    (sreg (getCore s h.core.idx) f.sa.val + f.imm.signExtend 64).toNat = a → fieldOf f.mode.toNat 6 3 = op → op < 7 →
    ReachesAddr s h.core.idx a (atomBytes op) (atomBytes op) true →
    (kittyGet s (a / 64)).isSome = true → kittyOn s (a / 64) = true → hostHolds s (lineDpa (a / 64)) = none →
    let c := getCore s h.core.idx
    let r := kittyAtom (dropCoreWait s h.core.idx) a op ((sreg c f.sb.val).toNat % 2 ^ (8 * atomBytes op))
      ((sreg c f.sc.val).toNat % 2 ^ (8 * atomBytes op)) (sregBad c f.sb.val || (op = 6 && sregBad c f.sc.val))
    exec (.matom h f) s = .next (nextPlay (setSreg (modCore r.1 h.core.idx fun k => rcDrop k (a / 64)) h.core.idx
      (fieldOf f.mode.toNat 0 5) (BitVec.ofNat 64 r.2.1) r.2.2) h.core.idx)) ∧
  (∀ (s : State) (h : PlayHdr) (f : FmtT) (e : Ev) (a : W64), Runs s h → sregBad (getCore s h.core.idx) f.sa.val = false →
    a = sreg (getCore s h.core.idx) f.sa.val + f.imm.signExtend 64 →
    addressFault s h.core.idx a.toNat 8 8 false = some e →
    exec (.mlds h f) s = .next (coreFault s h.core.idx e 0 (if e = evTnsScratchRange then 0 else a))) ∧
  (∀ (s : State) (h : PlayHdr) (f : FmtT) (a : W64) (t : Nat), Runs s h → sregBad (getCore s h.core.idx) f.sa.val = false →
    a = sreg (getCore s h.core.idx) f.sa.val + f.imm.signExtend 64 →
    addressFault s h.core.idx a.toNat 8 8 false = none →
    doutMeets s h.core.idx [(0, (a.toNat : Int), (a.toNat : Int) + ((8 : Nat) : Int) - 1)] = some t →
    exec (.mlds h f) s = .next (coreWaits s h.core.idx (.ticket t)))

/-- On a core that runs the play, with an address register that is not poisoned: DLOAD, whose 128 bytes are read through, puts them into its slot when they form a valid descriptor and carry no poison, and faults with TNS_DESC_INVALID when they do not; DBASE puts the new base into its slot’s descriptor when the result is valid, and faults with TNS_DESC_INVALID otherwise or for an address of more than 48 bits. A slot keeps its contents at a fault, and the core goes on at its next play otherwise. -/
def Obligations.DescriptorPlays : Prop :=
  (∀ (s s1 : State) (h : PlayHdr) (f : FmtT) (bs : List (Byte × Bool)), Runs s h →
    sregBad (getCore s h.core.idx) f.sa.val = false →
    ReachesAddr s h.core.idx (sreg (getCore s h.core.idx) f.sa.val + f.imm.signExtend 64).toNat 128 1 false →
    coreRead s h.core.idx (sreg (getCore s h.core.idx) f.sa.val + f.imm.signExtend 64).toNat 128 true = (s1, some bs) →
    bs.any (·.2) = false →
    ∀ d : BitVec 1024, d = BitVec.ofNat 1024 (leNat (bs.map (·.1))) →
      (descValid (parseDesc d) = true →
        exec (.dload h f) s = .next (nextPlay (modCore s1 h.core.idx fun c =>
          { c with descs := sput 0 c.descs f.dc.val d }) h.core.idx)) ∧
      (descValid (parseDesc d) = false →
        exec (.dload h f) s = .next (coreFault s1 h.core.idx evTnsDescInvalid 0 0))) ∧
  (∀ (s : State) (h : PlayHdr) (f : FmtT) (a : Nat), Runs s h → sregBad (getCore s h.core.idx) f.sa.val = false →
    a = (sreg (getCore s h.core.idx) f.sa.val + f.imm.signExtend 64).toNat →
    ∀ d : BitVec 1024, d = withBase (sget 0 (getCore s h.core.idx).descs f.dc.val) a →
      (a < 2 ^ 48 → descValid (parseDesc d) = true →
        exec (.dbase h f) s = .next (coreAt s h.core.idx
          { getCore s h.core.idx with descs := sput 0 (getCore s h.core.idx).descs f.dc.val d }
          ((getCore s h.core.idx).pc + 1))) ∧
      (2 ^ 48 ≤ a ∨ descValid (parseDesc d) = false →
        exec (.dbase h f) s = .next (coreFault s h.core.idx evTnsDescInvalid 0 0)))

/-- On a producer core that runs an MPUSH on a stream that is not stopped, with operands that pass their checks and at least as many credits taken as the extents of C need: the stream’s taken credits fall by that many and its producer tally grows by it, the core has one more access that is not performed, and the data leave: on an on-die stream as one push on its way, on a fabric stream as frames whose last carries the units. The core goes on at its next play. With too few credits the core faults with SYN_CREDIT_UNDERFLOW and no data move; on a stopped stream it faults with SYN_CREDIT_STOPPED. -/
def Obligations.PushPlay : Prop :=
  (∀ (s : State) (h : PlayHdr) (f : FmtT) (a c : Desc) (e : StreamEntry) (k : Stream) (units : Nat), Runs s h →
    takeOperands (getCore s h.core.idx) [(f.da.val, f.sa.val), (f.dc.val, f.sc.val)] = .ok [a, c] →
    descLocal a = true → descLocal c = true → copyable a c = true → writable c = true →
    Reaches s h.core.idx [a, c] →
    streamEntry s (f.imm.toNat % 2 ^ 14) = some e → getStream s (f.imm.toNat % 2 ^ 14) = k →
    units = ceilDiv (extentBytes c) (2 ^ e.unitLog2) →
    (k.stopped = true → exec (.mpush h f) s = .next (coreFault s h.core.idx evSynCreditStopped 0 0)) ∧
    (k.stopped = false → k.taken < units →
      exec (.mpush h f) s = .next (coreFault
        (stopStream s e (evSynCreditUnderflow.word (0x10 + h.core.idx / 64))) h.core.idx evSynCreditUnderflow 0 0)) ∧
    (k.stopped = false → units ≤ k.taken →
      ∀ bytes s1, bytes = pushBytes (scatterScaled c (gather (coreView (getCore s h.core.idx) []) a)) →
        s1 = modCore (setStream s (f.imm.toNat % 2 ^ 14)
          { k with taken := k.taken - units, ptally := k.ptally + BitVec.ofNat 32 units }) h.core.idx
          (fun c => { c with unperformed := c.unperformed + 1 }) →
        (e.kind = 0 → exec (.mpush h f) s = .next (nextPlay { s1 with pushes := s1.pushes ++
          [{ stream := f.imm.toNat % 2 ^ 14, producer := h.core.idx, units := units, bytes := bytes, gen := s.gen }] }
          h.core.idx)) ∧
        (e.kind ≠ 0 → exec (.mpush h f) s = .next (nextPlay (sendPush s1 e units (pushRuns bytes)) h.core.idx))))

/-- On a core that runs the play and is a member of the trick: TPLAY waits while an earlier access is not performed or the epoch it has played is not released, else it records the epoch its cluster knows, the play counts for its cluster, and the core goes on; TPW does the same, notes that its play has counted and waits for the release. TWAIT, and TPW after its play has counted, faults with SYN_WAIT_UNPLAYED where the core has not played the trick since its restart, waits while the epoch it played is not released, and goes on after it, emptying the read cache with INV. A counted play adds one to ARRIVED in the home cluster, or to the plays that the core’s cluster has counted; the last member’s play of a cluster sends its arrive. -/
def Obligations.TrickPlays : Prop :=
  (∀ (s : State) (h : PlayHdr) (f : FmtY) (e : TrickEntry), Runs s h → trickEntry s f.id.toNat = some e →
    isMember e h.core.idx = true →
    ((getCore s h.core.idx).unperformed ≠ 0 →
      exec (.tplay h f) s = .next (modCore s h.core.idx fun c => { c with wait := .performed })) ∧
    ((getCore s h.core.idx).unperformed = 0 →
      sget none (getCore s h.core.idx).members f.id.toNat = some (knownEpoch s f.id.toNat (h.core.idx / 64)) →
      exec (.tplay h f) s = .next (modCore s h.core.idx fun c => { c with wait := .trickIssue f.id.toNat })) ∧
    ((getCore s h.core.idx).unperformed = 0 →
      sget none (getCore s h.core.idx).members f.id.toNat ≠ some (knownEpoch s f.id.toNat (h.core.idx / 64)) →
      exec (.tplay h f) s = .next (countPlay (coreAt s h.core.idx
        { getCore s h.core.idx with
          members := sput none (getCore s h.core.idx).members f.id.toNat
            (some (knownEpoch s f.id.toNat (h.core.idx / 64))) }
        ((getCore s h.core.idx).pc + 1)) e h.core.idx) ∧
      ((getCore s h.core.idx).tpwPlayed = false →
        exec (.tpw h f) s = .next (countPlay (setCore s h.core.idx
          { getCore s h.core.idx with
            members := sput none (getCore s h.core.idx).members f.id.toNat
              (some (knownEpoch s f.id.toNat (h.core.idx / 64))),
            tpwPlayed := true, wait := .trickRelease f.id.toNat }) e h.core.idx)))) ∧
  (∀ (s : State) (h : PlayHdr) (f : FmtY) (i : Instr), Runs s h →
    (i = .twait h f ∨ i = .tpw h f ∧ (getCore s h.core.idx).tpwPlayed = true) →
    (sget none (getCore s h.core.idx).members f.id.toNat = none →
      exec i s = .next (coreFault s h.core.idx evSynWaitUnplayed 0 0)) ∧
    (∀ r, sget none (getCore s h.core.idx).members f.id.toNat = some r →
      (r = knownEpoch s f.id.toNat (h.core.idx / 64) →
        exec i s = .next (modCore s h.core.idx fun c => { c with wait := .trickRelease f.id.toNat })) ∧
      (r ≠ knownEpoch s f.id.toNat (h.core.idx / 64) →
        exec i s = .next (coreAt s h.core.idx
          { getCore s h.core.idx with
            tpwPlayed := false, rcache := if f.inv then [] else (getCore s h.core.idx).rcache }
          ((getCore s h.core.idx).pc + 1))))) ∧
  (∀ (s : State) (e : TrickEntry) (n : Nat), n / 64 ≠ homeOf e →
    countPlay s e n =
      (if sget 0 s.clusterPlays (knownKey e.trick (n / 64)) + 1 = clusterMembers e (n / 64) then
        { s with clusterPlays := sput 0 s.clusterPlays (knownKey e.trick (n / 64)) 0,
                 arrives := s.arrives ++ [(n / 64, e.trick, clusterMembers e (n / 64))] }
      else { s with clusterPlays := sput 0 s.clusterPlays (knownKey e.trick (n / 64))
                      (sget 0 s.clusterPlays (knownKey e.trick (n / 64)) + 1) })) ∧
  (∀ (s : State) (e : TrickEntry) (n : Nat), n / 64 = homeOf e → (deckOf s).isSome = true →
    trickEntry s e.trick = some e → (getTrick s e.trick).arrived + 1 ≠ (getTrick s e.trick).expected →
    countPlay s e n = setTrick s e.trick { getTrick s e.trick with arrived := (getTrick s e.trick).arrived + 1 })

/-- On a core that runs the play at its own end of a stream that is not stopped: CTAKE at the producer end takes COUNT credits from those available, at the consumer end COUNT units from those delivered, and the core goes on; with too few it waits. CSEND at the consumer end gives up COUNT of the units it holds and the credits leave for the producer end: on their way on the die, or in a CREDIT frame to the stream’s other module. More than it holds faults with SYN_CREDIT_OVERFLOW after stopping the stream; a stopped stream faults with SYN_CREDIT_STOPPED. -/
def Obligations.CreditPlays : Prop :=
  (∀ (s : State) (h : PlayHdr) (f : FmtY) (e : StreamEntry) (r : Stream) (prod : Bool), Runs s h →
    streamEntry s f.id.toNat = some e → streamEnd s e h.core.idx = some prod → getStream s f.id.toNat = r →
    (r.stopped = true → exec (.ctake h f) s = .next (coreFault s h.core.idx evSynCreditStopped 0 0)) ∧
    (r.stopped = false → prod = true → f.count.toNat ≤ r.avail →
      exec (.ctake h f) s = .next (nextPlay (setStream s f.id.toNat
        { r with avail := r.avail - f.count.toNat, taken := r.taken + f.count.toNat }) h.core.idx)) ∧
    (r.stopped = false → prod = false → f.count.toNat ≤ r.delivered →
      exec (.ctake h f) s = .next (nextPlay (setStream s f.id.toNat
        { r with delivered := r.delivered - f.count.toNat, held := r.held + f.count.toNat }) h.core.idx)) ∧
    (r.stopped = false → (prod = true ∧ r.avail < f.count.toNat ∨ prod = false ∧ r.delivered < f.count.toNat) →
      exec (.ctake h f) s = .next (modCore s h.core.idx fun c => { c with wait := .credits f.id.toNat }))) ∧
  (∀ (s : State) (h : PlayHdr) (f : FmtY) (e : StreamEntry) (r : Stream), Runs s h →
    streamEntry s f.id.toNat = some e → getStream s f.id.toNat = r → r.consValid = true →
    coreOfField e.consumer = h.core.idx →
    (r.stopped = true → exec (.csend h f) s = .next (coreFault s h.core.idx evSynCreditStopped 0 0)) ∧
    (r.stopped = false → r.held < f.count.toNat →
      exec (.csend h f) s = .next (coreFault
        (stopStream s e (evSynCreditOverflow.word (0x10 + h.core.idx / 64))) h.core.idx evSynCreditOverflow 0 0)) ∧
    (r.stopped = false → f.count.toNat ≤ r.held → e.kind = 0 →
      exec (.csend h f) s = .next (nextPlay
        { setStream s f.id.toNat { r with held := r.held - f.count.toNat } with
          creditFlight := s.creditFlight ++ [(f.id.toNat, f.count.toNat)] } h.core.idx)) ∧
    (r.stopped = false → f.count.toNat ≤ r.held → e.kind ≠ 0 →
      exec (.csend h f) s = .next (nextPlay
        (sendFrame (setStream s f.id.toNat { r with held := r.held - f.count.toNat }) e.remote e.table
          (.credit f.id.toNat f.count.toNat)) h.core.idx)))

/-- On a core that runs the play, at an address it may use: ACQ reads eight bytes through and writes its register; REL waits while an access is not performed, else stores its register’s eight bytes; POLL reads through and, when the value is not poisoned and compares with IMM as the play says, writes its register and goes on, else it stays at the play, and faults with INT_POISON_PREDICATE on a poisoned value; FENCE waits while an access is not performed, else goes on; INVR drops every line of the read cache with INV, and else the lines that the extents of its descriptor overlap. -/
def Obligations.SyncWordPlays : Prop :=
  (∀ (s s1 : State) (h : PlayHdr) (f : FmtY) (a : Nat) (bs : List (Byte × Bool)), Runs s h →
    sregBad (getCore s h.core.idx) f.sa.val = false → (sreg (getCore s h.core.idx) f.sa.val).toNat = a →
    ReachesAddr s h.core.idx a 8 8 false → coreRead s h.core.idx a 8 true = (s1, some bs) →
    exec (.acq h f) s = .next (nextPlay (setSreg s1 h.core.idx f.sd.val (BitVec.ofNat 64 (leNat (bs.map (·.1))))
      (halvesBad bs)) h.core.idx) ∧
    (bs.any (·.2) = true → exec (.poll h f) s = .next (coreFault s1 h.core.idx evIntPoisonPredicate 0 0)) ∧
    (bs.any (·.2) = false →
      ∀ v ok, v = leNat (bs.map (·.1)) →
        (f.cmp = 0 ∧ ok = decide (v = f.imm.toNat) ∨ f.cmp = 1 ∧ ok = decide (v ≠ f.imm.toNat) ∨
          f.cmp = 2 ∧ ok = decide (f.imm.toNat ≤ v) ∨ f.cmp = 3 ∧ ok = decide (v < f.imm.toNat)) →
        exec (.poll h f) s = .next (if ok then nextPlay (setSreg s1 h.core.idx f.sd.val (BitVec.ofNat 64 v) 0) h.core.idx
          else s1))) ∧
  (∀ (s t : State) (h : PlayHdr) (f : FmtY) (a : Nat), Runs s h →
    sregBad (getCore s h.core.idx) f.sa.val = false → (sreg (getCore s h.core.idx) f.sa.val).toNat = a →
    ReachesAddr s h.core.idx a 8 8 false →
    ((getCore s h.core.idx).unperformed ≠ 0 →
      exec (.rel h f) s = .next (modCore s h.core.idx fun c => { c with wait := .performed })) ∧
    ((getCore s h.core.idx).unperformed = 0 →
      writeWords s h.core.idx (store8 a (sreg (getCore s h.core.idx) f.sd.val)
        (sregPoison (getCore s h.core.idx) f.sd.val)) = (t, true) →
      exec (.rel h f) s = .next (nextPlay t h.core.idx))) ∧
  (∀ (s : State) (h : PlayHdr) (f : FmtY), Runs s h →
    exec (.fence h f) s = .next (if (getCore s h.core.idx).unperformed = 0 then nextPlay s h.core.idx
      else modCore s h.core.idx fun c => { c with wait := .performed })) ∧
  (∀ (s : State) (h : PlayHdr) (f : FmtY), Runs s h →
    (f.inv = true → exec (.invr h f) s = .next (coreAt s h.core.idx
      { getCore s h.core.idx with rcache := [] } ((getCore s h.core.idx).pc + 1))) ∧
    (∀ d, f.inv = false → takeOperands (getCore s h.core.idx) [(f.da.val, 0)] = .ok [d] →
      Reaches s h.core.idx [d] →
      exec (.invr h f) s = .next (nextPlay ((deviceLines [d]).foldl
        (fun s l => modCore s h.core.idx fun c => { c with rcache := c.rcache.filter fun e => e.1 ≠ l }) s) h.core.idx)))

/-- On a core that runs the play and names a script of its table: BLATCH, whose vector fits the group that its parameter names, on a stack whose near-bank half runs and with the charge allowed, sends one chunk to each bank of the group in every channel of it and the core has as many more accesses that are not performed; the stack drops it, with the code logged, for a bad parameter or a half that does not run. BISSUE waits while an access is not performed, else hands the script to its stack under the ticket. BAWAIT of a ticket that has ended gives its status to the register and frees the ticket; of one in use it waits. BABORT gives the status of a ticket that has ended, 2 where the script had completed; of one in use it aborts the script unless it is aborted already, and waits. -/
def Obligations.BankPlays : Prop :=
  (∀ (s : State) (h : PlayHdr) (f : FmtB) (p : Script) (d : Desc) (g : ScriptOp) (par : W64) (k : Nat), Runs s h →
    playScript s h.core.idx f = some p → takeOperands (getCore s h.core.idx) [(f.din.val, 0)] = .ok [d] →
    sregBad (getCore s h.core.idx) f.sp.val = false → sreg (getCore s h.core.idx) f.sp.val = par →
    groupOf p (parGroup par) = some g → elemCount d = chunkOf g * (opSlots g).length → latchOperand d = true →
    Reaches s h.core.idx [d] →
    k = elemCount d + (if d.block = 0 then 0 else elemCount d / 32) →
    (parClean par = false →
      exec (.blatch h f) s = .next (nextPlay (dropLatch s (scriptStack s p) p evTnsScriptParam h.core.idx) h.core.idx)) ∧
    (parClean par = true → halfUp s (scriptStack s p) = false →
      exec (.blatch h f) s =
        .next (nextPlay (dropLatch s (scriptStack s p) p evTnsScriptUnavailable h.core.idx) h.core.idx)) ∧
    (parClean par = true → halfUp s (scriptStack s p) = true →
      coreMayCharge s h.core.idx p.table (scriptStack s p) k = true →
      ∀ fs s1, fs = latchChunks s h.core.idx (scriptStack s p) f.latch.val p par g d
          (gather (coreView (getCore s h.core.idx) []) d) →
        s1 = coreCharge s h.core.idx p.table (scriptStack s p) k →
        exec (.blatch h f) s = .next (nextPlay (modCore { s1 with latchFlight := s1.latchFlight ++ fs } h.core.idx
          fun c => { c with unperformed := c.unperformed + fs.length }) h.core.idx))) ∧
  (∀ (s : State) (h : PlayHdr) (f : FmtB) (p : Script), Runs s h → playScript s h.core.idx f = some p →
    (∃ d, takeOperands (getCore s h.core.idx) [(f.dout.val, 0)] = .ok [d] ∧ doutFits p d = true ∧
      Reaches s h.core.idx [d]) →
    sregBad (getCore s h.core.idx) f.sp.val = false →
    sget Ticket.free (getCore s h.core.idx).tickets f.ticket.val = .free →
    ((getCore s h.core.idx).unperformed ≠ 0 →
      exec (.bissue h f) s = .next (modCore s h.core.idx fun c => { c with wait := .performed })) ∧
    ((getCore s h.core.idx).unperformed = 0 →
      exec (.bissue h f) s = .next (nextPlay (startScript s h.core.idx p f) h.core.idx))) ∧
  (∀ (s : State) (h : PlayHdr) (f : FmtB) (st : Nat) (i : Instr) (v : Nat), Runs s h →
    sget Ticket.free (getCore s h.core.idx).tickets f.ticket.val = .ended st →
    (i = .bawait h f ∧ v = st ∨ i = .babort h f ∧ v = if st = 0 then 2 else st) →
    exec i s = .next (coreAt s h.core.idx
      (withReg { getCore s h.core.idx with tickets := sput Ticket.free (getCore s h.core.idx).tickets f.ticket.val .free }
        f.sd.val (BitVec.ofNat 64 v) 0) ((getCore s h.core.idx).pc + 1))) ∧
  (∀ (s : State) (h : PlayHdr) (f : FmtB) (stack : Nat) (g : BitVec 8), Runs s h →
    sget Ticket.free (getCore s h.core.idx).tickets f.ticket.val = .busy stack g →
    exec (.bawait h f) s = .next (modCore s h.core.idx fun c => { c with wait := .ticket f.ticket.val }) ∧
    (∀ r, runAt (getStack s stack) (h.core.idx, f.ticket.val, g) = some r → r.abort = true →
      exec (.babort h f) s = .next (modCore s h.core.idx fun c => { c with wait := .ticket f.ticket.val })) ∧
    (∀ r, runAt (getStack s stack) (h.core.idx, f.ticket.val, g) = some r → r.abort = false →
      exec (.babort h f) s =
        .next (stopRun (modCore s h.core.idx fun c => { c with wait := .ticket f.ticket.val }) stack r 1)))

/-- On a core that runs the play, with the checks before the ticket’s passed: BISSUE on a ticket that is not free, and BAWAIT and BABORT on a free ticket, fault the core with TNS_TICKET and have no other effect. -/
def Obligations.TicketFaults : Prop :=
  (∀ (s : State) (h : PlayHdr) (f : FmtB) (p : Script), Runs s h → playScript s h.core.idx f = some p →
    (∃ d, takeOperands (getCore s h.core.idx) [(f.dout.val, 0)] = .ok [d] ∧ doutFits p d = true ∧
      Reaches s h.core.idx [d]) →
    sregBad (getCore s h.core.idx) f.sp.val = false →
    sget Ticket.free (getCore s h.core.idx).tickets f.ticket.val ≠ .free →
    exec (.bissue h f) s = .next (coreFault s h.core.idx evTnsTicket 0 0)) ∧
  (∀ (s : State) (h : PlayHdr) (f : FmtB), Runs s h →
    sget Ticket.free (getCore s h.core.idx).tickets f.ticket.val = .free →
    exec (.bawait h f) s = .next (coreFault s h.core.idx evTnsTicket 0 0) ∧
    exec (.babort h f) s = .next (coreFault s h.core.idx evTnsTicket 0 0))

/-- For an address that a stack holds, with no parity failure: a write to a line that its kitty holds, which nothing back-invalidates, overlays its bytes on the kitty’s copy, makes it dirty, and sets or clears the poison of the words it writes; another agent’s write to a line that no kitty holds enters the write-combining buffer of its channel; a read of a line that the kitty holds changes nothing, and a core’s read of one that it does not hold fills the kitty with the line as the stack’s controller gives it; an access that Table 15.5 makes back-invalidate the host’s copy does that and nothing else. An aligned atomic on a line that its powered kitty holds and the host does not stores the operation’s result on the old value, unless the operand or a word it reads is poisoned: then the stored value is a free one and poisoned. A word that fails its parity as it is read drops a clean line. -/
def Obligations.KittyEvents : Prop :=
  (∀ (s : State) (n addr : Nat) (bs : List Byte) (p : Bool) (c : CLine), populated addr = true →
    hostHolds s (lineDpa (addr / 64)) = none → kittyOn s (addr / 64) = true → kittyGet s (addr / 64) = some c →
    exec (.kittyAccess (.core n) addr (some bs) p false) s = .next (kittySet s (addr / 64)
      (some (overlay c (patchLine 0 (addr % 64) bs) (accessMask addr bs.length) (if p then 0xFFFF else 0) true)))) ∧
  (∀ (s : State) (who : Agent) (addr : Nat) (bs : List Byte) (p : Bool), populated addr = true →
    hostHolds s (lineDpa (addr / 64)) = none → (who = .firmware ∨ who = .cxl ∨ who = .fabric) →
    (∀ c, kittyGet s (addr / 64) = some c →
      exec (.kittyAccess who addr (some bs) p false) s = .next (kittySet s (addr / 64)
        (some (overlay c (patchLine 0 (addr % 64) bs) (accessMask addr bs.length) (if p then 0xFFFF else 0) true)))) ∧
    (kittyGet s (addr / 64) = none → who = .cxl →
      exec (.kittyAccess who addr (some bs) p false) s = .next (enterWcb s (accessEntry addr bs p))) ∧
    (kittyGet s (addr / 64) = none → who ≠ .cxl → lineCharges s (addr / 64) = true →
      exec (.kittyAccess who addr (some bs) p false) s = .next (enterWcb (chargeLine s (addr / 64)) (accessEntry addr bs p))) ∧
    (kittyGet s (addr / 64) = none → who ≠ .cxl → lineCharges s (addr / 64) = false →
      exec (.kittyAccess who addr (some bs) p false) s =
        .next (waitCross s (addr / 64) 64 (.lineWrite (accessEntry addr bs p))))) ∧
  (∀ (s : State) (who : Agent) (addr : Nat) (c : CLine), populated addr = true →
    hostHolds s (lineDpa (addr / 64)) = none → kittyGet s (addr / 64) = some c →
    exec (.kittyAccess who addr none false false) s = .next s) ∧
  (∀ (s s1 : State) (n addr : Nat) (v : Line × Bool), populated addr = true →
    hostHolds s (lineDpa (addr / 64)) = none → kittyOn s (addr / 64) = true → kittyGet s (addr / 64) = none →
    lineCrossing s (addr / 64) = false →
    lineCharges s (addr / 64) = true → ∀ t, t = chargeLine s (addr / 64) → readHeld t (addr / 64) = false →
    ctlRead t (.core n) (addr / 64) 0 = (s1, some v) →
    exec (.kittyAccess (.core n) addr none false false) s = .next (kittySet (linesRoom s1 [addr / 64]) (addr / 64)
      (some { data := v.1, poison := if v.2 then 0xFFFF else 0, dirty := false }))) ∧
  (∀ (s : State) (who : Agent) (addr : Nat) (write : Option (List Byte)) (p ex : Bool), populated addr = true →
    hostHolds s (lineDpa (addr / 64)) = some ex → invalidates who write.isSome = true →
    exec (.kittyAccess who addr write p false) s =
      .next (backInvalidate s (lineDpa (addr / 64)) (agentWaiter who addr write p))) ∧
  (∀ (s : State) (addr : Nat) (op : Fin 7) (x y : W64) (p : Bool) (c : CLine), populated addr = true →
    addr % atomBytes op.val = 0 → kittyOn s (addr / 64) = true → hostHolds s (lineDpa (addr / 64)) = none →
    kittyGet s (addr / 64) = some c →
    let k := atomBytes op.val
    let bad := p || bitOf c.poison.toNat (addr % 64 / 4) || (k = 8 && bitOf c.poison.toNat (addr % 64 / 4 + 1))
    let old := fieldOf c.data.toNat (8 * (addr % 64)) (8 * k)
    (bad = false → exec (.kittyAtomic addr op x y p) s = .next (kittySet s (addr / 64) (some (patchC c (addr % 64)
      (leBytes k (atomResult op.val old (x.toNat % 2 ^ (8 * k)) (y.toNat % 2 ^ (8 * k)))) false)))) ∧
    (bad = true → exec (.kittyAtomic addr op x y p) s = .next (kittySet { s with freeNext := s.freeNext + 1 } (addr / 64)
      (some (patchC c (addr % 64) (leBytes k (Config.freeValue s.freeNext).toNat) true))))) ∧
  (∀ (s : State) (n addr : Nat) (c : CLine), populated addr = true → hostHolds s (lineDpa (addr / 64)) = none →
    kittyOn s (addr / 64) = false → kittyGet s (addr / 64) = some c → c.dirty = false →
    exec (.kittyAccess (.core n) addr none false true) s = .next
      (kittySet { s with pathReplays := satInc 0xFFFF s.pathReplays } (addr / 64) none))

/-- The oldest arrive on its way from a cluster to a trick’s home cluster adds its plays to ARRIVED; where ARRIVED does not reach EXPECTED by it, nothing else changes. Where it does, on a trick that is not spanning and closes no round, ARRIVED is 0 again, EPOCH has grown by one and the release goes to the member clusters. The oldest release on its way to a cluster gives that cluster the epoch it carries and lets the members of the cluster that wait on the trick go on. With no such message on its way nothing changes. -/
def Obligations.TrickMessages : Prop :=
  (∀ (s : State) (c : Fin 64) (trick k : Nat) (rest : List (Nat × Nat × Nat)) (e : TrickEntry) (d : Deck),
    takeFirst (fun x : Nat × Nat × Nat => x.1 = c.val && x.2.1 = trick) s.arrives = some ((c.val, trick, k), rest) →
    deckOf s = some d → trickEntry s trick = some e → e.trick = trick → 0 < k →
    ((getTrick s trick).arrived + k ≠ (getTrick s trick).expected →
      exec (.localTrickArrive c trick) s = .next (setTrick { s with arrives := rest } trick
        { getTrick s trick with arrived := (getTrick s trick).arrived + k })) ∧
    ((getTrick s trick).arrived + k = (getTrick s trick).expected → e.spanning = false →
      closingTrick d e.table ≠ some trick →
      exec (.localTrickArrive c trick) s = .next (sendReleases (setTrick
        (setTrick { s with arrives := rest } trick { getTrick s trick with arrived := (getTrick s trick).arrived + k }) trick
        { getTrick s trick with
          arrived := 0, childArrived := 0, sent := false, epoch := (getTrick s trick).epoch + 1 }) e))) ∧
  (∀ (s : State) (c : Fin 64) (trick : Nat),
    takeFirst (fun x : Nat × Nat × Nat => x.1 = c.val && x.2.1 = trick) s.arrives = none →
    exec (.localTrickArrive c trick) s = .next s) ∧
  (∀ (s : State) (c : Fin 64) (trick : Nat) (ep : W32) (rest : List (Nat × Nat × W32)),
    takeFirst (fun x : Nat × Nat × W32 => x.1 = c.val && x.2.1 = trick) s.releases = some ((c.val, trick, ep), rest) →
    exec (.localTrickRelease c trick) s = .next { s with
      releases := rest,
      known := sput 0 s.known (knownKey trick c.val) ep,
      cores := s.cores.map fun x =>
        if x.1 / 64 = c.val ∧ (x.2.wait = .trickIssue trick ∨ x.2.wait = .trickRelease trick) then
          (x.1, { x.2 with wait := .none }) else x }) ∧
  (∀ (s : State) (c : Fin 64) (trick : Nat),
    takeFirst (fun x : Nat × Nat × W32 => x.1 = c.val && x.2.1 = trick) s.releases = none →
    exec (.localTrickRelease c trick) s = .next s)

/-- The oldest push on its way on a stream lands when it carries the module’s generation: its bytes are in the consumer’s scratch, DELIVERED and the consumer’s tally grow by its units, a CTAKE that waits on the stream looks again and one access of the producer is performed; under another generation only the tally grows; the tally marks that were behind it move up by one push. The oldest credits on their way reach the producer end: within what is outstanding they are added to AVAIL and a waiting CTAKE looks again; more than that stops the stream. A transfer sent on a path while others are retained is retained behind them, at most 16, and not taken; the oldest one is tested as it comes, first or replayed: with even parity in every word it is accepted, leaves the retained ones and clears the count of failures; the first three failures are counted; the fourth steers the lane onto a spare and logs it where the path has one left, and inside a core faults the core and, from the second time on, marks it bad. A path that has failed takes no more. -/
def Obligations.PushCreditPathEvents : Prop :=
  (∀ (s : State) (stream : Nat) (p : PushFlight) (rest : List PushFlight) (e : StreamEntry),
    takeFirst (fun p : PushFlight => p.stream = stream) s.pushes = some (p, rest) → streamEntry s stream = some e →
    (p.gen = s.gen → exec (.onDiePushLanding stream) s = .next (marksMove (performWrites (wakeCores (modStream
      (landBytes { s with pushes := rest } (coreOfField e.consumer) p.bytes) stream fun k =>
        { k with delivered := k.delivered + p.units, ctally := k.ctally + BitVec.ofNat 32 p.units }) (.credits stream))
      p.producer 1) stream e.table)) ∧
    (p.gen ≠ s.gen → exec (.onDiePushLanding stream) s = .next (marksMove (modStream { s with pushes := rest } stream fun k =>
      { k with ctally := k.ctally + BitVec.ofNat 32 p.units }) stream e.table))) ∧
  (∀ (s : State) (stream count : Nat) (rest : List (Nat × Nat)) (e : StreamEntry),
    takeFirst (fun x : Nat × Nat => x.1 = stream) s.creditFlight = some ((stream, count), rest) →
    streamEntry s stream = some e → e.stream = stream → (getStream s stream).stopped = false →
    (count ≤ e.initial - (getStream s stream).avail - (getStream s stream).taken →
      exec (.onDieCreditReturn stream) s = .next (wakeCores (setStream { s with creditFlight := rest } stream
        { getStream s stream with avail := (getStream s stream).avail + count }) (.credits stream))) ∧
    (e.initial - (getStream s stream).avail - (getStream s stream).taken < count →
      ∀ t, t = logGen { s with creditFlight := rest } evSynCreditOverflow (0x10 + coreOfField e.producer / 64) (some e.table)
          [w32 stream] [] →
        exec (.onDieCreditReturn stream) s = .next (requestAbort
          (stopStream t e (evSynCreditOverflow.word (0x10 + coreOfField e.producer / 64)))
          (evSynCreditOverflow.word (0x10 + coreOfField e.producer / 64))))) ∧
  (∀ (s : State) (path : PathId) (replay : Bool) (sent : List W32) (received : List (W32 × Bool)) (lane : Nat) (v : Path),
    getPath s path = v →
    (v.failed = true → exec (.pathTransferReceive path replay sent received lane) s = .next s) ∧
    (v.failed = false → replay = false → v.retained ≠ [] →
      exec (.pathTransferReceive path replay sent received lane) s =
        .next (if v.retained.length < 16 then setPath s path { v with retained := v.retained ++ [sent] } else s)) ∧
    (v.failed = false → (replay = true ∧ v.retained ≠ [] ∨ replay = false ∧ v.retained = []) →
      ∀ u, u = (if replay then v else { v with retained := [sent] }) →
      (received.all evenParity = true → exec (.pathTransferReceive path replay sent received lane) s = .next
        (setPath s path { u with failures := 0, retained := u.retained.drop 1, last := received.map (·.1) })) ∧
      (received.all evenParity = false → v.failures < 3 → exec (.pathTransferReceive path replay sent received lane) s = .next
        (setPath { s with pathReplays := satInc 0xFFFF s.pathReplays } path { u with failures := v.failures + 1 })) ∧
      (received.all evenParity = false → 3 ≤ v.failures → (∀ n, path ≠ .coreInside n) → 0 < v.spares.getD (pathSpares path) →
        ∀ t, t = setPath s path { u with
            failures := 0, steered := v.steered ++ [lane], spares := some (v.spares.getD (pathSpares path) - 1) } →
          exec (.pathTransferReceive path replay sent received lane) s = .next
            (logGen { t with lanesSpared := satInc 0xFF t.lanesSpared } evIntPathLaneSpared (pathUnit path) none
              [w32 lane] [])) ∧
      (∀ n, path = .coreInside n → received.all evenParity = false → 3 ≤ v.failures →
        ∀ t, t = setPath s path { u with failures := 0, retained := [], strikes := v.strikes + 1 } →
          ∀ t', t' = { t with pathsFailed := satInc 0xFF t.pathsFailed } →
            exec (.pathTransferReceive path replay sent received lane) s = .next
              (coreFault (if v.strikes = 0 then t' else markBad t' n) n evIntPathFailed 0 0))))

/-- With the array in canonical form and lines that lie in their own columns or in one of the four spare column pairs of their bank: after a full-line write of data with a poison flag at a place, the stored line at that place is the data with their CRC-32C check, it passes its test, and it is poisoned exactly when the write was; the other lines of its row that lie in other columns, and every line of every other physical row, are stored as before. -/
def Obligations.WrittenLineReadsBack : Prop :=
  ∀ (s : State) (p q : Place) (data : Line) (poison : Bool), s.arrayOk → p.line < 16 → q.line < 16 →
    sget 0 (getStack s p.stack).columns (16 * p.bank + p.line) ≤ 4 → sget 0 (getStack s q.stack).columns (16 * q.bank + q.line) ≤ 4 →
    readRaw (writeLine s p data poison) p = { data := data, check := lineCheck data, flags := if poison then 1 else 0 } ∧
    (readRaw (writeLine s p data poison) p).pass = true ∧
    (readRaw (writeLine s p data poison) p).poisoned = poison ∧
    (rowBase s q.stack q.bank q.row ≠ rowBase s p.stack p.bank p.row ∨
      (rowBase s q.stack q.bank q.row = rowBase s p.stack p.bank p.row ∧ q.line ≠ p.line ∧
        lineOff (getStack s q.stack) q.bank q.line ≠ lineOff (getStack s p.stack) p.bank p.line) →
      readRaw (writeLine s p data poison) q = readRaw s q)

/-- For an address that a stack holds, with the charge of the line’s regulator allowed or, for a host read, not asked: a LINE_READ whose line the kitty or the controller can give now hands it to its consumer, a host read as one answer; a LINE_WRITE enters the buffer of its channel. A full-line write into a buffer with a place free, to a line that has no entry and no repair, is what the next read of the line gets, before anything is written to the array. Where the charge is not allowed the transfer waits behind the regulator. An entry that drains with a full line, which nothing holds, is written to the array as one line, its place is free and accesses that wait are taken in. A controller under reset that has not drained in time loses the entries of its buffer. -/
def Obligations.LineTraffic : Prop :=
  (∀ (s s1 : State) (who : Consumer) (addr dist : Nat) (v : Line × BitVec 16), populated addr = true →
    (chargedReader who = true → lineCharges s (addr / 64) = true) →
    fetchOutside (if chargedReader who then chargeLine s (addr / 64) else s) who (addr / 64) dist = (s1, some v) →
    exec (.lineRead who addr dist) s = .next (deliver s1 who (addr / 64) v)) ∧
  (∀ (s : State) (hpa addr dist : Nat) (c : CLine), populated addr = true → kittyGet s (addr / 64) = some c → c.poison = 0 →
    exec (.lineRead (.host hpa) addr dist) s = .next { s with
      host := { s.host with out := s.host.out ++ [.memRsp hpa c.data false] } }) ∧
  (∀ (s : State) (addr : Nat) (data : Line) (mask : BitVec 64) (p : Bool), populated addr = true →
    lineCharges s (addr / 64) = true →
    exec (.lineWrite addr data mask p) s = .next (enterWcb (chargeLine s (addr / 64))
      { line := addr / 64, data := data, mask := mask, poison := if p then 0xFFFF else 0, sender := .none })) ∧
  (∀ (s : State) (addr : Nat) (data : Line) (p : Bool) (who : Consumer) (f : Nat), populated addr = true →
    lineOwner s (addr / 64) = none → underRepair s (addr / 64) = false →
    (getStack s (lineStack (addr / 64))).resetting = false → wcbEntry (getStack s (lineStack (addr / 64))) (addr / 64) = none →
    wcbCount s (lineStack (addr / 64)) (lineChannel s (addr / 64)) < 64 →
    lineQueued (getStack s (lineStack (addr / 64))) (addr / 64) = false → lineCrossing s (addr / 64) = false →
    areaLine s (addr / 64) = none →
    ∃ t, exec (.lineWrite addr data fullMask p) s = .next t ∧ t.array = s.array ∧
      ctlRead t who (addr / 64) f = (t, some (data, p))) ∧
  (∀ (s : State) (addr t : Nat) (data : Line) (mask : BitVec 64) (p : Bool) (who : Consumer) (dist : Nat),
    populated addr = true → lineOwner s (addr / 64) = some t → lineCharges s (addr / 64) = false →
    exec (.lineWrite addr data mask p) s = .next { s with
      regWait := s.regWait ++ [(pairOf t (lineStack (addr / 64)), 64,
        .lineWrite { line := addr / 64, data := data, mask := mask, poison := if p then 0xFFFF else 0, sender := .none })] } ∧
    (chargedReader who = true → exec (.lineRead who addr dist) s = .next { s with
      regWait := s.regWait ++ [(pairOf t (lineStack (addr / 64)), 64, .lineRead who addr dist)] })) ∧
  (∀ (s : State) (stack : Fin 8) (line d : Nat) (e : WcbEntry), wcbEntry (getStack s stack.val) line = some e →
    lineStack line = stack.val → (getStack s stack.val).draining.contains line = true → drainHeld s line = false →
    e.mask = fullMask →
    ∀ t, t = writeLine (openRow (modStack s stack.val fun k => dropEntry k line) (linePlace s line).stack
        (linePlace s line).bank (linePlace s line).row) (linePlace s line) e.data (decide (e.poison ≠ 0)) →
      exec (.wcbDrainDone stack line d) s = .next (settleBi (pump
        (markDrains (clearUnrepaired (unrefuse t line) line) stack.val line) stack.val))) ∧
  (∀ (s t : State) (stack : Fin 8), t = expire s (.drain stack.val) 10000 →
    (getStack s stack.val).resetting = true → (getStack t stack.val).resetting = true →
    exec (.wcbDrainTimeout stack) s = .next (setStack t stack.val { getStack t stack.val with
      undrained := (getStack t stack.val).undrained ++ (getStack t stack.val).wcb.map (·.line), wcb := [], draining := [] }))

/-- A refresh that falls due starts on each bank of the slot that runs no row operation, scrub row or refresh, and waits for the row boundary of the others; channels that are all in self-refresh do nothing. The end of a bank’s refresh frees the bank, which meets a row boundary. A write that has been held for the budget is refused by its kind, while writes are held and the refused-line list is not full: a waiting write of the host or the fabric with its sender’s other waiting writes, a held rewrite of the integrity rules or a buffered entry with its line put on the refused-line list, a script’s store by a fault of the script. With nothing held for the line, with the list full, or with no hold, nothing changes. -/
def Obligations.RefreshAndHeldWrites : Prop :=
  (∀ (s : State) (n : Fin 8) (slot : Fin 24),
    ((∀ c, chanAsleep s n.val c = true) → exec (.refreshDue n slot) s = .next (setStack s n.val (getStack s n.val))) ∧
    ((getStack s n.val).selfRefresh = false → exec (.refreshDue n slot) s =
      .next (setStack s n.val (((List.range 32).map (32 * slot.val + ·)).foldl refreshBank (getStack s n.val))))) ∧
  (∀ (k : Stack) (bank : Nat), bankInRow k bank = false → k.scrub.active.contains bank = false →
    k.refreshing.contains bank = false → k.earlyOpens.any (·.bank = bank) = false →
    refreshBank k bank = { k with
      refreshing := k.refreshing ++ [bank],
      openRows := sput none (sput none k.openRows (2 * bank) none) (2 * bank + 1) none }) ∧
  (∀ (s : State) (n : Fin 8) (bank : Fin 768), (getStack s n.val).refreshing.contains bank.val = true →
    exec (.refreshDone n bank) s = .next (bankBoundary (setStack s n.val { getStack s n.val with
      refreshing := (getStack s n.val).refreshing.filter (· ≠ bank.val) }) n.val bank.val)) ∧
  (∀ (s : State) (n : Fin 8) (line : Nat),
    ((getStack s n.val).writeHold = false ∨ (getStack s n.val).refusedFull = true) →
    exec (.writeHoldExpiry n line) s = .next s) ∧
  (∀ (s : State) (n : Fin 8) (line : Nat), (getStack s n.val).writeHold = true → (getStack s n.val).refusedFull = false →
    lineStack line = n.val →
    ∀ t, t = holdOver s n.val line →
    (∀ w, heldSender (getStack s n.val) line = some w →
      ∀ u, u = refuseSender t n.val w →
        exec (.writeHoldExpiry n line) s = .next (bankBoundary u n.val (linePlace u line).bank)) ∧
    (heldSender (getStack s n.val) line = none →
      (∀ w, (getStack s n.val).heldWrites.find? (fun w => w.line = some line) = some w →
        ∀ u, u = refuseHeld t n.val w line →
          exec (.writeHoldExpiry n line) s = .next (bankBoundary u n.val (linePlace u line).bank)) ∧
      ((getStack s n.val).heldWrites.find? (fun w => w.line = some line) = none →
        ((wcbEntry (getStack s n.val) line).isSome = true →
          ∀ u, u = refuseLine (setStack t n.val (dropEntry (getStack t n.val) line)) line →
            exec (.writeHoldExpiry n line) s = .next (bankBoundary u n.val (linePlace u line).bank)) ∧
        (wcbEntry (getStack s n.val) line = none → ∀ r c, heldStore s line = some (r, c) →
          ∀ u, u = expire s (.rowHold n.val c) (budgetOf s) →
            exec (.writeHoldExpiry n line) s = .next (faultRun (logRefused u line) n.val r evTnsScriptWriteRefused
              (c % 32) (c / 32) (w32 (linePlace u line).row))))))

/-- The oldest chunk for a bank unit, its half on and its latch read by no operation, enters the latch, counts as one performed write of its core, and may open rows early; where the half is off it is dropped with every chunk of its BLATCH. A run that stands at an operation, no line of its regions held by the host, starts it on the operation’s banks where every check passes, faults with the first check that fails, and is complete at END with no result left. The first waiting bank that can start does, and leaves the queue. A bank whose row operation ends meets its row boundary: with rows left it goes on, after its last row it returns its permit, its channel’s results go on their way and the run goes to its next operation; an aborted run’s bank stops; a line under repair holds the bank. The row on the exchange bus reaches its banks where its run goes on, else it is dropped and counted; the bus then takes a waiting row whose destinations have begun the operation and have their row latch free. A result that the stack’s regulator admits reaches its element of d[DOUT], another waits for its charge; one of an older generation is dropped and counted. -/
def Obligations.ScriptRunEvents : Prop :=
  (∀ (s : State) (n : Fin 8) (bank : Fin 768) (f : LatchFlight) (rest : List LatchFlight),
    takeFirst (fun f : LatchFlight => f.stack = n.val && f.bank = bank.val) s.latchFlight = some (f, rest) →
    (halfUp s f.stack = true → latchBusy s f.stack f.bank f.latch = false →
      exec (.latchWrite n bank) s = .next (earlyOpen (performWrites
        (setStack { s with latchFlight := rest } f.stack { getStack s f.stack with
          latches := sput Latch.empty (getStack s f.stack).latches (4 * f.bank + f.latch) f.content }) f.core 1) f)) ∧
    (halfUp s f.stack = true → latchBusy s f.stack f.bank f.latch = true → exec (.latchWrite n bank) s = .next s) ∧
    (halfUp s f.stack = false → ∀ p : LatchFlight → Bool,
      p = (fun g => decide (g.id = f.id)) →
      exec (.latchWrite n bank) s = .next (performWrites
        (dropLatch { s with latchFlight := s.latchFlight.filter fun g => !p g } f.stack f.card evTnsScriptUnavailable
          (f.core % 4096)) f.core (s.latchFlight.filter p).length))) ∧
  (∀ (s : State) (n : Fin 8) (core : CoreId) (ticket : Fin 4) (r : ScriptRun) (o : ScriptOp) (s1 : State),
    runOf (getStack s n.val) core.idx ticket.val = some r → r.active = false → r.abort = false → heldByHost s r = [] →
    r.card.ops[r.opIdx]? = some o → o.op ≠ 1 →
    s1 = setStack s n.val (modRun (getStack s n.val) (runKey r) fun _ => r) →
    (o.op = 0 → exec (.scriptOperationStart n core ticket) s = .next (completeRun s1 n.val (runKey r))) ∧
    (o.op ≠ 0 → ∀ e, opRefusal s1 n.val r o = some e → exec (.scriptOperationStart n core ticket) s =
      .next (faultRun s1 n.val r e.1 (e.2.1 % 32) (e.2.1 / 32) (w32 e.2.2))) ∧
    (o.op ≠ 0 → opRefusal s1 n.val r o = none → exec (.scriptOperationStart n core ticket) s =
      .next (startWaiting false n.val ((banksOf o).map fun b => (runKey r, b))
        ((getStack s1 n.val).permitWait.map (·.2))
        (setStack s1 n.val { modRun (getStack s1 n.val) (runKey r)
            (fun _ => { r with active := true, banks := (banksOf o).map newBank }) with
          permitWait := (getStack s1 n.val).permitWait ++ (banksOf o).map fun b => (runKey r, b) })))) ∧
  (∀ (s t : State) (n : Fin 8) (w : RunKey × Nat) (rest : List (RunKey × Nat)),
    (getStack s n.val).permitWait = w :: rest → startBank s n.val w = (t, true) →
    exec (.streamingPermitTaken n) s = .next (setStack t n.val { getStack t n.val with
      permitWait := (getStack t n.val).permitWait.filter (· ≠ w) })) ∧
  (∀ (k k' : Stack) (r : ScriptRun) (o : ScriptOp) (bank : Nat), takePermit k r o bank = some k' → k.permits ≤ 384 →
    k'.permits ≤ 384 ∧ (k.earlyOpens = [] → k'.permits = k.permits + 1)) ∧
  (∀ (s s1 : State) (n : Fin 8) (core : CoreId) (ticket : Fin 4) (bank : Fin 768) (d : List (Nat × Nat)) (r : ScriptRun)
    (o : ScriptOp) (b : BankRun) (st : RowStep), rowRun (getStack s n.val) core.idx ticket.val bank.val = some (r, b) →
    opOf r = some o → nextStep r b = some st →
    (∀ line, rowEffect s n.val r b o st d = (s1, .error line) → exec (.rowOperationDone n core ticket bank d) s =
      .next (modBank s1 n.val (runKey r) b.bank fun b => { b with held := some line })) ∧
    (∀ rows s2, rowEffect s n.val r b o st d = (s1, .ok rows) →
      s2 = modBank s1 n.val (runKey r) b.bank (fun b => { b with inRow := false, done := b.done + 1, rows := rows }) →
      (r.abort = true → exec (.rowOperationDone n core ticket bank d) s = .next (grantBus (bankBoundary
        (stopDone (bankEnded s2 n.val (runKey r) b.bank) n.val (runKey r)) n.val b.bank) n.val)) ∧
      (r.abort = false → b.done + 1 < (bankSteps o r.rowAdd b.bank).length →
        exec (.rowOperationDone n core ticket bank d) s = .next (grantBus (bankBoundary s2 n.val b.bank) n.val)) ∧
      (r.abort = false → (bankSteps o r.rowAdd b.bank).length ≤ b.done + 1 →
        exec (.rowOperationDone n core ticket bank d) s = .next (grantBus (bankBoundary (operationDone
          (channelDone (bankEnded s2 n.val (runKey r) b.bank) n.val (runKey r) (b.bank % 32) o)
          n.val (runKey r) o) n.val b.bank) n.val)))) ∧
  (∀ (s : State) (n : Fin 8),
    ((getStack s n.val).busNow = none → exec (.exchangeBusTransferDone n) s = .next (grantBus s n.val)) ∧
    (∀ x t, (getStack s n.val).busNow = some x →
      ((∃ r, runAt (getStack s n.val) (x.core, x.ticket, x.gen) = some r ∧ r.abort = false) →
        t = setStack s n.val { getStack s n.val with busNow := none } →
        exec (.exchangeBusTransferDone n) s = .next (grantBus (x.dests.foldl (fun s d => landRow s n.val x d) t) n.val)) ∧
      ((∀ r, runAt (getStack s n.val) (x.core, x.ticket, x.gen) = some r → r.abort = true) →
        t = setStack s n.val { getStack s n.val with
          busNow := none, lateDrops := satAdd 0xFFFF (getStack s n.val).lateDrops x.dests.length } →
        exec (.exchangeBusTransferDone n) s = .next (grantBus t n.val)))) ∧
  (∀ (k : Stack) (x : BusXfer) (rest : List BusXfer), nextXfer k = some (x, rest) → xferReady k x = true ∧ x ∈ k.bus) ∧
  (∀ (s : State) (n : Fin 8) (core : CoreId) (ticket : Fin 4),
    (∀ e rest, takeFirst (fun e : Nat × Nat × Nat => e.1 = core.idx && e.2.1 = ticket.val) (getStack s n.val).lateResults =
        some (e, rest) →
      exec (.bankResultDelivery n core ticket) s = .next (setStack s n.val { getStack s n.val with
        lateResults := if 1 < e.2.2 then (e.1, e.2.1, e.2.2 - 1) :: rest else rest,
        lateDrops := satInc 0xFFFF (getStack s n.val).lateDrops })) ∧
    (∀ (r : ScriptRun) (x : Nat × Nat × W32 × Bool) (rest : List (Nat × Nat × W32 × Bool)),
      takeFirst (fun e : Nat × Nat × Nat => e.1 = core.idx && e.2.1 = ticket.val) (getStack s n.val).lateResults = none →
      runOf (getStack s n.val) core.idx ticket.val = some r → r.results = x :: rest → r.abort = false →
      resultWaits s n.val core.idx ticket.val = false →
      (canCharge s r.card.table n.val 4 = false → exec (.bankResultDelivery n core ticket) s =
        .next (waitCharge s r.card.table n.val 4 (.result n.val core.idx ticket.val))) ∧
      (∀ s1, canCharge s r.card.table n.val 4 = true →
        s1 = modStack (charge s r.card.table n.val 4) n.val (fun k => modRun k (runKey r) fun r => { r with results := rest }) →
        inBound (parseDesc r.doutDesc) [x.2.1, x.1, 0, 0, 0, 0] = true →
        exec (.bankResultDelivery n core ticket) s = .next (completeRun
          (commitWords s1 r.core (putElem (parseDesc r.doutDesc) [] [x.2.1, x.1, 0, 0, 0, 0] x.2.2.1.toNat x.2.2.2))
          n.val (runKey r)))))

/-- A running scrubber starts a scrub row on an idle bank that has a row left. In trump every bank with rows left that runs no scrub row owes one, and the banks in no row operation meet a row boundary at once. A scrub row that ends frees its bank, reads and tests the bank’s next row, moves the bank’s cursor past it and counts the row; the lap ends when every row has been read, and the bank meets a row boundary. With less than three quarters of the rows read at three quarters of the deadline the scrubber goes to trump and that is logged, once a lap; a lap that passes its deadline is logged, once a lap. Outside these conditions the three timed events change nothing. -/
def Obligations.ScrubberEvents : Prop :=
  (∀ (s : State) (n : Fin 8) (bank : Fin 768),
    ((getStack s n.val).scrub.running = true → bankIdle s n.val bank.val = true → (scrubRow s n.val bank.val).isSome = true →
      exec (.scrubRowStart n bank) s = .next (setStack s n.val { getStack s n.val with
        scrub := { (getStack s n.val).scrub with active := (getStack s n.val).scrub.active ++ [bank.val] } })) ∧
    ((getStack s n.val).scrub.running = false ∨ bankIdle s n.val bank.val = false ∨ scrubRow s n.val bank.val = none →
      exec (.scrubRowStart n bank) s = .next s)) ∧
  (∀ (s : State) (n : Fin 8),
    ((getStack s n.val).scrub.trump = false → exec (.trumpScrubDue n) s = .next s) ∧
    ((getStack s n.val).scrub.trump = true → ∀ bs : List Nat,
      bs = ((List.range 768).filter fun b => (scrubRow s n.val b).isSome && !(getStack s n.val).scrub.active.contains b) →
      exec (.trumpScrubDue n) s = .next (bs.foldl (fun s b => if bankInRow (getStack s n.val) b then s else bankBoundary s n.val b)
        (setStack s n.val { getStack s n.val with scrub := { (getStack s n.val).scrub with owed := bs } })))) ∧
  (∀ (s s1 : State) (n : Fin 8) (bank : Fin 768) (row : Nat) (d : List (Nat × Nat)),
    (getStack s n.val).scrub.active.contains bank.val = true →
    s1 = setStack s n.val { getStack s n.val with
      scrub := { (getStack s n.val).scrub with active := (getStack s n.val).scrub.active.filter (· ≠ bank.val) } } →
    (scrubRow s1 n.val bank.val = none → exec (.scrubRowDone n bank d) s = .next (bankBoundary s1 n.val bank.val)) ∧
    (scrubRow s1 n.val bank.val = some row → exec (.scrubRowDone n bank d) s = .next (bankBoundary (endLap
      (modScrub (scrubRead s1 n.val bank.val row d) n.val fun c =>
        { c with cursors := sput 0 c.cursors bank.val (row + 1), read := c.read + 1 }) n.val) n.val bank.val))) ∧
  (∀ (s : State) (n bank row : Nat), scrubRow s n bank = some row →
    inRegions s n bank row = true ∧ sget 0 (getStack s n).scrub.cursors bank ≤ row ∧
    ∀ q, sget 0 (getStack s n).scrub.cursors bank ≤ q → q < row → inRegions s n bank q = false) ∧
  (∀ (s : State) (n : Nat), (getStack s n).scrub.running = true → (getStack s n).scrub.total ≤ (getStack s n).scrub.read →
    ∀ ms, ms = ((getStack s n).meter.toNat - (getStack s n).scrub.start) / 100000 →
    endLap s n = startLap (modScrub (logGen s evIntScrubLapDone (uStack n) none [w32 ms] []) n fun c =>
      { c with laps := (c.laps + 1) % 4096, lastLap := ms }) n) ∧
  (∀ (s : State) (n : Fin 8),
    ((getStack s n.val).scrub.running = true → (getStack s n.val).scrub.trump = false →
      4 * (getStack s n.val).scrub.read < 3 * (getStack s n.val).scrub.total →
      exec (.scrubLapTrumpCheck n) s = .next (logGen (setStack s n.val { getStack s n.val with
        scrub := { (getStack s n.val).scrub with trump := true } }) evIntScrubTrump (uStack n.val) none
          [w32 (coverage (getStack s n.val).scrub)] [])) ∧
    ((getStack s n.val).scrub.running = false ∨ (getStack s n.val).scrub.trump = true ∨
      3 * (getStack s n.val).scrub.total ≤ 4 * (getStack s n.val).scrub.read →
      exec (.scrubLapTrumpCheck n) s = .next s) ∧
    ((getStack s n.val).scrub.running = true → (getStack s n.val).scrub.late = false →
      exec (.scrubLapDeadline n) s = .next (logGen (setStack s n.val { getStack s n.val with
        scrub := { (getStack s n.val).scrub with late := true } }) evIntScrubLapLate (uStack n.val) none
          [w32 (coverage (getStack s n.val).scrub)] [])) ∧
    ((getStack s n.val).scrub.running = false ∨ (getStack s n.val).scrub.late = true →
      exec (.scrubLapDeadline n) s = .next s))

/-- A repair entry that fetches nothing is served: with a source that can be reached the line is fetched from it, with none it becomes unreachable. A fetch without a reply makes its line unreachable: the line is written back poisoned, enters the unrepaired list and is released to its consumers with poison, once the write window allows it. Fetched data that verify are logged as a repair, the line leaves the unrepaired list and is released without poison; else it is unreachable. The refetch tick asks again for every line of the unrepaired list that lies in a region of class source. A peer’s answer to a pending entry makes it valid with the peer’s base when size, class and owner agree, else invalid with an event; a retry asks again for every pending entry. -/
def Obligations.SourceRepairEvents : Prop :=
  (∀ (s : State) (n : Fin 8) (line : Nat) (e : Repair), lineStack line = n.val → repairOf s line = some e →
    (e.fetching = false → repairHeld s line = false → ∀ r a, e.region = some r → repairSource s e = some a →
      exec (.sourceRepairReport n line) s = .next (fetchFor s r line a)) ∧
    (e.fetching = false → repairHeld s line = false → repairSource s e = none →
      exec (.sourceRepairReport n line) s = .next (unreachable s line)) ∧
    (e.fetching = true ∨ repairHeld s line = true → exec (.sourceRepairReport n line) s = .next s) ∧
    (e.fetching = true →
      exec (.sourceFetchTimeout n line) s = .next (unreachable (expire s (.source line) 100000) line)) ∧
    (e.fetching = false → exec (.sourceFetchTimeout n line) s = .next s)) ∧
  (∀ (s : State) (line : Nat) (e : Repair), repairOf s line = some e → repairHeld s line = false →
    ((getStack s (lineStack e.line)).writeHold = true → unreachable s line = holdWrite s (lineStack e.line) (.unreach line)) ∧
    ((getStack s (lineStack e.line)).writeHold = false → ∃ s1 u t d,
      s1 = logEvent (poisonAt s (repairPlace e) e.region line 4) evIntSourceUnreachable u t d ∧
      unreachable s line = releaseLine { s1 with
        unrepaired := if s1.unrepaired.contains line then s1.unrepaired else s1.unrepaired ++ [line] } line true)) ∧
  (∀ (s : State) (e : Repair) (r : Region) (a : Nat), e.region = some r → r.srcKind = 1 → repairSource s e = some a →
    (∃ b, (e.base.orElse fun _ => sourceBase s r) = some b ∧ a = b + (lineAddr e.line - r.base)) ∧
    ∀ line t, t = startDeadline s (.source line) →
      fetchFor s r line a = modRepair (sendFrame { t with fabTag := t.fabTag + 1, fabTags := t.fabTags ++ [(r.srcModule, t.fabTag)] }
        r.srcModule r.owner (.memRead t.fabTag a 64)) line (fun e =>
          { e with fetching := true, tag := t.fabTag, gen := t.gen, addr := a })) ∧
  (∀ (s s1 : State) (line : Nat) (data : Line) (f : Nat) (e : Repair), repairOf s line = some e → repairHeld s line = false →
    ((getStack s (lineStack e.line)).writeHold = true →
      repairLine s line data f = holdWrite s (lineStack e.line) (.repair line data f)) ∧
    ((getStack s (lineStack e.line)).writeHold = false →
      (rewriteLine s (repairPlace e) line data f = (s1, false) → repairLine s line data f = unreachable s1 line) ∧
      (rewriteLine s (repairPlace e) line data f = (s1, true) → ∀ p t, p = repairPlace e →
        t = mediaRecord (logRegion s1 e.region evIntLineRepaired p.stack p.bank p.row (2 ^ p.line) 4) evIntLineRepaired false 6
          (dpaOfAddr (lineAddr line)) →
        repairLine s line data f =
          releaseLine (pendSpare (clearUnrepaired t line) p.stack p.bank p.row (2 ^ p.line) false) line false))) ∧
  (∀ s : State, exec .unrepairedRefetchTick s = .next (s.unrepaired.foldl refetch s)) ∧
  (∀ (s : State) (line : Nat) (r : Region) (a : Nat), regionOf s (lineAddr line) = some r → r.cls = .source →
    sourceAddr s r line = some a → r.srcKind = 1 → refetch s line = { (askPeer s r a).1 with
      refetches := (askPeer s r a).1.refetches.filter (·.1 ≠ line) ++ [(line, s.fabTag, s.gen)] }) ∧
  (∀ (s : State) (region : Nat) (r : Region) (a : DirAnswer), sget none s.directory region = some .pending →
    regionNo s region = some r →
    (a.size = r.size → a.cls = .source → a.owner = r.owner → exec (.sourceDirectoryReply region (some a)) s =
      .next { s with directory := sput none s.directory region (some (.valid a.base)) }) ∧
    (a.size ≠ r.size ∨ a.cls ≠ .source ∨ a.owner ≠ r.owner → exec (.sourceDirectoryReply region (some a)) s =
      .next (logGen { s with directory := sput none s.directory region (some .invalid) } evIntSourceMismatch uCtl none
        [w32 region, w32 r.srcModule] [])) ∧
    exec (.sourceDirectoryReply region none) s = .next s) ∧
  (∀ s : State, (∀ e ∈ s.directory, e.2 ≠ some .pending) → exec .sourceDirectoryRetry s = .next s) ∧
  (∀ (s : State) (region : Nat) (r : Region), s.directory = [(region, some .pending)] → regionNo s region = some r →
    exec .sourceDirectoryRetry s = .next (askSource s r))

/-- A cable at a port that is off and may train starts step 1; at any other port only its presence is noted. The peer’s pattern ends step 1. Steps 2 and 3 are followed by the next step; step 4 by the sending of a TRAIN frame and step 5; step 5 ends when the peer’s body is there, whether it is there already or comes as a TRAIN frame: with the version agreed and the neighbour, role and group as the deck says the port becomes ACTIVE at the agreed version, and a member that still forms its group asks again; without a common version it is INCOMPATIBLE and the two bodies are logged. A body that comes in step 4 is kept. A step that exceeds its bound, 50 ms, 5 ms or 1 ms from its beginning, starts training again; the third failed attempt is logged and leaves the port FAILED. -/
def Obligations.PortTraining : Prop :=
  (∀ (s : State) (p : Fin 12), ∀ s1, s1 = setPort s p.val { getPort s p.val with cable := true } →
    ((getPort s p.val).state = .off → mayTrain s1 p.val = true → exec (.cablePresent p) s =
      .next (moveRoutes s1 p.val fun q => { portOff q with state := .training, step := 1, role := roleOf s1 p.val % 0xFF })) ∧
    ((getPort s p.val).state = .off → mayTrain s1 p.val = false → exec (.cablePresent p) s = .next s1) ∧
    ((getPort s p.val).state ≠ .off → exec (.cablePresent p) s = .next s1)) ∧
  (∀ (s : State) (p : Fin 12), (getPort s p.val).state = .training →
    ((getPort s p.val).step = 1 → exec (.trainPatternDetected p) s =
      .next (startDeadline (setPort s p.val { getPort s p.val with step := 2 }) (.trainStep p.val))) ∧
    ((getPort s p.val).step = 2 → exec (.trainStepDone p) s =
      .next (startDeadline (setPort s p.val { getPort s p.val with step := 3 }) (.trainStep p.val))) ∧
    ((getPort s p.val).step = 3 → exec (.trainStepDone p) s =
      .next (startDeadline (setPort s p.val { getPort s p.val with step := 4 }) (.trainStep p.val))) ∧
    ((getPort s p.val).step = 4 → exec (.trainStepDone p) s =
      .next (sendTrain (startDeadline (setPort s p.val { getPort s p.val with step := 5 }) (.trainStep p.val)) p.val)) ∧
    ((getPort s p.val).step = 4 → ∀ b, exec (.train p b) s = .next (setPort s p.val { getPort s p.val with peer := some b })) ∧
    (2 ≤ (getPort s p.val).step → ∀ u, u = expire s (.trainStep p.val)
        (if (getPort s p.val).step = 2 then 5000000 else if (getPort s p.val).step = 3 then 500000 else 100000) →
      ((getPort s p.val).attempts < 2 → exec (.trainStepTimeout p) s =
        .next (moveRoutes u p.val fun q => { portOff q with state := .training, step := 1, attempts := q.attempts + 1 })) ∧
      (2 ≤ (getPort s p.val).attempts → exec (.trainStepTimeout p) s =
        .next (moveRoutes (logGen u evFabTrainFail (uPort p.val) none [w32 (getPort s p.val).step] []) p.val
          fun q => { portOff q with state := .failed, attempts := 3 }))) ∧
    ((getPort s p.val).step < 2 → exec (.trainStepTimeout p) s = .next s)) ∧
  (∀ (s : State) (p : Fin 12) (b : TrainBody) (v : Nat × Nat), (getPort s p.val).state = .training → (getPort s p.val).step = 5 →
    agreedVersion (trainBody s p.val) b = some v → checkBodies s p.val (trainBody s p.val) b = (.active, none) →
    ∀ t, t = joinAgain (startDeadline (setPort s p.val { getPort s p.val with
        peer := some b, state := .active, step := 6, role := roleOf s p.val % 0xFF, verMajor := v.1, verMinor := v.2, recheckDown := false })
          (.flit p.val)) →
      exec (.train p b) s = .next t ∧ ((getPort s p.val).peer = some b → exec (.trainStepDone p) s = .next t)) ∧
  (∀ (s : State) (p : Nat) (own b : TrainBody) (d : Deck), deckOf s = some d → own.role ≠ 3 →
    (agreedVersion own b).isSome = true →
    (checkBodies s p own b).1 = (if b.module = (d.role.neighbours[p]?).getD 0xFFFF ∧ b.role = own.role ∧ (own.role ≠ 1 ∨ b.group = own.group)
      then .active else .mgmtOnly)) ∧
  (∀ (s : State) (p : Fin 12) (b : TrainBody), (getPort s p.val).state = .training → (getPort s p.val).step = 5 →
    agreedVersion (trainBody s p.val) b = none →
    exec (.train p b) s = .next (logMismatch (setPort s p.val { getPort s p.val with
      peer := some b, state := .incompatible, step := 6, role := roleOf s p.val % 0xFF, verMajor := 0, verMinor := 0,
      recheckDown := (getPort s p.val).recheckDown })
        evFabVersionMismatch p.val (trainBody s p.val) b)) ∧
  (∀ (own peer : TrainBody) (v : Nat × Nat), agreedVersion own peer = some v →
    v.1 = min own.majorMax peer.majorMax ∧ own.majorMin ≤ v.1 ∧ peer.majorMin ≤ v.1)

/-- Before flit lock a port takes no flit. A flit with more than six bad symbols or a wrong parity is discarded and a replay is asked for. A good flit comes off the lanes with at most six bad symbols and the parity of its words; a corrected one is counted, and on an ACTIVE port the 1,000 counts start again. A padding flit’s header is taken and nothing else; the flit in order is accepted: its header acknowledges, returns credits and may ask for a replay, its payload is taken, and the next sequence number is expected; one seen before, or that comes while a replay is awaited, changes nothing more; any other makes the port ask for a replay. A request for a replay sends every retained flit again in order, or retires a port whose oldest flit was replayed three times. An ACTIVE port that loses the signal on every lane, or receives no good flit for 1,000 counts, logs that its link is down, trains again where it may, and leaves ACTIVE; on any other port both events change nothing. When a local second ends, each of the twelve ports logs its violations of the second by reason, keeps their number, at most 65,535, and starts to count again, with its allowance of NACKs. -/
def Obligations.LinkEvents : Prop :=
  (∀ (s : State) (p : Fin 12) (f : Flit), readsFlits (getPort s p.val) = false → exec (.flitReceive p f) s = .next s) ∧
  (∀ (s : State) (p : Fin 12) (f : Flit), readsFlits (getPort s p.val) = true → goodFlit f = none →
    exec (.flitReceive p f) s = .next (tellPeer (setPort s p.val { getPort s p.val with rxWait := true, nakDue := true }) p.val)) ∧
  (∀ (f : Flit) (bs : List Byte), goodFlit f = some bs → f.errors.eraseDups.length ≤ 6 ∧ bs = offLanes f.lanes ∧
    fieldAt bs 204 7 % 2 ^ 51 = parityOf (bs.take 204)) ∧
  (∀ (s t : State) (p : Fin 12) (f : Flit) (bs : List Byte), readsFlits (getPort s p.val) = true → goodFlit f = some bs →
    ∀ c, c = (if f.errors = [] then getPort s p.val
      else { getPort s p.val with corrected := satInc 0xFFFFFFFF (getPort s p.val).corrected }) → c ≠ Port.off →
    t = (if c.state = .active then startDeadline (setPort s p.val c) (.flit p.val) else setPort s p.val c) →
    (allPadding c bs = true → exec (.flitReceive p f) s = .next (tellPeer (takeHeader t p.val bs) p.val)) ∧
    (allPadding c bs = false → flitSeq bs = c.rxNext → ∀ u,
      u = takeHeader (setPort t p.val { c with rxNext := c.rxNext + 1, rxWait := false, ackDue := true }) p.val bs →
      exec (.flitReceive p f) s = .next (if readsFlits (getPort u p.val) then tellPeer (takePayload u p.val bs) p.val else u)) ∧
    (allPadding c bs = false → flitSeq bs ≠ c.rxNext → (c.rxWait = true ∨ seenBefore c (flitSeq bs) = true) →
      exec (.flitReceive p f) s = .next t) ∧
    (allPadding c bs = false → flitSeq bs ≠ c.rxNext → c.rxWait = false → seenBefore c (flitSeq bs) = false →
      exec (.flitReceive p f) s = .next (tellPeer (setPort t p.val { c with rxWait := true, nakDue := true }) p.val))) ∧
  (∀ (s : State) (p : Fin 12), (getPort s p.val).state = .active →
    exec (.laneSignalLoss p) s =
      .next (portLeavesActive (retrainPort (logBare s evFabLinkDown (uPort p.val)) p.val) p.val evFabLinkDown) ∧
    (∀ t, t = expire s (.flit p.val) 1000 → (getPort t p.val).state = .active →
      exec (.flitTimeout p) s =
        .next (portLeavesActive (retrainPort (logBare t evFabLinkDown (uPort p.val)) p.val) p.val evFabLinkDown))) ∧
  (∀ (s : State) (p : Fin 12), (getPort s p.val).state ≠ .active →
    exec (.laneSignalLoss p) s = .next s ∧ exec (.flitTimeout p) s = .next s) ∧
  (∀ s : State, exec .fabViolationSecondTick s = .next ((List.range 12).foldl (fun s p =>
    setPort ((getPort s p).secViol.foldl (fun s e => logGen s evFabPeerViolation (uPort p) none [w32 e.1, w32 e.2] []) s) p
      { getPort s p with lastSecond := min 0xFFFF (((getPort s p).secViol.map (·.2)).sum), secViol := [], nacks := 0 }) s)) ∧
  (∀ (q : Port) (ack : BitVec 10) (pre rest : List RetFlit) (r : RetFlit), q.retain = pre ++ r :: rest → r.seq = ack →
    (∀ x ∈ pre, x.seq ≠ ack) → dropAcked q ack = { q with retain := rest }) ∧
  (∀ (s : State) (p : Nat) (r : RetFlit) (rest : List RetFlit), (getPort s p).retain = r :: rest →
    (r.replays < 3 → takeNak s p = ({ r with replays := r.replays + 1 } :: rest).foldl
      (fun s r => putFlit s p r.seq r.credit r.first r.payload) (setPort s p { getPort s p with
        retain := { r with replays := r.replays + 1 } :: rest, replays := satInc 0xFFFF (getPort s p).replays })) ∧
    (3 ≤ r.replays → takeNak s p = retirePort s p r.seq))

/-- Of the current generation and for a stream that the deck gives this end: a PUSH inside the scratch lands its bytes, poisoned where its mask says so, and with its last beat lands its units and is acknowledged; a PUSH_ACK counts a write of the producer as performed; a CREDIT returns its credits; a STREAM_STOP stops a stream that has not stopped, faults the cores that wait for its credits or is logged where none does, and asks for the abort, and does nothing to a stopped one; a TALLY_MARK counts. A frame of another generation is dropped and counted, a PUSH then still adding its units to the consumer’s tally; a frame whose stream does not fit is a violation of reason TARGET. A poisoned credit or acknowledgement stops the stream; a poisoned mark is dropped and logged. -/
def Obligations.StreamFrames : Prop :=
  (∀ (s : State) (hdr : FrameHdr) (stream off n : Nat) (data : List Byte) (mask : List Bool) (e : StreamEntry), hdr.gen = s.gen →
    streamFor s hdr stream 2 = some e → off + data.length ≤ scratchBytes → ∀ bs s1,
    bs = (data.zip (List.range data.length)).map (fun x => (off + x.2, x.1, hdr.poison && ((mask[x.2 / 4]?).getD false))) →
    s1 = landBytes s (coreOfField e.consumer) bs →
    exec (.push hdr stream off data 0 mask) s = .next s1 ∧
    (n ≠ 0 → exec (.push hdr stream off data n mask) s =
      .next (sendFrame (landUnits s1 stream n) hdr.src e.table (.pushAck stream n)))) ∧
  (∀ (s : State) (hdr : FrameHdr) (stream off n : Nat) (data : List Byte) (mask : List Bool) (e : StreamEntry), hdr.gen ≠ s.gen →
    streamFor s hdr stream 2 = some e → exec (.push hdr stream off data n mask) s =
      .next (modStream { s with genLateDrops := satInc 0xFFFF s.genLateDrops } stream fun k =>
        { k with ctally := k.ctally + BitVec.ofNat 32 n })) ∧
  (∀ (s : State) (hdr : FrameHdr) (stream n : Nat) (e : StreamEntry), hdr.gen = s.gen → streamFor s hdr stream 1 = some e →
    (hdr.poison = false → exec (.pushAck hdr stream n) s = .next (performWrites s (coreOfField e.producer) 1) ∧
      exec (.credit hdr stream n) s = .next (returnCredits s e n)) ∧
    (hdr.poison = true → ∀ t, t = poisonStop s none e →
      exec (.pushAck hdr stream n) s = .next t ∧ exec (.credit hdr stream n) s = .next t)) ∧
  (∀ (s : State) (hdr : FrameHdr) (stream : Nat) (code : W32) (e : StreamEntry), hdr.gen = s.gen → streamEither s hdr stream = some e →
    hdr.poison = false →
    ((getStream s stream).stopped = true → exec (.streamStop hdr stream code) s = .next s) ∧
    ((getStream s stream).stopped = false → ∀ t, t = setStream s stream { getStream s stream with stopped := true } →
      ((∀ c ∈ s.cores, c.2.wait ≠ .credits stream) → exec (.streamStop hdr stream code) s = .next (requestAbort
        (logGen t evSynCreditStopped (uCluster (endCluster e)) (some e.table) [w32 stream, code] [])
        (evSynCreditStopped.word (uCluster (endCluster e))))) ∧
      ((∃ c ∈ s.cores, c.2.wait = .credits stream) → exec (.streamStop hdr stream code) s = .next (requestAbort
        (((s.cores.filter fun c => c.2.wait = .credits stream).map (·.1)).foldl (fun s n => stopCore s n evSynCreditStopped 0 0) t)
        (evSynCreditStopped.word (uCluster (endCluster e))))))) ∧
  (∀ (s : State) (hdr : FrameHdr) (stream : Nat) (count epoch : W32) (e : StreamEntry), hdr.gen = s.gen →
    streamFor s hdr stream 2 = some e →
    (hdr.poison = false → exec (.tallyMark hdr stream count epoch) s = .next (takeMark s stream e.table count epoch)) ∧
    (hdr.poison = true → exec (.tallyMark hdr stream count epoch) s = .next (logGen s evSynMsgPoison (uCluster (endCluster e))
      (some e.table) [w32 stream] []))) ∧
  (∀ (s : State) (hdr : FrameHdr) (stream n : Nat) (code count epoch : W32), hdr.gen ≠ s.gen →
    ∀ t, t = { s with genLateDrops := satInc 0xFFFF s.genLateDrops } →
    exec (.pushAck hdr stream n) s = .next t ∧ exec (.credit hdr stream n) s = .next t ∧
    exec (.streamStop hdr stream code) s = .next t ∧ exec (.tallyMark hdr stream count epoch) s = .next t) ∧
  (∀ (s : State) (p : Nat) (hdr : FrameHdr) (stream off n : Nat) (data : List Byte) (mask : List Bool), hdr.gen = s.gen →
    (streamFor s hdr stream 2 = none ∨ scratchBytes < off + data.length) →
    takePush s (some p) hdr stream off data n mask =
      countViolation (sendNack s p 7 hdr.src false (headBytes hdr.cls { hdr := hdr, body := .push stream off data n mask })) p 7)

/-- A read of 64 to 512 bytes in whole lines inside one source-class region of the frame’s table is served, whatever its generation, as soon as the owner’s regulator lets it; a write likewise inside a device-owned recompute-class region enters line by line, the lines that the host holds after they are called back, and is answered once it is performed. Any other request is answered with STATUS 2 and counts as a violation of reason TARGET. A reply whose tag is not outstanding changes nothing. A good reply of 64 bytes and STATUS 0 repairs the line that waits for it; a poisoned or bad one makes it unreachable; one of another generation is dropped, counted and asked for again. An acknowledgement of a prefill page counts for its job; with the last one this module’s share of the pages has been shipped, which its dealer takes note of. -/
def Obligations.MemoryFrames : Prop :=
  (∀ (s : State) (p : Fin 12) (hdr : FrameHdr) (tag addr len : Nat) (r : Region), memRegion s hdr addr len .source = some r →
    ∀ n, n = 64 * (((List.range (len / 64)).map (addr / 64 + ·)).filter fun l => (kittyGet s l).isNone).length →
    (n = 0 ∨ canCharge s r.owner (addrStack addr) n = true → exec (.memRead p hdr tag addr len) s =
      .next (answerRead (charge s r.owner (addrStack addr) n) hdr.src tag addr len hdr.gen 0)) ∧
    (n ≠ 0 → canCharge s r.owner (addrStack addr) n = false → exec (.memRead p hdr tag addr len) s =
      .next (waitCharge s r.owner (addrStack addr) n (.lineRead (.fabric hdr.src tag addr len hdr.gen) addr 0)))) ∧
  (∀ (s : State) (hdr : FrameHdr) (addr len : Nat) (c : RecClass) (r : Region), memRegion s hdr addr len c = some r →
    r.owner = hdr.table ∧ r.cls = c ∧ addr + len ≤ r.base + r.size ∧ addr % 64 = 0 ∧ len % 64 = 0 ∧ 64 ≤ len ∧ len ≤ 512) ∧
  (∀ (s : State) (p : Fin 12) (hdr : FrameHdr) (tag addr len : Nat) (data : List Byte) (mask : List Bool),
    (memRegion s hdr addr len .source = none → exec (.memRead p hdr tag addr len) s =
      .next (countViolation (routeFrame s 0 { body := .memData tag 2 [] [], hdr :=
        { dest := hdr.src, src := ownIndex s, gen := hdr.gen, table := hdr.table, poison := false } }) p.val 7)) ∧
    (memRegion s hdr addr data.length .recompute = none → exec (.memWrite p hdr tag addr data mask) s =
      .next (countViolation (routeFrame s 0 { body := .memAck tag 2, hdr :=
        { dest := hdr.src, src := ownIndex s, gen := hdr.gen, table := hdr.table, poison := false } }) p.val 7))) ∧
  (∀ (s : State) (p : Fin 12) (hdr : FrameHdr) (tag addr : Nat) (data : List Byte) (mask : List Bool) (r : Region) (e : WcbEntry),
    memRegion s hdr addr 64 .recompute = some r → r.hostShared = false → data.length = 64 →
    e = { line := addr / 64, data := lineOfBytes data, mask := fullMask, poison := if hdr.poison then wordMask (mask.take 16) else 0, sender :=
           .fabric hdr.src tag hdr.gen } →
    ((hostHolds s (lineDpa (addr / 64))).isSome = true → exec (.memWrite p hdr tag addr data mask) s =
      .next (answerSender (backInvalidate s (lineDpa (addr / 64)) (.write e)) (.fabric hdr.src tag hdr.gen))) ∧
    (hostHolds s (lineDpa (addr / 64)) = none → (kittyGet s (addr / 64)).isSome = true →
      exec (.memWrite p hdr tag addr data mask) s = .next (answerSender (outsideWrite s e) (.fabric hdr.src tag hdr.gen))) ∧
    (hostHolds s (lineDpa (addr / 64)) = none → kittyGet s (addr / 64) = none → lineCharges s (addr / 64) = true →
      exec (.memWrite p hdr tag addr data mask) s = .next (answerSender
        (enterWcb (chargeLine s (addr / 64)) e) (.fabric hdr.src tag hdr.gen)))) ∧
  (∀ (s : State) (hdr : FrameHdr) (tag st d : Nat) (data : List Byte) (mask : List Bool),
    takeFirst (fun e : Nat × Nat => e = (hdr.src, tag)) s.fabTags = none →
    exec (.memData hdr tag st data mask d) s = .next s ∧ exec (.memAck hdr tag st) s = .next s) ∧
  (∀ (s s1 : State) (hdr : FrameHdr) (tag d : Nat) (data : List Byte) (mask : List Bool) (x : Nat × Nat) (rest : List (Nat × Nat))
    (r : Repair), takeFirst (fun e : Nat × Nat => e = (hdr.src, tag)) s.fabTags = some (x, rest) →
    s1 = { s with fabTags := rest } → repairOfTag s1 hdr.src tag = some r →
    (hdr.gen = s.gen → hdr.poison = false → data.length = 64 → exec (.memData hdr tag 0 data mask d) s =
      .next (repairLine s1 r.line (lineOfBytes data) d)) ∧
    (hdr.gen = s.gen → hdr.poison = true ∨ data.length ≠ 64 → exec (.memData hdr tag 0 data mask d) s =
      .next (unreachable s1 r.line)) ∧
    (∀ st, hdr.gen ≠ s.gen → exec (.memData hdr tag st data mask d) s = .next (fetchAgain (lateDrop s1) hdr.src tag))) ∧
  (∀ (s s1 : State) (hdr : FrameHdr) (tag st : Nat) (x : Nat × Nat) (rest : List (Nat × Nat)) (j j1 : PrefillJob)
    (mine : Nat × Nat × Nat × Nat × Nat → Bool), mine = (fun a => decide (a.1 = tag) && decide (a.2.2.2.2 = hdr.src)) →
    takeFirst (fun e : Nat × Nat => e = (hdr.src, tag)) s.fabTags = some (x, rest) → s1 = { s with fabTags := rest } →
    (s.cache.jobs.find? fun j => j.acks.any mine) = some j → hdr.gen = s.gen →
    j1 = { j with acks := j.acks.filter fun a => !mine a, failed := j.failed || decide (st ≠ 0) } →
    exec (.memAck hdr tag st) s = .next (partShipped (modJob s1 j.session fun _ => j1) j1)) ∧
  (∀ (s : State) (j : PrefillJob) (d : Deck), deckOf s = some d →
    (j.shipping = false ∨ j.acks ≠ [] → partShipped s j = s) ∧
    (j.shipping = true → j.acks = [] →
      (isDealer s = true → partShipped s j = jobResult s j.session (ownIndex s) (!j.failed)) ∧
      (isDealer s = false → partShipped s j =
        sendFrame s (dealerIndex s d) j.table (.serving (doneMsg s j (!j.failed))))))

/-- A trick message of the current generation, the group, no poison, a spanning slot and the slot’s EPOCH takes effect: the arrive of a child is counted, a release of slot 0 releases the switch trick and one of another slot the slot’s trick. Of another generation it is dropped and counted twice, for the port and for the slot; poison, a slot that spans nothing and a wrong EPOCH are logged and ask for the abort. QUAR_CLEAR from the dealer that names this module and a quarantined port returns the port to ACTIVE, kept from its routes in this generation, and logs it; any other changes nothing. A NACK changes nothing (R375 names no action). QUAR_CLEAR’s port is checked against the deck as it returns. A management packet for another module is forwarded in its class; of those for this module one with poison or of another message type than 0x7E changes nothing, the packet that starts and ends a message gives the message to its endpoint, and one that only starts it is kept. -/
def Obligations.SpanFrames : Prop :=
  (∀ (s : State) (hdr : FrameHdr) (slot : Nat) (group epoch : W32), hdr.gen = s.gen → fabricGroup s = some group →
    (hdr.poison = false → spanningSlot s slot = true → epoch = (getTrick s slot).epoch →
      exec (.trickArrive hdr slot group epoch) s = .next (childArrive s slot) ∧
      (slot = 0 → exec (.trickRelease hdr slot group epoch) s = .next (switchRelease s)) ∧
      (∀ d e, slot ≠ 0 → deckOf s = some d → trickEntry s slot = some e →
        exec (.trickRelease hdr slot group epoch) s = .next (releaseTrick s d e))) ∧
    (∀ ev args, (hdr.poison = true ∧ ev = evSynMsgPoison ∧ args = [w32 slot]) ∨
      (hdr.poison = false ∧ spanningSlot s slot = false ∧ ev = evSynSpanUnknown ∧ args = [w32 slot]) ∨
      (hdr.poison = false ∧ spanningSlot s slot = true ∧ epoch ≠ (getTrick s slot).epoch ∧ ev = evSynSpanEpoch ∧
        args = [w32 slot, epoch, (getTrick s slot).epoch]) →
      ∀ t, t = requestAbort (logGen s ev (uCluster (slotCluster s slot)) ((trickEntry s slot).map (·.table)) args [])
        (ev.word (uCluster (slotCluster s slot))) →
      exec (.trickArrive hdr slot group epoch) s = .next t ∧ exec (.trickRelease hdr slot group epoch) s = .next t)) ∧
  (∀ (s : State) (hdr : FrameHdr) (slot : Nat) (group epoch : W32), hdr.gen ≠ s.gen →
    ∀ t, t = { s with genLateDrops := satInc 0xFFFF s.genLateDrops, spanLateDrops := satInc 0xFFFF s.spanLateDrops } →
    exec (.trickArrive hdr slot group epoch) s = .next t ∧ exec (.trickRelease hdr slot group epoch) s = .next t) ∧
  (∀ (s : State) (hdr : FrameHdr) (p : Nat) (d : Deck), deckOf s = some d → hdr.src = dealerIndex s d → p < 12 →
    (hdr.poison = false → (getPort s p).state = .quarantined → exec (.quarClear hdr p (ownIndex s)) s =
      .next (applyChecks (logBare (startDeadline (setPort s p { getPort s p with state := .active, awayGen := some s.gen })
        (.flit p)) evFabPortCleared (uPort p)) p true)) ∧
    ((getPort s p).state ≠ .quarantined → exec (.quarClear hdr p (ownIndex s)) s = .next s)) ∧
  (∀ (s : State) (hdr : FrameHdr) (p target : Nat), (deckOf s = none ∨ hdr.poison = true ∨ target ≠ ownIndex s ∨ 12 ≤ p ∨
    (∃ d, deckOf s = some d ∧ hdr.src ≠ dealerIndex s d)) → exec (.quarClear hdr p target) s = .next s) ∧
  (∀ (s : State) (hdr : FrameHdr) (reason : Nat) (header : List Byte), exec (.nack hdr reason header) s = .next s) ∧
  (∀ (s : State) (hdr : FrameHdr) (packet : List Byte),
    (hdr.dest = ownIndex s → (hdr.poison = true ∨ fieldAt packet 4 1 ≠ 0x7E) → exec (.mgmt hdr packet) s = .next s) ∧
    (hdr.dest = ownIndex s → hdr.poison = false → fieldAt packet 4 1 = 0x7E → bitOf (fieldAt packet 3 1) 7 = true →
      ∀ t, t = { s with mctpParts := s.mctpParts.filter fun e => !(e.1 = hdr.src && e.2.1 = fieldAt packet 7 1) } →
      (bitOf (fieldAt packet 3 1) 6 = true → ∀ b, messageBody (fieldAt packet 7 1) (packet.drop 8) = some b →
        exec (.mgmt hdr packet) s = .next (takeMessage t hdr.src b)) ∧
      (bitOf (fieldAt packet 3 1) 6 = false → exec (.mgmt hdr packet) s =
        .next { t with mctpParts := t.mctpParts ++ [(hdr.src, fieldAt packet 7 1, packet.drop 8)] })) ∧
    (hdr.dest ≠ ownIndex s → exec (.mgmt hdr packet) s = .next (routeFrame s hdr.cls { hdr := hdr, body := .mgmt packet })))

/-- A message of the group from the module that holds the dealer role (an abort: also from the successor), without poison, is acted on and sent on to this module’s children: a round mark of the current generation, ahead of the last, at a member that awaits no alignment opens its table’s round, or is held with the time of its receipt where the round before it is open or marks are held; any other mark is dropped and counted, and not sent on. An abort of another generation is sent on, adopted, and held marks open; one from the successor makes it the dealer here, and this module joins it; one of the current generation changes nothing more. An announce of the armed deck makes the member hold marks, and it plays the switch trick at once where no round is open; of another deck the member answers that it is not armed. A cancel takes the switch back and opens held marks. With poison such a message is only logged; of another group it changes nothing where no port brought it. A request to abort makes the dealer abort its group with a new generation, and makes the successor probe, with the probe’s time running, unless it probes already. -/
def Obligations.DealerMessages : Prop :=
  (∀ (s s1 : State) (hdr : FrameHdr) (group round : W32) (d : Deck), switchDeck s = some d → hdr.poison = false →
    group = d.role.group → fromDealer s d hdr.src = true → s1 = forwardDown s hdr (.roundMark group round) →
    (hdr.gen = s.gen → aheadOf round s.lastRound = true → s.ctl.awaitAlign = false → isDealer s = false →
      ((getRound s1 hdr.table).isOpen = false → marksHeld s1 = false → exec (.roundMark hdr group round) s =
        .next (raiseRecheck (memberWrite (openRound { s1 with lastRound := round } hdr.table round) hdr.table))) ∧
      ((getRound s1 hdr.table).isOpen = true ∨ marksHeld s1 = true → exec (.roundMark hdr group round) s =
        .next (raiseRecheck (modRound { s1 with lastRound := round } hdr.table fun r =>
          { r with heldMark := some round, heldAt := s1.meter.toNat, heldExpired := false, parts := [] })))) ∧
    (hdr.gen ≠ s.gen ∨ aheadOf round s.lastRound = false ∨ s.ctl.awaitAlign = true ∨ isDealer s = true →
      exec (.roundMark hdr group round) s = .next { s with genLateDrops := satInc 0xFFFF s.genLateDrops })) ∧
  (∀ (s : State) (hdr : FrameHdr) (group code : W32) (d : Deck), deckOf s = some d → hdr.dest = ownIndex s → hdr.poison = false →
    group = d.role.group → hdr.gen = s.gen →
    (isDealer s = true → exec (.abortReq hdr group code) s = .next (groupAbort s hdr.src code)) ∧
    (isDealer s = false → ownIndex s = d.role.successor → s.ctl.probing = false → exec (.abortReq hdr group code) s =
      .next (startDeadline { s with ctl := { s.ctl with probing := true, probesMissed := 0, abortCode := code } } .probe)) ∧
    (isDealer s = false → ownIndex s = d.role.successor → s.ctl.probing = true → exec (.abortReq hdr group code) s = .next s)) ∧
  (∀ (s : State) (hdr : FrameHdr) (group code : W32), hdr.dest ≠ ownIndex s → exec (.abortReq hdr group code) s =
    .next (routeFrame s 0 { hdr := hdr, body := .abortReq group code })) ∧
  (∀ (s s1 : State) (hdr : FrameHdr) (origin : Nat) (group code : W32) (d : Deck), switchDeck s = some d → hdr.poison = false →
    group = d.role.group → fromSuccessor s d hdr.src = true → s1 = (learnDealer s d hdr.src).1 →
    (hdr.gen = s1.gen ∨ isDealer s1 = true → exec (.abort hdr origin group code) s = .next s1) ∧
    (hdr.gen ≠ s1.gen → isDealer s1 = false →
      ∀ s2, s2 = openHeld (modCtl (adoptAbort (forwardDown s1 hdr (.abort origin group code)) hdr.gen code) fun c =>
        { c with probing := false, probesMissed := 0 }) →
      exec (.abort hdr origin group code) s = .next (if (learnDealer s d hdr.src).2 then sendJoin s2 else s2))) ∧
  (∀ (s s1 s2 : State) (hdr : FrameHdr) (group serial code : W32) (d : Deck), switchDeck s = some d → hdr.poison = false →
    group = d.role.group → fromDealer s d hdr.src = true → s1 = forwardDown s hdr (.switchAnnounce group serial) →
    s2 = forwardDown s hdr (.switchCancel group code) →
    (∀ a, s1.loader.phase = .none → s1.loader.armed = some a →
      (a.id.serial = serial → exec (.switchAnnounce hdr group serial) s = .next (acceptAnnounce s1)) ∧
      (a.id.serial ≠ serial → exec (.switchAnnounce hdr group serial) s = .next (answerSwitch s1))) ∧
    exec (.switchCancel hdr group code) s = .next (openHeld (cancelSwitch s2))) ∧
  (∀ (s : State) (hdr : FrameHdr) (group serial code round : W32) (origin : Nat) (d : Deck), switchDeck s = some d →
    (hdr.poison = true → ∀ t, t = logGen s evSynMsgPoison (uCluster 0) none [] [] →
      exec (.roundMark hdr group round) s = .next t ∧ exec (.abort hdr origin group code) s = .next t ∧
      exec (.switchAnnounce hdr group serial) s = .next t ∧ exec (.switchCancel hdr group code) s = .next t) ∧
    (hdr.poison = false → group ≠ d.role.group ∨ fromSuccessor s d hdr.src = false → exec (.abort hdr origin group code) s = .next s) ∧
    (hdr.poison = false → group ≠ d.role.group ∨ fromDealer s d hdr.src = false →
      exec (.roundMark hdr group round) s = .next s ∧
      exec (.switchAnnounce hdr group serial) s = .next s ∧ exec (.switchCancel hdr group code) s = .next s))

/-- While the dealer gathers, a member’s answer replaces its earlier one. With the last answer the dealer announces the switch when every member is armed with the dealer’s deck, ID, serial and digest; a member that is not ends the switch: it is logged, cancelled, the command ends with its code and the rounds start again. After ten local milliseconds the dealer logs how many answers are missing and ends the switch in the same way. An answer of a module that is no other member changes nothing; one that is not armed after the announcement ends the switch at its root. When the load of a switch is done the module loads its programs and plays the switch trick a second time; one whose load failed logs it as the deck’s last fault and recovers as a whole. A switch taken back leaves the deck armed, or only verified where its arming was dropped meanwhile. -/
def Obligations.LiveSwitch : Prop :=
  (∀ (s s1 : State) (m : Nat) (st : SwitchState) (d : Deck), switchDeck s = some d → (otherMembers s d).contains m = true →
    s.loader.phase = .gathering →
    s1 = modLoader s (fun l => { l with gathered := l.gathered.filter (fun e => e.1 ≠ m) ++ [(m, st)] }) →
    (¬(∀ x ∈ otherMembers s d, ∃ e ∈ s1.loader.gathered, e.1 = x) → exec (.switchGatherReply m st) s = .next s1) ∧
    ((∀ x ∈ otherMembers s d, ∃ e ∈ s1.loader.gathered, e.1 = x) → ∀ a, s.loader.armed = some a →
      ((∀ e ∈ s1.loader.gathered, e.2.armed = true ∧ e.2.id.deckId = a.id.deckId ∧ e.2.id.serial = a.id.serial ∧ e.2.id.digest = a.id.digest) →
        exec (.switchGatherReply m st) s = .next (acceptAnnounce (switchDown s1 (.switchAnnounce d.role.group a.id.serial)))) ∧
      (∀ e, (s1.loader.gathered.find? fun m => !sameDeck a.id m.2) = some e → exec (.switchGatherReply m st) s =
        .next (startRounds (endSwitch (logGen s1 evDckPeerMismatch uDeck none [w32 e.1] [])
          (evDckPeerMismatch.word uDeck) (evDckPeerMismatch.word uDeck)))))) ∧
  (∀ (s : State) (m : Nat) (st : SwitchState) (d : Deck), switchDeck s = some d → (otherMembers s d).contains m = true →
    s.loader.phase = .announced ∨ s.loader.phase = .played →
    (switchRoot s = true → st.armed = false → exec (.switchGatherReply m st) s = .next (startRounds (endSwitch
      (logGen s evDckPeerMismatch uDeck none [w32 m] []) (evDckPeerMismatch.word uDeck) (evDckPeerMismatch.word uDeck)))) ∧
    (switchRoot s = false ∨ st.armed = true → exec (.switchGatherReply m st) s = .next s)) ∧
  (∀ (s : State) (m : Nat) (st : SwitchState) (d : Deck), switchDeck s = some d → (otherMembers s d).contains m = false →
    exec (.switchGatherReply m st) s = .next s) ∧
  (∀ (s : State) (d : Deck), switchDeck s = some d →
    (s.loader.phase = .gathering → exec .switchGatherTimeout s = .next (startRounds (endSwitch
      (logGen (expire s .gather (10 * countsMs)) evDckSwitchTimeout uDeck none
        [w32 ((otherMembers s d).filter fun m => !s.loader.gathered.any fun e => e.1 = m).length] [])
      (evDckSwitchTimeout.word uDeck) (evDckSwitchTimeout.word uDeck)))) ∧
    (s.loader.phase ≠ .gathering → exec .switchGatherTimeout s = .next s)) ∧
  (∀ s : State, s.loader.phase = .loading →
    (∀ d, deckOf s = some d → exec (.switchLoadDone false) s = .next (playSwitch (loadPrograms s d))) ∧
    exec (.switchLoadDone true) s = .next (abortAndRecover (modLoader (logGen s evDckSwitchCommit uDeck none [] [])
      fun l => { l with lastFault := evDckSwitchCommit.word uDeck, faultOffset := noOffset }) .wholeModule
      (evDckSwitchCommit.word uDeck))) ∧
  (∀ (s : State) (b : Bool), s.loader.phase ≠ .loading → exec (.switchLoadDone b) s = .next s) ∧
  (∀ s : State, s.loader.phase = .gathering ∨ s.loader.phase = .announced ∨ s.loader.phase = .played →
    cancelSwitch s = modLoader (modCtl (setTrick s 0 { getTrick s 0 with arrived := 0, childArrived := 0, sent := false })
      fun c => { c with heldSwitch := false }) fun l =>
        { l with phase := .none, gathered := [], alone := false, dropArmed := false,
                 armed := if l.dropArmed then none else l.armed,
                 stage := if l.stage = .switching then (if l.dropArmed then .verified else .armed) else l.stage })

/-- A member’s JOIN with the dealer’s deck is kept by its part. When it is whole: a dealer that forms its group and has aligned nothing tries to form it; one that recovers or holds its group counts the member as ready; else it sends the member an ALIGN. A JOIN with another deck is logged as a mismatch, the deck’s last fault. A whole ALIGN is adopted and held marks open. A READY of the current generation makes its sender ready at the dealer, an older one does nothing. WINDOW_OPEN opens a window at the dealer, and starts a member’s work in it; WINDOW_DONE ends a member’s part of an open window. The dealer answers a PROBE; PROBE_ACK clears the missed probes. -/
def Obligations.GroupMessages : Prop :=
  (∀ (s s1 : State) (src : Nat) (m : GroupMsg) (d : Deck), deckOf s = some d → isDealer s = true → d.role.group = m.group →
    (otherMembers s d).contains src = true →
    (m.deckId ≠ d.id.deckId ∨ m.deckSerial ≠ d.id.serial →
      exec (.join src m) s = .next (modLoader (logGen s evDckPeerMismatch uDeck none [w32 src] [])
        fun l => { l with lastFault := evDckPeerMismatch.word uDeck, faultOffset := noOffset })) ∧
    (m.deckId = d.id.deckId → m.deckSerial = d.id.serial → holdPart s src m = s1 →
      (groupHeld s1.ctl.joined src 1 = false → exec (.join src m) s = .next s1) ∧
      (groupHeld s1.ctl.joined src 1 = true →
        (s1.ctl.group = .forming → s1.ctl.awaitAlign = false → exec (.join src m) s = .next (tryForm s1)) ∧
        (s1.ctl.group = .recovering ∨ s1.ctl.group = .held → s1.ctl.awaitAlign = false →
          exec (.join src m) s = .next (checkReady (noteReady (dropParts s1 src 1) src))) ∧
        (s1.ctl.awaitAlign = true ∨ (s1.ctl.group ≠ .forming ∧ s1.ctl.group ≠ .recovering ∧ s1.ctl.group ≠ .held) →
          exec (.join src m) s = .next (sendGroup (dropParts s1 src 1) src
            (groupParts s1 d 2 0 (spanningPairs s1 d))))))) ∧
  (∀ (s s1 : State) (src : Nat) (m : GroupMsg) (d : Deck), deckOf s = some d → d.role.group = m.group →
    fromDealer s d src = true → src ≠ ownIndex s → holdPart s src m = s1 →
    (groupHeld s1.ctl.joined src 2 = true → exec (.align src m) s = .next (openHeld (adoptAlign (learnDealer s1 d src).1 d src))) ∧
    (groupHeld s1.ctl.joined src 2 = false → exec (.align src m) s = .next s1)) ∧
  (∀ (s : State) (src : Nat) (m : GroupMsg) (d : Deck), deckOf s = some d → d.role.group = m.group → isDealer s = true →
    (m.gen = s.gen → exec (.ready src m) s = .next (checkReady { s with
      ctl := { s.ctl with readyFrom := s.ctl.readyFrom.filter (· ≠ src) ++ [src] } })) ∧
    (m.gen ≠ s.gen → exec (.ready src m) s = .next s) ∧
    exec (.windowOpen m) s = .next (openWindow { s with ctl := { s.ctl with windowAsked := true } }) ∧
    (s.ctl.windowOpen = true → exec (.windowDone src m) s = .next (windowFrom s d src)) ∧
    (s.ctl.windowOpen = false → exec (.windowDone src m) s = .next s) ∧
    exec (.probe src m) s = .next (sendGroup s src (groupParts s d 7 0 []))) ∧
  (∀ (s : State) (src : Nat) (m : GroupMsg) (d : Deck), deckOf s = some d → d.role.group = m.group → isDealer s = false →
    exec (.windowOpen m) s = .next (workWindow { s with
      ctl := { s.ctl with group := if s.ctl.group = .serving then .window else s.ctl.group } }) ∧
    exec (.ready src m) s = .next s ∧ exec (.windowDone src m) s = .next s ∧ exec (.probe src m) s = .next s ∧
    exec (.join src m) s = .next s) ∧
  (∀ (s : State) (m : GroupMsg) (d : Deck), deckOf s = some d → d.role.group = m.group →
    exec (.probeAck m) s = .next { s with ctl := { s.ctl with probesMissed := 0 } }) ∧
  (∀ (s : State) (src : Nat) (m : GroupMsg), ownGroup s m = false →
    exec (.align src m) s = .next s ∧ exec (.ready src m) s = .next s ∧ exec (.windowOpen m) s = .next s ∧
    exec (.windowDone src m) s = .next s ∧ exec (.probe src m) s = .next s ∧ exec (.probeAck m) s = .next s ∧
    exec (.join src m) s = .next s)

/-- The dealer opens a repair window once WINDOW_PERIOD rounds, not 0, have closed and none is open. Each of the timed commands acts when the meter has reached its time. A module whose open window its budget stopped ends its part. A successor that probes sends another PROBE, counts it and starts its time, and takes the dealer’s role once three have had no answer. A member’s request for an abort that has had none is sent on to the successor, or makes the successor that asked it begin to probe. A dealer that recovers holds its group when a member has not become ready, and logs it. A round whose budget is over is marked so and folds its droppable unfinished slots once its tables are written; the budget of a held mark, counted from its receipt, is noted for the round it will open. A round that stalls is logged by the dealer, which aborts its group. -/
def Obligations.GroupTimers : Prop :=
  (∀ (s : State) (d : Deck), deckOf s = some d → isDealer s = true → s.ctl.windowOpen = false →
    (d.spare.windowPeriod ≠ 0 → d.spare.windowPeriod ≤ s.ctl.roundsSinceWindow →
      exec .repairWindowPeriod s = .next (openWindow { s with ctl := { s.ctl with windowAsked := true } })) ∧
    (d.spare.windowPeriod = 0 ∨ s.ctl.roundsSinceWindow < d.spare.windowPeriod → exec .repairWindowPeriod s = .next s)) ∧
  (∀ s : State,
    (s.ctl.windowOpen = true → s.ctl.windowDone.contains (ownIndex s) = false → exec .windowBudgetExpiry s =
      .next (endWindow (expire s .window (windowBudget s)))) ∧
    (s.ctl.windowOpen = false ∨ s.ctl.windowDone.contains (ownIndex s) = true → exec .windowBudgetExpiry s = .next s)) ∧
  (∀ (s t : State) (d : Deck), deckOf s = some d → s.ctl.probing = true → ownIndex s = d.role.successor →
    s.ctl.successorRole = false → t = expire s .probe (30 * countsMs) →
    (t.ctl.probesMissed < 3 → ∀ s1, s1 = startDeadline { t with ctl := { t.ctl with probesMissed := t.ctl.probesMissed + 1 } } .probe →
      exec .probeTimer s = .next (sendGroup s1 d.role.dealer (groupParts s1 d 6 0 []))) ∧
    (3 ≤ t.ctl.probesMissed → exec .probeTimer s = .next (assumeRole t d))) ∧
  (∀ s : State, s.ctl.probing = false → exec .probeTimer s = .next s) ∧
  (∀ (s t : State) (d : Deck) (code : W32), deckOf s = some d → s.ctl.requestedAbort = some code →
    s.ctl.successorRole = false → (∃ e ∈ d.role.members, e.1 = d.role.successor) →
    t = modCtl (expire s .abortReq (10 * countsMs)) (fun c => { c with requestedAbort := none }) →
    (ownIndex t ≠ d.role.successor → exec .abortReqTimeout s = .next (sendFrame t d.role.successor 64 (.abortReq d.role.group code))) ∧
    (ownIndex t = d.role.successor → t.ctl.probing = false → exec .abortReqTimeout s = .next (startDeadline { t with
      ctl := { t.ctl with probing := true, probesMissed := 0, abortCode := code } } .probe)) ∧
    (ownIndex t = d.role.successor → t.ctl.probing = true → exec .abortReqTimeout s = .next t)) ∧
  (∀ s : State, s.ctl.requestedAbort = none → exec .abortReqTimeout s = .next s) ∧
  (∀ (s : State) (d : Deck) (member : Nat), deckOf s = some d → isDealer s = true →
    (s.ctl.group = .recovering → (otherMembers s d).contains member = true → s.ctl.readyFrom.contains member = false →
      ∀ t, t = reachDeadline s .memberReady (10 * countsSec) →
      exec (.memberReadyTimeout member) s = .next (logGen { t with ctl := { t.ctl with group := .held } } evBupMemberLost uCtl none
        [w32 member] [])) ∧
    (s.ctl.readyFrom.contains member = true → exec (.memberReadyTimeout member) s = .next s)) ∧
  (∀ (s : State) (t : Fin 64), (getRound s t.val).isOpen = true →
    ((getRound s t.val).expired = false →
      ∀ q, q = modRound (reachMeter s 0 ((getRound s t.val).startMeter + budgetOf s)) t.val (fun r => { r with expired := true }) →
      ((getRound q t.val).isOpen = true → (getRound q t.val).written = true → (getRound q t.val).expired = true →
        exec (.roundBudgetExpiry t) s = .next (foldSlots q t.val fun _ => true)) ∧
      ((getRound q t.val).written = false → exec (.roundBudgetExpiry t) s = .next q)) ∧
    (isDealer s = true → ∀ q, q = reachMeter s 0 ((getRound s t.val).startMeter + stallBound s) → exec (.roundStall t) s = .next (groupAbort
      (logGen q evBupRoundStall uCtl (some t.val) [w32 t.val, (getRound s t.val).round] []) (ownIndex q) (evBupRoundStall.word uCtl))) ∧
    (isDealer s = false → exec (.roundStall t) s = .next s)) ∧
  (∀ (s : State) (t : Fin 64), (getRound s t.val).isOpen = false →
    ((getRound s t.val).heldMark ≠ none → (getRound s t.val).heldExpired = false → exec (.roundBudgetExpiry t) s =
      .next (modRound (reachMeter s 0 ((getRound s t.val).heldAt + budgetOf s)) t.val fun r => { r with heldExpired := true })) ∧
    ((getRound s t.val).heldMark = none → exec (.roundBudgetExpiry t) s = .next s) ∧ exec (.roundStall t) s = .next s)

/-- A member keeps a part of the list of the round whose mark it accepted last, under the current generation, in place of an earlier copy, and writes its round tables once it can; any other part is dropped and counted. The dealer keeps a report of its open round and starts rounds that may start. A pool’s module keeps a part of a job’s prompt, and joins the parts when it has all; the pool’s dealer passes it on to the other members. A member’s result of a job is kept by the pool’s dealer, and the last one ends the job. A prefill that is done moves its shipped request to decode, one that failed takes it back to prefill and is logged. A member writes its copy of each page that SPILL names to the slot it names; the dealer takes each result, and a bad one makes the page resident again and frees its slot. The dealer recomputes a page in which a line is poisoned; a free one waits to be clean. -/
def Obligations.ServingMessages : Prop :=
  (∀ (s : State) (m : ServMsg),
    (m.gen = s.gen → m.round = s.lastRound → isDealer s = false → exec (.roundList m) s =
      .next (memberWrite (modRound s m.table fun r => { r with parts := r.parts.filter (fun x => x.part ≠ m.part) ++ [m] }) m.table)) ∧
    (m.gen ≠ s.gen ∨ m.round ≠ s.lastRound ∨ isDealer s = true → exec (.roundList m) s =
      .next { s with genLateDrops := satInc 0xFFFF s.genLateDrops })) ∧
  (∀ (s : State) (src : Nat) (m : ServMsg),
    (isDealer s = true → m.gen = s.gen → m.round = (getRound s m.table).round → exec (.roundReport src m) s =
      .next (startRounds (holdReport s m.table src m))) ∧
    (isDealer s = false ∨ m.gen ≠ s.gen ∨ m.round ≠ (getRound s m.table).round → exec (.roundReport src m) s = .next s)) ∧
  (∀ (s : State) (src : Nat) (m : ServMsg) (e : ServEntry) (rest : List ServEntry) (j : PrefillJob) (d : Deck), m.entries = e :: rest →
    deckOf s = some d → (s.cache.jobs.find? fun j => j.session = e.session) = some j →
    ∃ j1, (∀ t, t = { s with cache := { s.cache with jobs := s.cache.jobs.filter (fun x => x.session ≠ e.session) ++ [j1] } } →
        (isDealer s = false → exec (.prefillJob src m) s = .next t) ∧
        (isDealer s = true → exec (.prefillJob src m) s = .next ((otherMembers t d).foldl (fun s k =>
          sendFrame s k m.table (.serving { m with round := s.lastRound, gen := s.gen })) t))) ∧
      j1.parts = j.parts.filter (fun p => p.1 ≠ m.part) ++ [(m.part, m.tokens)] ∧
      j1.src = j.src ∧ j1.table = j.table ∧ j1.session = j.session ∧ j1.pages = j.pages ∧ j1.committed = j.committed ∧
      ((∀ i < m.parts, ∃ p ∈ j1.parts, p.1 = i) →
        j1.tokens = (List.range m.parts).flatMap fun i => ((j1.parts.find? fun p => p.1 = i).map (·.2)).getD []) ∧
      (¬(∀ i < m.parts, ∃ p ∈ j1.parts, p.1 = i) → j1.tokens = j.tokens)) ∧
  (∀ (s : State) (src : Nat) (m : ServMsg) (e : ServEntry) (rest : List ServEntry) (i : Nat), m.entries = e :: rest →
    (∀ j ∈ s.cache.jobs, j.session ≠ e.session) →
    sessOf s e.session = some i → (getSess s i).phase = .shipped →
    (e.flags.toNat % 2 = 1 → exec (.prefillDone src m) s = .next (shipped s i)) ∧
    (e.flags.toNat % 2 = 0 → ∀ t, t = modSess s i (fun c => { c with phase := .prefill }) → exec (.prefillDone src m) s =
      .next (logGen t evSrvShipFailed uCtl (some (getSess t i).table) [] [sessHandle t i]))) ∧
  (∀ (s : State) (src : Nat) (m : ServMsg) (e : ServEntry) (rest : List ServEntry) (j j1 : PrefillJob) (d : Deck), m.entries = e :: rest →
    deckOf s = some d → isDealer s = true → (s.cache.jobs.find? fun j => j.session = e.session) = some j →
    j1 = { j with done := j.done.filter (fun x => x.1 ≠ src) ++ [(src, decide (e.flags.toNat % 2 = 1))] } →
    ((∃ k, (k = ownIndex s ∨ k ∈ otherMembers s d) ∧ ∀ x ∈ j1.done, x.1 ≠ k) →
      exec (.prefillDone src m) s = .next (modJob s e.session fun _ => j1)) ∧
    ((∀ k, (k = ownIndex s ∨ k ∈ otherMembers s d) → ∃ x ∈ j1.done, x.1 = k) →
      exec (.prefillDone src m) s = .next (finishJob s j1 (j1.done.all (·.2))))) ∧
  (∀ (s : State) (m : ServMsg) (src : Nat) (e : ServEntry), m.entries = [e] → isDealer s = false →
    exec (.spill m) s = .next (localSpill (modPage s e.newPage.toNat fun g =>
      { g with table := m.table, spill := some e.position.toNat }) m.table e.newPage.toNat e.position.toNat) ∧
    exec (.spillDone src m) s = .next s ∧ exec (.pageFault src m) s = .next s) ∧
  (∀ (s : State) (m : ServMsg) (src : Nat), isDealer s = true →
    exec (.spill m) s = .next s ∧
    exec (.spillDone src m) s = .next (m.entries.foldl (fun s e =>
      spillReply s src e.newPage.toNat e.position.toNat (e.flags.toNat % 2 = 1)) s) ∧
    exec (.pageFault src m) s = .next (m.entries.foldl (fun s e => poisonedPage s m.table e.newPage.toNat) s)) ∧
  (∀ (s : State) (src p n : Nat), (getPage s p).state = .spilling → (getPage s p).spill = some n →
    spillReply s src p n false = logGen (modPage (freeSpill s (getPage s p).table n) p fun g =>
      { g with state := .resident, spill := none, spillReplies := [] }) evSrvSpillFailed uCtl (some (getPage s p).table)
        [w32 p, w32 src] []) ∧
  (∀ (s : State) (t p : Nat),
    (pageFree s p = true → poisonedPage s t p = modPage s p fun g =>
      { g with table := t, dirtyFree := true, last := s.lastRound }) ∧
    (pageFree s p = false → (getPage s p).state = .resident → (getPage s p).dirtyFree = false →
      poisonedPage s t p = modPage s p fun g => { g with prev := .resident, state := .recomputing }))

/-- A held watch line that is snooped away, by WATCH_WAKE or an invalidating snoop, wakes its channel once: the line is asked for again and the wake counted; the snoop is answered in every case, and a data snoop leaves the line held. A channel that was woken or holds no line is served from the line read: with SQ_HEAD inside the ring it holds the line, fetches the new entries and writes its backlog. The completion of a ring write counts the entry as sent; GO-Err logs and suspends the channel; one that nothing awaits is a partner violation. A queued request whose tokens arrive goes on. A pause that has lasted too long closes its session and is logged. A rebuild step scans the next allocated page, or ends the rebuild. A slow-tier request that completes well serves its use, one of an older generation is counted and issued again, one that fails or times out fails its operation, one whose operation has failed already ends without effect, and a completion that nothing awaits is a partner violation, or is discarded while the module may not be bus master. Nothing of a link whose encryption stream is insecure is taken. -/
def Obligations.ChannelEvents : Prop :=
  (∀ (s : State) (ch : Fin 16384), ideOpen s 1 = true →
    ((getChan s ch.val).state ≠ .free → (getChan s ch.val).held = true → exec (.watchWake ch) s = .next (toHostReq
      (setChan s ch.val { getChan s ch.val with
        held := false, wakePending := true, wakes := satInc 0xFFFF (getChan s ch.val).wakes }) (.rdShared (getChan s ch.val).watch))) ∧
    ((getChan s ch.val).state = .free ∨ (getChan s ch.val).held = false → exec (.watchWake ch) s = .next s)) ∧
  (∀ (s : State) (addr : W64) (n : Nat), ideOpen s 1 = true → watchedBy s addr = some n →
    ((getChan s n).held = true → exec (.snpinv addr) s = .next (wakeChannel (toHost s (.snpRsp true false)) n)) ∧
    ((getChan s n).held = false → exec (.snpinv addr) s = .next (toHost s (.snpRsp false false))) ∧
    exec (.snpdata addr) s = .next (toHost s (.snpRsp (getChan s n).held (getChan s n).held))) ∧
  (∀ (s : State) (addr : W64), ideOpen s 1 = true → watchedBy s addr = none →
    exec (.snpinv addr) s = .next (toHost s (.snpRsp false false)) ∧ exec (.snpdata addr) s = .next (toHost s (.snpRsp false false))) ∧
  (∀ (s : State) (ch : Fin 16384) (sq cq : W32), s.host.busMaster = true → ideOpen s 1 = true →
    (getChan s ch.val).state = .opened ∨ (getChan s ch.val).state = .closing →
    (getChan s ch.val).wakePending = true ∨ (getChan s ch.val).held = false →
    exec (.watchWakeService ch sq cq) s = .next (serveWatch s ch.val sq cq)) ∧
  (∀ (s : State) (n : Nat) (sq cq : W32), (sq - (getChan s n).sqRead).toNat ≤ 2 ^ (getChan s n).sqLog2 →
    ∀ s1, s1 = fetchEntries (setChan s n { getChan s n with
        held := true, wakePending := false, sqHead := sq, cqRead := cq, overrun := (getChan s n).overrun })
      n (getChan s n).sqHead (sq - (getChan s n).sqHead).toNat →
    serveWatch s n sq cq = checkClosing (writeBacklog s1 n (getChan s1 n).backlog) n) ∧
  (∀ (s : State) (ch : Fin 16384) (wr : Bool), s.host.busMaster = true → ideOpen s 1 = true →
    ((getChan s ch.val).state ≠ .free →
      exec (.d2hCompletion ch wr true) s = .next (suspendChannel (logGen s evHstCacheGoErr uCxl none [chanHandle s ch.val] []) ch.val) ∧
      exec (.d2hCompletion ch false false) s = .next s ∧
      (∀ e r, (getChan s ch.val).unsent = e :: r → exec (.d2hCompletion ch true false) s =
        .next (checkClosing (tallySent (setChan s ch.val { getChan s ch.val with unsent := r }) (getChan s ch.val).table e) ch.val)) ∧
      ((getChan s ch.val).unsent = [] → exec (.d2hCompletion ch true false) s = .next (partnerSeen s 8))) ∧
    ((getChan s ch.val).state = .free → ∀ b, exec (.d2hCompletion ch wr b) s = .next (partnerSeen s 8))) ∧
  (∀ (s : State) (slot : Nat) (toks : List W32),
    ((getSess s slot).phase = .queued → exec (.requestTokensFetched slot toks) s = .next (tokensReady s slot toks)) ∧
    ((getSess s slot).phase ≠ .queued → exec (.requestTokensFetched slot toks) s = .next s)) ∧
  (∀ (s : State) (slot : Nat),
    ((getSess s slot).state = .paused → busySession (getSess s slot) = false →
      ∀ t, t = reachMeter s 0 ((getSess s slot).ttlStart + (getSess s slot).ttl * countsSec) → exec (.pauseTtlExpiry slot) s =
      .next (logGen (closeSession t slot) evSrvPauseExpired uCtl (some (getSess s slot).table) [] [sessHandle t slot])) ∧
    ((getSess s slot).state ≠ .paused ∨ busySession (getSess s slot) = true → exec (.pauseTtlExpiry slot) s = .next s)) ∧
  (∀ s : State,
    (s.cache.rebuilding = false → exec .treeRebuildStep s = .next s) ∧
    (s.cache.rebuilding = true → (∀ p, nextAllocated s s.cache.scanNext = some p → exec .treeRebuildStep s = .next (scanPage s p)) ∧
      (nextAllocated s s.cache.scanNext = none → exec .treeRebuildStep s = .next (endBackground (logGen
        { s with cache := { s.cache with rebuilding := false } } evSrvTreeReady uCtl none [w32 s.cache.entered] [])
        0xC052 .success 0 [])))) ∧
  (∀ (s s1 t1 : State) (tag d : Nat) (ok : Bool) (data : List Byte) (e : Nat × UioUse × BitVec 16) (rest : List (Nat × UioUse × BitVec 16)),
    takeFirst (fun e : Nat × UioUse × BitVec 16 => e.1 = tag) s.host.uio = some (e, rest) →
    s1 = dropDeadline { s with host := { s.host with uio := rest } } (.uio tag) → ideOpen s 0 = true →
    t1 = modHost (expire s (.uio tag) (10 * countsMs)) (fun h => { h with uio := rest }) →
    (e.2.1 = .dead → exec (.uioCompletion tag ok data d) s = .next s1 ∧ exec (.uioTimeout tag) s = .next t1) ∧
    (e.2.1 ≠ .dead →
      (e.2.2 ≠ s.gen → exec (.uioCompletion tag ok data d) s = .next (againUio s1 e.2.1)) ∧
      (e.2.2 = s.gen → ok = true → uioBytes e.2.1 = 0 ∨ data.length = uioBytes e.2.1 →
        exec (.uioCompletion tag ok data d) s = .next (doneUio s1 e.2.1 data d)) ∧
      (e.2.2 = s.gen → ok = false → exec (.uioCompletion tag ok data d) s = .next (failUio s1 e.2.1)) ∧
      exec (.uioTimeout tag) s = .next (failUio t1 e.2.1))) ∧
  (∀ (s : State) (tag d : Nat) (ok : Bool) (data : List Byte),
    takeFirst (fun e : Nat × UioUse × BitVec 16 => e.1 = tag) s.host.uio = none →
    (s.host.busMaster = true → ideOpen s 0 = true → exec (.uioCompletion tag ok data d) s = .next (partnerSeen s 9)) ∧
    (s.host.busMaster = false → exec (.uioCompletion tag ok data d) s = .next s) ∧ exec (.uioTimeout tag) s = .next s) ∧
  (∀ (s : State) (ch : Fin 16384) (sq cq : W32) (addr : W64) (wr b ok : Bool) (tag d : Nat) (data : List Byte),
    (ideOpen s 1 = false → exec (.watchWake ch) s = .next s ∧ exec (.snpinv addr) s = .next s ∧ exec (.snpdata addr) s = .next s ∧
      exec (.watchWakeService ch sq cq) s = .next s ∧ exec (.d2hCompletion ch wr b) s = .next s) ∧
    (ideOpen s 0 = false → exec (.uioCompletion tag ok data d) s = .next s))

/-- With an entry to take that keeps the bounds of its opcode, the entry is taken and: OPEN with no session and no pin opens the lowest free slot of the table, and ends with CAPACITY where none is free; GENERATE and APPEND admit the request on an idle session of the channel; PAUSE starts the session’s pausing with its time to live and spills; RESUME starts its resuming and ends at once where every page is in memory; CLOSE closes the session and ends with its position; ATTACH binds a session that no channel holds. ABORT marks the request that it names, folds its droppable slots, and ends; a tag that has ended gets ALREADY, another NO_REQUEST. An argument out of bounds ends with INVALID, a handle of no session with NO_SESSION, a busy session with BUSY. The session’s table entry is read first: a poisoned one ends the request that its session runs. On a closing channel every entry ends with CLOSED. -/
def Obligations.ChannelRequests : Prop :=
  (∀ (s s1 : State) (ch : Fin 16384) (e : Submission), takesEntry s ch.val e 0x01 → s1 = entryTaken s ch.val e →
    (e.session = 0 → e.arg = 0 → pinOf s1 0 = none →
      (∀ i, freeSession s1 (getChan s1 ch.val).table = some i → exec (.openSession ch e) s = .next (openSession s1 ch.val i e [] 0)) ∧
      (freeSession s1 (getChan s1 ch.val).table = none →
        exec (.openSession ch e) s = .next (finalEntry s1 ch.val e.tag 6 0 []))) ∧
    (e.session ≠ 0 → exec (.openSession ch e) s = .next (finalEntry s1 ch.val e.tag 3 0 []))) ∧
  (∀ (s s1 r : State) (ch : Fin 16384) (e : Submission) (i : Nat), takesEntry s ch.val e 0x02 → s1 = entryTaken s ch.val e →
    idleSession s1 r ch.val e i → e.arg = 0 → e.maxNew ≠ 0 → e.maxNew.toNat ≤ 1048576 →
    exec (.generate ch e) s = .next (admitRequest r ch.val i e false)) ∧
  (∀ (s s1 r : State) (ch : Fin 16384) (e : Submission) (i : Nat), takesEntry s ch.val e 0x03 → s1 = entryTaken s ch.val e →
    idleSession s1 r ch.val e i → e.arg = 0 → exec (.append ch e) s = .next (admitRequest r ch.val i e true)) ∧
  (∀ (s s1 r : State) (ch : Fin 16384) (e : Submission) (i : Nat) (tag : W32), takesEntry s ch.val e 0x04 → s1 = entryTaken s ch.val e →
    e.arg = BitVec.zeroExtend 64 tag → sessionRead s1 r ch.val e i →
    (∀ k, targetOf r ch.val tag = some k → exec (.abortRequest ch e) s = .next (finalEntry
      (foldSession (setSess r k { getSess r k with aborting := true }) k) ch.val e.tag 1 (getSess r i).position [])) ∧
    (targetOf r ch.val tag = none → exec (.abortRequest ch e) s = .next (finalEntry r ch.val e.tag
      (if (getChan r ch.val).doneTags.contains tag then 2 else 9) (getSess r i).position []))) ∧
  (∀ (s s1 r : State) (ch : Fin 16384) (e : Submission) (i : Nat), takesEntry s ch.val e 0x05 → s1 = entryTaken s ch.val e →
    (60 ≤ e.arg.toNat → e.arg.toNat ≤ 64800 → idleSession s1 r ch.val e i →
      ∀ s2, s2 = modSess (runRequest r ch.val i e .pausing) i (fun c => { c with ttl := e.arg.toNat }) →
      exec (.pause ch e) s = .next (checkPaused (spillPausing s2 (getSess s2 i).table) i)) ∧
    (e.arg.toNat < 60 ∨ 64800 < e.arg.toNat → exec (.pause ch e) s = .next (finalEntry s1 ch.val e.tag 3 0 []))) ∧
  (∀ (s s1 r s2 : State) (ch : Fin 16384) (e : Submission) (i : Nat), takesEntry s ch.val e 0x06 → s1 = entryTaken s ch.val e →
    idleSession s1 r ch.val e i → e.arg = 0 → s2 = modSess (runRequest r ch.val i e .resuming) i (fun c => { c with ttl := 0 }) →
    ((getSess s2 i).pages.all inMemory = true → exec (.resume ch e) s = .next (endRequest s2 i 0)) ∧
    ((getSess s2 i).pages.all inMemory = false → exec (.resume ch e) s = .next s2)) ∧
  (∀ (s s1 r : State) (ch : Fin 16384) (e : Submission) (i : Nat), takesEntry s ch.val e 0x07 → s1 = entryTaken s ch.val e →
    idleSession s1 r ch.val e i → e.arg = 0 →
    exec (.close ch e) s = .next (finalEntry (closeSession r i) ch.val e.tag 0 (getSess r i).position [])) ∧
  (∀ (s s1 r : State) (ch : Fin 16384) (e : Submission) (i : Nat), takesEntry s ch.val e 0x08 → s1 = entryTaken s ch.val e →
    e.arg = 0 → sessionRead s1 r ch.val e i →
    ((getSess r i).chan = 0 → exec (.attach ch e) s = .next (finalEntry
      (setSess r i { getSess r i with chan := chanHandle r ch.val }) ch.val e.tag 0 (getSess r i).position [])) ∧
    ((getSess r i).chan ≠ 0 → exec (.attach ch e) s = .next (finalEntry r ch.val e.tag 3 (getSess r i).position []))) ∧
  (∀ (s s1 r : State) (ch : Fin 16384) (e : Submission) (i : Nat), s1 = entryTaken s ch.val e →
    ((∀ i, sessOf s1 e.session = some i → (getSess s1 i).table ≠ (getChan s1 ch.val).table) →
      (takesEntry s ch.val e 0x02 → e.arg = 0 → e.maxNew ≠ 0 → e.maxNew.toNat ≤ 1048576 →
        exec (.generate ch e) s = .next (finalEntry s1 ch.val e.tag 4 0 [])) ∧
      (takesEntry s ch.val e 0x03 → e.arg = 0 → exec (.append ch e) s = .next (finalEntry s1 ch.val e.tag 4 0 [])) ∧
      (takesEntry s ch.val e 0x04 → e.arg.toNat < 2 ^ 32 → exec (.abortRequest ch e) s = .next (finalEntry s1 ch.val e.tag 4 0 [])) ∧
      (takesEntry s ch.val e 0x05 → 60 ≤ e.arg.toNat → e.arg.toNat ≤ 64800 →
        exec (.pause ch e) s = .next (finalEntry s1 ch.val e.tag 4 0 [])) ∧
      (takesEntry s ch.val e 0x06 → e.arg = 0 → exec (.resume ch e) s = .next (finalEntry s1 ch.val e.tag 4 0 [])) ∧
      (takesEntry s ch.val e 0x07 → e.arg = 0 → exec (.close ch e) s = .next (finalEntry s1 ch.val e.tag 4 0 [])) ∧
      (takesEntry s ch.val e 0x08 → e.arg = 0 → exec (.attach ch e) s = .next (finalEntry s1 ch.val e.tag 4 0 []))) ∧
    (sessionRead s1 r ch.val e i → busySession (getSess r i) = true → ∀ t, t = finalEntry r ch.val e.tag 5 (getSess r i).position [] →
      (takesEntry s ch.val e 0x02 → e.arg = 0 → e.maxNew ≠ 0 → e.maxNew.toNat ≤ 1048576 → exec (.generate ch e) s = .next t) ∧
      (takesEntry s ch.val e 0x03 → e.arg = 0 → exec (.append ch e) s = .next t) ∧
      (takesEntry s ch.val e 0x05 → 60 ≤ e.arg.toNat → e.arg.toNat ≤ 64800 → exec (.pause ch e) s = .next t) ∧
      (takesEntry s ch.val e 0x06 → e.arg = 0 → exec (.resume ch e) s = .next t) ∧
      (takesEntry s ch.val e 0x07 → e.arg = 0 → exec (.close ch e) s = .next t))) ∧
  (∀ (s s1 : State) (ch : Fin 16384) (e : Submission), s1 = entryTaken s ch.val e → (getChan s ch.val).state = .closing →
    (getChan s ch.val).sqRead ≠ (getChan s ch.val).sqHead →
    ∀ t, t = checkClosing (finalEntry s1 ch.val e.tag 7 0 []) ch.val →
    ∀ c ∈ ([.openSession ch e, .generate ch e, .append ch e, .abortRequest ch e, .pause ch e, .resume ch e, .close ch e,
      .attach ch e] : List Instr), exec c s = .next t)

/-- Clearing Bus Master Enable ends the requests to the host, suspends every open channel, clears the bit and is logged. A function-level reset abandons the command in progress of the primary mailbox (a check of a staged deck ends), ends the requests, frees every channel, clears the requester, disables the tables that now have no work left, erases the link keys and is logged; CXL Reset does this, calls back every line that the host holds and clears the decoders and the snoop filter; hot reset does the same with the link down and no width. The link comes up, outside PERST_N and with input and clock, with its width and rate and, as the model chooses (log 109), Bus Master Enable set; one narrower than 8 lanes or slower than 64 GT/s is logged. -/
def Obligations.HostResetsAndLink : Prop :=
  (∀ (s s1 : State), s1 = modHost (stopRequests s) (fun h => { h with busMaster := false }) →
    exec .busMasterClear s = .next (logBare ((liveChannels s1).foldl suspendChannel s1) evHstBmeCleared uCxl)) ∧
  (∀ (s s1 s2 s3 s4 : State), s1 = stopRequests (abandonMailbox s) → s2 = (liveChannels s1).foldl freeChannel s1 →
    s3 = modHost (s2.host.uio.foldl (fun s e => dropDeadline s (.uio e.1)) s2) (fun h => { h with busMaster := false, uio := [] }) →
    s4 = ((s3.tables.map (·.1)).filter fun t => !(getRound s3 t).isOpen && !(getRound s3 t).again).foldl finishDisable s3 →
    resetFunction s = { s4 with sec := { s4.sec with keySets := [], keyActive := [] } }) ∧
  (∀ s : State,
    (s.background = none → abandonMailbox s = { s with replies := sput none s.replies 0 none }) ∧
    (∀ b, s.background = some b →
      (b.running = false ∨ b.cci ≠ 0 → abandonMailbox s = { s with replies := sput none s.replies 0 none }) ∧
      (b.running = true → b.cci = 0 → ∀ t, t = { s with replies := sput none s.replies 0 none, background := some { b with cci := 2 } } →
        (b.opcode = 0xC012 → s.loader.stage = .verifying → abandonMailbox s = endBackground (dropStaged t) 0xC012 .aborted 0 []) ∧
        (b.opcode ≠ 0xC012 ∨ s.loader.stage ≠ .verifying → abandonMailbox s = t)))) ∧
  (∀ s : State, exec .functionLevelReset s = .next (logBare (resetFunction s) evHstFlr uCxl) ∧
    exec .cxlReset s = .next (logBare (resetMemory (resetFunction s)) evHstCxlReset uCxl)) ∧
  (∀ s : State, (resetMemory s).host.decoders = [] ∧ (resetMemory s).host.snoop = []) ∧
  (∀ (s s1 : State), s1 = resetMemory (resetFunction { s with host := { s.host with busMaster := false } }) →
    exec .hotReset s = .next (logBare { s1 with host := { s1.host with linkUp := false, width := 0, rate := 0 } } evHstHotReset uCxl)) ∧
  (∀ (s s1 : State) (w r : Nat), s.power.inputOn = true → s.host.perst = false → s.ringOsc = false →
    s1 = { s with host := { s.host with linkUp := true, width := w, rate := r, busMaster := true } } →
    (8 ≤ w → 64 ≤ r → exec (.cxlLinkUp w r) s = .next s1) ∧
    (w < 8 ∨ r < 64 → exec (.cxlLinkUp w r) s = .next (logGen s1 evHstLinkDegraded uCxl none [w32 w, w32 r] []))) ∧
  (∀ (s : State) (w r : Nat), s.power.inputOn = false ∨ s.host.perst = true ∨ s.ringOsc = true → exec (.cxlLinkUp w r) s = .next s)

/-- With input power: GET_VERSION begins the connection anew and answers versions 1.2 and 1.3; GET_CAPABILITIES and NEGOTIATE_ALGORITHMS follow it in this order; then GET_DIGESTS and GET_CERTIFICATE answer for slot 0, CHALLENGE with a nonce is signed, GET_MEASUREMENTS answers the block asked for, all eight or their number, signed where asked, KEY_EXCHANGE begins a handshake and FINISH with the right data ends it in a session; HEARTBEAT and END_SESSION answer in a session, whose end erases the keys, as its loss does. A request out of its order is answered with an error. A key is taken over the session, made active where it was programmed, which also ends the insecure state of its stream, and erased; without a session nothing changes. The nonces and signatures are free values (log 123). Message codes are the SPDM standard’s (log 122). -/
def Obligations.AttestationAndKeys : Prop :=
  (∀ s : State, s.power.inputOn = true →
    (∀ s1, s1 = { s with sec := { s.sec with spdmSession := false, spdmHandshake := false, keySets := [], keyActive := [] } } →
      exec .spdmGetVersion s = .next (toHost
        { s1 with sec := { s1.sec with spdmVersion := true, spdmCaps := false, spdmAlgs := false } }
        (.spdm 0x04 [0, 2, 0x00, 0x12, 0x00, 0x13])) ∧
      exec .spdmSessionLoss s = .next s1 ∧
      (s.sec.spdmSession = true → exec .spdmEndSession s = .next (toHost s1 (.spdm 0x6C [])) ∧
        exec .spdmHeartbeat s = .next (toHost s (.spdm 0x68 [])))) ∧
    (s.sec.spdmVersion = true → exec .spdmGetCapabilities s = .next (toHost
      { s with sec := { s.sec with spdmCaps := true } } (.spdm 0x61 (leBytes 4 0x222D6)))) ∧
    (s.sec.spdmCaps = true → exec .spdmNegotiateAlgorithms s = .next (toHost
      { s with sec := { s.sec with spdmAlgs := true } } (.spdm 0x63 (leBytes 4 0x80 ++ leBytes 4 0x02)))) ∧
    (s.sec.spdmAlgs = true →
      exec .spdmGetDigests s = .next (toHost s (.spdm 0x01 ([0x01] ++ sha384 (Config.certChain s.sec.cdi)))) ∧
      exec (.spdmGetCertificate 0) s = .next (toHost s (.spdm 0x02 (Config.certChain s.sec.cdi))) ∧
      (∀ nonce, nonce.length = 32 → exec (.spdmChallenge 0 nonce) s = .next (signedResponse (freeNonce s).2 0x03
        (sha384 (Config.certChain s.sec.cdi) ++ (freeNonce s).1))) ∧
      (∀ x, x.length = 96 → ∀ n, n = freeNonce { s with sec := { s.sec with spdmHandshake := true } } →
        exec (.spdmKeyExchange 0 x) s = .next (signedResponse n.2 0x64 n.1)) ∧
      (∀ nonce, exec (.spdmGetMeasurements 0 false nonce) s = .next (toHost (freeNonce s).2 (.spdm 0x60 ([8, 0] ++ (freeNonce s).1)))) ∧
      (∀ nonce, exec (.spdmGetMeasurements 255 false nonce) s = .next (toHost (freeNonce s).2 (.spdm 0x60
        (leBytes 1 0 ++ leBytes 1 8 ++ [1, 2, 3, 4, 5, 6, 7, 8].flatMap (measurementBlock s) ++ (freeNonce s).1)))) ∧
      (∀ nonce index, 1 ≤ index → index ≤ 8 → ∀ body,
        body = leBytes 1 0 ++ leBytes 1 1 ++ measurementBlock s index ++ (freeNonce s).1 →
        exec (.spdmGetMeasurements index false nonce) s = .next (toHost (freeNonce s).2 (.spdm 0x60 body)) ∧
        (nonce.length = 32 → exec (.spdmGetMeasurements index true nonce) s = .next (signedResponse (freeNonce s).2 0x60 body)))) ∧
    (s.sec.spdmHandshake = true → ∀ v,
      (Config.finishMatches v = true → exec (.spdmFinish v) s = .next (toHost
        { s with sec := { s.sec with spdmHandshake := false, spdmSession := true } } (.spdm 0x65 []))) ∧
      (Config.finishMatches v = false → exec (.spdmFinish v) s = .next (spdmError
        { s with sec := { s.sec with spdmHandshake := false } } 0x06)))) ∧
  (∀ s : State, s.power.inputOn = true → ∀ t, t = toHost s (.spdm 0x7F [0x04, 0]) →
    (s.sec.spdmVersion = false → exec .spdmGetCapabilities s = .next t) ∧
    (s.sec.spdmCaps = false → exec .spdmNegotiateAlgorithms s = .next t) ∧
    (s.sec.spdmAlgs = false → ∀ slot nonce i b x, exec .spdmGetDigests s = .next t ∧ exec (.spdmGetCertificate slot) s = .next t ∧
      exec (.spdmChallenge slot nonce) s = .next t ∧ exec (.spdmGetMeasurements i b nonce) s = .next t ∧
      exec (.spdmKeyExchange slot x) s = .next t) ∧
    (s.sec.spdmHandshake = false → ∀ v, exec (.spdmFinish v) s = .next t) ∧
    (s.sec.spdmSession = false → exec .spdmHeartbeat s = .next t ∧ exec .spdmEndSession s = .next t)) ∧
  (∀ (s : State) (stream dir set : Nat) (key : List Byte), s.sec.spdmSession = true → stream < 2 → dir < 2 → set < 2 →
    (key.length = 32 → exec (.ideKeyProg stream dir set key) s = .next { s with sec := { s.sec with
      keySets := sput none s.sec.keySets (2 * (2 * stream + dir) + set) (some key) } }) ∧
    ((sget none s.sec.keySets (2 * (2 * stream + dir) + set)).isSome = true → exec (.keySetGo stream dir set) s = .next { s with
      sec := { s.sec with keyActive := sput none s.sec.keyActive (2 * stream + dir) (some set) },
      host := { s.host with ideInsecure := s.host.ideInsecure &&& ~~~(BitVec.ofNat 2 (2 ^ stream)) } }) ∧
    exec (.keySetStop stream dir set) s = .next { s with sec := { s.sec with
      keySets := sput none s.sec.keySets (2 * (2 * stream + dir) + set) none,
      keyActive := if sget none s.sec.keyActive (2 * stream + dir) = some set then sput none s.sec.keyActive (2 * stream + dir) none
        else s.sec.keyActive } }) ∧
  (∀ (s : State) (stream dir set : Nat) (key : List Byte), s.sec.spdmSession = false →
    exec (.ideKeyProg stream dir set key) s = .next s ∧ exec (.keySetGo stream dir set) s = .next s ∧
    exec (.keySetStop stream dir set) s = .next s)

/-- While the media are ready and a committed decoder maps the address, a read of a line that the host already holds, or whose set of the snoop filter has room, enters the line and is served, and one into a full set first calls the set’s oldest line back; a write enters as a line write that is answered with Cmp. Without a mapping a read is answered with poison and free data, a write with Cmp, and both are violations of kind 5. An answer to an outstanding call back completes it; without one it is a violation of kind 6. A call back without an answer is a violation of kind 7, is logged and completes. A decoder is committed where R502 allows it, else its error bit is set and that is logged. A violation is recorded with its header, and answered where its kind says so: an uncorrectable error is reported, and a failed integrity check makes a stream insecure (the command does not say which). Nothing of an insecure stream is taken, and a write under a decoder that has left is taken while its line is called back; a BAR0 access of a wrong size or alignment is aborted; each second the kinds of the last are logged. A flush of persistence is acknowledged. -/
def Obligations.HostMemory : Prop :=
  (∀ (s : State) (hpa d : Nat) (ex : Bool) (data : Line) (mask : BitVec 64) (p : Bool), ideOpen s 1 = true →
    s.ctl.mediaReady = true → decodeHpa s hpa = some d →
    exec (.memRd hpa ex) s = .next (hostRead s hpa d ex) ∧
    exec (.memWr hpa data mask p) s = .next (answerSender (outsideWrite s
      { line := addrOfDpa d / 64, data := data, mask := mask, poison := if p then 0xFFFF else 0, sender := .host hpa })
      (.host hpa))) ∧
  (∀ (s : State) (hpa d key : Nat) (ex : Bool), key = d / 64 * 64 → (∀ e ∈ s.host.biPending, e.dpa ≠ key) →
    ((hostHolds s key).isSome = true ∨ (s.host.snoop.filter fun e => snoopSet e.1 = snoopSet key).length < 16 →
      hostRead s hpa d ex = serveRead (snoopEnter s key ex) (.host hpa) (addrOfDpa d / 64) 0) ∧
    (∀ old rest, hostHolds s key = none → (s.host.snoop.filter fun e => snoopSet e.1 = snoopSet key) = old :: rest →
      15 ≤ rest.length → hostRead s hpa d ex = backInvalidate s old.1 (.hostRead hpa ex))) ∧
  (∀ (s : State) (hpa : Nat) (ex : Bool) (data : Line) (mask : BitVec 64) (p : Bool),
    ideOpen s 1 = true → (s.ctl.mediaReady = false ∨ decodeHpa s hpa = none) →
    ((∀ w ∈ s.host.leaving, w.hpaBase ≤ hpa → hpa < w.hpaBase + w.size → ∀ b ∈ s.host.biPending, b.dpa ≠ hdmDpa w hpa / 64 * 64) →
      exec (.memWr hpa data mask p) s = .next (toHost (partnerSeen s 5) (.cmp hpa))) ∧
    exec (.memRd hpa ex) s = .next (toHost { partnerSeen s 5 with freeNext := (partnerSeen s 5).freeNext + 8 }
      (.memRsp hpa (freeLine (partnerSeen s 5)).1 true))) ∧
  (∀ (s : State) (dpa : Nat),
    ((∃ e ∈ s.host.biPending, e.dpa = dpa ∧ e.answered = false) →
      (ideOpen s 1 = true → exec (.birspi dpa) s = .next (answerBi s dpa)) ∧
      ∀ t, t = expire s (.biSnoop dpa) (10 * countsMs) → exec (.bisnpinvTimeout dpa) s =
        .next (completeBi (logGen (partnerSeen t 7) evHstBiTimeout uCxl none [] [w64 dpa]) dpa)) ∧
    ((∀ e ∈ s.host.biPending, e.dpa = dpa → e.answered = true) →
      (ideOpen s 1 = true → exec (.birspi dpa) s = .next (partnerSeen s 6)) ∧ exec (.bisnpinvTimeout dpa) s = .next s)) ∧
  (∀ (s : State) (hpa dpa off size : Nat) (ex p : Bool) (data : Line) (mask : BitVec 64),
    (ideOpen s 1 = false → exec (.memRd hpa ex) s = .next s ∧ exec (.memWr hpa data mask p) s = .next s ∧
      exec (.birspi dpa) s = .next s) ∧
    (ideOpen s 0 = false → exec (.bar0AccessInvalid off size) s = .next s)) ∧
  (∀ (s s1 : State) (n : Fin 4) (base size dpa ways gran : Nat) (d : HdmDecoder), s1 = decommit s n.val →
    d = { committed := true, errNotCommitted := false, hpaBase := base, size := size, dpaBase := dpa, ways := ways, granularity := gran } →
    (commitAllowed s1 n.val base size dpa ways gran = true → exec (.hdmDecoderCommit n base size dpa ways gran) s =
      .next { s1 with host := { s1.host with decoders := sput HdmDecoder.off s1.host.decoders n.val d } }) ∧
    (commitAllowed s1 n.val base size dpa ways gran = false → exec (.hdmDecoderCommit n base size dpa ways gran) s =
      .next (logGen { s1 with host := { s1.host with
          decoders := sput HdmDecoder.off s1.host.decoders n.val { d with committed := false, errNotCommitted := true } } }
        evHstHdmCommitRefused uCxl none [w32 n.val] []))) ∧
  (∀ (s : State) (k : Fin 11) (hd : List Byte),
    (k.val = 2 → exec (.partnerViolation k hd) s = .next (toHost (recordViolation s 2 hd) .unsupportedRequest)) ∧
    (k.val = 3 → exec (.partnerViolation k hd) s = .next (toHost (recordViolation s 3 hd) (.completerAbort 0))) ∧
    (k.val = 1 ∨ k.val = 4 → exec (.partnerViolation k hd) s = .next (toHost (recordViolation s k.val hd) (.aer k.val))) ∧
    (k.val = 10 → ∃ stream < 2, exec (.partnerViolation k hd) s = .next (modHost (takeFree (recordViolation s 10 hd)).2 fun h =>
      { h with ideInsecure := h.ideInsecure ||| BitVec.ofNat 2 (2 ^ stream) })) ∧
    (5 ≤ k.val → k.val ≠ 10 → exec (.partnerViolation k hd) s = .next (recordViolation s k.val hd))) ∧
  (∀ (s : State) (off size : Nat), ideOpen s 0 = true →
    (¬(size = 4 ∧ off % 4 = 0) → ¬(size = 8 ∧ off % 8 = 0) →
      exec (.bar0AccessInvalid off size) s = .next (toHost (partnerSeen s 3) (.completerAbort off))) ∧
    ((size = 4 ∧ off % 4 = 0) ∨ (size = 8 ∧ off % 8 = 0) → exec (.bar0AccessInvalid off size) s = .next s)) ∧
  (∀ s : State, exec .partnerViolationSecondTick s = .next (s.host.partnerSec.foldl
    (fun s e => logGen s evHstPartnerViolation uCxl none [w32 e.1, w32 e.2] [])
    { s with host := { s.host with partnerSec := [], partnerLastSec := min 0xFFFF ((s.host.partnerSec.map (·.2)).sum) } })) ∧
  (∀ (s : State) (phase : Nat), exec (.globalPersistentFlush phase) s =
    .next { s with host := { s.host with out := s.host.out ++ [.gpfAck phase] } })

/-- On an interface that hears (with input power, and a secure link for the primary mailbox) each of these commands leaves its answer for its interface and changes nothing else: IDENTIFY, BACKGROUND_OPERATION_STATUS of an operation and without one, GET_EVENT_RECORDS with the overflow of the log and its oldest records, at most 31, GET_EVENT_INTERRUPT_POLICY, GET_FW_INFO, GET_SUPPORTED_LOGS, GET_LOG, IDENTIFY_MEMORY_DEVICE with 1,152 units, 0 in misdeal, GET_HEALTH_INFO, GET_POISON_LIST with at most 256 records and, for an unknown opcode, Unsupported. An interface that does not hear answers nothing. The payloads that the spec leaves to CXL are the model’s (log 113). -/
def Obligations.MailboxReads : Prop :=
  (∀ (s : State) (c : Fin 2) (ok : Nat → List Byte → State), hears s c.val = true →
    ok = (fun op out => answered s c.val op .success 0 out) →
    exec (.identify c) s = .next (ok 0x0001
      (leBytes 2 Config.vendorId.toNat ++ leBytes 2 0xA128 ++ Config.standardBytes 0x0001)) ∧
    (s.background = none → exec (.backgroundOperationStatus c) s = .next (ok 0x0002 (List.replicate 8 0))) ∧
    (∀ b, s.background = some b → b.running = true → exec (.backgroundOperationStatus c) s = .next (ok 0x0002
      (leBytes 1 (1 + 2 * b.percent) ++ leBytes 1 0 ++ leBytes 2 b.opcode ++ leBytes 2 0 ++ leBytes 2 b.code.toNat ++ b.out))) ∧
    (∀ n : Fin 4, ∃ out, exec (.getEventRecords c n) s = .next (ok 0x0100 out) ∧
      out = leBytes 1 ((if (getLogNo s n.val).overflow then 1 else 0) + (if 31 < (getLogNo s n.val).records.length then 2 else 0)) ++
        leBytes 1 0 ++ leBytes 2 (getLogNo s n.val).overflowCount ++ List.replicate 16 0 ++
        leBytes 2 (min 31 (getLogNo s n.val).records.length) ++ List.replicate 10 0 ++
        ((List.range (min 31 (getLogNo s n.val).records.length)).zip ((getLogNo s n.val).records.take 31)).flatMap
          fun e => recordBytes n.val (((getLogNo s n.val).cleared + e.1) % 65535 + 1) e.2) ∧
    exec (.getEventInterruptPolicy c) s = .next (ok 0x0102 ((s.host.policy ++ List.replicate 4 0).take 4)) ∧
    (∃ out, exec (.getFwInfo c) s = .next (ok 0x0200 out) ∧
      out.take 3 = [2, BitVec.ofNat 8 (1 + s.ctl.bootSlot + 8 * (if s.ctl.fwPhase = .none then 0 else 2 - s.ctl.bootSlot)), 1] ∧
      out.length = 48) ∧
    exec (.getSupportedLogs c) s = .next (ok 0x0400 (leBytes 2 2 ++ List.replicate 6 0 ++ Config.standardBytes 0x0400)) ∧
    (∀ v, exec (.getLog c v) s = .next (ok 0x0401 (Config.standardBytes (if v then 0x10401 else 0x0401)))) ∧
    (∀ cap, cap = (if s.ctl.idState = .misdeal then 0 else 1152) → exec (.identifyMemoryDevice c) s = .next (ok 0x4000
      (padTo 16 (Config.standardBytes 0x4000) ++ leBytes 8 cap ++ leBytes 8 cap ++ leBytes 8 0 ++ leBytes 8 0 ++
        leBytes 2 1024 ++ leBytes 2 1024 ++ leBytes 2 1024 ++ leBytes 2 1024 ++ leBytes 4 0 ++ leBytes 3 256 ++ leBytes 2 0))) ∧
    (∃ out, exec (.getHealthInfo c) s = .next (ok 0x4200 out) ∧
      out[1]? = some (if s.ctl.mediaReady then 0 else 1) ∧ (out.drop 4).take 2 = leBytes 2 ((hottest s / 4) % 65536).toNat) ∧
    (s.ctl.idState ≠ .misdeal → exec (.getPoisonList c) s = .next (ok 0x4300
      (leBytes 1 (if 256 < (poisonList s).length then 2 else 0) ++ leBytes 1 0 ++ leBytes 8 0 ++
        leBytes 2 (min 256 (poisonList s).length) ++ List.replicate 20 0 ++
        ((poisonList s).take 256).flatMap fun d => leBytes 8 d ++ leBytes 4 1 ++ leBytes 4 0))) ∧
    (∀ op, exec (.mailboxUnsupported c op) s = .next (answered s c.val op .unsupported 0 []))) ∧
  (∀ (s : State) (c : Fin 2), hears s c.val = false →
    ∀ i ∈ ([.identify c, .backgroundOperationStatus c, .getEventInterruptPolicy c, .getFwInfo c, .getSupportedLogs c,
      .identifyMemoryDevice c, .getHealthInfo c, .getPoisonList c] : List Instr), exec i s = .next s)

/-- On an interface that hears: a background operation that may stop is stopped; with none the abort is an invalid input, with one that may not it is unsupported. Clearing a whole log empties it and forgets its overflow; clearing by handles takes the oldest records, named in order, and refuses any other list. The interrupt policy takes four settings. An image that passes every check, into the other slot and inside the store’s window, is kept as transferred; one that fails a check is logged and not kept; the running slot is refused. A transferred image is activated online on the standby core, or in misdeal by a restart. Soft maintenance of a row in a window spares it and asks for a hard repair. Poison is injected, or cleared by a write of the data given, once the host’s copy has been called back; an address outside the windows is refused, and misdeal accepts neither. -/
def Obligations.MailboxActions : Prop :=
  (∀ (s : State) (c : Fin 2) (ans : State → Nat → Status → List Byte → State), hears s c.val = true →
    ans = (fun t op st out => answered t c.val op st 0 out) →
    (∀ b, s.background = some b →
      (b.running = true → ∀ t, abortBackground s b.opcode = some t →
        exec (.requestAbortBackgroundOperation c) s = .next (ans t 0x0005 .success [])) ∧
      (b.running = true → abortBackground s b.opcode = none →
        exec (.requestAbortBackgroundOperation c) s = .next (ans s 0x0005 .unsupported [])) ∧
      (b.running = false → exec (.requestAbortBackgroundOperation c) s = .next (ans s 0x0005 .invalidInput []))) ∧
    (∀ (n : Fin 4) (hs : List W32) (l : EventLog) (put : EventLog → State), l = getLogNo s n.val →
      put = (fun l => { s with logs := sput emptyLog s.logs n.val l }) →
      exec (.clearEventRecords c n true hs) s = .next (ans (put
        { cleared := l.cleared + l.records.length, records := [], overflow := false, overflowCount := 0 }) 0x0101 .success []) ∧
      (∀ k ≤ l.records.length, (l.records.drop k).length ≠ 0 → hs = (List.range k).map (fun i => w32 ((l.cleared + i) % 65535 + 1)) →
        exec (.clearEventRecords c n false hs) s = .next (ans (put
          { cleared := l.cleared + k, records := l.records.drop k, overflow := l.overflow, overflowCount := l.overflowCount })
          0x0101 .success [])) ∧
      (l.records.length < hs.length ∨ hs ≠ (List.range hs.length).map (fun i => w32 ((l.cleared + i) % 65535 + 1)) →
        exec (.clearEventRecords c n false hs) s = .next (ans s 0x0101 .invalidHandle []))) ∧
    (∀ bs : List Byte, 4 ≤ bs.length → exec (.setEventInterruptPolicy c bs) s = .next
      (ans { s with host := { s.host with policy := bs.take 4 } } 0x0103 .success [])) ∧
    (∀ (slot : Nat) (bs : List Byte), (slot = 0 ∨ 2 < slot ∨ slot - 1 = s.ctl.bootSlot →
        exec (.transferFw c slot bs) s = .next (ans s 0x0201 .invalidInput [])) ∧
      (1 ≤ slot → slot ≤ 2 → slot - 1 ≠ s.ctl.bootSlot → s.ctl.fwPhase = .none ∨ s.ctl.fwPhase = .transferred →
        storeWindow s = true →
        (fwFault s bs = 0 → exec (.transferFw c slot bs) s = .next (ans (modCtl (setFw s (slot - 1) (some (parseFw bs)) .empty)
          fun k => { k with fwPhase := .transferred }) 0x0201 .success [])) ∧
        (∀ n, fwFault s bs = n + 1 → exec (.transferFw c slot bs) s = .next (ans
          (logGen s evSecFwRejected uMgmt none [w32 (n + 1)] []) 0x0201 .authFailed [])))) ∧
    (∀ (slot : Nat) (f : FwImage), 1 ≤ slot → slot ≤ 2 → slot - 1 ≠ s.ctl.bootSlot → s.ctl.fwPhase = .transferred →
      fwSlot s (slot - 1) = some f → (deckOf s = none ∨ f.deckMajor = 1) →
      (s.ctl.idState = .misdeal → exec (.activateFw c true slot) s = .next (ans (restartBoot s (slot - 1)) 0x0202 .success [])) ∧
      (s.ctl.idState ≠ .misdeal → exec (.activateFw c true slot) s = .next (ans
        (startDeadline { s with ctl := { s.ctl with fwPhase := .loading, standbyReady := false } } .standbyLoad) 0x0202 .success []))) ∧
    (∀ (dpa d : Nat) (p : Place), inWindow s dpa = true → p = placeOf s (addrOfDpa dpa) → ∀ t,
      softSpareHeld s p.stack p.bank p.row (2 ^ p.line) = some t → exec (.performMaintenance c true dpa d) s =
        .next (ans (pendSpare t p.stack p.bank p.row (2 ^ p.line) true) 0x0600 .success [])) ∧
    (∀ (dpa d : Nat) (p : Place) (t : State), inWindow s dpa = true → p = placeOf s (addrOfDpa dpa) →
      t = pendSpare s p.stack p.bank p.row (2 ^ p.line) true →
      ((getStack t p.stack).pendingSpare.any fun e => e.bank = p.bank && e.row = p.row) = true →
      exec (.performMaintenance c false dpa d) s = .next (ans t 0x0600 .success [])) ∧
    (∀ dpa d b, inWindow s dpa = false → exec (.performMaintenance c b dpa d) s = .next (ans s 0x0600 .invalidInput [])) ∧
    (∀ (dpa : Nat) (data : Line), s.ctl.idState ≠ .misdeal →
      (dpa % 64 = 0 → inWindow s dpa = true → ∀ s1 s2, s1 = ans s 0x4301 .success [] → s2 = ans s 0x4302 .success [] →
        (hostHolds s dpa = none → (∀ e ∈ s.host.biPending, e.dpa ≠ dpa) →
          exec (.injectPoison c dpa) s = .next (injectLine s1 (addrOfDpa dpa / 64)) ∧
          exec (.clearPoison c dpa data) s = .next (outsideWrite s2
            { line := addrOfDpa dpa / 64, data := data, mask := fullMask, poison := 0, sender := .none })) ∧
        ((hostHolds s dpa).isSome = true →
          exec (.injectPoison c dpa) s = .next (backInvalidate s1 dpa (.poison dpa none)) ∧
          exec (.clearPoison c dpa data) s = .next (backInvalidate s2 dpa (.poison dpa (some data))))) ∧
      (dpa % 64 ≠ 0 ∨ inWindow s dpa = false →
        exec (.injectPoison c dpa) s = .next (ans s 0x4301 .invalidInput []) ∧
        exec (.clearPoison c dpa data) s = .next (ans s 0x4302 .invalidInput []))) ∧
    (s.ctl.idState = .misdeal → ∀ dpa data,
      exec (.injectPoison c dpa) s = .next (ans s 0x4301 .unsupported []) ∧
      exec (.clearPoison c dpa data) s = .next (ans s 0x4302 .unsupported [])))

/-- A taken DECK_QUERY answers the card types. DECK_SET_INDEX sets the index. DECK_STAGE of a length in bounds, with nothing staged and in the store’s window, empties the staging slot and asks for the first part; each completion appends its data and asks for the next, and the last makes the deck STAGED, which verification follows. Verification without a fault makes the deck VERIFIED and ends the command; with one it ends in EMPTY with the first fault. DECK_ARM of a verified deck that passes begins arming, one that fails ends with its fault; the built load image, written to the module area, makes it ARMED. DECK_SWITCH at the dealer gathers its members, alone it announces at once. A discard answers 0 and drops the deck, and ends a switch that gathers or is announced, unless the switch trick has been played, answers 1 from then on, and 2 while the marks are written. The fills of pools end and the first mark is accepted, unless writes to a stack are held. A command in a wrong state is refused and logged. -/
def Obligations.DeckCommands : Prop :=
  (∀ (s : State) (c : Fin 2), vendorTaken s c.val 0xC010 0 [] false → ∃ out, exec (.deckQuery c []) s = .next (answered s c.val 0xC010 .success 0 out) ∧
    out.take 4 = [1, 0, 1, 0] ∧ out.length = 8 + 4 * (cardCounts.length + 1)) ∧
  (∀ (s s1 : State) (c : Fin 2) (inp : List Byte), signedTaken s s1 c.val 0xC011 8 inp anyOwner false →
    inField (inp.take 8) 0 2 < 2 ^ 13 → zeroFrom (inp.take 8) 2 = true →
    (s1.loader.stage = .empty ∨ s1.loader.stage = .staged ∨ s1.loader.stage = .verified → ∀ i, i = inField (inp.take 8) 0 2 →
      exec (.deckSetIndex c inp) s = .next (answered { s1 with loader := { s1.loader with
        index := some i, storedIndex := if storeWindow s1 then some i else s1.loader.storedIndex,
        staged := if s1.loader.index = some i then s1.loader.staged else none } } c.val 0xC011 .success 0 [])) ∧
    (s1.loader.stage = .armed → exec (.deckSetIndex c inp) s = .next (stateRefuse s1 c.val 0xC011))) ∧
  (∀ (s : State) (c : Fin 2) (inp : List Byte), vendorTaken s c.val 0xC012 16 inp true → s.loader.stage = .empty →
    320 ≤ inField inp 8 8 → inField inp 8 8 % 8 = 0 → inField inp 8 8 ≤ maxDeck → storeWindow s = true →
    stagingSlot s = 0 → s.host.busMaster = true →
    exec (.deckStage c inp) s = .next (fetchNext (modLoader (startBg s c.val 0xC012) fun l => { l with
      stage := .staging, stageSlot := 0, fetchAddr := w64 (inField inp 0 8), fetchLen := inField inp 8 8, fetched := 0,
      staged := none, armed := none, slot0 := [], mark0 := .empty }))) ∧
  (∀ (s : State) (c : Fin 2) (inp : List Byte), vendorTaken s c.val 0xC012 16 inp true → s.loader.stage ≠ .empty →
    exec (.deckStage c inp) s = .next (stateRefuse s c.val 0xC012)) ∧
  (∀ (s s1 : State) (data d : List Byte), s.loader.stage = .staging → data ≠ [] → s.loader.stageSlot = 0 →
    d = data.take (s.loader.fetchLen - s.loader.fetched) →
    s1 = { s with loader := { s.loader with fetched := s.loader.fetched + d.length, slot0 := s.loader.slot0 ++ d } } →
    (s.loader.fetched + d.length < s.loader.fetchLen → exec (.deckStageReadCompletion data false) s = .next (fetchNext s1)) ∧
    (s.loader.fetchLen ≤ s.loader.fetched + d.length → exec (.deckStageReadCompletion data false) s = .next
      { s1 with loader := { s1.loader with stage := .staged } }) ∧
    exec (.deckStageReadCompletion data true) s = .next (failFetch s)) ∧
  (∀ (q s s1 : State) (v : Option (Ev × Nat) × List Card), s = beginVerify q → s.loader.stage = .verifying →
    verifyDeck s (slotImage s s.loader.stageSlot) s.loader.fetchLen s.loader.index = v → noteSkipped s v.2 = s1 →
    (v.1 = none → exec .deckVerifyDone q = .next (endBackground (modLoader s1 fun l => { l with
      stage := .verified, skipped := min 255 (v.2.filter skipped).length,
      staged := if l.index.isSome then some (readDeck (slotImage s s.loader.stageSlot) (counted v.2)) else none })
      0xC012 .success 0 [])) ∧
    (∀ e o, v.1 = some (e, o) → exec .deckVerifyDone q = .next (failStage s1 e (w32 o) [w32 o] []))) ∧
  (∀ (s s1 : State) (c : Fin 2), vendorTaken s c.val 0xC013 0 [] true →
    (s.loader.stage ≠ .verified → exec (.deckArm c []) s = .next (stateRefuse s c.val 0xC013)) ∧
    (s.loader.stage = .verified → ∀ cs r, armChecks s (slotImage s s.loader.stageSlot) = (cs, r) →
      s1 = startBg (noteSkipped s cs) c.val 0xC013 →
      (∀ d, r = .ok d → exec (.deckArm c []) s = .next (modLoader s1 fun l => { l with
        stage := .arming, staged := some d, skipped := min 255 (cs.filter skipped).length })) ∧
      (∀ e o args, r = .error (e, o, args) → exec (.deckArm c []) s =
        .next (endBackground (deckFault s1 e o args []) 0xC013 .invalidInput (e.word uDeck) [])))) ∧
  (∀ s : State, (s.loader.stage = .arming →
      (∀ d t, s.loader.staged = some d → t = writeImage s d s.loader.fetchLen → exec .deckArmBuildDone s = .next (endBackground
        { t with loader := { t.loader with stage := .armed, armed := t.loader.staged } } 0xC013 .success 0 [])) ∧
      (s.loader.staged = none → exec .deckArmBuildDone s = .next (endBackground
        { s with loader := { s.loader with stage := .armed, armed := none } } 0xC013 .success 0 []))) ∧
    (s.loader.stage ≠ .arming → exec .deckArmBuildDone s = .next s)) ∧
  (∀ (s s1 : State) (c : Fin 2) (a d : Deck), vendorTaken s c.val 0xC014 0 [] true → s.loader.stage = .armed → s.loader.armed = some a →
    a.role.dealer = ownIndex s →
    s1 = startDeadline (modLoader (startBg s c.val 0xC014) fun l =>
      { l with phase := .gathering, gathered := [], alone := heldOut s }) .gather →
    switchDeck s1 = some d → ∀ ms, ms = (if heldOut s then [] else otherMembers s1 d) →
    (ms ≠ [] → exec (.deckSwitch c []) s = .next (ms.foldl (fun s m => sendFrame s m 64 .switchGather) s1)) ∧
    (ms = [] → exec (.deckSwitch c []) s = .next (gatherDone s1 d))) ∧
  (∀ (s : State) (c : Fin 2), vendorTaken s c.val 0xC015 0 [] false →
    (s.loader.phase = .none → s.loader.stage = .verified ∨ s.loader.stage = .armed → exec (.deckDiscard c []) s =
      .next (answered (dropStaged s) c.val 0xC015 .success 0 [0])) ∧
    (s.loader.phase = .gathering ∨ s.loader.phase = .announced → exec (.deckDiscard c []) s =
      .next (answered (dropStaged (discardSwitch s)) c.val 0xC015 .success 0 [0])) ∧
    (s.loader.phase = .played ∨ s.loader.phase = .loading ∨ s.loader.phase = .replayed → exec (.deckDiscard c []) s =
      .next (answered s c.val 0xC015 .success 0 [1])) ∧
    (s.loader.phase = .marking → exec (.deckDiscard c []) s = .next (answered s c.val 0xC015 .success 0 [2]))) ∧
  (∀ (s s1 : State), s.loader.poolFill = true →
    s1 = modLoader (s.loader.fillFrames.foldl fillFrame s) (fun l => { l with poolFill := false, fillFrames := [] }) →
    (fillHeld s = false → exec .poolFillDone s = .next (if isDealer s1 then startRounds s1 else openHeld s1)) ∧
    (fillHeld s = true → exec .poolFillDone s = .next s))

/-- Taken, CHAN_CREATE on the dealer opens the first free channel of the table and answers its handle; without a deck it is refused. CHAN_DESTROY closes a channel, CHAN_QUERY answers its four words, CHAN_RESUME of a suspended channel logs each of its gaps, opens it and writes what waits; a stale handle is refused. TABLE_DISABLE closes the channels of the table and folds what its open round may drop, TABLE_ENABLE enables it and starts its rounds. PREFIX_PIN reads the tokens into a free pin, PREFIX_UNPIN of a ready pin drops its pages, PREFIX_FLUSH rebuilds the tree with cause 3. KV_SPILL_SET and SLOW_WINDOW_SET write their window, SLOW_WINDOW_QUERY answers it. VND_IDENTIFY answers the opcodes, PARTNER_LOG_READ the newest 170 records. A valid route table is loaded at once without a deck; an invalid entry is refused. FAB_PORT_CLEAR clears a port without a deck and sends QUAR_CLEAR from the dealer, FAB_PORT_RETRAIN retrains one. Layouts: logs 78, 79, 102, 115, 116. -/
def Obligations.ServingCommands : Prop :=
  (∀ (s : State) (c : Fin 2) (inp : List Byte), vendorTaken s c.val 0xC040 40 inp false →
    (deckOf s = none → exec (.chanCreate c inp) s = .next (refuseWith s c.val 0xC040 evSrvNoDeck uCtl none [w32 0xC040] [])) ∧
    (∀ e n, (deckOf s).isSome → isDealer s = true → tableEntry s (inByte inp 0) = some e →
      (getTable s (inByte inp 0)).enabled = true → (getTable s (inByte inp 0)).disabling = false → chanFieldsBad s inp = false →
      freeChanIndex s e = some n →
      exec (.chanCreate c inp) s = .next (answered (openChannel s n inp) c.val 0xC040 .success 0
        (leBytes 4 (chanHandle (openChannel s n inp) n).toNat)))) ∧
  (∀ (s : State) (c : Fin 2) (inp : List Byte), zeroFrom inp 4 = true →
    (vendorTaken s c.val 0xC041 8 inp true →
      (∀ n s1, chanOf s (w32 (inField inp 0 4)) = some n →
        s1 = modChan (startBg s c.val 0xC041) n (fun k => { k with destroying := true }) →
        exec (.chanDestroy c inp) s = .next (checkClosing (closeChannel s1 n) n)) ∧
      (chanOf s (w32 (inField inp 0 4)) = none → exec (.chanDestroy c inp) s =
        .next (refuseWith s c.val 0xC041 evSrvHandleStale uCtl none [w32 0xC041] [w64 (inField inp 0 4)]))) ∧
    (vendorTaken s c.val 0xC042 8 inp false → s.host.busMaster = true → ∀ n, chanOf s (w32 (inField inp 0 4)) = some n →
      ((getChan s n).state ≠ .suspended → exec (.chanResume c inp) s = .next (answered s c.val 0xC042 .success 0 [])) ∧
      (∀ t s1 s2, (getChan s n).state = .suspended → t = (getChan s n).table →
        s1 = (getChan s n).gapTags.foldl (fun s g =>
          logGen s evSrvCqGap uCtl (some t) [chanHandle s n, g.2] []) s →
        s2 = setChan s1 n { getChan s n with state := .opened, gap := 0, gapTags := [] } →
        exec (.chanResume c inp) s = .next (answered
          (resumeFetch (writeBacklog s2 n (gapEntries (getChan s n) ++ (getChan s n).backlog)) n) c.val 0xC042 .success 0 []))) ∧
    (vendorTaken s c.val 0xC043 8 inp false → ∀ n, chanOf s (w32 (inField inp 0 4)) = some n →
      exec (.chanQuery c inp) s = .next (answered s c.val 0xC043 .success 0 ((chanWords s n).flatMap fun v => leBytes 4 v.toNat)))) ∧
  (∀ (s s1 : State) (c : Fin 2) (inp : List Byte) (t : Nat), zeroFrom (inp.take 8) 1 = true → t = inByte (inp.take 8) 0 →
    (tableEntry s1 t).isSome →
    (signedTaken s s1 c.val 0xC044 8 inp anyOwner true → (getTable s1 t).enabled = true → (getTable s1 t).disabling = false →
      ∀ s2, s2 = (chansOf (modTable (startBg s1 c.val 0xC044) t fun k => { k with disabling := true }) t).foldl closeChannel
        (modTable (startBg s1 c.val 0xC044) t fun k => { k with disabling := true }) →
      ((getRound s2 t).again = true → exec (.tableDisable c inp) s = .next s2) ∧
      ((getRound s2 t).again = false →
        ((getRound s2 t).isOpen = true → (getRound s2 t).written = true →
          exec (.tableDisable c inp) s = .next (foldSlots s2 t fun _ => true)) ∧
        ((getRound s2 t).isOpen = true → (getRound s2 t).written = false → exec (.tableDisable c inp) s = .next s2) ∧
        ((getRound s2 t).isOpen = false → exec (.tableDisable c inp) s = .next (boundary s2 t)))) ∧
    (signedTaken s s1 c.val 0xC045 8 inp anyOwner false → (getTable s1 t).enabled = false →
      exec (.tableEnable c inp) s = .next (answered (startRounds (logGen (modTable s1 t fun k => { k with enabled := true })
        evSrvTableEnabled uCtl (some t) [w32 t] [])) c.val 0xC045 .success 0 []))) ∧
  (∀ (s : State) (c : Fin 2) (inp : List Byte) (tokens : List W32) (n i : Nat), vendorTaken s c.val 0xC050 16 inp true →
    zeroBytes inp 1 3 = true → isDealer s = true → (tableEntry s (inByte inp 0)).isSome → n = inField inp 4 4 →
    n % 32 = 0 → 32 ≤ n → n ≤ 65536 → freePin s = some i → s.host.busMaster = true → n ≤ tokens.length →
    exec (.prefixPin c inp tokens) s = .next (modPin (toHost (startBg s c.val 0xC050) (.rdCurr (w64 (inField inp 8 8)) (4 * n))) i
      fun p => { p with used := true, table := inByte inp 0, pages := [], tokens := tokens.take n, committed := 0, ready := false })) ∧
  (∀ (s : State) (c : Fin 2) (inp : List Byte) (i : Nat) (p : Pin), vendorTaken s c.val 0xC051 8 inp false → isDealer s = true →
    pinOf s (w64 (inField inp 0 8)) = some i → sget Pin.free s.cache.pins i = p → p.ready = true →
    exec (.prefixUnpin c inp) s = .next (answered (p.pages.foldl dropPage (modPin
      (modRound s p.table fun r => { r with closes := r.closes ++ [pinHandle s i + guestTag] }) i
      fun p => { Pin.free with gen := nextPinGen p.gen })) c.val 0xC051 .success 0 [])) ∧
  (∀ (s : State) (c : Fin 2) (inp : List Byte), vendorTaken s c.val 0xC052 8 inp true → zeroFrom inp 1 = true → isDealer s = true →
    inByte inp 0 < 64 → exec (.prefixFlush c inp) s = .next (startRebuild (startBg s c.val 0xC052) 3 (· = inByte inp 0))) ∧
  (∀ (s s1 : State) (c : Fin 2) (inp own : List Byte), own = inp.take 16 → signedTaken s s1 c.val 0xC053 16 inp anyOwner false →
    zeroBytes own 2 2 = true → inByte own 0 < 64 → inByte own 1 < 16 →
    (inField own 4 4 = 0 ∨ spillInUse s1 (inByte own 0) = false) →
    exec (.kvSpillSet c inp) s = .next (answered (modTable (if inField own 4 4 = 0 then abandonSlots s1 (inByte own 0) else s1)
      (inByte own 0) fun k => { k with spillWindow := some (inByte own 1, inField own 8 8, inField own 4 4) }) c.val 0xC053 .success 0 [])) ∧
  (∀ (s s1 : State) (c : Fin 2) (inp own : List Byte) (w : Nat), own = inp.take 24 → signedTaken s s1 c.val 0xC060 24 inp anyOwner false →
    w = inByte own 0 → inByte own 1 < 2 → zeroBytes own 2 6 = true → w < 16 → inField own 16 8 % 65536 = 0 →
    (windowInUse s1 w = true → exec (.slowWindowSet c inp) s = .next (refuseWith s1 c.val 0xC060 evHstWindowInUse uCxl none [w32 w] [])) ∧
    (windowInUse s1 w = false → exec (.slowWindowSet c inp) s = .next (answered { s1 with host := { s1.host with
      slow := sput (false, 0, 0) s1.host.slow w (decide (inByte own 1 = 1), inField own 8 8, inField own 16 8) } }
      c.val 0xC060 .success 0 []))) ∧
  (∀ (s : State) (c : Fin 2) (inp : List Byte) (w b z : Nat) (en : Bool), vendorTaken s c.val 0xC061 8 inp false → zeroFrom inp 1 = true →
    w = inByte inp 0 → w < 16 → sget (false, 0, 0) s.host.slow w = (en, b, z) → exec (.slowWindowQuery c inp) s =
      .next (answered s c.val 0xC061 .success 0 (leBytes 1 w ++ [if en then 1 else 0] ++ List.replicate 6 0 ++ leBytes 8 b ++ leBytes 8 z))) ∧
  (∀ (s : State) (c : Fin 2),
    (vendorTaken s c.val 0xC000 0 [] false → exec (.vndIdentify c []) s = .next (answered s c.val 0xC000 .success 0
      ([1, 0, 0, 0] ++ leBytes 4 vendorOpcodes.length ++ vendorOpcodes.flatMap fun op => leBytes 2 op))) ∧
    (vendorTaken s c.val 0xC001 0 [] false → exec (.partnerLogRead c []) s = .next (answered s c.val 0xC001 .success 0
      ((s.host.partner.drop (s.host.partner.length - 170)).flatMap fun e =>
        leBytes 4 e.1 ++ leBytes 4 e.2.1.toNat ++ padTo 16 e.2.2)))) ∧
  (∀ (s s1 : State) (c : Fin 2) (inp : List Byte) (es : List (BitVec 16)), signedTaken s s1 c.val 0xC030 8 inp anyOwner true →
    s1.host.busMaster = true → es.length ≤ 8192 → ∀ s2, s2 = toHost (startBg s1 c.val 0xC030) (.ioRead (w64 (inField (inp.take 8) 0 8)) 16384) →
    (((List.range es.length).zip es).find? (fun e => !routeEntryOk e.2) = none →
      (deckOf s2 = none → exec (.fabRouteLoad c inp es) s = .next (endBackground
        (logBare { s2 with routes := routeTable es, routesPending := none } evFabRouteLoaded uFabric) 0xC030 .success 0 [])) ∧
      ((deckOf s2).isSome = true → exec (.fabRouteLoad c inp es) s =
        .next (endBackground { s2 with routesPending := some (routeTable es) } 0xC030 .success 0 []))) ∧
    (∀ e, ((List.range es.length).zip es).find? (fun e => !routeEntryOk e.2) = some e →
      exec (.fabRouteLoad c inp es) s = .next (endBackground (logGen s2 evFabRouteInvalid uFabric none [w32 e.1] [])
        0xC030 .invalidInput (evFabRouteInvalid.word uFabric) []))) ∧
  (∀ (s s1 : State) (c : Fin 2) (inp own : List Byte) (p m : Nat), own = inp.take 8 → p = inByte own 0 → p < 12 →
    (signedTaken s s1 c.val 0xC031 8 inp anyOwner false → inByte own 1 = 0 → zeroFrom own 4 = true → m = inField own 2 2 → m < 2 ^ 13 →
      (deckOf s1 = none → exec (.fabPortClear c inp) s = .next (answered (clearPort s1 p) c.val 0xC031 .success 0 [])) ∧
      ((deckOf s1).isSome = true → isDealer s1 = true →
        exec (.fabPortClear c inp) s = .next (answered (sendFrame s1 m 64 (.quarClear p m)) c.val 0xC031 .success 0 []))) ∧
    (signedTaken s s1 c.val 0xC032 8 inp anyOwner false → zeroFrom own 1 = true →
      exec (.fabPortRetrain c inp) s = .next (answered
        (if (getPort s1 p).state = .active then portLeavesActive (retrainPort s1 p) p evFabLinkDown else retrainPort s1 p)
        c.val 0xC032 .success 0 [])))

/-- Taken, SEC_NONCE_GET answers and keeps a nonce of two fresh free values; its expiry removes it. SEC_KEY_STATE answers the slots, SVN_MIN, the DEBUG state and the four hashes. Enrolment of an empty slot (signed by an owner, or by Velyrith’s key while none is enrolled), revocation of an enrolled slot that is not the last, an SVN advance that the other slot’s image survives and a permanent unlock queue their fuse as a background command; revoking the last slot and a refused advance log their code. In the fuse window of the compute die, 10 to 70 °C, the first queued fuse is written with its effect, its log entry and the end of its command; outside it nothing happens. SELFTEST_RESULT answers Table 17.2. RETEST in misdeal or without a deck tests again, REPAIR_WINDOW_OPEN without a deck works the window at once, REPAIR_APPLY in misdeal applies every repair, RECOVER of a domain aborts and recovers it. Layouts: logs 115, 116. -/
def Obligations.SecurityAndRepairCommands : Prop :=
  (∀ (s s1 : State) (c : Fin 2) (n : BitVec 128), vendorTaken s c.val 0xC020 0 [] false →
    n = Config.freeValue (s.freeNext + 1) ++ Config.freeValue s.freeNext → s1 = startDeadline { s with freeNext := s.freeNext + 2 } (.nonce c.val) →
    exec (.secNonceGet c []) s = .next (answered { s1 with sec := { s1.sec with nonces := sput none s1.sec.nonces c.val (some n) } }
      c.val 0xC020 .success 0 (leBytes 16 n.toNat))) ∧
  (∀ (s t : State) (c : Fin 2), t = expire s (.nonce c.val) (60 * countsSec) → exec (.nonceExpiry c) s =
    .next { t with sec := { t.sec with nonces := sput none t.sec.nonces c.val none } }) ∧
  (∀ (s : State) (c : Fin 2), vendorTaken s c.val 0xC021 0 [] false → exec (.secKeyState c []) s = .next (answered s c.val 0xC021 .success 0
    (leBytes 1 (ownerStateByte s) ++ leBytes 1 s.sec.svnMin ++ leBytes 1 s.sec.debug ++ List.replicate 5 0 ++
      (List.range 4).flatMap fun k => digestBytes (sget 0 s.sec.ownerHash k)))) ∧
  (∀ (s s1 : State) (c : Fin 2) (inp own : List Byte) (slot : Nat), own = inp.take 56 → slot = inByte own 0 →
    signedTaken s s1 c.val 0xC022 56 inp (fun k => if (enrolledSlots s).isEmpty then k = 0xFF else k < 4) true →
    zeroBytes own 1 7 = true →
    (slot < 4 → sget 0 s1.sec.ownerState slot = 0 → exec (.secOwnerEnroll c inp) s =
      .next (queueFuse s1 c.val 0xC022 (.enroll slot (digestOf (cut own 8 48))))) ∧
    (4 ≤ slot ∨ sget 0 s1.sec.ownerState slot ≠ 0 → exec (.secOwnerEnroll c inp) s = .next (refuse s1 c.val 0xC022 0))) ∧
  (∀ (s s1 : State) (c : Fin 2) (inp own : List Byte) (slot : Nat), own = inp.take 8 → slot = inByte own 0 →
    signedTaken s s1 c.val 0xC023 8 inp (fun k => k < 4 && (k ≠ slot || enrolledSlots s = [slot])) true → zeroFrom own 1 = true →
    (enrolledSlots s = [slot] → exec (.secOwnerRevoke c inp) s =
      .next (refuseWith s1 c.val 0xC023 evSecLastSlot uMgmt none [w32 slot] [])) ∧
    (enrolledSlots s ≠ [slot] → enrolled s1 slot = true →
      exec (.secOwnerRevoke c inp) s = .next (queueFuse s1 c.val 0xC023 (.revoke slot)))) ∧
  (∀ (s s1 : State) (c : Fin 2) (inp : List Byte) (f : FwImage), signedTaken s s1 c.val 0xC024 0 inp anyOwner true →
    runningFw s1 = some f →
    ((∀ g, fwSlot s1 (1 - runSlot s1) = some g → f.svn ≤ g.svn) →
      exec (.secSvnAdvance c inp) s = .next (queueFuse s1 c.val 0xC024 (.svn f.svn))) ∧
    (∀ g, fwSlot s1 (1 - runSlot s1) = some g → g.svn < f.svn → exec (.secSvnAdvance c inp) s =
      .next (refuseWith s1 c.val 0xC024 evSecSvnRefused uMgmt none [w32 f.svn] []))) ∧
  (∀ (s s1 : State) (c : Fin 2) (inp own : List Byte), own = inp.take 8 →
    signedTaken s s1 c.val 0xC025 8 inp (fun k => k = 0xFF) false → zeroFrom own 1 = true →
    (inByte own 0 = 1 → bgBusy s1 = false → exec (.secDebugUnlock c inp) s = .next (queueFuse s1 c.val 0xC025 .debug)) ∧
    (inByte own 0 = 0 → exec (.secDebugUnlock c inp) s = .next (answered
      (logGen { s1 with sec := { s1.sec with unlockRecord := true } } evSecDebugUnlocked uMgmt none [w32 0] []) c.val 0xC025 .success 0 []))) ∧
  (∀ (s s1 : State) (f : FuseOp) (r : List FuseOp), s.sec.fuseQueue = f :: r → s.power.inputOn = true →
    s1 = { s with sec := { s.sec with fuseQueue := r } } →
    ((getDiode s 0).valid = true → (getDiode s 0).failed = false → 40 ≤ (getDiode s 0).temp → (getDiode s 0).temp ≤ 280 →
      (∀ slot h, f = .enroll slot h → exec .fuseWrite s = .next (endBackground (logGen { s1 with sec := { s1.sec with
        ownerHash := sput 0 s1.sec.ownerHash slot (sget 0 s1.sec.ownerHash slot ||| h)
        ownerState := sput 0 s1.sec.ownerState slot (sget 0 s1.sec.ownerState slot ||| 1) } }
        evSecOwnerEnrolled uMgmt none [w32 slot] []) 0xC022 .success 0 [])) ∧
      (∀ slot, f = .revoke slot → exec .fuseWrite s = .next (dropRevoked (endBackground (logGen { s1 with sec := { s1.sec with
        ownerState := sput 0 s1.sec.ownerState slot (sget 0 s1.sec.ownerState slot ||| 3) } }
        evSecOwnerRevoked uMgmt none [w32 slot] []) 0xC023 .success 0 []) slot)) ∧
      (∀ n, f = .svn n → exec .fuseWrite s = .next (endBackground (logGen { s1 with sec := { s1.sec with
        svnMin := max s1.sec.svnMin n } } evSecSvnAdvanced uMgmt none [w32 (max s1.sec.svnMin n)] []) 0xC024 .success 0 [])) ∧
      (f = .debug → exec .fuseWrite s = .next (endBackground (logGen { s1 with sec := { s1.sec with debugFuse := 3 } }
        evSecDebugUnlocked uMgmt none [w32 1] []) 0xC025 .success 0 []))) ∧
    ((getDiode s 0).valid = false ∨ (getDiode s 0).failed = true ∨ (getDiode s 0).temp < 40 ∨ 280 < (getDiode s 0).temp →
      exec .fuseWrite s = .next s)) ∧
  (∀ (s : State) (c : Fin 2), vendorTaken s c.val 0xC070 0 [] false →
    exec (.selftestResult c []) s = .next (answered s c.val 0xC070 .success 0 (selfTestBytes s.ctl.selfTest))) ∧
  (∀ (s s1 : State) (c : Fin 2) (inp own : List Byte), own = inp.take 8 → signedTaken s s1 c.val 0xC071 8 inp anyOwner true →
    inByte own 0 < 2 → zeroFrom own 1 = true →
    (s1.ctl.idState = .misdeal ∨ deckOf s1 = none → s1.ctl.testing = false →
      exec (.retest c inp) s = .next (beginTest (allOff (startBg s1 c.val 0xC071)) (inByte own 0 = 1))) ∧
    (s1.ctl.testing = true → exec (.retest c inp) s = .next (refuseWith s1 c.val 0xC071 evBupRetestRefused uMgmt none [] []))) ∧
  (∀ (s s1 : State) (c : Fin 2) (inp : List Byte), signedTaken s s1 c.val 0xC072 0 inp anyOwner true →
    (deckOf s1 = none → exec (.repairWindowOpen c inp) s = .next (workWindow (startBg s1 c.val 0xC072))) ∧
    (∀ d, deckOf s1 = some d → isDealer s1 = true → exec (.repairWindowOpen c inp) s =
      .next (openWindow (modCtl (startBg s1 c.val 0xC072) fun c => { c with windowAsked := true }))) ∧
    (∀ d, deckOf s1 = some d → isDealer s1 = false → exec (.repairWindowOpen c inp) s =
      .next (sendGroup (startBg s1 c.val 0xC072) (dealerIndex s1 d) (groupParts (startBg s1 c.val 0xC072) d 4 0 [])))) ∧
  (∀ (s s1 : State) (c : Fin 2) (inp : List Byte), signedTaken s s1 c.val 0xC073 0 inp anyOwner true → s1.ctl.idState = .misdeal →
    exec (.repairApply c inp) s = .next (endBackground (windowWork (startBg s1 c.val 0xC073) 0xFFFF (2 ^ 32) false).s 0xC073 .success 0 [])) ∧
  (∀ (s s1 : State) (c : Fin 2) (inp own : List Byte), own = inp.take 8 → signedTaken s s1 c.val 0xC074 8 inp anyOwner true →
    zeroFrom own 2 = true →
    (∀ d, domainOfKind (inByte own 0) (inByte own 1) = some d → exec (.recover c inp) s =
      .next (abortAndRecover (startBg s1 c.val 0xC074) d (evBupRecoveryStart.word uCtl))) ∧
    (domainOfKind (inByte own 0) (inByte own 1) = none → exec (.recover c inp) s = .next (refuse s1 c.val 0xC074 0)))

/-- While the host’s registers hear (input power, and a secure link): a read whose source line is poisoned gets a Completer Abort and is logged; a read of TEL_METER_LO latches bits 55:32 of the meter and a read of a tally’s low half its high half. A write of RGL_CTL, RGL_REFILL or RGL_DEPTH of a pair joins its pending change. THERM_LIMIT_CTL takes 80 to 95 °C and otherwise sets its rejection, which bit 8 clears; a SETPOINT takes 650 to 850 mV in steps of 5 and ignores the rest; the register writes at an offset act alike, the write-one-to-clear bits of THERM_STATUS and TEL_METER_STATUS clear, FAB_QUAR_CTL keeps its threshold, and other offsets change nothing. The microsecond refills every regulator, applies its change and then lets waiting transfers and rows pass; a refill never exceeds the depth, a newly enabled regulator starts full, a bad change is rejected. At a pace update every quadrant that is on has its count valid from its second whole millisecond on; PWR_INPUT reads a fresh power (logs 67, 141, 142, 145). Without power, and for the registers with an insecure link, nothing changes. -/
def Obligations.Registers : Prop :=
  (∀ s : State, hears s 0 = true →
    (∀ o, (∃ l ∈ sourceLines s o, linePoisoned s l = true) → exec (.telMeterLoRead o) s =
      .next (toHost (logGen s evIntBusError uCxl none [w32 o] []) (.completerAbort o))) ∧
    exec (.telMeterLoRead 0x900000) s = .next { s with meterHi := BitVec.ofNat 24 (s.meter.toNat / 2 ^ 32) } ∧
    (∀ t k, t < 64 → k < 4 → exec (.telMeterLoRead (0x6B0000 + 64 * t + 8 * k)) s =
      .next { s with talHi := sput 0 s.talHi (4 * t + k) (BitVec.ofNat 32 ((tallyCount s t k).toNat / 2 ^ 32)) })) ∧
  (∀ (s : State) (t k : Nat) (v : W32) (r : Regulator) (en : Bool) (refill depth : W32), hears s 0 = true → t < 64 → k < 10 →
    getReg s (16 * t + k) = r → r.pend.getD (r.enable, r.refill, r.depth) = (en, refill, depth) →
    ∀ i w, i ∈ ([.rglWrite w v, .registerWrite w v] : List Instr) →
    (w = 0x300000 + 256 * t + 16 * k → exec i s = .next (setReg s (16 * t + k)
      { r with rejected := r.rejected && !bitOf v.toNat 2, pend := some (bitOf v.toNat 0, refill, depth) })) ∧
    (w = 0x300004 + 256 * t + 16 * k → exec i s = .next (setReg s (16 * t + k) { r with pend := some (en, v, depth) })) ∧
    (w = 0x300008 + 256 * t + 16 * k → exec i s = .next (setReg s (16 * t + k) { r with pend := some (en, refill, v) }))) ∧
  (∀ (s : State) (v : W32) (p : Power), hears s 0 = true →
    p = { s.power with limitRejected := s.power.limitRejected && !bitOf v.toNat 8 } →
    ∀ i ∈ ([.thermLimitCtlWrite v, .registerWrite 0x30004 v] : List Instr),
    (80 ≤ v.toNat % 256 → v.toNat % 256 ≤ 95 → exec i s = .next { s with power := { p with throttleAt := v.toNat % 256 } }) ∧
    (v.toNat % 256 < 80 ∨ 95 < v.toNat % 256 → exec i s = .next { s with power := { p with limitRejected := true } })) ∧
  (∀ (s : State) (n : Fin 20) (v : W32) (mv : Nat), hears s 0 = true → mv = v.toNat % 1024 →
    ∀ i ∈ ([.pwrDomainSetpointWrite n v, .registerWrite (0x40100 + 4 * n.val) v] : List Instr),
    (650 ≤ mv → mv ≤ 850 → mv % 5 = 0 → exec i s = .next (setDomain s n.val { getDomain s n.val with setpoint := mv })) ∧
    (mv < 650 ∨ 850 < mv ∨ mv % 5 ≠ 0 → exec i s = .next s)) ∧
  (∀ (s : State) (v : W32), hears s 0 = true →
    exec (.registerWrite 0x30000 v) s =
      .next { s with power := { s.power with tripLatch := s.power.tripLatch && !bitOf v.toNat 15 } } ∧
    exec (.registerWrite 0x700000 v) s = .next { s with quarThreshold := BitVec.ofNat 16 v.toNat } ∧
    exec (.registerWrite 0x900008 v) s = .next { s with refLostSeen := s.refLostSeen && !bitOf v.toNat 1 } ∧
    (∀ o, o < 0x30000 ∨ 0x900008 < o → exec (.registerWrite o v) s = .next s)) ∧
  (∀ s : State, s.power.inputOn = true → ∀ s1,
    s1 = (s.regs.map (·.1)).foldl (fun s n => setReg s n (applyPend (refillReg (getReg s n)))) s →
    exec .regulatorRefillTick s = .next (resumeRows (runQueue s1 [] s1.regWait))) ∧
  (∀ r : Regulator, (r.enable = true → (refillReg r).level = min (r.level + r.refill.toNat) r.depth.toNat) ∧
    (r.level ≤ r.depth.toNat → (refillReg r).level ≤ r.depth.toNat) ∧
    (∀ refill depth, r.pend = some (true, refill, depth) →
      (refill = 0 ∨ depth.toNat < 4096 → applyPend r = { r with pend := none, rejected := true }) ∧
      (refill ≠ 0 → 4096 ≤ depth.toNat → r.enable = false → applyPend r =
        { r with enable := true, refill := refill, depth := depth, level := depth.toNat, pend := none }) ∧
      (refill ≠ 0 → 4096 ≤ depth.toNat → r.enable = true → applyPend r =
        { r with refill := refill, depth := depth, level := min r.level depth.toNat, pend := none }))) ∧
  (∀ (s : State) (counts : List Nat), s.power.inputOn = true → swf 0 s.pace = true → ∃ m,
    exec (.paceUpdate counts) s = .next { s with
      pace := m, freeNext := s.freeNext + 1, power := { s.power with watts := Config.watts s.freeNext } } ∧
    ∀ q < 16, (quadrantOn s q = false → sget 0 m q = sget 0 s.pace q) ∧
      (quadrantOn s q = true → sget 0 s.pace (16 + q) = 0 → sget 0 m q = 0) ∧
      (quadrantOn s q = true → sget 0 s.pace (16 + q) ≠ 0 → sget 0 m q = w32 (2 ^ 31 + (counts[q]?).getD 0 % 2 ^ 24))) ∧
  (∀ (s : State) (o : Nat) (v : W32) (n : Fin 20) (cs : List Nat),
    (hears s 0 = false → ∀ i ∈ ([.telMeterLoRead o, .rglWrite o v, .thermLimitCtlWrite v, .pwrDomainSetpointWrite n v,
      .registerWrite o v] : List Instr), exec i s = .next s) ∧
    (s.power.inputOn = false → ∀ i ∈ ([.regulatorRefillTick, .paceUpdate cs] : List Instr), exec i s = .next s))

/-- A control beat counts for the active core, a management beat for the management core, whose watchdog it starts anew; the watchdog logs a restart, counts it up to 255 and starts anew. The check of a millisecond after a beat clears the missed beats; without one it counts them, and the third in a row declares the hang: with a standby ready the other core takes over, an abort is asked for and the hung core recovers; without one the whole running module recovers. The check does nothing in BOOT and under whole-module recovery (log 137). A loaded standby takes over at once when no round is open and begins probation; a late one or a failing one ends the activation with its code; the end of probation reloads the old core; once reloaded, the marks are set. PERST_N’s release ends its hold. Commands outside their phase change nothing. -/
def Obligations.ControlCores : Prop :=
  (∀ s : State, s.power.inputOn = true →
    (s.ctl.activeCore = 0 → exec .controlBeat s = .next { s with ctl := { s.ctl with beat0 := s.ctl.beat0 + 1 } }) ∧
    (s.ctl.activeCore ≠ 0 → exec .controlBeat s = .next { s with ctl := { s.ctl with beat1 := s.ctl.beat1 + 1 } }) ∧
    exec .mgmtBeat s = .next (startDeadline { s with ctl := { s.ctl with mgmtCount := s.ctl.mgmtCount + 1 } } .watchdog) ∧
    ∀ t, t = startDeadline (expire s .watchdog (50 * countsMs)) .watchdog →
      exec .mgmtWatchdogExpiry s = .next (logBare { t with ctl := { t.ctl with
        mgmtRestarts := min 255 (t.ctl.mgmtRestarts + 1) } } evBupMgmtRestart uCtl)) ∧
  (∀ s : State, s.power.inputOn = true → s.ctl.idState ≠ .boot → s.ctl.recovering.contains .wholeModule = false →
    (beatOf s s.ctl.activeCore ≠ s.ctl.beatSeen → exec .heartbeatCheck s =
      .next { s with ctl := { s.ctl with beatSeen := beatOf s s.ctl.activeCore, missed := 0 } }) ∧
    (beatOf s s.ctl.activeCore = s.ctl.beatSeen → s.ctl.missed < 2 → exec .heartbeatCheck s =
      .next { s with ctl := { s.ctl with missed := s.ctl.missed + 1 } }) ∧
    (∀ s1 old, beatOf s s.ctl.activeCore = s.ctl.beatSeen → 2 ≤ s.ctl.missed → old = s.ctl.activeCore →
      s1 = modCtl (logGen s evBupHangControl uCtl none [w32 old] []) (fun c => { c with hangs := min 255 (c.hangs + 1), missed := 0 }) →
      (∀ s2, s.ctl.standbyReady = true →
        s2 = hangInActivation (modCtl s1 fun c => { c with activeCore := 1 - old, standbyReady := false }) →
        exec .heartbeatCheck s = .next (beginRecovery (requestAbort
          (modCtl s2 fun c => { c with beatSeen := beatOf s2 c.activeCore }) (evBupHangControl.word uCtl)) (.controlCore old))) ∧
      (s.ctl.standbyReady = false → s.ctl.idState = .running → exec .heartbeatCheck s =
        .next (abortAndRecover s1 .wholeModule (evBupHangControl.word uCtl))))) ∧
  (∀ s : State, s.ctl.idState = .boot ∨ s.ctl.recovering.contains .wholeModule = true → exec .heartbeatCheck s = .next s) ∧
  (∀ s : State, s.ctl.fwPhase = .loading →
    (noOpenRound s = false → exec .standbyImageReady s =
      .next { s with ctl := { s.ctl with fwPhase := .waiting, standbyReady := true } }) ∧
    (∀ s1, noOpenRound s = true → s1 = startDeadline { s with ctl := { s.ctl with
        fwPhase := .probation, activeCore := 1 - s.ctl.activeCore, standbyReady := true, missed := 0 } } .probation →
      exec .standbyImageReady s = .next (if isDealer s1 then startRounds s1 else openHeld s1)) ∧
    ∀ t, t = expire s .standbyLoad (2 * countsSec) → exec .standbyLoadTimeout s = .next (logGen
      { t with ctl := { t.ctl with fwPhase := .none, standbyReady := true } } evBupFwActivateFail uMgmt none [w32 3] [])) ∧
  (∀ s t : State, s.ctl.fwPhase = .probation → t = expire s .probation (10 * countsSec) → exec .fwProbationExpiry s =
    .next { t with ctl := { t.ctl with fwPhase := .reloading, standbyReady := false } }) ∧
  (∀ (s s1 : State), s.ctl.fwPhase = .reloading → s1 = { s with ctl := { s.ctl with standbyReady := true, fwMarksPending := true } } →
    (storeWindow s = false → exec .oldActiveReloaded s = .next s1) ∧
    (∀ f k, storeWindow s = true → k = 1 - s.ctl.bootSlot → fwSlot s k = some f → exec .oldActiveReloaded s =
      .next (logGen (modCtl (setFw (setFw s1 k (some f) .active) (1 - k) (fwSlot s1 (1 - k)) .previous)
        fun c => { c with bootSlot := k, fwPhase := .none, fwMarksPending := false })
        evBupFwActivated uMgmt none [w32 (f.major * 2 ^ 16 + f.minor * 2 ^ 8 + f.patch)] []))) ∧
  (∀ s : State, s.ctl.fwPhase = .none → ∀ i ∈ ([.standbyImageReady, .standbyLoadTimeout, .fwProbationExpiry,
    .oldActiveReloaded] : List Instr), exec i s = .next s) ∧
  (∀ s : State, exec .perstNDeassert s = .next { s with host := { s.host with perst := false } })

/-- Input of 46 V or more powers the module and logs an earlier trip; below 46 V the excursion is logged once; its end clears it. Loss of power, an open VIN_ENABLE and a hardware trip leave the unpowered state: only fuses, firmware and deck slots, repairs and the retained marks stay, and every output but PRSNT_N, FAULT_N among them, is released; a powered module pulls FAULT_N low in misdeal and in thermal shutdown alone. A diode reading from −40 to 125 °C is a good sample, anything else fails the diode, which ends a shutdown once every other is cool. A domain in regulation lets the next one start; a timed-out one is off, failed and logged, ends the self-test or fails its recovery. The boot ROM starts the slot marked ACTIVE if it verifies, else PREVIOUS with BUP_FW_BOOT_FALLBACK, else enters misdeal with BUP_FW_NONE. A self-test ends once every domain stands. A recovery ends with its domain back, or fails; a whole-module recovery leaves its self-test record. A failing domain of a running module is recovered inside an abort. Loss and return of the reference of a die switch its oscillator (logs 80, 139, 143). -/
def Obligations.PowerAndStartup : Prop :=
  (∀ (s s1 : State) (v a : Nat), s.power.inputOn = false → 4600 ≤ v → s1 = { s with power := { s.power with
      inputOn := true, voltage := v, mgmtAddr := a, enableOpen := false, tripped := false, tripLatch := s.power.tripped } } →
    (s.power.tripped = false → exec (.inputPowerApplied v a) s = .next s1) ∧
    (s.power.tripped = true → exec (.inputPowerApplied v a) s = .next (logBare s1 evThmTripped uMgmt))) ∧
  (∀ (s s1 : State) (v : Nat), s.power.inputOn = true →
    (v < 4600 → s1 = { s with power := { s.power with voltage := v, inputLow := true } } →
      (s.power.inputLow = true → exec (.inputLow v) s = .next s1) ∧
      (s.power.inputLow = false → exec (.inputLow v) s = .next (logGen s1 evThmInputLow uInput none [w32 v] []))) ∧
    (4600 ≤ v → exec (.inputExcursionEnd v) s = .next { s with power := { s.power with voltage := v, inputLow := false } })) ∧
  (∀ (s : State), s.power.inputOn = true →
    exec .inputPowerLoss s = .next (powerLost s false s.power.enableOpen) ∧
    exec .vinEnableOpen s = .next (powerLost s false true) ∧ exec .thermalTrip s = .next (powerLost s true s.power.enableOpen)) ∧
  (∀ (s t : State) (trip open_ : Bool), t = powerLost s trip open_ →
    t.power.inputOn = false ∧ t.power.tripped = (s.power.tripped || trip) ∧ t.power.enableOpen = open_ ∧
    t.ctl.idState = .boot ∧ t.array = [] ∧ t.meter = 0 ∧ t.cores = [] ∧ t.tricks = [] ∧ t.channels = [] ∧ t.sessions = [] ∧
    t.ctl.fw0 = s.ctl.fw0 ∧ t.ctl.fw1 = s.ctl.fw1 ∧ t.ctl.fwMark0 = s.ctl.fwMark0 ∧ t.ctl.fwMark1 = s.ctl.fwMark1 ∧
    t.loader.slot0 = s.loader.slot0 ∧ t.loader.slot1 = s.loader.slot1 ∧ t.loader.mark0 = s.loader.mark0 ∧
    t.loader.mark1 = s.loader.mark1 ∧ t.loader.index = s.loader.storedIndex ∧ t.loader.stage = .empty ∧
    t.repairMap = s.repairMap ∧ t.retiredCores = s.retiredCores ∧ t.sec.ownerHash = s.sec.ownerHash ∧
    t.sec.ownerState = s.sec.ownerState ∧ t.sec.svnMin = s.sec.svnMin ∧ t.sec.debugFuse = s.sec.debugFuse ∧
    t.sec.unlockRecord = s.sec.unlockRecord ∧ t.sec.nonces = []) ∧
  (∀ (s : State) (p : OutPin),
    (s.power.inputOn = false → p ≠ .prsntN → drive s p = .released) ∧
    (s.power.inputOn = true → s.ctl.idState = .misdeal ∨ s.power.shutdown = true → drive s .faultN = .low) ∧
    (s.ctl.idState ≠ .misdeal → s.power.shutdown = false → drive s .faultN = .released)) ∧
  (∀ (s : State) (d : Fin 9), s.power.inputOn = true → (getDiode s d.val).failed = false →
    (∀ r : Int, -160 ≤ r → r ≤ 500 → exec (.diodeSample d (some r)) s = .next (advancePower (goodSample s d.val r))) ∧
    (s.ctl.testing = false → ∀ t, t = failDiode s d.val →
      ∀ x, x = (if t.power.shutdown && allCool t then leaveShutdown t d.val (hottest t) else t) →
      exec (.diodeSample d none) s = .next x ∧
      ∀ r : Int, r < -160 ∨ 500 < r → exec (.diodeSample d (some r)) s = .next x)) ∧
  (∀ (s : State) (n : Fin 20), (getDomain s n.val).on = true → (getDomain s n.val).inReg = false →
    exec (.domainInRegulation n) s = .next (advancePower
      (sideUp (quadrantUp (setDomain s n.val { getDomain s n.val with inReg := true }) n.val) n.val))) ∧
  (∀ (s s1 : State) (n : Fin 20), (getDomain s n.val).on = true → (getDomain s n.val).inReg = false →
    s1 = logBare (setDomain (expire s (.regulation n.val) countsMs) n.val { getDomain s n.val with on := false, inReg := false, failed := true })
      evThmDomainFault (uDomain n.val) →
    (s1.ctl.testing = true → exec (.domainRegulationTimeout n) s =
      .next (endTest (noteFailure s1 (evThmDomainFault.word (uDomain n.val))) TestFindings.clean)) ∧
    (s1.ctl.testing = false → s.ctl.recovering = [] → exec (.domainRegulationTimeout n) s = .next s1) ∧
    (s1.ctl.testing = false → s.ctl.recovering = [.wholeModule] →
      exec (.domainRegulationTimeout n) s = .next (recoveryFails s1 .wholeModule))) ∧
  (∀ (s : State) (start : State → Nat → State), s.power.inputOn = true → s.ctl.idState = .boot →
    start = (fun s k => beginTest (modCtl (deriveKeys s (fwSlot s k)) fun c =>
      { c with bootSlot := k, activeCore := 0, standbyReady := true }) false) →
    (∀ k r, slotsMarked s .active = k :: r → slotFault s k = 0 → exec .bootFwVerified s = .next (start s k)) ∧
    (∀ k r j q n, slotsMarked s .active = k :: r → slotFault s k = n → n ≠ 0 → slotsMarked s .previous = j :: q →
      slotFault s j = 0 → exec .bootFwVerified s =
        .next (start (logGen s evBupFwBootFallback uMgmt none [w32 n] []) j)) ∧
    (∀ s1, slotsMarked s .active = [] → slotsMarked s .previous = [] →
      s1 = modCtl (deriveKeys (logBare s evBupFwNone uMgmt) none) (fun c => { c with
        bootSlot := 2, activeCore := 0, standbyReady := true,
        selfTest := { SelfTest.none with run := true, result := 2, firstCode := evBupFwNone.word uMgmt } }) →
      exec .bootFwVerified s = .next (enterMisdeal s1 (evBupFwNone.word uMgmt)))) ∧
  (∀ (s : State) (t : TestFindings), s.ctl.testing = true → ((List.range 20).all fun n => (getDomain s n).inReg) = true →
    exec (.selftestComplete t) s = .next (endTest s t)) ∧
  (∀ (s : State) (t : Bool → State) (d : ResetDomain), d ∈ s.ctl.recovering → s.power.shutdown = false →
    t = (fun b => if d = .wholeModule then recoveryRecord s b else s) →
    exec (.recoveryDone d false) s = .next (recoveryFails (t false) d) ∧
    ∀ s1, s1 = modCtl (domainBack (t true) d) (fun c => { c with recovering := c.recovering.filter (· ≠ d) }) →
      exec (.recoveryDone d true) s = .next (if s1.ctl.recovering.isEmpty then recoveryEnds s1 else s1)) ∧
  (∀ (s : State) (d : ResetDomain), s.ctl.idState = .running → d ∉ s.ctl.recovering →
    (∀ c, d = .controlCore c → exec (.domainFailureDetected d) s = .next (beginRecovery s d)) ∧
    ((∀ c, d ≠ .controlCore c) → exec (.domainFailureDetected d) s =
      .next (requestAbort (beginRecovery s d) (leaveCode s d (evBupRecoveryStart.word uCtl))))) ∧
  (∀ (s : State) (d : Fin 9), s.power.inputOn = true →
    (d.val ≠ 0 → exec (.refclkLost d) s = .next (modStack s (d.val - 1) fun k => { k with ringOsc := true }) ∧
      exec (.refclkRestored d) s = .next (modStack s (d.val - 1) fun k => { k with ringOsc := false })) ∧
    (d.val = 0 → (s.ringOsc = false → ∀ s1, s1 = (List.range 12).foldl portUnclocked
          (logBare { s with ringOsc := true, refLostSeen := true } evBupRefclkLost uCtl) →
        exec (.refclkLost d) s = .next (if s1.host.linkUp then hotReset s1 else s1)) ∧
      (s.ringOsc = true → exec (.refclkRestored d) s = .next
        ((List.range 12).foldl (fun s p => if (getPort s p).state = .off then startTraining s p else s)
          (logBare { s with ringOsc := false } evBupRefclkRestored uCtl)))))

/-- Whatever the state, a command other than LINE_READ, LINE_WRITE, KITTY_ACCESS, KITTY_ATOMIC and TEST_ACCESS_PORT_INSTRUCTION answers a next state. The four accesses answer one for an address that a stack holds (no bit above 38, and an offset below 36 GiB in its stack), and otherwise fault, as R214’s map places nothing there. The test access port takes the required instructions, IDCODE and BYPASS (codes 0 to 4, the model’s numbers, log 38); every other instruction is BYPASS in the production DEBUG state, and in the others the spec gives it no effect: it is refused. -/
def Obligations.OnlyTheseStop : Prop :=
  (∀ (i : Instr) (s : State), canStop i = false → ∃ t, exec i s = .next t) ∧
  (∀ (s : State) (a : Nat) (who : Consumer) (ag : Agent) (k : Nat) (data : Line) (mask : BitVec 64) (p q : Bool)
      (w : Option (List Byte)) (op : Fin 7) (x y : W64),
    ∀ i ∈ ([.lineRead who a k, .lineWrite a data mask p, .kittyAccess ag a w p q, .kittyAtomic a op x y p] : List Instr),
    (a < 2 ^ 39 → addrOffset a < 0x900000000 → ∃ t, exec i s = .next t) ∧
    (2 ^ 39 ≤ a ∨ 0x900000000 ≤ addrOffset a → exec i s = .fault .noSuchLine)) ∧
  (∀ (s : State) (ir : Nat),
    (ir < 5 → exec (.testAccessPortInstruction ir) s = .next { s with sec := { s.sec with tap := ir } }) ∧
    (5 ≤ ir → s.sec.debug = 0 → exec (.testAccessPortInstruction ir) s = .next { s with sec := { s.sec with tap := 0 } }) ∧
    (5 ≤ ir → s.sec.debug ≠ 0 → exec (.testAccessPortInstruction ir) s = .refused .debugInstructionUnspecified))
end

