-- ==== Sys2Proof/Laws/Maps.lean ====
section
/-! SUPPORT. Laws of sparse stores and byte memories: read after write, and that every write keeps the canonical form. -/

namespace Sys2Proof.Machine

variable {α : Type} [DecidableEq α] (d : α)

@[simp] theorem sget_nil (i : Nat) : sget d ([] : Sparse α) i = d := rfl

/-- A write leaves every other key alone. -/
theorem sget_sput_other (m : Sparse α) (i j : Nat) (v : α) (h : j ≠ i) : sget d (sput d m i v) j = sget d m j := by
  induction m with
  | nil =>
    simp only [sput]; split
    · rfl
    · simp [sget, Ne.symm h]
  | cons e r ih =>
    obtain ⟨k, w⟩ := e
    simp only [sput]
    split
    · split
      · rfl
      · simp [sget, Ne.symm h]
    · split
      · subst_vars
        split <;> simp [sget, Ne.symm h]
      · simp only [sget]; split
        · rfl
        · exact ih

/-- A read after a write of a value other than the default gives the value. -/
theorem sget_sput_same_of_ne (m : Sparse α) (i : Nat) (v : α) (h : v ≠ d) : sget d (sput d m i v) i = v := by
  induction m with
  | nil => simp [sput, h, sget]
  | cons e r ih =>
    obtain ⟨k, w⟩ := e
    simp only [sput]
    split
    · simp [h, sget]
    · split
      · simp [h, sget]
      · rename_i h1 h2
        simp [sget, Ne.symm h2, ih]

/-- A second write at one key replaces a first one that is not the default. -/
theorem sput_sput_of_ne (m : Sparse α) (i : Nat) (v w : α) (h : v ≠ d) : sput d (sput d m i v) i w = sput d m i w := by
  induction m with
  | nil => simp [sput, h]
  | cons e r ih =>
    obtain ⟨k, u⟩ := e
    simp only [sput]
    split
    · rename_i h1
      simp [h, sput, h1]
    · split
      · subst_vars
        simp [h, sput]
      · rename_i h1 h2
        simp [sput, h1, h2, ih]

/-- Keys below the first one of a well-formed store read as the default. -/
theorem sget_of_swfFrom (m : Sparse α) (lo i : Nat) (h : swfFrom d lo m = true) (hi : i < lo) : sget d m i = d := by
  induction m generalizing lo with
  | nil => rfl
  | cons e r ih =>
    obtain ⟨k, w⟩ := e
    simp only [swfFrom, Bool.and_eq_true, decide_eq_true_eq] at h
    have : k ≠ i := by omega
    simp only [sget, if_neg this]
    exact ih (k + 1) h.2 (by omega)

theorem swfFrom_mono (m : Sparse α) (lo lo' : Nat) (h : swfFrom d lo m = true) (hl : lo' ≤ lo) : swfFrom d lo' m = true := by
  cases m with
  | nil => rfl
  | cons e r =>
    obtain ⟨k, w⟩ := e
    simp only [swfFrom, Bool.and_eq_true, decide_eq_true_eq] at h ⊢
    exact ⟨⟨by omega, h.1.2⟩, h.2⟩

/-- A write at or above a bound keeps the form above that bound. -/
theorem swfFrom_sput (m : Sparse α) (lo i : Nat) (v : α) (h : swfFrom d lo m = true) (hi : lo ≤ i) :
    swfFrom d lo (sput d m i v) = true := by
  induction m generalizing lo with
  | nil =>
    simp only [sput]; split
    · rfl
    · rename_i hv
      simp [swfFrom, hi, hv]
  | cons e r ih =>
    obtain ⟨k, w⟩ := e
    have h' := h
    simp only [swfFrom, Bool.and_eq_true, decide_eq_true_eq] at h
    simp only [sput]
    split
    · rename_i hk
      split
      · exact h'
      · rename_i hv
        simp only [swfFrom, Bool.and_eq_true, decide_eq_true_eq]
        exact ⟨⟨hi, hv⟩, ⟨by omega, h.1.2⟩, h.2⟩
    · split
      · rename_i hk; subst hk
        split
        · exact swfFrom_mono d r _ _ h.2 (by omega)
        · rename_i hv
          simp only [swfFrom, Bool.and_eq_true, decide_eq_true_eq]
          exact ⟨⟨hi, hv⟩, h.2⟩
      · rename_i h1 h2
        simp only [swfFrom, Bool.and_eq_true, decide_eq_true_eq]
        exact ⟨h.1, ih (k + 1) h.2 (by omega)⟩

/-- A write keeps the canonical form. -/
theorem swf_sput (m : Sparse α) (i : Nat) (v : α) (h : swf d m = true) : swf d (sput d m i v) = true :=
  swfFrom_sput d m 0 i v h (Nat.zero_le i)

/-- A read after a write gives the value, in a store in canonical form. -/
theorem sget_sput_same (m : Sparse α) (i : Nat) (v : α) (h : swf d m = true) : sget d (sput d m i v) i = v := by
  by_cases hv : v = d
  · subst hv
    unfold swf at h
    generalize 0 = lo at h
    induction m generalizing lo with
    | nil => simp [sput]
    | cons e r ih =>
      obtain ⟨k, w⟩ := e
      have h' := h
      simp only [swfFrom, Bool.and_eq_true, decide_eq_true_eq] at h
      simp only [sput]
      split
      · rename_i hk
        simp only [if_true, sget, if_neg (by omega : k ≠ i)]
        exact sget_of_swfFrom v r (k + 1) i h.2 (by omega)
      · split
        · rename_i hk; subst hk
          simp only [if_true]
          exact sget_of_swfFrom v r (i + 1) i h.2 (by omega)
        · rename_i h1 h2
          simp only [sget, if_neg (Ne.symm h2)]
          exact ih _ h.2
  · exact sget_sput_same_of_ne d m i v hv

/-! ### Byte memories -/

theorem rdByte_wrByte_same (m : Memory) (a : Nat) (b : Byte) (h : memWf m = true) : rdByte (wrByte m a b) a = b :=
  sget_sput_same _ m a b h

theorem rdByte_wrByte_other (m : Memory) (a c : Nat) (b : Byte) (h : c ≠ a) : rdByte (wrByte m a b) c = rdByte m c :=
  sget_sput_other _ m a c b h

theorem memWf_wrByte (m : Memory) (a : Nat) (b : Byte) (h : memWf m = true) : memWf (wrByte m a b) = true :=
  swf_sput _ m a b h

theorem memWf_wrBytes (bs : List Byte) (m : Memory) (a : Nat) (h : memWf m = true) : memWf (wrBytes m a bs) = true := by
  induction bs generalizing m a with
  | nil => exact h
  | cons b r ih => exact ih _ _ (memWf_wrByte m a b h)

/-- A write of bytes leaves every byte outside its range alone. -/
theorem rdByte_wrBytes_other (bs : List Byte) (m : Memory) (a c : Nat) (h : c < a ∨ a + bs.length ≤ c) :
    rdByte (wrBytes m a bs) c = rdByte m c := by
  induction bs generalizing m a with
  | nil => rfl
  | cons b r ih =>
    simp only [List.length_cons] at h
    rw [wrBytes, ih _ _ (by omega), rdByte_wrByte_other _ _ _ _ (by omega)]

/-- A read of written bytes gives them. -/
theorem rdBytes_wrBytes (bs : List Byte) (m : Memory) (a : Nat) (h : memWf m = true) :
    rdBytes (wrBytes m a bs) a bs.length = bs := by
  have key : ∀ (bs : List Byte) (m : Memory) (a : Nat), memWf m = true →
      ∀ i (hi : i < bs.length), rdByte (wrBytes m a bs) (a + i) = bs[i] := by
    intro bs
    induction bs with
    | nil => intro m a _ i hi; simp at hi
    | cons b r ih =>
      intro m a h i hi
      cases i with
      | zero =>
        rw [wrBytes, rdByte_wrBytes_other _ _ _ _ (by omega)]
        simpa using rdByte_wrByte_same m a b h
      | succ j =>
        have := ih (wrByte m a b) (a + 1) (memWf_wrByte m a b h) j (by simpa using hi)
        rw [wrBytes]
        simpa [Nat.add_assoc, Nat.add_comm 1 j] using this
  have gen : ∀ (n : Nat) (m' : Memory) (a : Nat) (l : List Byte), l.length = n →
      (∀ i (hi : i < l.length), rdByte m' (a + i) = l[i]) → rdBytes m' a n = l := by
    intro n
    induction n with
    | zero => intro m' a l hl _; simp [rdBytes, List.length_eq_zero_iff.mp hl]
    | succ n ih =>
      intro m' a l hl hr
      cases l with
      | nil => simp at hl
      | cons b r =>
        simp only [rdBytes]
        have h0 := hr 0 (by simp)
        simp only [Nat.add_zero, List.getElem_cons_zero] at h0
        rw [h0, ih m' (a + 1) r (by simpa using hl)]
        intro i hi
        have := hr (i + 1) (by simpa using hi)
        simpa [Nat.add_assoc, Nat.add_comm 1 i] using this
  exact gen bs.length _ a bs rfl (key bs m a h)

end Sys2Proof.Machine
end

