-- ==== Sys2Proof/Laws/Kept/Base.lean ====
section
/-! SUPPORT. What every command keeps, as one relation between two states: the queue, the canonical form of the array and the
fuses that are set. One lemma per operation says that the operation keeps it; the lemmas are conditional rewrites, so a goal
about a chain of operations closes by simp. -/

namespace Sys2Proof.Machine

/-- An outcome of a command keeps what `Kept` says; a stop claims nothing. -/
def KeptOut (s0 : State) : Out → Prop
  | .next t => Kept s0 t
  | .fault _ => True
  | .refused _ => True

/-- The state that a play's end carries keeps it. -/
def KeptEnd (s0 : State) : PlayEnd → Prop
  | .done t => Kept s0 t
  | .moved t => Kept s0 t
  | .wait t => Kept s0 t
  | .fault t _ _ _ => Kept s0 t

/-- An optional state keeps it. -/
def KeptOpt (s0 : State) : Option State → Prop
  | some t => Kept s0 t
  | none => True

@[simp] theorem keptOut_next (s0 t : State) : KeptOut s0 (.next t) = Kept s0 t := rfl
@[simp] theorem keptOut_fault (s0 : State) (f : Fault) : KeptOut s0 (.fault f) = True := rfl
@[simp] theorem keptOut_refused (s0 : State) (r : Refusal) : KeptOut s0 (.refused r) = True := rfl
@[simp] theorem keptEnd_done (s0 t : State) : KeptEnd s0 (.done t) = Kept s0 t := rfl
@[simp] theorem keptEnd_moved (s0 t : State) : KeptEnd s0 (.moved t) = Kept s0 t := rfl
@[simp] theorem keptEnd_wait (s0 t : State) : KeptEnd s0 (.wait t) = Kept s0 t := rfl
@[simp] theorem keptEnd_fault (s0 t : State) (e : Ev) (n : Nat) (a : W64) : KeptEnd s0 (.fault t e n a) = Kept s0 t := rfl
@[simp] theorem keptOpt_some (s0 t : State) : KeptOpt s0 (some t) = Kept s0 t := rfl
@[simp] theorem keptOpt_none (s0 : State) : KeptOpt s0 none = True := rfl

theorem FuseLe.refl (a : Security) : FuseLe a a :=
  ⟨rfl, rfl, Nat.le_refl _, id, fun _ h => h, fun _ h => h, fun _ => BitVec.and_self⟩

theorem FuseLe.trans {a b c : Security} (h : FuseLe a b) (k : FuseLe b c) : FuseLe a c := by
  obtain ⟨h1, h2, h3, h4, h5, h6, h7⟩ := h
  obtain ⟨k1, k2, k3, k4, k5, k6, k7⟩ := k
  refine ⟨k1.trans h1, k2.trans h2, Nat.le_trans h3 k3, fun e => k4 (h4 e), fun n e => k5 n (h5 n e), fun n e => k6 n (h6 n e),
    fun n => ?_⟩
  rw [← h7 n, BitVec.and_assoc, k7 n]

theorem Kept.refl (s : State) : Kept s s := ⟨rfl, id, FuseLe.refl _⟩

theorem Kept.trans {a b c : State} (h : Kept a b) (k : Kept b c) : Kept a c :=
  ⟨k.1.trans h.1, fun w => k.2.1 (h.2.1 w), h.2.2.trans k.2.2⟩

/-- A record update that leaves the queue, the array and the fuse part alone keeps everything. -/
theorem Kept.of_same {s0 s t : State} (h : Kept s0 s) (hp : t.pending = s.pending) (ha : t.array = s.array)
    (hs : FuseLe s.sec t.sec) : Kept s0 t := by
  refine ⟨hp.trans h.1, fun w => ?_, h.2.2.trans hs⟩
  unfold State.arrayOk; rw [ha]; exact h.2.1 w

/-- An optional state that is there keeps it. -/
theorem KeptOpt.of_eq {s0 t : State} {o : Option State} (e : o = some t) (h : KeptOpt s0 o) : Kept s0 t := by
  rw [e] at h; exact h

@[simp] theorem keptOpt_map {α : Type} {s0 : State} (o : Option α) (g : α → State) (h : ∀ x, Kept s0 (g x)) :
    KeptOpt s0 (o.map g) := by cases o <;> simp [*]

/-- A fold of operations that each keep it keeps it. -/
@[simp] theorem kept_foldl {α : Type} {s0 : State} (g : State → α → State) (l : List α) (s : State)
    (h : Kept s0 s) (hg : ∀ s a, Kept s0 s → Kept s0 (g s a)) : Kept s0 (l.foldl g s) := by
  induction l generalizing s with
  | nil => exact h
  | cons a r ih => exact ih (g s a) (hg s a h)

/-- The same for a fold that carries a value beside the state. -/
@[simp] theorem kept_foldl_snd {α β : Type} {s0 : State} (g : β × State → α → β × State) (l : List α) (p : β × State)
    (h : Kept s0 p.2) (hg : ∀ p a, Kept s0 p.2 → Kept s0 (g p a).2) : Kept s0 (l.foldl g p).2 := by
  induction l generalizing p with
  | nil => exact h
  | cons a r ih => exact ih (g p a) (hg p a h)

@[simp] theorem kept_foldl_fst {α β : Type} {s0 : State} (g : State × β → α → State × β) (l : List α) (p : State × β)
    (h : Kept s0 p.1) (hg : ∀ p a, Kept s0 p.1 → Kept s0 (g p a).1) : Kept s0 (l.foldl g p).1 := by
  induction l generalizing p with
  | nil => exact h
  | cons a r ih => exact ih (g p a) (hg p a h)

@[simp] theorem kept_ite {s0 : State} (c : Prop) [Decidable c] (a b : State) (ha : Kept s0 a) (hb : Kept s0 b) :
    Kept s0 (if c then a else b) := by split <;> assumption

@[simp] theorem kept_ite_fst {β : Type} {s0 : State} (c : Prop) [Decidable c] (a b : State × β) (ha : Kept s0 a.1)
    (hb : Kept s0 b.1) : Kept s0 (if c then a else b).1 := by split <;> assumption

@[simp] theorem kept_ite_snd {β : Type} {s0 : State} (c : Prop) [Decidable c] (a b : β × State) (ha : Kept s0 a.2)
    (hb : Kept s0 b.2) : Kept s0 (if c then a else b).2 := by split <;> assumption

@[simp] theorem keptOut_ite {s0 : State} (c : Prop) [Decidable c] (a b : Out) (ha : KeptOut s0 a) (hb : KeptOut s0 b) :
    KeptOut s0 (if c then a else b) := by split <;> assumption

@[simp] theorem keptEnd_ite {s0 : State} (c : Prop) [Decidable c] (a b : PlayEnd) (ha : KeptEnd s0 a) (hb : KeptEnd s0 b) :
    KeptEnd s0 (if c then a else b) := by split <;> assumption

@[simp] theorem keptOpt_ite {s0 : State} (c : Prop) [Decidable c] (a b : Option State) (ha : KeptOpt s0 a)
    (hb : KeptOpt s0 b) : KeptOpt s0 (if c then a else b) := by split <;> assumption

/-- A choice on an option keeps it when both of its sides do. -/
@[simp] theorem kept_elim {α : Type} {s0 : State} (o : Option α) (a : State) (g : α → State)
    (ha : Kept s0 a) (hg : ∀ x, Kept s0 (g x)) : Kept s0 (o.elim a g) := by cases o <;> simp [*]

/-- An update of the array that keeps its canonical form keeps everything. -/
theorem kept_array {s0 s : State} (h : Kept s0 s) (m : Memory) (hm : memWf s.array = true → memWf m = true) :
    Kept s0 { s with array := m } :=
  ⟨h.1, fun w => hm (h.2.1 w), h.2.2⟩

/-- An update of the security part that only sets fuses keeps everything. -/
theorem kept_sec {s0 s : State} (h : Kept s0 s) (c : Security) (hc : FuseLe s.sec c) : Kept s0 { s with sec := c } :=
  ⟨h.1, h.2.1, h.2.2.trans hc⟩

/-- The same for a state written out field by field, as every record update is. -/
@[simp] theorem kept_mk {s0 s : State}
    (freeNext_ : Nat) (cores_ : Sparse Core) (kitty_ : Sparse (Option CLine)) (repairMap_ : Sparse Nat) (retiredCores_
    : List Nat) (badCores_ : List Nat) (paths_ : List (PathId × Path)) (pathReplays_ : Nat) (lanesSpared_ : Nat)
    (pathsFailed_ : Nat) (tricks_ : Sparse Trick) (known_ : Sparse W32) (clusterPlays_ : Sparse Nat) (arrives_ : List
    (Nat × Nat × Nat)) (releases_ : List (Nat × Nat × W32)) (streams_ : Sparse Stream) (creditFlight_ : List (Nat ×
    Nat)) (pushes_ : List PushFlight) (latchFlight_ : List LatchFlight) (tallies_ : Sparse TableTally) (spanLateDrops_
    : Nat) (stackMap_ : Sparse Stack) (regs_ : Sparse Regulator) (regWait_ : List (Nat × Nat × Xfer)) (directory_ :
    Sparse (Option DirState)) (unrepaired_ : List Nat) (refetches_ : List (Nat × Nat × BitVec 16)) (loader_ : Loader)
    (ports_ : Sparse Port) (gen_ : BitVec 16) (genLateDrops_ : Nat) (quarThreshold_ : BitVec 16) (routes_ : Sparse
    (BitVec 16)) (routesPending_ : Option (Sparse (BitVec 16))) (lastRound_ : W32) (fabOut_ : List (Option Nat ×
    Frame)) (flitOut_ : List (Nat × List (List Byte))) (mctpParts_ : List (Nat × Nat × List Byte)) (fabTags_ : List
    (Nat × Nat)) (fabTag_ : Nat) (channels_ : Sparse Channel) (sessions_ : Sparse Session) (admitNext_ : Nat) (tables_
    : Sparse TableRegs) (rounds_ : Sparse RoundState) (cache_ : Cache) (host_ : HostPort) (replies_ : Sparse (Option
    CciReply)) (background_ : Option Background) (logs_ : Sparse EventLog) (seqs_ : Sparse W32) (meter_ : BitVec 56)
    (meterHi_ : BitVec 24) (talHi_ : Sparse W32) (ringOsc_ : Bool) (deadlines_ : List (Deadline × Nat)) (refLostSeen_
    : Bool) (pace_ : Sparse (BitVec 32)) (power_ : Power) (ctl_ : Control)
    (h : Kept s0 s) :
    Kept s0 (State.mk
      s.pending freeNext_ cores_ kitty_ repairMap_ retiredCores_ badCores_ paths_ pathReplays_ lanesSpared_
      pathsFailed_ tricks_ known_ clusterPlays_ arrives_ releases_ streams_ creditFlight_ pushes_ latchFlight_
      tallies_ spanLateDrops_ s.array stackMap_ regs_ regWait_ directory_ unrepaired_ refetches_ loader_ ports_ gen_
      genLateDrops_ quarThreshold_ routes_ routesPending_ lastRound_ fabOut_ flitOut_ mctpParts_ fabTags_ fabTag_
      channels_ sessions_ admitNext_ tables_ rounds_ cache_ host_ replies_ background_ logs_ seqs_ meter_ meterHi_
      talHi_ ringOsc_ deadlines_ refLostSeen_ pace_ power_ ctl_ s.sec) :=
  h.of_same rfl rfl (FuseLe.refl _)

/-- The same where the security part is written out too, with the fuses as they were. -/
@[simp] theorem kept_mk_sec {s0 s : State}
    (freeNext_ : Nat) (cores_ : Sparse Core) (kitty_ : Sparse (Option CLine)) (repairMap_ : Sparse Nat) (retiredCores_
    : List Nat) (badCores_ : List Nat) (paths_ : List (PathId × Path)) (pathReplays_ : Nat) (lanesSpared_ : Nat)
    (pathsFailed_ : Nat) (tricks_ : Sparse Trick) (known_ : Sparse W32) (clusterPlays_ : Sparse Nat) (arrives_ : List
    (Nat × Nat × Nat)) (releases_ : List (Nat × Nat × W32)) (streams_ : Sparse Stream) (creditFlight_ : List (Nat ×
    Nat)) (pushes_ : List PushFlight) (latchFlight_ : List LatchFlight) (tallies_ : Sparse TableTally) (spanLateDrops_
    : Nat) (stackMap_ : Sparse Stack) (regs_ : Sparse Regulator) (regWait_ : List (Nat × Nat × Xfer)) (directory_ :
    Sparse (Option DirState)) (unrepaired_ : List Nat) (refetches_ : List (Nat × Nat × BitVec 16)) (loader_ : Loader)
    (ports_ : Sparse Port) (gen_ : BitVec 16) (genLateDrops_ : Nat) (quarThreshold_ : BitVec 16) (routes_ : Sparse
    (BitVec 16)) (routesPending_ : Option (Sparse (BitVec 16))) (lastRound_ : W32) (fabOut_ : List (Option Nat ×
    Frame)) (flitOut_ : List (Nat × List (List Byte))) (mctpParts_ : List (Nat × Nat × List Byte)) (fabTags_ : List
    (Nat × Nat)) (fabTag_ : Nat) (channels_ : Sparse Channel) (sessions_ : Sparse Session) (admitNext_ : Nat) (tables_
    : Sparse TableRegs) (rounds_ : Sparse RoundState) (cache_ : Cache) (host_ : HostPort) (replies_ : Sparse (Option
    CciReply)) (background_ : Option Background) (logs_ : Sparse EventLog) (seqs_ : Sparse W32) (meter_ : BitVec 56)
    (meterHi_ : BitVec 24) (talHi_ : Sparse W32) (ringOsc_ : Bool) (deadlines_ : List (Deadline × Nat)) (refLostSeen_
    : Bool) (pace_ : Sparse (BitVec 32)) (power_ : Power) (ctl_ : Control) (sec_udsBlocked : Bool) (sec_unlockRecord :
    Bool) (sec_debug : Nat) (sec_cdi : BitVec 384) (sec_nonces : Sparse (Option (BitVec 128))) (sec_fuseQueue : List
    FuseOp) (sec_fuseLogged : Bool) (sec_spdmVersion : Bool) (sec_spdmCaps : Bool) (sec_spdmAlgs : Bool)
    (sec_spdmSession : Bool) (sec_spdmHandshake : Bool) (sec_keySets : Sparse (Option (List Byte))) (sec_keyActive :
    Sparse (Option Nat)) (sec_tap : Nat)
    (h : Kept s0 s) :
    Kept s0 (State.mk
      s.pending freeNext_ cores_ kitty_ repairMap_ retiredCores_ badCores_ paths_ pathReplays_ lanesSpared_
      pathsFailed_ tricks_ known_ clusterPlays_ arrives_ releases_ streams_ creditFlight_ pushes_ latchFlight_
      tallies_ spanLateDrops_ s.array stackMap_ regs_ regWait_ directory_ unrepaired_ refetches_ loader_ ports_ gen_
      genLateDrops_ quarThreshold_ routes_ routesPending_ lastRound_ fabOut_ flitOut_ mctpParts_ fabTags_ fabTag_
      channels_ sessions_ admitNext_ tables_ rounds_ cache_ host_ replies_ background_ logs_ seqs_ meter_ meterHi_
      talHi_ ringOsc_ deadlines_ refLostSeen_ pace_ power_ ctl_ (Security.mk s.sec.vendorHash s.sec.ownerHash
      s.sec.ownerState s.sec.svnMin s.sec.uds sec_udsBlocked s.sec.debugFuse sec_unlockRecord sec_debug sec_cdi
      sec_nonces sec_fuseQueue sec_fuseLogged sec_spdmVersion sec_spdmCaps sec_spdmAlgs sec_spdmSession
      sec_spdmHandshake sec_keySets sec_keyActive sec_tap)) :=
  h.of_same rfl rfl (FuseLe.refl _)

end Sys2Proof.Machine
end

