-- ==== Sys2Proof/Laws/Kept/Events.lean ====
section
/-! SUPPORT. The operations of Events keep the queue, the canonical form of the array and the fuses that are set. -/

namespace Sys2Proof.Machine

@[simp] theorem kept_sendMsix {s0 : State} (s : State) (v : Nat) (h_s : Kept s0 s) :
    Kept s0 (sendMsix s v) := by
  unfold sendMsix; simp (maxDischargeDepth := 40) +contextual [*]

@[simp] theorem kept_addStandard {s0 : State} (s : State) (e : Ev) (d : Detail) (h_s : Kept s0 s) :
    Kept s0 (addStandard s e d) := by
  unfold addStandard; simp (maxDischargeDepth := 40) +contextual [*]

@[simp] theorem kept_logAtDie {s0 : State} (s : State) (e : Ev) (unit die : Nat) (table : Option Nat) (d : Detail)
    (h_s : Kept s0 s) :
    Kept s0 (logAtDie s e unit die table d) := by
  unfold logAtDie; dsimp only; (repeat' split) <;> simp (maxDischargeDepth := 40) +contextual [*]

@[simp] theorem kept_logEvent {s0 : State} (s : State) (e : Ev) (unit : Nat) (table : Option Nat) (d : Detail)
    (h_s : Kept s0 s) :
    Kept s0 (logEvent s e unit table d) := by
  unfold logEvent; simp (maxDischargeDepth := 40) +contextual [*]

@[simp] theorem kept_logGen {s0 : State} (s : State) (e : Ev) (unit : Nat) (table : Option Nat) (a32 : List W32)
    (a64 : List W64) (h_s : Kept s0 s) :
    Kept s0 (logGen s e unit table a32 a64) := by
  unfold logGen; simp (maxDischargeDepth := 40) +contextual [*]

@[simp] theorem kept_logBare {s0 : State} (s : State) (e : Ev) (unit : Nat) (h_s : Kept s0 s) :
    Kept s0 (logBare s e unit) := by
  unfold logBare; simp (maxDischargeDepth := 40) +contextual [*]

end Sys2Proof.Machine
end

