-- ==== Sys2Proof/Laws/Kept/Ops.lean ====
section
/-! SUPPORT. The operations of Ops keep the queue, the canonical form of the array and the fuses that are set. -/

namespace Sys2Proof.Machine

@[simp] theorem kept_setCore {s0 : State} (s : State) (n : Nat) (c : Core) (h_s : Kept s0 s) :
    Kept s0 (setCore s n c) := by
  unfold setCore; simp (maxDischargeDepth := 40) +contextual [*]

@[simp] theorem kept_modCore {s0 : State} (s : State) (n : Nat) (f : Core → Core) (h_s : Kept s0 s) :
    Kept s0 (modCore s n f) := by
  unfold modCore; simp (maxDischargeDepth := 40) +contextual [*]

@[simp] theorem kept_setStack {s0 : State} (s : State) (n : Nat) (k : Stack) (h_s : Kept s0 s) :
    Kept s0 (setStack s n k) := by
  unfold setStack; simp (maxDischargeDepth := 40) +contextual [*]

@[simp] theorem kept_modStack {s0 : State} (s : State) (n : Nat) (f : Stack → Stack) (h_s : Kept s0 s) :
    Kept s0 (modStack s n f) := by
  unfold modStack; simp (maxDischargeDepth := 40) +contextual [*]

@[simp] theorem kept_setTrick {s0 : State} (s : State) (n : Nat) (t : Trick) (h_s : Kept s0 s) :
    Kept s0 (setTrick s n t) := by
  unfold setTrick; simp (maxDischargeDepth := 40) +contextual [*]

@[simp] theorem kept_setStream {s0 : State} (s : State) (n : Nat) (k : Stream) (h_s : Kept s0 s) :
    Kept s0 (setStream s n k) := by
  unfold setStream; simp (maxDischargeDepth := 40) +contextual [*]

@[simp] theorem kept_modStream {s0 : State} (s : State) (n : Nat) (f : Stream → Stream) (h_s : Kept s0 s) :
    Kept s0 (modStream s n f) := by
  unfold modStream; simp (maxDischargeDepth := 40) +contextual [*]

@[simp] theorem kept_setPort {s0 : State} (s : State) (n : Nat) (p : Port) (h_s : Kept s0 s) :
    Kept s0 (setPort s n p) := by
  unfold setPort; simp (maxDischargeDepth := 40) +contextual [*]

@[simp] theorem kept_modPort {s0 : State} (s : State) (n : Nat) (f : Port → Port) (h_s : Kept s0 s) :
    Kept s0 (modPort s n f) := by
  unfold modPort; simp (maxDischargeDepth := 40) +contextual [*]

@[simp] theorem kept_setChan {s0 : State} (s : State) (n : Nat) (c : Channel) (h_s : Kept s0 s) :
    Kept s0 (setChan s n c) := by
  unfold setChan; simp (maxDischargeDepth := 40) +contextual [*]

@[simp] theorem kept_modChan {s0 : State} (s : State) (n : Nat) (f : Channel → Channel) (h_s : Kept s0 s) :
    Kept s0 (modChan s n f) := by
  unfold modChan; simp (maxDischargeDepth := 40) +contextual [*]

@[simp] theorem kept_setSess {s0 : State} (s : State) (n : Nat) (c : Session) (h_s : Kept s0 s) :
    Kept s0 (setSess s n c) := by
  unfold setSess; simp (maxDischargeDepth := 40) +contextual [*]

@[simp] theorem kept_modSess {s0 : State} (s : State) (n : Nat) (f : Session → Session) (h_s : Kept s0 s) :
    Kept s0 (modSess s n f) := by
  unfold modSess; simp (maxDischargeDepth := 40) +contextual [*]

@[simp] theorem kept_setTable {s0 : State} (s : State) (n : Nat) (t : TableRegs) (h_s : Kept s0 s) :
    Kept s0 (setTable s n t) := by
  unfold setTable; simp (maxDischargeDepth := 40) +contextual [*]

@[simp] theorem kept_modTable {s0 : State} (s : State) (n : Nat) (f : TableRegs → TableRegs) (h_s : Kept s0 s) :
    Kept s0 (modTable s n f) := by
  unfold modTable; simp (maxDischargeDepth := 40) +contextual [*]

@[simp] theorem kept_setRound {s0 : State} (s : State) (n : Nat) (r : RoundState) (h_s : Kept s0 s) :
    Kept s0 (setRound s n r) := by
  unfold setRound; simp (maxDischargeDepth := 40) +contextual [*]

@[simp] theorem kept_modRound {s0 : State} (s : State) (n : Nat) (f : RoundState → RoundState) (h_s : Kept s0 s) :
    Kept s0 (modRound s n f) := by
  unfold modRound; simp (maxDischargeDepth := 40) +contextual [*]

@[simp] theorem kept_setReg {s0 : State} (s : State) (n : Nat) (r : Regulator) (h_s : Kept s0 s) :
    Kept s0 (setReg s n r) := by
  unfold setReg; simp (maxDischargeDepth := 40) +contextual [*]

@[simp] theorem kept_setDomain {s0 : State} (s : State) (n : Nat) (d : Domain) (h_s : Kept s0 s) :
    Kept s0 (setDomain s n d) := by
  unfold setDomain; simp (maxDischargeDepth := 40) +contextual [*]

@[simp] theorem kept_setDiode {s0 : State} (s : State) (n : Nat) (d : Diode) (h_s : Kept s0 s) :
    Kept s0 (setDiode s n d) := by
  unfold setDiode; simp (maxDischargeDepth := 40) +contextual [*]

@[simp] theorem kept_setPage {s0 : State} (s : State) (n : Nat) (p : Page) (h_s : Kept s0 s) :
    Kept s0 (setPage s n p) := by
  unfold setPage; simp (maxDischargeDepth := 40) +contextual [*]

@[simp] theorem kept_modPage {s0 : State} (s : State) (n : Nat) (f : Page → Page) (h_s : Kept s0 s) :
    Kept s0 (modPage s n f) := by
  unfold modPage; simp (maxDischargeDepth := 40) +contextual [*]

@[simp] theorem kept_setTally {s0 : State} (s : State) (n : Nat) (t : TableTally) (h_s : Kept s0 s) :
    Kept s0 (setTally s n t) := by
  unfold setTally; simp (maxDischargeDepth := 40) +contextual [*]

@[simp] theorem kept_modCtl {s0 : State} (s : State) (f : Control → Control) (h_s : Kept s0 s) :
    Kept s0 (modCtl s f) := by
  unfold modCtl; simp (maxDischargeDepth := 40) +contextual [*]

@[simp] theorem kept_modLoader {s0 : State} (s : State) (f : Loader → Loader) (h_s : Kept s0 s) :
    Kept s0 (modLoader s f) := by
  unfold modLoader; simp (maxDischargeDepth := 40) +contextual [*]

@[simp] theorem kept_modHost {s0 : State} (s : State) (f : HostPort → HostPort) (h_s : Kept s0 s) :
    Kept s0 (modHost s f) := by
  unfold modHost; simp (maxDischargeDepth := 40) +contextual [*]

@[simp] theorem kept_takeFree {s0 : State} (s : State) (h_s : Kept s0 s) :
    Kept s0 (takeFree s).2 := by
  unfold takeFree; simp (maxDischargeDepth := 40) +contextual [*]

@[simp] theorem kept_addMeter {s0 : State} (s : State) (die n : Nat) (h_s : Kept s0 s) :
    Kept s0 (addMeter s die n) := by
  unfold addMeter; simp (maxDischargeDepth := 40) +contextual [*]

@[simp] theorem kept_passDie {s0 : State} (s : State) (n die : Nat) (h_s : Kept s0 s) :
    Kept s0 (passDie s n die) := by
  unfold passDie; simp (maxDischargeDepth := 40) +contextual [*]

@[simp] theorem kept_passEdges {s0 : State} (s : State) (n : Nat) (dies : List Nat) (h_s : Kept s0 s) :
    Kept s0 (passEdges s n dies) := by
  unfold passEdges; simp (maxDischargeDepth := 40) +contextual [*]

@[simp] theorem kept_reachMeter {s0 : State} (s : State) (die t : Nat) (h_s : Kept s0 s) :
    Kept s0 (reachMeter s die t) := by
  unfold reachMeter; simp (maxDischargeDepth := 40) +contextual [*]

@[simp] theorem kept_startDeadline {s0 : State} (s : State) (d : Deadline) (h_s : Kept s0 s) :
    Kept s0 (startDeadline s d) := by
  unfold startDeadline; simp (maxDischargeDepth := 40) +contextual [*]

@[simp] theorem kept_dropDeadline {s0 : State} (s : State) (d : Deadline) (h_s : Kept s0 s) :
    Kept s0 (dropDeadline s d) := by
  unfold dropDeadline; simp (maxDischargeDepth := 40) +contextual [*]

@[simp] theorem kept_reachDeadline {s0 : State} (s : State) (d : Deadline) (counts : Nat) (h_s : Kept s0 s) :
    Kept s0 (reachDeadline s d counts) := by
  unfold reachDeadline
  repeat' (first
    | intro _
    | with_reducible assumption
    | split
    | (simp (maxDischargeDepth := 40) +contextual [*]; done)
    | dsimp only)

@[simp] theorem kept_expire {s0 : State} (s : State) (d : Deadline) (counts : Nat) (h_s : Kept s0 s) :
    Kept s0 (expire s d counts) := by
  unfold expire; simp (maxDischargeDepth := 40) +contextual [*]

@[simp] theorem kept_noteHold {s0 : State} (s : State) (n line : Nat) (h_s : Kept s0 s) :
    Kept s0 (noteHold s n line) := by
  unfold noteHold; simp (maxDischargeDepth := 40) +contextual [*]

@[simp] theorem kept_charge {s0 : State} (s : State) (table resource n : Nat) (h_s : Kept s0 s) :
    Kept s0 (charge s table resource n) := by
  unfold charge; simp (maxDischargeDepth := 40) +contextual [*]

@[simp] theorem kept_waitCharge {s0 : State} (s : State) (table resource n : Nat) (x : Xfer) (h_s : Kept s0 s) :
    Kept s0 (waitCharge s table resource n x) := by
  unfold waitCharge; simp (maxDischargeDepth := 40) +contextual [*]

@[simp] theorem kept_dropCoreWait {s0 : State} (s : State) (n : Nat) (h_s : Kept s0 s) :
    Kept s0 (dropCoreWait s n) := by
  unfold dropCoreWait; simp (maxDischargeDepth := 40) +contextual [*]

@[simp] theorem kept_coreCharge {s0 : State} (s : State) (n table resource k : Nat) (h_s : Kept s0 s) :
    Kept s0 (coreCharge s n table resource k) := by
  unfold coreCharge; simp (maxDischargeDepth := 40) +contextual [*]

@[simp] theorem kept_coreQueue {s0 : State} (s : State) (n table resource k : Nat) (h_s : Kept s0 s) :
    Kept s0 (coreQueue s n table resource k) := by
  unfold coreQueue; simp (maxDischargeDepth := 40) +contextual [*]

@[simp] theorem kept_putFlit {s0 : State} (s : State) (port : Nat) (seq : BitVec 10) (credit : Nat × Nat) (first : Nat)
    (payload : List Byte) (h_s : Kept s0 s) :
    Kept s0 (putFlit s port seq credit first payload) := by
  unfold putFlit; simp (maxDischargeDepth := 40) +contextual [*]

@[simp] theorem kept_sendFlit {s0 : State} (s : State) (port first : Nat) (payload : List Byte) (frames : List (Nat × Frame))
    (h_s : Kept s0 s) :
    Kept s0 (sendFlit s port first payload frames) := by
  unfold sendFlit; simp (maxDischargeDepth := 40) +contextual [*]

@[simp] theorem kept_sendPadding {s0 : State} (s : State) (port : Nat) (h_s : Kept s0 s) :
    Kept s0 (sendPadding s port) := by
  unfold sendPadding; simp (maxDischargeDepth := 40) +contextual [*]

@[simp] theorem kept_tellPeer {s0 : State} (s : State) (port : Nat) (h_s : Kept s0 s) :
    Kept s0 (tellPeer s port) := by
  unfold tellPeer; simp (maxDischargeDepth := 40) +contextual [*]

@[simp] theorem kept_freeBuffer {s0 : State} (s : State) (src : Option (Nat × Nat)) (units : Nat) (h_s : Kept s0 s) :
    Kept s0 (freeBuffer s src units) := by
  unfold freeBuffer
  dsimp only
  repeat' (first
    | intro _
    | with_reducible assumption
    | split
    | (simp (maxDischargeDepth := 40) +contextual [*]; done))

@[simp] theorem kept_sendFlits {s0 : State} (s : State) (port cls : Nat) (f : Frame) (h_s : Kept s0 s) :
    Kept s0 (sendFlits s port cls f) := by
  unfold sendFlits; simp (maxDischargeDepth := 40) +contextual [*]

@[simp] theorem kept_transmit {s0 : State} (s : State) (port : Nat) (x : TxFrame) (h_s : Kept s0 s) :
    Kept s0 (transmit s port x) := by
  unfold transmit; simp (maxDischargeDepth := 40) +contextual [*]

@[simp] theorem kept_flushTx {s0 : State} (s : State) (port : Nat) (h_s : Kept s0 s) :
    Kept s0 (flushTx s port) := by
  unfold flushTx; simp (maxDischargeDepth := 40) +contextual [*]

@[simp] theorem kept_routeFrom {s0 : State} (s : State) (src : Option (Nat × Nat)) (cls : Nat) (f : Frame) (h_s : Kept s0 s) :
    Kept s0 (routeFrom s src cls f) := by
  unfold routeFrom
  repeat' (first
    | intro _
    | with_reducible assumption
    | split
    | (simp (maxDischargeDepth := 40) +contextual [*]; done)
    | dsimp only)

@[simp] theorem kept_moveRoutes {s0 : State} (s : State) (p : Nat) (f : Port → Port) (h_s : Kept s0 s) :
    Kept s0 (moveRoutes s p f) := by
  unfold moveRoutes; simp (maxDischargeDepth := 40) +contextual [*]

@[simp] theorem kept_routeFrame {s0 : State} (s : State) (cls : Nat) (f : Frame) (h_s : Kept s0 s) :
    Kept s0 (routeFrame s cls f) := by
  unfold routeFrame; (repeat' split) <;> simp (maxDischargeDepth := 40) +contextual [*]

@[simp] theorem kept_sendFrame {s0 : State} (s : State) (dest table : Nat) (b : FrameBody) (h_s : Kept s0 s) :
    Kept s0 (sendFrame s dest table b) := by
  unfold sendFrame; simp (maxDischargeDepth := 40) +contextual [*]

@[simp] theorem kept_sendCharged {s0 : State} (s : State) (table : Nat) (f : Frame) (h_s : Kept s0 s) :
    Kept s0 (sendCharged s table f) := by
  unfold sendCharged; simp (maxDischargeDepth := 40) +contextual [*]

@[simp] theorem kept_sendBehind {s0 : State} (s : State) (dest table : Nat) (b : FrameBody) (h_s : Kept s0 s) :
    Kept s0 (sendBehind s dest table b) := by
  unfold sendBehind; simp (maxDischargeDepth := 40) +contextual [*]

@[simp] theorem kept_sendAll {s0 : State} (s : State) (b : FrameBody) (dests : List Nat) (h_s : Kept s0 s) :
    Kept s0 (sendAll s b dests) := by
  unfold sendAll; simp (maxDischargeDepth := 40) +contextual [*]

@[simp] theorem kept_sendDown {s0 : State} (s : State) (b : FrameBody) (h_s : Kept s0 s) :
    Kept s0 (sendDown s b) := by
  unfold sendDown; (repeat' split) <;> simp (maxDischargeDepth := 40) +contextual [*]

@[simp] theorem kept_toHost {s0 : State} (s : State) (m : HostMsg) (h_s : Kept s0 s) :
    Kept s0 (toHost s m) := by
  unfold toHost; simp (maxDischargeDepth := 40) +contextual [*]

@[simp] theorem kept_toHostReq {s0 : State} (s : State) (m : HostMsg) (h_s : Kept s0 s) :
    Kept s0 (toHostReq s m) := by
  unfold toHostReq; simp (maxDischargeDepth := 40) +contextual [*]

@[simp] theorem kept_loadPrograms {s0 : State} (s : State) (d : Deck) (h_s : Kept s0 s) :
    Kept s0 (loadPrograms s d) := by
  unfold loadPrograms; simp (maxDischargeDepth := 40) +contextual [*]

@[simp] theorem kept_restartCore {s0 : State} (s : State) (n : Nat) (h_s : Kept s0 s) :
    Kept s0 (restartCore s n) := by
  unfold restartCore; (repeat' split) <;> simp (maxDischargeDepth := 40) +contextual [*]

@[simp] theorem kept_wakeCores {s0 : State} (s : State) (w : Wait) (h_s : Kept s0 s) :
    Kept s0 (wakeCores s w) := by
  unfold wakeCores; simp (maxDischargeDepth := 40) +contextual [*]

@[simp] theorem kept_backInvalidate {s0 : State} (s : State) (dpa : Nat) (w : BiWaiter) (h_s : Kept s0 s) :
    Kept s0 (backInvalidate s dpa w) := by
  unfold backInvalidate; simp (maxDischargeDepth := 40) +contextual [*]

end Sys2Proof.Machine
end

