-- ==== Sys2Proof/Laws/Kept/Place.lean ====
section
/-! SUPPORT. The operations of Place keep the queue, the canonical form of the array and the fuses that are set. -/

namespace Sys2Proof.Machine

@[simp] theorem kept_writeRaw {s0 : State} (s : State) (p : Place) (r : RawLine) (h_s : Kept s0 s) :
    Kept s0 (writeRaw s p r) := by
  unfold writeRaw
  apply kept_array h_s
  intro w
  apply memWf_wrByte
  apply memWf_wrBytes
  exact memWf_wrBytes _ _ _ w

@[simp] theorem kept_writeLine {s0 : State} (s : State) (p : Place) (data : Line) (poison : Bool) (h_s : Kept s0 s) :
    Kept s0 (writeLine s p data poison) := by
  unfold writeLine; simp (maxDischargeDepth := 40) +contextual [*]

@[simp] theorem kept_storeRawLine {s0 : State} (s : State) (stack bank row i : Nat) (r : RawLine) (h_s : Kept s0 s) :
    Kept s0 (storeRawLine s stack bank row i r) := by
  unfold storeRawLine; simp (maxDischargeDepth := 40) +contextual [*]

end Sys2Proof.Machine
end

