-- ==== Sys2Proof/Laws/Kept/Lines.lean ====
section
/-! SUPPORT. The operations of Lines keep the queue, the canonical form of the array and the fuses that are set. -/

namespace Sys2Proof.Machine

@[simp] theorem kept_mediaRecord {s0 : State} (s : State) (e : Ev) (dataPath : Bool) (transaction dpa : Nat) (h_s : Kept s0 s) :
    Kept s0 (mediaRecord s e dataPath transaction dpa) := by
  unfold mediaRecord; simp (maxDischargeDepth := 40) +contextual [*]

@[simp] theorem kept_logRegion {s0 : State} (s : State) (r : Option Region) (e : Ev) (stack bank row mask det : Nat)
    (h_s : Kept s0 s) :
    Kept s0 (logRegion s r e stack bank row mask det) := by
  unfold logRegion; simp (maxDischargeDepth := 40) +contextual [*]

@[simp] theorem kept_logLine {s0 : State} (s : State) (e : Ev) (stack bank row mask det : Nat) (h_s : Kept s0 s) :
    Kept s0 (logLine s e stack bank row mask det) := by
  unfold logLine; simp (maxDischargeDepth := 40) +contextual [*]

@[simp] theorem kept_logPersistent {s0 : State} (s : State) (stack bank row mask det : Nat) (h_s : Kept s0 s) :
    Kept s0 (logPersistent s stack bank row mask det) := by
  unfold logPersistent; simp (maxDischargeDepth := 40) +contextual [*]

@[simp] theorem kept_pendSpare {s0 : State} (s : State) (stack bank row mask : Nat) (byHost : Bool) (h_s : Kept s0 s) :
    Kept s0 (pendSpare s stack bank row mask byHost) := by
  unfold pendSpare; simp (maxDischargeDepth := 40) +contextual [*]

@[simp] theorem kept_sendPageFault {s0 : State} (s : State) (stack bank row : Nat) (h_s : Kept s0 s) :
    Kept s0 (sendPageFault s stack bank row) := by
  unfold sendPageFault; (repeat' split) <;> simp (maxDischargeDepth := 40) +contextual [*]

@[simp] theorem kept_unrefuse {s0 : State} (s : State) (line : Nat) (h_s : Kept s0 s) :
    Kept s0 (unrefuse s line) := by
  unfold unrefuse; simp (maxDischargeDepth := 40) +contextual [*]

@[simp] theorem kept_clearUnrepaired {s0 : State} (s : State) (line : Nat) (h_s : Kept s0 s) :
    Kept s0 (clearUnrepaired s line) := by
  unfold clearUnrepaired; simp (maxDischargeDepth := 40) +contextual [*]

@[simp] theorem kept_holdWrite {s0 : State} (s : State) (stack : Nat) (w : HeldWrite) (h_s : Kept s0 s) :
    Kept s0 (holdWrite s stack w) := by
  unfold holdWrite
  dsimp only
  repeat' (first
    | intro _
    | with_reducible assumption
    | (with_reducible refine kept_ite _ _ _ ?_ ?_)
    | (with_reducible refine kept_ite_fst _ _ _ ?_ ?_)
    | (with_reducible refine kept_ite_snd _ _ _ ?_ ?_)
    | split
    | (simp (maxDischargeDepth := 40) +contextual [*]; done))

@[simp] theorem kept_poisonAt {s0 : State} (s : State) (p : Place) (r : Option Region) (line det : Nat) (h_s : Kept s0 s) :
    Kept s0 (poisonAt s p r line det) := by
  unfold poisonAt; simp (maxDischargeDepth := 40) +contextual [*]

@[simp] theorem kept_writePoisoned {s0 : State} (s : State) (line det : Nat) (h_s : Kept s0 s) :
    Kept s0 (writePoisoned s line det) := by
  unfold writePoisoned; simp (maxDischargeDepth := 40) +contextual [*]

@[simp] theorem kept_writeBackPoisoned {s0 : State} (s : State) (line det : Nat) (h_s : Kept s0 s) :
    Kept s0 (writeBackPoisoned s line det) := by
  unfold writeBackPoisoned; simp (maxDischargeDepth := 40) +contextual [*]

@[simp] theorem kept_joinRepair {s0 : State} (s : State) (line : Nat) (who : Consumer) (h_s : Kept s0 s) :
    Kept s0 (joinRepair s line who) := by
  unfold joinRepair; simp (maxDischargeDepth := 40) +contextual [*]

@[simp] theorem kept_startRepair {s0 : State} (s : State) (line : Nat) (who : Consumer) (h_s : Kept s0 s) :
    Kept s0 (startRepair s line who) := by
  unfold startRepair; simp (maxDischargeDepth := 40) +contextual [*]

@[simp] theorem kept_actPersistent {s0 : State} (s : State) (line det : Nat) (who : Consumer) (logIt : Bool) (h_s : Kept s0 s) :
    Kept s0 (actPersistent s line det who logIt).1 := by
  unfold actPersistent; dsimp only; (repeat' split) <;> simp (maxDischargeDepth := 40) +contextual [*]

@[simp] theorem kept_openRow {s0 : State} (s : State) (stack bank row : Nat) (h_s : Kept s0 s) :
    Kept s0 (openRow s stack bank row) := by
  unfold openRow; simp (maxDischargeDepth := 40) +contextual [*]

@[simp] theorem kept_testPlace {s0 : State} (s : State) (p : Place) (fails : Nat) (h_s : Kept s0 s) :
    Kept s0 (testPlace s p fails).1 := by
  unfold testPlace; simp (maxDischargeDepth := 40) +contextual [*]

@[simp] theorem kept_testLine {s0 : State} (s : State) (line fails : Nat) (h_s : Kept s0 s) :
    Kept s0 (testLine s line fails).1 := by
  unfold testLine
  repeat' (first
    | intro _
    | with_reducible assumption
    | split
    | (simp (maxDischargeDepth := 40) +contextual [*]; done)
    | dsimp only)

@[simp] theorem kept_readTested {s0 : State} (s : State) (line fails det : Nat) (who : Consumer) (h_s : Kept s0 s) :
    Kept s0 (readTested s line fails det who).1 := by
  unfold readTested; dsimp only; (repeat' split) <;> simp (maxDischargeDepth := 40) +contextual [*]

@[simp] theorem kept_markDrains {s0 : State} (s : State) (stack line : Nat) (h_s : Kept s0 s) :
    Kept s0 (markDrains s stack line) := by
  unfold markDrains; simp (maxDischargeDepth := 40) +contextual [*]

@[simp] theorem kept_queueAccess {s0 : State} (s : State) (a : CtlAccess) (h_s : Kept s0 s) :
    Kept s0 (queueAccess s a) := by
  unfold queueAccess
  dsimp only
  repeat' (first
    | intro _
    | with_reducible assumption
    | split
    | (simp (maxDischargeDepth := 40) +contextual [*]; done))

@[simp] theorem kept_enterNow {s0 : State} (s : State) (e : WcbEntry) (h_s : Kept s0 s) :
    Kept s0 (enterNow s e) := by
  unfold enterNow; simp (maxDischargeDepth := 40) +contextual [*]

@[simp] theorem kept_placeWrite {s0 : State} (s : State) (e : WcbEntry) (h_s : Kept s0 s) :
    Kept s0 (placeWrite s e) := by
  unfold placeWrite; simp (maxDischargeDepth := 40) +contextual [*]

@[simp] theorem kept_enterCtl {s0 : State} (s : State) (e : WcbEntry) (h_s : Kept s0 s) :
    Kept s0 (enterCtl s e) := by
  unfold enterCtl; simp (maxDischargeDepth := 40) +contextual [*]

@[simp] theorem kept_waitCross {s0 : State} (s : State) (line n : Nat) (x : Xfer) (h_s : Kept s0 s) :
    Kept s0 (waitCross s line n x) := by
  unfold waitCross; simp (maxDischargeDepth := 40) +contextual [*]

@[simp] theorem kept_enterWcb {s0 : State} (s : State) (e : WcbEntry) (h_s : Kept s0 s) :
    Kept s0 (enterWcb s e) := by
  unfold enterWcb
  repeat' (first
    | intro _
    | with_reducible assumption
    | (with_reducible refine kept_ite _ _ _ ?_ ?_)
    | split
    | (simp (maxDischargeDepth := 40) +contextual [*]; done)
    | dsimp only)

@[simp] theorem kept_kittySet {s0 : State} (s : State) (line : Nat) (c : Option CLine) (h_s : Kept s0 s) :
    Kept s0 (kittySet s line c) := by
  unfold kittySet; simp (maxDischargeDepth := 40) +contextual [*]

@[simp] theorem kept_chargeLine {s0 : State} (s : State) (line : Nat) (h_s : Kept s0 s) :
    Kept s0 (chargeLine s line) := by
  unfold chargeLine; (repeat' split) <;> simp (maxDischargeDepth := 40) +contextual [*]

@[simp] theorem kept_sendLine {s0 : State} (s : State) (e : WcbEntry) (h_s : Kept s0 s) :
    Kept s0 (sendLine s e) := by
  unfold sendLine; simp (maxDischargeDepth := 40) +contextual [*]

@[simp] theorem kept_outsideWrite {s0 : State} (s : State) (e : WcbEntry) (h_s : Kept s0 s) :
    Kept s0 (outsideWrite s e) := by
  unfold outsideWrite; (repeat' split) <;> simp (maxDischargeDepth := 40) +contextual [*]

@[simp] theorem kept_chargedWrite {s0 : State} (s : State) (e : WcbEntry) (h_s : Kept s0 s) :
    Kept s0 (chargedWrite s e) := by
  unfold chargedWrite; simp (maxDischargeDepth := 40) +contextual [*]

@[simp] theorem kept_fwWriteLine {s0 : State} (s : State) (e : WcbEntry) (h_s : Kept s0 s) :
    Kept s0 (fwWriteLine s e) := by
  unfold fwWriteLine; simp (maxDischargeDepth := 40) +contextual [*]

@[simp] theorem kept_raiseReady {s0 : State} (s : State) (table ready : Nat) (h_s : Kept s0 s) :
    Kept s0 (raiseReady s table ready) := by
  unfold raiseReady; simp (maxDischargeDepth := 40) +contextual [*]

@[simp] theorem kept_answerSender {s0 : State} (s : State) (w : Sender) (h_s : Kept s0 s) :
    Kept s0 (answerSender s w) := by
  unfold answerSender; (repeat' split) <;> simp (maxDischargeDepth := 40) +contextual [*]

@[simp] theorem kept_enterAnswered {s0 : State} (s : State) (e : WcbEntry) (h_s : Kept s0 s) :
    Kept s0 (enterAnswered s e) := by
  unfold enterAnswered; simp (maxDischargeDepth := 40) +contextual [*]

@[simp] theorem kept_admitWrites {s0 : State} (y0 : Nat) (y1 : Nat) (y2 : State) (h_y2 : Kept s0 y2) :
    Kept s0 (admitWrites y0 y1 y2) := by
  induction y0 generalizing y1 y2 with
  | zero => simp [admitWrites, *]
  | succ a ih =>
    unfold admitWrites; (repeat' split) <;> simp (maxDischargeDepth := 40) +contextual [*]

@[simp] theorem kept_admitWaiting {s0 : State} (s : State) (stack : Nat) (h_s : Kept s0 s) :
    Kept s0 (admitWaiting s stack) := by
  unfold admitWaiting; simp (maxDischargeDepth := 40) +contextual [*]

@[simp] theorem kept_drainEntry {s0 : State} (s : State) (e : WcbEntry) (fails : Nat) (h_s : Kept s0 s) :
    Kept s0 (drainEntry s e fails) := by
  unfold drainEntry; simp (maxDischargeDepth := 40) +contextual [*]

@[simp] theorem kept_ctlStored {s0 : State} (s : State) (who : Consumer) (line fails : Nat) (h_s : Kept s0 s) :
    Kept s0 (ctlStored s who line fails).1 := by
  unfold ctlStored
  dsimp only
  repeat' (first
    | intro _
    | with_reducible assumption
    | (with_reducible refine kept_ite _ _ _ ?_ ?_)
    | (with_reducible refine kept_ite_fst _ _ _ ?_ ?_)
    | (with_reducible refine kept_ite_snd _ _ _ ?_ ?_)
    | split
    | (simp (maxDischargeDepth := 40) +contextual [*]; done))

@[simp] theorem kept_ctlRead {s0 : State} (s : State) (who : Consumer) (line fails : Nat) (h_s : Kept s0 s) :
    Kept s0 (ctlRead s who line fails).1 := by
  unfold ctlRead; dsimp only; (repeat' split) <;> simp (maxDischargeDepth := 40) +contextual [*]

@[simp] theorem kept_coreChargeLine {s0 : State} (s : State) (n line : Nat) (h_s : Kept s0 s) :
    Kept s0 (coreChargeLine s n line) := by
  unfold coreChargeLine; (repeat' split) <;> simp (maxDischargeDepth := 40) +contextual [*]

@[simp] theorem kept_writeBackLine {s0 : State} (s : State) (line : Nat) (h_s : Kept s0 s) :
    Kept s0 (writeBackLine s line) := by
  unfold writeBackLine; (repeat' split) <;> simp (maxDischargeDepth := 40) +contextual [*]

@[simp] theorem kept_evictLine {s0 : State} (s : State) (line : Nat) (h_s : Kept s0 s) :
    Kept s0 (evictLine s line) := by
  unfold evictLine; simp (maxDischargeDepth := 40) +contextual [*]

@[simp] theorem kept_evictSome {s0 : State} (cluster : Nat) (y0 : Nat) (y1 : State) (h_y1 : Kept s0 y1) :
    Kept s0 (evictSome cluster y0 y1) := by
  induction y0 generalizing cluster y1 with
  | zero => simp [evictSome, *]
  | succ a ih =>
    unfold evictSome
    dsimp only
    (repeat' split) <;> (first | with_reducible assumption | (simp (maxDischargeDepth := 40) +contextual [*]; done) | (split <;> simp (maxDischargeDepth := 40) +contextual [*]))

@[simp] theorem kept_kittyRoom {s0 : State} (s : State) (cluster k : Nat) (h_s : Kept s0 s) :
    Kept s0 (kittyRoom s cluster k) := by
  unfold kittyRoom; simp (maxDischargeDepth := 40) +contextual [*]

@[simp] theorem kept_linesRoom {s0 : State} (s : State) (lines : List Nat) (h_s : Kept s0 s) :
    Kept s0 (linesRoom s lines) := by
  unfold linesRoom; simp (maxDischargeDepth := 40) +contextual [*]

@[simp] theorem kept_flushKitties {s0 : State} (s : State) (clusters : List Nat) (h_s : Kept s0 s) :
    Kept s0 (flushKitties s clusters) := by
  unfold flushKitties; simp (maxDischargeDepth := 40) +contextual [*]

end Sys2Proof.Machine
end

