-- ==== Sys2Proof/Laws/Kept/Tickets.lean ====
section
/-! SUPPORT. The operations of Tickets keep the queue, the canonical form of the array and the fuses that are set. -/

namespace Sys2Proof.Machine

@[simp] theorem kept_endTicket {s0 : State} (s : State) (stack core ticket : Nat) (gen : BitVec 8) (status : Nat)
    (h_s : Kept s0 s) :
    Kept s0 (endTicket s stack core ticket gen status) := by
  unfold endTicket; simp (maxDischargeDepth := 40) +contextual [*]

@[simp] theorem kept_finishRun {s0 : State} (s : State) (stack : Nat) (r : ScriptRun) (status : Nat) (h_s : Kept s0 s) :
    Kept s0 (finishRun s stack r status) := by
  unfold finishRun; simp (maxDischargeDepth := 40) +contextual [*]

@[simp] theorem kept_stopRun {s0 : State} (s : State) (stack : Nat) (r : ScriptRun) (status : Nat) (h_s : Kept s0 s) :
    Kept s0 (stopRun s stack r status) := by
  unfold stopRun; simp (maxDischargeDepth := 40) +contextual [*]

@[simp] theorem kept_faultRun {s0 : State} (s : State) (stack : Nat) (r : ScriptRun) (e : Ev) (chan slot : Nat) (row : W32)
    (h_s : Kept s0 s) :
    Kept s0 (faultRun s stack r e chan slot row) := by
  unfold faultRun; simp (maxDischargeDepth := 40) +contextual [*]

@[simp] theorem kept_loseHalf {s0 : State} (s : State) (half : Nat) (h_s : Kept s0 s) :
    Kept s0 (loseHalf s half) := by
  unfold loseHalf; simp (maxDischargeDepth := 40) +contextual [*]

end Sys2Proof.Machine
end

