-- ==== Sys2Proof/Laws/Kept/Recovery.lean ====
section
/-! SUPPORT. The operations of Recovery keep the queue, the canonical form of the array and the fuses that are set. -/

namespace Sys2Proof.Machine

@[simp] theorem kept_domainOff {s0 : State} (s : State) (n : Nat) (h_s : Kept s0 s) :
    Kept s0 (domainOff s n) := by
  unfold domainOff; simp (maxDischargeDepth := 40) +contextual [*]

@[simp] theorem kept_domainOn {s0 : State} (s : State) (n : Nat) (h_s : Kept s0 s) :
    Kept s0 (domainOn s n) := by
  unfold domainOn; simp (maxDischargeDepth := 40) +contextual [*]

@[simp] theorem kept_quadrantOff {s0 : State} (s : State) (q : Nat) (h_s : Kept s0 s) :
    Kept s0 (quadrantOff s q) := by
  unfold quadrantOff; simp (maxDischargeDepth := 40) +contextual [*]

@[simp] theorem kept_nearOff {s0 : State} (s : State) (h : Nat) (h_s : Kept s0 s) :
    Kept s0 (nearOff s h) := by
  unfold nearOff; simp (maxDischargeDepth := 40) +contextual [*]

@[simp] theorem kept_sideOff {s0 : State} (s : State) (f : Nat) (h_s : Kept s0 s) :
    Kept s0 (sideOff s f) := by
  unfold sideOff; simp (maxDischargeDepth := 40) +contextual [*]

@[simp] theorem kept_stackReset {s0 : State} (s : State) (n : Nat) (h_s : Kept s0 s) :
    Kept s0 (stackReset s n) := by
  unfold stackReset; simp (maxDischargeDepth := 40) +contextual [*]

@[simp] theorem kept_disarm {s0 : State} (s : State) (h_s : Kept s0 s) :
    Kept s0 (disarm s) := by
  unfold disarm
  repeat' (first
    | intro _
    | with_reducible assumption
    | split
    | (simp (maxDischargeDepth := 40) +contextual [*]; done)
    | dsimp only)

@[simp] theorem kept_resetDomain {s0 : State} (s : State) (y0 : ResetDomain) (h_s : Kept s0 s) :
    Kept s0 (resetDomain s y0) := by
  unfold resetDomain; (repeat' split) <;> simp (maxDischargeDepth := 40) +contextual [*]

@[simp] theorem kept_beginRecovery {s0 : State} (s : State) (d : ResetDomain) (h_s : Kept s0 s) :
    Kept s0 (beginRecovery s d) := by
  unfold beginRecovery; simp (maxDischargeDepth := 40) +contextual [*]

end Sys2Proof.Machine
end

