-- ==== Sys2Proof/Laws/Kept/Abort.lean ====
section
/-! SUPPORT. The operations of Abort keep the queue, the canonical form of the array and the fuses that are set. -/

namespace Sys2Proof.Machine

@[simp] theorem kept_endBackground {s0 : State} (s : State) (opcode : Nat) (st : Status) (code : W32) (out : List Byte)
    (h_s : Kept s0 s) :
    Kept s0 (endBackground s opcode st code out) := by
  unfold endBackground; (repeat' split) <;> simp (maxDischargeDepth := 40) +contextual [*]

@[simp] theorem kept_deckFault {s0 : State} (s : State) (e : Ev) (offset : W32) (a32 : List W32) (a64 : List W64)
    (h_s : Kept s0 s) :
    Kept s0 (deckFault s e offset a32 a64) := by
  unfold deckFault; simp (maxDischargeDepth := 40) +contextual [*]

@[simp] theorem kept_cancelSwitch {s0 : State} (s : State) (h_s : Kept s0 s) :
    Kept s0 (cancelSwitch s) := by
  unfold cancelSwitch; (repeat' split) <;> simp (maxDischargeDepth := 40) +contextual [*]

@[simp] theorem kept_endSwitch {s0 : State} (s : State) (cause result : W32) (h_s : Kept s0 s) :
    Kept s0 (endSwitch s cause result) := by
  unfold endSwitch; dsimp only; (repeat' split) <;> simp (maxDischargeDepth := 40) +contextual [*]

@[simp] theorem kept_cancelTricks {s0 : State} (s : State) (h_s : Kept s0 s) :
    Kept s0 (cancelTricks s) := by
  unfold cancelTricks; simp (maxDischargeDepth := 40) +contextual [*]

@[simp] theorem kept_resetStream {s0 : State} (s : State) (e : StreamEntry) (h_s : Kept s0 s) :
    Kept s0 (resetStream s e) := by
  unfold resetStream; simp (maxDischargeDepth := 40) +contextual [*]

@[simp] theorem kept_resetStreams {s0 : State} (s : State) (h_s : Kept s0 s) :
    Kept s0 (resetStreams s) := by
  unfold resetStreams; (repeat' split) <;> simp (maxDischargeDepth := 40) +contextual [*]

@[simp] theorem kept_abortTickets {s0 : State} (s : State) (h_s : Kept s0 s) :
    Kept s0 (abortTickets s) := by
  unfold abortTickets; simp (maxDischargeDepth := 40) +contextual [*]

@[simp] theorem kept_restartCores {s0 : State} (s : State) (h_s : Kept s0 s) :
    Kept s0 (restartCores s) := by
  unfold restartCores; (repeat' split) <;> simp (maxDischargeDepth := 40) +contextual [*]

@[simp] theorem kept_cancelRounds {s0 : State} (s : State) (h_s : Kept s0 s) :
    Kept s0 (cancelRounds s) := by
  unfold cancelRounds; simp (maxDischargeDepth := 40) +contextual [*]

@[simp] theorem kept_checkStall {s0 : State} (s : State) (code : W32) (h_s : Kept s0 s) :
    Kept s0 (checkStall s code) := by
  unfold checkStall; simp (maxDischargeDepth := 40) +contextual [*]

@[simp] theorem kept_sendReady {s0 : State} (s : State) (h_s : Kept s0 s) :
    Kept s0 (sendReady s) := by
  unfold sendReady; (repeat' split) <;> simp (maxDischargeDepth := 40) +contextual [*]

@[simp] theorem kept_adoptAbort {s0 : State} (s : State) (gen : BitVec 16) (code : W32) (h_s : Kept s0 s) :
    Kept s0 (adoptAbort s gen code) := by
  unfold adoptAbort; dsimp only; (repeat' split) <;> simp (maxDischargeDepth := 40) +contextual [*]

@[simp] theorem kept_groupAbort {s0 : State} (s : State) (origin : Nat) (code : W32) (h_s : Kept s0 s) :
    Kept s0 (groupAbort s origin code) := by
  unfold groupAbort; (repeat' split) <;> simp (maxDischargeDepth := 40) +contextual [*]

@[simp] theorem kept_beginProbes {s0 : State} (s : State) (code : W32) (h_s : Kept s0 s) :
    Kept s0 (beginProbes s code) := by
  unfold beginProbes; simp (maxDischargeDepth := 40) +contextual [*]

@[simp] theorem kept_requestAbort {s0 : State} (s : State) (code : W32) (h_s : Kept s0 s) :
    Kept s0 (requestAbort s code) := by
  unfold requestAbort; (repeat' split) <;> simp (maxDischargeDepth := 40) +contextual [*]

@[simp] theorem kept_portLeavesActive {s0 : State} (s : State) (p : Nat) (e : Ev) (h_s : Kept s0 s) :
    Kept s0 (portLeavesActive s p e) := by
  unfold portLeavesActive; simp (maxDischargeDepth := 40) +contextual [*]

@[simp] theorem kept_abortAndRecover {s0 : State} (s : State) (d : ResetDomain) (code : W32) (h_s : Kept s0 s) :
    Kept s0 (abortAndRecover s d code) := by
  unfold abortAndRecover; (repeat' split) <;> simp (maxDischargeDepth := 40) +contextual [*]

@[simp] theorem kept_stopCore {s0 : State} (s : State) (n : Nat) (e : Ev) (number : Nat) (addr : W64) (h_s : Kept s0 s) :
    Kept s0 (stopCore s n e number addr) := by
  unfold stopCore; simp (maxDischargeDepth := 40) +contextual [*]

@[simp] theorem kept_coreFault {s0 : State} (s : State) (n : Nat) (e : Ev) (number : Nat) (addr : W64) (h_s : Kept s0 s) :
    Kept s0 (coreFault s n e number addr) := by
  unfold coreFault; simp (maxDischargeDepth := 40) +contextual [*]

@[simp] theorem kept_raiseRecheck {s0 : State} (s : State) (h_s : Kept s0 s) :
    Kept s0 (raiseRecheck s) := by
  unfold raiseRecheck; simp (maxDischargeDepth := 40) +contextual [*]

end Sys2Proof.Machine
end

