-- ==== Sys2Proof/Laws/Kept/CoreMem.lean ====
section
/-! SUPPORT. The operations of CoreMem keep the queue, the canonical form of the array and the fuses that are set. -/

namespace Sys2Proof.Machine

@[simp] theorem kept_freeHalves {s0 : State} (s : State) (v : W64) (p : BitVec 2) (h_s : Kept s0 s) :
    Kept s0 (freeHalves s v p).2 := by
  unfold freeHalves; (repeat' split) <;> simp (maxDischargeDepth := 40) +contextual [*]

@[simp] theorem kept_setSreg {s0 : State} (s : State) (n r : Nat) (v : W64) (p : BitVec 2) (h_s : Kept s0 s) :
    Kept s0 (setSreg s n r v p) := by
  unfold setSreg; simp (maxDischargeDepth := 40) +contextual [*]

@[simp] theorem kept_setPred {s0 : State} (s : State) (n r : Nat) (b bad : Bool) (h_s : Kept s0 s) :
    Kept s0 (setPred s n r b bad) := by
  unfold setPred; (repeat' split) <;> simp (maxDischargeDepth := 40) +contextual [*]

@[simp] theorem kept_coreWaits {s0 : State} (s : State) (n : Nat) (w : Wait) (h_s : Kept s0 s) :
    Kept s0 (coreWaits s n w) := by
  unfold coreWaits; simp (maxDischargeDepth := 40) +contextual [*]

@[simp] theorem kept_reachKitty {s0 : State} (s : State) (n line : Nat) (h_s : Kept s0 s) :
    Kept s0 (reachKitty s n line).1 := by
  unfold reachKitty; (repeat' split) <;> simp (maxDischargeDepth := 40) +contextual [*]

@[simp] theorem kept_fillKitty {s0 : State} (s : State) (n line : Nat) (h_s : Kept s0 s) :
    Kept s0 (fillKitty s n line).1 := by
  unfold fillKitty; dsimp only; (repeat' split) <;> simp (maxDischargeDepth := 40) +contextual [*]

@[simp] theorem kept_ensureLine {s0 : State} (s : State) (n line : Nat) (h_s : Kept s0 s) :
    Kept s0 (ensureLine s n line).1 := by
  unfold ensureLine; dsimp only; (repeat' split) <;> simp (maxDischargeDepth := 40) +contextual [*]

@[simp] theorem kept_rcAlloc {s0 : State} (s : State) (n line : Nat) (v : CLine) (h_s : Kept s0 s) :
    Kept s0 (rcAlloc s n line v) := by
  unfold rcAlloc; simp (maxDischargeDepth := 40) +contextual [*]

@[simp] theorem kept_fetchLines {s0 : State} (s : State) (n : Nat) (rt : Bool) (y0 : List Nat) (h_s : Kept s0 s) :
    Kept s0 (fetchLines s n rt y0).1 := by
  induction y0 generalizing s with
  | nil => exact h_s
  | cons a r ih =>
    unfold fetchLines
    dsimp only
    split
    · exact ih s h_s
    · split
      · simp (maxDischargeDepth := 40) +contextual [*]
      · apply ih; split <;> simp (maxDischargeDepth := 40) +contextual [*]

@[simp] theorem kept_ensureLines {s0 : State} (s : State) (n : Nat) (full : List Nat) (y0 : List Nat) (h_s : Kept s0 s) :
    Kept s0 (ensureLines s n full y0).1 := by
  induction y0 generalizing s n full with
  | nil => simp [ensureLines, *]
  | cons a r ih =>
    unfold ensureLines
    dsimp only
    (repeat' split) <;> (first | with_reducible assumption | (simp (maxDischargeDepth := 40) +contextual [*]; done) | (split <;> simp (maxDischargeDepth := 40) +contextual [*]))

@[simp] theorem kept_putWord {s0 : State} (s : State) (old : Nat) (oldBad : Bool) (p : WordPut) (h_s : Kept s0 s) :
    Kept s0 (putWord s old oldBad p).1 := by
  unfold putWord; dsimp only; (repeat' split) <;> simp (maxDischargeDepth := 40) +contextual [*]

@[simp] theorem kept_putScratch {s0 : State} (s : State) (n : Nat) (key : Nat) (p : WordPut) (h_s : Kept s0 s) :
    Kept s0 (putScratch s n key p) := by
  unfold putScratch; simp (maxDischargeDepth := 40) +contextual [*]

@[simp] theorem kept_putKitty {s0 : State} (s : State) (n key : Nat) (p : WordPut) (h_s : Kept s0 s) :
    Kept s0 (putKitty s n key p) := by
  unfold putKitty; simp (maxDischargeDepth := 40) +contextual [*]

@[simp] theorem kept_kittyParity {s0 : State} (s : State) (addr : Nat) (table : Option Nat) (d : Detail) (h_s : Kept s0 s) :
    Kept s0 (kittyParity s addr table d) := by
  unfold kittyParity
  dsimp only
  repeat' (first
    | intro _
    | with_reducible assumption
    | (with_reducible refine kept_ite _ _ _ ?_ ?_)
    | (with_reducible refine kept_ite_fst _ _ _ ?_ ?_)
    | (with_reducible refine kept_ite_snd _ _ _ ?_ ?_)
    | split
    | (simp (maxDischargeDepth := 40) +contextual [*]; done))

@[simp] theorem kept_spoilTile {s0 : State} (s : State) (n acc k : Nat) (h_s : Kept s0 s) :
    Kept s0 (spoilTile s n acc k) := by
  unfold spoilTile; simp (maxDischargeDepth := 40) +contextual [*]

@[simp] theorem kept_failWord {s0 : State} (s : State) (n : Nat) (w : StoredWord) (h_s : Kept s0 s) :
    Kept s0 (failWord s n w) := by
  unfold failWord
  dsimp only
  repeat' (first
    | intro _
    | with_reducible assumption
    | (with_reducible refine kept_ite _ _ _ ?_ ?_)
    | (with_reducible refine kept_ite_fst _ _ _ ?_ ?_)
    | (with_reducible refine kept_ite_snd _ _ _ ?_ ?_)
    | split
    | (with_reducible refine kept_foldl _ _ _ ?_ ?_)
    | (with_reducible refine kept_foldl_snd _ _ _ ?_ ?_)
    | (with_reducible refine kept_foldl_fst _ _ _ ?_ ?_)
    | (simp (maxDischargeDepth := 40) +contextual [*]; done))

@[simp] theorem kept_commitWords {s0 : State} (s : State) (n : Nat) (m : Sparse WordPut) (h_s : Kept s0 s) :
    Kept s0 (commitWords s n m) := by
  unfold commitWords; simp (maxDischargeDepth := 40) +contextual [*]

@[simp] theorem kept_writeWords {s0 : State} (s : State) (n : Nat) (m : Sparse WordPut) (h_s : Kept s0 s) :
    Kept s0 (writeWords s n m).1 := by
  unfold writeWords; dsimp only; (repeat' split) <;> simp (maxDischargeDepth := 40) +contextual [*]

@[simp] theorem kept_coreRead {s0 : State} (s : State) (n a len : Nat) (rt : Bool) (h_s : Kept s0 s) :
    Kept s0 (coreRead s n a len rt).1 := by
  unfold coreRead; simp (maxDischargeDepth := 40) +contextual [*]

@[simp] theorem kept_kittyAtom {s0 : State} (s : State) (addr op operand compare : Nat) (opBad : Bool) (h_s : Kept s0 s) :
    Kept s0 (kittyAtom s addr op operand compare opBad).1 := by
  unfold kittyAtom; simp (maxDischargeDepth := 40) +contextual [*]

end Sys2Proof.Machine
end

