-- ==== Sys2Proof/Laws/Kept/Access.lean ====
section
/-! SUPPORT. The operations of Access keep the queue, the canonical form of the array and the fuses that are set. -/

namespace Sys2Proof.Machine

@[simp] theorem kept_fetchCtl {s0 : State} (s : State) (who : Consumer) (line dist : Nat) (h_s : Kept s0 s) :
    Kept s0 (fetchCtl s who line dist).1 := by
  unfold fetchCtl
  dsimp only
  repeat' (first
    | intro _
    | with_reducible assumption
    | (with_reducible refine kept_ite _ _ _ ?_ ?_)
    | (with_reducible refine kept_ite_fst _ _ _ ?_ ?_)
    | (with_reducible refine kept_ite_snd _ _ _ ?_ ?_)
    | split
    | (simp (maxDischargeDepth := 40) +contextual [*]; done))

@[simp] theorem kept_fetchOutside {s0 : State} (s : State) (who : Consumer) (line dist : Nat) (h_s : Kept s0 s) :
    Kept s0 (fetchOutside s who line dist).1 := by
  unfold fetchOutside; (repeat' split) <;> simp (maxDischargeDepth := 40) +contextual [*]

@[simp] theorem kept_poisonToHost {s0 : State} (s : State) (line : Nat) (h_s : Kept s0 s) :
    Kept s0 (poisonToHost s line).1 := by
  unfold poisonToHost; simp (maxDischargeDepth := 40) +contextual [*]

@[simp] theorem kept_hostReply {s0 : State} (s : State) (hpa line : Nat) (v : Line × BitVec 16) (h_s : Kept s0 s) :
    Kept s0 (hostReply s hpa line v) := by
  unfold hostReply; simp (maxDischargeDepth := 40) +contextual [*]

@[simp] theorem kept_fetchAll {s0 : State} (s : State) (who : Consumer) (dist : Nat) (y0 : List Nat) (h_s : Kept s0 s) :
    Kept s0 (fetchAll s who dist y0).1 := by
  induction y0 generalizing s who dist with
  | nil => exact h_s
  | cons a r ih =>
    unfold fetchAll
    dsimp only
    repeat' (first
      | with_reducible assumption
      | (simp (maxDischargeDepth := 40) +contextual [*]; done)
      | (apply ih)
      | (split <;> (try (rename_i hq; replace hq := KeptOpt.of_eq (s0 := s0) hq (by clear hq; simp (maxDischargeDepth := 40) +contextual [*]))))
      | dsimp only
      | intro _)

@[simp] theorem kept_answerRead {s0 : State} (s : State) (src tag addr length : Nat) (gen : BitVec 16) (dist : Nat)
    (h_s : Kept s0 s) :
    Kept s0 (answerRead s src tag addr length gen dist) := by
  unfold answerRead; dsimp only; (repeat' split) <;> simp (maxDischargeDepth := 40) +contextual [*]

@[simp] theorem kept_releaseBank {s0 : State} (s : State) (line core ticket bank : Nat) (h_s : Kept s0 s) :
    Kept s0 (releaseBank s line core ticket bank) := by
  unfold releaseBank; simp (maxDischargeDepth := 40) +contextual [*]

@[simp] theorem kept_deliver {s0 : State} (s : State) (who : Consumer) (line : Nat) (v : Line × BitVec 16) (h_s : Kept s0 s) :
    Kept s0 (deliver s who line v) := by
  unfold deliver; (repeat' split) <;> simp (maxDischargeDepth := 40) +contextual [*]

@[simp] theorem kept_deliverRead {s0 : State} (r : State × Option (Line × BitVec 16)) (who : Consumer) (line : Nat)
    (h_r : Kept s0 (r).1) :
    Kept s0 (deliverRead r who line) := by
  unfold deliverRead
  repeat' (first
    | intro _
    | with_reducible assumption
    | split
    | (simp (maxDischargeDepth := 40) +contextual [*]; done)
    | dsimp only)

@[simp] theorem kept_serveRead {s0 : State} (s : State) (who : Consumer) (line dist : Nat) (h_s : Kept s0 s) :
    Kept s0 (serveRead s who line dist) := by
  unfold serveRead
  repeat' (first
    | intro _
    | with_reducible assumption
    | split
    | (simp (maxDischargeDepth := 40) +contextual [*]; done)
    | dsimp only)

@[simp] theorem kept_serveAccess {s0 : State} (s : State) (y0 : CtlAccess) (h_s : Kept s0 s) :
    Kept s0 (serveAccess s y0) := by
  unfold serveAccess
  dsimp only
  repeat' (first
    | intro _
    | with_reducible assumption
    | split
    | (simp (maxDischargeDepth := 40) +contextual [*]; done))

@[simp] theorem kept_serveQueue {s0 : State} (y0 : Nat) (y1 : Nat) (y2 : State) (h_y2 : Kept s0 y2) :
    Kept s0 (serveQueue y0 y1 y2) := by
  induction y0 generalizing y1 y2 with
  | zero => simp [serveQueue, *]
  | succ a ih =>
    unfold serveQueue; (repeat' split) <;> simp (maxDischargeDepth := 40) +contextual [*]

@[simp] theorem kept_pump {s0 : State} (s : State) (n : Nat) (h_s : Kept s0 s) :
    Kept s0 (pump s n) := by
  unfold pump; simp (maxDischargeDepth := 40) +contextual [*]

@[simp] theorem kept_runXfer {s0 : State} (s : State) (pair : Nat) (y0 : Xfer) (h_s : Kept s0 s) :
    Kept s0 (runXfer s pair y0) := by
  unfold runXfer; (repeat' split) <;> simp (maxDischargeDepth := 40) +contextual [*]

end Sys2Proof.Machine
end

