-- ==== Sys2Proof/Laws/Kept/Links.lean ====
section
/-! SUPPORT. The operations of Links keep the queue, the canonical form of the array and the fuses that are set. -/

namespace Sys2Proof.Machine

@[simp] theorem kept_startTraining {s0 : State} (s : State) (p : Nat) (h_s : Kept s0 s) :
    Kept s0 (startTraining s p) := by
  unfold startTraining; simp (maxDischargeDepth := 40) +contextual [*]

@[simp] theorem kept_logMismatch {s0 : State} (s : State) (e : Ev) (p : Nat) (own peer : TrainBody) (h_s : Kept s0 s) :
    Kept s0 (logMismatch s e p own peer) := by
  unfold logMismatch; simp (maxDischargeDepth := 40) +contextual [*]

@[simp] theorem kept_enterState {s0 : State} (s : State) (p : Nat) (st : PortState) (h_s : Kept s0 s) :
    Kept s0 (enterState s p st) := by
  unfold enterState; simp (maxDischargeDepth := 40) +contextual [*]

@[simp] theorem kept_applyChecks {s0 : State} (s : State) (p : Nat) (recheck : Bool) (h_s : Kept s0 s) :
    Kept s0 (applyChecks s p recheck) := by
  unfold applyChecks; dsimp only; (repeat' split) <;> simp (maxDischargeDepth := 40) +contextual [*]

@[simp] theorem kept_sendTrain {s0 : State} (s : State) (p : Nat) (h_s : Kept s0 s) :
    Kept s0 (sendTrain s p) := by
  unfold sendTrain; simp (maxDischargeDepth := 40) +contextual [*]

@[simp] theorem kept_takeRole {s0 : State} (s : State) (p : Nat) (h_s : Kept s0 s) :
    Kept s0 (takeRole s p) := by
  unfold takeRole; simp (maxDischargeDepth := 40) +contextual [*]

@[simp] theorem kept_sidesForRoles {s0 : State} (s : State) (h_s : Kept s0 s) :
    Kept s0 (sidesForRoles s) := by
  unfold sidesForRoles; simp (maxDischargeDepth := 40) +contextual [*]

end Sys2Proof.Machine
end

