-- ==== Sys2Proof/Laws/Kept/Spare.lean ====
section
/-! SUPPORT. The operations of Spare keep the queue, the canonical form of the array and the fuses that are set. -/

namespace Sys2Proof.Machine

/-- A fold over the work of a window keeps it. -/
@[simp] theorem kept_foldl_work {α : Type} {s0 : State} (g : Work → α → Work) (l : List α) (w : Work)
    (h : Kept s0 w.s) (hg : ∀ w a, Kept s0 w.s → Kept s0 (g w a).s) : Kept s0 (l.foldl g w).s := by
  induction l generalizing w with
  | nil => exact h
  | cons a r ih => exact ih (g w a) (hg w a h)

@[simp] theorem kept_ite_work {s0 : State} (c : Prop) [Decidable c] (a b : Work) (ha : Kept s0 a.s) (hb : Kept s0 b.s) :
    Kept s0 (if c then a else b).s := by split <;> assumption

@[simp] theorem kept_spareRow {s0 : State} (s : State) (stack bank row : Nat) (h_s : Kept s0 s) :
    KeptOpt s0 (spareRow s stack bank row) := by
  unfold spareRow
  dsimp only
  split
  · trivial
  · exact kept_modStack (h_s := kept_array h_s _ fun w => memWf_wrBytes _ _ _ w) ..


@[simp] theorem kept_rowSpared {s0 : State} (s : State) (e : Ev) (stack bank row mask : Nat) (h_s : Kept s0 s) :
    Kept s0 (rowSpared s e stack bank row mask) := by
  unfold rowSpared; simp (maxDischargeDepth := 40) +contextual [*]

@[simp] theorem kept_softSpare {s0 : State} (s : State) (stack bank row mask : Nat) (h_s : Kept s0 s) :
    KeptOpt s0 (softSpare s stack bank row mask) := by
  unfold softSpare
  have := kept_spareRow s stack bank row h_s
  cases h : spareRow s stack bank row with
  | none => trivial
  | some t =>
    rw [h] at this
    simp_all

@[simp] theorem kept_softSpareHeld {s0 : State} (s : State) (stack bank row mask : Nat) (h_s : Kept s0 s) :
    KeptOpt s0 (softSpareHeld s stack bank row mask) := by
  unfold softSpareHeld
  repeat' (first
    | intro _
    | with_reducible assumption
    | (with_reducible refine kept_ite_work _ _ _ ?_ ?_)
    | (with_reducible refine keptOpt_ite _ _ _ ?_ ?_)
    | (with_reducible refine kept_ite _ _ _ ?_ ?_)
    | split
    | (simp (maxDischargeDepth := 40) +contextual [*]; done)
    | dsimp only)

@[simp] theorem kept_Work_fits {s0 : State} (w : Work) (limited : Bool) (h_w : Kept s0 w.s) :
    Kept s0 (Work.fits w limited).1.s := by
  unfold Work.fits; (repeat' split) <;> simp (maxDischargeDepth := 40) +contextual [*]

@[simp] theorem kept_Work_defer {s0 : State} (w : Work) (stack : Nat) (e : SpareEntry) (h_w : Kept s0 w.s) :
    Kept s0 (Work.defer w stack e).s := by
  unfold Work.defer; simp (maxDischargeDepth := 40) +contextual [*]

@[simp] theorem kept_dropSpare {s0 : State} (s : State) (stack : Nat) (e : SpareEntry) (h_s : Kept s0 s) :
    Kept s0 (dropSpare s stack e) := by
  unfold dropSpare; simp (maxDischargeDepth := 40) +contextual [*]

@[simp] theorem kept_testCopied {s0 : State} (s : State) (stack bank row i : Nat) (h_s : Kept s0 s) :
    Kept s0 (testCopied s stack bank row i) := by
  unfold testCopied; simp (maxDischargeDepth := 40) +contextual [*]

@[simp] theorem kept_copyColumn {s0 : State} (stack bank i pair : Nat) (s : State) (prow : Nat) (h_s : Kept s0 s) :
    Kept s0 (copyColumn stack bank i pair s prow) := by
  unfold copyColumn
  exact kept_array h_s _ fun w => memWf_wrBytes _ _ _ w

@[simp] theorem kept_spareColumns {s0 : State} (s : State) (stack bank i : Nat) (h_s : Kept s0 s) :
    Kept s0 (spareColumns s stack bank i) := by
  unfold spareColumns; simp (maxDischargeDepth := 40) +contextual [*]

@[simp] theorem kept_doSpare {s0 : State} (s : State) (stack : Nat) (e : SpareEntry) (y0 : SpareAct) (h_s : Kept s0 s) :
    Kept s0 (doSpare s stack e y0) := by
  unfold doSpare
  dsimp only
  repeat' (first
    | intro _
    | with_reducible assumption
    | (split <;> (try (rename_i hq; replace hq := KeptOpt.of_eq (s0 := s0) hq (by clear hq; simp (maxDischargeDepth := 40) +contextual [*]))))
    | (with_reducible refine kept_foldl _ _ _ ?_ ?_)
    | (with_reducible refine kept_foldl_snd _ _ _ ?_ ?_)
    | (with_reducible refine kept_foldl_fst _ _ _ ?_ ?_)
    | (with_reducible refine kept_foldl_work _ _ _ ?_ ?_)
    | (simp (maxDischargeDepth := 40) +contextual [*]; done))

@[simp] theorem kept_spareStep {s0 : State} (auto : Nat) (limited : Bool) (stack : Nat) (w : Work) (e : SpareEntry)
    (h_w : Kept s0 w.s) :
    Kept s0 (spareStep auto limited stack w e).s := by
  unfold spareStep
  dsimp only
  repeat' (first
    | intro _
    | with_reducible assumption
    | (with_reducible refine kept_ite_work _ _ _ ?_ ?_)
    | (with_reducible refine kept_ite _ _ _ ?_ ?_)
    | (with_reducible refine kept_ite_fst _ _ _ ?_ ?_)
    | (with_reducible refine kept_ite_snd _ _ _ ?_ ?_)
    | split
    | (simp (maxDischargeDepth := 40) +contextual [*]; done))

@[simp] theorem kept_spareLists {s0 : State} (auto : Nat) (limited soft : Bool) (w : Work) (h_w : Kept s0 w.s) :
    Kept s0 (spareLists auto limited soft w).s := by
  unfold spareLists; simp (maxDischargeDepth := 40) +contextual [*]

@[simp] theorem kept_fuseLane {s0 : State} (s : State) (id : PathId) (l : Nat) (h_s : Kept s0 s) :
    Kept s0 (fuseLane s id l) := by
  unfold fuseLane; simp (maxDischargeDepth := 40) +contextual [*]

@[simp] theorem kept_fuseLanes {s0 : State} (auto : Nat) (limited : Bool) (w : Work) (h_w : Kept s0 w.s) :
    Kept s0 (fuseLanes auto limited w).s := by
  unfold fuseLanes
  dsimp only
  repeat' (first
    | intro _
    | with_reducible assumption
    | (with_reducible refine kept_ite_work _ _ _ ?_ ?_)
    | (with_reducible refine kept_ite _ _ _ ?_ ?_)
    | (with_reducible refine kept_ite_fst _ _ _ ?_ ?_)
    | (with_reducible refine kept_ite_snd _ _ _ ?_ ?_)
    | split
    | (with_reducible refine kept_foldl _ _ _ ?_ ?_)
    | (with_reducible refine kept_foldl_snd _ _ _ ?_ ?_)
    | (with_reducible refine kept_foldl_fst _ _ _ ?_ ?_)
    | (with_reducible refine kept_foldl_work _ _ _ ?_ ?_)
    | (simp (maxDischargeDepth := 40) +contextual [*]; done))

@[simp] theorem kept_mapCore {s0 : State} (s : State) (n p : Nat) (h_s : Kept s0 s) :
    Kept s0 (mapCore s n p) := by
  unfold mapCore
  dsimp only
  repeat' (first
    | intro _
    | with_reducible assumption
    | split
    | (simp (maxDischargeDepth := 40) +contextual [*]; done))

@[simp] theorem kept_retireCore {s0 : State} (s : State) (c : Nat) (h_s : Kept s0 s) :
    Kept s0 (retireCore s c).1 := by
  unfold retireCore; dsimp only; (repeat' split) <;> simp (maxDischargeDepth := 40) +contextual [*]

@[simp] theorem kept_retireBad {s0 : State} (auto : Nat) (limited : Bool) (w : Work) (h_w : Kept s0 w.s) :
    Kept s0 (retireBad auto limited w).s := by
  unfold retireBad
  dsimp only
  repeat' (first
    | intro _
    | with_reducible assumption
    | (with_reducible refine kept_ite_work _ _ _ ?_ ?_)
    | (with_reducible refine kept_ite _ _ _ ?_ ?_)
    | (with_reducible refine kept_ite_fst _ _ _ ?_ ?_)
    | (with_reducible refine kept_ite_snd _ _ _ ?_ ?_)
    | split
    | (with_reducible refine kept_foldl _ _ _ ?_ ?_)
    | (with_reducible refine kept_foldl_snd _ _ _ ?_ ?_)
    | (with_reducible refine kept_foldl_fst _ _ _ ?_ ?_)
    | (with_reducible refine kept_foldl_work _ _ _ ?_ ?_)
    | (simp (maxDischargeDepth := 40) +contextual [*]; done))

@[simp] theorem kept_retrainFailed {s0 : State} (w : Work) (h_w : Kept s0 w.s) :
    Kept s0 (retrainFailed w).s := by
  unfold retrainFailed
  refine kept_foldl_work _ _ _ h_w fun w p h => kept_ite_work _ _ _ ?_ h
  exact kept_startTraining (h_s := h) ..

@[simp] theorem kept_noteFuseWait {s0 : State} (s : State) (h_s : Kept s0 s) :
    Kept s0 (noteFuseWait s) := by
  unfold noteFuseWait; simp (maxDischargeDepth := 40) +contextual [*]

@[simp] theorem kept_logFuseWait {s0 : State} (s : State) (auto : Nat) (h_s : Kept s0 s) :
    Kept s0 (logFuseWait s auto) := by
  unfold logFuseWait; simp (maxDischargeDepth := 40) +contextual [*]

@[simp] theorem kept_windowWork {s0 : State} (s : State) (auto fuseMax : Nat) (limited : Bool) (h_s : Kept s0 s) :
    Kept s0 (windowWork s auto fuseMax limited).s := by
  unfold windowWork; simp (maxDischargeDepth := 40) +contextual [*]

end Sys2Proof.Machine
end

