-- ==== Sys2Proof/Laws/Kept/BackInv.lean ====
section
/-! SUPPORT. The operations of BackInv keep the queue, the canonical form of the array and the fuses that are set. -/

namespace Sys2Proof.Machine

@[simp] theorem kept_snoopEnter {s0 : State} (s : State) (dpa : Nat) (exclusive : Bool) (h_s : Kept s0 s) :
    Kept s0 (snoopEnter s dpa exclusive) := by
  unfold snoopEnter; simp (maxDischargeDepth := 40) +contextual [*]

@[simp] theorem kept_hostRead {s0 : State} (s : State) (hpa dpa : Nat) (exclusive : Bool) (h_s : Kept s0 s) :
    Kept s0 (hostRead s hpa dpa exclusive) := by
  unfold hostRead; dsimp only; (repeat' split) <;> simp (maxDischargeDepth := 40) +contextual [*]

@[simp] theorem kept_injectLine {s0 : State} (s : State) (line : Nat) (h_s : Kept s0 s) :
    Kept s0 (injectLine s line) := by
  unfold injectLine
  dsimp only
  (repeat' split) <;> (first | with_reducible assumption | (simp (maxDischargeDepth := 40) +contextual [*]; done) | (split <;> simp (maxDischargeDepth := 40) +contextual [*]))

@[simp] theorem kept_freeLine {s0 : State} (s : State) (h_s : Kept s0 s) :
    Kept s0 (freeLine s).2 := by
  unfold freeLine; simp (maxDischargeDepth := 40) +contextual [*]

@[simp] theorem kept_poisonedReply {s0 : State} (s : State) (hpa : Nat) (h_s : Kept s0 s) :
    Kept s0 (poisonedReply s hpa) := by
  unfold poisonedReply; simp (maxDischargeDepth := 40) +contextual [*]

@[simp] theorem kept_runWaiter {s0 : State} (s : State) (y0 : BiWaiter) (h_s : Kept s0 s) :
    Kept s0 (runWaiter s y0) := by
  unfold runWaiter; (repeat' split) <;> simp (maxDischargeDepth := 40) +contextual [*]

@[simp] theorem kept_completeBi {s0 : State} (s : State) (dpa : Nat) (h_s : Kept s0 s) :
    Kept s0 (completeBi s dpa) := by
  unfold completeBi; (repeat' split) <;> simp (maxDischargeDepth := 40) +contextual [*]

@[simp] theorem kept_answerBi {s0 : State} (s : State) (dpa : Nat) (h_s : Kept s0 s) :
    Kept s0 (answerBi s dpa) := by
  unfold answerBi; simp (maxDischargeDepth := 40) +contextual [*]

@[simp] theorem kept_settleBi {s0 : State} (s : State) (h_s : Kept s0 s) :
    Kept s0 (settleBi s) := by
  unfold settleBi; simp (maxDischargeDepth := 40) +contextual [*]

end Sys2Proof.Machine
end

