-- ==== Sys2Proof/Laws/Kept/Cache.lean ====
section
/-! SUPPORT. The operations of Cache keep the queue, the canonical form of the array and the fuses that are set. -/

namespace Sys2Proof.Machine

@[simp] theorem kept_fwCtlRead {s0 : State} (s : State) (line : Nat) (h_s : Kept s0 s) :
    Kept s0 (fwCtlRead s line).1 := by
  unfold fwCtlRead
  dsimp only
  repeat' (first
    | intro _
    | with_reducible assumption
    | (with_reducible refine kept_ite _ _ _ ?_ ?_)
    | (with_reducible refine kept_ite_fst _ _ _ ?_ ?_)
    | (with_reducible refine kept_ite_snd _ _ _ ?_ ?_)
    | split
    | (simp (maxDischargeDepth := 40) +contextual [*]; done))

@[simp] theorem kept_fwReadLine {s0 : State} (s : State) (line : Nat) (h_s : Kept s0 s) :
    Kept s0 (fwReadLine s line).1 := by
  unfold fwReadLine; dsimp only; (repeat' split) <;> simp (maxDischargeDepth := 40) +contextual [*]

@[simp] theorem kept_fwReadLines {s0 : State} (s : State) (y0 : List Nat) (h_s : Kept s0 s) :
    Kept s0 (fwReadLines s y0).1 := by
  induction y0 generalizing s with
  | nil => simp [fwReadLines, *]
  | cons a r ih =>
    unfold fwReadLines; (repeat' split) <;> simp (maxDischargeDepth := 40) +contextual [*]

@[simp] theorem kept_fwRead {s0 : State} (s : State) (a n : Nat) (h_s : Kept s0 s) :
    Kept s0 (fwRead s a n).1 := by
  unfold fwRead; simp (maxDischargeDepth := 40) +contextual [*]

@[simp] theorem kept_fwRead32 {s0 : State} (s : State) (a : Nat) (h_s : Kept s0 s) :
    Kept s0 (fwRead32 s a).1 := by
  unfold fwRead32; simp (maxDischargeDepth := 40) +contextual [*]

@[simp] theorem kept_fwWrite {s0 : State} (s : State) (a : Nat) (bs : List Byte) (h_s : Kept s0 s) :
    Kept s0 (fwWrite s a bs) := by
  unfold fwWrite; simp (maxDischargeDepth := 40) +contextual [*]

@[simp] theorem kept_fwWriteAs {s0 : State} (s : State) (w : Sender) (a : Nat) (bs : List Byte) (h_s : Kept s0 s) :
    Kept s0 (fwWriteAs s w a bs) := by
  unfold fwWriteAs; simp (maxDischargeDepth := 40) +contextual [*]

@[simp] theorem kept_renamePage {s0 : State} (s : State) (a b : Nat) (h_s : Kept s0 s) :
    Kept s0 (renamePage s a b) := by
  unfold renamePage; simp (maxDischargeDepth := 40) +contextual [*]

@[simp] theorem kept_freeSpill {s0 : State} (s : State) (table slot : Nat) (h_s : Kept s0 s) :
    Kept s0 (freeSpill s table slot) := by
  unfold freeSpill; simp (maxDischargeDepth := 40) +contextual [*]

@[simp] theorem kept_setBucket {s0 : State} (s : State) (bucket : Nat) (head : Option Nat) (h_s : Kept s0 s) :
    Kept s0 (setBucket s bucket head) := by
  unfold setBucket; simp (maxDischargeDepth := 40) +contextual [*]

@[simp] theorem kept_leaveTree {s0 : State} (s : State) (p : Nat) (h_s : Kept s0 s) :
    Kept s0 (leaveTree s p) := by
  unfold leaveTree
  dsimp only
  repeat' (first
    | intro _
    | with_reducible assumption
    | (with_reducible refine kept_ite _ _ _ ?_ ?_)
    | (with_reducible refine kept_ite_fst _ _ _ ?_ ?_)
    | (with_reducible refine kept_ite_snd _ _ _ ?_ ?_)
    | split
    | (simp (maxDischargeDepth := 40) +contextual [*]; done))

@[simp] theorem kept_freePage {s0 : State} (s : State) (p : Nat) (h_s : Kept s0 s) :
    Kept s0 (freePage s p) := by
  unfold freePage; dsimp only; (repeat' split) <;> simp (maxDischargeDepth := 40) +contextual [*]

@[simp] theorem kept_dropPage {s0 : State} (s : State) (p : Nat) (h_s : Kept s0 s) :
    Kept s0 (dropPage s p) := by
  unfold dropPage; simp (maxDischargeDepth := 40) +contextual [*]

@[simp] theorem kept_dropSessionPages {s0 : State} (s : State) (slot : Nat) (h_s : Kept s0 s) :
    Kept s0 (dropSessionPages s slot) := by
  unfold dropSessionPages; simp (maxDischargeDepth := 40) +contextual [*]

@[simp] theorem kept_reclaim {s0 : State} (s : State) (t chan : Nat) (h_s : Kept s0 s) :
    KeptOpt s0 (reclaim s t chan) := by
  unfold reclaim; simp (maxDischargeDepth := 40) +contextual [*]

@[simp] theorem kept_allocPage {s0 : State} (s : State) (t : Nat) (prev : Option Nat) (k : Nat) (h_s : Kept s0 s) :
    Kept s0 (allocPage s t prev k).1 := by
  unfold allocPage
  dsimp only
  repeat' (first
    | intro _
    | with_reducible assumption
    | (with_reducible refine kept_ite _ _ _ ?_ ?_)
    | (with_reducible refine kept_ite_fst _ _ _ ?_ ?_)
    | (with_reducible refine kept_ite_snd _ _ _ ?_ ?_)
    | (split <;> (try (rename_i hq; replace hq := KeptOpt.of_eq (s0 := s0) hq (by clear hq; simp (maxDischargeDepth := 40) +contextual [*]))))
    | (simp (maxDischargeDepth := 40) +contextual [*]; done))

@[simp] theorem kept_writeHeader {s0 : State} (s : State) (p : Nat) (key parent : W64) (first table origin : Nat)
    (tokens : List W32) (h_s : Kept s0 s) :
    Kept s0 (writeHeader s p key parent first table origin tokens) := by
  unfold writeHeader; simp (maxDischargeDepth := 40) +contextual [*]

@[simp] theorem kept_headerWords {s0 : State} (b : State × List (Byte × Bool)) (h_b : Kept s0 (b).1) :
    Kept s0 (headerWords b).1 := by
  unfold headerWords; simp (maxDischargeDepth := 40) +contextual [*]

@[simp] theorem kept_headerFirst {s0 : State} (a : State × List (Byte × Bool)) (second : Nat) (h_a : Kept s0 (a).1) :
    Kept s0 (headerFirst a second).1 := by
  unfold headerFirst
  split
  · exact h_a
  · exact kept_headerWords (h_b := kept_fwRead (h_s := h_a) ..) ..

@[simp] theorem kept_headerTokens {s0 : State} (s : State) (p : Nat) (h_s : Kept s0 s) :
    Kept s0 (headerTokens s p).1 := by
  unfold headerTokens
  exact kept_headerFirst (h_a := kept_fwRead (h_s := h_s) ..) ..

@[simp] theorem kept_nodeTokens {s0 : State} (s : State) (p : Nat) (h_s : Kept s0 s) :
    Kept s0 (nodeTokens s p).1 := by
  unfold nodeTokens; (repeat' split) <;> simp (maxDischargeDepth := 40) +contextual [*]

@[simp] theorem kept_addNode {s0 : State} (s : State) (p : Nat) (parent : Option Nat) (refs : Nat) (h_s : Kept s0 s) :
    Kept s0 (addNode s p parent refs) := by
  unfold addNode; simp (maxDischargeDepth := 40) +contextual [*]

@[simp] theorem kept_logTreeFull {s0 : State} (s : State) (t : Nat) (h_s : Kept s0 s) :
    Kept s0 (logTreeFull s t) := by
  unfold logTreeFull; simp (maxDischargeDepth := 40) +contextual [*]

@[simp] theorem kept_roomNode {s0 : State} (s : State) (p : Nat) (parent : Option Nat) (refs : Nat) (h_s : Kept s0 s) :
    Kept s0 (roomNode s p parent refs) := by
  unfold roomNode
  repeat' (first
    | intro _
    | with_reducible assumption
    | (with_reducible refine kept_ite _ _ _ ?_ ?_)
    | split
    | (simp (maxDischargeDepth := 40) +contextual [*]; done)
    | dsimp only)

@[simp] theorem kept_startRebuild {s0 : State} (s : State) (cause : Nat) (tables : Nat → Bool) (h_s : Kept s0 s) :
    Kept s0 (startRebuild s cause tables) := by
  unfold startRebuild; simp (maxDischargeDepth := 40) +contextual [*]

@[simp] theorem kept_badLines {s0 : State} (s : State) (lines : List Nat) (h_s : Kept s0 s) :
    Kept s0 (badLines s lines).1 := by
  unfold badLines; simp (maxDischargeDepth := 40) +contextual [*]

@[simp] theorem kept_zeroLines {s0 : State} (s : State) (lines : List Nat) (h_s : Kept s0 s) :
    Kept s0 (zeroLines s lines) := by
  unfold zeroLines; simp (maxDischargeDepth := 40) +contextual [*]

@[simp] theorem kept_openTree {s0 : State} (s : State) (key : W64) (h_s : Kept s0 s) :
    Kept s0 (openTree s key).1 := by
  unfold openTree; simp (maxDischargeDepth := 40) +contextual [*]

@[simp] theorem kept_enterTree {s0 : State} (s : State) (p : Nat) (prev : Option Nat) (refs : Nat) (h_s : Kept s0 s) :
    Kept s0 (enterTree s p prev refs) := by
  unfold enterTree; simp (maxDischargeDepth := 40) +contextual [*]

@[simp] theorem kept_pageFull {s0 : State} (s : State) (p : Nat) (prev : Option Nat) (refs : Nat) (h_s : Kept s0 s) :
    Kept s0 (pageFull s p prev refs) := by
  unfold pageFull
  dsimp only
  repeat' (first
    | intro _
    | with_reducible assumption
    | split
    | (simp (maxDischargeDepth := 40) +contextual [*]; done))

@[simp] theorem kept_commitToken {s0 : State} (s : State) (pages : List Nat) (pos : Nat) (decode : Bool) (refs : Nat)
    (tok : W32) (h_s : Kept s0 s) :
    Kept s0 (commitToken s pages pos decode refs tok) := by
  unfold commitToken
  dsimp only
  repeat' (first
    | intro _
    | with_reducible assumption
    | (with_reducible refine kept_ite _ _ _ ?_ ?_)
    | (with_reducible refine kept_ite_fst _ _ _ ?_ ?_)
    | (with_reducible refine kept_ite_snd _ _ _ ?_ ?_)
    | split
    | (simp (maxDischargeDepth := 40) +contextual [*]; done))

@[simp] theorem kept_commitTokens {s0 : State} (s : State) (pages : List Nat) (pos : Nat) (decode : Bool) (refs : Nat)
    (y0 : List W32) (h_s : Kept s0 s) :
    Kept s0 (commitTokens s pages pos decode refs y0) := by
  induction y0 generalizing s pages pos decode refs with
  | nil => simp [commitTokens, *]
  | cons a r ih =>
    unfold commitTokens; (repeat' split) <;> simp (maxDischargeDepth := 40) +contextual [*]

@[simp] theorem kept_matchPrefix {s0 : State} (s : State) (t : Nat) (prev : Option Nat) (y0 : Nat) (y1 : List W32)
    (h_s : Kept s0 s) :
    Kept s0 (matchPrefix s t prev y0 y1).1 := by
  induction y0 generalizing s t prev y1 with
  | zero => simp [matchPrefix, *]
  | succ a ih =>
    unfold matchPrefix
    dsimp only
    (repeat' split) <;> (first | with_reducible assumption | (simp (maxDischargeDepth := 40) +contextual [*]; done) | (split <;> simp (maxDischargeDepth := 40) +contextual [*]))

@[simp] theorem kept_readSession {s0 : State} (s : State) (slot : Nat) (h_s : Kept s0 s) :
    Kept s0 (readSession s slot).1 := by
  unfold readSession; simp (maxDischargeDepth := 40) +contextual [*]

@[simp] theorem kept_retireSession {s0 : State} (s : State) (slot : Nat) (h_s : Kept s0 s) :
    Kept s0 (retireSession s slot) := by
  unfold retireSession; simp (maxDischargeDepth := 40) +contextual [*]

@[simp] theorem kept_giveTokens {s0 : State} (s : State) (slot : Nat) (toks : List W32) (h_s : Kept s0 s) :
    Kept s0 (giveTokens s slot toks) := by
  unfold giveTokens; simp (maxDischargeDepth := 40) +contextual [*]

end Sys2Proof.Machine
end

