-- ==== Sys2Proof/Laws/Kept/Channels.lean ====
section
/-! SUPPORT. The operations of Channels keep the queue, the canonical form of the array and the fuses that are set. -/

namespace Sys2Proof.Machine

@[simp] theorem kept_hostCharged {s0 : State} (s : State) (table n : Nat) (m : HostMsg) (h_s : Kept s0 s) :
    Kept s0 (hostCharged s table n m) := by
  unfold hostCharged; simp (maxDischargeDepth := 40) +contextual [*]

@[simp] theorem kept_writeCompletion {s0 : State} (s : State) (n : Nat) (e : Completion) (h_s : Kept s0 s) :
    Kept s0 (writeCompletion s n e) := by
  unfold writeCompletion; simp (maxDischargeDepth := 40) +contextual [*]

@[simp] theorem kept_writeBacklog {s0 : State} (s : State) (n : Nat) (y0 : List Completion) (h_s : Kept s0 s) :
    Kept s0 (writeBacklog s n y0) := by
  induction y0 generalizing s n with
  | nil => simp [writeBacklog, *]
  | cons a r ih =>
    unfold writeBacklog; (repeat' split) <;> simp (maxDischargeDepth := 40) +contextual [*]

@[simp] theorem kept_modTally {s0 : State} (s : State) (t : Nat) (f : TableTally → TableTally) (h_s : Kept s0 s) :
    Kept s0 (modTally s t f) := by
  unfold modTally; simp (maxDischargeDepth := 40) +contextual [*]

@[simp] theorem kept_queueEntry {s0 : State} (s : State) (n : Nat) (e : Completion) (h_s : Kept s0 s) :
    Kept s0 (queueEntry s n e) := by
  unfold queueEntry; simp (maxDischargeDepth := 40) +contextual [*]

@[simp] theorem kept_finalEntry {s0 : State} (s : State) (n : Nat) (tag : W32) (status : Nat) (pos : W32) (tokens : List W32)
    (h_s : Kept s0 s) :
    Kept s0 (finalEntry s n tag status pos tokens) := by
  unfold finalEntry; simp (maxDischargeDepth := 40) +contextual [*]

@[simp] theorem kept_sendMsixBehind {s0 : State} (s : State) (table v : Nat) (h_s : Kept s0 s) :
    Kept s0 (sendMsixBehind s table v) := by
  unfold sendMsixBehind; simp (maxDischargeDepth := 40) +contextual [*]

@[simp] theorem kept_notifyChannels {s0 : State} (s : State) (t : Nat) (h_s : Kept s0 s) :
    Kept s0 (notifyChannels s t) := by
  unfold notifyChannels; simp (maxDischargeDepth := 40) +contextual [*]

@[simp] theorem kept_endRequest {s0 : State} (s : State) (slot status : Nat) (h_s : Kept s0 s) :
    Kept s0 (endRequest s slot status) := by
  unfold endRequest
  dsimp only
  repeat' (first
    | intro _
    | with_reducible assumption
    | (with_reducible refine kept_ite _ _ _ ?_ ?_)
    | (with_reducible refine kept_ite_fst _ _ _ ?_ ?_)
    | (with_reducible refine kept_ite_snd _ _ _ ?_ ?_)
    | split
    | (simp (maxDischargeDepth := 40) +contextual [*]; done))

@[simp] theorem kept_releaseWatch {s0 : State} (s : State) (n : Nat) (h_s : Kept s0 s) :
    Kept s0 (releaseWatch s n) := by
  unfold releaseWatch; simp (maxDischargeDepth := 40) +contextual [*]

@[simp] theorem kept_freeChannel {s0 : State} (s : State) (n : Nat) (h_s : Kept s0 s) :
    Kept s0 (freeChannel s n) := by
  unfold freeChannel; simp (maxDischargeDepth := 40) +contextual [*]

@[simp] theorem kept_finishDisable {s0 : State} (s : State) (t : Nat) (h_s : Kept s0 s) :
    Kept s0 (finishDisable s t) := by
  unfold finishDisable; simp (maxDischargeDepth := 40) +contextual [*]

@[simp] theorem kept_checkClosing {s0 : State} (s : State) (n : Nat) (h_s : Kept s0 s) :
    Kept s0 (checkClosing s n) := by
  unfold checkClosing; simp (maxDischargeDepth := 40) +contextual [*]

@[simp] theorem kept_boundary {s0 : State} (s : State) (t : Nat) (h_s : Kept s0 s) :
    Kept s0 (boundary s t) := by
  unfold boundary; simp (maxDischargeDepth := 40) +contextual [*]

end Sys2Proof.Machine
end

