-- ==== Sys2Proof/Laws/Kept/Spill.lean ====
section
/-! SUPPORT. The operations of Spill keep the queue, the canonical form of the array and the fuses that are set. -/

namespace Sys2Proof.Machine

@[simp] theorem kept_uioIssue {s0 : State} (s : State) (table : Nat) (u : UioUse) (n : Nat) (m : HostMsg) (h_s : Kept s0 s) :
    Kept s0 (uioIssue s table u n m) := by
  unfold uioIssue; simp (maxDischargeDepth := 40) +contextual [*]

@[simp] theorem kept_issuePiece {s0 : State} (s : State) (t p n a off : Nat) (h_s : Kept s0 s) :
    Kept s0 (issuePiece s t p n a off) := by
  unfold issuePiece; simp (maxDischargeDepth := 40) +contextual [*]

@[simp] theorem kept_issueSpill {s0 : State} (s : State) (t p n a : Nat) (h_s : Kept s0 s) :
    Kept s0 (issueSpill s t p n a) := by
  unfold issueSpill; simp (maxDischargeDepth := 40) +contextual [*]

@[simp] theorem kept_issuePrefetch {s0 : State} (s : State) (t slot p n a : Nat) (h_s : Kept s0 s) :
    Kept s0 (issuePrefetch s t slot p n a) := by
  unfold issuePrefetch; simp (maxDischargeDepth := 40) +contextual [*]

@[simp] theorem kept_checkPaused {s0 : State} (s : State) (slot : Nat) (h_s : Kept s0 s) :
    Kept s0 (checkPaused s slot) := by
  unfold checkPaused; simp (maxDischargeDepth := 40) +contextual [*]

@[simp] theorem kept_failSpill {s0 : State} (s : State) (p n member : Nat) (h_s : Kept s0 s) :
    Kept s0 (failSpill s p n member) := by
  unfold failSpill; simp (maxDischargeDepth := 40) +contextual [*]

@[simp] theorem kept_spillReply {s0 : State} (s : State) (src p n : Nat) (ok : Bool) (h_s : Kept s0 s) :
    Kept s0 (spillReply s src p n ok) := by
  unfold spillReply; simp (maxDischargeDepth := 40) +contextual [*]

@[simp] theorem kept_reportSpill {s0 : State} (s : State) (t p n : Nat) (ok : Bool) (h_s : Kept s0 s) :
    Kept s0 (reportSpill s t p n ok) := by
  unfold reportSpill; (repeat' split) <;> simp (maxDischargeDepth := 40) +contextual [*]

@[simp] theorem kept_localSpill {s0 : State} (s : State) (t p n : Nat) (h_s : Kept s0 s) :
    Kept s0 (localSpill s t p n) := by
  unfold localSpill; (repeat' split) <;> simp (maxDischargeDepth := 40) +contextual [*]

@[simp] theorem kept_spillPage {s0 : State} (s : State) (t p : Nat) (h_s : Kept s0 s) :
    Kept s0 (spillPage s t p) := by
  unfold spillPage; (repeat' split) <;> simp (maxDischargeDepth := 40) +contextual [*]

@[simp] theorem kept_abandonSpill {s0 : State} (s : State) (p : Nat) (h_s : Kept s0 s) :
    Kept s0 (abandonSpill s p) := by
  unfold abandonSpill
  dsimp only
  repeat' (first
    | intro _
    | with_reducible assumption
    | split
    | (simp (maxDischargeDepth := 40) +contextual [*]; done))

@[simp] theorem kept_spillShort {s0 : State} (s : State) (t : Nat) (h_s : Kept s0 s) :
    Kept s0 (spillShort s t) := by
  unfold spillShort
  dsimp only
  repeat' (first
    | intro _
    | with_reducible assumption
    | (with_reducible refine kept_ite _ _ _ ?_ ?_)
    | (with_reducible refine kept_ite_fst _ _ _ ?_ ?_)
    | (with_reducible refine kept_ite_snd _ _ _ ?_ ?_)
    | split
    | (with_reducible refine kept_foldl _ _ _ ?_ ?_)
    | (with_reducible refine kept_foldl_snd _ _ _ ?_ ?_)
    | (with_reducible refine kept_foldl_fst _ _ _ ?_ ?_)
    | (simp (maxDischargeDepth := 40) +contextual [*]; done))

@[simp] theorem kept_spillPausing {s0 : State} (s : State) (t : Nat) (h_s : Kept s0 s) :
    Kept s0 (spillPausing s t) := by
  unfold spillPausing; simp (maxDischargeDepth := 40) +contextual [*]

@[simp] theorem kept_killUio {s0 : State} (s : State) (p : UioUse → Bool) (window : Nat) (addr : W64) (h_s : Kept s0 s) :
    Kept s0 (killUio s p window addr) := by
  unfold killUio; simp (maxDischargeDepth := 40) +contextual [*]

end Sys2Proof.Machine
end

