-- ==== Sys2Proof/Laws/Kept/Rounds.lean ====
section
/-! SUPPORT. The operations of Rounds keep the queue, the canonical form of the array and the fuses that are set. -/

namespace Sys2Proof.Machine

/-- A fold over a round being filled keeps it. -/
@[simp] theorem kept_foldl_fill {α : Type} {s0 : State} (g : Fill → α → Fill) (l : List α) (w : Fill)
    (h : Kept s0 w.s) (hg : ∀ w a, Kept s0 w.s → Kept s0 (g w a).s) : Kept s0 (l.foldl g w).s := by
  induction l generalizing w with
  | nil => exact h
  | cons a r ih => exact ih (g w a) (hg w a h)

@[simp] theorem kept_ite_fill {s0 : State} (c : Prop) [Decidable c] (a b : Fill) (ha : Kept s0 a.s) (hb : Kept s0 b.s) :
    Kept s0 (if c then a else b).s := by split <;> assumption

@[simp] theorem kept_writeArea {s0 : State} (s : State) (t : Nat) (h_s : Kept s0 s) :
    Kept s0 (writeArea s t) := by
  unfold writeArea
  repeat' (first
    | intro _
    | with_reducible assumption
    | (extract_lets +onlyGivenNames x; clear_value (hxe : x = _); (try (have hx : Kept s0 x := by (rw [hxe]; (repeat' (first | intro _ | with_reducible assumption | (simp (maxDischargeDepth := 40) +contextual [*]; done) | (split <;> (try (rename_i hq; replace hq := KeptOpt.of_eq (s0 := s0) hq (by clear hq; simp (maxDischargeDepth := 40) +contextual [*])))) | (with_reducible refine kept_foldl _ _ _ ?_ ?_) | (with_reducible refine kept_foldl_snd _ _ _ ?_ ?_) | (with_reducible refine kept_foldl_fst _ _ _ ?_ ?_) | (with_reducible refine kept_foldl_fill _ _ _ ?_ ?_)))))); (try (have hx : Kept s0 x.2 := by (rw [hxe]; (repeat' (first | intro _ | with_reducible assumption | (simp (maxDischargeDepth := 40) +contextual [*]; done) | (split <;> (try (rename_i hq; replace hq := KeptOpt.of_eq (s0 := s0) hq (by clear hq; simp (maxDischargeDepth := 40) +contextual [*])))) | (with_reducible refine kept_foldl _ _ _ ?_ ?_) | (with_reducible refine kept_foldl_snd _ _ _ ?_ ?_) | (with_reducible refine kept_foldl_fst _ _ _ ?_ ?_) | (with_reducible refine kept_foldl_fill _ _ _ ?_ ?_)))))); (try (have hx : Kept s0 x.1 := by (rw [hxe]; (repeat' (first | intro _ | with_reducible assumption | (simp (maxDischargeDepth := 40) +contextual [*]; done) | (split <;> (try (rename_i hq; replace hq := KeptOpt.of_eq (s0 := s0) hq (by clear hq; simp (maxDischargeDepth := 40) +contextual [*])))) | (with_reducible refine kept_foldl _ _ _ ?_ ?_) | (with_reducible refine kept_foldl_snd _ _ _ ?_ ?_) | (with_reducible refine kept_foldl_fst _ _ _ ?_ ?_) | (with_reducible refine kept_foldl_fill _ _ _ ?_ ?_)))))); (try (have hx : Kept s0 x.s := by (rw [hxe]; (repeat' (first | intro _ | with_reducible assumption | (simp (maxDischargeDepth := 40) +contextual [*]; done) | (split <;> (try (rename_i hq; replace hq := KeptOpt.of_eq (s0 := s0) hq (by clear hq; simp (maxDischargeDepth := 40) +contextual [*])))) | (with_reducible refine kept_foldl _ _ _ ?_ ?_) | (with_reducible refine kept_foldl_snd _ _ _ ?_ ?_) | (with_reducible refine kept_foldl_fst _ _ _ ?_ ?_) | (with_reducible refine kept_foldl_fill _ _ _ ?_ ?_)))))); (try (have hx : Kept s0 x.1.s := by (rw [hxe]; (repeat' (first | intro _ | with_reducible assumption | (simp (maxDischargeDepth := 40) +contextual [*]; done) | (split <;> (try (rename_i hq; replace hq := KeptOpt.of_eq (s0 := s0) hq (by clear hq; simp (maxDischargeDepth := 40) +contextual [*])))) | (with_reducible refine kept_foldl _ _ _ ?_ ?_) | (with_reducible refine kept_foldl_snd _ _ _ ?_ ?_) | (with_reducible refine kept_foldl_fst _ _ _ ?_ ?_) | (with_reducible refine kept_foldl_fill _ _ _ ?_ ?_)))))); (try (have hx : KeptOpt s0 x := by (rw [hxe]; (repeat' (first | intro _ | with_reducible assumption | (simp (maxDischargeDepth := 40) +contextual [*]; done) | (split <;> (try (rename_i hq; replace hq := KeptOpt.of_eq (s0 := s0) hq (by clear hq; simp (maxDischargeDepth := 40) +contextual [*])))) | (with_reducible refine kept_foldl _ _ _ ?_ ?_) | (with_reducible refine kept_foldl_snd _ _ _ ?_ ?_) | (with_reducible refine kept_foldl_fst _ _ _ ?_ ?_) | (with_reducible refine kept_foldl_fill _ _ _ ?_ ?_)))))); (try (have hx : ∀ s, Kept s0 s → Kept s0 (x s) := by (intro s h; rw [hxe]; (repeat' (first | intro _ | with_reducible assumption | (simp (maxDischargeDepth := 40) +contextual [*]; done) | (split <;> (try (rename_i hq; replace hq := KeptOpt.of_eq (s0 := s0) hq (by clear hq; simp (maxDischargeDepth := 40) +contextual [*])))) | (with_reducible refine kept_foldl _ _ _ ?_ ?_) | (with_reducible refine kept_foldl_snd _ _ _ ?_ ?_) | (with_reducible refine kept_foldl_fst _ _ _ ?_ ?_) | (with_reducible refine kept_foldl_fill _ _ _ ?_ ?_)))))); (try (have hx : ∀ s a, Kept s0 s → Kept s0 (x s a) := by (intro s a h; rw [hxe]; (repeat' (first | intro _ | with_reducible assumption | (simp (maxDischargeDepth := 40) +contextual [*]; done) | (split <;> (try (rename_i hq; replace hq := KeptOpt.of_eq (s0 := s0) hq (by clear hq; simp (maxDischargeDepth := 40) +contextual [*])))) | (with_reducible refine kept_foldl _ _ _ ?_ ?_) | (with_reducible refine kept_foldl_snd _ _ _ ?_ ?_) | (with_reducible refine kept_foldl_fst _ _ _ ?_ ?_) | (with_reducible refine kept_foldl_fill _ _ _ ?_ ?_)))))); (try (have hx : ∀ a s, Kept s0 s → Kept s0 (x a s) := by (intro a s h; rw [hxe]; (repeat' (first | intro _ | with_reducible assumption | (simp (maxDischargeDepth := 40) +contextual [*]; done) | (split <;> (try (rename_i hq; replace hq := KeptOpt.of_eq (s0 := s0) hq (by clear hq; simp (maxDischargeDepth := 40) +contextual [*])))) | (with_reducible refine kept_foldl _ _ _ ?_ ?_) | (with_reducible refine kept_foldl_snd _ _ _ ?_ ?_) | (with_reducible refine kept_foldl_fst _ _ _ ?_ ?_) | (with_reducible refine kept_foldl_fill _ _ _ ?_ ?_)))))); (try (have hx : ∀ a, Kept s0 (x a) := by (intro a; rw [hxe]; (repeat' (first | intro _ | with_reducible assumption | (simp (maxDischargeDepth := 40) +contextual [*]; done) | (split <;> (try (rename_i hq; replace hq := KeptOpt.of_eq (s0 := s0) hq (by clear hq; simp (maxDischargeDepth := 40) +contextual [*])))) | (with_reducible refine kept_foldl _ _ _ ?_ ?_) | (with_reducible refine kept_foldl_snd _ _ _ ?_ ?_) | (with_reducible refine kept_foldl_fst _ _ _ ?_ ?_) | (with_reducible refine kept_foldl_fill _ _ _ ?_ ?_)))))); (try (have hx : ∀ s, Kept s0 s → KeptOut s0 (x s) := by (intro s h; rw [hxe]; (repeat' (first | intro _ | with_reducible assumption | (simp (maxDischargeDepth := 40) +contextual [*]; done) | (split <;> (try (rename_i hq; replace hq := KeptOpt.of_eq (s0 := s0) hq (by clear hq; simp (maxDischargeDepth := 40) +contextual [*])))) | (with_reducible refine kept_foldl _ _ _ ?_ ?_) | (with_reducible refine kept_foldl_snd _ _ _ ?_ ?_) | (with_reducible refine kept_foldl_fst _ _ _ ?_ ?_) | (with_reducible refine kept_foldl_fill _ _ _ ?_ ?_)))))); (try (have hx : ∀ s, Kept s0 s → KeptEnd s0 (x s) := by (intro s h; rw [hxe]; (repeat' (first | intro _ | with_reducible assumption | (simp (maxDischargeDepth := 40) +contextual [*]; done) | (split <;> (try (rename_i hq; replace hq := KeptOpt.of_eq (s0 := s0) hq (by clear hq; simp (maxDischargeDepth := 40) +contextual [*])))) | (with_reducible refine kept_foldl _ _ _ ?_ ?_) | (with_reducible refine kept_foldl_snd _ _ _ ?_ ?_) | (with_reducible refine kept_foldl_fst _ _ _ ?_ ?_) | (with_reducible refine kept_foldl_fill _ _ _ ?_ ?_)))))); clear hxe)
    | (split <;> (try (rename_i hq; replace hq := KeptOpt.of_eq (s0 := s0) hq (by clear hq; simp (maxDischargeDepth := 40) +contextual [*]))))
    | (with_reducible refine kept_foldl _ _ _ ?_ ?_)
    | (with_reducible refine kept_foldl_snd _ _ _ ?_ ?_)
    | (with_reducible refine kept_foldl_fst _ _ _ ?_ ?_)
    | (with_reducible refine kept_foldl_fill _ _ _ ?_ ?_)
    | (simp (maxDischargeDepth := 40) +contextual [*]; done))

@[simp] theorem kept_slotStatus {s0 : State} (s : State) (t slot : Nat) (h_s : Kept s0 s) :
    Kept s0 (slotStatus s t slot).1 := by
  unfold slotStatus; (repeat' split) <;> simp (maxDischargeDepth := 40) +contextual [*]

@[simp] theorem kept_slotWrite {s0 : State} (s : State) (t slot off v : Nat) (h_s : Kept s0 s) :
    Kept s0 (slotWrite s t slot off v) := by
  unfold slotWrite; (repeat' split) <;> simp (maxDischargeDepth := 40) +contextual [*]

@[simp] theorem kept_outWords {s0 : State} (s : State) (t slot n : Nat) (h_s : Kept s0 s) :
    Kept s0 (outWords s t slot n).1 := by
  unfold outWords
  dsimp only
  repeat' (first
    | intro _
    | with_reducible assumption
    | split
    | (simp (maxDischargeDepth := 40) +contextual [*]; done))

@[simp] theorem kept_slotOut {s0 : State} (s : State) (t slot : Nat) (h_s : Kept s0 s) :
    Kept s0 (slotOut s t slot).1 := by
  unfold slotOut; (repeat' split) <;> simp (maxDischargeDepth := 40) +contextual [*]

@[simp] theorem kept_statuses {s0 : State} (s : State) (t : Nat) (y0 : List RoundSlot) (h_s : Kept s0 s) :
    Kept s0 (statuses s t y0).1 := by
  induction y0 generalizing s t with
  | nil => simp [statuses, *]
  | cons a r ih =>
    unfold statuses; (repeat' split) <;> simp (maxDischargeDepth := 40) +contextual [*]

@[simp] theorem kept_foldSlot {s0 : State} (s : State) (t : Nat) (sl : RoundSlot) (h_s : Kept s0 s) :
    Kept s0 (foldSlot s t sl) := by
  unfold foldSlot; simp (maxDischargeDepth := 40) +contextual [*]

@[simp] theorem kept_foldSlots {s0 : State} (s : State) (t : Nat) (p : RoundSlot → Bool) (h_s : Kept s0 s) :
    Kept s0 (foldSlots s t p) := by
  unfold foldSlots; simp (maxDischargeDepth := 40) +contextual [*]

@[simp] theorem kept_foldRound {s0 : State} (s : State) (t : Nat) (h_s : Kept s0 s) :
    Kept s0 (foldRound s t) := by
  unfold foldRound; simp (maxDischargeDepth := 40) +contextual [*]

@[simp] theorem kept_cleanPage {s0 : State} (s : State) (p : Nat) (h_s : Kept s0 s) :
    Kept s0 (cleanPage s p) := by
  unfold cleanPage; simp (maxDischargeDepth := 40) +contextual [*]

@[simp] theorem kept_cleanPages {s0 : State} (s : State) (t : Nat) (h_s : Kept s0 s) :
    Kept s0 (cleanPages s t) := by
  unfold cleanPages; simp (maxDischargeDepth := 40) +contextual [*]

@[simp] theorem kept_holdReport {s0 : State} (s : State) (t src : Nat) (m : ServMsg) (h_s : Kept s0 s) :
    Kept s0 (holdReport s t src m) := by
  unfold holdReport; simp (maxDischargeDepth := 40) +contextual [*]

@[simp] theorem kept_tryReport {s0 : State} (s : State) (t : Nat) (h_s : Kept s0 s) :
    Kept s0 (tryReport s t) := by
  unfold tryReport
  dsimp only
  repeat' (first
    | intro _
    | with_reducible assumption
    | (with_reducible refine kept_ite_fill _ _ _ ?_ ?_)
    | (with_reducible refine kept_ite _ _ _ ?_ ?_)
    | (with_reducible refine kept_ite_fst _ _ _ ?_ ?_)
    | (with_reducible refine kept_ite_snd _ _ _ ?_ ?_)
    | split
    | (with_reducible refine kept_foldl _ _ _ ?_ ?_)
    | (with_reducible refine kept_foldl_snd _ _ _ ?_ ?_)
    | (with_reducible refine kept_foldl_fst _ _ _ ?_ ?_)
    | (with_reducible refine kept_foldl_fill _ _ _ ?_ ?_)
    | (simp (maxDischargeDepth := 40) +contextual [*]; done))

@[simp] theorem kept_riderCommit {s0 : State} (s : State) (i : Nat) (sl : RoundSlot) (h_s : Kept s0 s) :
    Kept s0 (riderCommit s i sl) := by
  unfold riderCommit; simp (maxDischargeDepth := 40) +contextual [*]

@[simp] theorem kept_riderFold {s0 : State} (s : State) (i t : Nat) (h_s : Kept s0 s) :
    Kept s0 (riderFold s i t) := by
  unfold riderFold; simp (maxDischargeDepth := 40) +contextual [*]

@[simp] theorem kept_modPin {s0 : State} (s : State) (n : Nat) (f : Pin → Pin) (h_s : Kept s0 s) :
    Kept s0 (modPin s n f) := by
  unfold modPin; simp (maxDischargeDepth := 40) +contextual [*]

@[simp] theorem kept_pinCommit {s0 : State} (s : State) (n : Nat) (sl : RoundSlot) (h_s : Kept s0 s) :
    Kept s0 (pinCommit s n sl) := by
  unfold pinCommit; simp (maxDischargeDepth := 40) +contextual [*]

@[simp] theorem kept_modJob {s0 : State} (s : State) (h : W64) (f : PrefillJob → PrefillJob) (h_s : Kept s0 s) :
    Kept s0 (modJob s h f) := by
  unfold modJob; simp (maxDischargeDepth := 40) +contextual [*]

@[simp] theorem kept_shipChunk {s0 : State} (s : State) (j : PrefillJob) (own page off dest : Nat) (h_s : Kept s0 s) :
    Kept s0 (shipChunk s j own page off dest).1 := by
  unfold shipChunk; simp (maxDischargeDepth := 40) +contextual [*]

/-- A fold of shipChunk over pieces keeps the first part. -/
theorem kept_foldl_ship {s0 : State} (g : State × PrefillJob → Nat × Nat × Nat × Nat → State × PrefillJob)
    (hg : ∀ p w, g p w = shipChunk p.1 p.2 w.1 w.2.1 w.2.2.1 w.2.2.2) (l : List (Nat × Nat × Nat × Nat))
    (p : State × PrefillJob) (h : Kept s0 p.1) : Kept s0 (l.foldl g p).1 :=
  kept_foldl_fst g l p h fun a w h => hg a w ▸ kept_shipChunk a.1 a.2 w.1 w.2.1 w.2.2.1 w.2.2.2 h

@[simp] theorem kept_shipPages {s0 : State} (s : State) (j : PrefillJob) (h_s : Kept s0 s) :
    Kept s0 (shipPages s j).1 :=
  kept_foldl_ship _ (fun _ _ => rfl) _ _ h_s

@[simp] theorem kept_finishJob {s0 : State} (s : State) (j : PrefillJob) (ok : Bool) (h_s : Kept s0 s) :
    Kept s0 (finishJob s j ok) := by
  unfold finishJob; simp (maxDischargeDepth := 40) +contextual [*]

@[simp] theorem kept_jobResult {s0 : State} (s : State) (h : W64) (src : Nat) (ok : Bool) (h_s : Kept s0 s) :
    Kept s0 (jobResult s h src ok) := by
  unfold jobResult
  dsimp only
  repeat' (first
    | intro _
    | with_reducible assumption
    | (with_reducible refine kept_ite_fill _ _ _ ?_ ?_)
    | (with_reducible refine kept_ite _ _ _ ?_ ?_)
    | (with_reducible refine kept_ite_fst _ _ _ ?_ ?_)
    | (with_reducible refine kept_ite_snd _ _ _ ?_ ?_)
    | split
    | (simp (maxDischargeDepth := 40) +contextual [*]; done))

@[simp] theorem kept_partShipped {s0 : State} (s : State) (j : PrefillJob) (h_s : Kept s0 s) :
    Kept s0 (partShipped s j) := by
  unfold partShipped
  repeat' (first
    | intro _
    | with_reducible assumption
    | (with_reducible refine kept_ite_fill _ _ _ ?_ ?_)
    | (with_reducible refine kept_ite _ _ _ ?_ ?_)
    | split
    | (simp (maxDischargeDepth := 40) +contextual [*]; done)
    | dsimp only)

@[simp] theorem kept_shipJob {s0 : State} (s : State) (j : PrefillJob) (h_s : Kept s0 s) :
    Kept s0 (shipJob s j) := by
  unfold shipJob; simp (maxDischargeDepth := 40) +contextual [*]

@[simp] theorem kept_jobCommit {s0 : State} (s : State) (j : PrefillJob) (sl : RoundSlot) (h_s : Kept s0 s) :
    Kept s0 (jobCommit s j sl) := by
  unfold jobCommit; simp (maxDischargeDepth := 40) +contextual [*]

@[simp] theorem kept_shipFailed {s0 : State} (s : State) (i : Nat) (h_s : Kept s0 s) :
    Kept s0 (shipFailed s i) := by
  unfold shipFailed; simp (maxDischargeDepth := 40) +contextual [*]

@[simp] theorem kept_unackedJobs {s0 : State} (s : State) (h_s : Kept s0 s) :
    Kept s0 (unackedJobs s) := by
  unfold unackedJobs; simp (maxDischargeDepth := 40) +contextual [*]

@[simp] theorem kept_prefetchCommit {s0 : State} (s : State) (i : Nat) (sl : RoundSlot) (h_s : Kept s0 s) :
    Kept s0 (prefetchCommit s i sl) := by
  unfold prefetchCommit; (repeat' split) <;> simp (maxDischargeDepth := 40) +contextual [*]

@[simp] theorem kept_prefetchFold {s0 : State} (s : State) (i : Nat) (sl : RoundSlot) (h_s : Kept s0 s) :
    Kept s0 (prefetchFold s i sl) := by
  unfold prefetchFold; (repeat' split) <;> simp (maxDischargeDepth := 40) +contextual [*]

@[simp] theorem kept_recomputeCommit {s0 : State} (s : State) (p : Nat) (h_s : Kept s0 s) :
    Kept s0 (recomputeCommit s p) := by
  unfold recomputeCommit; simp (maxDischargeDepth := 40) +contextual [*]

@[simp] theorem kept_applyVerdict {s0 : State} (s : State) (t : Nat) (sl : RoundSlot) (ok : Bool) (h_s : Kept s0 s) :
    Kept s0 (applyVerdict s t sl ok) := by
  unfold applyVerdict
  dsimp only
  repeat' (first
    | intro _
    | with_reducible assumption
    | (with_reducible refine kept_ite_fill _ _ _ ?_ ?_)
    | (with_reducible refine kept_ite _ _ _ ?_ ?_)
    | (with_reducible refine kept_ite_fst _ _ _ ?_ ?_)
    | (with_reducible refine kept_ite_snd _ _ _ ?_ ?_)
    | split
    | (simp (maxDischargeDepth := 40) +contextual [*]; done))

@[simp] theorem kept_settleRound {s0 : State} (s : State) (t : Nat) (h_s : Kept s0 s) :
    Kept s0 (settleRound s t) := by
  unfold settleRound; simp (maxDischargeDepth := 40) +contextual [*]

@[simp] theorem kept_Fill_put {s0 : State} (f : Fill) (p : RoundPlan) (sl : RoundSlot) (h_f : Kept s0 f.s) :
    Kept s0 (Fill.put f p sl).s := by
  unfold Fill.put; simp (maxDischargeDepth := 40) +contextual [*]

@[simp] theorem kept_freeTokens {s0 : State} (s : State) (y0 : Nat) (h_s : Kept s0 s) :
    Kept s0 (freeTokens s y0).1 := by
  induction y0 generalizing s with
  | zero => simp [freeTokens, *]
  | succ a ih =>
    unfold freeTokens; (repeat' split) <;> simp (maxDischargeDepth := 40) +contextual [*]

@[simp] theorem kept_spillChan {s0 : State} (s : State) (t chan : Nat) (h_s : Kept s0 s) :
    Kept s0 (spillChan s t chan) := by
  unfold spillChan
  repeat' (first
    | intro _
    | with_reducible assumption
    | split
    | (simp (maxDischargeDepth := 40) +contextual [*]; done)
    | dsimp only)

@[simp] theorem kept_growList {s0 : State} (s : State) (t need : Nat) (y0 : Nat) (y1 : List Nat) (h_s : Kept s0 s) :
    Kept s0 (growList s t need y0 y1).1 := by
  induction y0 generalizing s t need y1 with
  | zero => simp [growList, *]
  | succ a ih =>
    unfold growList
    dsimp only
    (repeat' split) <;> (first | with_reducible assumption | (simp (maxDischargeDepth := 40) +contextual [*]; done) | (split <;> simp (maxDischargeDepth := 40) +contextual [*]))

@[simp] theorem kept_growPages {s0 : State} (s : State) (i need : Nat) (h_s : Kept s0 s) :
    Kept s0 (growPages s i need).1 := by
  unfold growPages; (repeat' split) <;> simp (maxDischargeDepth := 40) +contextual [*]

@[simp] theorem kept_touch {s0 : State} (s : State) (pages : List Nat) (h_s : Kept s0 s) :
    Kept s0 (touch s pages) := by
  unfold touch; simp (maxDischargeDepth := 40) +contextual [*]

@[simp] theorem kept_placeSession {s0 : State} (f : Fill) (p : RoundPlan) (i kind count cover : Nat) (toks : List W32)
    (h_f : Kept s0 f.s) :
    Kept s0 (placeSession f p i kind count cover toks).s := by
  unfold placeSession; simp (maxDischargeDepth := 40) +contextual [*]

@[simp] theorem kept_placeDecode {s0 : State} (f : Fill) (p : RoundPlan) (i : Nat) (h_f : Kept s0 f.s) :
    Kept s0 (placeDecode f p i).s := by
  unfold placeDecode; simp (maxDischargeDepth := 40) +contextual [*]

@[simp] theorem kept_placeRider {s0 : State} (f : Fill) (p : RoundPlan) (i : Nat) (h_f : Kept s0 f.s) :
    Kept s0 (placeRider f p i).s := by
  unfold placeRider; simp (maxDischargeDepth := 40) +contextual [*]

@[simp] theorem kept_placeDraft {s0 : State} (f : Fill) (p : RoundPlan) (sl : RoundSlot) (h_f : Kept s0 f.s) :
    Kept s0 (placeDraft f p sl).s := by
  unfold placeDraft; simp (maxDischargeDepth := 40) +contextual [*]

@[simp] theorem kept_placePrefetch {s0 : State} (f : Fill) (p : RoundPlan) (i : Nat) (h_f : Kept s0 f.s) :
    Kept s0 (placePrefetch f p i).s := by
  unfold placePrefetch
  dsimp only
  repeat' (first
    | intro _
    | with_reducible assumption
    | (with_reducible refine kept_ite_fill _ _ _ ?_ ?_)
    | (with_reducible refine kept_ite _ _ _ ?_ ?_)
    | (with_reducible refine kept_ite_fst _ _ _ ?_ ?_)
    | (with_reducible refine kept_ite_snd _ _ _ ?_ ?_)
    | split
    | (with_reducible refine kept_foldl _ _ _ ?_ ?_)
    | (with_reducible refine kept_foldl_snd _ _ _ ?_ ?_)
    | (with_reducible refine kept_foldl_fst _ _ _ ?_ ?_)
    | (with_reducible refine kept_foldl_fill _ _ _ ?_ ?_)
    | (simp (maxDischargeDepth := 40) +contextual [*]; done))

@[simp] theorem kept_dropPin {s0 : State} (s : State) (n : Nat) (h_s : Kept s0 s) :
    Kept s0 (dropPin s n) := by
  unfold dropPin; simp (maxDischargeDepth := 40) +contextual [*]

@[simp] theorem kept_pageLost {s0 : State} (s : State) (p : Nat) (h_s : Kept s0 s) :
    Kept s0 (pageLost s p) := by
  unfold pageLost; simp (maxDischargeDepth := 40) +contextual [*]

@[simp] theorem kept_recomputeTokens {s0 : State} (s : State) (p : Nat) (h_s : Kept s0 s) :
    Kept s0 (recomputeTokens s p).1 := by
  unfold recomputeTokens; simp (maxDischargeDepth := 40) +contextual [*]

@[simp] theorem kept_placeRecompute {s0 : State} (f : Fill) (p : RoundPlan) (pg : Nat) (h_f : Kept s0 f.s) :
    Kept s0 (placeRecompute f p pg).s := by
  unfold placeRecompute
  dsimp only
  repeat' (first
    | intro _
    | with_reducible assumption
    | (with_reducible refine kept_ite_fill _ _ _ ?_ ?_)
    | (with_reducible refine kept_ite _ _ _ ?_ ?_)
    | (with_reducible refine kept_ite_fst _ _ _ ?_ ?_)
    | (with_reducible refine kept_ite_snd _ _ _ ?_ ?_)
    | (split <;> (try (rename_i hq; replace hq := KeptOpt.of_eq (s0 := s0) hq (by clear hq; simp (maxDischargeDepth := 40) +contextual [*]))))
    | (simp (maxDischargeDepth := 40) +contextual [*]; done))

@[simp] theorem kept_putRider {s0 : State} (f : Fill) (p : RoundPlan) (h : W64) (pos : Nat) (pages : List Nat)
    (toks : List W32) (h_f : Kept s0 f.s) :
    Kept s0 (putRider f p h pos pages toks).s := by
  unfold putRider; simp (maxDischargeDepth := 40) +contextual [*]

@[simp] theorem kept_placePin {s0 : State} (f : Fill) (p : RoundPlan) (n : Nat) (h_f : Kept s0 f.s) :
    Kept s0 (placePin f p n).s := by
  unfold placePin; simp (maxDischargeDepth := 40) +contextual [*]

@[simp] theorem kept_placeJob {s0 : State} (f : Fill) (p : RoundPlan) (h : W64) (h_f : Kept s0 f.s) :
    Kept s0 (placeJob f p h).s := by
  unfold placeJob; (repeat' split) <;> simp (maxDischargeDepth := 40) +contextual [*]

@[simp] theorem kept_newFill {s0 : State} (s : State) (t : Nat) (p : RoundPlan) (h_s : Kept s0 s) :
    Kept s0 (newFill s t p).s := by
  unfold newFill; simp (maxDischargeDepth := 40) +contextual [*]

@[simp] theorem kept_fillRecompute {s0 : State} (t : Nat) (p : RoundPlan) (f : Fill) (h_f : Kept s0 f.s) :
    Kept s0 (fillRecompute t p f).s := by
  unfold fillRecompute; simp (maxDischargeDepth := 40) +contextual [*]

@[simp] theorem kept_fillRound {s0 : State} (s : State) (t : Nat) (p : RoundPlan) (h_s : Kept s0 s) :
    Kept s0 (fillRound s t p).s := by
  unfold fillRound; simp (maxDischargeDepth := 40) +contextual [*]

@[simp] theorem kept_startPrefetches {s0 : State} (s : State) (t : Nat) (h_s : Kept s0 s) :
    Kept s0 (startPrefetches s t) := by
  unfold startPrefetches
  repeat' (first
    | intro _
    | with_reducible assumption
    | (with_reducible refine kept_ite_fill _ _ _ ?_ ?_)
    | (with_reducible refine kept_ite _ _ _ ?_ ?_)
    | split
    | (with_reducible refine kept_foldl _ _ _ ?_ ?_)
    | (with_reducible refine kept_foldl_snd _ _ _ ?_ ?_)
    | (with_reducible refine kept_foldl_fst _ _ _ ?_ ?_)
    | (with_reducible refine kept_foldl_fill _ _ _ ?_ ?_)
    | (simp (maxDischargeDepth := 40) +contextual [*]; done)
    | dsimp only)

@[simp] theorem kept_announceRound {s0 : State} (s : State) (t : Nat) (d : Deck) (h_s : Kept s0 s) :
    Kept s0 (announceRound s t d) := by
  unfold announceRound; simp (maxDischargeDepth := 40) +contextual [*]

@[simp] theorem kept_readSessions {s0 : State} (s : State) (t : Nat) (h_s : Kept s0 s) :
    Kept s0 (readSessions s t) := by
  unfold readSessions; simp (maxDischargeDepth := 40) +contextual [*]

@[simp] theorem kept_startRound {s0 : State} (s : State) (t : Nat) (h_s : Kept s0 s) :
    Kept s0 (startRound s t) := by
  unfold startRound
  repeat' (first
    | intro _
    | with_reducible assumption
    | (extract_lets +onlyGivenNames x; clear_value (hxe : x = _); (try (have hx : Kept s0 x := by (rw [hxe]; (repeat' (first | intro _ | with_reducible assumption | (simp (maxDischargeDepth := 40) +contextual [*]; done) | (split <;> (try (rename_i hq; replace hq := KeptOpt.of_eq (s0 := s0) hq (by clear hq; simp (maxDischargeDepth := 40) +contextual [*])))) | (with_reducible refine kept_foldl _ _ _ ?_ ?_) | (with_reducible refine kept_foldl_snd _ _ _ ?_ ?_) | (with_reducible refine kept_foldl_fst _ _ _ ?_ ?_) | (with_reducible refine kept_foldl_fill _ _ _ ?_ ?_)))))); (try (have hx : Kept s0 x.2 := by (rw [hxe]; (repeat' (first | intro _ | with_reducible assumption | (simp (maxDischargeDepth := 40) +contextual [*]; done) | (split <;> (try (rename_i hq; replace hq := KeptOpt.of_eq (s0 := s0) hq (by clear hq; simp (maxDischargeDepth := 40) +contextual [*])))) | (with_reducible refine kept_foldl _ _ _ ?_ ?_) | (with_reducible refine kept_foldl_snd _ _ _ ?_ ?_) | (with_reducible refine kept_foldl_fst _ _ _ ?_ ?_) | (with_reducible refine kept_foldl_fill _ _ _ ?_ ?_)))))); (try (have hx : Kept s0 x.1 := by (rw [hxe]; (repeat' (first | intro _ | with_reducible assumption | (simp (maxDischargeDepth := 40) +contextual [*]; done) | (split <;> (try (rename_i hq; replace hq := KeptOpt.of_eq (s0 := s0) hq (by clear hq; simp (maxDischargeDepth := 40) +contextual [*])))) | (with_reducible refine kept_foldl _ _ _ ?_ ?_) | (with_reducible refine kept_foldl_snd _ _ _ ?_ ?_) | (with_reducible refine kept_foldl_fst _ _ _ ?_ ?_) | (with_reducible refine kept_foldl_fill _ _ _ ?_ ?_)))))); (try (have hx : Kept s0 x.s := by (rw [hxe]; (repeat' (first | intro _ | with_reducible assumption | (simp (maxDischargeDepth := 40) +contextual [*]; done) | (split <;> (try (rename_i hq; replace hq := KeptOpt.of_eq (s0 := s0) hq (by clear hq; simp (maxDischargeDepth := 40) +contextual [*])))) | (with_reducible refine kept_foldl _ _ _ ?_ ?_) | (with_reducible refine kept_foldl_snd _ _ _ ?_ ?_) | (with_reducible refine kept_foldl_fst _ _ _ ?_ ?_) | (with_reducible refine kept_foldl_fill _ _ _ ?_ ?_)))))); (try (have hx : Kept s0 x.1.s := by (rw [hxe]; (repeat' (first | intro _ | with_reducible assumption | (simp (maxDischargeDepth := 40) +contextual [*]; done) | (split <;> (try (rename_i hq; replace hq := KeptOpt.of_eq (s0 := s0) hq (by clear hq; simp (maxDischargeDepth := 40) +contextual [*])))) | (with_reducible refine kept_foldl _ _ _ ?_ ?_) | (with_reducible refine kept_foldl_snd _ _ _ ?_ ?_) | (with_reducible refine kept_foldl_fst _ _ _ ?_ ?_) | (with_reducible refine kept_foldl_fill _ _ _ ?_ ?_)))))); (try (have hx : KeptOpt s0 x := by (rw [hxe]; (repeat' (first | intro _ | with_reducible assumption | (simp (maxDischargeDepth := 40) +contextual [*]; done) | (split <;> (try (rename_i hq; replace hq := KeptOpt.of_eq (s0 := s0) hq (by clear hq; simp (maxDischargeDepth := 40) +contextual [*])))) | (with_reducible refine kept_foldl _ _ _ ?_ ?_) | (with_reducible refine kept_foldl_snd _ _ _ ?_ ?_) | (with_reducible refine kept_foldl_fst _ _ _ ?_ ?_) | (with_reducible refine kept_foldl_fill _ _ _ ?_ ?_)))))); clear hxe)
    | (with_reducible refine kept_ite_fill _ _ _ ?_ ?_)
    | (with_reducible refine kept_ite _ _ _ ?_ ?_)
    | (with_reducible refine kept_ite_fst _ _ _ ?_ ?_)
    | (with_reducible refine kept_ite_snd _ _ _ ?_ ?_)
    | (split <;> (try (rename_i hq; replace hq := KeptOpt.of_eq (s0 := s0) hq (by clear hq; simp (maxDischargeDepth := 40) +contextual [*]))))
    | (with_reducible refine kept_foldl _ _ _ ?_ ?_)
    | (with_reducible refine kept_foldl_snd _ _ _ ?_ ?_)
    | (with_reducible refine kept_foldl_fst _ _ _ ?_ ?_)
    | (with_reducible refine kept_foldl_fill _ _ _ ?_ ?_)
    | (simp (maxDischargeDepth := 40) +contextual [*]; done))

@[simp] theorem kept_replayRound {s0 : State} (s : State) (t : Nat) (h_s : Kept s0 s) :
    Kept s0 (replayRound s t) := by
  unfold replayRound; (repeat' split) <;> simp (maxDischargeDepth := 40) +contextual [*]

@[simp] theorem kept_startRounds {s0 : State} (s : State) (h_s : Kept s0 s) :
    Kept s0 (startRounds s) := by
  unfold startRounds; (repeat' split) <;> simp (maxDischargeDepth := 40) +contextual [*]

@[simp] theorem kept_emitSlot {s0 : State} (s : State) (t : Nat) (sl : RoundSlot) (h_s : Kept s0 s) :
    Kept s0 (emitSlot s t sl) := by
  unfold emitSlot
  dsimp only
  repeat' (first
    | intro _
    | with_reducible assumption
    | (with_reducible refine kept_ite_fill _ _ _ ?_ ?_)
    | (with_reducible refine kept_ite _ _ _ ?_ ?_)
    | (with_reducible refine kept_ite_fst _ _ _ ?_ ?_)
    | (with_reducible refine kept_ite_snd _ _ _ ?_ ?_)
    | (split <;> (try (rename_i hq; replace hq := KeptOpt.of_eq (s0 := s0) hq (by clear hq; simp (maxDischargeDepth := 40) +contextual [*]))))
    | (simp (maxDischargeDepth := 40) +contextual [*]; done))

@[simp] theorem kept_poisonedSlots {s0 : State} (s : State) (t : Nat) (y0 : List RoundSlot) (h_s : Kept s0 s) :
    Kept s0 (poisonedSlots s t y0).1 := by
  induction y0 generalizing s t with
  | nil => simp [poisonedSlots, *]
  | cons a r ih =>
    unfold poisonedSlots; (repeat' split) <;> simp (maxDischargeDepth := 40) +contextual [*]

@[simp] theorem kept_countClose {s0 : State} (s : State) (t : Nat) (h_s : Kept s0 s) :
    Kept s0 (countClose s t) := by
  unfold countClose; simp (maxDischargeDepth := 40) +contextual [*]

@[simp] theorem kept_openRound {s0 : State} (s : State) (t : Nat) (n : W32) (h_s : Kept s0 s) :
    Kept s0 (openRound s t n) := by
  unfold openRound; simp (maxDischargeDepth := 40) +contextual [*]

@[simp] theorem kept_roundClosed {s0 : State} (s : State) (t : Nat) (h_s : Kept s0 s) :
    Kept s0 (roundClosed s t) := by
  unfold roundClosed
  dsimp only
  repeat' (first
    | intro _
    | with_reducible assumption
    | (with_reducible refine kept_ite_fill _ _ _ ?_ ?_)
    | (with_reducible refine kept_ite _ _ _ ?_ ?_)
    | (with_reducible refine kept_ite_fst _ _ _ ?_ ?_)
    | (with_reducible refine kept_ite_snd _ _ _ ?_ ?_)
    | (split <;> (try (rename_i hq; replace hq := KeptOpt.of_eq (s0 := s0) hq (by clear hq; simp (maxDischargeDepth := 40) +contextual [*]))))
    | (with_reducible refine kept_foldl _ _ _ ?_ ?_)
    | (with_reducible refine kept_foldl_snd _ _ _ ?_ ?_)
    | (with_reducible refine kept_foldl_fst _ _ _ ?_ ?_)
    | (with_reducible refine kept_foldl_fill _ _ _ ?_ ?_)
    | (simp (maxDischargeDepth := 40) +contextual [*]; done))

@[simp] theorem kept_lateReport {s0 : State} (s : State) (t : Nat) (h_s : Kept s0 s) :
    Kept s0 (lateReport s t) := by
  unfold lateReport; simp (maxDischargeDepth := 40) +contextual [*]

end Sys2Proof.Machine
end

