-- ==== Sys2Proof/Laws/Kept/Install.lean ====
section
/-! SUPPORT. The operations of Install keep the queue, the canonical form of the array and the fuses that are set. -/

namespace Sys2Proof.Machine

@[simp] theorem kept_installTricks {s0 : State} (s : State) (d : Deck) (h_s : Kept s0 s) :
    Kept s0 (installTricks s d) := by
  unfold installTricks; simp (maxDischargeDepth := 40) +contextual [*]

@[simp] theorem kept_installStreams {s0 : State} (s : State) (d : Deck) (h_s : Kept s0 s) :
    Kept s0 (installStreams s d) := by
  unfold installStreams; simp (maxDischargeDepth := 40) +contextual [*]

@[simp] theorem kept_installRegs {s0 : State} (s : State) (d : Deck) (h_s : Kept s0 s) :
    Kept s0 (installRegs s d) := by
  unfold installRegs; simp (maxDischargeDepth := 40) +contextual [*]

@[simp] theorem kept_installTables {s0 : State} (s : State) (d : Deck) (h_s : Kept s0 s) :
    Kept s0 (installTables s d) := by
  unfold installTables; simp (maxDischargeDepth := 40) +contextual [*]

@[simp] theorem kept_startLap {s0 : State} (s : State) (n : Nat) (h_s : Kept s0 s) :
    Kept s0 (startLap s n) := by
  unfold startLap; simp (maxDischargeDepth := 40) +contextual [*]

@[simp] theorem kept_checkClass {s0 : State} (s : State) (n : Nat) (h_s : Kept s0 s) :
    Kept s0 (checkClass s n) := by
  unfold checkClass; simp (maxDischargeDepth := 40) +contextual [*]

@[simp] theorem kept_askSource {s0 : State} (s : State) (r : Region) (h_s : Kept s0 s) :
    Kept s0 (askSource s r) := by
  unfold askSource; simp (maxDischargeDepth := 40) +contextual [*]

@[simp] theorem kept_installDirectory {s0 : State} (s : State) (d : Deck) (h_s : Kept s0 s) :
    Kept s0 (installDirectory s d) := by
  unfold installDirectory; simp (maxDischargeDepth := 40) +contextual [*]

@[simp] theorem kept_installDeck {s0 : State} (s : State) (d : Deck) (slot : Nat) (old : List Region) (h_s : Kept s0 s) :
    Kept s0 (installDeck s d slot old) := by
  unfold installDeck
  dsimp only
  repeat' (first
    | intro _
    | with_reducible assumption
    | split
    | (with_reducible refine kept_foldl _ _ _ ?_ ?_)
    | (with_reducible refine kept_foldl_snd _ _ _ ?_ ?_)
    | (with_reducible refine kept_foldl_fst _ _ _ ?_ ?_)
    | (simp (maxDischargeDepth := 40) +contextual [*]; done))

end Sys2Proof.Machine
end

