-- ==== Sys2Proof/Laws/Kept/Members.lean ====
section
/-! SUPPORT. The operations of Members keep the queue, the canonical form of the array and the fuses that are set. -/

namespace Sys2Proof.Machine

@[simp] theorem kept_setFollow {s0 : State} (s : State) (t : Nat) (h : W64) (f : Follow) (h_s : Kept s0 s) :
    Kept s0 (setFollow s t h f) := by
  unfold setFollow
  dsimp only
  repeat' (first
    | intro _
    | with_reducible assumption
    | (with_reducible refine kept_ite _ _ _ ?_ ?_)
    | (with_reducible refine kept_ite_fst _ _ _ ?_ ?_)
    | (with_reducible refine kept_ite_snd _ _ _ ?_ ?_)
    | split
    | (simp (maxDischargeDepth := 40) +contextual [*]; done))

@[simp] theorem kept_dropFollow {s0 : State} (s : State) (h : W64) (h_s : Kept s0 s) :
    Kept s0 (dropFollow s h) := by
  unfold dropFollow
  dsimp only
  repeat' (first
    | intro _
    | with_reducible assumption
    | split
    | (simp (maxDischargeDepth := 40) +contextual [*]; done))

@[simp] theorem kept_freePages {s0 : State} (s : State) (n : Nat) (h_s : Kept s0 s) :
    Kept s0 (freePages s n).1 := by
  unfold freePages; simp (maxDischargeDepth := 40) +contextual [*]

@[simp] theorem kept_knownTo {s0 : State} (s : State) (toks : List W32) (n : Nat) (h_s : Kept s0 s) :
    Kept s0 (knownTo s toks n).1 := by
  unfold knownTo; simp (maxDischargeDepth := 40) +contextual [*]

@[simp] theorem kept_memberHeader {s0 : State} (s : State) (t p k origin : Nat) (toks : List W32) (h_s : Kept s0 s) :
    Kept s0 (memberHeader s t p k origin toks) := by
  unfold memberHeader; simp (maxDischargeDepth := 40) +contextual [*]

@[simp] theorem kept_recomputedHeader {s0 : State} (s : State) (t p first : Nat) (h_s : Kept s0 s) :
    Kept s0 (recomputedHeader s t p first) := by
  unfold recomputedHeader
  dsimp only
  repeat' (first
    | intro _
    | with_reducible assumption
    | (split <;> (try (rename_i hq; replace hq := KeptOpt.of_eq (s0 := s0) hq (by clear hq; simp (maxDischargeDepth := 40) +contextual [*]))))
    | (simp (maxDischargeDepth := 40) +contextual [*]; done))

@[simp] theorem kept_advance {s0 : State} (s : State) (t : Nat) (f : Follow) (to_ origin : Nat) (h_s : Kept s0 s) :
    Kept s0 (advance s t f to_ origin).1 := by
  unfold advance
  repeat' (first
    | intro _
    | with_reducible assumption
    | split
    | (with_reducible refine kept_foldl _ _ _ ?_ ?_)
    | (with_reducible refine kept_foldl_snd _ _ _ ?_ ?_)
    | (with_reducible refine kept_foldl_fst _ _ _ ?_ ?_)
    | (simp (maxDischargeDepth := 40) +contextual [*]; done)
    | dsimp only)

@[simp] theorem kept_inPlace {s0 : State} (s : State) (f : Follow) (h_s : Kept s0 s) :
    Kept s0 (inPlace s f) := by
  unfold inPlace; simp (maxDischargeDepth := 40) +contextual [*]

@[simp] theorem kept_jobAdvanced {s0 : State} (s : State) (h : W64) (h_s : Kept s0 s) :
    Kept s0 (jobAdvanced s h) := by
  unfold jobAdvanced
  repeat' (first
    | intro _
    | with_reducible assumption
    | (with_reducible refine kept_ite _ _ _ ?_ ?_)
    | split
    | (simp (maxDischargeDepth := 40) +contextual [*]; done)
    | dsimp only)

@[simp] theorem kept_memberVerdict {s0 : State} (s : State) (t : Nat) (e : ServEntry) (h_s : Kept s0 s) :
    Kept s0 (memberVerdict s t e) := by
  unfold memberVerdict
  dsimp only
  repeat' (first
    | intro _
    | with_reducible assumption
    | (with_reducible refine kept_ite _ _ _ ?_ ?_)
    | (with_reducible refine kept_ite_fst _ _ _ ?_ ?_)
    | (with_reducible refine kept_ite_snd _ _ _ ?_ ?_)
    | (split <;> (try (rename_i hq; replace hq := KeptOpt.of_eq (s0 := s0) hq (by clear hq; simp (maxDischargeDepth := 40) +contextual [*]))))
    | (simp (maxDischargeDepth := 40) +contextual [*]; done))

@[simp] theorem kept_slotPages {s0 : State} (s : State) (f : Follow) (e : ServEntry) (h_s : Kept s0 s) :
    Kept s0 (slotPages s f e).1 := by
  unfold slotPages; simp (maxDischargeDepth := 40) +contextual [*]

@[simp] theorem kept_slotTokens {s0 : State} (s : State) (f : Follow) (e : ServEntry) (h_s : Kept s0 s) :
    Kept s0 (slotTokens s f e).1 := by
  unfold slotTokens; simp (maxDischargeDepth := 40) +contextual [*]

@[simp] theorem kept_memberSlot {s0 : State} (s : State) (t : Nat) (e : ServEntry) (h_s : Kept s0 s) :
    Kept s0 (memberSlot s t e).1 := by
  unfold memberSlot; simp (maxDischargeDepth := 40) +contextual [*]

@[simp] theorem kept_memberSlots {s0 : State} (s : State) (t : Nat) (y0 : List ServEntry) (h_s : Kept s0 s) :
    Kept s0 (memberSlots s t y0) := by
  induction y0 generalizing s t with
  | nil => simp [memberSlots, *]
  | cons a r ih =>
    unfold memberSlots; (repeat' split) <;> simp (maxDischargeDepth := 40) +contextual [*]

@[simp] theorem kept_memberWrite {s0 : State} (s : State) (t : Nat) (h_s : Kept s0 s) :
    Kept s0 (memberWrite s t) := by
  unfold memberWrite; simp (maxDischargeDepth := 40) +contextual [*]

@[simp] theorem kept_openHeld {s0 : State} (s : State) (h_s : Kept s0 s) :
    Kept s0 (openHeld s) := by
  unfold openHeld
  dsimp only
  repeat' (first
    | intro _
    | with_reducible assumption
    | (with_reducible refine kept_ite _ _ _ ?_ ?_)
    | (with_reducible refine kept_ite_fst _ _ _ ?_ ?_)
    | (with_reducible refine kept_ite_snd _ _ _ ?_ ?_)
    | split
    | (with_reducible refine kept_foldl _ _ _ ?_ ?_)
    | (with_reducible refine kept_foldl_snd _ _ _ ?_ ?_)
    | (with_reducible refine kept_foldl_fst _ _ _ ?_ ?_)
    | (simp (maxDischargeDepth := 40) +contextual [*]; done))

end Sys2Proof.Machine
end

