-- ==== Sys2Proof/Laws/Kept/Group.lean ====
section
/-! SUPPORT. The operations of Group keep the queue, the canonical form of the array and the fuses that are set. -/

namespace Sys2Proof.Machine

@[simp] theorem kept_sendGroup {s0 : State} (s : State) (dest : Nat) (ms : List GroupMsg) (h_s : Kept s0 s) :
    Kept s0 (sendGroup s dest ms) := by
  unfold sendGroup; simp (maxDischargeDepth := 40) +contextual [*]

@[simp] theorem kept_sendJoin {s0 : State} (s : State) (h_s : Kept s0 s) :
    Kept s0 (sendJoin s) := by
  unfold sendJoin
  repeat' (first
    | intro _
    | with_reducible assumption
    | (with_reducible refine kept_ite _ _ _ ?_ ?_)
    | split
    | (simp (maxDischargeDepth := 40) +contextual [*]; done)
    | dsimp only)

@[simp] theorem kept_joinAgain {s0 : State} (s : State) (h_s : Kept s0 s) :
    Kept s0 (joinAgain s) := by
  unfold joinAgain; simp (maxDischargeDepth := 40) +contextual [*]

@[simp] theorem kept_holdPart {s0 : State} (s : State) (src : Nat) (m : GroupMsg) (h_s : Kept s0 s) :
    Kept s0 (holdPart s src m) := by
  unfold holdPart; simp (maxDischargeDepth := 40) +contextual [*]

@[simp] theorem kept_dropParts {s0 : State} (s : State) (src kind : Nat) (h_s : Kept s0 s) :
    Kept s0 (dropParts s src kind) := by
  unfold dropParts; simp (maxDischargeDepth := 40) +contextual [*]

@[simp] theorem kept_setEpoch {s0 : State} (s : State) (n : Nat) (e : W32) (h_s : Kept s0 s) :
    Kept s0 (setEpoch s n e) := by
  unfold setEpoch
  dsimp only
  repeat' (first
    | intro _
    | with_reducible assumption
    | (with_reducible refine kept_ite _ _ _ ?_ ?_)
    | (with_reducible refine kept_ite_fst _ _ _ ?_ ?_)
    | (with_reducible refine kept_ite_snd _ _ _ ?_ ?_)
    | (split <;> (try (rename_i hq; replace hq := KeptOpt.of_eq (s0 := s0) hq (by clear hq; simp (maxDischargeDepth := 40) +contextual [*]))))
    | (with_reducible refine kept_foldl _ _ _ ?_ ?_)
    | (with_reducible refine kept_foldl_snd _ _ _ ?_ ?_)
    | (with_reducible refine kept_foldl_fst _ _ _ ?_ ?_)
    | (simp (maxDischargeDepth := 40) +contextual [*]; done))

@[simp] theorem kept_reclaimShipped {s0 : State} (s : State) (h_s : Kept s0 s) :
    Kept s0 (reclaimShipped s) := by
  unfold reclaimShipped; simp (maxDischargeDepth := 40) +contextual [*]

@[simp] theorem kept_checkServing {s0 : State} (s : State) (d : Deck) (h_s : Kept s0 s) :
    Kept s0 (checkServing s d) := by
  unfold checkServing; simp (maxDischargeDepth := 40) +contextual [*]

@[simp] theorem kept_sendAlign {s0 : State} (s : State) (d : Deck) (h_s : Kept s0 s) :
    Kept s0 (sendAlign s d) := by
  unfold sendAlign; simp (maxDischargeDepth := 40) +contextual [*]

@[simp] theorem kept_tryForm {s0 : State} (s : State) (h_s : Kept s0 s) :
    Kept s0 (tryForm s) := by
  unfold tryForm
  dsimp only
  repeat' (first
    | intro _
    | with_reducible assumption
    | (with_reducible refine kept_ite _ _ _ ?_ ?_)
    | (with_reducible refine kept_ite_fst _ _ _ ?_ ?_)
    | (with_reducible refine kept_ite_snd _ _ _ ?_ ?_)
    | split
    | (with_reducible refine kept_foldl _ _ _ ?_ ?_)
    | (with_reducible refine kept_foldl_snd _ _ _ ?_ ?_)
    | (with_reducible refine kept_foldl_fst _ _ _ ?_ ?_)
    | (simp (maxDischargeDepth := 40) +contextual [*]; done))

@[simp] theorem kept_joinGroup {s0 : State} (s : State) (h_s : Kept s0 s) :
    Kept s0 (joinGroup s) := by
  unfold joinGroup; simp (maxDischargeDepth := 40) +contextual [*]

@[simp] theorem kept_checkReady {s0 : State} (s : State) (h_s : Kept s0 s) :
    Kept s0 (checkReady s) := by
  unfold checkReady
  repeat' (first
    | intro _
    | with_reducible assumption
    | (with_reducible refine kept_ite _ _ _ ?_ ?_)
    | split
    | (simp (maxDischargeDepth := 40) +contextual [*]; done)
    | dsimp only)

@[simp] theorem kept_closeAll {s0 : State} (s : State) (h_s : Kept s0 s) :
    Kept s0 (closeAll s) := by
  unfold closeAll; simp (maxDischargeDepth := 40) +contextual [*]

@[simp] theorem kept_demote {s0 : State} (s : State) (d : Deck) (h_s : Kept s0 s) :
    Kept s0 (demote s d) := by
  unfold demote; simp (maxDischargeDepth := 40) +contextual [*]

@[simp] theorem kept_learnDealer {s0 : State} (s : State) (d : Deck) (src : Nat) (h_s : Kept s0 s) :
    Kept s0 (learnDealer s d src).1 := by
  unfold learnDealer; simp (maxDischargeDepth := 40) +contextual [*]

@[simp] theorem kept_adoptAlign {s0 : State} (s : State) (d : Deck) (src : Nat) (h_s : Kept s0 s) :
    Kept s0 (adoptAlign s d src) := by
  unfold adoptAlign; simp (maxDischargeDepth := 40) +contextual [*]

end Sys2Proof.Machine
end

