-- ==== Sys2Proof/Laws/Kept/ScriptRows.lean ====
section
/-! SUPPORT. The operations of ScriptRows keep the queue, the canonical form of the array and the fuses that are set. -/

namespace Sys2Proof.Machine

@[simp] theorem kept_flushRows {s0 : State} (s : State) (stack bank : Nat) (rows : List Nat) (stores : Bool) (h_s : Kept s0 s) :
    Kept s0 (flushRows s stack bank rows stores) := by
  unfold flushRows; simp (maxDischargeDepth := 40) +contextual [*]

@[simp] theorem kept_drainRows {s0 : State} (s : State) (stack bank : Nat) (rows : List Nat) (h_s : Kept s0 s) :
    Kept s0 (drainRows s stack bank rows) := by
  unfold drainRows
  repeat' (first
    | intro _
    | with_reducible assumption
    | (extract_lets +onlyGivenNames x; clear_value (hxe : x = _); (try (have hx : Kept s0 x := by (rw [hxe]; (repeat' (first | intro _ | with_reducible assumption | (simp (maxDischargeDepth := 40) +contextual [*]; done) | split | (with_reducible refine kept_foldl _ _ _ ?_ ?_) | (with_reducible refine kept_foldl_snd _ _ _ ?_ ?_) | (with_reducible refine kept_foldl_fst _ _ _ ?_ ?_)))))); (try (have hx : Kept s0 x.2 := by (rw [hxe]; (repeat' (first | intro _ | with_reducible assumption | (simp (maxDischargeDepth := 40) +contextual [*]; done) | split | (with_reducible refine kept_foldl _ _ _ ?_ ?_) | (with_reducible refine kept_foldl_snd _ _ _ ?_ ?_) | (with_reducible refine kept_foldl_fst _ _ _ ?_ ?_)))))); (try (have hx : Kept s0 x.1 := by (rw [hxe]; (repeat' (first | intro _ | with_reducible assumption | (simp (maxDischargeDepth := 40) +contextual [*]; done) | split | (with_reducible refine kept_foldl _ _ _ ?_ ?_) | (with_reducible refine kept_foldl_snd _ _ _ ?_ ?_) | (with_reducible refine kept_foldl_fst _ _ _ ?_ ?_)))))); (try (have hx : KeptOpt s0 x := by (rw [hxe]; (repeat' (first | intro _ | with_reducible assumption | (simp (maxDischargeDepth := 40) +contextual [*]; done) | split | (with_reducible refine kept_foldl _ _ _ ?_ ?_) | (with_reducible refine kept_foldl_snd _ _ _ ?_ ?_) | (with_reducible refine kept_foldl_fst _ _ _ ?_ ?_)))))); (try (have hx : ∀ s, Kept s0 s → Kept s0 (x s) := by (intro s h; rw [hxe]; (repeat' (first | intro _ | with_reducible assumption | (simp (maxDischargeDepth := 40) +contextual [*]; done) | split | (with_reducible refine kept_foldl _ _ _ ?_ ?_) | (with_reducible refine kept_foldl_snd _ _ _ ?_ ?_) | (with_reducible refine kept_foldl_fst _ _ _ ?_ ?_)))))); (try (have hx : ∀ s a, Kept s0 s → Kept s0 (x s a) := by (intro s a h; rw [hxe]; (repeat' (first | intro _ | with_reducible assumption | (simp (maxDischargeDepth := 40) +contextual [*]; done) | split | (with_reducible refine kept_foldl _ _ _ ?_ ?_) | (with_reducible refine kept_foldl_snd _ _ _ ?_ ?_) | (with_reducible refine kept_foldl_fst _ _ _ ?_ ?_)))))); (try (have hx : ∀ a s, Kept s0 s → Kept s0 (x a s) := by (intro a s h; rw [hxe]; (repeat' (first | intro _ | with_reducible assumption | (simp (maxDischargeDepth := 40) +contextual [*]; done) | split | (with_reducible refine kept_foldl _ _ _ ?_ ?_) | (with_reducible refine kept_foldl_snd _ _ _ ?_ ?_) | (with_reducible refine kept_foldl_fst _ _ _ ?_ ?_)))))); (try (have hx : ∀ a, Kept s0 (x a) := by (intro a; rw [hxe]; (repeat' (first | intro _ | with_reducible assumption | (simp (maxDischargeDepth := 40) +contextual [*]; done) | split | (with_reducible refine kept_foldl _ _ _ ?_ ?_) | (with_reducible refine kept_foldl_snd _ _ _ ?_ ?_) | (with_reducible refine kept_foldl_fst _ _ _ ?_ ?_)))))); (try (have hx : ∀ s, Kept s0 s → KeptOut s0 (x s) := by (intro s h; rw [hxe]; (repeat' (first | intro _ | with_reducible assumption | (simp (maxDischargeDepth := 40) +contextual [*]; done) | split | (with_reducible refine kept_foldl _ _ _ ?_ ?_) | (with_reducible refine kept_foldl_snd _ _ _ ?_ ?_) | (with_reducible refine kept_foldl_fst _ _ _ ?_ ?_)))))); (try (have hx : ∀ s, Kept s0 s → KeptEnd s0 (x s) := by (intro s h; rw [hxe]; (repeat' (first | intro _ | with_reducible assumption | (simp (maxDischargeDepth := 40) +contextual [*]; done) | split | (with_reducible refine kept_foldl _ _ _ ?_ ?_) | (with_reducible refine kept_foldl_snd _ _ _ ?_ ?_) | (with_reducible refine kept_foldl_fst _ _ _ ?_ ?_)))))); clear hxe)
    | split
    | (with_reducible refine kept_foldl _ _ _ ?_ ?_)
    | (with_reducible refine kept_foldl_snd _ _ _ ?_ ?_)
    | (with_reducible refine kept_foldl_fst _ _ _ ?_ ?_)
    | (simp (maxDischargeDepth := 40) +contextual [*]; done))

@[simp] theorem kept_modBank {s0 : State} (s : State) (stack : Nat) (key : RunKey) (bank : Nat) (f : BankRun → BankRun)
    (h_s : Kept s0 s) :
    Kept s0 (modBank s stack key bank f) := by
  unfold modBank; simp (maxDischargeDepth := 40) +contextual [*]

@[simp] theorem kept_beginRow {s0 : State} (s : State) (stack : Nat) (r : ScriptRun) (b : BankRun) (h_s : Kept s0 s) :
    Kept s0 (beginRow s stack r b) := by
  unfold beginRow
  dsimp only
  repeat' (first
    | intro _
    | with_reducible assumption
    | (with_reducible refine kept_ite _ _ _ ?_ ?_)
    | (with_reducible refine kept_ite_fst _ _ _ ?_ ?_)
    | (with_reducible refine kept_ite_snd _ _ _ ?_ ?_)
    | (split <;> (try (rename_i hq; replace hq := KeptOpt.of_eq (s0 := s0) hq (by clear hq; simp (maxDischargeDepth := 40) +contextual [*]))))
    | (simp (maxDischargeDepth := 40) +contextual [*]; done))

@[simp] theorem kept_resumeBank {s0 : State} (s : State) (stack bank : Nat) (h_s : Kept s0 s) :
    Kept s0 (resumeBank s stack bank) := by
  unfold resumeBank
  repeat' (first
    | intro _
    | with_reducible assumption
    | split
    | (with_reducible refine kept_foldl _ _ _ ?_ ?_)
    | (with_reducible refine kept_foldl_snd _ _ _ ?_ ?_)
    | (with_reducible refine kept_foldl_fst _ _ _ ?_ ?_)
    | (simp (maxDischargeDepth := 40) +contextual [*]; done)
    | dsimp only)

@[simp] theorem kept_bankBoundary {s0 : State} (s : State) (stack bank : Nat) (h_s : Kept s0 s) :
    Kept s0 (bankBoundary s stack bank) := by
  unfold bankBoundary; simp (maxDischargeDepth := 40) +contextual [*]

@[simp] theorem kept_grantBus {s0 : State} (s : State) (stack : Nat) (h_s : Kept s0 s) :
    Kept s0 (grantBus s stack) := by
  unfold grantBus
  dsimp only
  repeat' (first
    | intro _
    | with_reducible assumption
    | (with_reducible refine kept_ite _ _ _ ?_ ?_)
    | (with_reducible refine kept_ite_fst _ _ _ ?_ ?_)
    | (with_reducible refine kept_ite_snd _ _ _ ?_ ?_)
    | split
    | (with_reducible refine kept_foldl _ _ _ ?_ ?_)
    | (with_reducible refine kept_foldl_snd _ _ _ ?_ ?_)
    | (with_reducible refine kept_foldl_fst _ _ _ ?_ ?_)
    | (simp (maxDischargeDepth := 40) +contextual [*]; done))

@[simp] theorem kept_startBank {s0 : State} (s : State) (stack : Nat) (w : RunKey × Nat) (h_s : Kept s0 s) :
    Kept s0 (startBank s stack w).1 := by
  unfold startBank
  dsimp only
  repeat' (first
    | intro _
    | with_reducible assumption
    | (with_reducible refine kept_ite _ _ _ ?_ ?_)
    | (with_reducible refine kept_ite_fst _ _ _ ?_ ?_)
    | (with_reducible refine kept_ite_snd _ _ _ ?_ ?_)
    | split
    | (simp (maxDischargeDepth := 40) +contextual [*]; done))

@[simp] theorem kept_startWaiting {s0 : State} (one : Bool) (stack : Nat) (y0 : List (RunKey × Nat)) (y1 : List Nat)
    (y2 : State) (h_y2 : Kept s0 y2) :
    Kept s0 (startWaiting one stack y0 y1 y2) := by
  induction y0 generalizing one stack y1 y2 with
  | nil => simp [startWaiting, *]
  | cons a r ih =>
    unfold startWaiting; (repeat' split) <;> simp (maxDischargeDepth := 40) +contextual [*]

@[simp] theorem kept_completeRun {s0 : State} (s : State) (stack : Nat) (key : RunKey) (h_s : Kept s0 s) :
    Kept s0 (completeRun s stack key) := by
  unfold completeRun
  repeat' (first
    | intro _
    | with_reducible assumption
    | (with_reducible refine kept_ite _ _ _ ?_ ?_)
    | split
    | (simp (maxDischargeDepth := 40) +contextual [*]; done)
    | dsimp only)

@[simp] theorem kept_execScriptOperationStart {s0 : State} (stack : Fin 8) (core : CoreId) (ticket : Fin 4) (s : State)
    (h_s : Kept s0 s) :
    KeptOut s0 (execScriptOperationStart stack core ticket s) := by
  unfold execScriptOperationStart
  dsimp only
  split
  · exact h_s
  · refine keptOut_ite _ _ _ h_s (keptOut_ite _ _ _ ?_ ?_)
    · simp (maxDischargeDepth := 40) +contextual [*]
    · have h1 : ∀ (f : Stack → Stack), Kept s0 (modStack s stack.val f) := fun f => kept_modStack (h_s := h_s) ..
      split
      · exact h1 _
      · refine keptOut_ite _ _ _ (kept_completeRun (h_s := h1 _) ..) ?_
        split
        · exact kept_faultRun (h_s := h1 _) ..
        · exact kept_startWaiting (h_y2 := kept_modStack (h_s := h1 _) ..) ..

@[simp] theorem kept_execStreamingPermitTaken {s0 : State} (stack : Fin 8) (s : State) (h_s : Kept s0 s) :
    KeptOut s0 (execStreamingPermitTaken stack s) := by
  unfold execStreamingPermitTaken; simp (maxDischargeDepth := 40) +contextual [*]

@[simp] theorem kept_holdOnce {s0 : State} (s : State) (line : Nat) (who : Consumer) (h_s : Kept s0 s) :
    Kept s0 (holdOnce s line who) := by
  unfold holdOnce; simp (maxDischargeDepth := 40) +contextual [*]

@[simp] theorem kept_testRow {s0 : State} (s : State) (stack bank row lines det : Nat) (who : Consumer) (dist : List
    (Nat × Nat)) (h_s : Kept s0 s) :
    Kept s0 (testRow s stack bank row lines det who dist).1 := by
  unfold testRow
  dsimp only
  repeat' (first
    | intro _
    | with_reducible assumption
    | (with_reducible refine kept_ite _ _ _ ?_ ?_)
    | (with_reducible refine kept_ite_fst _ _ _ ?_ ?_)
    | (with_reducible refine kept_ite_snd _ _ _ ?_ ?_)
    | split
    | (with_reducible refine kept_foldl _ _ _ ?_ ?_)
    | (with_reducible refine kept_foldl_snd _ _ _ ?_ ?_)
    | (with_reducible refine kept_foldl_fst _ _ _ ?_ ?_)
    | (simp (maxDischargeDepth := 40) +contextual [*]; done))

@[simp] theorem kept_putRow {s0 : State} (s : State) (stack bank row : Nat) (d : RowData) (check : Nat → W32)
    (poison : BitVec 16) (h_s : Kept s0 s) :
    Kept s0 (putRow s stack bank row d check poison) := by
  unfold putRow; simp (maxDischargeDepth := 40) +contextual [*]

@[simp] theorem kept_rowEffect {s0 : State} (s : State) (stack : Nat) (r : ScriptRun) (b : BankRun) (o : ScriptOp)
    (st : RowStep) (dist : List (Nat × Nat)) (h_s : Kept s0 s) :
    Kept s0 (rowEffect s stack r b o st dist).1 := by
  unfold rowEffect
  dsimp only
  repeat' (first
    | intro _
    | with_reducible assumption
    | (with_reducible refine kept_ite _ _ _ ?_ ?_)
    | (with_reducible refine kept_ite_fst _ _ _ ?_ ?_)
    | (with_reducible refine kept_ite_snd _ _ _ ?_ ?_)
    | split
    | (simp (maxDischargeDepth := 40) +contextual [*]; done))

@[simp] theorem kept_freeResults {s0 : State} (s : State) (vs : List Nat) (y0 : List Res) (h_s : Kept s0 s) :
    Kept s0 (freeResults s vs y0).1 := by
  induction y0 generalizing s vs with
  | nil => simp [freeResults, *]
  | cons a r ih =>
    unfold freeResults; (repeat' split) <;> simp (maxDischargeDepth := 40) +contextual [*]

@[simp] theorem kept_channelResults {s0 : State} (s : State) (stack chan : Nat) (r : ScriptRun) (o : ScriptOp)
    (h_s : Kept s0 s) :
    Kept s0 (channelResults s stack chan r o).1 := by
  unfold channelResults
  dsimp only
  repeat' (first
    | intro _
    | with_reducible assumption
    | split
    | (with_reducible refine kept_foldl _ _ _ ?_ ?_)
    | (with_reducible refine kept_foldl_snd _ _ _ ?_ ?_)
    | (with_reducible refine kept_foldl_fst _ _ _ ?_ ?_)
    | (simp (maxDischargeDepth := 40) +contextual [*]; done))

@[simp] theorem kept_channelDone {s0 : State} (s : State) (stack : Nat) (key : RunKey) (chan : Nat) (o : ScriptOp)
    (h_s : Kept s0 s) :
    Kept s0 (channelDone s stack key chan o) := by
  unfold channelDone
  dsimp only
  repeat' (first
    | intro _
    | with_reducible assumption
    | (with_reducible refine kept_ite _ _ _ ?_ ?_)
    | (with_reducible refine kept_ite_fst _ _ _ ?_ ?_)
    | (with_reducible refine kept_ite_snd _ _ _ ?_ ?_)
    | split
    | (simp (maxDischargeDepth := 40) +contextual [*]; done))

@[simp] theorem kept_operationDone {s0 : State} (s : State) (stack : Nat) (key : RunKey) (o : ScriptOp) (h_s : Kept s0 s) :
    Kept s0 (operationDone s stack key o) := by
  unfold operationDone
  dsimp only
  repeat' (first
    | intro _
    | with_reducible assumption
    | (with_reducible refine kept_ite _ _ _ ?_ ?_)
    | (with_reducible refine kept_ite_fst _ _ _ ?_ ?_)
    | (with_reducible refine kept_ite_snd _ _ _ ?_ ?_)
    | split
    | (simp (maxDischargeDepth := 40) +contextual [*]; done))

@[simp] theorem kept_bankEnded {s0 : State} (s : State) (stack : Nat) (key : RunKey) (bank : Nat) (h_s : Kept s0 s) :
    Kept s0 (bankEnded s stack key bank) := by
  unfold bankEnded; simp (maxDischargeDepth := 40) +contextual [*]

@[simp] theorem kept_stopDone {s0 : State} (s : State) (stack : Nat) (key : RunKey) (h_s : Kept s0 s) :
    Kept s0 (stopDone s stack key) := by
  unfold stopDone
  repeat' (first
    | intro _
    | with_reducible assumption
    | (with_reducible refine kept_ite _ _ _ ?_ ?_)
    | split
    | (simp (maxDischargeDepth := 40) +contextual [*]; done)
    | dsimp only)

@[simp] theorem kept_rowDone {s0 : State} (s : State) (n : Nat) (r : ScriptRun) (b : BankRun) (o : ScriptOp) (st : RowStep)
    (disturbed : List (Nat × Nat)) (h_s : Kept s0 s) :
    Kept s0 (rowDone s n r b o st disturbed) := by
  unfold rowDone
  dsimp only
  repeat' (first
    | intro _
    | with_reducible assumption
    | (with_reducible refine kept_ite _ _ _ ?_ ?_)
    | (with_reducible refine kept_ite_fst _ _ _ ?_ ?_)
    | (with_reducible refine kept_ite_snd _ _ _ ?_ ?_)
    | split
    | (simp (maxDischargeDepth := 40) +contextual [*]; done))

@[simp] theorem kept_execRowOperationDone {s0 : State} (stack : Fin 8) (core : CoreId) (ticket : Fin 4) (bank : Fin 768)
    (disturbed : List (Nat × Nat)) (s : State) (h_s : Kept s0 s) :
    KeptOut s0 (execRowOperationDone stack core ticket bank disturbed s) := by
  unfold execRowOperationDone
  repeat' (first
    | intro _
    | with_reducible assumption
    | (split <;> (try (rename_i hq; replace hq := KeptOpt.of_eq (s0 := s0) hq (by clear hq; simp (maxDischargeDepth := 40) +contextual [*]))))
    | (with_reducible refine (keptOut_next _ _).mpr ?_)
    | (simp (maxDischargeDepth := 40) +contextual [*]; done)
    | dsimp only)

@[simp] theorem kept_endRows {s0 : State} (s : State) (h_s : Kept s0 s) :
    Kept s0 (endRows s) := by
  unfold endRows
  repeat' (first
    | intro _
    | with_reducible assumption
    | (split <;> (try (rename_i hq; replace hq := KeptOpt.of_eq (s0 := s0) hq (by clear hq; simp (maxDischargeDepth := 40) +contextual [*]))))
    | (with_reducible refine kept_foldl _ _ _ ?_ ?_)
    | (with_reducible refine kept_foldl_snd _ _ _ ?_ ?_)
    | (with_reducible refine kept_foldl_fst _ _ _ ?_ ?_)
    | (simp (maxDischargeDepth := 40) +contextual [*]; done)
    | dsimp only)

end Sys2Proof.Machine
end

