-- ==== Sys2Proof/Laws/Kept/Switch.lean ====
section
/-! SUPPORT. The operations of Switch keep the queue, the canonical form of the array and the fuses that are set. -/

namespace Sys2Proof.Machine

@[simp] theorem kept_switchDown {s0 : State} (s : State) (b : FrameBody) (h_s : Kept s0 s) :
    Kept s0 (switchDown s b) := by
  unfold switchDown; simp (maxDischargeDepth := 40) +contextual [*]

@[simp] theorem kept_writeMarks {s0 : State} (s : State) (h_s : Kept s0 s) :
    Kept s0 (writeMarks s) := by
  unfold writeMarks; simp (maxDischargeDepth := 40) +contextual [*]

@[simp] theorem kept_deckSwitched {s0 : State} (s : State) (h_s : Kept s0 s) :
    Kept s0 (deckSwitched s) := by
  unfold deckSwitched; simp (maxDischargeDepth := 40) +contextual [*]

@[simp] theorem kept_switchLoad {s0 : State} (s : State) (h_s : Kept s0 s) :
    Kept s0 (switchLoad s) := by
  unfold switchLoad
  dsimp only
  repeat' (first
    | intro _
    | with_reducible assumption
    | (with_reducible refine kept_ite _ _ _ ?_ ?_)
    | (with_reducible refine kept_ite_fst _ _ _ ?_ ?_)
    | (with_reducible refine kept_ite_snd _ _ _ ?_ ?_)
    | split
    | (with_reducible refine kept_foldl _ _ _ ?_ ?_)
    | (with_reducible refine kept_foldl_snd _ _ _ ?_ ?_)
    | (with_reducible refine kept_foldl_fst _ _ _ ?_ ?_)
    | (simp (maxDischargeDepth := 40) +contextual [*]; done))

@[simp] theorem kept_switchRelease {s0 : State} (s : State) (h_s : Kept s0 s) :
    Kept s0 (switchRelease s) := by
  unfold switchRelease
  dsimp only
  repeat' (first
    | intro _
    | with_reducible assumption
    | split
    | (simp (maxDischargeDepth := 40) +contextual [*]; done))

@[simp] theorem kept_switchComplete {s0 : State} (s : State) (h_s : Kept s0 s) :
    Kept s0 (switchComplete s) := by
  unfold switchComplete
  dsimp only
  repeat' (first
    | intro _
    | with_reducible assumption
    | (with_reducible refine kept_ite _ _ _ ?_ ?_)
    | (with_reducible refine kept_ite_fst _ _ _ ?_ ?_)
    | (with_reducible refine kept_ite_snd _ _ _ ?_ ?_)
    | split
    | (simp (maxDischargeDepth := 40) +contextual [*]; done))

@[simp] theorem kept_playSwitch {s0 : State} (s : State) (h_s : Kept s0 s) :
    Kept s0 (playSwitch s) := by
  unfold playSwitch; simp (maxDischargeDepth := 40) +contextual [*]

@[simp] theorem kept_answerSwitch {s0 : State} (s : State) (h_s : Kept s0 s) :
    Kept s0 (answerSwitch s) := by
  unfold answerSwitch
  repeat' (first
    | intro _
    | with_reducible assumption
    | split
    | (simp (maxDischargeDepth := 40) +contextual [*]; done)
    | dsimp only)

@[simp] theorem kept_peerMismatch {s0 : State} (s : State) (member : Nat) (h_s : Kept s0 s) :
    Kept s0 (peerMismatch s member) := by
  unfold peerMismatch; simp (maxDischargeDepth := 40) +contextual [*]

@[simp] theorem kept_maybePlay {s0 : State} (s : State) (h_s : Kept s0 s) :
    Kept s0 (maybePlay s) := by
  unfold maybePlay; simp (maxDischargeDepth := 40) +contextual [*]

@[simp] theorem kept_acceptAnnounce {s0 : State} (s : State) (h_s : Kept s0 s) :
    Kept s0 (acceptAnnounce s) := by
  unfold acceptAnnounce; simp (maxDischargeDepth := 40) +contextual [*]

@[simp] theorem kept_loadDone {s0 : State} (s : State) (h_s : Kept s0 s) :
    Kept s0 (loadDone s) := by
  unfold loadDone
  repeat' (first
    | intro _
    | with_reducible assumption
    | split
    | (simp (maxDischargeDepth := 40) +contextual [*]; done)
    | dsimp only)

@[simp] theorem kept_takeOver {s0 : State} (s : State) (h_s : Kept s0 s) :
    Kept s0 (takeOver s) := by
  unfold takeOver; simp (maxDischargeDepth := 40) +contextual [*]

@[simp] theorem kept_maybeTakeOver {s0 : State} (s : State) (h_s : Kept s0 s) :
    Kept s0 (maybeTakeOver s) := by
  unfold maybeTakeOver; simp (maxDischargeDepth := 40) +contextual [*]

end Sys2Proof.Machine
end

