-- ==== Sys2Proof/Laws/Kept/Closing.lean ====
section
/-! SUPPORT. The operations of Closing keep the queue, the canonical form of the array and the fuses that are set. -/

namespace Sys2Proof.Machine

@[simp] theorem kept_realign {s0 : State} (s : State) (n t : Nat) (epoch count : W32) (missing : Option W32) (h_s : Kept s0 s) :
    Kept s0 (realign s n t epoch count missing) := by
  unfold realign; simp (maxDischargeDepth := 40) +contextual [*]

@[simp] theorem kept_applyMark {s0 : State} (s : State) (n t : Nat) (ms : List (W32 × W32)) (h_s : Kept s0 s) :
    Kept s0 (applyMark s n t ms) := by
  unfold applyMark
  dsimp only
  repeat' (first
    | intro _
    | with_reducible assumption
    | (with_reducible refine kept_ite _ _ _ ?_ ?_)
    | (with_reducible refine kept_ite_fst _ _ _ ?_ ?_)
    | (with_reducible refine kept_ite_snd _ _ _ ?_ ?_)
    | split
    | (simp (maxDischargeDepth := 40) +contextual [*]; done))

@[simp] theorem kept_tryRealign {s0 : State} (s : State) (n t : Nat) (h_s : Kept s0 s) :
    Kept s0 (tryRealign s n t) := by
  unfold tryRealign
  repeat' (first
    | intro _
    | with_reducible assumption
    | split
    | (with_reducible refine kept_foldl _ _ _ ?_ ?_)
    | (with_reducible refine kept_foldl_snd _ _ _ ?_ ?_)
    | (with_reducible refine kept_foldl_fst _ _ _ ?_ ?_)
    | (simp (maxDischargeDepth := 40) +contextual [*]; done)
    | dsimp only)

@[simp] theorem kept_takeMark {s0 : State} (s : State) (n t : Nat) (count epoch : W32) (h_s : Kept s0 s) :
    Kept s0 (takeMark s n t count epoch) := by
  unfold takeMark; simp (maxDischargeDepth := 40) +contextual [*]

@[simp] theorem kept_takeRelease {s0 : State} (s : State) (n t : Nat) (epoch : W32) (h_s : Kept s0 s) :
    Kept s0 (takeRelease s n t epoch) := by
  unfold takeRelease; simp (maxDischargeDepth := 40) +contextual [*]

@[simp] theorem kept_deliverMarks {s0 : State} (s : State) (n t : Nat) (h_s : Kept s0 s) :
    Kept s0 (deliverMarks s n t) := by
  unfold deliverMarks; simp (maxDischargeDepth := 40) +contextual [*]

@[simp] theorem kept_marksMove {s0 : State} (s : State) (n t : Nat) (h_s : Kept s0 s) :
    Kept s0 (marksMove s n t) := by
  unfold marksMove; simp (maxDischargeDepth := 40) +contextual [*]

@[simp] theorem kept_markTable {s0 : State} (s : State) (t : Nat) (epoch : W32) (h_s : Kept s0 s) :
    Kept s0 (markTable s t epoch) := by
  unfold markTable; simp (maxDischargeDepth := 40) +contextual [*]

@[simp] theorem kept_sendMarks {s0 : State} (s : State) (d : Deck) (t : Nat) (epoch : W32) (h_s : Kept s0 s) :
    Kept s0 (sendMarks s d t epoch) := by
  unfold sendMarks; simp (maxDischargeDepth := 40) +contextual [*]

@[simp] theorem kept_realignCount {s0 : State} (s : State) (t : Nat) (epoch tally : W32) (prod cons mark : W64) (queued : Nat)
    (h_s : Kept s0 s) :
    Kept s0 (realignCount s t epoch tally prod cons mark queued).1 := by
  unfold realignCount; simp (maxDischargeDepth := 40) +contextual [*]

@[simp] theorem kept_realignTable {s0 : State} (s : State) (t : Nat) (epoch : W32) (h_s : Kept s0 s) :
    Kept s0 (realignTable s t epoch) := by
  unfold realignTable
  dsimp only
  repeat' (first
    | intro _
    | with_reducible assumption
    | (with_reducible refine kept_ite _ _ _ ?_ ?_)
    | (with_reducible refine kept_ite_fst _ _ _ ?_ ?_)
    | (with_reducible refine kept_ite_snd _ _ _ ?_ ?_)
    | split
    | (simp (maxDischargeDepth := 40) +contextual [*]; done))

@[simp] theorem kept_closeWindow {s0 : State} (s : State) (h_s : Kept s0 s) :
    Kept s0 (closeWindow s) := by
  unfold closeWindow; simp (maxDischargeDepth := 40) +contextual [*]

@[simp] theorem kept_windowFrom {s0 : State} (s : State) (d : Deck) (src : Nat) (h_s : Kept s0 s) :
    Kept s0 (windowFrom s d src) := by
  unfold windowFrom; simp (maxDischargeDepth := 40) +contextual [*]

@[simp] theorem kept_endWindow {s0 : State} (s : State) (h_s : Kept s0 s) :
    Kept s0 (endWindow s) := by
  unfold endWindow
  dsimp only
  repeat' (first
    | intro _
    | with_reducible assumption
    | (with_reducible refine kept_ite _ _ _ ?_ ?_)
    | (with_reducible refine kept_ite_fst _ _ _ ?_ ?_)
    | (with_reducible refine kept_ite_snd _ _ _ ?_ ?_)
    | split
    | (simp (maxDischargeDepth := 40) +contextual [*]; done))

@[simp] theorem kept_workWindow {s0 : State} (s : State) (h_s : Kept s0 s) :
    Kept s0 (workWindow s) := by
  unfold workWindow; simp (maxDischargeDepth := 40) +contextual [*]

@[simp] theorem kept_openWindow {s0 : State} (s : State) (h_s : Kept s0 s) :
    Kept s0 (openWindow s) := by
  unfold openWindow
  dsimp only
  repeat' (first
    | intro _
    | with_reducible assumption
    | (with_reducible refine kept_ite _ _ _ ?_ ?_)
    | (with_reducible refine kept_ite_fst _ _ _ ?_ ?_)
    | (with_reducible refine kept_ite_snd _ _ _ ?_ ?_)
    | split
    | (with_reducible refine kept_foldl _ _ _ ?_ ?_)
    | (with_reducible refine kept_foldl_snd _ _ _ ?_ ?_)
    | (with_reducible refine kept_foldl_fst _ _ _ ?_ ?_)
    | (simp (maxDischargeDepth := 40) +contextual [*]; done))

@[simp] theorem kept_clusterReleased {s0 : State} (s : State) (trick cluster : Nat) (e : W32) (h_s : Kept s0 s) :
    Kept s0 (clusterReleased s trick cluster e) := by
  unfold clusterReleased; simp (maxDischargeDepth := 40) +contextual [*]

@[simp] theorem kept_sendReleases {s0 : State} (s : State) (e : TrickEntry) (h_s : Kept s0 s) :
    Kept s0 (sendReleases s e) := by
  unfold sendReleases; simp (maxDischargeDepth := 40) +contextual [*]

@[simp] theorem kept_afterClose {s0 : State} (s : State) (t : Nat) (h_s : Kept s0 s) :
    Kept s0 (afterClose s t) := by
  unfold afterClose; simp (maxDischargeDepth := 40) +contextual [*]

@[simp] theorem kept_closingRelease {s0 : State} (s : State) (d : Deck) (t : Nat) (epoch : W32) (h_s : Kept s0 s) :
    Kept s0 (closingRelease s d t epoch) := by
  unfold closingRelease; simp (maxDischargeDepth := 40) +contextual [*]

@[simp] theorem kept_releaseTrick {s0 : State} (s : State) (d : Deck) (e : TrickEntry) (h_s : Kept s0 s) :
    Kept s0 (releaseTrick s d e) := by
  unfold releaseTrick; simp (maxDischargeDepth := 40) +contextual [*]

@[simp] theorem kept_checkTrick {s0 : State} (s : State) (d : Deck) (e : TrickEntry) (h_s : Kept s0 s) :
    Kept s0 (checkTrick s d e) := by
  unfold checkTrick
  dsimp only
  repeat' (first
    | intro _
    | with_reducible assumption
    | (with_reducible refine kept_ite _ _ _ ?_ ?_)
    | (with_reducible refine kept_ite_fst _ _ _ ?_ ?_)
    | (with_reducible refine kept_ite_snd _ _ _ ?_ ?_)
    | split
    | (simp (maxDischargeDepth := 40) +contextual [*]; done))

@[simp] theorem kept_addArrived {s0 : State} (s : State) (trick n : Nat) (h_s : Kept s0 s) :
    Kept s0 (addArrived s trick n) := by
  unfold addArrived
  dsimp only
  repeat' (first
    | intro _
    | with_reducible assumption
    | (with_reducible refine kept_ite _ _ _ ?_ ?_)
    | (with_reducible refine kept_ite_fst _ _ _ ?_ ?_)
    | (with_reducible refine kept_ite_snd _ _ _ ?_ ?_)
    | (split <;> (try (rename_i hq; replace hq := KeptOpt.of_eq (s0 := s0) hq (by clear hq; simp (maxDischargeDepth := 40) +contextual [*]))))
    | (simp (maxDischargeDepth := 40) +contextual [*]; done))

@[simp] theorem kept_countPlay {s0 : State} (s : State) (e : TrickEntry) (n : Nat) (h_s : Kept s0 s) :
    Kept s0 (countPlay s e n) := by
  unfold countPlay; simp (maxDischargeDepth := 40) +contextual [*]

@[simp] theorem kept_childArrive {s0 : State} (s : State) (trick : Nat) (h_s : Kept s0 s) :
    Kept s0 (childArrive s trick) := by
  unfold childArrive
  dsimp only
  repeat' (first
    | intro _
    | with_reducible assumption
    | (with_reducible refine kept_ite _ _ _ ?_ ?_)
    | (with_reducible refine kept_ite_fst _ _ _ ?_ ?_)
    | (with_reducible refine kept_ite_snd _ _ _ ?_ ?_)
    | split
    | (simp (maxDischargeDepth := 40) +contextual [*]; done))

end Sys2Proof.Machine
end

