-- ==== Sys2Proof/Laws/Kept/Flags.lean ====
section
/-! SUPPORT. The operations of Flags keep the queue, the canonical form of the array and the fuses that are set. -/

namespace Sys2Proof.Machine

@[simp] theorem kept_nextPlay {s0 : State} (s : State) (n : Nat) (h_s : Kept s0 s) :
    Kept s0 (nextPlay s n) := by
  unfold nextPlay; simp (maxDischargeDepth := 40) +contextual [*]

@[simp] theorem kept_finishPlay {s0 : State} (n : Nat) (y0 : PlayEnd) (h_y0 : KeptEnd s0 (y0)) :
    Kept s0 (finishPlay n y0) := by
  unfold finishPlay
  split <;> simp only [keptEnd_done, keptEnd_moved, keptEnd_wait, keptEnd_fault] at h_y0 <;> simp (maxDischargeDepth := 40) +contextual [*]

@[simp] theorem kept_readWords {s0 : State} (h : PlayHdr) (body : State → Nat → PlayEnd) (s : State) (n : Nat) (h_body : ∀
    (x0 : State) (x1 : Nat), Kept s0 x0 → KeptEnd s0 (body x0 x1)) (h_s : Kept s0 s) :
    KeptEnd s0 (readWords h body s n) := by
  unfold readWords
  repeat' (first
    | intro _
    | with_reducible assumption
    | split
    | (with_reducible refine (keptEnd_fault ..).mpr ?_)
    | (simp (maxDischargeDepth := 40) +contextual [*]; done)
    | dsimp only)

@[simp] theorem kept_issueWith {s0 : State} (s : State) (h : PlayHdr) (skipped body : State → Nat → PlayEnd) (h_skipped : ∀
    (x0 : State) (x1 : Nat), Kept s0 x0 → KeptEnd s0 (skipped x0 x1)) (h_body : ∀ (x0 : State)
    (x1 : Nat), Kept s0 x0 → KeptEnd s0 (body x0 x1)) (h_s : Kept s0 s) :
    KeptOut s0 (issueWith s h skipped body) := by
  unfold issueWith
  dsimp only
  repeat' (first
    | intro _
    | with_reducible assumption
    | (with_reducible refine keptEnd_ite _ _ _ ?_ ?_)
    | (with_reducible refine keptOut_ite _ _ _ ?_ ?_)
    | (with_reducible refine kept_ite _ _ _ ?_ ?_)
    | (with_reducible refine kept_ite_fst _ _ _ ?_ ?_)
    | (with_reducible refine kept_ite_snd _ _ _ ?_ ?_)
    | split
    | (with_reducible refine (keptOut_next _ _).mpr ?_)
    | (simp (maxDischargeDepth := 40) +contextual [*]; done))

@[simp] theorem kept_issue {s0 : State} (s : State) (h : PlayHdr) (body : State → Nat → PlayEnd) (h_body : ∀ (x0 : State)
    (x1 : Nat), Kept s0 x0 → KeptEnd s0 (body x0 x1)) (h_s : Kept s0 s) :
    KeptOut s0 (issue s h body) := by
  unfold issue
  exact kept_issueWith s h _ body (fun _ _ h => h) h_body h_s

end Sys2Proof.Machine
end

