-- ==== Sys2Proof/Laws/Kept/Tensor.lean ====
section
/-! SUPPORT. The operations of Tensor keep the queue, the canonical form of the array and the fuses that are set. -/

namespace Sys2Proof.Machine

@[simp] theorem kept_bad {s0 : State} (s : State) (e : Ev) (h_s : Kept s0 s) :
    KeptEnd s0 (bad s e) := by
  unfold bad; simp (maxDischargeDepth := 40) +contextual [*]

@[simp] theorem kept_rangeEnd {s0 : State} (s : State) (n : Nat) (ds : List Desc) (ok : State → PlayEnd) (h_ok : ∀
    (x0 : State), Kept s0 x0 → KeptEnd s0 (ok x0)) (h_s : Kept s0 s) :
    KeptEnd s0 (rangeEnd s n ds ok) := by
  unfold rangeEnd
  repeat' (first
    | intro _
    | with_reducible assumption
    | (split <;> (try (rename_i hq; replace hq := KeptOpt.of_eq (s0 := s0) hq (by clear hq; simp (maxDischargeDepth := 40) +contextual [*]))))
    | (with_reducible refine (keptEnd_wait ..).mpr ?_)
    | (with_reducible refine (keptEnd_fault ..).mpr ?_)
    | (simp (maxDischargeDepth := 40) +contextual [*]; done)
    | dsimp only)

@[simp] theorem kept_setTile {s0 : State} (s : State) (n acc : Nat) (t : Tile) (h_s : Kept s0 s) :
    Kept s0 (setTile s n acc t) := by
  unfold setTile; simp (maxDischargeDepth := 40) +contextual [*]

@[simp] theorem kept_putTile {s0 : State} (s : State) (n acc : Nat) (t : Tile) (y0 : List (Nat × W32 × Bool))
    (h_s : Kept s0 s) :
    Kept s0 (putTile s n acc t y0) := by
  induction y0 generalizing s n acc t with
  | nil => simp [putTile, *]
  | cons a r ih =>
    unfold putTile; (repeat' split) <;> simp (maxDischargeDepth := 40) +contextual [*]

@[simp] theorem kept_execTmma {s0 : State} (h : PlayHdr) (f : FmtT) (s : State) (h_s : Kept s0 s) :
    KeptOut s0 (execTmma h f s) := by
  unfold execTmma
  dsimp only
  repeat' (first
    | intro _
    | with_reducible assumption
    | (with_reducible refine keptEnd_ite _ _ _ ?_ ?_)
    | (with_reducible refine keptOut_ite _ _ _ ?_ ?_)
    | (with_reducible refine kept_ite _ _ _ ?_ ?_)
    | (with_reducible refine kept_ite_fst _ _ _ ?_ ?_)
    | (with_reducible refine kept_ite_snd _ _ _ ?_ ?_)
    | split
    | (with_reducible refine (keptOut_next _ _).mpr ?_)
    | (with_reducible apply kept_issue)
    | (with_reducible apply kept_rangeEnd)
    | (simp (maxDischargeDepth := 40) +contextual [*]; done))

@[simp] theorem kept_execTzero {s0 : State} (h : PlayHdr) (f : FmtT) (s : State) (h_s : Kept s0 s) :
    KeptOut s0 (execTzero h f s) := by
  unfold execTzero
  repeat' (first
    | intro _
    | with_reducible assumption
    | split
    | (with_reducible refine (keptOut_next _ _).mpr ?_)
    | (with_reducible apply kept_issue)
    | (simp (maxDischargeDepth := 40) +contextual [*]; done)
    | dsimp only)

@[simp] theorem kept_execTout {s0 : State} (h : PlayHdr) (f : FmtT) (s : State) (h_s : Kept s0 s) :
    KeptOut s0 (execTout h f s) := by
  unfold execTout
  dsimp only
  repeat' (first
    | intro _
    | with_reducible assumption
    | (with_reducible refine keptEnd_ite _ _ _ ?_ ?_)
    | (with_reducible refine keptOut_ite _ _ _ ?_ ?_)
    | (with_reducible refine kept_ite _ _ _ ?_ ?_)
    | (with_reducible refine kept_ite_fst _ _ _ ?_ ?_)
    | (with_reducible refine kept_ite_snd _ _ _ ?_ ?_)
    | split
    | (with_reducible refine (keptOut_next _ _).mpr ?_)
    | (with_reducible apply kept_issue)
    | (with_reducible apply kept_rangeEnd)
    | (simp (maxDischargeDepth := 40) +contextual [*]; done))

@[simp] theorem kept_execTload {s0 : State} (h : PlayHdr) (f : FmtT) (s : State) (h_s : Kept s0 s) :
    KeptOut s0 (execTload h f s) := by
  unfold execTload
  dsimp only
  repeat' (first
    | intro _
    | with_reducible assumption
    | (with_reducible refine keptEnd_ite _ _ _ ?_ ?_)
    | (with_reducible refine keptOut_ite _ _ _ ?_ ?_)
    | (with_reducible refine kept_ite _ _ _ ?_ ?_)
    | (with_reducible refine kept_ite_fst _ _ _ ?_ ?_)
    | (with_reducible refine kept_ite_snd _ _ _ ?_ ?_)
    | split
    | (with_reducible refine (keptOut_next _ _).mpr ?_)
    | (with_reducible apply kept_issue)
    | (with_reducible apply kept_rangeEnd)
    | (simp (maxDischargeDepth := 40) +contextual [*]; done))

end Sys2Proof.Machine
end

