-- ==== Sys2Proof/Laws/Kept/Mover.lean ====
section
/-! SUPPORT. The operations of Mover keep the queue, the canonical form of the array and the fuses that are set. -/

namespace Sys2Proof.Machine

@[simp] theorem kept_execMcopy {s0 : State} (h : PlayHdr) (f : FmtT) (s : State) (h_s : Kept s0 s) :
    KeptOut s0 (execMcopy h f s) := by
  unfold execMcopy
  dsimp only
  repeat' (first
    | intro _
    | with_reducible assumption
    | (with_reducible refine keptEnd_ite _ _ _ ?_ ?_)
    | (with_reducible refine keptOut_ite _ _ _ ?_ ?_)
    | (with_reducible refine kept_ite _ _ _ ?_ ?_)
    | (with_reducible refine kept_ite_fst _ _ _ ?_ ?_)
    | (with_reducible refine kept_ite_snd _ _ _ ?_ ?_)
    | (split <;> (try (rename_i hq; replace hq := KeptOpt.of_eq (s0 := s0) hq (by clear hq; simp (maxDischargeDepth := 40) +contextual [*]))))
    | (with_reducible refine (keptOut_next _ _).mpr ?_)
    | (with_reducible apply kept_issue)
    | (with_reducible apply kept_rangeEnd)
    | (simp (maxDischargeDepth := 40) +contextual [*]; done))

@[simp] theorem kept_execMfill {s0 : State} (h : PlayHdr) (f : FmtT) (s : State) (h_s : Kept s0 s) :
    KeptOut s0 (execMfill h f s) := by
  unfold execMfill
  dsimp only
  repeat' (first
    | intro _
    | with_reducible assumption
    | (with_reducible refine keptEnd_ite _ _ _ ?_ ?_)
    | (with_reducible refine keptOut_ite _ _ _ ?_ ?_)
    | (with_reducible refine kept_ite _ _ _ ?_ ?_)
    | (with_reducible refine kept_ite_fst _ _ _ ?_ ?_)
    | (with_reducible refine kept_ite_snd _ _ _ ?_ ?_)
    | split
    | (with_reducible refine (keptOut_next _ _).mpr ?_)
    | (with_reducible apply kept_issue)
    | (with_reducible apply kept_rangeEnd)
    | (simp (maxDischargeDepth := 40) +contextual [*]; done))

@[simp] theorem kept_redElems {s0 : State} (s : State) (op : Nat) (c : Desc) (vals : List RdElem) (h_s : Kept s0 s) :
    Kept s0 (redElems s op c vals) := by
  unfold redElems; simp (maxDischargeDepth := 40) +contextual [*]

@[simp] theorem kept_execMred {s0 : State} (h : PlayHdr) (f : FmtT) (s : State) (h_s : Kept s0 s) :
    KeptOut s0 (execMred h f s) := by
  unfold execMred
  dsimp only
  repeat' (first
    | intro _
    | with_reducible assumption
    | (with_reducible refine keptEnd_ite _ _ _ ?_ ?_)
    | (with_reducible refine keptOut_ite _ _ _ ?_ ?_)
    | (with_reducible refine kept_ite _ _ _ ?_ ?_)
    | (with_reducible refine kept_ite_fst _ _ _ ?_ ?_)
    | (with_reducible refine kept_ite_snd _ _ _ ?_ ?_)
    | (split <;> (try (rename_i hq; replace hq := KeptOpt.of_eq (s0 := s0) hq (by clear hq; simp (maxDischargeDepth := 40) +contextual [*]))))
    | (with_reducible refine (keptOut_next _ _).mpr ?_)
    | (with_reducible refine kept_foldl _ _ _ ?_ ?_)
    | (with_reducible refine kept_foldl_snd _ _ _ ?_ ?_)
    | (with_reducible refine kept_foldl_fst _ _ _ ?_ ?_)
    | (with_reducible apply kept_issue)
    | (with_reducible apply kept_rangeEnd)
    | (simp (maxDischargeDepth := 40) +contextual [*]; done))

@[simp] theorem kept_addrEnd {s0 : State} (s : State) (n : Nat) (r : Nat) (a : W64) (len align : Nat) (dev : Bool)
    (ok : Nat → PlayEnd) (h_ok : ∀ (x0 : Nat), KeptEnd s0 (ok x0)) (h_s : Kept s0 s) :
    KeptEnd s0 (addrEnd s n r a len align dev ok) := by
  unfold addrEnd
  repeat' (first
    | intro _
    | with_reducible assumption
    | (with_reducible refine keptEnd_ite _ _ _ ?_ ?_)
    | (with_reducible refine kept_ite _ _ _ ?_ ?_)
    | (split <;> (try (rename_i hq; replace hq := KeptOpt.of_eq (s0 := s0) hq (by clear hq; simp (maxDischargeDepth := 40) +contextual [*]))))
    | (with_reducible refine (keptEnd_wait ..).mpr ?_)
    | (with_reducible refine (keptEnd_fault ..).mpr ?_)
    | (simp (maxDischargeDepth := 40) +contextual [*]; done)
    | dsimp only)

@[simp] theorem kept_execMlds {s0 : State} (h : PlayHdr) (f : FmtT) (s : State) (h_s : Kept s0 s) :
    KeptOut s0 (execMlds h f s) := by
  unfold execMlds
  repeat' (first
    | intro _
    | with_reducible assumption
    | (extract_lets +onlyGivenNames x; clear_value (hxe : x = _); (try (have hx : Kept s0 x := by (rw [hxe]; simp (maxDischargeDepth := 40) +contextual [*]))); (try (have hx : Kept s0 x.2 := by (rw [hxe]; simp (maxDischargeDepth := 40) +contextual [*]))); (try (have hx : Kept s0 x.1 := by (rw [hxe]; simp (maxDischargeDepth := 40) +contextual [*]))); (try (have hx : KeptOpt s0 x := by (rw [hxe]; simp (maxDischargeDepth := 40) +contextual [*]))); (try (have hx : KeptOut s0 x := by (rw [hxe]; simp (maxDischargeDepth := 40) +contextual [*]))); (try (have hx : KeptEnd s0 x := by (rw [hxe]; simp (maxDischargeDepth := 40) +contextual [*]))); clear hxe)
    | split
    | (with_reducible refine (keptOut_next _ _).mpr ?_)
    | (with_reducible apply kept_issue)
    | (with_reducible apply kept_addrEnd)
    | (simp (maxDischargeDepth := 40) +contextual [*]; done))

@[simp] theorem kept_execMsts {s0 : State} (h : PlayHdr) (f : FmtT) (s : State) (h_s : Kept s0 s) :
    KeptOut s0 (execMsts h f s) := by
  unfold execMsts
  repeat' (first
    | intro _
    | with_reducible assumption
    | (extract_lets +onlyGivenNames x; clear_value (hxe : x = _); (try (have hx : Kept s0 x := by (rw [hxe]; simp (maxDischargeDepth := 40) +contextual [*]))); (try (have hx : Kept s0 x.2 := by (rw [hxe]; simp (maxDischargeDepth := 40) +contextual [*]))); (try (have hx : Kept s0 x.1 := by (rw [hxe]; simp (maxDischargeDepth := 40) +contextual [*]))); (try (have hx : KeptOut s0 x := by (rw [hxe]; simp (maxDischargeDepth := 40) +contextual [*]))); (try (have hx : KeptEnd s0 x := by (rw [hxe]; simp (maxDischargeDepth := 40) +contextual [*]))); clear hxe)
    | (with_reducible refine keptEnd_ite _ _ _ ?_ ?_)
    | (with_reducible refine keptOut_ite _ _ _ ?_ ?_)
    | (with_reducible refine kept_ite _ _ _ ?_ ?_)
    | (with_reducible refine kept_ite_fst _ _ _ ?_ ?_)
    | (with_reducible refine kept_ite_snd _ _ _ ?_ ?_)
    | split
    | (with_reducible refine (keptOut_next _ _).mpr ?_)
    | (with_reducible apply kept_issue)
    | (with_reducible apply kept_addrEnd)
    | (simp (maxDischargeDepth := 40) +contextual [*]; done))

@[simp] theorem kept_execMatom {s0 : State} (h : PlayHdr) (f : FmtT) (s : State) (h_s : Kept s0 s) :
    KeptOut s0 (execMatom h f s) := by
  unfold execMatom
  repeat' (first
    | intro _
    | with_reducible assumption
    | (with_reducible refine keptEnd_ite _ _ _ ?_ ?_)
    | (with_reducible refine keptOut_ite _ _ _ ?_ ?_)
    | (with_reducible refine kept_ite _ _ _ ?_ ?_)
    | (with_reducible refine kept_ite_fst _ _ _ ?_ ?_)
    | (with_reducible refine kept_ite_snd _ _ _ ?_ ?_)
    | split
    | (with_reducible refine (keptOut_next _ _).mpr ?_)
    | (with_reducible apply kept_issue)
    | (with_reducible apply kept_addrEnd)
    | (simp (maxDischargeDepth := 40) +contextual [*]; done)
    | dsimp only)

@[simp] theorem kept_setDesc {s0 : State} (s : State) (n slot : Nat) (d : BitVec 1024) (h_s : Kept s0 s) :
    Kept s0 (setDesc s n slot d) := by
  unfold setDesc; simp (maxDischargeDepth := 40) +contextual [*]

@[simp] theorem kept_execDload {s0 : State} (h : PlayHdr) (f : FmtT) (s : State) (h_s : Kept s0 s) :
    KeptOut s0 (execDload h f s) := by
  unfold execDload
  repeat' (first
    | intro _
    | with_reducible assumption
    | (extract_lets +onlyGivenNames x; clear_value (hxe : x = _); (try (have hx : Kept s0 x := by (rw [hxe]; simp (maxDischargeDepth := 40) +contextual [*]))); (try (have hx : Kept s0 x.2 := by (rw [hxe]; simp (maxDischargeDepth := 40) +contextual [*]))); (try (have hx : Kept s0 x.1 := by (rw [hxe]; simp (maxDischargeDepth := 40) +contextual [*]))); (try (have hx : KeptOpt s0 x := by (rw [hxe]; simp (maxDischargeDepth := 40) +contextual [*]))); (try (have hx : KeptOut s0 x := by (rw [hxe]; simp (maxDischargeDepth := 40) +contextual [*]))); (try (have hx : KeptEnd s0 x := by (rw [hxe]; simp (maxDischargeDepth := 40) +contextual [*]))); clear hxe)
    | (with_reducible refine keptEnd_ite _ _ _ ?_ ?_)
    | (with_reducible refine keptOut_ite _ _ _ ?_ ?_)
    | (with_reducible refine kept_ite _ _ _ ?_ ?_)
    | (with_reducible refine kept_ite_fst _ _ _ ?_ ?_)
    | (with_reducible refine kept_ite_snd _ _ _ ?_ ?_)
    | split
    | (with_reducible refine (keptOut_next _ _).mpr ?_)
    | (with_reducible apply kept_issue)
    | (with_reducible apply kept_addrEnd)
    | (simp (maxDischargeDepth := 40) +contextual [*]; done))

@[simp] theorem kept_execDbase {s0 : State} (h : PlayHdr) (f : FmtT) (s : State) (h_s : Kept s0 s) :
    KeptOut s0 (execDbase h f s) := by
  unfold execDbase
  dsimp only
  repeat' (first
    | intro _
    | with_reducible assumption
    | (with_reducible refine keptEnd_ite _ _ _ ?_ ?_)
    | (with_reducible refine keptOut_ite _ _ _ ?_ ?_)
    | (with_reducible refine kept_ite _ _ _ ?_ ?_)
    | (with_reducible refine kept_ite_fst _ _ _ ?_ ?_)
    | (with_reducible refine kept_ite_snd _ _ _ ?_ ?_)
    | split
    | (with_reducible refine (keptOut_next _ _).mpr ?_)
    | (with_reducible apply kept_issue)
    | (simp (maxDischargeDepth := 40) +contextual [*]; done))

@[simp] theorem kept_stopWaiters {s0 : State} (s : State) (stream : Nat) (h_s : Kept s0 s) :
    Kept s0 (stopWaiters s stream) := by
  unfold stopWaiters; simp (maxDischargeDepth := 40) +contextual [*]

@[simp] theorem kept_stopStream {s0 : State} (s : State) (e : StreamEntry) (code : W32) (h_s : Kept s0 s) :
    Kept s0 (stopStream s e code) := by
  unfold stopStream; simp (maxDischargeDepth := 40) +contextual [*]

@[simp] theorem kept_streamFault {s0 : State} (s : State) (n : Nat) (e : StreamEntry) (ev : Ev) (h_s : Kept s0 s) :
    KeptEnd s0 (streamFault s n e ev) := by
  unfold streamFault; simp (maxDischargeDepth := 40) +contextual [*]

@[simp] theorem kept_sendPush {s0 : State} (s : State) (e : StreamEntry) (units : Nat) (runs : List (Nat × List
    (Byte × Bool))) (h_s : Kept s0 s) :
    Kept s0 (sendPush s e units runs) := by
  unfold sendPush; simp (maxDischargeDepth := 40) +contextual [*]

@[simp] theorem kept_execMpush {s0 : State} (h : PlayHdr) (f : FmtT) (s : State) (h_s : Kept s0 s) :
    KeptOut s0 (execMpush h f s) := by
  unfold execMpush
  repeat' (first
    | intro _
    | with_reducible assumption
    | (extract_lets +onlyGivenNames x; clear_value (hxe : x = _); (try (have hx : Kept s0 x := by (rw [hxe]; simp (maxDischargeDepth := 40) +contextual [*]))); (try (have hx : Kept s0 x.2 := by (rw [hxe]; simp (maxDischargeDepth := 40) +contextual [*]))); (try (have hx : Kept s0 x.1 := by (rw [hxe]; simp (maxDischargeDepth := 40) +contextual [*]))); (try (have hx : KeptOpt s0 x := by (rw [hxe]; simp (maxDischargeDepth := 40) +contextual [*]))); (try (have hx : KeptOut s0 x := by (rw [hxe]; simp (maxDischargeDepth := 40) +contextual [*]))); (try (have hx : KeptEnd s0 x := by (rw [hxe]; simp (maxDischargeDepth := 40) +contextual [*]))); clear hxe)
    | (with_reducible refine keptEnd_ite _ _ _ ?_ ?_)
    | (with_reducible refine keptOut_ite _ _ _ ?_ ?_)
    | (with_reducible refine kept_ite _ _ _ ?_ ?_)
    | (with_reducible refine kept_ite_fst _ _ _ ?_ ?_)
    | (with_reducible refine kept_ite_snd _ _ _ ?_ ?_)
    | split
    | (with_reducible refine (keptOut_next _ _).mpr ?_)
    | (with_reducible apply kept_issue)
    | (with_reducible apply kept_rangeEnd)
    | (simp (maxDischargeDepth := 40) +contextual [*]; done))

end Sys2Proof.Machine
end

