-- ==== Sys2Proof/Laws/Kept/Sync.lean ====
section
/-! SUPPORT. The operations of Sync keep the queue, the canonical form of the array and the fuses that are set. -/

namespace Sys2Proof.Machine

@[simp] theorem kept_rcEmpty {s0 : State} (s : State) (n : Nat) (h_s : Kept s0 s) :
    Kept s0 (rcEmpty s n) := by
  unfold rcEmpty; simp (maxDischargeDepth := 40) +contextual [*]

@[simp] theorem kept_setRecord {s0 : State} (s : State) (n trick : Nat) (h_s : Kept s0 s) :
    Kept s0 (setRecord s n trick) := by
  unfold setRecord; simp (maxDischargeDepth := 40) +contextual [*]

@[simp] theorem kept_playTrick {s0 : State} (s : State) (n trick : Nat) (play : TrickEntry → PlayEnd) (h_play : ∀
    (x0 : TrickEntry), KeptEnd s0 (play x0)) (h_s : Kept s0 s) :
    KeptEnd s0 (playTrick s n trick play) := by
  unfold playTrick
  repeat' (first
    | intro _
    | with_reducible assumption
    | (with_reducible refine keptEnd_ite _ _ _ ?_ ?_)
    | (with_reducible refine kept_ite _ _ _ ?_ ?_)
    | split
    | (with_reducible refine (keptEnd_wait ..).mpr ?_)
    | (with_reducible refine (keptEnd_moved ..).mpr ?_)
    | (simp (maxDischargeDepth := 40) +contextual [*]; done)
    | dsimp only)

@[simp] theorem kept_execTplay {s0 : State} (h : PlayHdr) (f : FmtY) (s : State) (h_s : Kept s0 s) :
    KeptOut s0 (execTplay h f s) := by
  unfold execTplay
  repeat' (first
    | intro _
    | with_reducible assumption
    | split
    | (with_reducible refine (keptOut_next _ _).mpr ?_)
    | (with_reducible apply kept_issue)
    | (with_reducible apply kept_playTrick)
    | (simp (maxDischargeDepth := 40) +contextual [*]; done)
    | dsimp only)

@[simp] theorem kept_awaitTrick {s0 : State} (s : State) (n trick : Nat) (inv : Bool) (h_s : Kept s0 s) :
    KeptEnd s0 (awaitTrick s n trick inv) := by
  unfold awaitTrick
  repeat' (first
    | intro _
    | with_reducible assumption
    | (with_reducible refine keptEnd_ite _ _ _ ?_ ?_)
    | (with_reducible refine kept_ite _ _ _ ?_ ?_)
    | split
    | (with_reducible refine (keptEnd_done ..).mpr ?_)
    | (with_reducible refine (keptEnd_wait ..).mpr ?_)
    | (simp (maxDischargeDepth := 40) +contextual [*]; done)
    | dsimp only)

@[simp] theorem kept_execTwait {s0 : State} (h : PlayHdr) (f : FmtY) (s : State) (h_s : Kept s0 s) :
    KeptOut s0 (execTwait h f s) := by
  unfold execTwait; simp (maxDischargeDepth := 40) +contextual [*]

@[simp] theorem kept_execTpw {s0 : State} (h : PlayHdr) (f : FmtY) (s : State) (h_s : Kept s0 s) :
    KeptOut s0 (execTpw h f s) := by
  unfold execTpw
  dsimp only
  repeat' (first
    | intro _
    | with_reducible assumption
    | (with_reducible refine keptEnd_ite _ _ _ ?_ ?_)
    | (with_reducible refine keptOut_ite _ _ _ ?_ ?_)
    | (with_reducible refine kept_ite _ _ _ ?_ ?_)
    | (with_reducible refine kept_ite_fst _ _ _ ?_ ?_)
    | (with_reducible refine kept_ite_snd _ _ _ ?_ ?_)
    | split
    | (with_reducible refine (keptOut_next _ _).mpr ?_)
    | (with_reducible apply kept_issue)
    | (with_reducible apply kept_playTrick)
    | (simp (maxDischargeDepth := 40) +contextual [*]; done))

@[simp] theorem kept_execCtake {s0 : State} (h : PlayHdr) (f : FmtY) (s : State) (h_s : Kept s0 s) :
    KeptOut s0 (execCtake h f s) := by
  unfold execCtake
  dsimp only
  repeat' (first
    | intro _
    | with_reducible assumption
    | (with_reducible refine keptEnd_ite _ _ _ ?_ ?_)
    | (with_reducible refine keptOut_ite _ _ _ ?_ ?_)
    | (with_reducible refine kept_ite _ _ _ ?_ ?_)
    | (with_reducible refine kept_ite_fst _ _ _ ?_ ?_)
    | (with_reducible refine kept_ite_snd _ _ _ ?_ ?_)
    | split
    | (with_reducible refine (keptOut_next _ _).mpr ?_)
    | (with_reducible apply kept_issue)
    | (simp (maxDischargeDepth := 40) +contextual [*]; done))

@[simp] theorem kept_execCsend {s0 : State} (h : PlayHdr) (f : FmtY) (s : State) (h_s : Kept s0 s) :
    KeptOut s0 (execCsend h f s) := by
  unfold execCsend
  dsimp only
  repeat' (first
    | intro _
    | with_reducible assumption
    | (with_reducible refine keptEnd_ite _ _ _ ?_ ?_)
    | (with_reducible refine keptOut_ite _ _ _ ?_ ?_)
    | (with_reducible refine kept_ite _ _ _ ?_ ?_)
    | (with_reducible refine kept_ite_fst _ _ _ ?_ ?_)
    | (with_reducible refine kept_ite_snd _ _ _ ?_ ?_)
    | split
    | (with_reducible refine (keptOut_next _ _).mpr ?_)
    | (with_reducible apply kept_issue)
    | (simp (maxDischargeDepth := 40) +contextual [*]; done))

@[simp] theorem kept_execAcq {s0 : State} (h : PlayHdr) (f : FmtY) (s : State) (h_s : Kept s0 s) :
    KeptOut s0 (execAcq h f s) := by
  unfold execAcq
  dsimp only
  repeat' (first
    | intro _
    | with_reducible assumption
    | split
    | (with_reducible refine (keptOut_next _ _).mpr ?_)
    | (with_reducible apply kept_issue)
    | (with_reducible apply kept_addrEnd)
    | (simp (maxDischargeDepth := 40) +contextual [*]; done))

@[simp] theorem kept_execRel {s0 : State} (h : PlayHdr) (f : FmtY) (s : State) (h_s : Kept s0 s) :
    KeptOut s0 (execRel h f s) := by
  unfold execRel
  dsimp only
  repeat' (first
    | intro _
    | with_reducible assumption
    | (with_reducible refine keptEnd_ite _ _ _ ?_ ?_)
    | (with_reducible refine keptOut_ite _ _ _ ?_ ?_)
    | (with_reducible refine kept_ite _ _ _ ?_ ?_)
    | (with_reducible refine kept_ite_fst _ _ _ ?_ ?_)
    | (with_reducible refine kept_ite_snd _ _ _ ?_ ?_)
    | split
    | (with_reducible refine (keptOut_next _ _).mpr ?_)
    | (with_reducible apply kept_issue)
    | (with_reducible apply kept_addrEnd)
    | (simp (maxDischargeDepth := 40) +contextual [*]; done))

@[simp] theorem kept_execPoll {s0 : State} (h : PlayHdr) (f : FmtY) (s : State) (h_s : Kept s0 s) :
    KeptOut s0 (execPoll h f s) := by
  unfold execPoll
  dsimp only
  repeat' (first
    | intro _
    | with_reducible assumption
    | (with_reducible refine keptEnd_ite _ _ _ ?_ ?_)
    | (with_reducible refine keptOut_ite _ _ _ ?_ ?_)
    | (with_reducible refine kept_ite _ _ _ ?_ ?_)
    | (with_reducible refine kept_ite_fst _ _ _ ?_ ?_)
    | (with_reducible refine kept_ite_snd _ _ _ ?_ ?_)
    | (split <;> (try (rename_i hq; replace hq := KeptOpt.of_eq (s0 := s0) hq (by clear hq; simp (maxDischargeDepth := 40) +contextual [*]))))
    | (with_reducible refine (keptOut_next _ _).mpr ?_)
    | (with_reducible apply kept_issue)
    | (with_reducible apply kept_addrEnd)
    | (simp (maxDischargeDepth := 40) +contextual [*]; done))

@[simp] theorem kept_execFence {s0 : State} (h : PlayHdr) (_f : FmtY) (s : State) (h_s : Kept s0 s) :
    KeptOut s0 (execFence h _f s) := by
  unfold execFence
  repeat' (first
    | intro _
    | with_reducible assumption
    | (with_reducible refine keptEnd_ite _ _ _ ?_ ?_)
    | (with_reducible refine keptOut_ite _ _ _ ?_ ?_)
    | (with_reducible refine kept_ite _ _ _ ?_ ?_)
    | split
    | (with_reducible refine (keptOut_next _ _).mpr ?_)
    | (with_reducible apply kept_issue)
    | (simp (maxDischargeDepth := 40) +contextual [*]; done)
    | dsimp only)

@[simp] theorem kept_execInvr {s0 : State} (h : PlayHdr) (f : FmtY) (s : State) (h_s : Kept s0 s) :
    KeptOut s0 (execInvr h f s) := by
  unfold execInvr
  repeat' (first
    | intro _
    | with_reducible assumption
    | (with_reducible refine keptEnd_ite _ _ _ ?_ ?_)
    | (with_reducible refine keptOut_ite _ _ _ ?_ ?_)
    | (with_reducible refine kept_ite _ _ _ ?_ ?_)
    | split
    | (with_reducible refine (keptOut_next _ _).mpr ?_)
    | (with_reducible refine kept_foldl _ _ _ ?_ ?_)
    | (with_reducible refine kept_foldl_snd _ _ _ ?_ ?_)
    | (with_reducible refine kept_foldl_fst _ _ _ ?_ ?_)
    | (with_reducible apply kept_issue)
    | (with_reducible apply kept_rangeEnd)
    | (simp (maxDischargeDepth := 40) +contextual [*]; done)
    | dsimp only)

end Sys2Proof.Machine
end

