-- ==== Sys2Proof/Laws/Kept/BankPlays.lean ====
section
/-! SUPPORT. The operations of BankPlays keep the queue, the canonical form of the array and the fuses that are set. -/

namespace Sys2Proof.Machine

@[simp] theorem kept_dropLatch {s0 : State} (s : State) (stack : Nat) (p : Script) (e : Ev) (n : Nat) (h_s : Kept s0 s) :
    Kept s0 (dropLatch s stack p e n) := by
  unfold dropLatch; simp (maxDischargeDepth := 40) +contextual [*]

@[simp] theorem kept_execBlatch {s0 : State} (h : PlayHdr) (f : FmtB) (s : State) (h_s : Kept s0 s) :
    KeptOut s0 (execBlatch h f s) := by
  unfold execBlatch
  dsimp only
  repeat' (first
    | intro _
    | with_reducible assumption
    | (with_reducible refine keptEnd_ite _ _ _ ?_ ?_)
    | (with_reducible refine keptOut_ite _ _ _ ?_ ?_)
    | (with_reducible refine kept_ite _ _ _ ?_ ?_)
    | (with_reducible refine kept_ite_fst _ _ _ ?_ ?_)
    | (with_reducible refine kept_ite_snd _ _ _ ?_ ?_)
    | split
    | (with_reducible refine (keptOut_next _ _).mpr ?_)
    | (with_reducible apply kept_issue)
    | (with_reducible apply kept_rangeEnd)
    | (simp (maxDischargeDepth := 40) +contextual [*]; done))

@[simp] theorem kept_doutEnd {s0 : State} (s : State) (n : Nat) (p : Script) (slot : Nat) (ok : State → PlayEnd) (h_ok : ∀
    (x0 : State), Kept s0 x0 → KeptEnd s0 (ok x0)) (h_s : Kept s0 s) :
    KeptEnd s0 (doutEnd s n p slot ok) := by
  unfold doutEnd
  repeat' (first
    | intro _
    | with_reducible assumption
    | (with_reducible refine keptEnd_ite _ _ _ ?_ ?_)
    | (with_reducible refine kept_ite _ _ _ ?_ ?_)
    | split
    | (with_reducible refine (keptEnd_moved ..).mpr ?_)
    | (with_reducible apply kept_rangeEnd)
    | (simp (maxDischargeDepth := 40) +contextual [*]; done)
    | dsimp only)

@[simp] theorem kept_startScript {s0 : State} (s : State) (n : Nat) (p : Script) (f : FmtB) (h_s : Kept s0 s) :
    Kept s0 (startScript s n p f) := by
  unfold startScript; simp (maxDischargeDepth := 40) +contextual [*]

@[simp] theorem kept_execBissue {s0 : State} (h : PlayHdr) (f : FmtB) (s : State) (h_s : Kept s0 s) :
    KeptOut s0 (execBissue h f s) := by
  unfold execBissue
  dsimp only
  repeat' (first
    | intro _
    | with_reducible assumption
    | (with_reducible refine keptEnd_ite _ _ _ ?_ ?_)
    | (with_reducible refine keptOut_ite _ _ _ ?_ ?_)
    | (with_reducible refine kept_ite _ _ _ ?_ ?_)
    | (with_reducible refine kept_ite_fst _ _ _ ?_ ?_)
    | (with_reducible refine kept_ite_snd _ _ _ ?_ ?_)
    | split
    | (with_reducible refine (keptOut_next _ _).mpr ?_)
    | (with_reducible apply kept_issue)
    | (with_reducible apply kept_doutEnd)
    | (simp (maxDischargeDepth := 40) +contextual [*]; done))

@[simp] theorem kept_takeStatus {s0 : State} (s : State) (n ticket sd : Nat) (status : Nat) (h_s : Kept s0 s) :
    KeptEnd s0 (takeStatus s n ticket sd status) := by
  unfold takeStatus; simp (maxDischargeDepth := 40) +contextual [*]

@[simp] theorem kept_execBawait {s0 : State} (h : PlayHdr) (f : FmtB) (s : State) (h_s : Kept s0 s) :
    KeptOut s0 (execBawait h f s) := by
  unfold execBawait
  repeat' (first
    | intro _
    | with_reducible assumption
    | split
    | (with_reducible refine (keptOut_next _ _).mpr ?_)
    | (with_reducible apply kept_issue)
    | (simp (maxDischargeDepth := 40) +contextual [*]; done)
    | dsimp only)

@[simp] theorem kept_execBabort {s0 : State} (h : PlayHdr) (f : FmtB) (s : State) (h_s : Kept s0 s) :
    KeptOut s0 (execBabort h f s) := by
  unfold execBabort
  dsimp only
  repeat' (first
    | intro _
    | with_reducible assumption
    | (with_reducible refine keptEnd_ite _ _ _ ?_ ?_)
    | (with_reducible refine keptOut_ite _ _ _ ?_ ?_)
    | (with_reducible refine kept_ite _ _ _ ?_ ?_)
    | (with_reducible refine kept_ite_fst _ _ _ ?_ ?_)
    | (with_reducible refine kept_ite_snd _ _ _ ?_ ?_)
    | split
    | (with_reducible refine (keptOut_next _ _).mpr ?_)
    | (with_reducible apply kept_issue)
    | (simp (maxDischargeDepth := 40) +contextual [*]; done))

end Sys2Proof.Machine
end

