-- ==== Sys2Proof/Laws/Kept/Scripts.lean ====
section
/-! SUPPORT. The operations of Scripts keep the queue, the canonical form of the array and the fuses that are set. -/

namespace Sys2Proof.Machine

@[simp] theorem kept_landRow {s0 : State} (s : State) (stack : Nat) (x : BusXfer) (d : Nat × Nat) (h_s : Kept s0 s) :
    Kept s0 (landRow s stack x d) := by
  unfold landRow
  dsimp only
  repeat' (first
    | intro _
    | with_reducible assumption
    | split
    | (simp (maxDischargeDepth := 40) +contextual [*]; done))

@[simp] theorem kept_execExchangeBusTransferDone {s0 : State} (stack : Fin 8) (s : State) (h_s : Kept s0 s) :
    KeptOut s0 (execExchangeBusTransferDone stack s) := by
  unfold execExchangeBusTransferDone
  dsimp only
  repeat' (first
    | intro _
    | with_reducible assumption
    | (with_reducible refine keptEnd_ite _ _ _ ?_ ?_)
    | (with_reducible refine keptOut_ite _ _ _ ?_ ?_)
    | (with_reducible refine kept_ite _ _ _ ?_ ?_)
    | (with_reducible refine kept_ite_fst _ _ _ ?_ ?_)
    | (with_reducible refine kept_ite_snd _ _ _ ?_ ?_)
    | split
    | (with_reducible refine (keptOut_next _ _).mpr ?_)
    | (with_reducible refine kept_foldl _ _ _ ?_ ?_)
    | (with_reducible refine kept_foldl_snd _ _ _ ?_ ?_)
    | (with_reducible refine kept_foldl_fst _ _ _ ?_ ?_)
    | (simp (maxDischargeDepth := 40) +contextual [*]; done))

@[simp] theorem kept_landResult {s0 : State} (s : State) (n : Nat) (r : ScriptRun) (h_s : Kept s0 s) :
    Kept s0 (landResult s n r) := by
  unfold landResult
  dsimp only
  repeat' (first
    | intro _
    | with_reducible assumption
    | (with_reducible refine kept_ite _ _ _ ?_ ?_)
    | (with_reducible refine kept_ite_fst _ _ _ ?_ ?_)
    | (with_reducible refine kept_ite_snd _ _ _ ?_ ?_)
    | split
    | (simp (maxDischargeDepth := 40) +contextual [*]; done))

@[simp] theorem kept_execBankResultDelivery {s0 : State} (stack : Fin 8) (core : CoreId) (ticket : Fin 4) (s : State)
    (h_s : Kept s0 s) :
    KeptOut s0 (execBankResultDelivery stack core ticket s) := by
  unfold execBankResultDelivery
  dsimp only
  repeat' (first
    | intro _
    | with_reducible assumption
    | (with_reducible refine keptEnd_ite _ _ _ ?_ ?_)
    | (with_reducible refine keptOut_ite _ _ _ ?_ ?_)
    | (with_reducible refine kept_ite _ _ _ ?_ ?_)
    | (with_reducible refine kept_ite_fst _ _ _ ?_ ?_)
    | (with_reducible refine kept_ite_snd _ _ _ ?_ ?_)
    | split
    | (with_reducible refine (keptOut_next _ _).mpr ?_)
    | (simp (maxDischargeDepth := 40) +contextual [*]; done))

@[simp] theorem kept_performWrites {s0 : State} (s : State) (core k : Nat) (h_s : Kept s0 s) :
    Kept s0 (performWrites s core k) := by
  unfold performWrites; simp (maxDischargeDepth := 40) +contextual [*]

@[simp] theorem kept_earlyOpen {s0 : State} (s : State) (f : LatchFlight) (h_s : Kept s0 s) :
    Kept s0 (earlyOpen s f) := by
  unfold earlyOpen
  dsimp only
  repeat' (first
    | intro _
    | with_reducible assumption
    | (with_reducible refine kept_ite _ _ _ ?_ ?_)
    | (with_reducible refine kept_ite_fst _ _ _ ?_ ?_)
    | (with_reducible refine kept_ite_snd _ _ _ ?_ ?_)
    | split
    | (with_reducible refine kept_foldl _ _ _ ?_ ?_)
    | (with_reducible refine kept_foldl_snd _ _ _ ?_ ?_)
    | (with_reducible refine kept_foldl_fst _ _ _ ?_ ?_)
    | (simp (maxDischargeDepth := 40) +contextual [*]; done))

@[simp] theorem kept_execLatchWrite {s0 : State} (stack : Fin 8) (bank : Fin 768) (s : State) (h_s : Kept s0 s) :
    KeptOut s0 (execLatchWrite stack bank s) := by
  unfold execLatchWrite
  dsimp only
  repeat' (first
    | intro _
    | with_reducible assumption
    | (with_reducible refine keptEnd_ite _ _ _ ?_ ?_)
    | (with_reducible refine keptOut_ite _ _ _ ?_ ?_)
    | (with_reducible refine kept_ite _ _ _ ?_ ?_)
    | (with_reducible refine kept_ite_fst _ _ _ ?_ ?_)
    | (with_reducible refine kept_ite_snd _ _ _ ?_ ?_)
    | split
    | (with_reducible refine (keptOut_next _ _).mpr ?_)
    | (simp (maxDischargeDepth := 40) +contextual [*]; done))

end Sys2Proof.Machine
end

