-- ==== Sys2Proof/Laws/Kept/OnDie.lean ====
section
/-! SUPPORT. The operations of OnDie keep the queue, the canonical form of the array and the fuses that are set. -/

namespace Sys2Proof.Machine

@[simp] theorem kept_fetchCharged {s0 : State} (s : State) (who : Consumer) (line : Nat) (h_s : Kept s0 s) :
    Kept s0 (fetchCharged s who line).1 := by
  unfold fetchCharged; simp (maxDischargeDepth := 40) +contextual [*]

@[simp] theorem kept_fillLine {s0 : State} (s : State) (who : Consumer) (line : Nat) (h_s : Kept s0 s) :
    Kept s0 (fillLine s who line).1 := by
  unfold fillLine
  dsimp only
  repeat' (first
    | intro _
    | with_reducible assumption
    | (with_reducible refine kept_ite _ _ _ ?_ ?_)
    | (with_reducible refine kept_ite_fst _ _ _ ?_ ?_)
    | (with_reducible refine kept_ite_snd _ _ _ ?_ ?_)
    | split
    | (simp (maxDischargeDepth := 40) +contextual [*]; done))

@[simp] theorem kept_coreAccess {s0 : State} (s : State) (n addr : Nat) (write : Option (List Byte)) (poison : Bool)
    (h_s : Kept s0 s) :
    Kept s0 (coreAccess s n addr write poison) := by
  unfold coreAccess
  dsimp only
  repeat' (first
    | intro _
    | with_reducible assumption
    | (with_reducible refine kept_ite _ _ _ ?_ ?_)
    | (with_reducible refine kept_ite_fst _ _ _ ?_ ?_)
    | (with_reducible refine kept_ite_snd _ _ _ ?_ ?_)
    | split
    | (simp (maxDischargeDepth := 40) +contextual [*]; done))

@[simp] theorem kept_otherAccess {s0 : State} (s : State) (who : Agent) (addr : Nat) (write : Option (List Byte))
    (poison : Bool) (h_s : Kept s0 s) :
    Kept s0 (otherAccess s who addr write poison) := by
  unfold otherAccess
  repeat' (first
    | intro _
    | with_reducible assumption
    | split
    | (simp (maxDischargeDepth := 40) +contextual [*]; done)
    | dsimp only)

@[simp] theorem kept_execKittyAccess {s0 : State} (who : Agent) (addr : Nat) (write : Option (List Byte))
    (poison parity : Bool) (s : State) (h_s : Kept s0 s) :
    KeptOut s0 (execKittyAccess who addr write poison parity s) := by
  unfold execKittyAccess
  dsimp only
  repeat' (first
    | intro _
    | with_reducible assumption
    | (with_reducible refine keptEnd_ite _ _ _ ?_ ?_)
    | (with_reducible refine keptOut_ite _ _ _ ?_ ?_)
    | (with_reducible refine kept_ite _ _ _ ?_ ?_)
    | (with_reducible refine kept_ite_fst _ _ _ ?_ ?_)
    | (with_reducible refine kept_ite_snd _ _ _ ?_ ?_)
    | split
    | (with_reducible refine (keptOut_next _ _).mpr ?_)
    | (simp (maxDischargeDepth := 40) +contextual [*]; done))

@[simp] theorem kept_execKittyAtomic {s0 : State} (addr : Nat) (op : Fin 7) (operand compare : W64) (poison : Bool)
    (s : State) (h_s : Kept s0 s) :
    KeptOut s0 (execKittyAtomic addr op operand compare poison s) := by
  unfold execKittyAtomic
  dsimp only
  repeat' (first
    | intro _
    | with_reducible assumption
    | (with_reducible refine keptEnd_ite _ _ _ ?_ ?_)
    | (with_reducible refine keptOut_ite _ _ _ ?_ ?_)
    | (with_reducible refine kept_ite _ _ _ ?_ ?_)
    | (with_reducible refine kept_ite_fst _ _ _ ?_ ?_)
    | (with_reducible refine kept_ite_snd _ _ _ ?_ ?_)
    | split
    | (with_reducible refine (keptOut_next _ _).mpr ?_)
    | (simp (maxDischargeDepth := 40) +contextual [*]; done))

@[simp] theorem kept_execLocalTrickArrive {s0 : State} (cluster : Fin 64) (trick : Nat) (s : State) (h_s : Kept s0 s) :
    KeptOut s0 (execLocalTrickArrive cluster trick s) := by
  unfold execLocalTrickArrive
  repeat' (first
    | intro _
    | with_reducible assumption
    | split
    | (with_reducible refine (keptOut_next _ _).mpr ?_)
    | (simp (maxDischargeDepth := 40) +contextual [*]; done)
    | dsimp only)

@[simp] theorem kept_execLocalTrickRelease {s0 : State} (cluster : Fin 64) (trick : Nat) (s : State) (h_s : Kept s0 s) :
    KeptOut s0 (execLocalTrickRelease cluster trick s) := by
  unfold execLocalTrickRelease
  repeat' (first
    | intro _
    | with_reducible assumption
    | split
    | (with_reducible refine (keptOut_next _ _).mpr ?_)
    | (simp (maxDischargeDepth := 40) +contextual [*]; done)
    | dsimp only)

@[simp] theorem kept_landBytes {s0 : State} (s : State) (n : Nat) (bs : List (Nat × Byte × Bool)) (h_s : Kept s0 s) :
    Kept s0 (landBytes s n bs) := by
  unfold landBytes; simp (maxDischargeDepth := 40) +contextual [*]

@[simp] theorem kept_landUnits {s0 : State} (s : State) (stream units : Nat) (h_s : Kept s0 s) :
    Kept s0 (landUnits s stream units) := by
  unfold landUnits; simp (maxDischargeDepth := 40) +contextual [*]

@[simp] theorem kept_execOnDiePushLanding {s0 : State} (stream : Nat) (s : State) (h_s : Kept s0 s) :
    KeptOut s0 (execOnDiePushLanding stream s) := by
  unfold execOnDiePushLanding
  dsimp only
  repeat' (first
    | intro _
    | with_reducible assumption
    | (with_reducible refine keptEnd_ite _ _ _ ?_ ?_)
    | (with_reducible refine keptOut_ite _ _ _ ?_ ?_)
    | (with_reducible refine kept_ite _ _ _ ?_ ?_)
    | (with_reducible refine kept_ite_fst _ _ _ ?_ ?_)
    | (with_reducible refine kept_ite_snd _ _ _ ?_ ?_)
    | split
    | (with_reducible refine (keptOut_next _ _).mpr ?_)
    | (simp (maxDischargeDepth := 40) +contextual [*]; done))

@[simp] theorem kept_returnCredits {s0 : State} (s : State) (e : StreamEntry) (count : Nat) (h_s : Kept s0 s) :
    Kept s0 (returnCredits s e count) := by
  unfold returnCredits; simp (maxDischargeDepth := 40) +contextual [*]

@[simp] theorem kept_execOnDieCreditReturn {s0 : State} (stream : Nat) (s : State) (h_s : Kept s0 s) :
    KeptOut s0 (execOnDieCreditReturn stream s) := by
  unfold execOnDieCreditReturn
  repeat' (first
    | intro _
    | with_reducible assumption
    | split
    | (with_reducible refine (keptOut_next _ _).mpr ?_)
    | (simp (maxDischargeDepth := 40) +contextual [*]; done)
    | dsimp only)

@[simp] theorem kept_setPath {s0 : State} (s : State) (p : PathId) (v : Path) (h_s : Kept s0 s) :
    Kept s0 (setPath s p v) := by
  unfold setPath; simp (maxDischargeDepth := 40) +contextual [*]

@[simp] theorem kept_steerLane {s0 : State} (s : State) (id : PathId) (v : Path) (lane : Nat) (h_s : Kept s0 s) :
    KeptOpt s0 (steerLane s id v lane) := by
  unfold steerLane
  dsimp only
  repeat' (first
    | intro _
    | with_reducible assumption
    | (with_reducible refine keptOpt_ite _ _ _ ?_ ?_)
    | (with_reducible refine kept_ite _ _ _ ?_ ?_)
    | (with_reducible refine kept_ite_fst _ _ _ ?_ ?_)
    | (with_reducible refine kept_ite_snd _ _ _ ?_ ?_)
    | split
    | (simp (maxDischargeDepth := 40) +contextual [*]; done))

@[simp] theorem kept_markBad {s0 : State} (s : State) (n : Nat) (h_s : Kept s0 s) :
    Kept s0 (markBad s n) := by
  unfold markBad; simp (maxDischargeDepth := 40) +contextual [*]

@[simp] theorem kept_fourthFailure {s0 : State} (s : State) (id : PathId) (v : Path) (lane : Nat) (h_s : Kept s0 s) :
    Kept s0 (fourthFailure s id v lane) := by
  unfold fourthFailure
  dsimp only
  repeat' (first
    | intro _
    | with_reducible assumption
    | (with_reducible refine kept_ite _ _ _ ?_ ?_)
    | (with_reducible refine kept_ite_fst _ _ _ ?_ ?_)
    | (with_reducible refine kept_ite_snd _ _ _ ?_ ?_)
    | (split <;> (try (rename_i hq; replace hq := KeptOpt.of_eq (s0 := s0) hq (by clear hq; simp (maxDischargeDepth := 40) +contextual [*]))))
    | (simp (maxDischargeDepth := 40) +contextual [*]; done))

@[simp] theorem kept_testTransfer {s0 : State} (s : State) (id : PathId) (v : Path) (received : List (W32 × Bool))
    (lane : Nat) (h_s : Kept s0 s) :
    Kept s0 (testTransfer s id v received lane) := by
  unfold testTransfer; simp (maxDischargeDepth := 40) +contextual [*]

@[simp] theorem kept_execPathTransferReceive {s0 : State} (path : PathId) (replay : Bool) (sent : List W32) (received : List
    (W32 × Bool)) (lane : Nat) (s : State) (h_s : Kept s0 s) :
    KeptOut s0 (execPathTransferReceive path replay sent received lane s) := by
  unfold execPathTransferReceive
  dsimp only
  repeat' (first
    | intro _
    | with_reducible assumption
    | (with_reducible refine keptEnd_ite _ _ _ ?_ ?_)
    | (with_reducible refine keptOut_ite _ _ _ ?_ ?_)
    | (with_reducible refine kept_ite _ _ _ ?_ ?_)
    | (with_reducible refine kept_ite_fst _ _ _ ?_ ?_)
    | (with_reducible refine kept_ite_snd _ _ _ ?_ ?_)
    | split
    | (with_reducible refine (keptOut_next _ _).mpr ?_)
    | (simp (maxDischargeDepth := 40) +contextual [*]; done))

end Sys2Proof.Machine
end

