-- ==== Sys2Proof/Laws/Kept/Ports.lean ====
section
/-! SUPPORT. The operations of Ports keep the queue, the canonical form of the array and the fuses that are set. -/

namespace Sys2Proof.Machine

@[simp] theorem kept_retrainPort {s0 : State} (s : State) (p : Nat) (h_s : Kept s0 s) :
    Kept s0 (retrainPort s p) := by
  unfold retrainPort; simp (maxDischargeDepth := 40) +contextual [*]

@[simp] theorem kept_linkDown {s0 : State} (s : State) (p : Nat) (h_s : Kept s0 s) :
    Kept s0 (linkDown s p) := by
  unfold linkDown; simp (maxDischargeDepth := 40) +contextual [*]

@[simp] theorem kept_retirePort {s0 : State} (s : State) (p : Nat) (seq : BitVec 10) (h_s : Kept s0 s) :
    Kept s0 (retirePort s p seq) := by
  unfold retirePort; simp (maxDischargeDepth := 40) +contextual [*]

@[simp] theorem kept_sendNack {s0 : State} (s : State) (p reason : Nat) (src : Nat) (isNack : Bool) (head : List Byte)
    (h_s : Kept s0 s) :
    Kept s0 (sendNack s p reason src isNack head) := by
  unfold sendNack
  dsimp only
  repeat' (first
    | intro _
    | with_reducible assumption
    | (with_reducible refine kept_ite _ _ _ ?_ ?_)
    | (with_reducible refine kept_ite_fst _ _ _ ?_ ?_)
    | (with_reducible refine kept_ite_snd _ _ _ ?_ ?_)
    | split
    | (simp (maxDischargeDepth := 40) +contextual [*]; done))

@[simp] theorem kept_countViolation {s0 : State} (s : State) (p reason : Nat) (h_s : Kept s0 s) :
    Kept s0 (countViolation s p reason) := by
  unfold countViolation; simp (maxDischargeDepth := 40) +contextual [*]

@[simp] theorem kept_badFrame {s0 : State} (s : State) (p reason : Nat) (src : Nat) (isNack : Bool) (head : List Byte)
    (h_s : Kept s0 s) :
    Kept s0 (badFrame s p reason src isNack head) := by
  unfold badFrame; simp (maxDischargeDepth := 40) +contextual [*]

@[simp] theorem kept_violation {s0 : State} (s : State) (p : Option Nat) (reason : Nat) (f : Frame) (h_s : Kept s0 s) :
    Kept s0 (violation s p reason f) := by
  unfold violation
  repeat' (first
    | intro _
    | with_reducible assumption
    | split
    | (simp (maxDischargeDepth := 40) +contextual [*]; done)
    | dsimp only)

@[simp] theorem kept_execFabViolationSecondTick {s0 : State} (s : State) (h_s : Kept s0 s) :
    KeptOut s0 (execFabViolationSecondTick s) := by
  unfold execFabViolationSecondTick; simp (maxDischargeDepth := 40) +contextual [*]

@[simp] theorem kept_clearPort {s0 : State} (s : State) (p : Nat) (h_s : Kept s0 s) :
    Kept s0 (clearPort s p) := by
  unfold clearPort; simp (maxDischargeDepth := 40) +contextual [*]

@[simp] theorem kept_takeQuarClear {s0 : State} (s : State) (hdr : FrameHdr) (port target : Nat) (h_s : Kept s0 s) :
    Kept s0 (takeQuarClear s hdr port target) := by
  unfold takeQuarClear
  repeat' (first
    | intro _
    | with_reducible assumption
    | (with_reducible refine kept_ite _ _ _ ?_ ?_)
    | split
    | (simp (maxDischargeDepth := 40) +contextual [*]; done)
    | dsimp only)

@[simp] theorem kept_execQuarClear {s0 : State} (hdr : FrameHdr) (port target : Nat) (s : State) (h_s : Kept s0 s) :
    KeptOut s0 (execQuarClear hdr port target s) := by
  unfold execQuarClear; simp (maxDischargeDepth := 40) +contextual [*]

@[simp] theorem kept_execNack {s0 : State} (_hdr : FrameHdr) (_reason : Nat) (_header : List Byte) (s : State)
    (h_s : Kept s0 s) :
    KeptOut s0 (execNack _hdr _reason _header s) := by
  unfold execNack; simp (maxDischargeDepth := 40) +contextual [*]

@[simp] theorem kept_checkPort {s0 : State} (s : State) (p : Nat) (recheck : Bool) (h_s : Kept s0 s) :
    Kept s0 (checkPort s p recheck) := by
  unfold checkPort; simp (maxDischargeDepth := 40) +contextual [*]

@[simp] theorem kept_takeTrain {s0 : State} (s : State) (p : Nat) (b : TrainBody) (h_s : Kept s0 s) :
    Kept s0 (takeTrain s p b) := by
  unfold takeTrain; simp (maxDischargeDepth := 40) +contextual [*]

@[simp] theorem kept_execTrain {s0 : State} (port : Fin 12) (body : TrainBody) (s : State) (h_s : Kept s0 s) :
    KeptOut s0 (execTrain port body s) := by
  unfold execTrain; simp (maxDischargeDepth := 40) +contextual [*]

@[simp] theorem kept_execCablePresent {s0 : State} (port : Fin 12) (s : State) (h_s : Kept s0 s) :
    KeptOut s0 (execCablePresent port s) := by
  unfold execCablePresent; simp (maxDischargeDepth := 40) +contextual [*]

@[simp] theorem kept_enterStep {s0 : State} (s : State) (p n : Nat) (h_s : Kept s0 s) :
    Kept s0 (enterStep s p n) := by
  unfold enterStep; simp (maxDischargeDepth := 40) +contextual [*]

@[simp] theorem kept_execTrainPatternDetected {s0 : State} (port : Fin 12) (s : State) (h_s : Kept s0 s) :
    KeptOut s0 (execTrainPatternDetected port s) := by
  unfold execTrainPatternDetected; simp (maxDischargeDepth := 40) +contextual [*]

@[simp] theorem kept_execTrainStepDone {s0 : State} (port : Fin 12) (s : State) (h_s : Kept s0 s) :
    KeptOut s0 (execTrainStepDone port s) := by
  unfold execTrainStepDone
  dsimp only
  repeat' (first
    | intro _
    | with_reducible assumption
    | (with_reducible refine keptEnd_ite _ _ _ ?_ ?_)
    | (with_reducible refine keptOut_ite _ _ _ ?_ ?_)
    | (with_reducible refine kept_ite _ _ _ ?_ ?_)
    | (with_reducible refine kept_ite_fst _ _ _ ?_ ?_)
    | (with_reducible refine kept_ite_snd _ _ _ ?_ ?_)
    | split
    | (with_reducible refine (keptOut_next _ _).mpr ?_)
    | (simp (maxDischargeDepth := 40) +contextual [*]; done))

@[simp] theorem kept_execTrainStepTimeout {s0 : State} (port : Fin 12) (s : State) (h_s : Kept s0 s) :
    KeptOut s0 (execTrainStepTimeout port s) := by
  unfold execTrainStepTimeout
  dsimp only
  repeat' (first
    | intro _
    | with_reducible assumption
    | (with_reducible refine keptEnd_ite _ _ _ ?_ ?_)
    | (with_reducible refine keptOut_ite _ _ _ ?_ ?_)
    | (with_reducible refine kept_ite _ _ _ ?_ ?_)
    | (with_reducible refine kept_ite_fst _ _ _ ?_ ?_)
    | (with_reducible refine kept_ite_snd _ _ _ ?_ ?_)
    | split
    | (with_reducible refine (keptOut_next _ _).mpr ?_)
    | (simp (maxDischargeDepth := 40) +contextual [*]; done))

@[simp] theorem kept_execLaneSignalLoss {s0 : State} (port : Fin 12) (s : State) (h_s : Kept s0 s) :
    KeptOut s0 (execLaneSignalLoss port s) := by
  unfold execLaneSignalLoss; simp (maxDischargeDepth := 40) +contextual [*]

@[simp] theorem kept_execFlitTimeout {s0 : State} (port : Fin 12) (s : State) (h_s : Kept s0 s) :
    KeptOut s0 (execFlitTimeout port s) := by
  unfold execFlitTimeout; simp (maxDischargeDepth := 40) +contextual [*]

end Sys2Proof.Machine
end

