-- ==== Sys2Proof/Laws/Kept/SourceRepair.lean ====
section
/-! SUPPORT. The operations of SourceRepair keep the queue, the canonical form of the array and the fuses that are set. -/

namespace Sys2Proof.Machine

@[simp] theorem kept_setDir {s0 : State} (s : State) (region : Nat) (e : DirState) (h_s : Kept s0 s) :
    Kept s0 (setDir s region e) := by
  unfold setDir; simp (maxDischargeDepth := 40) +contextual [*]

@[simp] theorem kept_directoryReply {s0 : State} (s : State) (region : Nat) (answer : Option DirAnswer) (h_s : Kept s0 s) :
    Kept s0 (directoryReply s region answer) := by
  unfold directoryReply
  repeat' (first
    | intro _
    | with_reducible assumption
    | (with_reducible refine kept_ite _ _ _ ?_ ?_)
    | split
    | (simp (maxDischargeDepth := 40) +contextual [*]; done)
    | dsimp only)

@[simp] theorem kept_execSourceDirectoryReply {s0 : State} (region : Nat) (answer : Option DirAnswer) (s : State)
    (h_s : Kept s0 s) :
    KeptOut s0 (execSourceDirectoryReply region answer s) := by
  unfold execSourceDirectoryReply; simp (maxDischargeDepth := 40) +contextual [*]

@[simp] theorem kept_answerDirectory {s0 : State} (s : State) (src region : Nat) (h_s : Kept s0 s) :
    Kept s0 (answerDirectory s src region) := by
  unfold answerDirectory; simp (maxDischargeDepth := 40) +contextual [*]

@[simp] theorem kept_takeDirectory {s0 : State} (s : State) (src region : Nat) (answer : Option DirAnswer) (h_s : Kept s0 s) :
    Kept s0 (takeDirectory s src region answer) := by
  unfold takeDirectory; simp (maxDischargeDepth := 40) +contextual [*]

@[simp] theorem kept_execSourceDirectoryRetry {s0 : State} (s : State) (h_s : Kept s0 s) :
    KeptOut s0 (execSourceDirectoryRetry s) := by
  unfold execSourceDirectoryRetry
  repeat' (first
    | intro _
    | with_reducible assumption
    | split
    | (with_reducible refine (keptOut_next _ _).mpr ?_)
    | (with_reducible refine kept_foldl _ _ _ ?_ ?_)
    | (with_reducible refine kept_foldl_snd _ _ _ ?_ ?_)
    | (with_reducible refine kept_foldl_fst _ _ _ ?_ ?_)
    | (simp (maxDischargeDepth := 40) +contextual [*]; done)
    | dsimp only)

@[simp] theorem kept_askPeer {s0 : State} (s : State) (r : Region) (addr : Nat) (h_s : Kept s0 s) :
    Kept s0 (askPeer s r addr).1 := by
  unfold askPeer; simp (maxDischargeDepth := 40) +contextual [*]

@[simp] theorem kept_modRepair {s0 : State} (s : State) (line : Nat) (f : Repair → Repair) (h_s : Kept s0 s) :
    Kept s0 (modRepair s line f) := by
  unfold modRepair; simp (maxDischargeDepth := 40) +contextual [*]

@[simp] theorem kept_fetchFor {s0 : State} (s : State) (r : Region) (line addr : Nat) (h_s : Kept s0 s) :
    Kept s0 (fetchFor s r line addr) := by
  unfold fetchFor; simp (maxDischargeDepth := 40) +contextual [*]

@[simp] theorem kept_releaseLine {s0 : State} (s : State) (line : Nat) (poisoned : Bool) (h_s : Kept s0 s) :
    Kept s0 (releaseLine s line poisoned) := by
  unfold releaseLine
  repeat' (first
    | intro _
    | with_reducible assumption
    | (extract_lets +onlyGivenNames x; clear_value (hxe : x = _); (try (have hx : Kept s0 x := by (rw [hxe]; (repeat' (first | intro _ | with_reducible assumption | (simp (maxDischargeDepth := 40) +contextual [*]; done) | split | (with_reducible refine kept_foldl _ _ _ ?_ ?_) | (with_reducible refine kept_foldl_snd _ _ _ ?_ ?_) | (with_reducible refine kept_foldl_fst _ _ _ ?_ ?_)))))); (try (have hx : Kept s0 x.2 := by (rw [hxe]; (repeat' (first | intro _ | with_reducible assumption | (simp (maxDischargeDepth := 40) +contextual [*]; done) | split | (with_reducible refine kept_foldl _ _ _ ?_ ?_) | (with_reducible refine kept_foldl_snd _ _ _ ?_ ?_) | (with_reducible refine kept_foldl_fst _ _ _ ?_ ?_)))))); (try (have hx : Kept s0 x.1 := by (rw [hxe]; (repeat' (first | intro _ | with_reducible assumption | (simp (maxDischargeDepth := 40) +contextual [*]; done) | split | (with_reducible refine kept_foldl _ _ _ ?_ ?_) | (with_reducible refine kept_foldl_snd _ _ _ ?_ ?_) | (with_reducible refine kept_foldl_fst _ _ _ ?_ ?_)))))); (try (have hx : KeptOpt s0 x := by (rw [hxe]; (repeat' (first | intro _ | with_reducible assumption | (simp (maxDischargeDepth := 40) +contextual [*]; done) | split | (with_reducible refine kept_foldl _ _ _ ?_ ?_) | (with_reducible refine kept_foldl_snd _ _ _ ?_ ?_) | (with_reducible refine kept_foldl_fst _ _ _ ?_ ?_)))))); clear hxe)
    | (with_reducible refine kept_ite _ _ _ ?_ ?_)
    | (with_reducible refine kept_ite_fst _ _ _ ?_ ?_)
    | (with_reducible refine kept_ite_snd _ _ _ ?_ ?_)
    | split
    | (with_reducible refine kept_foldl _ _ _ ?_ ?_)
    | (with_reducible refine kept_foldl_snd _ _ _ ?_ ?_)
    | (with_reducible refine kept_foldl_fst _ _ _ ?_ ?_)
    | (simp (maxDischargeDepth := 40) +contextual [*]; done))

@[simp] theorem kept_unreachable {s0 : State} (s : State) (line : Nat) (h_s : Kept s0 s) :
    Kept s0 (unreachable s line) := by
  unfold unreachable
  dsimp only
  repeat' (first
    | intro _
    | with_reducible assumption
    | (with_reducible refine kept_ite _ _ _ ?_ ?_)
    | (with_reducible refine kept_ite_fst _ _ _ ?_ ?_)
    | (with_reducible refine kept_ite_snd _ _ _ ?_ ?_)
    | split
    | (simp (maxDischargeDepth := 40) +contextual [*]; done))

@[simp] theorem kept_rewriteLine {s0 : State} (s : State) (p : Place) (line : Nat) (data : Line) (fails : Nat)
    (h_s : Kept s0 s) :
    Kept s0 (rewriteLine s p line data fails).1 := by
  unfold rewriteLine
  dsimp only
  repeat' (first
    | intro _
    | with_reducible assumption
    | (with_reducible refine kept_ite _ _ _ ?_ ?_)
    | (with_reducible refine kept_ite_fst _ _ _ ?_ ?_)
    | (with_reducible refine kept_ite_snd _ _ _ ?_ ?_)
    | (split <;> (try (rename_i hq; replace hq := KeptOpt.of_eq (s0 := s0) hq (by clear hq; simp (maxDischargeDepth := 40) +contextual [*]))))
    | (simp (maxDischargeDepth := 40) +contextual [*]; done))

@[simp] theorem kept_repairLine {s0 : State} (s : State) (line : Nat) (data : Line) (fails : Nat) (h_s : Kept s0 s) :
    Kept s0 (repairLine s line data fails) := by
  unfold repairLine
  dsimp only
  repeat' (first
    | intro _
    | with_reducible assumption
    | (with_reducible refine kept_ite _ _ _ ?_ ?_)
    | (with_reducible refine kept_ite_fst _ _ _ ?_ ?_)
    | (with_reducible refine kept_ite_snd _ _ _ ?_ ?_)
    | split
    | (simp (maxDischargeDepth := 40) +contextual [*]; done))

@[simp] theorem kept_refetchLine {s0 : State} (s : State) (line : Nat) (data : Line) (fails : Nat) (h_s : Kept s0 s) :
    Kept s0 (refetchLine s line data fails) := by
  unfold refetchLine; simp (maxDischargeDepth := 40) +contextual [*]

@[simp] theorem kept_runHeld {s0 : State} (s : State) (n : Nat) (y0 : HeldWrite) (h_s : Kept s0 s) :
    Kept s0 (runHeld s n y0) := by
  unfold runHeld
  split
  all_goals first
    | (simp (maxDischargeDepth := 40) +contextual [*]; done)
    | (rename_i b r m
       have h := kept_softSpare s n b r m h_s
       cases hq : softSpare s n b r m with
       | none => simpa [hq] using h_s
       | some t => rw [hq] at h; exact h)

@[simp] theorem kept_execSourceRepairReport {s0 : State} (stack : Fin 8) (line : Nat) (s : State) (h_s : Kept s0 s) :
    KeptOut s0 (execSourceRepairReport stack line s) := by
  unfold execSourceRepairReport
  repeat' (first
    | intro _
    | with_reducible assumption
    | (with_reducible refine keptEnd_ite _ _ _ ?_ ?_)
    | (with_reducible refine keptOut_ite _ _ _ ?_ ?_)
    | (with_reducible refine kept_ite _ _ _ ?_ ?_)
    | split
    | (with_reducible refine (keptOut_next _ _).mpr ?_)
    | (simp (maxDischargeDepth := 40) +contextual [*]; done)
    | dsimp only)

@[simp] theorem kept_execSourceFetchTimeout {s0 : State} (stack : Fin 8) (line : Nat) (s : State) (h_s : Kept s0 s) :
    KeptOut s0 (execSourceFetchTimeout stack line s) := by
  unfold execSourceFetchTimeout
  repeat' (first
    | intro _
    | with_reducible assumption
    | (with_reducible refine keptEnd_ite _ _ _ ?_ ?_)
    | (with_reducible refine keptOut_ite _ _ _ ?_ ?_)
    | (with_reducible refine kept_ite _ _ _ ?_ ?_)
    | split
    | (with_reducible refine (keptOut_next _ _).mpr ?_)
    | (simp (maxDischargeDepth := 40) +contextual [*]; done)
    | dsimp only)

@[simp] theorem kept_refetch {s0 : State} (s : State) (line : Nat) (h_s : Kept s0 s) :
    Kept s0 (refetch s line) := by
  unfold refetch
  dsimp only
  repeat' (first
    | intro _
    | with_reducible assumption
    | (with_reducible refine kept_ite _ _ _ ?_ ?_)
    | (with_reducible refine kept_ite_fst _ _ _ ?_ ?_)
    | (with_reducible refine kept_ite_snd _ _ _ ?_ ?_)
    | split
    | (simp (maxDischargeDepth := 40) +contextual [*]; done))

@[simp] theorem kept_execUnrepairedRefetchTick {s0 : State} (s : State) (h_s : Kept s0 s) :
    KeptOut s0 (execUnrepairedRefetchTick s) := by
  unfold execUnrepairedRefetchTick; simp (maxDischargeDepth := 40) +contextual [*]

end Sys2Proof.Machine
end

