-- ==== Sys2Proof/Laws/Kept/Frames.lean ====
section
/-! SUPPORT. The operations of Frames keep the queue, the canonical form of the array and the fuses that are set. -/

namespace Sys2Proof.Machine

@[simp] theorem kept_lateDrop {s0 : State} (s : State) (h_s : Kept s0 s) :
    Kept s0 (lateDrop s) := by
  unfold lateDrop; simp (maxDischargeDepth := 40) +contextual [*]

@[simp] theorem kept_poisonStop {s0 : State} (s : State) (port : Option Nat) (e : StreamEntry) (h_s : Kept s0 s) :
    Kept s0 (poisonStop s port e) := by
  unfold poisonStop; simp (maxDischargeDepth := 40) +contextual [*]

@[simp] theorem kept_takePush {s0 : State} (s : State) (port : Option Nat) (hdr : FrameHdr) (stream offset : Nat)
    (data : List Byte) (units : Nat) (mask : List Bool) (h_s : Kept s0 s) :
    Kept s0 (takePush s port hdr stream offset data units mask) := by
  unfold takePush
  dsimp only
  repeat' (first
    | intro _
    | with_reducible assumption
    | (with_reducible refine kept_ite _ _ _ ?_ ?_)
    | (with_reducible refine kept_ite_fst _ _ _ ?_ ?_)
    | (with_reducible refine kept_ite_snd _ _ _ ?_ ?_)
    | split
    | (simp (maxDischargeDepth := 40) +contextual [*]; done))

@[simp] theorem kept_execPush {s0 : State} (hdr : FrameHdr) (stream offset : Nat) (data : List Byte) (units : Nat)
    (mask : List Bool) (s : State) (h_s : Kept s0 s) :
    KeptOut s0 (execPush hdr stream offset data units mask s) := by
  unfold execPush; simp (maxDischargeDepth := 40) +contextual [*]

@[simp] theorem kept_takePushAck {s0 : State} (s : State) (port : Option Nat) (hdr : FrameHdr) (stream units : Nat)
    (h_s : Kept s0 s) :
    Kept s0 (takePushAck s port hdr stream units) := by
  unfold takePushAck
  repeat' (first
    | intro _
    | with_reducible assumption
    | (with_reducible refine kept_ite _ _ _ ?_ ?_)
    | split
    | (simp (maxDischargeDepth := 40) +contextual [*]; done)
    | dsimp only)

@[simp] theorem kept_execPushAck {s0 : State} (hdr : FrameHdr) (stream units : Nat) (s : State) (h_s : Kept s0 s) :
    KeptOut s0 (execPushAck hdr stream units s) := by
  unfold execPushAck; simp (maxDischargeDepth := 40) +contextual [*]

@[simp] theorem kept_takeCredit {s0 : State} (s : State) (port : Option Nat) (hdr : FrameHdr) (stream count : Nat)
    (h_s : Kept s0 s) :
    Kept s0 (takeCredit s port hdr stream count) := by
  unfold takeCredit
  repeat' (first
    | intro _
    | with_reducible assumption
    | (with_reducible refine kept_ite _ _ _ ?_ ?_)
    | split
    | (simp (maxDischargeDepth := 40) +contextual [*]; done)
    | dsimp only)

@[simp] theorem kept_execCredit {s0 : State} (hdr : FrameHdr) (stream count : Nat) (s : State) (h_s : Kept s0 s) :
    KeptOut s0 (execCredit hdr stream count s) := by
  unfold execCredit; simp (maxDischargeDepth := 40) +contextual [*]

@[simp] theorem kept_takeStreamStop {s0 : State} (s : State) (port : Option Nat) (hdr : FrameHdr) (stream : Nat) (code : W32)
    (h_s : Kept s0 s) :
    Kept s0 (takeStreamStop s port hdr stream code) := by
  unfold takeStreamStop
  dsimp only
  repeat' (first
    | intro _
    | with_reducible assumption
    | (with_reducible refine kept_ite _ _ _ ?_ ?_)
    | (with_reducible refine kept_ite_fst _ _ _ ?_ ?_)
    | (with_reducible refine kept_ite_snd _ _ _ ?_ ?_)
    | split
    | (simp (maxDischargeDepth := 40) +contextual [*]; done))

@[simp] theorem kept_execStreamStop {s0 : State} (hdr : FrameHdr) (stream : Nat) (code : W32) (s : State) (h_s : Kept s0 s) :
    KeptOut s0 (execStreamStop hdr stream code s) := by
  unfold execStreamStop; simp (maxDischargeDepth := 40) +contextual [*]

@[simp] theorem kept_takeTallyMark {s0 : State} (s : State) (port : Option Nat) (hdr : FrameHdr) (stream : Nat)
    (count epoch : W32) (h_s : Kept s0 s) :
    Kept s0 (takeTallyMark s port hdr stream count epoch) := by
  unfold takeTallyMark
  repeat' (first
    | intro _
    | with_reducible assumption
    | (with_reducible refine kept_ite _ _ _ ?_ ?_)
    | split
    | (simp (maxDischargeDepth := 40) +contextual [*]; done)
    | dsimp only)

@[simp] theorem kept_execTallyMark {s0 : State} (hdr : FrameHdr) (stream : Nat) (count epoch : W32) (s : State)
    (h_s : Kept s0 s) :
    KeptOut s0 (execTallyMark hdr stream count epoch s) := by
  unfold execTallyMark; simp (maxDischargeDepth := 40) +contextual [*]

@[simp] theorem kept_denyMem {s0 : State} (s : State) (port : Option Nat) (hdr : FrameHdr) (b : FrameBody) (h_s : Kept s0 s) :
    Kept s0 (denyMem s port hdr b) := by
  unfold denyMem
  dsimp only
  repeat' (first
    | intro _
    | with_reducible assumption
    | split
    | (simp (maxDischargeDepth := 40) +contextual [*]; done))

@[simp] theorem kept_takeMemRead {s0 : State} (s : State) (port : Option Nat) (hdr : FrameHdr) (tag addr len : Nat)
    (h_s : Kept s0 s) :
    Kept s0 (takeMemRead s port hdr tag addr len) := by
  unfold takeMemRead
  dsimp only
  repeat' (first
    | intro _
    | with_reducible assumption
    | (with_reducible refine kept_ite _ _ _ ?_ ?_)
    | (with_reducible refine kept_ite_fst _ _ _ ?_ ?_)
    | (with_reducible refine kept_ite_snd _ _ _ ?_ ?_)
    | split
    | (simp (maxDischargeDepth := 40) +contextual [*]; done))

@[simp] theorem kept_execMemRead {s0 : State} (port : Fin 12) (hdr : FrameHdr) (tag address length : Nat) (s : State)
    (h_s : Kept s0 s) :
    KeptOut s0 (execMemRead port hdr tag address length s) := by
  unfold execMemRead; simp (maxDischargeDepth := 40) +contextual [*]

@[simp] theorem kept_takeMemWrite {s0 : State} (s : State) (port : Option Nat) (hdr : FrameHdr) (tag addr : Nat)
    (data : List Byte) (mask : List Bool) (h_s : Kept s0 s) :
    Kept s0 (takeMemWrite s port hdr tag addr data mask) := by
  unfold takeMemWrite
  dsimp only
  repeat' (first
    | intro _
    | with_reducible assumption
    | (with_reducible refine kept_ite _ _ _ ?_ ?_)
    | (with_reducible refine kept_ite_fst _ _ _ ?_ ?_)
    | (with_reducible refine kept_ite_snd _ _ _ ?_ ?_)
    | split
    | (with_reducible refine kept_foldl _ _ _ ?_ ?_)
    | (with_reducible refine kept_foldl_snd _ _ _ ?_ ?_)
    | (with_reducible refine kept_foldl_fst _ _ _ ?_ ?_)
    | (simp (maxDischargeDepth := 40) +contextual [*]; done))

@[simp] theorem kept_execMemWrite {s0 : State} (port : Fin 12) (hdr : FrameHdr) (tag address : Nat) (data : List Byte)
    (mask : List Bool) (s : State) (h_s : Kept s0 s) :
    KeptOut s0 (execMemWrite port hdr tag address data mask s) := by
  unfold execMemWrite; simp (maxDischargeDepth := 40) +contextual [*]

@[simp] theorem kept_fetchAgain {s0 : State} (s : State) (src tag : Nat) (h_s : Kept s0 s) :
    Kept s0 (fetchAgain s src tag) := by
  unfold fetchAgain
  repeat' (first
    | intro _
    | with_reducible assumption
    | split
    | (simp (maxDischargeDepth := 40) +contextual [*]; done)
    | dsimp only)

@[simp] theorem kept_directoryStale {s0 : State} (s : State) (line : Nat) (h_s : Kept s0 s) :
    Kept s0 (directoryStale s line) := by
  unfold directoryStale
  repeat' (first
    | intro _
    | with_reducible assumption
    | (with_reducible refine kept_ite _ _ _ ?_ ?_)
    | split
    | (simp (maxDischargeDepth := 40) +contextual [*]; done)
    | dsimp only)

@[simp] theorem kept_takeMemData {s0 : State} (s : State) (hdr : FrameHdr) (tag status : Nat) (data : List Byte)
    (disturbed : Nat) (h_s : Kept s0 s) :
    Kept s0 (takeMemData s hdr tag status data disturbed) := by
  unfold takeMemData
  dsimp only
  repeat' (first
    | intro _
    | with_reducible assumption
    | (with_reducible refine kept_ite _ _ _ ?_ ?_)
    | (with_reducible refine kept_ite_fst _ _ _ ?_ ?_)
    | (with_reducible refine kept_ite_snd _ _ _ ?_ ?_)
    | split
    | (simp (maxDischargeDepth := 40) +contextual [*]; done))

@[simp] theorem kept_execMemData {s0 : State} (hdr : FrameHdr) (tag status : Nat) (data : List Byte) (_mask : List Bool)
    (disturbed : Nat) (s : State) (h_s : Kept s0 s) :
    KeptOut s0 (execMemData hdr tag status data _mask disturbed s) := by
  unfold execMemData; simp (maxDischargeDepth := 40) +contextual [*]

@[simp] theorem kept_takeMemAck {s0 : State} (s : State) (hdr : FrameHdr) (tag status : Nat) (h_s : Kept s0 s) :
    Kept s0 (takeMemAck s hdr tag status) := by
  unfold takeMemAck
  dsimp only
  repeat' (first
    | intro _
    | with_reducible assumption
    | (with_reducible refine kept_ite _ _ _ ?_ ?_)
    | (with_reducible refine kept_ite_fst _ _ _ ?_ ?_)
    | (with_reducible refine kept_ite_snd _ _ _ ?_ ?_)
    | split
    | (simp (maxDischargeDepth := 40) +contextual [*]; done))

@[simp] theorem kept_execMemAck {s0 : State} (hdr : FrameHdr) (tag status : Nat) (s : State) (h_s : Kept s0 s) :
    KeptOut s0 (execMemAck hdr tag status s) := by
  unfold execMemAck; simp (maxDischargeDepth := 40) +contextual [*]

@[simp] theorem kept_takeTrick {s0 : State} (s : State) (port : Option Nat) (hdr : FrameHdr) (b : FrameBody) (slot : Nat)
    (group epoch : W32) (act : State → State) (h_act : ∀ (x0 : State), Kept s0 x0 → Kept s0 (act x0)) (h_s : Kept s0 s) :
    Kept s0 (takeTrick s port hdr b slot group epoch act) := by
  unfold takeTrick; simp (maxDischargeDepth := 40) +contextual [*]

@[simp] theorem kept_takeArrive {s0 : State} (s : State) (port : Option Nat) (hdr : FrameHdr) (slot : Nat) (group epoch : W32)
    (h_s : Kept s0 s) :
    Kept s0 (takeArrive s port hdr slot group epoch) := by
  unfold takeArrive; simp (maxDischargeDepth := 40) +contextual [*]

@[simp] theorem kept_execTrickArrive {s0 : State} (hdr : FrameHdr) (slot : Nat) (group epoch : W32) (s : State)
    (h_s : Kept s0 s) :
    KeptOut s0 (execTrickArrive hdr slot group epoch s) := by
  unfold execTrickArrive; simp (maxDischargeDepth := 40) +contextual [*]

@[simp] theorem kept_takeReleaseFrame {s0 : State} (s : State) (port : Option Nat) (hdr : FrameHdr) (slot : Nat)
    (group epoch : W32) (h_s : Kept s0 s) :
    Kept s0 (takeReleaseFrame s port hdr slot group epoch) := by
  unfold takeReleaseFrame
  repeat' (first
    | intro _
    | with_reducible assumption
    | (with_reducible refine kept_ite _ _ _ ?_ ?_)
    | split
    | (with_reducible apply kept_takeTrick)
    | (simp (maxDischargeDepth := 40) +contextual [*]; done)
    | dsimp only)

@[simp] theorem kept_execTrickRelease {s0 : State} (hdr : FrameHdr) (slot : Nat) (group epoch : W32) (s : State)
    (h_s : Kept s0 s) :
    KeptOut s0 (execTrickRelease hdr slot group epoch s) := by
  unfold execTrickRelease; simp (maxDischargeDepth := 40) +contextual [*]

end Sys2Proof.Machine
end

