-- ==== Sys2Proof/Laws/Kept/HostMem.lean ====
section
/-! SUPPORT. The operations of HostMem keep the queue, the canonical form of the array and the fuses that are set. -/

namespace Sys2Proof.Machine

@[simp] theorem kept_freeHeader {s0 : State} (s : State) (h_s : Kept s0 s) :
    Kept s0 (freeHeader s).2 := by
  unfold freeHeader; simp (maxDischargeDepth := 40) +contextual [*]

@[simp] theorem kept_recordViolation {s0 : State} (s : State) (kind : Nat) (header : List Byte) (h_s : Kept s0 s) :
    Kept s0 (recordViolation s kind header) := by
  unfold recordViolation; simp (maxDischargeDepth := 40) +contextual [*]

@[simp] theorem kept_partnerSeen {s0 : State} (s : State) (kind : Nat) (h_s : Kept s0 s) :
    Kept s0 (partnerSeen s kind) := by
  unfold partnerSeen; simp (maxDischargeDepth := 40) +contextual [*]

@[simp] theorem kept_answerViolation {s0 : State} (s : State) (kind : Nat) (h_s : Kept s0 s) :
    Kept s0 (answerViolation s kind) := by
  unfold answerViolation
  repeat' (first
    | intro _
    | with_reducible assumption
    | split
    | (simp (maxDischargeDepth := 40) +contextual [*]; done)
    | dsimp only)

@[simp] theorem kept_execPartnerViolation {s0 : State} (kind : Fin 11) (header : List Byte) (s : State) (h_s : Kept s0 s) :
    KeptOut s0 (execPartnerViolation kind header s) := by
  unfold execPartnerViolation
  repeat' (first
    | intro _
    | with_reducible assumption
    | (with_reducible refine keptEnd_ite _ _ _ ?_ ?_)
    | (with_reducible refine keptOut_ite _ _ _ ?_ ?_)
    | (with_reducible refine kept_ite _ _ _ ?_ ?_)
    | split
    | (with_reducible refine (keptOut_next _ _).mpr ?_)
    | (simp (maxDischargeDepth := 40) +contextual [*]; done)
    | dsimp only)

@[simp] theorem kept_execPartnerViolationSecondTick {s0 : State} (s : State) (h_s : Kept s0 s) :
    KeptOut s0 (execPartnerViolationSecondTick s) := by
  unfold execPartnerViolationSecondTick; simp (maxDischargeDepth := 40) +contextual [*]

@[simp] theorem kept_execBar0AccessInvalid {s0 : State} (offset size : Nat) (s : State) (h_s : Kept s0 s) :
    KeptOut s0 (execBar0AccessInvalid offset size s) := by
  unfold execBar0AccessInvalid
  repeat' (first
    | intro _
    | with_reducible assumption
    | (with_reducible refine keptEnd_ite _ _ _ ?_ ?_)
    | (with_reducible refine keptOut_ite _ _ _ ?_ ?_)
    | (with_reducible refine kept_ite _ _ _ ?_ ?_)
    | (with_reducible refine kept_ite_fst _ _ _ ?_ ?_)
    | (with_reducible refine kept_ite_snd _ _ _ ?_ ?_)
    | split
    | (with_reducible refine (keptOut_next _ _).mpr ?_)
    | (simp (maxDischargeDepth := 40) +contextual [*]; done)
    | dsimp only)

@[simp] theorem kept_execGlobalPersistentFlush {s0 : State} (phase : Nat) (s : State) (h_s : Kept s0 s) :
    KeptOut s0 (execGlobalPersistentFlush phase s) := by
  unfold execGlobalPersistentFlush; simp (maxDischargeDepth := 40) +contextual [*]

@[simp] theorem kept_decommit {s0 : State} (s : State) (n : Nat) (h_s : Kept s0 s) :
    Kept s0 (decommit s n) := by
  unfold decommit; simp (maxDischargeDepth := 40) +contextual [*]

@[simp] theorem kept_execHdmDecoderCommit {s0 : State} (decoder : Fin 4) (hpaBase size dpaBase ways granularity : Nat)
    (s : State) (h_s : Kept s0 s) :
    KeptOut s0 (execHdmDecoderCommit decoder hpaBase size dpaBase ways granularity s) := by
  unfold execHdmDecoderCommit
  dsimp only
  repeat' (first
    | intro _
    | with_reducible assumption
    | (with_reducible refine keptEnd_ite _ _ _ ?_ ?_)
    | (with_reducible refine keptOut_ite _ _ _ ?_ ?_)
    | (with_reducible refine kept_ite _ _ _ ?_ ?_)
    | (with_reducible refine kept_ite_fst _ _ _ ?_ ?_)
    | (with_reducible refine kept_ite_snd _ _ _ ?_ ?_)
    | split
    | (with_reducible refine (keptOut_next _ _).mpr ?_)
    | (simp (maxDischargeDepth := 40) +contextual [*]; done))

@[simp] theorem kept_execMemRd {s0 : State} (hpa : Nat) (exclusive : Bool) (s : State) (h_s : Kept s0 s) :
    KeptOut s0 (execMemRd hpa exclusive s) := by
  unfold execMemRd
  repeat' (first
    | intro _
    | with_reducible assumption
    | (with_reducible refine keptEnd_ite _ _ _ ?_ ?_)
    | (with_reducible refine keptOut_ite _ _ _ ?_ ?_)
    | (with_reducible refine kept_ite _ _ _ ?_ ?_)
    | split
    | (with_reducible refine (keptOut_next _ _).mpr ?_)
    | (simp (maxDischargeDepth := 40) +contextual [*]; done)
    | dsimp only)

@[simp] theorem kept_execMemWr {s0 : State} (hpa : Nat) (data : Line) (mask : BitVec 64) (poison : Bool) (s : State)
    (h_s : Kept s0 s) :
    KeptOut s0 (execMemWr hpa data mask poison s) := by
  unfold execMemWr
  dsimp only
  repeat' (first
    | intro _
    | with_reducible assumption
    | (with_reducible refine keptEnd_ite _ _ _ ?_ ?_)
    | (with_reducible refine keptOut_ite _ _ _ ?_ ?_)
    | (with_reducible refine kept_ite _ _ _ ?_ ?_)
    | (with_reducible refine kept_ite_fst _ _ _ ?_ ?_)
    | (with_reducible refine kept_ite_snd _ _ _ ?_ ?_)
    | split
    | (with_reducible refine (keptOut_next _ _).mpr ?_)
    | (simp (maxDischargeDepth := 40) +contextual [*]; done))

@[simp] theorem kept_execBirspi {s0 : State} (dpa : Nat) (s : State) (h_s : Kept s0 s) :
    KeptOut s0 (execBirspi dpa s) := by
  unfold execBirspi
  repeat' (first
    | intro _
    | with_reducible assumption
    | (with_reducible refine keptEnd_ite _ _ _ ?_ ?_)
    | (with_reducible refine keptOut_ite _ _ _ ?_ ?_)
    | (with_reducible refine kept_ite _ _ _ ?_ ?_)
    | split
    | (with_reducible refine (keptOut_next _ _).mpr ?_)
    | (simp (maxDischargeDepth := 40) +contextual [*]; done)
    | dsimp only)

@[simp] theorem kept_execBisnpinvTimeout {s0 : State} (dpa : Nat) (s : State) (h_s : Kept s0 s) :
    KeptOut s0 (execBisnpinvTimeout dpa s) := by
  unfold execBisnpinvTimeout
  repeat' (first
    | intro _
    | with_reducible assumption
    | (with_reducible refine keptEnd_ite _ _ _ ?_ ?_)
    | (with_reducible refine keptOut_ite _ _ _ ?_ ?_)
    | (with_reducible refine kept_ite _ _ _ ?_ ?_)
    | (with_reducible refine kept_ite_fst _ _ _ ?_ ?_)
    | (with_reducible refine kept_ite_snd _ _ _ ?_ ?_)
    | split
    | (with_reducible refine (keptOut_next _ _).mpr ?_)
    | (simp (maxDischargeDepth := 40) +contextual [*]; done)
    | dsimp only)

end Sys2Proof.Machine
end

