-- ==== Sys2Proof/Laws/Kept/ChannelEvents.lean ====
section
/-! SUPPORT. The operations of ChannelEvents keep the queue, the canonical form of the array and the fuses that are set. -/

namespace Sys2Proof.Machine

@[simp] theorem kept_wakeChannel {s0 : State} (s : State) (n : Nat) (h_s : Kept s0 s) :
    Kept s0 (wakeChannel s n) := by
  unfold wakeChannel; simp (maxDischargeDepth := 40) +contextual [*]

@[simp] theorem kept_execWatchWake {s0 : State} (chan : Fin 16384) (s : State) (h_s : Kept s0 s) :
    KeptOut s0 (execWatchWake chan s) := by
  unfold execWatchWake
  repeat' (first
    | intro _
    | with_reducible assumption
    | (with_reducible refine keptEnd_ite _ _ _ ?_ ?_)
    | (with_reducible refine keptOut_ite _ _ _ ?_ ?_)
    | (with_reducible refine kept_ite _ _ _ ?_ ?_)
    | split
    | (with_reducible refine (keptOut_next _ _).mpr ?_)
    | (simp (maxDischargeDepth := 40) +contextual [*]; done)
    | dsimp only)

@[simp] theorem kept_execSnpinv {s0 : State} (addr : W64) (s : State) (h_s : Kept s0 s) :
    KeptOut s0 (execSnpinv addr s) := by
  unfold execSnpinv
  repeat' (first
    | intro _
    | with_reducible assumption
    | (with_reducible refine keptEnd_ite _ _ _ ?_ ?_)
    | (with_reducible refine keptOut_ite _ _ _ ?_ ?_)
    | (with_reducible refine kept_ite _ _ _ ?_ ?_)
    | split
    | (with_reducible refine (keptOut_next _ _).mpr ?_)
    | (simp (maxDischargeDepth := 40) +contextual [*]; done)
    | dsimp only)

@[simp] theorem kept_execSnpdata {s0 : State} (addr : W64) (s : State) (h_s : Kept s0 s) :
    KeptOut s0 (execSnpdata addr s) := by
  unfold execSnpdata
  repeat' (first
    | intro _
    | with_reducible assumption
    | (with_reducible refine keptEnd_ite _ _ _ ?_ ?_)
    | (with_reducible refine keptOut_ite _ _ _ ?_ ?_)
    | (with_reducible refine kept_ite _ _ _ ?_ ?_)
    | split
    | (with_reducible refine (keptOut_next _ _).mpr ?_)
    | (simp (maxDischargeDepth := 40) +contextual [*]; done)
    | dsimp only)

@[simp] theorem kept_fetchEntries {s0 : State} (s : State) (n : Nat) (p : W32) (k : Nat) (h_s : Kept s0 s) :
    Kept s0 (fetchEntries s n p k) := by
  unfold fetchEntries; simp (maxDischargeDepth := 40) +contextual [*]

@[simp] theorem kept_serveWatch {s0 : State} (s : State) (n : Nat) (sqHead cqRead : W32) (h_s : Kept s0 s) :
    Kept s0 (serveWatch s n sqHead cqRead) := by
  unfold serveWatch; simp (maxDischargeDepth := 40) +contextual [*]

@[simp] theorem kept_execWatchWakeService {s0 : State} (chan : Fin 16384) (sqHead cqRead : W32) (s : State) (h_s : Kept s0 s) :
    KeptOut s0 (execWatchWakeService chan sqHead cqRead s) := by
  unfold execWatchWakeService
  dsimp only
  repeat' (first
    | intro _
    | with_reducible assumption
    | (with_reducible refine keptEnd_ite _ _ _ ?_ ?_)
    | (with_reducible refine keptOut_ite _ _ _ ?_ ?_)
    | (with_reducible refine kept_ite _ _ _ ?_ ?_)
    | (with_reducible refine kept_ite_fst _ _ _ ?_ ?_)
    | (with_reducible refine kept_ite_snd _ _ _ ?_ ?_)
    | split
    | (with_reducible refine (keptOut_next _ _).mpr ?_)
    | (simp (maxDischargeDepth := 40) +contextual [*]; done))

@[simp] theorem kept_tallySent {s0 : State} (s : State) (t : Nat) (e : Completion) (h_s : Kept s0 s) :
    Kept s0 (tallySent s t e) := by
  unfold tallySent; simp (maxDischargeDepth := 40) +contextual [*]

@[simp] theorem kept_discardUnsent {s0 : State} (s : State) (n : Nat) (h_s : Kept s0 s) :
    Kept s0 (discardUnsent s n) := by
  unfold discardUnsent; simp (maxDischargeDepth := 40) +contextual [*]

@[simp] theorem kept_suspendChannel {s0 : State} (s : State) (n : Nat) (h_s : Kept s0 s) :
    Kept s0 (suspendChannel s n) := by
  unfold suspendChannel; simp (maxDischargeDepth := 40) +contextual [*]

@[simp] theorem kept_execD2hCompletion {s0 : State} (chan : Fin 16384) (write goErr : Bool) (s : State) (h_s : Kept s0 s) :
    KeptOut s0 (execD2hCompletion chan write goErr s) := by
  unfold execD2hCompletion
  dsimp only
  repeat' (first
    | intro _
    | with_reducible assumption
    | (with_reducible refine keptEnd_ite _ _ _ ?_ ?_)
    | (with_reducible refine keptOut_ite _ _ _ ?_ ?_)
    | (with_reducible refine kept_ite _ _ _ ?_ ?_)
    | (with_reducible refine kept_ite_fst _ _ _ ?_ ?_)
    | (with_reducible refine kept_ite_snd _ _ _ ?_ ?_)
    | split
    | (with_reducible refine (keptOut_next _ _).mpr ?_)
    | (simp (maxDischargeDepth := 40) +contextual [*]; done))

end Sys2Proof.Machine
end

