-- ==== Sys2Proof/Laws/Kept/SlowTier.lean ====
section
/-! SUPPORT. The operations of SlowTier keep the queue, the canonical form of the array and the fuses that are set. -/

namespace Sys2Proof.Machine

@[simp] theorem kept_failUio {s0 : State} (s : State) (u : UioUse) (h_s : Kept s0 s) :
    Kept s0 (failUio s u) := by
  unfold failUio
  dsimp only
  repeat' (first
    | intro _
    | with_reducible assumption
    | split
    | (simp (maxDischargeDepth := 40) +contextual [*]; done))

@[simp] theorem kept_againUio {s0 : State} (s : State) (u : UioUse) (h_s : Kept s0 s) :
    Kept s0 (againUio s u) := by
  unfold againUio
  dsimp only
  repeat' (first
    | intro _
    | with_reducible assumption
    | (with_reducible refine kept_ite _ _ _ ?_ ?_)
    | (with_reducible refine kept_ite_fst _ _ _ ?_ ?_)
    | (with_reducible refine kept_ite_snd _ _ _ ?_ ?_)
    | split
    | (simp (maxDischargeDepth := 40) +contextual [*]; done))

@[simp] theorem kept_doneUio {s0 : State} (s : State) (u : UioUse) (data : List Byte) (disturbed : Nat) (h_s : Kept s0 s) :
    Kept s0 (doneUio s u data disturbed) := by
  unfold doneUio
  dsimp only
  repeat' (first
    | intro _
    | with_reducible assumption
    | (with_reducible refine kept_ite _ _ _ ?_ ?_)
    | (with_reducible refine kept_ite_fst _ _ _ ?_ ?_)
    | (with_reducible refine kept_ite_snd _ _ _ ?_ ?_)
    | split
    | (simp (maxDischargeDepth := 40) +contextual [*]; done))

@[simp] theorem kept_execUioCompletion {s0 : State} (tag : Nat) (ok : Bool) (data : List Byte) (disturbed : Nat) (s : State)
    (h_s : Kept s0 s) :
    KeptOut s0 (execUioCompletion tag ok data disturbed s) := by
  unfold execUioCompletion
  dsimp only
  repeat' (first
    | intro _
    | with_reducible assumption
    | (with_reducible refine keptEnd_ite _ _ _ ?_ ?_)
    | (with_reducible refine keptOut_ite _ _ _ ?_ ?_)
    | (with_reducible refine kept_ite _ _ _ ?_ ?_)
    | (with_reducible refine kept_ite_fst _ _ _ ?_ ?_)
    | (with_reducible refine kept_ite_snd _ _ _ ?_ ?_)
    | split
    | (with_reducible refine (keptOut_next _ _).mpr ?_)
    | (simp (maxDischargeDepth := 40) +contextual [*]; done))

@[simp] theorem kept_execUioTimeout {s0 : State} (tag : Nat) (s : State) (h_s : Kept s0 s) :
    KeptOut s0 (execUioTimeout tag s) := by
  unfold execUioTimeout
  dsimp only
  repeat' (first
    | intro _
    | with_reducible assumption
    | (with_reducible refine keptEnd_ite _ _ _ ?_ ?_)
    | (with_reducible refine keptOut_ite _ _ _ ?_ ?_)
    | (with_reducible refine kept_ite _ _ _ ?_ ?_)
    | (with_reducible refine kept_ite_fst _ _ _ ?_ ?_)
    | (with_reducible refine kept_ite_snd _ _ _ ?_ ?_)
    | split
    | (with_reducible refine (keptOut_next _ _).mpr ?_)
    | (simp (maxDischargeDepth := 40) +contextual [*]; done))

@[simp] theorem kept_failAllUio {s0 : State} (s : State) (h_s : Kept s0 s) :
    Kept s0 (failAllUio s) := by
  unfold failAllUio
  repeat' (first
    | intro _
    | with_reducible assumption
    | (with_reducible refine kept_ite _ _ _ ?_ ?_)
    | split
    | (with_reducible refine kept_foldl _ _ _ ?_ ?_)
    | (with_reducible refine kept_foldl_snd _ _ _ ?_ ?_)
    | (with_reducible refine kept_foldl_fst _ _ _ ?_ ?_)
    | (simp (maxDischargeDepth := 40) +contextual [*]; done)
    | dsimp only)

end Sys2Proof.Machine
end

