-- ==== Sys2Proof/Laws/Kept/HostResets.lean ====
section
/-! SUPPORT. The operations of HostResets keep the queue, the canonical form of the array and the fuses that are set. -/

namespace Sys2Proof.Machine

@[simp] theorem kept_dropStaged {s0 : State} (s : State) (h_s : Kept s0 s) :
    Kept s0 (dropStaged s) := by
  unfold dropStaged; simp (maxDischargeDepth := 40) +contextual [*]

@[simp] theorem kept_failStage {s0 : State} (s : State) (e : Ev) (offset : W32) (a32 : List W32) (a64 : List W64)
    (h_s : Kept s0 s) :
    Kept s0 (failStage s e offset a32 a64) := by
  unfold failStage; simp (maxDischargeDepth := 40) +contextual [*]

@[simp] theorem kept_failFetch {s0 : State} (s : State) (h_s : Kept s0 s) :
    Kept s0 (failFetch s) := by
  unfold failFetch; simp (maxDischargeDepth := 40) +contextual [*]

@[simp] theorem kept_stopRequests {s0 : State} (s : State) (h_s : Kept s0 s) :
    Kept s0 (stopRequests s) := by
  unfold stopRequests; simp (maxDischargeDepth := 40) +contextual [*]

@[simp] theorem kept_execBusMasterClear {s0 : State} (s : State) (h_s : Kept s0 s) :
    KeptOut s0 (execBusMasterClear s) := by
  unfold execBusMasterClear; simp (maxDischargeDepth := 40) +contextual [*]

@[simp] theorem kept_abandonMailbox {s0 : State} (s : State) (h_s : Kept s0 s) :
    Kept s0 (abandonMailbox s) := by
  unfold abandonMailbox; simp (maxDischargeDepth := 40) +contextual [*]

@[simp] theorem kept_resetFunction {s0 : State} (s : State) (h_s : Kept s0 s) :
    Kept s0 (resetFunction s) := by
  unfold resetFunction; simp (maxDischargeDepth := 40) +contextual [*]

@[simp] theorem kept_execFunctionLevelReset {s0 : State} (s : State) (h_s : Kept s0 s) :
    KeptOut s0 (execFunctionLevelReset s) := by
  unfold execFunctionLevelReset; simp (maxDischargeDepth := 40) +contextual [*]

@[simp] theorem kept_resetMemory {s0 : State} (s : State) (h_s : Kept s0 s) :
    Kept s0 (resetMemory s) := by
  unfold resetMemory; simp (maxDischargeDepth := 40) +contextual [*]

@[simp] theorem kept_execCxlReset {s0 : State} (s : State) (h_s : Kept s0 s) :
    KeptOut s0 (execCxlReset s) := by
  unfold execCxlReset; simp (maxDischargeDepth := 40) +contextual [*]

@[simp] theorem kept_hotReset {s0 : State} (s : State) (h_s : Kept s0 s) :
    Kept s0 (hotReset s) := by
  unfold hotReset; simp (maxDischargeDepth := 40) +contextual [*]

@[simp] theorem kept_execHotReset {s0 : State} (s : State) (h_s : Kept s0 s) :
    KeptOut s0 (execHotReset s) := by
  unfold execHotReset; simp (maxDischargeDepth := 40) +contextual [*]

@[simp] theorem kept_execCxlLinkUp {s0 : State} (width rate : Nat) (s : State) (h_s : Kept s0 s) :
    KeptOut s0 (execCxlLinkUp width rate s) := by
  unfold execCxlLinkUp
  dsimp only
  repeat' (first
    | intro _
    | with_reducible assumption
    | (with_reducible refine keptEnd_ite _ _ _ ?_ ?_)
    | (with_reducible refine keptOut_ite _ _ _ ?_ ?_)
    | (with_reducible refine kept_ite _ _ _ ?_ ?_)
    | (with_reducible refine kept_ite_fst _ _ _ ?_ ?_)
    | (with_reducible refine kept_ite_snd _ _ _ ?_ ?_)
    | split
    | (with_reducible refine (keptOut_next _ _).mpr ?_)
    | (simp (maxDischargeDepth := 40) +contextual [*]; done))

end Sys2Proof.Machine
end

