-- ==== Sys2Proof/Laws/Kept/Mailbox.lean ====
section
/-! SUPPORT. The operations of Mailbox keep the queue, the canonical form of the array and the fuses that are set. -/

namespace Sys2Proof.Machine

@[simp] theorem kept_reply {s0 : State} (s : State) (cci op : Nat) (st : Status) (code : W32) (out : List Byte)
    (h_s : Kept s0 s) :
    Kept s0 (reply s cci op st code out) := by
  unfold reply; simp (maxDischargeDepth := 40) +contextual [*]

@[simp] theorem kept_replyOk {s0 : State} (s : State) (cci op : Nat) (out : List Byte) (h_s : Kept s0 s) :
    Kept s0 (replyOk s cci op out) := by
  unfold replyOk; simp (maxDischargeDepth := 40) +contextual [*]

@[simp] theorem kept_refuse {s0 : State} (s : State) (cci op : Nat) (code : W32) (h_s : Kept s0 s) :
    Kept s0 (refuse s cci op code) := by
  unfold refuse; simp (maxDischargeDepth := 40) +contextual [*]

@[simp] theorem kept_refuseWith {s0 : State} (s : State) (cci op : Nat) (e : Ev) (u : Nat) (t : Option Nat) (a32 : List W32)
    (a64 : List W64) (h_s : Kept s0 s) :
    Kept s0 (refuseWith s cci op e u t a32 a64) := by
  unfold refuseWith; simp (maxDischargeDepth := 40) +contextual [*]

@[simp] theorem kept_startBg {s0 : State} (s : State) (cci op : Nat) (h_s : Kept s0 s) :
    Kept s0 (startBg s cci op) := by
  unfold startBg; simp (maxDischargeDepth := 40) +contextual [*]

@[simp] theorem kept_vendorBody {s0 : State} (s : State) (cci op : Nat) (own : List Byte) (reservedOk : List Byte → Bool)
    (bg : Bool) (act : State → List Byte → State) (h_act : ∀ (x0 : State) (x1 : List Byte), Kept s0 x0 → Kept s0 (act x0 x1))
    (h_s : Kept s0 s) :
    Kept s0 (vendorBody s cci op own reservedOk bg act) := by
  unfold vendorBody; simp (maxDischargeDepth := 40) +contextual [*]

@[simp] theorem kept_vendor {s0 : State} (s : State) (cci op : Nat) (input : List Byte) (len : Nat)
    (reservedOk : List Byte → Bool) (bg : Bool) (act : State → List Byte → State) (h_act : ∀ (x0 : State)
    (x1 : List Byte), Kept s0 x0 → Kept s0 (act x0 x1)) (h_s : Kept s0 s) :
    Kept s0 (vendor s cci op input len reservedOk bg act) := by
  unfold vendor; simp (maxDischargeDepth := 40) +contextual [*]

@[simp] theorem kept_signed {s0 : State} (s : State) (cci op : Nat) (input : List Byte) (len : Nat)
    (reservedOk : List Byte → Bool) (bg : Bool) (who : List Byte → Nat → Bool) (act : State → List Byte → State) (h_act : ∀
    (x0 : State) (x1 : List Byte), Kept s0 x0 → Kept s0 (act x0 x1)) (h_s : Kept s0 s) :
    Kept s0 (signed s cci op input len reservedOk bg who act) := by
  unfold signed
  dsimp only
  repeat' (first
    | intro _
    | with_reducible assumption
    | (with_reducible refine kept_ite _ _ _ ?_ ?_)
    | (with_reducible refine kept_ite_fst _ _ _ ?_ ?_)
    | (with_reducible refine kept_ite_snd _ _ _ ?_ ?_)
    | split
    | (with_reducible apply kept_vendorBody)
    | (simp (maxDischargeDepth := 40) +contextual [*]; done))

end Sys2Proof.Machine
end

