-- ==== Sys2Proof/Laws/Kept/MailStandard.lean ====
section
/-! SUPPORT. The operations of MailStandard keep the queue, the canonical form of the array and the fuses that are set. -/

namespace Sys2Proof.Machine

@[simp] theorem kept_standard {s0 : State} (s : State) (cci : Nat) (act : State → State) (h_act : ∀
    (x0 : State), Kept s0 x0 → Kept s0 (act x0)) (h_s : Kept s0 s) :
    Kept s0 (standard s cci act) := by
  unfold standard; simp (maxDischargeDepth := 40) +contextual [*]

@[simp] theorem kept_execIdentify {s0 : State} (cci : Fin 2) (s : State) (h_s : Kept s0 s) :
    KeptOut s0 (execIdentify cci s) := by
  unfold execIdentify; simp (maxDischargeDepth := 40) +contextual [*]

@[simp] theorem kept_execBackgroundOperationStatus {s0 : State} (cci : Fin 2) (s : State) (h_s : Kept s0 s) :
    KeptOut s0 (execBackgroundOperationStatus cci s) := by
  unfold execBackgroundOperationStatus; simp (maxDischargeDepth := 40) +contextual [*]

@[simp] theorem kept_abortBackground {s0 : State} (s : State) (op : Nat) (h_s : Kept s0 s) :
    KeptOpt s0 (abortBackground s op) := by
  unfold abortBackground
  dsimp only
  repeat' (first
    | intro _
    | with_reducible assumption
    | (with_reducible refine keptOpt_ite _ _ _ ?_ ?_)
    | (with_reducible refine kept_ite _ _ _ ?_ ?_)
    | (with_reducible refine kept_ite_fst _ _ _ ?_ ?_)
    | (with_reducible refine kept_ite_snd _ _ _ ?_ ?_)
    | split
    | (simp (maxDischargeDepth := 40) +contextual [*]; done))

@[simp] theorem kept_execRequestAbortBackgroundOperation {s0 : State} (cci : Fin 2) (s : State) (h_s : Kept s0 s) :
    KeptOut s0 (execRequestAbortBackgroundOperation cci s) := by
  unfold execRequestAbortBackgroundOperation
  repeat' (first
    | intro _
    | with_reducible assumption
    | (split <;> (try (rename_i hq; replace hq := KeptOpt.of_eq (s0 := s0) hq (by clear hq; simp (maxDischargeDepth := 40) +contextual [*]))))
    | (with_reducible refine (keptOut_next _ _).mpr ?_)
    | (with_reducible apply kept_standard)
    | (simp (maxDischargeDepth := 40) +contextual [*]; done)
    | dsimp only)

@[simp] theorem kept_execGetEventRecords {s0 : State} (cci : Fin 2) (log : Fin 4) (s : State) (h_s : Kept s0 s) :
    KeptOut s0 (execGetEventRecords cci log s) := by
  unfold execGetEventRecords; simp (maxDischargeDepth := 40) +contextual [*]

@[simp] theorem kept_execClearEventRecords {s0 : State} (cci : Fin 2) (log : Fin 4) (all : Bool) (handles : List W32)
    (s : State) (h_s : Kept s0 s) :
    KeptOut s0 (execClearEventRecords cci log all handles s) := by
  unfold execClearEventRecords; simp (maxDischargeDepth := 40) +contextual [*]

@[simp] theorem kept_execGetEventInterruptPolicy {s0 : State} (cci : Fin 2) (s : State) (h_s : Kept s0 s) :
    KeptOut s0 (execGetEventInterruptPolicy cci s) := by
  unfold execGetEventInterruptPolicy; simp (maxDischargeDepth := 40) +contextual [*]

@[simp] theorem kept_execSetEventInterruptPolicy {s0 : State} (cci : Fin 2) (settings : List Byte) (s : State)
    (h_s : Kept s0 s) :
    KeptOut s0 (execSetEventInterruptPolicy cci settings s) := by
  unfold execSetEventInterruptPolicy; simp (maxDischargeDepth := 40) +contextual [*]

@[simp] theorem kept_execGetFwInfo {s0 : State} (cci : Fin 2) (s : State) (h_s : Kept s0 s) :
    KeptOut s0 (execGetFwInfo cci s) := by
  unfold execGetFwInfo; simp (maxDischargeDepth := 40) +contextual [*]

@[simp] theorem kept_setFw {s0 : State} (s : State) (k : Nat) (f : Option FwImage) (m : Mark) (h_s : Kept s0 s) :
    Kept s0 (setFw s k f m) := by
  unfold setFw; simp (maxDischargeDepth := 40) +contextual [*]

@[simp] theorem kept_execTransferFw {s0 : State} (cci : Fin 2) (slot : Nat) (image : List Byte) (s : State) (h_s : Kept s0 s) :
    KeptOut s0 (execTransferFw cci slot image s) := by
  unfold execTransferFw
  dsimp only
  repeat' (first
    | intro _
    | with_reducible assumption
    | (with_reducible refine keptEnd_ite _ _ _ ?_ ?_)
    | (with_reducible refine keptOut_ite _ _ _ ?_ ?_)
    | (with_reducible refine kept_ite _ _ _ ?_ ?_)
    | (with_reducible refine kept_ite_fst _ _ _ ?_ ?_)
    | (with_reducible refine kept_ite_snd _ _ _ ?_ ?_)
    | split
    | (with_reducible refine (keptOut_next _ _).mpr ?_)
    | (with_reducible apply kept_standard)
    | (simp (maxDischargeDepth := 40) +contextual [*]; done))

@[simp] theorem kept_restartBoot {s0 : State} (s : State) (k : Nat) (h_s : Kept s0 s) :
    Kept s0 (restartBoot s k) := by
  unfold restartBoot; simp (maxDischargeDepth := 40) +contextual [*]

@[simp] theorem kept_execActivateFw {s0 : State} (cci : Fin 2) (online : Bool) (slot : Nat) (s : State) (h_s : Kept s0 s) :
    KeptOut s0 (execActivateFw cci online slot s) := by
  unfold execActivateFw; simp (maxDischargeDepth := 40) +contextual [*]

@[simp] theorem kept_execGetSupportedLogs {s0 : State} (cci : Fin 2) (s : State) (h_s : Kept s0 s) :
    KeptOut s0 (execGetSupportedLogs cci s) := by
  unfold execGetSupportedLogs; simp (maxDischargeDepth := 40) +contextual [*]

@[simp] theorem kept_execGetLog {s0 : State} (cci : Fin 2) (vendorLog : Bool) (s : State) (h_s : Kept s0 s) :
    KeptOut s0 (execGetLog cci vendorLog s) := by
  unfold execGetLog; simp (maxDischargeDepth := 40) +contextual [*]

@[simp] theorem kept_execPerformMaintenance {s0 : State} (cci : Fin 2) (soft : Bool) (dpa _disturbed : Nat) (s : State)
    (h_s : Kept s0 s) :
    KeptOut s0 (execPerformMaintenance cci soft dpa _disturbed s) := by
  unfold execPerformMaintenance
  dsimp only
  repeat' (first
    | intro _
    | with_reducible assumption
    | (with_reducible refine keptEnd_ite _ _ _ ?_ ?_)
    | (with_reducible refine keptOut_ite _ _ _ ?_ ?_)
    | (with_reducible refine kept_ite _ _ _ ?_ ?_)
    | (with_reducible refine kept_ite_fst _ _ _ ?_ ?_)
    | (with_reducible refine kept_ite_snd _ _ _ ?_ ?_)
    | (split <;> (try (rename_i hq; replace hq := KeptOpt.of_eq (s0 := s0) hq (by clear hq; simp (maxDischargeDepth := 40) +contextual [*]))))
    | (with_reducible refine (keptOut_next _ _).mpr ?_)
    | (with_reducible apply kept_standard)
    | (simp (maxDischargeDepth := 40) +contextual [*]; done))

@[simp] theorem kept_execIdentifyMemoryDevice {s0 : State} (cci : Fin 2) (s : State) (h_s : Kept s0 s) :
    KeptOut s0 (execIdentifyMemoryDevice cci s) := by
  unfold execIdentifyMemoryDevice; simp (maxDischargeDepth := 40) +contextual [*]

@[simp] theorem kept_execGetHealthInfo {s0 : State} (cci : Fin 2) (s : State) (h_s : Kept s0 s) :
    KeptOut s0 (execGetHealthInfo cci s) := by
  unfold execGetHealthInfo; simp (maxDischargeDepth := 40) +contextual [*]

@[simp] theorem kept_poisonCommand {s0 : State} (s : State) (cci op : Nat) (act : State → State) (h_act : ∀
    (x0 : State), Kept s0 x0 → Kept s0 (act x0)) (h_s : Kept s0 s) :
    Kept s0 (poisonCommand s cci op act) := by
  unfold poisonCommand; simp (maxDischargeDepth := 40) +contextual [*]

@[simp] theorem kept_execGetPoisonList {s0 : State} (cci : Fin 2) (s : State) (h_s : Kept s0 s) :
    KeptOut s0 (execGetPoisonList cci s) := by
  unfold execGetPoisonList; simp (maxDischargeDepth := 40) +contextual [*]

@[simp] theorem kept_poisonLine {s0 : State} (s : State) (cci op dpa : Nat) (data : Option Line) (h_s : Kept s0 s) :
    Kept s0 (poisonLine s cci op dpa data) := by
  unfold poisonLine; simp (maxDischargeDepth := 40) +contextual [*]

@[simp] theorem kept_execInjectPoison {s0 : State} (cci : Fin 2) (dpa : Nat) (s : State) (h_s : Kept s0 s) :
    KeptOut s0 (execInjectPoison cci dpa s) := by
  unfold execInjectPoison; simp (maxDischargeDepth := 40) +contextual [*]

@[simp] theorem kept_execClearPoison {s0 : State} (cci : Fin 2) (dpa : Nat) (data : Line) (s : State) (h_s : Kept s0 s) :
    KeptOut s0 (execClearPoison cci dpa data s) := by
  unfold execClearPoison; simp (maxDischargeDepth := 40) +contextual [*]

@[simp] theorem kept_execMailboxUnsupported {s0 : State} (cci : Fin 2) (opcode : Nat) (s : State) (h_s : Kept s0 s) :
    KeptOut s0 (execMailboxUnsupported cci opcode s) := by
  unfold execMailboxUnsupported; simp (maxDischargeDepth := 40) +contextual [*]

end Sys2Proof.Machine
end

