-- ==== Sys2Proof/Laws/Kept/Marks.lean ====
section
/-! SUPPORT. The operations of Marks keep the queue, the canonical form of the array and the fuses that are set. -/

namespace Sys2Proof.Machine

@[simp] theorem kept_takeDealer {s0 : State} (s : State) (port : Option Nat) (hdr : FrameHdr) (b : FrameBody) (group : W32)
    (ok : State → Deck → Nat → Bool) (act : State → Deck → State) (h_act : ∀ (x0 : State) (x1 : Deck), Kept s0 x0 → Kept s0
    (act x0 x1)) (h_s : Kept s0 s) :
    Kept s0 (takeDealer s port hdr b group ok act) := by
  unfold takeDealer
  repeat' (first
    | intro _
    | with_reducible assumption
    | (with_reducible refine kept_ite _ _ _ ?_ ?_)
    | split
    | (simp (maxDischargeDepth := 40) +contextual [*]; done)
    | dsimp only)

@[simp] theorem kept_forwardDown {s0 : State} (s : State) (hdr : FrameHdr) (b : FrameBody) (h_s : Kept s0 s) :
    Kept s0 (forwardDown s hdr b) := by
  unfold forwardDown; simp (maxDischargeDepth := 40) +contextual [*]

@[simp] theorem kept_acceptMark {s0 : State} (s : State) (table : Nat) (round : W32) (h_s : Kept s0 s) :
    Kept s0 (acceptMark s table round) := by
  unfold acceptMark; simp (maxDischargeDepth := 40) +contextual [*]

@[simp] theorem kept_takeRoundMark {s0 : State} (s : State) (port : Option Nat) (hdr : FrameHdr) (group round : W32)
    (h_s : Kept s0 s) :
    Kept s0 (takeRoundMark s port hdr group round) := by
  unfold takeRoundMark; simp (maxDischargeDepth := 40) +contextual [*]

@[simp] theorem kept_execRoundMark {s0 : State} (hdr : FrameHdr) (group round : W32) (s : State) (h_s : Kept s0 s) :
    KeptOut s0 (execRoundMark hdr group round s) := by
  unfold execRoundMark; simp (maxDischargeDepth := 40) +contextual [*]

@[simp] theorem kept_takeAbortReq {s0 : State} (s : State) (port : Option Nat) (hdr : FrameHdr) (group code : W32)
    (h_s : Kept s0 s) :
    Kept s0 (takeAbortReq s port hdr group code) := by
  unfold takeAbortReq
  repeat' (first
    | intro _
    | with_reducible assumption
    | (with_reducible refine kept_ite _ _ _ ?_ ?_)
    | split
    | (simp (maxDischargeDepth := 40) +contextual [*]; done)
    | dsimp only)

@[simp] theorem kept_execAbortReq {s0 : State} (hdr : FrameHdr) (group code : W32) (s : State) (h_s : Kept s0 s) :
    KeptOut s0 (execAbortReq hdr group code s) := by
  unfold execAbortReq; simp (maxDischargeDepth := 40) +contextual [*]

@[simp] theorem kept_takeAbort {s0 : State} (s : State) (port : Option Nat) (hdr : FrameHdr) (origin : Nat) (group code : W32)
    (h_s : Kept s0 s) :
    Kept s0 (takeAbort s port hdr origin group code) := by
  unfold takeAbort; simp (maxDischargeDepth := 40) +contextual [*]

@[simp] theorem kept_execAbort {s0 : State} (hdr : FrameHdr) (origin : Nat) (group code : W32) (s : State) (h_s : Kept s0 s) :
    KeptOut s0 (execAbort hdr origin group code s) := by
  unfold execAbort; simp (maxDischargeDepth := 40) +contextual [*]

@[simp] theorem kept_takeAnnounce {s0 : State} (s : State) (port : Option Nat) (hdr : FrameHdr) (group serial : W32)
    (h_s : Kept s0 s) :
    Kept s0 (takeAnnounce s port hdr group serial) := by
  unfold takeAnnounce; simp (maxDischargeDepth := 40) +contextual [*]

@[simp] theorem kept_execSwitchAnnounce {s0 : State} (hdr : FrameHdr) (group serial : W32) (s : State) (h_s : Kept s0 s) :
    KeptOut s0 (execSwitchAnnounce hdr group serial s) := by
  unfold execSwitchAnnounce; simp (maxDischargeDepth := 40) +contextual [*]

@[simp] theorem kept_takeCancel {s0 : State} (s : State) (port : Option Nat) (hdr : FrameHdr) (group code : W32)
    (h_s : Kept s0 s) :
    Kept s0 (takeCancel s port hdr group code) := by
  unfold takeCancel; simp (maxDischargeDepth := 40) +contextual [*]

@[simp] theorem kept_execSwitchCancel {s0 : State} (hdr : FrameHdr) (group code : W32) (s : State) (h_s : Kept s0 s) :
    KeptOut s0 (execSwitchCancel hdr group code s) := by
  unfold execSwitchCancel; simp (maxDischargeDepth := 40) +contextual [*]

@[simp] theorem kept_gatherDone {s0 : State} (s : State) (d : Deck) (h_s : Kept s0 s) :
    Kept s0 (gatherDone s d) := by
  unfold gatherDone
  repeat' (first
    | intro _
    | with_reducible assumption
    | split
    | (simp (maxDischargeDepth := 40) +contextual [*]; done)
    | dsimp only)

@[simp] theorem kept_takeGatherReply {s0 : State} (s : State) (member : Nat) (st : SwitchState) (h_s : Kept s0 s) :
    Kept s0 (takeGatherReply s member st) := by
  unfold takeGatherReply
  dsimp only
  repeat' (first
    | intro _
    | with_reducible assumption
    | (with_reducible refine kept_ite _ _ _ ?_ ?_)
    | (with_reducible refine kept_ite_fst _ _ _ ?_ ?_)
    | (with_reducible refine kept_ite_snd _ _ _ ?_ ?_)
    | split
    | (simp (maxDischargeDepth := 40) +contextual [*]; done))

@[simp] theorem kept_execSwitchGatherReply {s0 : State} (member : Nat) (st : SwitchState) (s : State) (h_s : Kept s0 s) :
    KeptOut s0 (execSwitchGatherReply member st s) := by
  unfold execSwitchGatherReply; simp (maxDischargeDepth := 40) +contextual [*]

@[simp] theorem kept_execSwitchGatherTimeout {s0 : State} (s : State) (h_s : Kept s0 s) :
    KeptOut s0 (execSwitchGatherTimeout s) := by
  unfold execSwitchGatherTimeout
  dsimp only
  repeat' (first
    | intro _
    | with_reducible assumption
    | (with_reducible refine keptEnd_ite _ _ _ ?_ ?_)
    | (with_reducible refine keptOut_ite _ _ _ ?_ ?_)
    | (with_reducible refine kept_ite _ _ _ ?_ ?_)
    | (with_reducible refine kept_ite_fst _ _ _ ?_ ?_)
    | (with_reducible refine kept_ite_snd _ _ _ ?_ ?_)
    | split
    | (with_reducible refine (keptOut_next _ _).mpr ?_)
    | (simp (maxDischargeDepth := 40) +contextual [*]; done))

@[simp] theorem kept_execSwitchLoadDone {s0 : State} (failed : Bool) (s : State) (h_s : Kept s0 s) :
    KeptOut s0 (execSwitchLoadDone failed s) := by
  unfold execSwitchLoadDone
  repeat' (first
    | intro _
    | with_reducible assumption
    | (with_reducible refine keptEnd_ite _ _ _ ?_ ?_)
    | (with_reducible refine keptOut_ite _ _ _ ?_ ?_)
    | (with_reducible refine kept_ite _ _ _ ?_ ?_)
    | split
    | (with_reducible refine (keptOut_next _ _).mpr ?_)
    | (simp (maxDischargeDepth := 40) +contextual [*]; done)
    | dsimp only)

end Sys2Proof.Machine
end

