-- ==== Sys2Proof/Laws/Kept/SecurityCommands.lean ====
section
/-! SUPPORT. The operations of SecurityCommands keep the queue, the canonical form of the array and the fuses that are set. -/

namespace Sys2Proof.Machine

/-- What setting more bits of an owner slot's fuses leaves. -/
theorem sget_or_fuse (m : Sparse Nat) (i v k : Nat) (hv : v ≠ 0) :
    sget 0 (sput 0 m i (sget 0 m i ||| v)) k = if k = i then sget 0 m i ||| v else sget 0 m k := by
  split
  · next h =>
    subst h
    refine sget_sput_same_of_ne 0 m k _ fun e => hv ?_
    have := Nat.right_le_or (n := sget 0 m k) (m := v)
    omega
  · next h => exact sget_sput_other 0 m i k _ h

theorem fuseLe_owner (m : Sparse Nat) (i v : Nat) (hv : v = 1 ∨ v = 3) :
    (∀ k, sget 0 m k = 3 → sget 0 (sput 0 m i (sget 0 m i ||| v)) k = 3) ∧
    (∀ k, sget 0 m k ≠ 0 → sget 0 (sput 0 m i (sget 0 m i ||| v)) k ≠ 0) := by
  have h0 : v ≠ 0 := by omega
  refine ⟨fun k h => ?_, fun k h => ?_⟩
  · rw [sget_or_fuse _ _ _ _ h0]
    split
    · next e => subst e; rw [h]; rcases hv with rfl | rfl <;> rfl
    · exact h
  · rw [sget_or_fuse _ _ _ _ h0]
    split
    · have := Nat.right_le_or (n := sget 0 m i) (m := v)
      omega
    · exact h

theorem fuseLe_hash (m : Sparse (BitVec 384)) (i : Nat) (h : BitVec 384) (k : Nat) :
    sget 0 m k &&& sget 0 (sput 0 m i (sget 0 m i ||| h)) k = sget 0 m k := by
  by_cases hk : k = i
  · subst hk
    by_cases hz : sget 0 m k ||| h = 0
    · have : sget 0 m k = 0 := by
        ext j hj
        have := congrArg (fun x => x.getLsbD j) hz
        simp_all
      rw [this]; simp
    · rw [sget_sput_same_of_ne 0 m k _ hz]
      ext j hj; simp +contextual
  · rw [sget_sput_other 0 m i k _ hk]; simp

@[simp] theorem kept_execSecNonceGet {s0 : State} (cci : Fin 2) (input : List Byte) (s : State) (h_s : Kept s0 s) :
    KeptOut s0 (execSecNonceGet cci input s) := by
  unfold execSecNonceGet; simp (maxDischargeDepth := 40) +contextual [*]

@[simp] theorem kept_execNonceExpiry {s0 : State} (cci : Fin 2) (s : State) (h_s : Kept s0 s) :
    KeptOut s0 (execNonceExpiry cci s) := by
  unfold execNonceExpiry; simp (maxDischargeDepth := 40) +contextual [*]

@[simp] theorem kept_execSecKeyState {s0 : State} (cci : Fin 2) (input : List Byte) (s : State) (h_s : Kept s0 s) :
    KeptOut s0 (execSecKeyState cci input s) := by
  unfold execSecKeyState; simp (maxDischargeDepth := 40) +contextual [*]

@[simp] theorem kept_queueFuse {s0 : State} (s : State) (cci op : Nat) (f : FuseOp) (h_s : Kept s0 s) :
    Kept s0 (queueFuse s cci op f) := by
  unfold queueFuse; simp (maxDischargeDepth := 40) +contextual [*]

@[simp] theorem kept_execSecOwnerEnroll {s0 : State} (cci : Fin 2) (input : List Byte) (s : State) (h_s : Kept s0 s) :
    KeptOut s0 (execSecOwnerEnroll cci input s) := by
  unfold execSecOwnerEnroll; simp (maxDischargeDepth := 40) +contextual [*]

@[simp] theorem kept_execSecOwnerRevoke {s0 : State} (cci : Fin 2) (input : List Byte) (s : State) (h_s : Kept s0 s) :
    KeptOut s0 (execSecOwnerRevoke cci input s) := by
  unfold execSecOwnerRevoke; simp (maxDischargeDepth := 40) +contextual [*]

@[simp] theorem kept_execSecSvnAdvance {s0 : State} (cci : Fin 2) (input : List Byte) (s : State) (h_s : Kept s0 s) :
    KeptOut s0 (execSecSvnAdvance cci input s) := by
  unfold execSecSvnAdvance; simp (maxDischargeDepth := 40) +contextual [*]

@[simp] theorem kept_execSecDebugUnlock {s0 : State} (cci : Fin 2) (input : List Byte) (s : State) (h_s : Kept s0 s) :
    KeptOut s0 (execSecDebugUnlock cci input s) := by
  unfold execSecDebugUnlock; simp (maxDischargeDepth := 40) +contextual [*]

@[simp] theorem kept_dropRevoked {s0 : State} (s : State) (slot : Nat) (h_s : Kept s0 s) :
    Kept s0 (dropRevoked s slot) := by
  unfold dropRevoked; simp (maxDischargeDepth := 40) +contextual [*]

@[simp] theorem kept_writeFuse {s0 : State} (s : State) (f : FuseOp) (h_s : Kept s0 s) :
    Kept s0 (writeFuse s f) := by
  unfold writeFuse
  split
  · next slot h =>
    exact kept_endBackground (h_s := kept_logGen (h_s := kept_sec h_s _ ⟨rfl, rfl, Nat.le_refl _, id,
      (fuseLe_owner _ slot 1 (.inl rfl)).1, (fuseLe_owner _ slot 1 (.inl rfl)).2, fuseLe_hash _ slot h⟩) ..) ..
  · next slot =>
    exact kept_dropRevoked (h_s := kept_endBackground (h_s := kept_logGen (h_s := kept_sec h_s _ ⟨rfl, rfl, Nat.le_refl _, id,
      (fuseLe_owner _ slot 3 (.inr rfl)).1, (fuseLe_owner _ slot 3 (.inr rfl)).2, fun _ => BitVec.and_self⟩) ..) ..) ..
  · next n =>
    exact kept_endBackground (h_s := kept_logGen (h_s := kept_sec h_s _ ⟨rfl, rfl, Nat.le_max_left .., id,
      fun _ h => h, fun _ h => h, fun _ => BitVec.and_self⟩) ..) ..
  · exact kept_endBackground (h_s := kept_logGen (h_s := kept_sec h_s _ ⟨rfl, rfl, Nat.le_refl _, fun _ => rfl,
      fun _ h => h, fun _ h => h, fun _ => BitVec.and_self⟩) ..) ..

@[simp] theorem kept_execFuseWrite {s0 : State} (s : State) (h_s : Kept s0 s) :
    KeptOut s0 (execFuseWrite s) := by
  unfold execFuseWrite
  dsimp only
  repeat' (first
    | intro _
    | with_reducible assumption
    | (with_reducible refine keptEnd_ite _ _ _ ?_ ?_)
    | (with_reducible refine keptOut_ite _ _ _ ?_ ?_)
    | (with_reducible refine kept_ite _ _ _ ?_ ?_)
    | split
    | (with_reducible refine (keptOut_next _ _).mpr ?_)
    | (simp (maxDischargeDepth := 40) +contextual [*]; done))

end Sys2Proof.Machine
end

