-- ==== Sys2Proof/Laws/Kept/Attest.lean ====
section
/-! SUPPORT. The operations of Attest keep the queue, the canonical form of the array and the fuses that are set. -/

namespace Sys2Proof.Machine

@[simp] theorem kept_spdm {s0 : State} (s : State) (act : State → State) (h_act : ∀ (x0 : State), Kept s0 x0 → Kept s0
    (act x0)) (h_s : Kept s0 s) :
    Kept s0 (spdm s act) := by
  unfold spdm; simp (maxDischargeDepth := 40) +contextual [*]

@[simp] theorem kept_spdmError {s0 : State} (s : State) (e : Byte) (h_s : Kept s0 s) :
    Kept s0 (spdmError s e) := by
  unfold spdmError; simp (maxDischargeDepth := 40) +contextual [*]

@[simp] theorem kept_spdmUnexpected {s0 : State} (s : State) (h_s : Kept s0 s) :
    Kept s0 (spdmUnexpected s) := by
  unfold spdmUnexpected; simp (maxDischargeDepth := 40) +contextual [*]

@[simp] theorem kept_spdmInvalid {s0 : State} (s : State) (h_s : Kept s0 s) :
    Kept s0 (spdmInvalid s) := by
  unfold spdmInvalid; simp (maxDischargeDepth := 40) +contextual [*]

@[simp] theorem kept_loseSession {s0 : State} (s : State) (h_s : Kept s0 s) :
    Kept s0 (loseSession s) := by
  unfold loseSession; simp (maxDischargeDepth := 40) +contextual [*]

@[simp] theorem kept_freeHash {s0 : State} (s : State) (h_s : Kept s0 s) :
    Kept s0 (freeHash s).2 := by
  unfold freeHash; simp (maxDischargeDepth := 40) +contextual [*]

@[simp] theorem kept_freeNonce {s0 : State} (s : State) (h_s : Kept s0 s) :
    Kept s0 (freeNonce s).2 := by
  unfold freeNonce; simp (maxDischargeDepth := 40) +contextual [*]

@[simp] theorem kept_signedResponse {s0 : State} (s : State) (code : Nat) (body : List Byte) (h_s : Kept s0 s) :
    Kept s0 (signedResponse s code body) := by
  unfold signedResponse; simp (maxDischargeDepth := 40) +contextual [*]

@[simp] theorem kept_execSpdmGetVersion {s0 : State} (s : State) (h_s : Kept s0 s) :
    KeptOut s0 (execSpdmGetVersion s) := by
  unfold execSpdmGetVersion; simp (maxDischargeDepth := 40) +contextual [*]

@[simp] theorem kept_execSpdmGetCapabilities {s0 : State} (s : State) (h_s : Kept s0 s) :
    KeptOut s0 (execSpdmGetCapabilities s) := by
  unfold execSpdmGetCapabilities; simp (maxDischargeDepth := 40) +contextual [*]

@[simp] theorem kept_execSpdmNegotiateAlgorithms {s0 : State} (s : State) (h_s : Kept s0 s) :
    KeptOut s0 (execSpdmNegotiateAlgorithms s) := by
  unfold execSpdmNegotiateAlgorithms; simp (maxDischargeDepth := 40) +contextual [*]

@[simp] theorem kept_execSpdmGetDigests {s0 : State} (s : State) (h_s : Kept s0 s) :
    KeptOut s0 (execSpdmGetDigests s) := by
  unfold execSpdmGetDigests; simp (maxDischargeDepth := 40) +contextual [*]

@[simp] theorem kept_execSpdmGetCertificate {s0 : State} (slot : Nat) (s : State) (h_s : Kept s0 s) :
    KeptOut s0 (execSpdmGetCertificate slot s) := by
  unfold execSpdmGetCertificate; simp (maxDischargeDepth := 40) +contextual [*]

@[simp] theorem kept_execSpdmChallenge {s0 : State} (slot : Nat) (nonce : List Byte) (s : State) (h_s : Kept s0 s) :
    KeptOut s0 (execSpdmChallenge slot nonce s) := by
  unfold execSpdmChallenge; simp (maxDischargeDepth := 40) +contextual [*]

@[simp] theorem kept_execSpdmGetMeasurements {s0 : State} (index : Nat) (signed_ : Bool) (nonce : List Byte) (s : State)
    (h_s : Kept s0 s) :
    KeptOut s0 (execSpdmGetMeasurements index signed_ nonce s) := by
  unfold execSpdmGetMeasurements; simp (maxDischargeDepth := 40) +contextual [*]

@[simp] theorem kept_execSpdmKeyExchange {s0 : State} (slot : Nat) (exchange : List Byte) (s : State) (h_s : Kept s0 s) :
    KeptOut s0 (execSpdmKeyExchange slot exchange s) := by
  unfold execSpdmKeyExchange; simp (maxDischargeDepth := 40) +contextual [*]

@[simp] theorem kept_execSpdmFinish {s0 : State} (verify : List Byte) (s : State) (h_s : Kept s0 s) :
    KeptOut s0 (execSpdmFinish verify s) := by
  unfold execSpdmFinish; simp (maxDischargeDepth := 40) +contextual [*]

@[simp] theorem kept_execSpdmHeartbeat {s0 : State} (s : State) (h_s : Kept s0 s) :
    KeptOut s0 (execSpdmHeartbeat s) := by
  unfold execSpdmHeartbeat; simp (maxDischargeDepth := 40) +contextual [*]

@[simp] theorem kept_execSpdmEndSession {s0 : State} (s : State) (h_s : Kept s0 s) :
    KeptOut s0 (execSpdmEndSession s) := by
  unfold execSpdmEndSession; simp (maxDischargeDepth := 40) +contextual [*]

@[simp] theorem kept_execSpdmSessionLoss {s0 : State} (s : State) (h_s : Kept s0 s) :
    KeptOut s0 (execSpdmSessionLoss s) := by
  unfold execSpdmSessionLoss; simp (maxDischargeDepth := 40) +contextual [*]

@[simp] theorem kept_execIdeKeyProg {s0 : State} (stream dir set : Nat) (key : List Byte) (s : State) (h_s : Kept s0 s) :
    KeptOut s0 (execIdeKeyProg stream dir set key s) := by
  unfold execIdeKeyProg
  dsimp only
  repeat' (first
    | intro _
    | with_reducible assumption
    | (with_reducible refine keptEnd_ite _ _ _ ?_ ?_)
    | (with_reducible refine keptOut_ite _ _ _ ?_ ?_)
    | (with_reducible refine kept_ite _ _ _ ?_ ?_)
    | split
    | (with_reducible refine (keptOut_next _ _).mpr ?_)
    | (simp (maxDischargeDepth := 40) +contextual [*]; done))

@[simp] theorem kept_execKeySetGo {s0 : State} (stream dir set : Nat) (s : State) (h_s : Kept s0 s) :
    KeptOut s0 (execKeySetGo stream dir set s) := by
  unfold execKeySetGo
  dsimp only
  repeat' (first
    | intro _
    | with_reducible assumption
    | (with_reducible refine keptEnd_ite _ _ _ ?_ ?_)
    | (with_reducible refine keptOut_ite _ _ _ ?_ ?_)
    | (with_reducible refine kept_ite _ _ _ ?_ ?_)
    | (split <;> (try (rename_i hq; replace hq := KeptOpt.of_eq (s0 := s0) hq (by clear hq; simp (maxDischargeDepth := 40) +contextual [*]))))
    | (with_reducible refine (keptOut_next _ _).mpr ?_)
    | (simp (maxDischargeDepth := 40) +contextual [*]; done))

@[simp] theorem kept_execKeySetStop {s0 : State} (stream dir set : Nat) (s : State) (h_s : Kept s0 s) :
    KeptOut s0 (execKeySetStop stream dir set s) := by
  unfold execKeySetStop
  dsimp only
  repeat' (first
    | intro _
    | with_reducible assumption
    | (with_reducible refine keptEnd_ite _ _ _ ?_ ?_)
    | (with_reducible refine keptOut_ite _ _ _ ?_ ?_)
    | (with_reducible refine kept_ite _ _ _ ?_ ?_)
    | (with_reducible refine kept_ite_fst _ _ _ ?_ ?_)
    | (with_reducible refine kept_ite_snd _ _ _ ?_ ?_)
    | (split <;> (try (rename_i hq; replace hq := KeptOpt.of_eq (s0 := s0) hq (by clear hq; simp (maxDischargeDepth := 40) +contextual [*]))))
    | (with_reducible refine (keptOut_next _ _).mpr ?_)
    | (simp (maxDischargeDepth := 40) +contextual [*]; done))

end Sys2Proof.Machine
end

