-- ==== Sys2Proof/Laws/Kept/GroupEvents.lean ====
section
/-! SUPPORT. The operations of GroupEvents keep the queue, the canonical form of the array and the fuses that are set. -/

namespace Sys2Proof.Machine

@[simp] theorem kept_noteReady {s0 : State} (s : State) (src : Nat) (h_s : Kept s0 s) :
    Kept s0 (noteReady s src) := by
  unfold noteReady; simp (maxDischargeDepth := 40) +contextual [*]

@[simp] theorem kept_takeJoin {s0 : State} (s : State) (src : Nat) (m : GroupMsg) (h_s : Kept s0 s) :
    Kept s0 (takeJoin s src m) := by
  unfold takeJoin
  dsimp only
  repeat' (first
    | intro _
    | with_reducible assumption
    | (with_reducible refine kept_ite _ _ _ ?_ ?_)
    | (with_reducible refine kept_ite_fst _ _ _ ?_ ?_)
    | (with_reducible refine kept_ite_snd _ _ _ ?_ ?_)
    | split
    | (simp (maxDischargeDepth := 40) +contextual [*]; done))

@[simp] theorem kept_execJoin {s0 : State} (src : Nat) (m : GroupMsg) (s : State) (h_s : Kept s0 s) :
    KeptOut s0 (execJoin src m s) := by
  unfold execJoin; simp (maxDischargeDepth := 40) +contextual [*]

@[simp] theorem kept_takeAlign {s0 : State} (s : State) (src : Nat) (m : GroupMsg) (h_s : Kept s0 s) :
    Kept s0 (takeAlign s src m) := by
  unfold takeAlign
  dsimp only
  repeat' (first
    | intro _
    | with_reducible assumption
    | (with_reducible refine kept_ite _ _ _ ?_ ?_)
    | (with_reducible refine kept_ite_fst _ _ _ ?_ ?_)
    | (with_reducible refine kept_ite_snd _ _ _ ?_ ?_)
    | split
    | (simp (maxDischargeDepth := 40) +contextual [*]; done))

@[simp] theorem kept_execAlign {s0 : State} (src : Nat) (m : GroupMsg) (s : State) (h_s : Kept s0 s) :
    KeptOut s0 (execAlign src m s) := by
  unfold execAlign; simp (maxDischargeDepth := 40) +contextual [*]

@[simp] theorem kept_takeReady {s0 : State} (s : State) (src : Nat) (m : GroupMsg) (h_s : Kept s0 s) :
    Kept s0 (takeReady s src m) := by
  unfold takeReady; simp (maxDischargeDepth := 40) +contextual [*]

@[simp] theorem kept_execReady {s0 : State} (src : Nat) (m : GroupMsg) (s : State) (h_s : Kept s0 s) :
    KeptOut s0 (execReady src m s) := by
  unfold execReady; simp (maxDischargeDepth := 40) +contextual [*]

@[simp] theorem kept_takeWindowOpen {s0 : State} (s : State) (m : GroupMsg) (h_s : Kept s0 s) :
    Kept s0 (takeWindowOpen s m) := by
  unfold takeWindowOpen; simp (maxDischargeDepth := 40) +contextual [*]

@[simp] theorem kept_execWindowOpen {s0 : State} (m : GroupMsg) (s : State) (h_s : Kept s0 s) :
    KeptOut s0 (execWindowOpen m s) := by
  unfold execWindowOpen; simp (maxDischargeDepth := 40) +contextual [*]

@[simp] theorem kept_takeWindowDone {s0 : State} (s : State) (src : Nat) (m : GroupMsg) (h_s : Kept s0 s) :
    Kept s0 (takeWindowDone s src m) := by
  unfold takeWindowDone
  repeat' (first
    | intro _
    | with_reducible assumption
    | (with_reducible refine kept_ite _ _ _ ?_ ?_)
    | split
    | (simp (maxDischargeDepth := 40) +contextual [*]; done)
    | dsimp only)

@[simp] theorem kept_execWindowDone {s0 : State} (src : Nat) (m : GroupMsg) (s : State) (h_s : Kept s0 s) :
    KeptOut s0 (execWindowDone src m s) := by
  unfold execWindowDone; simp (maxDischargeDepth := 40) +contextual [*]

@[simp] theorem kept_execRepairWindowPeriod {s0 : State} (s : State) (h_s : Kept s0 s) :
    KeptOut s0 (execRepairWindowPeriod s) := by
  unfold execRepairWindowPeriod
  repeat' (first
    | intro _
    | with_reducible assumption
    | (with_reducible refine keptEnd_ite _ _ _ ?_ ?_)
    | (with_reducible refine keptOut_ite _ _ _ ?_ ?_)
    | (with_reducible refine kept_ite _ _ _ ?_ ?_)
    | split
    | (with_reducible refine (keptOut_next _ _).mpr ?_)
    | (simp (maxDischargeDepth := 40) +contextual [*]; done)
    | dsimp only)

@[simp] theorem kept_execWindowBudgetExpiry {s0 : State} (s : State) (h_s : Kept s0 s) :
    KeptOut s0 (execWindowBudgetExpiry s) := by
  unfold execWindowBudgetExpiry; simp (maxDischargeDepth := 40) +contextual [*]

@[simp] theorem kept_takeProbe {s0 : State} (s : State) (src : Nat) (m : GroupMsg) (h_s : Kept s0 s) :
    Kept s0 (takeProbe s src m) := by
  unfold takeProbe
  repeat' (first
    | intro _
    | with_reducible assumption
    | (with_reducible refine kept_ite _ _ _ ?_ ?_)
    | split
    | (simp (maxDischargeDepth := 40) +contextual [*]; done)
    | dsimp only)

@[simp] theorem kept_execProbe {s0 : State} (src : Nat) (m : GroupMsg) (s : State) (h_s : Kept s0 s) :
    KeptOut s0 (execProbe src m s) := by
  unfold execProbe; simp (maxDischargeDepth := 40) +contextual [*]

@[simp] theorem kept_takeProbeAck {s0 : State} (s : State) (m : GroupMsg) (h_s : Kept s0 s) :
    Kept s0 (takeProbeAck s m) := by
  unfold takeProbeAck; simp (maxDischargeDepth := 40) +contextual [*]

@[simp] theorem kept_execProbeAck {s0 : State} (m : GroupMsg) (s : State) (h_s : Kept s0 s) :
    KeptOut s0 (execProbeAck m s) := by
  unfold execProbeAck; simp (maxDischargeDepth := 40) +contextual [*]

@[simp] theorem kept_endShadows {s0 : State} (s : State) (d : Deck) (h_s : Kept s0 s) :
    Kept s0 (endShadows s d) := by
  unfold endShadows; simp (maxDischargeDepth := 40) +contextual [*]

@[simp] theorem kept_assumeRole {s0 : State} (s : State) (d : Deck) (h_s : Kept s0 s) :
    Kept s0 (assumeRole s d) := by
  unfold assumeRole; simp (maxDischargeDepth := 40) +contextual [*]

@[simp] theorem kept_execProbeTimer {s0 : State} (s : State) (h_s : Kept s0 s) :
    KeptOut s0 (execProbeTimer s) := by
  unfold execProbeTimer
  repeat' (first
    | intro _
    | with_reducible assumption
    | (with_reducible refine keptEnd_ite _ _ _ ?_ ?_)
    | (with_reducible refine keptOut_ite _ _ _ ?_ ?_)
    | (with_reducible refine kept_ite _ _ _ ?_ ?_)
    | (with_reducible refine kept_ite_fst _ _ _ ?_ ?_)
    | (with_reducible refine kept_ite_snd _ _ _ ?_ ?_)
    | split
    | (with_reducible refine (keptOut_next _ _).mpr ?_)
    | (simp (maxDischargeDepth := 40) +contextual [*]; done)
    | dsimp only)

@[simp] theorem kept_execAbortReqTimeout {s0 : State} (s : State) (h_s : Kept s0 s) :
    KeptOut s0 (execAbortReqTimeout s) := by
  unfold execAbortReqTimeout
  repeat' (first
    | intro _
    | with_reducible assumption
    | (with_reducible refine keptEnd_ite _ _ _ ?_ ?_)
    | (with_reducible refine keptOut_ite _ _ _ ?_ ?_)
    | (with_reducible refine kept_ite _ _ _ ?_ ?_)
    | (with_reducible refine kept_ite_fst _ _ _ ?_ ?_)
    | (with_reducible refine kept_ite_snd _ _ _ ?_ ?_)
    | split
    | (with_reducible refine (keptOut_next _ _).mpr ?_)
    | (simp (maxDischargeDepth := 40) +contextual [*]; done)
    | dsimp only)

@[simp] theorem kept_execMemberReadyTimeout {s0 : State} (member : Nat) (s : State) (h_s : Kept s0 s) :
    KeptOut s0 (execMemberReadyTimeout member s) := by
  unfold execMemberReadyTimeout
  repeat' (first
    | intro _
    | with_reducible assumption
    | (with_reducible refine keptEnd_ite _ _ _ ?_ ?_)
    | (with_reducible refine keptOut_ite _ _ _ ?_ ?_)
    | (with_reducible refine kept_ite _ _ _ ?_ ?_)
    | (with_reducible refine kept_ite_fst _ _ _ ?_ ?_)
    | (with_reducible refine kept_ite_snd _ _ _ ?_ ?_)
    | split
    | (with_reducible refine (keptOut_next _ _).mpr ?_)
    | (simp (maxDischargeDepth := 40) +contextual [*]; done)
    | dsimp only)

@[simp] theorem kept_execRoundBudgetExpiry {s0 : State} (table : Fin 64) (s : State) (h_s : Kept s0 s) :
    KeptOut s0 (execRoundBudgetExpiry table s) := by
  unfold execRoundBudgetExpiry
  dsimp only
  repeat' (first
    | intro _
    | with_reducible assumption
    | (with_reducible refine keptEnd_ite _ _ _ ?_ ?_)
    | (with_reducible refine keptOut_ite _ _ _ ?_ ?_)
    | (with_reducible refine kept_ite _ _ _ ?_ ?_)
    | (with_reducible refine kept_ite_fst _ _ _ ?_ ?_)
    | (with_reducible refine kept_ite_snd _ _ _ ?_ ?_)
    | split
    | (with_reducible refine (keptOut_next _ _).mpr ?_)
    | (simp (maxDischargeDepth := 40) +contextual [*]; done))

@[simp] theorem kept_execRoundStall {s0 : State} (table : Fin 64) (s : State) (h_s : Kept s0 s) :
    KeptOut s0 (execRoundStall table s) := by
  unfold execRoundStall
  dsimp only
  repeat' (first
    | intro _
    | with_reducible assumption
    | (with_reducible refine keptEnd_ite _ _ _ ?_ ?_)
    | (with_reducible refine keptOut_ite _ _ _ ?_ ?_)
    | (with_reducible refine kept_ite _ _ _ ?_ ?_)
    | (with_reducible refine kept_ite_fst _ _ _ ?_ ?_)
    | (with_reducible refine kept_ite_snd _ _ _ ?_ ?_)
    | (split <;> (try (rename_i hq; replace hq := KeptOpt.of_eq (s0 := s0) hq (by clear hq; simp (maxDischargeDepth := 40) +contextual [*]))))
    | (with_reducible refine (keptOut_next _ _).mpr ?_)
    | (simp (maxDischargeDepth := 40) +contextual [*]; done))

end Sys2Proof.Machine
end

