-- ==== Sys2Proof/Laws/Kept/Requests.lean ====
section
/-! SUPPORT. The operations of Requests keep the queue, the canonical form of the array and the fuses that are set. -/

namespace Sys2Proof.Machine

@[simp] theorem kept_submit {s0 : State} (s : State) (n : Nat) (e : Submission) (code : Nat) (act : State → State) (h_act : ∀
    (x0 : State), Kept s0 x0 → Kept s0 (act x0)) (h_s : Kept s0 s) :
    Kept s0 (submit s n e code act) := by
  unfold submit; simp (maxDischargeDepth := 40) +contextual [*]

@[simp] theorem kept_withSession {s0 : State} (s : State) (n : Nat) (e : Submission) (act : State → Nat → State) (h_act : ∀
    (x0 : State) (x1 : Nat), Kept s0 x0 → Kept s0 (act x0 x1)) (h_s : Kept s0 s) :
    Kept s0 (withSession s n e act) := by
  unfold withSession
  repeat' (first
    | intro _
    | with_reducible assumption
    | (with_reducible refine kept_ite _ _ _ ?_ ?_)
    | (with_reducible refine kept_ite_fst _ _ _ ?_ ?_)
    | (with_reducible refine kept_ite_snd _ _ _ ?_ ?_)
    | split
    | (simp (maxDischargeDepth := 40) +contextual [*]; done)
    | dsimp only)

@[simp] theorem kept_withIdle {s0 : State} (s : State) (n : Nat) (e : Submission) (act : State → Nat → State) (h_act : ∀
    (x0 : State) (x1 : Nat), Kept s0 x0 → Kept s0 (act x0 x1)) (h_s : Kept s0 s) :
    Kept s0 (withIdle s n e act) := by
  unfold withIdle; simp (maxDischargeDepth := 40) +contextual [*]

@[simp] theorem kept_runRequest {s0 : State} (s : State) (n i : Nat) (e : Submission) (p : ReqPhase) (h_s : Kept s0 s) :
    Kept s0 (runRequest s n i e p) := by
  unfold runRequest; simp (maxDischargeDepth := 40) +contextual [*]

@[simp] theorem kept_openSession {s0 : State} (s : State) (n i : Nat) (e : Submission) (pages : List Nat) (pos : Nat)
    (h_s : Kept s0 s) :
    Kept s0 (openSession s n i e pages pos) := by
  unfold openSession; simp (maxDischargeDepth := 40) +contextual [*]

@[simp] theorem kept_execOpenSession {s0 : State} (chan : Fin 16384) (e : Submission) (s : State) (h_s : Kept s0 s) :
    KeptOut s0 (execOpenSession chan e s) := by
  unfold execOpenSession
  dsimp only
  repeat' (first
    | intro _
    | with_reducible assumption
    | (with_reducible refine keptEnd_ite _ _ _ ?_ ?_)
    | (with_reducible refine keptOut_ite _ _ _ ?_ ?_)
    | (with_reducible refine kept_ite _ _ _ ?_ ?_)
    | (with_reducible refine kept_ite_fst _ _ _ ?_ ?_)
    | (with_reducible refine kept_ite_snd _ _ _ ?_ ?_)
    | split
    | (with_reducible refine (keptOut_next _ _).mpr ?_)
    | (with_reducible apply kept_submit)
    | (simp (maxDischargeDepth := 40) +contextual [*]; done))

@[simp] theorem kept_startPrefill {s0 : State} (s : State) (i : Nat) (h_s : Kept s0 s) :
    Kept s0 (startPrefill s i) := by
  unfold startPrefill
  dsimp only
  repeat' (first
    | intro _
    | with_reducible assumption
    | (with_reducible refine kept_ite _ _ _ ?_ ?_)
    | (with_reducible refine kept_ite_fst _ _ _ ?_ ?_)
    | (with_reducible refine kept_ite_snd _ _ _ ?_ ?_)
    | split
    | (with_reducible refine kept_foldl _ _ _ ?_ ?_)
    | (with_reducible refine kept_foldl_snd _ _ _ ?_ ?_)
    | (with_reducible refine kept_foldl_fst _ _ _ ?_ ?_)
    | (simp (maxDischargeDepth := 40) +contextual [*]; done))

@[simp] theorem kept_tokensReady {s0 : State} (s : State) (i : Nat) (toks : List W32) (h_s : Kept s0 s) :
    Kept s0 (tokensReady s i toks) := by
  unfold tokensReady; simp (maxDischargeDepth := 40) +contextual [*]

@[simp] theorem kept_admitRequest {s0 : State} (s : State) (n i : Nat) (e : Submission) (app : Bool) (h_s : Kept s0 s) :
    Kept s0 (admitRequest s n i e app) := by
  unfold admitRequest; simp (maxDischargeDepth := 40) +contextual [*]

@[simp] theorem kept_execGenerate {s0 : State} (chan : Fin 16384) (e : Submission) (s : State) (h_s : Kept s0 s) :
    KeptOut s0 (execGenerate chan e s) := by
  unfold execGenerate; simp (maxDischargeDepth := 40) +contextual [*]

@[simp] theorem kept_execAppend {s0 : State} (chan : Fin 16384) (e : Submission) (s : State) (h_s : Kept s0 s) :
    KeptOut s0 (execAppend chan e s) := by
  unfold execAppend; simp (maxDischargeDepth := 40) +contextual [*]

@[simp] theorem kept_execRequestTokensFetched {s0 : State} (slot : Nat) (tokens : List W32) (s : State) (h_s : Kept s0 s) :
    KeptOut s0 (execRequestTokensFetched slot tokens s) := by
  unfold execRequestTokensFetched; simp (maxDischargeDepth := 40) +contextual [*]

@[simp] theorem kept_foldSession {s0 : State} (s : State) (i : Nat) (h_s : Kept s0 s) :
    Kept s0 (foldSession s i) := by
  unfold foldSession; simp (maxDischargeDepth := 40) +contextual [*]

@[simp] theorem kept_execAbortRequest {s0 : State} (chan : Fin 16384) (e : Submission) (s : State) (h_s : Kept s0 s) :
    KeptOut s0 (execAbortRequest chan e s) := by
  unfold execAbortRequest
  dsimp only
  repeat' (first
    | intro _
    | with_reducible assumption
    | (with_reducible refine keptEnd_ite _ _ _ ?_ ?_)
    | (with_reducible refine keptOut_ite _ _ _ ?_ ?_)
    | (with_reducible refine kept_ite _ _ _ ?_ ?_)
    | (with_reducible refine kept_ite_fst _ _ _ ?_ ?_)
    | (with_reducible refine kept_ite_snd _ _ _ ?_ ?_)
    | split
    | (with_reducible refine (keptOut_next _ _).mpr ?_)
    | (with_reducible apply kept_submit)
    | (with_reducible apply kept_withSession)
    | (simp (maxDischargeDepth := 40) +contextual [*]; done))

@[simp] theorem kept_execPause {s0 : State} (chan : Fin 16384) (e : Submission) (s : State) (h_s : Kept s0 s) :
    KeptOut s0 (execPause chan e s) := by
  unfold execPause; simp (maxDischargeDepth := 40) +contextual [*]

@[simp] theorem kept_execResume {s0 : State} (chan : Fin 16384) (e : Submission) (s : State) (h_s : Kept s0 s) :
    KeptOut s0 (execResume chan e s) := by
  unfold execResume; simp (maxDischargeDepth := 40) +contextual [*]

@[simp] theorem kept_closeSession {s0 : State} (s : State) (i : Nat) (h_s : Kept s0 s) :
    Kept s0 (closeSession s i) := by
  unfold closeSession; simp (maxDischargeDepth := 40) +contextual [*]

@[simp] theorem kept_execClose {s0 : State} (chan : Fin 16384) (e : Submission) (s : State) (h_s : Kept s0 s) :
    KeptOut s0 (execClose chan e s) := by
  unfold execClose; simp (maxDischargeDepth := 40) +contextual [*]

@[simp] theorem kept_execAttach {s0 : State} (chan : Fin 16384) (e : Submission) (s : State) (h_s : Kept s0 s) :
    KeptOut s0 (execAttach chan e s) := by
  unfold execAttach; simp (maxDischargeDepth := 40) +contextual [*]

@[simp] theorem kept_execPauseTtlExpiry {s0 : State} (slot : Nat) (s : State) (h_s : Kept s0 s) :
    KeptOut s0 (execPauseTtlExpiry slot s) := by
  unfold execPauseTtlExpiry
  dsimp only
  repeat' (first
    | intro _
    | with_reducible assumption
    | (with_reducible refine keptEnd_ite _ _ _ ?_ ?_)
    | (with_reducible refine keptOut_ite _ _ _ ?_ ?_)
    | (with_reducible refine kept_ite _ _ _ ?_ ?_)
    | (with_reducible refine kept_ite_fst _ _ _ ?_ ?_)
    | (with_reducible refine kept_ite_snd _ _ _ ?_ ?_)
    | split
    | (with_reducible refine (keptOut_next _ _).mpr ?_)
    | (simp (maxDischargeDepth := 40) +contextual [*]; done))

@[simp] theorem kept_readHeader {s0 : State} (s : State) (p : Nat) (h_s : Kept s0 s) :
    Kept s0 (readHeader s p).1 := by
  unfold readHeader; simp (maxDischargeDepth := 40) +contextual [*]

@[simp] theorem kept_enterScanned {s0 : State} (s : State) (p : Nat) (key parent : W64) (toks : List W32) (h_s : Kept s0 s) :
    Kept s0 (enterScanned s p key parent toks) := by
  unfold enterScanned; simp (maxDischargeDepth := 40) +contextual [*]

@[simp] theorem kept_scanPage {s0 : State} (s : State) (p : Nat) (h_s : Kept s0 s) :
    Kept s0 (scanPage s p) := by
  unfold scanPage
  dsimp only
  repeat' (first
    | intro _
    | with_reducible assumption
    | (with_reducible refine kept_ite _ _ _ ?_ ?_)
    | (with_reducible refine kept_ite_fst _ _ _ ?_ ?_)
    | (with_reducible refine kept_ite_snd _ _ _ ?_ ?_)
    | (split <;> (try (rename_i hq; replace hq := KeptOpt.of_eq (s0 := s0) hq (by clear hq; simp (maxDischargeDepth := 40) +contextual [*]))))
    | (simp (maxDischargeDepth := 40) +contextual [*]; done))

@[simp] theorem kept_treeReady {s0 : State} (s : State) (h_s : Kept s0 s) :
    Kept s0 (treeReady s) := by
  unfold treeReady; simp (maxDischargeDepth := 40) +contextual [*]

@[simp] theorem kept_execTreeRebuildStep {s0 : State} (s : State) (h_s : Kept s0 s) :
    KeptOut s0 (execTreeRebuildStep s) := by
  unfold execTreeRebuildStep
  repeat' (first
    | intro _
    | with_reducible assumption
    | (with_reducible refine keptEnd_ite _ _ _ ?_ ?_)
    | (with_reducible refine keptOut_ite _ _ _ ?_ ?_)
    | (with_reducible refine kept_ite _ _ _ ?_ ?_)
    | split
    | (with_reducible refine (keptOut_next _ _).mpr ?_)
    | (simp (maxDischargeDepth := 40) +contextual [*]; done)
    | dsimp only)

end Sys2Proof.Machine
end

