-- ==== Sys2Proof/Laws/Kept/ChannelCommands.lean ====
section
/-! SUPPORT. The operations of ChannelCommands keep the queue, the canonical form of the array and the fuses that are set. -/

namespace Sys2Proof.Machine

@[simp] theorem kept_openChannel {s0 : State} (s : State) (n : Nat) (own : List Byte) (h_s : Kept s0 s) :
    Kept s0 (openChannel s n own) := by
  unfold openChannel; simp (maxDischargeDepth := 40) +contextual [*]

@[simp] theorem kept_execChanCreate {s0 : State} (cci : Fin 2) (input : List Byte) (s : State) (h_s : Kept s0 s) :
    KeptOut s0 (execChanCreate cci input s) := by
  unfold execChanCreate
  dsimp only
  repeat' (first
    | intro _
    | with_reducible assumption
    | (with_reducible refine keptEnd_ite _ _ _ ?_ ?_)
    | (with_reducible refine keptOut_ite _ _ _ ?_ ?_)
    | (with_reducible refine kept_ite _ _ _ ?_ ?_)
    | (with_reducible refine kept_ite_fst _ _ _ ?_ ?_)
    | (with_reducible refine kept_ite_snd _ _ _ ?_ ?_)
    | (split <;> (try (rename_i hq; replace hq := KeptOpt.of_eq (s0 := s0) hq (by clear hq; simp (maxDischargeDepth := 40) +contextual [*]))))
    | (with_reducible refine (keptOut_next _ _).mpr ?_)
    | (with_reducible apply kept_vendor)
    | (simp (maxDischargeDepth := 40) +contextual [*]; done))

@[simp] theorem kept_staleRefuse {s0 : State} (s : State) (cci op : Nat) (handle : Nat) (h_s : Kept s0 s) :
    Kept s0 (staleRefuse s cci op handle) := by
  unfold staleRefuse; simp (maxDischargeDepth := 40) +contextual [*]

@[simp] theorem kept_resumeFetch {s0 : State} (s : State) (n : Nat) (h_s : Kept s0 s) :
    Kept s0 (resumeFetch s n) := by
  unfold resumeFetch; simp (maxDischargeDepth := 40) +contextual [*]

@[simp] theorem kept_closeChannel {s0 : State} (s : State) (n : Nat) (h_s : Kept s0 s) :
    Kept s0 (closeChannel s n) := by
  unfold closeChannel; simp (maxDischargeDepth := 40) +contextual [*]

@[simp] theorem kept_execChanDestroy {s0 : State} (cci : Fin 2) (input : List Byte) (s : State) (h_s : Kept s0 s) :
    KeptOut s0 (execChanDestroy cci input s) := by
  unfold execChanDestroy
  dsimp only
  repeat' (first
    | intro _
    | with_reducible assumption
    | split
    | (with_reducible refine (keptOut_next _ _).mpr ?_)
    | (with_reducible apply kept_vendor)
    | (simp (maxDischargeDepth := 40) +contextual [*]; done))

@[simp] theorem kept_execChanResume {s0 : State} (cci : Fin 2) (input : List Byte) (s : State) (h_s : Kept s0 s) :
    KeptOut s0 (execChanResume cci input s) := by
  unfold execChanResume
  dsimp only
  repeat' (first
    | intro _
    | with_reducible assumption
    | (with_reducible refine keptEnd_ite _ _ _ ?_ ?_)
    | (with_reducible refine keptOut_ite _ _ _ ?_ ?_)
    | (with_reducible refine kept_ite _ _ _ ?_ ?_)
    | (with_reducible refine kept_ite_fst _ _ _ ?_ ?_)
    | (with_reducible refine kept_ite_snd _ _ _ ?_ ?_)
    | split
    | (with_reducible refine (keptOut_next _ _).mpr ?_)
    | (with_reducible refine kept_foldl _ _ _ ?_ ?_)
    | (with_reducible refine kept_foldl_snd _ _ _ ?_ ?_)
    | (with_reducible refine kept_foldl_fst _ _ _ ?_ ?_)
    | (with_reducible apply kept_vendor)
    | (simp (maxDischargeDepth := 40) +contextual [*]; done))

@[simp] theorem kept_execChanQuery {s0 : State} (cci : Fin 2) (input : List Byte) (s : State) (h_s : Kept s0 s) :
    KeptOut s0 (execChanQuery cci input s) := by
  unfold execChanQuery
  repeat' (first
    | intro _
    | with_reducible assumption
    | split
    | (with_reducible refine (keptOut_next _ _).mpr ?_)
    | (with_reducible apply kept_vendor)
    | (simp (maxDischargeDepth := 40) +contextual [*]; done)
    | dsimp only)

@[simp] theorem kept_execTableDisable {s0 : State} (cci : Fin 2) (input : List Byte) (s : State) (h_s : Kept s0 s) :
    KeptOut s0 (execTableDisable cci input s) := by
  unfold execTableDisable; simp (maxDischargeDepth := 40) +contextual [*]

@[simp] theorem kept_execTableEnable {s0 : State} (cci : Fin 2) (input : List Byte) (s : State) (h_s : Kept s0 s) :
    KeptOut s0 (execTableEnable cci input s) := by
  unfold execTableEnable; simp (maxDischargeDepth := 40) +contextual [*]

end Sys2Proof.Machine
end

