-- ==== Sys2Proof/Laws/Kept/CacheCommands.lean ====
section
/-! SUPPORT. The operations of CacheCommands keep the queue, the canonical form of the array and the fuses that are set. -/

namespace Sys2Proof.Machine

@[simp] theorem kept_dealerRefuse {s0 : State} (s : State) (cci op : Nat) (h_s : Kept s0 s) :
    Kept s0 (dealerRefuse s cci op) := by
  unfold dealerRefuse; simp (maxDischargeDepth := 40) +contextual [*]

@[simp] theorem kept_execPrefixPin {s0 : State} (cci : Fin 2) (input : List Byte) (tokens : List W32) (s : State)
    (h_s : Kept s0 s) :
    KeptOut s0 (execPrefixPin cci input tokens s) := by
  unfold execPrefixPin
  dsimp only
  repeat' (first
    | intro _
    | with_reducible assumption
    | (with_reducible refine keptEnd_ite _ _ _ ?_ ?_)
    | (with_reducible refine keptOut_ite _ _ _ ?_ ?_)
    | (with_reducible refine kept_ite _ _ _ ?_ ?_)
    | (with_reducible refine kept_ite_fst _ _ _ ?_ ?_)
    | (with_reducible refine kept_ite_snd _ _ _ ?_ ?_)
    | (split <;> (try (rename_i hq; replace hq := KeptOpt.of_eq (s0 := s0) hq (by clear hq; simp (maxDischargeDepth := 40) +contextual [*]))))
    | (with_reducible refine (keptOut_next _ _).mpr ?_)
    | (with_reducible apply kept_vendor)
    | (simp (maxDischargeDepth := 40) +contextual [*]; done))

@[simp] theorem kept_execPrefixUnpin {s0 : State} (cci : Fin 2) (input : List Byte) (s : State) (h_s : Kept s0 s) :
    KeptOut s0 (execPrefixUnpin cci input s) := by
  unfold execPrefixUnpin
  dsimp only
  repeat' (first
    | intro _
    | with_reducible assumption
    | (with_reducible refine keptEnd_ite _ _ _ ?_ ?_)
    | (with_reducible refine keptOut_ite _ _ _ ?_ ?_)
    | (with_reducible refine kept_ite _ _ _ ?_ ?_)
    | (with_reducible refine kept_ite_fst _ _ _ ?_ ?_)
    | (with_reducible refine kept_ite_snd _ _ _ ?_ ?_)
    | split
    | (with_reducible refine (keptOut_next _ _).mpr ?_)
    | (with_reducible refine kept_foldl _ _ _ ?_ ?_)
    | (with_reducible refine kept_foldl_snd _ _ _ ?_ ?_)
    | (with_reducible refine kept_foldl_fst _ _ _ ?_ ?_)
    | (with_reducible apply kept_vendor)
    | (simp (maxDischargeDepth := 40) +contextual [*]; done))

@[simp] theorem kept_execPrefixFlush {s0 : State} (cci : Fin 2) (input : List Byte) (s : State) (h_s : Kept s0 s) :
    KeptOut s0 (execPrefixFlush cci input s) := by
  unfold execPrefixFlush; simp (maxDischargeDepth := 40) +contextual [*]

@[simp] theorem kept_deadSpills {s0 : State} (s : State) (t : Nat) (h_s : Kept s0 s) :
    Kept s0 (deadSpills s t) := by
  unfold deadSpills; simp (maxDischargeDepth := 40) +contextual [*]

@[simp] theorem kept_abandonSlots {s0 : State} (s : State) (t : Nat) (h_s : Kept s0 s) :
    Kept s0 (abandonSlots s t) := by
  unfold abandonSlots; simp (maxDischargeDepth := 40) +contextual [*]

@[simp] theorem kept_execKvSpillSet {s0 : State} (cci : Fin 2) (input : List Byte) (s : State) (h_s : Kept s0 s) :
    KeptOut s0 (execKvSpillSet cci input s) := by
  unfold execKvSpillSet; simp (maxDischargeDepth := 40) +contextual [*]

@[simp] theorem kept_execSlowWindowSet {s0 : State} (cci : Fin 2) (input : List Byte) (s : State) (h_s : Kept s0 s) :
    KeptOut s0 (execSlowWindowSet cci input s) := by
  unfold execSlowWindowSet; simp (maxDischargeDepth := 40) +contextual [*]

@[simp] theorem kept_execSlowWindowQuery {s0 : State} (cci : Fin 2) (input : List Byte) (s : State) (h_s : Kept s0 s) :
    KeptOut s0 (execSlowWindowQuery cci input s) := by
  unfold execSlowWindowQuery; simp (maxDischargeDepth := 40) +contextual [*]

@[simp] theorem kept_execVndIdentify {s0 : State} (cci : Fin 2) (input : List Byte) (s : State) (h_s : Kept s0 s) :
    KeptOut s0 (execVndIdentify cci input s) := by
  unfold execVndIdentify; simp (maxDischargeDepth := 40) +contextual [*]

@[simp] theorem kept_execPartnerLogRead {s0 : State} (cci : Fin 2) (input : List Byte) (s : State) (h_s : Kept s0 s) :
    KeptOut s0 (execPartnerLogRead cci input s) := by
  unfold execPartnerLogRead; simp (maxDischargeDepth := 40) +contextual [*]

end Sys2Proof.Machine
end

