-- ==== Sys2Proof/Laws/Kept/DeckCommands.lean ====
section
/-! SUPPORT. The operations of DeckCommands keep the queue, the canonical form of the array and the fuses that are set. -/

namespace Sys2Proof.Machine

@[simp] theorem kept_deckRefuse {s0 : State} (s : State) (cci op : Nat) (e : Ev) (a32 : List W32) (a64 : List W64)
    (h_s : Kept s0 s) :
    Kept s0 (deckRefuse s cci op e a32 a64) := by
  unfold deckRefuse; simp (maxDischargeDepth := 40) +contextual [*]

@[simp] theorem kept_stateRefuse {s0 : State} (s : State) (cci op : Nat) (h_s : Kept s0 s) :
    Kept s0 (stateRefuse s cci op) := by
  unfold stateRefuse; simp (maxDischargeDepth := 40) +contextual [*]

@[simp] theorem kept_noteSkipped {s0 : State} (s : State) (cs : List Card) (h_s : Kept s0 s) :
    Kept s0 (noteSkipped s cs) := by
  unfold noteSkipped; simp (maxDischargeDepth := 40) +contextual [*]

@[simp] theorem kept_beginVerify {s0 : State} (s : State) (h_s : Kept s0 s) :
    Kept s0 (beginVerify s) := by
  unfold beginVerify; simp (maxDischargeDepth := 40) +contextual [*]

@[simp] theorem kept_execDeckQuery {s0 : State} (cci : Fin 2) (input : List Byte) (s : State) (h_s : Kept s0 s) :
    KeptOut s0 (execDeckQuery cci input s) := by
  unfold execDeckQuery; simp (maxDischargeDepth := 40) +contextual [*]

@[simp] theorem kept_execDeckSetIndex {s0 : State} (cci : Fin 2) (input : List Byte) (s : State) (h_s : Kept s0 s) :
    KeptOut s0 (execDeckSetIndex cci input s) := by
  unfold execDeckSetIndex; simp (maxDischargeDepth := 40) +contextual [*]

@[simp] theorem kept_fetchNext {s0 : State} (s : State) (h_s : Kept s0 s) :
    Kept s0 (fetchNext s) := by
  unfold fetchNext; simp (maxDischargeDepth := 40) +contextual [*]

@[simp] theorem kept_stageDeck {s0 : State} (s : State) (cci : Nat) (addr : W64) (len : Nat) (h_s : Kept s0 s) :
    Kept s0 (stageDeck s cci addr len) := by
  unfold stageDeck; simp (maxDischargeDepth := 40) +contextual [*]

@[simp] theorem kept_execDeckStage {s0 : State} (cci : Fin 2) (input : List Byte) (s : State) (h_s : Kept s0 s) :
    KeptOut s0 (execDeckStage cci input s) := by
  unfold execDeckStage; simp (maxDischargeDepth := 40) +contextual [*]

@[simp] theorem kept_execDeckStageReadCompletion {s0 : State} (data : List Byte) (error : Bool) (s : State) (h_s : Kept s0 s) :
    KeptOut s0 (execDeckStageReadCompletion data error s) := by
  unfold execDeckStageReadCompletion
  dsimp only
  repeat' (first
    | intro _
    | with_reducible assumption
    | (with_reducible refine keptEnd_ite _ _ _ ?_ ?_)
    | (with_reducible refine keptOut_ite _ _ _ ?_ ?_)
    | (with_reducible refine kept_ite _ _ _ ?_ ?_)
    | (with_reducible refine kept_ite_fst _ _ _ ?_ ?_)
    | (with_reducible refine kept_ite_snd _ _ _ ?_ ?_)
    | split
    | (with_reducible refine (keptOut_next _ _).mpr ?_)
    | (simp (maxDischargeDepth := 40) +contextual [*]; done))

@[simp] theorem kept_execDeckVerifyDone {s0 : State} (s : State) (h_s : Kept s0 s) :
    KeptOut s0 (execDeckVerifyDone s) := by
  unfold execDeckVerifyDone
  dsimp only
  repeat' (first
    | intro _
    | with_reducible assumption
    | (with_reducible refine keptEnd_ite _ _ _ ?_ ?_)
    | (with_reducible refine keptOut_ite _ _ _ ?_ ?_)
    | (with_reducible refine kept_ite _ _ _ ?_ ?_)
    | (with_reducible refine kept_ite_fst _ _ _ ?_ ?_)
    | (with_reducible refine kept_ite_snd _ _ _ ?_ ?_)
    | split
    | (with_reducible refine (keptOut_next _ _).mpr ?_)
    | (simp (maxDischargeDepth := 40) +contextual [*]; done))

@[simp] theorem kept_execDeckArm {s0 : State} (cci : Fin 2) (input : List Byte) (s : State) (h_s : Kept s0 s) :
    KeptOut s0 (execDeckArm cci input s) := by
  unfold execDeckArm
  dsimp only
  repeat' (first
    | intro _
    | with_reducible assumption
    | (with_reducible refine keptEnd_ite _ _ _ ?_ ?_)
    | (with_reducible refine keptOut_ite _ _ _ ?_ ?_)
    | (with_reducible refine kept_ite _ _ _ ?_ ?_)
    | (with_reducible refine kept_ite_fst _ _ _ ?_ ?_)
    | (with_reducible refine kept_ite_snd _ _ _ ?_ ?_)
    | split
    | (with_reducible refine (keptOut_next _ _).mpr ?_)
    | (with_reducible apply kept_vendor)
    | (simp (maxDischargeDepth := 40) +contextual [*]; done))

@[simp] theorem kept_writeImage {s0 : State} (s : State) (d : Deck) (bytes : Nat) (h_s : Kept s0 s) :
    Kept s0 (writeImage s d bytes) := by
  unfold writeImage
  dsimp only
  repeat' (first
    | intro _
    | with_reducible assumption
    | split
    | (with_reducible refine kept_foldl _ _ _ ?_ ?_)
    | (with_reducible refine kept_foldl_snd _ _ _ ?_ ?_)
    | (with_reducible refine kept_foldl_fst _ _ _ ?_ ?_)
    | (simp (maxDischargeDepth := 40) +contextual [*]; done))

@[simp] theorem kept_execDeckArmBuildDone {s0 : State} (s : State) (h_s : Kept s0 s) :
    KeptOut s0 (execDeckArmBuildDone s) := by
  unfold execDeckArmBuildDone
  repeat' (first
    | intro _
    | with_reducible assumption
    | (with_reducible refine keptEnd_ite _ _ _ ?_ ?_)
    | (with_reducible refine keptOut_ite _ _ _ ?_ ?_)
    | (with_reducible refine kept_ite _ _ _ ?_ ?_)
    | (with_reducible refine kept_ite_fst _ _ _ ?_ ?_)
    | (with_reducible refine kept_ite_snd _ _ _ ?_ ?_)
    | split
    | (with_reducible refine (keptOut_next _ _).mpr ?_)
    | (simp (maxDischargeDepth := 40) +contextual [*]; done)
    | dsimp only)

@[simp] theorem kept_execDeckSwitch {s0 : State} (cci : Fin 2) (input : List Byte) (s : State) (h_s : Kept s0 s) :
    KeptOut s0 (execDeckSwitch cci input s) := by
  unfold execDeckSwitch
  dsimp only
  repeat' (first
    | intro _
    | with_reducible assumption
    | (with_reducible refine keptEnd_ite _ _ _ ?_ ?_)
    | (with_reducible refine keptOut_ite _ _ _ ?_ ?_)
    | (with_reducible refine kept_ite _ _ _ ?_ ?_)
    | (with_reducible refine kept_ite_fst _ _ _ ?_ ?_)
    | (with_reducible refine kept_ite_snd _ _ _ ?_ ?_)
    | split
    | (with_reducible refine (keptOut_next _ _).mpr ?_)
    | (with_reducible refine kept_foldl _ _ _ ?_ ?_)
    | (with_reducible refine kept_foldl_snd _ _ _ ?_ ?_)
    | (with_reducible refine kept_foldl_fst _ _ _ ?_ ?_)
    | (with_reducible apply kept_vendor)
    | (simp (maxDischargeDepth := 40) +contextual [*]; done))

@[simp] theorem kept_discardStaged {s0 : State} (s : State) (h_s : Kept s0 s) :
    Kept s0 (discardStaged s) := by
  unfold discardStaged
  dsimp only
  repeat' (first
    | intro _
    | with_reducible assumption
    | split
    | (simp (maxDischargeDepth := 40) +contextual [*]; done))

@[simp] theorem kept_discardSwitch {s0 : State} (s : State) (h_s : Kept s0 s) :
    Kept s0 (discardSwitch s) := by
  unfold discardSwitch; simp (maxDischargeDepth := 40) +contextual [*]

@[simp] theorem kept_execDeckDiscard {s0 : State} (cci : Fin 2) (input : List Byte) (s : State) (h_s : Kept s0 s) :
    KeptOut s0 (execDeckDiscard cci input s) := by
  unfold execDeckDiscard
  repeat' (first
    | intro _
    | with_reducible assumption
    | (with_reducible refine keptEnd_ite _ _ _ ?_ ?_)
    | (with_reducible refine keptOut_ite _ _ _ ?_ ?_)
    | (with_reducible refine kept_ite _ _ _ ?_ ?_)
    | split
    | (with_reducible refine (keptOut_next _ _).mpr ?_)
    | (with_reducible apply kept_vendor)
    | (simp (maxDischargeDepth := 40) +contextual [*]; done)
    | dsimp only)

@[simp] theorem kept_fillFrame {s0 : State} (s : State) (frame : Nat) (h_s : Kept s0 s) :
    Kept s0 (fillFrame s frame) := by
  unfold fillFrame; simp (maxDischargeDepth := 40) +contextual [*]

@[simp] theorem kept_execPoolFillDone {s0 : State} (s : State) (h_s : Kept s0 s) :
    KeptOut s0 (execPoolFillDone s) := by
  unfold execPoolFillDone
  dsimp only
  repeat' (first
    | intro _
    | with_reducible assumption
    | (with_reducible refine keptEnd_ite _ _ _ ?_ ?_)
    | (with_reducible refine keptOut_ite _ _ _ ?_ ?_)
    | (with_reducible refine kept_ite _ _ _ ?_ ?_)
    | (with_reducible refine kept_ite_fst _ _ _ ?_ ?_)
    | (with_reducible refine kept_ite_snd _ _ _ ?_ ?_)
    | split
    | (with_reducible refine (keptOut_next _ _).mpr ?_)
    | (with_reducible refine kept_foldl _ _ _ ?_ ?_)
    | (with_reducible refine kept_foldl_snd _ _ _ ?_ ?_)
    | (with_reducible refine kept_foldl_fst _ _ _ ?_ ?_)
    | (simp (maxDischargeDepth := 40) +contextual [*]; done))

end Sys2Proof.Machine
end

