-- ==== Sys2Proof/Laws/Kept/Scrubber.lean ====
section
/-! SUPPORT. The operations of Scrubber keep the queue, the canonical form of the array and the fuses that are set. -/

namespace Sys2Proof.Machine

@[simp] theorem kept_modScrub {s0 : State} (s : State) (stack : Nat) (f : Scrub → Scrub) (h_s : Kept s0 s) :
    Kept s0 (modScrub s stack f) := by
  unfold modScrub; simp (maxDischargeDepth := 40) +contextual [*]

@[simp] theorem kept_execScrubRowStart {s0 : State} (stack : Fin 8) (bank : Fin 768) (s : State) (h_s : Kept s0 s) :
    KeptOut s0 (execScrubRowStart stack bank s) := by
  unfold execScrubRowStart
  dsimp only
  repeat' (first
    | intro _
    | with_reducible assumption
    | (with_reducible refine keptEnd_ite _ _ _ ?_ ?_)
    | (with_reducible refine keptOut_ite _ _ _ ?_ ?_)
    | (with_reducible refine kept_ite _ _ _ ?_ ?_)
    | (with_reducible refine kept_ite_fst _ _ _ ?_ ?_)
    | (with_reducible refine kept_ite_snd _ _ _ ?_ ?_)
    | split
    | (with_reducible refine (keptOut_next _ _).mpr ?_)
    | (simp (maxDischargeDepth := 40) +contextual [*]; done))

@[simp] theorem kept_execTrumpScrubDue {s0 : State} (stack : Fin 8) (s : State) (h_s : Kept s0 s) :
    KeptOut s0 (execTrumpScrubDue stack s) := by
  unfold execTrumpScrubDue
  dsimp only
  repeat' (first
    | intro _
    | with_reducible assumption
    | (with_reducible refine keptEnd_ite _ _ _ ?_ ?_)
    | (with_reducible refine keptOut_ite _ _ _ ?_ ?_)
    | (with_reducible refine kept_ite _ _ _ ?_ ?_)
    | (with_reducible refine kept_ite_fst _ _ _ ?_ ?_)
    | (with_reducible refine kept_ite_snd _ _ _ ?_ ?_)
    | split
    | (with_reducible refine (keptOut_next _ _).mpr ?_)
    | (with_reducible refine kept_foldl _ _ _ ?_ ?_)
    | (with_reducible refine kept_foldl_snd _ _ _ ?_ ?_)
    | (with_reducible refine kept_foldl_fst _ _ _ ?_ ?_)
    | (simp (maxDischargeDepth := 40) +contextual [*]; done))

@[simp] theorem kept_scrubRead {s0 : State} (s : State) (stack bank row : Nat) (dist : List (Nat × Nat)) (h_s : Kept s0 s) :
    Kept s0 (scrubRead s stack bank row dist) := by
  unfold scrubRead; simp (maxDischargeDepth := 40) +contextual [*]

@[simp] theorem kept_endLap {s0 : State} (s : State) (stack : Nat) (h_s : Kept s0 s) :
    Kept s0 (endLap s stack) := by
  unfold endLap; simp (maxDischargeDepth := 40) +contextual [*]

@[simp] theorem kept_execScrubRowDone {s0 : State} (stack : Fin 8) (bank : Fin 768) (disturbed : List (Nat × Nat)) (s : State)
    (h_s : Kept s0 s) :
    KeptOut s0 (execScrubRowDone stack bank disturbed s) := by
  unfold execScrubRowDone
  dsimp only
  repeat' (first
    | intro _
    | with_reducible assumption
    | (with_reducible refine keptEnd_ite _ _ _ ?_ ?_)
    | (with_reducible refine keptOut_ite _ _ _ ?_ ?_)
    | (with_reducible refine kept_ite _ _ _ ?_ ?_)
    | (with_reducible refine kept_ite_fst _ _ _ ?_ ?_)
    | (with_reducible refine kept_ite_snd _ _ _ ?_ ?_)
    | split
    | (with_reducible refine (keptOut_next _ _).mpr ?_)
    | (simp (maxDischargeDepth := 40) +contextual [*]; done))

@[simp] theorem kept_execScrubLapTrumpCheck {s0 : State} (stack : Fin 8) (s : State) (h_s : Kept s0 s) :
    KeptOut s0 (execScrubLapTrumpCheck stack s) := by
  unfold execScrubLapTrumpCheck
  dsimp only
  repeat' (first
    | intro _
    | with_reducible assumption
    | (with_reducible refine keptEnd_ite _ _ _ ?_ ?_)
    | (with_reducible refine keptOut_ite _ _ _ ?_ ?_)
    | (with_reducible refine kept_ite _ _ _ ?_ ?_)
    | (with_reducible refine kept_ite_fst _ _ _ ?_ ?_)
    | (with_reducible refine kept_ite_snd _ _ _ ?_ ?_)
    | split
    | (with_reducible refine (keptOut_next _ _).mpr ?_)
    | (simp (maxDischargeDepth := 40) +contextual [*]; done))

@[simp] theorem kept_execScrubLapDeadline {s0 : State} (stack : Fin 8) (s : State) (h_s : Kept s0 s) :
    KeptOut s0 (execScrubLapDeadline stack s) := by
  unfold execScrubLapDeadline
  dsimp only
  repeat' (first
    | intro _
    | with_reducible assumption
    | (with_reducible refine keptEnd_ite _ _ _ ?_ ?_)
    | (with_reducible refine keptOut_ite _ _ _ ?_ ?_)
    | (with_reducible refine kept_ite _ _ _ ?_ ?_)
    | (with_reducible refine kept_ite_fst _ _ _ ?_ ?_)
    | (with_reducible refine kept_ite_snd _ _ _ ?_ ?_)
    | split
    | (with_reducible refine (keptOut_next _ _).mpr ?_)
    | (simp (maxDischargeDepth := 40) +contextual [*]; done))

end Sys2Proof.Machine
end

