-- ==== Sys2Proof/Laws/Kept/Registers.lean ====
section
/-! SUPPORT. The operations of Registers keep the queue, the canonical form of the array and the fuses that are set. -/

namespace Sys2Proof.Machine

@[simp] theorem kept_latchHi {s0 : State} (s : State) (offset : Nat) (h_s : Kept s0 s) :
    Kept s0 (latchHi s offset) := by
  unfold latchHi; simp (maxDischargeDepth := 40) +contextual [*]

@[simp] theorem kept_execTelMeterLoRead {s0 : State} (offset : Nat) (s : State) (h_s : Kept s0 s) :
    KeptOut s0 (execTelMeterLoRead offset s) := by
  unfold execTelMeterLoRead
  repeat' (first
    | intro _
    | with_reducible assumption
    | (with_reducible refine keptEnd_ite _ _ _ ?_ ?_)
    | (with_reducible refine keptOut_ite _ _ _ ?_ ?_)
    | (with_reducible refine kept_ite _ _ _ ?_ ?_)
    | (with_reducible refine kept_ite_fst _ _ _ ?_ ?_)
    | (with_reducible refine kept_ite_snd _ _ _ ?_ ?_)
    | split
    | (with_reducible refine (keptOut_next _ _).mpr ?_)
    | (simp (maxDischargeDepth := 40) +contextual [*]; done)
    | dsimp only)

@[simp] theorem kept_writeRgl {s0 : State} (s : State) (pair o : Nat) (v : W32) (h_s : Kept s0 s) :
    Kept s0 (writeRgl s pair o v) := by
  unfold writeRgl
  dsimp only
  repeat' (first
    | intro _
    | with_reducible assumption
    | split
    | (simp (maxDischargeDepth := 40) +contextual [*]; done))

@[simp] theorem kept_writeThermLimit {s0 : State} (s : State) (v : W32) (h_s : Kept s0 s) :
    Kept s0 (writeThermLimit s v) := by
  unfold writeThermLimit; simp (maxDischargeDepth := 40) +contextual [*]

@[simp] theorem kept_writeSetpoint {s0 : State} (s : State) (n : Nat) (v : W32) (h_s : Kept s0 s) :
    Kept s0 (writeSetpoint s n v) := by
  unfold writeSetpoint; simp (maxDischargeDepth := 40) +contextual [*]

@[simp] theorem kept_regWrite {s0 : State} (s : State) (o : Nat) (v : W32) (h_s : Kept s0 s) :
    Kept s0 (regWrite s o v) := by
  unfold regWrite; simp (maxDischargeDepth := 40) +contextual [*]

@[simp] theorem kept_regWrite8 {s0 : State} (s : State) (o : Nat) (v : W64) (h_s : Kept s0 s) :
    Kept s0 (regWrite8 s o v) := by
  unfold regWrite8; simp (maxDischargeDepth := 40) +contextual [*]

@[simp] theorem kept_execRglWrite {s0 : State} (offset : Nat) (value : W32) (s : State) (h_s : Kept s0 s) :
    KeptOut s0 (execRglWrite offset value s) := by
  unfold execRglWrite
  repeat' (first
    | intro _
    | with_reducible assumption
    | (with_reducible refine keptEnd_ite _ _ _ ?_ ?_)
    | (with_reducible refine keptOut_ite _ _ _ ?_ ?_)
    | (with_reducible refine kept_ite _ _ _ ?_ ?_)
    | split
    | (with_reducible refine (keptOut_next _ _).mpr ?_)
    | (simp (maxDischargeDepth := 40) +contextual [*]; done)
    | dsimp only)

@[simp] theorem kept_execThermLimitCtlWrite {s0 : State} (value : W32) (s : State) (h_s : Kept s0 s) :
    KeptOut s0 (execThermLimitCtlWrite value s) := by
  unfold execThermLimitCtlWrite
  repeat' (first
    | intro _
    | with_reducible assumption
    | (with_reducible refine keptEnd_ite _ _ _ ?_ ?_)
    | (with_reducible refine keptOut_ite _ _ _ ?_ ?_)
    | (with_reducible refine kept_ite _ _ _ ?_ ?_)
    | split
    | (with_reducible refine (keptOut_next _ _).mpr ?_)
    | (simp (maxDischargeDepth := 40) +contextual [*]; done)
    | dsimp only)

@[simp] theorem kept_execPwrDomainSetpointWrite {s0 : State} (domain : Fin 20) (value : W32) (s : State) (h_s : Kept s0 s) :
    KeptOut s0 (execPwrDomainSetpointWrite domain value s) := by
  unfold execPwrDomainSetpointWrite
  repeat' (first
    | intro _
    | with_reducible assumption
    | (with_reducible refine keptEnd_ite _ _ _ ?_ ?_)
    | (with_reducible refine keptOut_ite _ _ _ ?_ ?_)
    | (with_reducible refine kept_ite _ _ _ ?_ ?_)
    | split
    | (with_reducible refine (keptOut_next _ _).mpr ?_)
    | (simp (maxDischargeDepth := 40) +contextual [*]; done)
    | dsimp only)

@[simp] theorem kept_execRegisterWrite {s0 : State} (offset : Nat) (value : W32) (s : State) (h_s : Kept s0 s) :
    KeptOut s0 (execRegisterWrite offset value s) := by
  unfold execRegisterWrite
  repeat' (first
    | intro _
    | with_reducible assumption
    | (with_reducible refine keptEnd_ite _ _ _ ?_ ?_)
    | (with_reducible refine keptOut_ite _ _ _ ?_ ?_)
    | (with_reducible refine kept_ite _ _ _ ?_ ?_)
    | split
    | (with_reducible refine (keptOut_next _ _).mpr ?_)
    | (simp (maxDischargeDepth := 40) +contextual [*]; done)
    | dsimp only)

end Sys2Proof.Machine
end

