-- ==== Sys2Proof/Laws/Kept/Thermal.lean ====
section
/-! SUPPORT. The operations of Thermal keep the queue, the canonical form of the array and the fuses that are set. -/

namespace Sys2Proof.Machine

@[simp] theorem kept_putDepth {s0 : State} (s : State) (key n : Nat) (h_s : Kept s0 s) :
    Kept s0 (putDepth s key n) := by
  unfold putDepth; simp (maxDischargeDepth := 40) +contextual [*]

@[simp] theorem kept_putFloor {s0 : State} (s : State) (key : Nat) (b : Bool) (h_s : Kept s0 s) :
    Kept s0 (putFloor s key b) := by
  unfold putFloor; simp (maxDischargeDepth := 40) +contextual [*]

@[simp] theorem kept_moduleRecord {s0 : State} (s : State) (e : Ev) (h_s : Kept s0 s) :
    Kept s0 (moduleRecord s e) := by
  unfold moduleRecord; simp (maxDischargeDepth := 40) +contextual [*]

@[simp] theorem kept_setDepth {s0 : State} (s : State) (key n die : Nat) (h_s : Kept s0 s) :
    Kept s0 (setDepth s key n die) := by
  unfold setDepth; simp (maxDischargeDepth := 40) +contextual [*]

@[simp] theorem kept_throttle {s0 : State} (s : State) (die : Nat) (temp point : Int) (h_s : Kept s0 s) :
    Kept s0 (throttle s die temp point) := by
  unfold throttle; simp (maxDischargeDepth := 40) +contextual [*]

@[simp] theorem kept_setRefreshStep {s0 : State} (s : State) (n new : Nat) (h_s : Kept s0 s) :
    Kept s0 (setRefreshStep s n new) := by
  unfold setRefreshStep; simp (maxDischargeDepth := 40) +contextual [*]

@[simp] theorem kept_sampleStep {s0 : State} (s : State) (n : Nat) (temp : Int) (h_s : Kept s0 s) :
    Kept s0 (sampleStep s n temp) := by
  unfold sampleStep
  dsimp only
  repeat' (first
    | intro _
    | with_reducible assumption
    | (with_reducible refine kept_ite _ _ _ ?_ ?_)
    | (with_reducible refine kept_ite_fst _ _ _ ?_ ?_)
    | (with_reducible refine kept_ite_snd _ _ _ ?_ ?_)
    | (split <;> (try (rename_i hq; replace hq := KeptOpt.of_eq (s0 := s0) hq (by clear hq; simp (maxDischargeDepth := 40) +contextual [*]))))
    | (simp (maxDischargeDepth := 40) +contextual [*]; done))

@[simp] theorem kept_resumeWrites {s0 : State} (s : State) (n : Nat) (h_s : Kept s0 s) :
    Kept s0 (resumeWrites s n) := by
  unfold resumeWrites; simp (maxDischargeDepth := 40) +contextual [*]

@[simp] theorem kept_sampleWindow {s0 : State} (s : State) (n : Nat) (temp : Int) (h_s : Kept s0 s) :
    Kept s0 (sampleWindow s n temp) := by
  unfold sampleWindow; simp (maxDischargeDepth := 40) +contextual [*]

@[simp] theorem kept_allOff {s0 : State} (s : State) (h_s : Kept s0 s) :
    Kept s0 (allOff s) := by
  unfold allOff; simp (maxDischargeDepth := 40) +contextual [*]

@[simp] theorem kept_enterShutdown {s0 : State} (s : State) (die : Nat) (temp : Int) (h_s : Kept s0 s) :
    Kept s0 (enterShutdown s die temp) := by
  unfold enterShutdown; simp (maxDischargeDepth := 40) +contextual [*]

@[simp] theorem kept_leaveShutdown {s0 : State} (s : State) (die : Nat) (temp : Int) (h_s : Kept s0 s) :
    Kept s0 (leaveShutdown s die temp) := by
  unfold leaveShutdown; simp (maxDischargeDepth := 40) +contextual [*]

@[simp] theorem kept_finishActivation {s0 : State} (s : State) (h_s : Kept s0 s) :
    Kept s0 (finishActivation s) := by
  unfold finishActivation; simp (maxDischargeDepth := 40) +contextual [*]

@[simp] theorem kept_storeChanged {s0 : State} (s : State) (h_s : Kept s0 s) :
    Kept s0 (storeChanged s) := by
  unfold storeChanged; simp (maxDischargeDepth := 40) +contextual [*]

@[simp] theorem kept_failDiode {s0 : State} (s : State) (die : Nat) (h_s : Kept s0 s) :
    Kept s0 (failDiode s die) := by
  unfold failDiode; simp (maxDischargeDepth := 40) +contextual [*]

@[simp] theorem kept_noteFailure {s0 : State} (s : State) (code : W32) (h_s : Kept s0 s) :
    Kept s0 (noteFailure s code) := by
  unfold noteFailure; simp (maxDischargeDepth := 40) +contextual [*]

@[simp] theorem kept_goodSample {s0 : State} (s : State) (die : Nat) (temp : Int) (h_s : Kept s0 s) :
    Kept s0 (goodSample s die temp) := by
  unfold goodSample; simp (maxDischargeDepth := 40) +contextual [*]

end Sys2Proof.Machine
end

