-- ==== Sys2Proof/Laws/Kept/Startup.lean ====
section
/-! SUPPORT. The operations of Startup keep the queue, the canonical form of the array and the fuses that are set. -/

namespace Sys2Proof.Machine

@[simp] theorem kept_powerLost {s0 : State} (s : State) (tripped enableOpen : Bool) (h_s : Kept s0 s) :
    Kept s0 (powerLost s tripped enableOpen) := by
  exact ⟨h_s.1, fun _ => rfl, h_s.2.2.trans
    ⟨rfl, rfl, Nat.le_refl _, id, fun _ h => h, fun _ h => h, fun _ => BitVec.and_self⟩⟩

@[simp] theorem kept_execInputPowerLoss {s0 : State} (s : State) (h_s : Kept s0 s) :
    KeptOut s0 (execInputPowerLoss s) := by
  unfold execInputPowerLoss; simp (maxDischargeDepth := 40) +contextual [*]

@[simp] theorem kept_execVinEnableOpen {s0 : State} (s : State) (h_s : Kept s0 s) :
    KeptOut s0 (execVinEnableOpen s) := by
  unfold execVinEnableOpen; simp (maxDischargeDepth := 40) +contextual [*]

@[simp] theorem kept_execThermalTrip {s0 : State} (s : State) (h_s : Kept s0 s) :
    KeptOut s0 (execThermalTrip s) := by
  unfold execThermalTrip
  repeat' (first
    | intro _
    | with_reducible assumption
    | (with_reducible refine keptEnd_ite _ _ _ ?_ ?_)
    | (with_reducible refine keptOut_ite _ _ _ ?_ ?_)
    | (with_reducible refine kept_ite _ _ _ ?_ ?_)
    | split
    | (with_reducible refine (keptOut_next _ _).mpr ?_)
    | (simp (maxDischargeDepth := 40) +contextual [*]; done)
    | dsimp only)

@[simp] theorem kept_execInputPowerApplied {s0 : State} (voltage mgmtAddr : Nat) (s : State) (h_s : Kept s0 s) :
    KeptOut s0 (execInputPowerApplied voltage mgmtAddr s) := by
  unfold execInputPowerApplied
  dsimp only
  repeat' (first
    | intro _
    | with_reducible assumption
    | (with_reducible refine keptEnd_ite _ _ _ ?_ ?_)
    | (with_reducible refine keptOut_ite _ _ _ ?_ ?_)
    | (with_reducible refine kept_ite _ _ _ ?_ ?_)
    | (with_reducible refine kept_ite_fst _ _ _ ?_ ?_)
    | (with_reducible refine kept_ite_snd _ _ _ ?_ ?_)
    | split
    | (with_reducible refine (keptOut_next _ _).mpr ?_)
    | (simp (maxDischargeDepth := 40) +contextual [*]; done))

@[simp] theorem kept_execInputLow {s0 : State} (voltage : Nat) (s : State) (h_s : Kept s0 s) :
    KeptOut s0 (execInputLow voltage s) := by
  unfold execInputLow
  dsimp only
  repeat' (first
    | intro _
    | with_reducible assumption
    | (with_reducible refine keptEnd_ite _ _ _ ?_ ?_)
    | (with_reducible refine keptOut_ite _ _ _ ?_ ?_)
    | (with_reducible refine kept_ite _ _ _ ?_ ?_)
    | (with_reducible refine kept_ite_fst _ _ _ ?_ ?_)
    | (with_reducible refine kept_ite_snd _ _ _ ?_ ?_)
    | split
    | (with_reducible refine (keptOut_next _ _).mpr ?_)
    | (simp (maxDischargeDepth := 40) +contextual [*]; done))

@[simp] theorem kept_execInputExcursionEnd {s0 : State} (voltage : Nat) (s : State) (h_s : Kept s0 s) :
    KeptOut s0 (execInputExcursionEnd voltage s) := by
  unfold execInputExcursionEnd
  dsimp only
  repeat' (first
    | intro _
    | with_reducible assumption
    | (with_reducible refine keptEnd_ite _ _ _ ?_ ?_)
    | (with_reducible refine keptOut_ite _ _ _ ?_ ?_)
    | (with_reducible refine kept_ite _ _ _ ?_ ?_)
    | split
    | (with_reducible refine (keptOut_next _ _).mpr ?_)
    | (simp (maxDischargeDepth := 40) +contextual [*]; done))

@[simp] theorem kept_enterMisdeal {s0 : State} (s : State) (code : W32) (h_s : Kept s0 s) :
    Kept s0 (enterMisdeal s code) := by
  unfold enterMisdeal; simp (maxDischargeDepth := 40) +contextual [*]

@[simp] theorem kept_formDebug {s0 : State} (s : State) (h_s : Kept s0 s) :
    Kept s0 (formDebug s) := by
  unfold formDebug; simp (maxDischargeDepth := 40) +contextual [*]

@[simp] theorem kept_deriveKeys {s0 : State} (s : State) (f : Option FwImage) (h_s : Kept s0 s) :
    Kept s0 (deriveKeys s f) := by
  unfold deriveKeys
  dsimp only
  repeat' (first
    | intro _
    | with_reducible assumption
    | (with_reducible refine kept_ite _ _ _ ?_ ?_)
    | (with_reducible refine kept_ite_fst _ _ _ ?_ ?_)
    | (with_reducible refine kept_ite_snd _ _ _ ?_ ?_)
    | split
    | (simp (maxDischargeDepth := 40) +contextual [*]; done))

@[simp] theorem kept_advancePower {s0 : State} (s : State) (h_s : Kept s0 s) :
    Kept s0 (advancePower s) := by
  unfold advancePower
  dsimp only
  repeat' (first
    | intro _
    | with_reducible assumption
    | (with_reducible refine kept_ite _ _ _ ?_ ?_)
    | (with_reducible refine kept_ite_fst _ _ _ ?_ ?_)
    | (with_reducible refine kept_ite_snd _ _ _ ?_ ?_)
    | split
    | (simp (maxDischargeDepth := 40) +contextual [*]; done))

@[simp] theorem kept_beginTest {s0 : State} (s : State) (keep : Bool) (h_s : Kept s0 s) :
    Kept s0 (beginTest s keep) := by
  unfold beginTest; simp (maxDischargeDepth := 40) +contextual [*]

@[simp] theorem kept_execBootFwVerified {s0 : State} (s : State) (h_s : Kept s0 s) :
    KeptOut s0 (execBootFwVerified s) := by
  unfold execBootFwVerified
  dsimp only
  repeat' (first
    | intro _
    | with_reducible assumption
    | (with_reducible refine keptEnd_ite _ _ _ ?_ ?_)
    | (with_reducible refine keptOut_ite _ _ _ ?_ ?_)
    | (with_reducible refine kept_ite _ _ _ ?_ ?_)
    | (with_reducible refine kept_ite_fst _ _ _ ?_ ?_)
    | (with_reducible refine kept_ite_snd _ _ _ ?_ ?_)
    | split
    | (with_reducible refine (keptOut_next _ _).mpr ?_)
    | (simp (maxDischargeDepth := 40) +contextual [*]; done))

@[simp] theorem kept_sideUp {s0 : State} (s : State) (n : Nat) (h_s : Kept s0 s) :
    Kept s0 (sideUp s n) := by
  unfold sideUp; simp (maxDischargeDepth := 40) +contextual [*]

@[simp] theorem kept_quadrantUp {s0 : State} (s : State) (n : Nat) (h_s : Kept s0 s) :
    Kept s0 (quadrantUp s n) := by
  unfold quadrantUp; simp (maxDischargeDepth := 40) +contextual [*]

@[simp] theorem kept_execDomainInRegulation {s0 : State} (domain : Fin 20) (s : State) (h_s : Kept s0 s) :
    KeptOut s0 (execDomainInRegulation domain s) := by
  unfold execDomainInRegulation
  dsimp only
  repeat' (first
    | intro _
    | with_reducible assumption
    | (with_reducible refine keptEnd_ite _ _ _ ?_ ?_)
    | (with_reducible refine keptOut_ite _ _ _ ?_ ?_)
    | (with_reducible refine kept_ite _ _ _ ?_ ?_)
    | (with_reducible refine kept_ite_fst _ _ _ ?_ ?_)
    | (with_reducible refine kept_ite_snd _ _ _ ?_ ?_)
    | split
    | (with_reducible refine (keptOut_next _ _).mpr ?_)
    | (simp (maxDischargeDepth := 40) +contextual [*]; done))

@[simp] theorem kept_bootDeck {s0 : State} (s : State) (k : Nat) (h_s : Kept s0 s) :
    Kept s0 (bootDeck s k).1 := by
  unfold bootDeck
  dsimp only
  repeat' (first
    | intro _
    | with_reducible assumption
    | (with_reducible refine kept_ite _ _ _ ?_ ?_)
    | (with_reducible refine kept_ite_fst _ _ _ ?_ ?_)
    | (with_reducible refine kept_ite_snd _ _ _ ?_ ?_)
    | split
    | (simp (maxDischargeDepth := 40) +contextual [*]; done))

@[simp] theorem kept_runDeck {s0 : State} (s : State) (d : Deck) (k : Nat) (h_s : Kept s0 s) :
    Kept s0 (runDeck s d k) := by
  unfold runDeck; simp (maxDischargeDepth := 40) +contextual [*]

@[simp] theorem kept_startDeck {s0 : State} (s : State) (h_s : Kept s0 s) :
    Kept s0 (startDeck s) := by
  unfold startDeck
  extract_lets marked try_
  have ht : ∀ s m, Kept s0 s → Kept s0 (try_ s m).1 := by
    intro s m h
    simp only [try_]
    cases marked s m with
    | none => exact h
    | some k =>
      have hb := kept_bootDeck s k h
      dsimp only
      generalize bootDeck s k = b at hb ⊢
      obtain ⟨t, r⟩ := b
      cases r <;> exact hb
  clear_value try_
  have h1 := ht s .active h_s
  generalize try_ s .active = b at h1 ⊢
  obtain ⟨t, r⟩ := b
  cases r with
  | ok d => exact kept_runDeck (h_s := h1) ..
  | error c =>
    have h2 := ht t .previous h1
    dsimp only
    generalize try_ t .previous = b at h2 ⊢
    obtain ⟨u, q⟩ := b
    cases q with
    | ok d => exact kept_runDeck (h_s := kept_deckFault (h_s := h2) ..) ..
    | error _ => exact kept_deckFault (h_s := h2) ..

@[simp] theorem kept_coverCores {s0 : State} (s : State) (v : Cover) (cores : List Nat) (h_s : Kept s0 s) :
    Kept s0 (coverCores s v cores).1 := by
  unfold coverCores; simp (maxDischargeDepth := 40) +contextual [*]

@[simp] theorem kept_coverRow {s0 : State} (r : State × Cover) (e : Fin 8 × Fin 768 × Nat × BitVec 16) (h_r : Kept s0 (r).1) :
    Kept s0 (coverRow r e).1 := by
  unfold coverRow
  dsimp only
  repeat' (first
    | intro _
    | with_reducible assumption
    | (split <;> (try (rename_i hq; replace hq := KeptOpt.of_eq (s0 := s0) hq (by clear hq; simp (maxDischargeDepth := 40) +contextual [*]))))
    | (simp (maxDischargeDepth := 40) +contextual [*]; done))

@[simp] theorem kept_coverLane {s0 : State} (r : State × Cover) (e : PathId × Nat) (h_r : Kept s0 (r).1) :
    Kept s0 (coverLane r e).1 := by
  unfold coverLane
  dsimp only
  repeat' (first
    | intro _
    | with_reducible assumption
    | (split <;> (try (rename_i hq; replace hq := KeptOpt.of_eq (s0 := s0) hq (by clear hq; simp (maxDischargeDepth := 40) +contextual [*]))))
    | (simp (maxDischargeDepth := 40) +contextual [*]; done))

@[simp] theorem kept_coverTest {s0 : State} (s : State) (t : TestFindings) (h_s : Kept s0 s) :
    Kept s0 (coverTest s t).1 := by
  unfold coverTest; simp (maxDischargeDepth := 40) +contextual [*]

@[simp] theorem kept_openStacks {s0 : State} (s : State) (h_s : Kept s0 s) :
    Kept s0 (openStacks s) := by
  unfold openStacks
  dsimp only
  refine kept_ite _ _ _ (by simp (maxDischargeDepth := 40) +contextual [*]) (kept_foldl _ _ _ ?_ fun t n h => kept_resumeWrites (h_s := h) ..)
  exact (kept_array (by simp (maxDischargeDepth := 40) +contextual [*] : Kept s0 _) [] fun _ => rfl).of_same rfl rfl (FuseLe.refl _)

@[simp] theorem kept_passTest {s0 : State} (s : State) (h_s : Kept s0 s) :
    Kept s0 (passTest s) := by
  unfold passTest; simp (maxDischargeDepth := 40) +contextual [*]

@[simp] theorem kept_endTest {s0 : State} (s : State) (t : TestFindings) (h_s : Kept s0 s) :
    Kept s0 (endTest s t) := by
  unfold endTest; simp (maxDischargeDepth := 40) +contextual [*]

@[simp] theorem kept_execSelftestComplete {s0 : State} (t : TestFindings) (s : State) (h_s : Kept s0 s) :
    KeptOut s0 (execSelftestComplete t s) := by
  unfold execSelftestComplete
  dsimp only
  repeat' (first
    | intro _
    | with_reducible assumption
    | (with_reducible refine keptEnd_ite _ _ _ ?_ ?_)
    | (with_reducible refine keptOut_ite _ _ _ ?_ ?_)
    | (with_reducible refine kept_ite _ _ _ ?_ ?_)
    | (with_reducible refine kept_ite_fst _ _ _ ?_ ?_)
    | (with_reducible refine kept_ite_snd _ _ _ ?_ ?_)
    | split
    | (with_reducible refine (keptOut_next _ _).mpr ?_)
    | (simp (maxDischargeDepth := 40) +contextual [*]; done))

end Sys2Proof.Machine
end

