-- ==== Sys2Proof/Laws/Kept/Recover.lean ====
section
/-! SUPPORT. The operations of Recover keep the queue, the canonical form of the array and the fuses that are set. -/

namespace Sys2Proof.Machine

@[simp] theorem kept_reloadCores {s0 : State} (s : State) (cores : List Nat) (h_s : Kept s0 s) :
    Kept s0 (reloadCores s cores) := by
  unfold reloadCores
  repeat' (first
    | intro _
    | with_reducible assumption
    | split
    | (with_reducible refine kept_foldl _ _ _ ?_ ?_)
    | (with_reducible refine kept_foldl_snd _ _ _ ?_ ?_)
    | (with_reducible refine kept_foldl_fst _ _ _ ?_ ?_)
    | (simp (maxDischargeDepth := 40) +contextual [*]; done)
    | dsimp only)

@[simp] theorem kept_rereadImage {s0 : State} (s : State) (h_s : Kept s0 s) :
    Kept s0 (rereadImage s) := by
  unfold rereadImage
  dsimp only
  repeat' (first
    | intro _
    | with_reducible assumption
    | (with_reducible refine kept_ite _ _ _ ?_ ?_)
    | (with_reducible refine kept_ite_fst _ _ _ ?_ ?_)
    | (with_reducible refine kept_ite_snd _ _ _ ?_ ?_)
    | split
    | (with_reducible refine kept_foldl _ _ _ ?_ ?_)
    | (with_reducible refine kept_foldl_snd _ _ _ ?_ ?_)
    | (with_reducible refine kept_foldl_fst _ _ _ ?_ ?_)
    | (simp (maxDischargeDepth := 40) +contextual [*]; done))

@[simp] theorem kept_quadrantBack {s0 : State} (s : State) (q : Nat) (h_s : Kept s0 s) :
    Kept s0 (quadrantBack s q) := by
  unfold quadrantBack; simp (maxDischargeDepth := 40) +contextual [*]

@[simp] theorem kept_nearBack {s0 : State} (s : State) (h : Nat) (h_s : Kept s0 s) :
    Kept s0 (nearBack s h) := by
  unfold nearBack; simp (maxDischargeDepth := 40) +contextual [*]

@[simp] theorem kept_sideBack {s0 : State} (s : State) (f : Nat) (h_s : Kept s0 s) :
    Kept s0 (sideBack s f) := by
  unfold sideBack; simp (maxDischargeDepth := 40) +contextual [*]

@[simp] theorem kept_stackBack {s0 : State} (s : State) (n : Nat) (h_s : Kept s0 s) :
    Kept s0 (stackBack s n) := by
  unfold stackBack; simp (maxDischargeDepth := 40) +contextual [*]

@[simp] theorem kept_coreBack {s0 : State} (s : State) (h_s : Kept s0 s) :
    Kept s0 (coreBack s) := by
  unfold coreBack; simp (maxDischargeDepth := 40) +contextual [*]

@[simp] theorem kept_pathsBack {s0 : State} (s : State) (d : ResetDomain) (h_s : Kept s0 s) :
    Kept s0 (pathsBack s d) := by
  unfold pathsBack; simp (maxDischargeDepth := 40) +contextual [*]

@[simp] theorem kept_domainBack {s0 : State} (s : State) (d : ResetDomain) (h_s : Kept s0 s) :
    Kept s0 (domainBack s d) := by
  unfold domainBack
  dsimp only
  repeat' (first
    | intro _
    | with_reducible assumption
    | split
    | (with_reducible refine kept_foldl _ _ _ ?_ ?_)
    | (with_reducible refine kept_foldl_snd _ _ _ ?_ ?_)
    | (with_reducible refine kept_foldl_fst _ _ _ ?_ ?_)
    | (simp (maxDischargeDepth := 40) +contextual [*]; done))

@[simp] theorem kept_recoveryEnds {s0 : State} (s : State) (h_s : Kept s0 s) :
    Kept s0 (recoveryEnds s) := by
  unfold recoveryEnds; simp (maxDischargeDepth := 40) +contextual [*]

@[simp] theorem kept_recoveryFails {s0 : State} (s : State) (d : ResetDomain) (h_s : Kept s0 s) :
    Kept s0 (recoveryFails s d) := by
  unfold recoveryFails; simp (maxDischargeDepth := 40) +contextual [*]

@[simp] theorem kept_recoveryRecord {s0 : State} (s : State) (passed : Bool) (h_s : Kept s0 s) :
    Kept s0 (recoveryRecord s passed) := by
  unfold recoveryRecord; simp (maxDischargeDepth := 40) +contextual [*]

@[simp] theorem kept_domainEnds {s0 : State} (s : State) (d : ResetDomain) (passed : Bool) (h_s : Kept s0 s) :
    Kept s0 (domainEnds s d passed) := by
  unfold domainEnds; simp (maxDischargeDepth := 40) +contextual [*]

@[simp] theorem kept_execRecoveryDone {s0 : State} (d : ResetDomain) (passed : Bool) (s : State) (h_s : Kept s0 s) :
    KeptOut s0 (execRecoveryDone d passed s) := by
  unfold execRecoveryDone
  dsimp only
  repeat' (first
    | intro _
    | with_reducible assumption
    | (with_reducible refine keptEnd_ite _ _ _ ?_ ?_)
    | (with_reducible refine keptOut_ite _ _ _ ?_ ?_)
    | (with_reducible refine kept_ite _ _ _ ?_ ?_)
    | (with_reducible refine kept_ite_fst _ _ _ ?_ ?_)
    | (with_reducible refine kept_ite_snd _ _ _ ?_ ?_)
    | split
    | (with_reducible refine (keptOut_next _ _).mpr ?_)
    | (simp (maxDischargeDepth := 40) +contextual [*]; done))

@[simp] theorem kept_execDomainFailureDetected {s0 : State} (d : ResetDomain) (s : State) (h_s : Kept s0 s) :
    KeptOut s0 (execDomainFailureDetected d s) := by
  unfold execDomainFailureDetected
  repeat' (first
    | intro _
    | with_reducible assumption
    | (with_reducible refine keptEnd_ite _ _ _ ?_ ?_)
    | (with_reducible refine keptOut_ite _ _ _ ?_ ?_)
    | (with_reducible refine kept_ite _ _ _ ?_ ?_)
    | split
    | (with_reducible refine (keptOut_next _ _).mpr ?_)
    | (simp (maxDischargeDepth := 40) +contextual [*]; done)
    | dsimp only)

@[simp] theorem kept_execDomainRegulationTimeout {s0 : State} (domain : Fin 20) (s : State) (h_s : Kept s0 s) :
    KeptOut s0 (execDomainRegulationTimeout domain s) := by
  unfold execDomainRegulationTimeout
  dsimp only
  repeat' (first
    | intro _
    | with_reducible assumption
    | (with_reducible refine keptEnd_ite _ _ _ ?_ ?_)
    | (with_reducible refine keptOut_ite _ _ _ ?_ ?_)
    | (with_reducible refine kept_ite _ _ _ ?_ ?_)
    | (with_reducible refine kept_ite_fst _ _ _ ?_ ?_)
    | (with_reducible refine kept_ite_snd _ _ _ ?_ ?_)
    | split
    | (with_reducible refine (keptOut_next _ _).mpr ?_)
    | (simp (maxDischargeDepth := 40) +contextual [*]; done))

@[simp] theorem kept_takeSample {s0 : State} (s : State) (die : Nat) (reading : Option Int) (h_s : Kept s0 s) :
    Kept s0 (takeSample s die reading) := by
  unfold takeSample
  dsimp only
  repeat' (first
    | intro _
    | with_reducible assumption
    | (with_reducible refine kept_ite _ _ _ ?_ ?_)
    | (with_reducible refine kept_ite_fst _ _ _ ?_ ?_)
    | (with_reducible refine kept_ite_snd _ _ _ ?_ ?_)
    | (split <;> (try (rename_i hq; replace hq := KeptOpt.of_eq (s0 := s0) hq (by clear hq; simp (maxDischargeDepth := 40) +contextual [*]))))
    | (simp (maxDischargeDepth := 40) +contextual [*]; done))

@[simp] theorem kept_execDiodeSample {s0 : State} (die : Fin 9) (reading : Option Int) (s : State) (h_s : Kept s0 s) :
    KeptOut s0 (execDiodeSample die reading s) := by
  unfold execDiodeSample
  repeat' (first
    | intro _
    | with_reducible assumption
    | (with_reducible refine keptEnd_ite _ _ _ ?_ ?_)
    | (with_reducible refine keptOut_ite _ _ _ ?_ ?_)
    | (with_reducible refine kept_ite _ _ _ ?_ ?_)
    | split
    | (with_reducible refine (keptOut_next _ _).mpr ?_)
    | (simp (maxDischargeDepth := 40) +contextual [*]; done)
    | dsimp only)

@[simp] theorem kept_execSelftestResult {s0 : State} (cci : Fin 2) (input : List Byte) (s : State) (h_s : Kept s0 s) :
    KeptOut s0 (execSelftestResult cci input s) := by
  unfold execSelftestResult; simp (maxDischargeDepth := 40) +contextual [*]

@[simp] theorem kept_execRetest {s0 : State} (cci : Fin 2) (input : List Byte) (s : State) (h_s : Kept s0 s) :
    KeptOut s0 (execRetest cci input s) := by
  unfold execRetest; simp (maxDischargeDepth := 40) +contextual [*]

@[simp] theorem kept_execRepairWindowOpen {s0 : State} (cci : Fin 2) (input : List Byte) (s : State) (h_s : Kept s0 s) :
    KeptOut s0 (execRepairWindowOpen cci input s) := by
  unfold execRepairWindowOpen
  dsimp only
  repeat' (first
    | intro _
    | with_reducible assumption
    | (with_reducible refine keptEnd_ite _ _ _ ?_ ?_)
    | (with_reducible refine keptOut_ite _ _ _ ?_ ?_)
    | (with_reducible refine kept_ite _ _ _ ?_ ?_)
    | (with_reducible refine kept_ite_fst _ _ _ ?_ ?_)
    | (with_reducible refine kept_ite_snd _ _ _ ?_ ?_)
    | split
    | (with_reducible refine (keptOut_next _ _).mpr ?_)
    | (with_reducible apply kept_signed)
    | (simp (maxDischargeDepth := 40) +contextual [*]; done))

@[simp] theorem kept_execRepairApply {s0 : State} (cci : Fin 2) (input : List Byte) (s : State) (h_s : Kept s0 s) :
    KeptOut s0 (execRepairApply cci input s) := by
  unfold execRepairApply; simp (maxDischargeDepth := 40) +contextual [*]

@[simp] theorem kept_execRecover {s0 : State} (cci : Fin 2) (input : List Byte) (s : State) (h_s : Kept s0 s) :
    KeptOut s0 (execRecover cci input s) := by
  unfold execRecover
  repeat' (first
    | intro _
    | with_reducible assumption
    | split
    | (with_reducible refine (keptOut_next _ _).mpr ?_)
    | (with_reducible apply kept_signed)
    | (simp (maxDischargeDepth := 40) +contextual [*]; done)
    | dsimp only)

end Sys2Proof.Machine
end

