-- ==== Sys2Proof/Laws/Kept/ControlCores.lean ====
section
/-! SUPPORT. The operations of ControlCores keep the queue, the canonical form of the array and the fuses that are set. -/

namespace Sys2Proof.Machine

@[simp] theorem kept_execControlBeat {s0 : State} (s : State) (h_s : Kept s0 s) :
    KeptOut s0 (execControlBeat s) := by
  unfold execControlBeat
  repeat' (first
    | intro _
    | with_reducible assumption
    | (with_reducible refine keptEnd_ite _ _ _ ?_ ?_)
    | (with_reducible refine keptOut_ite _ _ _ ?_ ?_)
    | (with_reducible refine kept_ite _ _ _ ?_ ?_)
    | split
    | (with_reducible refine (keptOut_next _ _).mpr ?_)
    | (simp (maxDischargeDepth := 40) +contextual [*]; done)
    | dsimp only)

@[simp] theorem kept_hangInActivation {s0 : State} (s : State) (h_s : Kept s0 s) :
    Kept s0 (hangInActivation s) := by
  unfold hangInActivation
  repeat' (first
    | intro _
    | with_reducible assumption
    | split
    | (simp (maxDischargeDepth := 40) +contextual [*]; done)
    | dsimp only)

@[simp] theorem kept_declareHang {s0 : State} (s : State) (h_s : Kept s0 s) :
    Kept s0 (declareHang s) := by
  unfold declareHang; simp (maxDischargeDepth := 40) +contextual [*]

@[simp] theorem kept_execHeartbeatCheck {s0 : State} (s : State) (h_s : Kept s0 s) :
    KeptOut s0 (execHeartbeatCheck s) := by
  unfold execHeartbeatCheck
  dsimp only
  repeat' (first
    | intro _
    | with_reducible assumption
    | (with_reducible refine keptEnd_ite _ _ _ ?_ ?_)
    | (with_reducible refine keptOut_ite _ _ _ ?_ ?_)
    | (with_reducible refine kept_ite _ _ _ ?_ ?_)
    | (with_reducible refine kept_ite_fst _ _ _ ?_ ?_)
    | (with_reducible refine kept_ite_snd _ _ _ ?_ ?_)
    | split
    | (with_reducible refine (keptOut_next _ _).mpr ?_)
    | (simp (maxDischargeDepth := 40) +contextual [*]; done))

@[simp] theorem kept_execMgmtBeat {s0 : State} (s : State) (h_s : Kept s0 s) :
    KeptOut s0 (execMgmtBeat s) := by
  unfold execMgmtBeat
  repeat' (first
    | intro _
    | with_reducible assumption
    | (with_reducible refine keptEnd_ite _ _ _ ?_ ?_)
    | (with_reducible refine keptOut_ite _ _ _ ?_ ?_)
    | (with_reducible refine kept_ite _ _ _ ?_ ?_)
    | split
    | (with_reducible refine (keptOut_next _ _).mpr ?_)
    | (simp (maxDischargeDepth := 40) +contextual [*]; done)
    | dsimp only)

@[simp] theorem kept_execMgmtWatchdogExpiry {s0 : State} (s : State) (h_s : Kept s0 s) :
    KeptOut s0 (execMgmtWatchdogExpiry s) := by
  unfold execMgmtWatchdogExpiry
  repeat' (first
    | intro _
    | with_reducible assumption
    | (with_reducible refine keptEnd_ite _ _ _ ?_ ?_)
    | (with_reducible refine keptOut_ite _ _ _ ?_ ?_)
    | (with_reducible refine kept_ite _ _ _ ?_ ?_)
    | (with_reducible refine kept_ite_fst _ _ _ ?_ ?_)
    | (with_reducible refine kept_ite_snd _ _ _ ?_ ?_)
    | split
    | (with_reducible refine (keptOut_next _ _).mpr ?_)
    | (simp (maxDischargeDepth := 40) +contextual [*]; done)
    | dsimp only)

@[simp] theorem kept_execStandbyImageReady {s0 : State} (s : State) (h_s : Kept s0 s) :
    KeptOut s0 (execStandbyImageReady s) := by
  unfold execStandbyImageReady
  dsimp only
  repeat' (first
    | intro _
    | with_reducible assumption
    | (with_reducible refine keptEnd_ite _ _ _ ?_ ?_)
    | (with_reducible refine keptOut_ite _ _ _ ?_ ?_)
    | (with_reducible refine kept_ite _ _ _ ?_ ?_)
    | (with_reducible refine kept_ite_fst _ _ _ ?_ ?_)
    | (with_reducible refine kept_ite_snd _ _ _ ?_ ?_)
    | split
    | (with_reducible refine (keptOut_next _ _).mpr ?_)
    | (simp (maxDischargeDepth := 40) +contextual [*]; done))

@[simp] theorem kept_execStandbyLoadTimeout {s0 : State} (s : State) (h_s : Kept s0 s) :
    KeptOut s0 (execStandbyLoadTimeout s) := by
  unfold execStandbyLoadTimeout
  repeat' (first
    | intro _
    | with_reducible assumption
    | (with_reducible refine keptEnd_ite _ _ _ ?_ ?_)
    | (with_reducible refine keptOut_ite _ _ _ ?_ ?_)
    | (with_reducible refine kept_ite _ _ _ ?_ ?_)
    | (with_reducible refine kept_ite_fst _ _ _ ?_ ?_)
    | (with_reducible refine kept_ite_snd _ _ _ ?_ ?_)
    | split
    | (with_reducible refine (keptOut_next _ _).mpr ?_)
    | (simp (maxDischargeDepth := 40) +contextual [*]; done)
    | dsimp only)

@[simp] theorem kept_execFwProbationExpiry {s0 : State} (s : State) (h_s : Kept s0 s) :
    KeptOut s0 (execFwProbationExpiry s) := by
  unfold execFwProbationExpiry
  repeat' (first
    | intro _
    | with_reducible assumption
    | (with_reducible refine keptEnd_ite _ _ _ ?_ ?_)
    | (with_reducible refine keptOut_ite _ _ _ ?_ ?_)
    | (with_reducible refine kept_ite _ _ _ ?_ ?_)
    | split
    | (with_reducible refine (keptOut_next _ _).mpr ?_)
    | (simp (maxDischargeDepth := 40) +contextual [*]; done)
    | dsimp only)

@[simp] theorem kept_execOldActiveReloaded {s0 : State} (s : State) (h_s : Kept s0 s) :
    KeptOut s0 (execOldActiveReloaded s) := by
  unfold execOldActiveReloaded
  repeat' (first
    | intro _
    | with_reducible assumption
    | (with_reducible refine keptEnd_ite _ _ _ ?_ ?_)
    | (with_reducible refine keptOut_ite _ _ _ ?_ ?_)
    | (with_reducible refine kept_ite _ _ _ ?_ ?_)
    | split
    | (with_reducible refine (keptOut_next _ _).mpr ?_)
    | (simp (maxDischargeDepth := 40) +contextual [*]; done)
    | dsimp only)

@[simp] theorem kept_execPerstNDeassert {s0 : State} (s : State) (h_s : Kept s0 s) :
    KeptOut s0 (execPerstNDeassert s) := by
  unfold execPerstNDeassert; simp (maxDischargeDepth := 40) +contextual [*]

end Sys2Proof.Machine
end

