-- ==== Sys2Proof/Laws/Kept/FabricCommands.lean ====
section
/-! SUPPORT. The operations of FabricCommands keep the queue, the canonical form of the array and the fuses that are set. -/

namespace Sys2Proof.Machine

@[simp] theorem kept_execFabRouteLoad {s0 : State} (cci : Fin 2) (input : List Byte) (entries : List (BitVec 16)) (s : State)
    (h_s : Kept s0 s) :
    KeptOut s0 (execFabRouteLoad cci input entries s) := by
  unfold execFabRouteLoad
  dsimp only
  repeat' (first
    | intro _
    | with_reducible assumption
    | (with_reducible refine keptEnd_ite _ _ _ ?_ ?_)
    | (with_reducible refine keptOut_ite _ _ _ ?_ ?_)
    | (with_reducible refine kept_ite _ _ _ ?_ ?_)
    | (with_reducible refine kept_ite_fst _ _ _ ?_ ?_)
    | (with_reducible refine kept_ite_snd _ _ _ ?_ ?_)
    | (split <;> (try (rename_i hq; replace hq := KeptOpt.of_eq (s0 := s0) hq (by clear hq; simp (maxDischargeDepth := 40) +contextual [*]))))
    | (with_reducible refine (keptOut_next _ _).mpr ?_)
    | (with_reducible apply kept_signed)
    | (simp (maxDischargeDepth := 40) +contextual [*]; done))

@[simp] theorem kept_execFabPortClear {s0 : State} (cci : Fin 2) (input : List Byte) (s : State) (h_s : Kept s0 s) :
    KeptOut s0 (execFabPortClear cci input s) := by
  unfold execFabPortClear; simp (maxDischargeDepth := 40) +contextual [*]

@[simp] theorem kept_execFabPortRetrain {s0 : State} (cci : Fin 2) (input : List Byte) (s : State) (h_s : Kept s0 s) :
    KeptOut s0 (execFabPortRetrain cci input s) := by
  unfold execFabPortRetrain; simp (maxDischargeDepth := 40) +contextual [*]

end Sys2Proof.Machine
end

