-- ==== Sys2Proof/Laws/Kept/ServingEvents.lean ====
section
/-! SUPPORT. The operations of ServingEvents keep the queue, the canonical form of the array and the fuses that are set. -/

namespace Sys2Proof.Machine

@[simp] theorem kept_takeRoundList {s0 : State} (s : State) (m : ServMsg) (h_s : Kept s0 s) :
    Kept s0 (takeRoundList s m) := by
  unfold takeRoundList; simp (maxDischargeDepth := 40) +contextual [*]

@[simp] theorem kept_execRoundList {s0 : State} (m : ServMsg) (s : State) (h_s : Kept s0 s) :
    KeptOut s0 (execRoundList m s) := by
  unfold execRoundList; simp (maxDischargeDepth := 40) +contextual [*]

@[simp] theorem kept_takeRoundReport {s0 : State} (s : State) (src : Nat) (m : ServMsg) (h_s : Kept s0 s) :
    Kept s0 (takeRoundReport s src m) := by
  unfold takeRoundReport; simp (maxDischargeDepth := 40) +contextual [*]

@[simp] theorem kept_execRoundReport {s0 : State} (src : Nat) (m : ServMsg) (s : State) (h_s : Kept s0 s) :
    KeptOut s0 (execRoundReport src m s) := by
  unfold execRoundReport; simp (maxDischargeDepth := 40) +contextual [*]

@[simp] theorem kept_takePrefillJob {s0 : State} (s : State) (src : Nat) (m : ServMsg) (h_s : Kept s0 s) :
    Kept s0 (takePrefillJob s src m) := by
  unfold takePrefillJob
  dsimp only
  repeat' (first
    | intro _
    | with_reducible assumption
    | (with_reducible refine kept_ite _ _ _ ?_ ?_)
    | (with_reducible refine kept_ite_fst _ _ _ ?_ ?_)
    | (with_reducible refine kept_ite_snd _ _ _ ?_ ?_)
    | split
    | (with_reducible refine kept_foldl _ _ _ ?_ ?_)
    | (with_reducible refine kept_foldl_snd _ _ _ ?_ ?_)
    | (with_reducible refine kept_foldl_fst _ _ _ ?_ ?_)
    | (simp (maxDischargeDepth := 40) +contextual [*]; done))

@[simp] theorem kept_execPrefillJob {s0 : State} (src : Nat) (m : ServMsg) (s : State) (h_s : Kept s0 s) :
    KeptOut s0 (execPrefillJob src m s) := by
  unfold execPrefillJob; simp (maxDischargeDepth := 40) +contextual [*]

@[simp] theorem kept_shipped {s0 : State} (s : State) (i : Nat) (h_s : Kept s0 s) :
    Kept s0 (shipped s i) := by
  unfold shipped; simp (maxDischargeDepth := 40) +contextual [*]

@[simp] theorem kept_takePrefillDone {s0 : State} (s : State) (src : Nat) (m : ServMsg) (h_s : Kept s0 s) :
    Kept s0 (takePrefillDone s src m) := by
  unfold takePrefillDone
  dsimp only
  repeat' (first
    | intro _
    | with_reducible assumption
    | (with_reducible refine kept_ite _ _ _ ?_ ?_)
    | (with_reducible refine kept_ite_fst _ _ _ ?_ ?_)
    | (with_reducible refine kept_ite_snd _ _ _ ?_ ?_)
    | split
    | (simp (maxDischargeDepth := 40) +contextual [*]; done))

@[simp] theorem kept_execPrefillDone {s0 : State} (src : Nat) (m : ServMsg) (s : State) (h_s : Kept s0 s) :
    KeptOut s0 (execPrefillDone src m s) := by
  unfold execPrefillDone; simp (maxDischargeDepth := 40) +contextual [*]

@[simp] theorem kept_takeSpill {s0 : State} (s : State) (m : ServMsg) (h_s : Kept s0 s) :
    Kept s0 (takeSpill s m) := by
  unfold takeSpill; simp (maxDischargeDepth := 40) +contextual [*]

@[simp] theorem kept_execSpill {s0 : State} (m : ServMsg) (s : State) (h_s : Kept s0 s) :
    KeptOut s0 (execSpill m s) := by
  unfold execSpill; simp (maxDischargeDepth := 40) +contextual [*]

@[simp] theorem kept_takeSpillDone {s0 : State} (s : State) (src : Nat) (m : ServMsg) (h_s : Kept s0 s) :
    Kept s0 (takeSpillDone s src m) := by
  unfold takeSpillDone; simp (maxDischargeDepth := 40) +contextual [*]

@[simp] theorem kept_execSpillDone {s0 : State} (src : Nat) (m : ServMsg) (s : State) (h_s : Kept s0 s) :
    KeptOut s0 (execSpillDone src m s) := by
  unfold execSpillDone; simp (maxDischargeDepth := 40) +contextual [*]

@[simp] theorem kept_poisonedPage {s0 : State} (s : State) (t p : Nat) (h_s : Kept s0 s) :
    Kept s0 (poisonedPage s t p) := by
  unfold poisonedPage; simp (maxDischargeDepth := 40) +contextual [*]

@[simp] theorem kept_takePageFault {s0 : State} (s : State) (m : ServMsg) (h_s : Kept s0 s) :
    Kept s0 (takePageFault s m) := by
  unfold takePageFault; simp (maxDischargeDepth := 40) +contextual [*]

@[simp] theorem kept_execPageFault {s0 : State} (_src : Nat) (m : ServMsg) (s : State) (h_s : Kept s0 s) :
    KeptOut s0 (execPageFault _src m s) := by
  unfold execPageFault; simp (maxDischargeDepth := 40) +contextual [*]

end Sys2Proof.Machine
end

