-- ==== Sys2Proof/Laws/Kept/FlitReceive.lean ====
section
/-! SUPPORT. The operations of FlitReceive keep the queue, the canonical form of the array and the fuses that are set. -/

namespace Sys2Proof.Machine

@[simp] theorem kept_takeServing {s0 : State} (s : State) (src : Nat) (m : ServMsg) (h_s : Kept s0 s) :
    Kept s0 (takeServing s src m) := by
  unfold takeServing
  repeat' (first
    | intro _
    | with_reducible assumption
    | split
    | (simp (maxDischargeDepth := 40) +contextual [*]; done)
    | dsimp only)

@[simp] theorem kept_takeGroup {s0 : State} (s : State) (src : Nat) (m : GroupMsg) (h_s : Kept s0 s) :
    Kept s0 (takeGroup s src m) := by
  unfold takeGroup
  repeat' (first
    | intro _
    | with_reducible assumption
    | split
    | (simp (maxDischargeDepth := 40) +contextual [*]; done)
    | dsimp only)

@[simp] theorem kept_takeMessage {s0 : State} (s : State) (src : Nat) (b : FrameBody) (h_s : Kept s0 s) :
    Kept s0 (takeMessage s src b) := by
  unfold takeMessage
  repeat' (first
    | intro _
    | with_reducible assumption
    | split
    | (simp (maxDischargeDepth := 40) +contextual [*]; done)
    | dsimp only)

@[simp] theorem kept_takePacket {s0 : State} (s : State) (src : Nat) (packet : List Byte) (h_s : Kept s0 s) :
    Kept s0 (takePacket s src packet) := by
  unfold takePacket
  dsimp only
  repeat' (first
    | intro _
    | with_reducible assumption
    | (with_reducible refine kept_ite _ _ _ ?_ ?_)
    | (with_reducible refine kept_ite_fst _ _ _ ?_ ?_)
    | (with_reducible refine kept_ite_snd _ _ _ ?_ ?_)
    | split
    | (simp (maxDischargeDepth := 40) +contextual [*]; done))

@[simp] theorem kept_consumeFrame {s0 : State} (s : State) (p : Nat) (f : Frame) (h_s : Kept s0 s) :
    Kept s0 (consumeFrame s p f) := by
  unfold consumeFrame
  dsimp only
  repeat' (first
    | intro _
    | with_reducible assumption
    | (with_reducible refine kept_ite _ _ _ ?_ ?_)
    | (with_reducible refine kept_ite_fst _ _ _ ?_ ?_)
    | (with_reducible refine kept_ite_snd _ _ _ ?_ ?_)
    | split
    | (simp (maxDischargeDepth := 40) +contextual [*]; done))

@[simp] theorem kept_forwardFrame {s0 : State} (s : State) (p key : Nat) (r : RawFrame) (h_s : Kept s0 s) :
    Kept s0 (forwardFrame s p key r) := by
  unfold forwardFrame; simp (maxDischargeDepth := 40) +contextual [*]

@[simp] theorem kept_readAndConsume {s0 : State} (s : State) (p : Nat) (r : RawFrame) (h_s : Kept s0 s) :
    Kept s0 (readAndConsume s p r) := by
  unfold readAndConsume
  dsimp only
  repeat' (first
    | intro _
    | with_reducible assumption
    | (with_reducible refine kept_ite _ _ _ ?_ ?_)
    | split
    | (simp (maxDischargeDepth := 40) +contextual [*]; done))

@[simp] theorem kept_takeFrame {s0 : State} (s : State) (p : Nat) (bytes : List Byte) (h_s : Kept s0 s) :
    Kept s0 (takeFrame s p bytes) := by
  unfold takeFrame
  dsimp only
  repeat' (first
    | intro _
    | with_reducible assumption
    | (with_reducible refine kept_ite _ _ _ ?_ ?_)
    | (with_reducible refine kept_ite_fst _ _ _ ?_ ?_)
    | (with_reducible refine kept_ite_snd _ _ _ ?_ ?_)
    | split
    | (simp (maxDischargeDepth := 40) +contextual [*]; done))

@[simp] theorem kept_takeUnit {s0 : State} (s : State) (p : Nat) (u : List Byte) (h_s : Kept s0 s) :
    Kept s0 (takeUnit s p u) := by
  unfold takeUnit; simp (maxDischargeDepth := 40) +contextual [*]

@[simp] theorem kept_takePayload {s0 : State} (s : State) (p : Nat) (flit : List Byte) (h_s : Kept s0 s) :
    Kept s0 (takePayload s p flit) := by
  unfold takePayload; simp (maxDischargeDepth := 40) +contextual [*]

@[simp] theorem kept_resendFlit {s0 : State} (s : State) (p : Nat) (r : RetFlit) (h_s : Kept s0 s) :
    Kept s0 (resendFlit s p r) := by
  unfold resendFlit; simp (maxDischargeDepth := 40) +contextual [*]

@[simp] theorem kept_takeNak {s0 : State} (s : State) (p : Nat) (h_s : Kept s0 s) :
    Kept s0 (takeNak s p) := by
  unfold takeNak
  dsimp only
  repeat' (first
    | intro _
    | with_reducible assumption
    | (with_reducible refine kept_ite _ _ _ ?_ ?_)
    | (with_reducible refine kept_ite_fst _ _ _ ?_ ?_)
    | (with_reducible refine kept_ite_snd _ _ _ ?_ ?_)
    | split
    | (with_reducible refine kept_foldl _ _ _ ?_ ?_)
    | (with_reducible refine kept_foldl_snd _ _ _ ?_ ?_)
    | (with_reducible refine kept_foldl_fst _ _ _ ?_ ?_)
    | (simp (maxDischargeDepth := 40) +contextual [*]; done))

@[simp] theorem kept_takeHeader {s0 : State} (s : State) (p : Nat) (flit : List Byte) (h_s : Kept s0 s) :
    Kept s0 (takeHeader s p flit) := by
  unfold takeHeader; simp (maxDischargeDepth := 40) +contextual [*]

@[simp] theorem kept_discardFlit {s0 : State} (s : State) (p : Nat) (h_s : Kept s0 s) :
    Kept s0 (discardFlit s p) := by
  unfold discardFlit; simp (maxDischargeDepth := 40) +contextual [*]

@[simp] theorem kept_takeFlit {s0 : State} (s : State) (p : Nat) (flit : List Byte) (h_s : Kept s0 s) :
    Kept s0 (takeFlit s p flit) := by
  unfold takeFlit; simp (maxDischargeDepth := 40) +contextual [*]

@[simp] theorem kept_execFlitReceive {s0 : State} (port : Fin 12) (flit : Flit) (s : State) (h_s : Kept s0 s) :
    KeptOut s0 (execFlitReceive port flit s) := by
  unfold execFlitReceive
  dsimp only
  repeat' (first
    | intro _
    | with_reducible assumption
    | (with_reducible refine keptEnd_ite _ _ _ ?_ ?_)
    | (with_reducible refine keptOut_ite _ _ _ ?_ ?_)
    | (with_reducible refine kept_ite _ _ _ ?_ ?_)
    | (with_reducible refine kept_ite_fst _ _ _ ?_ ?_)
    | (with_reducible refine kept_ite_snd _ _ _ ?_ ?_)
    | split
    | (with_reducible refine (keptOut_next _ _).mpr ?_)
    | (simp (maxDischargeDepth := 40) +contextual [*]; done))

@[simp] theorem kept_execMgmt {s0 : State} (hdr : FrameHdr) (packet : List Byte) (s : State) (h_s : Kept s0 s) :
    KeptOut s0 (execMgmt hdr packet s) := by
  unfold execMgmt; simp (maxDischargeDepth := 40) +contextual [*]

end Sys2Proof.Machine
end

