-- ==== Sys2Proof/Laws/Kept/Meters.lean ====
section
/-! SUPPORT. The operations of Meters keep the queue, the canonical form of the array and the fuses that are set. -/

namespace Sys2Proof.Machine

@[simp] theorem kept_portUnclocked {s0 : State} (s : State) (p : Nat) (h_s : Kept s0 s) :
    Kept s0 (portUnclocked s p) := by
  unfold portUnclocked
  repeat' (first
    | intro _
    | with_reducible assumption
    | split
    | (simp (maxDischargeDepth := 40) +contextual [*]; done)
    | dsimp only)

@[simp] theorem kept_computeUnclocked {s0 : State} (s : State) (h_s : Kept s0 s) :
    Kept s0 (computeUnclocked s) := by
  unfold computeUnclocked; simp (maxDischargeDepth := 40) +contextual [*]

@[simp] theorem kept_execRefclkLost {s0 : State} (die : Fin 9) (s : State) (h_s : Kept s0 s) :
    KeptOut s0 (execRefclkLost die s) := by
  unfold execRefclkLost
  repeat' (first
    | intro _
    | with_reducible assumption
    | (with_reducible refine keptEnd_ite _ _ _ ?_ ?_)
    | (with_reducible refine keptOut_ite _ _ _ ?_ ?_)
    | (with_reducible refine kept_ite _ _ _ ?_ ?_)
    | split
    | (with_reducible refine (keptOut_next _ _).mpr ?_)
    | (simp (maxDischargeDepth := 40) +contextual [*]; done)
    | dsimp only)

@[simp] theorem kept_computeClocked {s0 : State} (s : State) (h_s : Kept s0 s) :
    Kept s0 (computeClocked s) := by
  unfold computeClocked; simp (maxDischargeDepth := 40) +contextual [*]

@[simp] theorem kept_execRefclkRestored {s0 : State} (die : Fin 9) (s : State) (h_s : Kept s0 s) :
    KeptOut s0 (execRefclkRestored die s) := by
  unfold execRefclkRestored
  repeat' (first
    | intro _
    | with_reducible assumption
    | (with_reducible refine keptEnd_ite _ _ _ ?_ ?_)
    | (with_reducible refine keptOut_ite _ _ _ ?_ ?_)
    | (with_reducible refine kept_ite _ _ _ ?_ ?_)
    | split
    | (with_reducible refine (keptOut_next _ _).mpr ?_)
    | (simp (maxDischargeDepth := 40) +contextual [*]; done)
    | dsimp only)

@[simp] theorem kept_paceQuadrant {s0 : State} (s : State) (counts : List Nat) (q : Nat) (h_s : Kept s0 s) :
    Kept s0 (paceQuadrant s counts q) := by
  unfold paceQuadrant; simp (maxDischargeDepth := 40) +contextual [*]

@[simp] theorem kept_execPaceUpdate {s0 : State} (counts : List Nat) (s : State) (h_s : Kept s0 s) :
    KeptOut s0 (execPaceUpdate counts s) := by
  unfold execPaceUpdate
  dsimp only
  repeat' (first
    | intro _
    | with_reducible assumption
    | (with_reducible refine keptEnd_ite _ _ _ ?_ ?_)
    | (with_reducible refine keptOut_ite _ _ _ ?_ ?_)
    | (with_reducible refine kept_ite _ _ _ ?_ ?_)
    | (with_reducible refine kept_ite_fst _ _ _ ?_ ?_)
    | (with_reducible refine kept_ite_snd _ _ _ ?_ ?_)
    | split
    | (with_reducible refine (keptOut_next _ _).mpr ?_)
    | (with_reducible refine kept_foldl _ _ _ ?_ ?_)
    | (with_reducible refine kept_foldl_snd _ _ _ ?_ ?_)
    | (with_reducible refine kept_foldl_fst _ _ _ ?_ ?_)
    | (simp (maxDischargeDepth := 40) +contextual [*]; done))

@[simp] theorem kept_runQueue {s0 : State} (s : State) (blocked : List Nat) (y0 : List (Nat × Nat × Xfer)) (h_s : Kept s0 s) :
    Kept s0 (runQueue s blocked y0) := by
  induction y0 generalizing s blocked with
  | nil => simp [runQueue, *]
  | cons a r ih =>
    unfold runQueue
    dsimp only
    (repeat' split) <;> (first | with_reducible assumption | (simp (maxDischargeDepth := 40) +contextual [*]; done) | (split <;> simp (maxDischargeDepth := 40) +contextual [*]))

@[simp] theorem kept_resumeRows {s0 : State} (s : State) (h_s : Kept s0 s) :
    Kept s0 (resumeRows s) := by
  unfold resumeRows; simp (maxDischargeDepth := 40) +contextual [*]

@[simp] theorem kept_execRegulatorRefillTick {s0 : State} (s : State) (h_s : Kept s0 s) :
    KeptOut s0 (execRegulatorRefillTick s) := by
  unfold execRegulatorRefillTick
  dsimp only
  repeat' (first
    | intro _
    | with_reducible assumption
    | (with_reducible refine keptEnd_ite _ _ _ ?_ ?_)
    | (with_reducible refine keptOut_ite _ _ _ ?_ ?_)
    | (with_reducible refine kept_ite _ _ _ ?_ ?_)
    | (with_reducible refine kept_ite_fst _ _ _ ?_ ?_)
    | (with_reducible refine kept_ite_snd _ _ _ ?_ ?_)
    | split
    | (with_reducible refine (keptOut_next _ _).mpr ?_)
    | (with_reducible refine kept_foldl _ _ _ ?_ ?_)
    | (with_reducible refine kept_foldl_snd _ _ _ ?_ ?_)
    | (with_reducible refine kept_foldl_fst _ _ _ ?_ ?_)
    | (simp (maxDischargeDepth := 40) +contextual [*]; done))

@[simp] theorem kept_execTestAccessPortInstruction {s0 : State} (ir : Nat) (s : State) (h_s : Kept s0 s) :
    KeptOut s0 (execTestAccessPortInstruction ir s) := by
  unfold execTestAccessPortInstruction
  dsimp only
  repeat' (first
    | intro _
    | with_reducible assumption
    | (with_reducible refine keptEnd_ite _ _ _ ?_ ?_)
    | (with_reducible refine keptOut_ite _ _ _ ?_ ?_)
    | (with_reducible refine kept_ite _ _ _ ?_ ?_)
    | split
    | (with_reducible refine (keptOut_next _ _).mpr ?_)
    | (simp (maxDischargeDepth := 40) +contextual [*]; done))

end Sys2Proof.Machine
end

