-- ==== Sys2Proof/Laws/Kept/Scalar.lean ====
section
/-! SUPPORT. The operations of Scalar keep the queue, the canonical form of the array and the fuses that are set. -/

namespace Sys2Proof.Machine

@[simp] theorem kept_execNop {s0 : State} (h : PlayHdr) (s : State) (h_s : Kept s0 s) :
    KeptOut s0 (execNop h s) := by
  unfold execNop
  repeat' (first
    | intro _
    | with_reducible assumption
    | split
    | (with_reducible refine (keptOut_next _ _).mpr ?_)
    | (with_reducible apply kept_issue)
    | (simp (maxDischargeDepth := 40) +contextual [*]; done)
    | dsimp only)

@[simp] theorem kept_execHalt {s0 : State} (h : PlayHdr) (s : State) (h_s : Kept s0 s) :
    KeptOut s0 (execHalt h s) := by
  unfold execHalt
  repeat' (first
    | intro _
    | with_reducible assumption
    | split
    | (with_reducible refine (keptOut_next _ _).mpr ?_)
    | (with_reducible apply kept_issue)
    | (simp (maxDischargeDepth := 40) +contextual [*]; done)
    | dsimp only)

@[simp] theorem kept_execFault {s0 : State} (h : PlayHdr) (number : BitVec 16) (s : State) (h_s : Kept s0 s) :
    KeptOut s0 (execFault h number s) := by
  unfold execFault
  repeat' (first
    | intro _
    | with_reducible assumption
    | split
    | (with_reducible refine (keptOut_next _ _).mpr ?_)
    | (with_reducible apply kept_issue)
    | (simp (maxDischargeDepth := 40) +contextual [*]; done)
    | dsimp only)

@[simp] theorem kept_execLoop {s0 : State} (h : PlayHdr) (count : BitVec 20) (body : BitVec 11) (s : State) (h_s : Kept s0 s) :
    KeptOut s0 (execLoop h count body s) := by
  unfold execLoop
  repeat' (first
    | intro _
    | with_reducible assumption
    | split
    | (with_reducible refine (keptOut_next _ _).mpr ?_)
    | (with_reducible apply kept_issueWith)
    | (simp (maxDischargeDepth := 40) +contextual [*]; done)
    | dsimp only)

@[simp] theorem kept_execSkip {s0 : State} (h : PlayHdr) (n : BitVec 11) (s : State) (h_s : Kept s0 s) :
    KeptOut s0 (execSkip h n s) := by
  unfold execSkip
  repeat' (first
    | intro _
    | with_reducible assumption
    | split
    | (with_reducible refine (keptOut_next _ _).mpr ?_)
    | (with_reducible apply kept_issue)
    | (simp (maxDischargeDepth := 40) +contextual [*]; done)
    | dsimp only)

@[simp] theorem kept_execSeti {s0 : State} (h : PlayHdr) (f : FmtC) (s : State) (h_s : Kept s0 s) :
    KeptOut s0 (execSeti h f s) := by
  unfold execSeti
  repeat' (first
    | intro _
    | with_reducible assumption
    | split
    | (with_reducible refine (keptOut_next _ _).mpr ?_)
    | (with_reducible apply kept_issue)
    | (simp (maxDischargeDepth := 40) +contextual [*]; done)
    | dsimp only)

@[simp] theorem kept_execSaddi {s0 : State} (h : PlayHdr) (f : FmtC) (s : State) (h_s : Kept s0 s) :
    KeptOut s0 (execSaddi h f s) := by
  unfold execSaddi
  dsimp only
  repeat' (first
    | intro _
    | with_reducible assumption
    | split
    | (with_reducible refine (keptOut_next _ _).mpr ?_)
    | (with_reducible apply kept_issue)
    | (simp (maxDischargeDepth := 40) +contextual [*]; done))

@[simp] theorem kept_execSalu {s0 : State} (h : PlayHdr) (f : FmtC) (s : State) (h_s : Kept s0 s) :
    KeptOut s0 (execSalu h f s) := by
  unfold execSalu
  dsimp only
  repeat' (first
    | intro _
    | with_reducible assumption
    | split
    | (with_reducible refine (keptOut_next _ _).mpr ?_)
    | (with_reducible apply kept_issue)
    | (simp (maxDischargeDepth := 40) +contextual [*]; done))

@[simp] theorem kept_execScmp {s0 : State} (h : PlayHdr) (f : FmtC) (s : State) (h_s : Kept s0 s) :
    KeptOut s0 (execScmp h f s) := by
  unfold execScmp
  dsimp only
  repeat' (first
    | intro _
    | with_reducible assumption
    | (with_reducible refine keptEnd_ite _ _ _ ?_ ?_)
    | (with_reducible refine keptOut_ite _ _ _ ?_ ?_)
    | (with_reducible refine kept_ite _ _ _ ?_ ?_)
    | (with_reducible refine kept_ite_fst _ _ _ ?_ ?_)
    | (with_reducible refine kept_ite_snd _ _ _ ?_ ?_)
    | split
    | (with_reducible refine (keptOut_next _ _).mpr ?_)
    | (with_reducible apply kept_issue)
    | (simp (maxDischargeDepth := 40) +contextual [*]; done))

@[simp] theorem kept_execPlog {s0 : State} (h : PlayHdr) (f : FmtC) (s : State) (h_s : Kept s0 s) :
    KeptOut s0 (execPlog h f s) := by
  unfold execPlog
  dsimp only
  repeat' (first
    | intro _
    | with_reducible assumption
    | split
    | (with_reducible refine (keptOut_next _ _).mpr ?_)
    | (with_reducible apply kept_issue)
    | (simp (maxDischargeDepth := 40) +contextual [*]; done))

@[simp] theorem kept_execPbit {s0 : State} (h : PlayHdr) (f : FmtC) (s : State) (h_s : Kept s0 s) :
    KeptOut s0 (execPbit h f s) := by
  unfold execPbit
  dsimp only
  repeat' (first
    | intro _
    | with_reducible assumption
    | split
    | (with_reducible refine (keptOut_next _ _).mpr ?_)
    | (with_reducible apply kept_issue)
    | (simp (maxDischargeDepth := 40) +contextual [*]; done))

@[simp] theorem kept_execLidx {s0 : State} (h : PlayHdr) (f : FmtC) (s : State) (h_s : Kept s0 s) :
    KeptOut s0 (execLidx h f s) := by
  unfold execLidx
  dsimp only
  repeat' (first
    | intro _
    | with_reducible assumption
    | split
    | (with_reducible refine (keptOut_next _ _).mpr ?_)
    | (with_reducible apply kept_issue)
    | (simp (maxDischargeDepth := 40) +contextual [*]; done))

@[simp] theorem kept_execPlayIllegal {s0 : State} (core : CoreId) (s : State) (h_s : Kept s0 s) :
    KeptOut s0 (execPlayIllegal core s) := by
  unfold execPlayIllegal
  repeat' (first
    | intro _
    | with_reducible assumption
    | (with_reducible refine keptEnd_ite _ _ _ ?_ ?_)
    | (with_reducible refine keptOut_ite _ _ _ ?_ ?_)
    | (with_reducible refine kept_ite _ _ _ ?_ ?_)
    | split
    | (with_reducible refine (keptOut_next _ _).mpr ?_)
    | (simp (maxDischargeDepth := 40) +contextual [*]; done)
    | dsimp only)

end Sys2Proof.Machine
end

