-- ==== Sys2Proof/Laws/Kept/StackEvents.lean ====
section
/-! SUPPORT. The operations of StackEvents keep the queue, the canonical form of the array and the fuses that are set. -/

namespace Sys2Proof.Machine

@[simp] theorem kept_execLineRead {s0 : State} (who : Consumer) (addr disturbed : Nat) (s : State) (h_s : Kept s0 s) :
    KeptOut s0 (execLineRead who addr disturbed s) := by
  unfold execLineRead
  dsimp only
  repeat' (first
    | intro _
    | with_reducible assumption
    | (with_reducible refine keptEnd_ite _ _ _ ?_ ?_)
    | (with_reducible refine keptOut_ite _ _ _ ?_ ?_)
    | (with_reducible refine kept_ite _ _ _ ?_ ?_)
    | (with_reducible refine kept_ite_fst _ _ _ ?_ ?_)
    | (with_reducible refine kept_ite_snd _ _ _ ?_ ?_)
    | split
    | (with_reducible refine (keptOut_next _ _).mpr ?_)
    | (simp (maxDischargeDepth := 40) +contextual [*]; done))

@[simp] theorem kept_execLineWrite {s0 : State} (addr : Nat) (data : Line) (mask : BitVec 64) (poison : Bool) (s : State)
    (h_s : Kept s0 s) :
    KeptOut s0 (execLineWrite addr data mask poison s) := by
  unfold execLineWrite
  dsimp only
  repeat' (first
    | intro _
    | with_reducible assumption
    | (with_reducible refine keptEnd_ite _ _ _ ?_ ?_)
    | (with_reducible refine keptOut_ite _ _ _ ?_ ?_)
    | (with_reducible refine kept_ite _ _ _ ?_ ?_)
    | (with_reducible refine kept_ite_fst _ _ _ ?_ ?_)
    | (with_reducible refine kept_ite_snd _ _ _ ?_ ?_)
    | split
    | (with_reducible refine (keptOut_next _ _).mpr ?_)
    | (simp (maxDischargeDepth := 40) +contextual [*]; done))

@[simp] theorem kept_execWcbDrainDone {s0 : State} (stack : Fin 8) (line disturbed : Nat) (s : State) (h_s : Kept s0 s) :
    KeptOut s0 (execWcbDrainDone stack line disturbed s) := by
  unfold execWcbDrainDone
  dsimp only
  repeat' (first
    | intro _
    | with_reducible assumption
    | (with_reducible refine keptEnd_ite _ _ _ ?_ ?_)
    | (with_reducible refine keptOut_ite _ _ _ ?_ ?_)
    | (with_reducible refine kept_ite _ _ _ ?_ ?_)
    | (with_reducible refine kept_ite_fst _ _ _ ?_ ?_)
    | (with_reducible refine kept_ite_snd _ _ _ ?_ ?_)
    | split
    | (with_reducible refine (keptOut_next _ _).mpr ?_)
    | (simp (maxDischargeDepth := 40) +contextual [*]; done))

@[simp] theorem kept_execWcbDrainTimeout {s0 : State} (stack : Fin 8) (s : State) (h_s : Kept s0 s) :
    KeptOut s0 (execWcbDrainTimeout stack s) := by
  unfold execWcbDrainTimeout; simp (maxDischargeDepth := 40) +contextual [*]

@[simp] theorem kept_execRefreshDue {s0 : State} (stack : Fin 8) (slot : Fin 24) (s : State) (h_s : Kept s0 s) :
    KeptOut s0 (execRefreshDue stack slot s) := by
  unfold execRefreshDue; simp (maxDischargeDepth := 40) +contextual [*]

@[simp] theorem kept_execRefreshDone {s0 : State} (stack : Fin 8) (bank : Fin 768) (s : State) (h_s : Kept s0 s) :
    KeptOut s0 (execRefreshDone stack bank s) := by
  unfold execRefreshDone
  dsimp only
  repeat' (first
    | intro _
    | with_reducible assumption
    | (with_reducible refine keptEnd_ite _ _ _ ?_ ?_)
    | (with_reducible refine keptOut_ite _ _ _ ?_ ?_)
    | (with_reducible refine kept_ite _ _ _ ?_ ?_)
    | (with_reducible refine kept_ite_fst _ _ _ ?_ ?_)
    | (with_reducible refine kept_ite_snd _ _ _ ?_ ?_)
    | split
    | (with_reducible refine (keptOut_next _ _).mpr ?_)
    | (simp (maxDischargeDepth := 40) +contextual [*]; done))

@[simp] theorem kept_logRefused {s0 : State} (s : State) (line : Nat) (h_s : Kept s0 s) :
    Kept s0 (logRefused s line) := by
  unfold logRefused; simp (maxDischargeDepth := 40) +contextual [*]

@[simp] theorem kept_refuseLine {s0 : State} (s : State) (line : Nat) (h_s : Kept s0 s) :
    Kept s0 (refuseLine s line) := by
  unfold refuseLine; simp (maxDischargeDepth := 40) +contextual [*]

@[simp] theorem kept_refuseSender {s0 : State} (s : State) (stack : Nat) (w : Sender) (h_s : Kept s0 s) :
    Kept s0 (refuseSender s stack w) := by
  unfold refuseSender
  dsimp only
  repeat' (first
    | intro _
    | with_reducible assumption
    | split
    | (with_reducible refine kept_foldl _ _ _ ?_ ?_)
    | (with_reducible refine kept_foldl_snd _ _ _ ?_ ?_)
    | (with_reducible refine kept_foldl_fst _ _ _ ?_ ?_)
    | (simp (maxDischargeDepth := 40) +contextual [*]; done))

@[simp] theorem kept_refuseHeld {s0 : State} (s : State) (n : Nat) (w : HeldWrite) (line : Nat) (h_s : Kept s0 s) :
    Kept s0 (refuseHeld s n w line) := by
  unfold refuseHeld
  dsimp only
  repeat' (first
    | intro _
    | with_reducible assumption
    | split
    | (simp (maxDischargeDepth := 40) +contextual [*]; done))

@[simp] theorem kept_holdOver {s0 : State} (s : State) (n line : Nat) (h_s : Kept s0 s) :
    Kept s0 (holdOver s n line) := by
  unfold holdOver; simp (maxDischargeDepth := 40) +contextual [*]

@[simp] theorem kept_execWriteHoldExpiry {s0 : State} (stack : Fin 8) (line : Nat) (s : State) (h_s : Kept s0 s) :
    KeptOut s0 (execWriteHoldExpiry stack line s) := by
  unfold execWriteHoldExpiry
  dsimp only
  repeat' (first
    | intro _
    | with_reducible assumption
    | (with_reducible refine keptEnd_ite _ _ _ ?_ ?_)
    | (with_reducible refine keptOut_ite _ _ _ ?_ ?_)
    | (with_reducible refine kept_ite _ _ _ ?_ ?_)
    | (with_reducible refine kept_ite_fst _ _ _ ?_ ?_)
    | (with_reducible refine kept_ite_snd _ _ _ ?_ ?_)
    | split
    | (with_reducible refine (keptOut_next _ _).mpr ?_)
    | (simp (maxDischargeDepth := 40) +contextual [*]; done))

end Sys2Proof.Machine
end

