-- ==== Sys2Proof/Laws/Kept/Vector.lean ====
section
/-! SUPPORT. The operations of Vector keep the queue, the canonical form of the array and the fuses that are set. -/

namespace Sys2Proof.Machine

@[simp] theorem kept_unaryPlay {s0 : State} (s : State) (h : PlayHdr) (f : FmtT) (types : Desc → Desc → Bool) (val : FV → FV)
    (h_s : Kept s0 s) :
    KeptOut s0 (unaryPlay s h f types val) := by
  unfold unaryPlay
  dsimp only
  repeat' (first
    | intro _
    | with_reducible assumption
    | (with_reducible refine keptEnd_ite _ _ _ ?_ ?_)
    | (with_reducible refine keptOut_ite _ _ _ ?_ ?_)
    | (with_reducible refine kept_ite _ _ _ ?_ ?_)
    | (with_reducible refine kept_ite_fst _ _ _ ?_ ?_)
    | (with_reducible refine kept_ite_snd _ _ _ ?_ ?_)
    | split
    | (with_reducible refine (keptOut_next _ _).mpr ?_)
    | (with_reducible apply kept_issue)
    | (with_reducible apply kept_rangeEnd)
    | (simp (maxDischargeDepth := 40) +contextual [*]; done))

@[simp] theorem kept_binaryPlay {s0 : State} (s : State) (h : PlayHdr) (f : FmtT) (useC : Bool) (val : FV → FV → FV → FV)
    (h_s : Kept s0 s) :
    KeptOut s0 (binaryPlay s h f useC val) := by
  unfold binaryPlay
  dsimp only
  repeat' (first
    | intro _
    | with_reducible assumption
    | (with_reducible refine keptEnd_ite _ _ _ ?_ ?_)
    | (with_reducible refine keptOut_ite _ _ _ ?_ ?_)
    | (with_reducible refine kept_ite _ _ _ ?_ ?_)
    | (with_reducible refine kept_ite_fst _ _ _ ?_ ?_)
    | (with_reducible refine kept_ite_snd _ _ _ ?_ ?_)
    | split
    | (with_reducible refine (keptOut_next _ _).mpr ?_)
    | (with_reducible apply kept_issue)
    | (with_reducible apply kept_rangeEnd)
    | (simp (maxDischargeDepth := 40) +contextual [*]; done))

@[simp] theorem kept_execVadd {s0 : State} (h : PlayHdr) (f : FmtT) (s : State) (h_s : Kept s0 s) :
    KeptOut s0 (execVadd h f s) := by
  unfold execVadd; simp (maxDischargeDepth := 40) +contextual [*]

@[simp] theorem kept_execVsub {s0 : State} (h : PlayHdr) (f : FmtT) (s : State) (h_s : Kept s0 s) :
    KeptOut s0 (execVsub h f s) := by
  unfold execVsub; simp (maxDischargeDepth := 40) +contextual [*]

@[simp] theorem kept_execVmul {s0 : State} (h : PlayHdr) (f : FmtT) (s : State) (h_s : Kept s0 s) :
    KeptOut s0 (execVmul h f s) := by
  unfold execVmul; simp (maxDischargeDepth := 40) +contextual [*]

@[simp] theorem kept_execVfma {s0 : State} (h : PlayHdr) (f : FmtT) (s : State) (h_s : Kept s0 s) :
    KeptOut s0 (execVfma h f s) := by
  unfold execVfma; simp (maxDischargeDepth := 40) +contextual [*]

@[simp] theorem kept_execVmax {s0 : State} (h : PlayHdr) (f : FmtT) (s : State) (h_s : Kept s0 s) :
    KeptOut s0 (execVmax h f s) := by
  unfold execVmax; simp (maxDischargeDepth := 40) +contextual [*]

@[simp] theorem kept_execVmin {s0 : State} (h : PlayHdr) (f : FmtT) (s : State) (h_s : Kept s0 s) :
    KeptOut s0 (execVmin h f s) := by
  unfold execVmin; simp (maxDischargeDepth := 40) +contextual [*]

@[simp] theorem kept_execVaddi {s0 : State} (h : PlayHdr) (f : FmtT) (s : State) (h_s : Kept s0 s) :
    KeptOut s0 (execVaddi h f s) := by
  unfold execVaddi; simp (maxDischargeDepth := 40) +contextual [*]

@[simp] theorem kept_execVmuli {s0 : State} (h : PlayHdr) (f : FmtT) (s : State) (h_s : Kept s0 s) :
    KeptOut s0 (execVmuli h f s) := by
  unfold execVmuli; simp (maxDischargeDepth := 40) +contextual [*]

@[simp] theorem kept_execVcvt {s0 : State} (h : PlayHdr) (f : FmtT) (s : State) (h_s : Kept s0 s) :
    KeptOut s0 (execVcvt h f s) := by
  unfold execVcvt; simp (maxDischargeDepth := 40) +contextual [*]

@[simp] theorem kept_execVdeq {s0 : State} (h : PlayHdr) (f : FmtT) (s : State) (h_s : Kept s0 s) :
    KeptOut s0 (execVdeq h f s) := by
  unfold execVdeq; simp (maxDischargeDepth := 40) +contextual [*]

@[simp] theorem kept_execVquant {s0 : State} (h : PlayHdr) (f : FmtT) (s : State) (h_s : Kept s0 s) :
    KeptOut s0 (execVquant h f s) := by
  unfold execVquant
  dsimp only
  repeat' (first
    | intro _
    | with_reducible assumption
    | (with_reducible refine keptEnd_ite _ _ _ ?_ ?_)
    | (with_reducible refine keptOut_ite _ _ _ ?_ ?_)
    | (with_reducible refine kept_ite _ _ _ ?_ ?_)
    | (with_reducible refine kept_ite_fst _ _ _ ?_ ?_)
    | (with_reducible refine kept_ite_snd _ _ _ ?_ ?_)
    | split
    | (with_reducible refine (keptOut_next _ _).mpr ?_)
    | (with_reducible apply kept_issue)
    | (with_reducible apply kept_rangeEnd)
    | (simp (maxDischargeDepth := 40) +contextual [*]; done))

@[simp] theorem kept_transPlay {s0 : State} (s : State) (h : PlayHdr) (f : FmtT) (p : Trans) (h_s : Kept s0 s) :
    KeptOut s0 (transPlay s h f p) := by
  unfold transPlay; simp (maxDischargeDepth := 40) +contextual [*]

@[simp] theorem kept_execVexp2 {s0 : State} (h : PlayHdr) (f : FmtT) (s : State) (h_s : Kept s0 s) :
    KeptOut s0 (execVexp2 h f s) := by
  unfold execVexp2; simp (maxDischargeDepth := 40) +contextual [*]

@[simp] theorem kept_execVlog2 {s0 : State} (h : PlayHdr) (f : FmtT) (s : State) (h_s : Kept s0 s) :
    KeptOut s0 (execVlog2 h f s) := by
  unfold execVlog2; simp (maxDischargeDepth := 40) +contextual [*]

@[simp] theorem kept_execVrcp {s0 : State} (h : PlayHdr) (f : FmtT) (s : State) (h_s : Kept s0 s) :
    KeptOut s0 (execVrcp h f s) := by
  unfold execVrcp; simp (maxDischargeDepth := 40) +contextual [*]

@[simp] theorem kept_execVrsqrt {s0 : State} (h : PlayHdr) (f : FmtT) (s : State) (h_s : Kept s0 s) :
    KeptOut s0 (execVrsqrt h f s) := by
  unfold execVrsqrt; simp (maxDischargeDepth := 40) +contextual [*]

@[simp] theorem kept_execVtanh {s0 : State} (h : PlayHdr) (f : FmtT) (s : State) (h_s : Kept s0 s) :
    KeptOut s0 (execVtanh h f s) := by
  unfold execVtanh; simp (maxDischargeDepth := 40) +contextual [*]

@[simp] theorem kept_execVsigm {s0 : State} (h : PlayHdr) (f : FmtT) (s : State) (h_s : Kept s0 s) :
    KeptOut s0 (execVsigm h f s) := by
  unfold execVsigm; simp (maxDischargeDepth := 40) +contextual [*]

@[simp] theorem kept_execVsilu {s0 : State} (h : PlayHdr) (f : FmtT) (s : State) (h_s : Kept s0 s) :
    KeptOut s0 (execVsilu h f s) := by
  unfold execVsilu; simp (maxDischargeDepth := 40) +contextual [*]

@[simp] theorem kept_reducePlay {s0 : State} (s : State) (h : PlayHdr) (f : FmtT) (dest : Desc → Bool) (width : Nat → Nat)
    (row : Elem → List RdElem → List (Nat × Bool)) (h_s : Kept s0 s) :
    KeptOut s0 (reducePlay s h f dest width row) := by
  unfold reducePlay
  dsimp only
  repeat' (first
    | intro _
    | with_reducible assumption
    | (with_reducible refine keptEnd_ite _ _ _ ?_ ?_)
    | (with_reducible refine keptOut_ite _ _ _ ?_ ?_)
    | (with_reducible refine kept_ite _ _ _ ?_ ?_)
    | (with_reducible refine kept_ite_fst _ _ _ ?_ ?_)
    | (with_reducible refine kept_ite_snd _ _ _ ?_ ?_)
    | split
    | (with_reducible refine (keptOut_next _ _).mpr ?_)
    | (with_reducible apply kept_issue)
    | (with_reducible apply kept_rangeEnd)
    | (simp (maxDischargeDepth := 40) +contextual [*]; done))

@[simp] theorem kept_execVrsum {s0 : State} (h : PlayHdr) (f : FmtT) (s : State) (h_s : Kept s0 s) :
    KeptOut s0 (execVrsum h f s) := by
  unfold execVrsum; simp (maxDischargeDepth := 40) +contextual [*]

@[simp] theorem kept_execVrssq {s0 : State} (h : PlayHdr) (f : FmtT) (s : State) (h_s : Kept s0 s) :
    KeptOut s0 (execVrssq h f s) := by
  unfold execVrssq; simp (maxDischargeDepth := 40) +contextual [*]

@[simp] theorem kept_execVrmax {s0 : State} (h : PlayHdr) (f : FmtT) (s : State) (h_s : Kept s0 s) :
    KeptOut s0 (execVrmax h f s) := by
  unfold execVrmax; simp (maxDischargeDepth := 40) +contextual [*]

@[simp] theorem kept_execVscan {s0 : State} (h : PlayHdr) (f : FmtT) (s : State) (h_s : Kept s0 s) :
    KeptOut s0 (execVscan h f s) := by
  unfold execVscan; simp (maxDischargeDepth := 40) +contextual [*]

@[simp] theorem kept_execVtopk {s0 : State} (h : PlayHdr) (f : FmtT) (s : State) (h_s : Kept s0 s) :
    KeptOut s0 (execVtopk h f s) := by
  unfold execVtopk
  dsimp only
  repeat' (first
    | intro _
    | with_reducible assumption
    | (with_reducible refine keptEnd_ite _ _ _ ?_ ?_)
    | (with_reducible refine keptOut_ite _ _ _ ?_ ?_)
    | (with_reducible refine kept_ite _ _ _ ?_ ?_)
    | (with_reducible refine kept_ite_fst _ _ _ ?_ ?_)
    | (with_reducible refine kept_ite_snd _ _ _ ?_ ?_)
    | split
    | (with_reducible refine (keptOut_next _ _).mpr ?_)
    | (with_reducible apply kept_issue)
    | (with_reducible apply kept_rangeEnd)
    | (simp (maxDischargeDepth := 40) +contextual [*]; done))

@[simp] theorem kept_execVfirst {s0 : State} (h : PlayHdr) (f : FmtT) (s : State) (h_s : Kept s0 s) :
    KeptOut s0 (execVfirst h f s) := by
  unfold execVfirst
  dsimp only
  repeat' (first
    | intro _
    | with_reducible assumption
    | (with_reducible refine keptEnd_ite _ _ _ ?_ ?_)
    | (with_reducible refine keptOut_ite _ _ _ ?_ ?_)
    | (with_reducible refine kept_ite _ _ _ ?_ ?_)
    | (with_reducible refine kept_ite_fst _ _ _ ?_ ?_)
    | (with_reducible refine kept_ite_snd _ _ _ ?_ ?_)
    | split
    | (with_reducible refine (keptOut_next _ _).mpr ?_)
    | (with_reducible apply kept_issue)
    | (with_reducible apply kept_rangeEnd)
    | (simp (maxDischargeDepth := 40) +contextual [*]; done))

@[simp] theorem kept_execVrand {s0 : State} (h : PlayHdr) (f : FmtT) (s : State) (h_s : Kept s0 s) :
    KeptOut s0 (execVrand h f s) := by
  unfold execVrand
  dsimp only
  repeat' (first
    | intro _
    | with_reducible assumption
    | (with_reducible refine keptEnd_ite _ _ _ ?_ ?_)
    | (with_reducible refine keptOut_ite _ _ _ ?_ ?_)
    | (with_reducible refine kept_ite _ _ _ ?_ ?_)
    | (with_reducible refine kept_ite_fst _ _ _ ?_ ?_)
    | (with_reducible refine kept_ite_snd _ _ _ ?_ ?_)
    | split
    | (with_reducible refine (keptOut_next _ _).mpr ?_)
    | (with_reducible apply kept_issue)
    | (with_reducible apply kept_rangeEnd)
    | (simp (maxDischargeDepth := 40) +contextual [*]; done))

end Sys2Proof.Machine
end

