-- ==== Sys2Proof/Laws/State.lean ====
section
/-! SUPPORT. One lemma per field of the state and named update: what the update leaves; and what reading a part back gives. -/

namespace Sys2Proof.Machine

/-! ### Core -/

theorem getCore_setCore_same (s : State) (n : Nat) (v : Core) (h : swf Core.empty s.cores = true) : getCore (setCore s n v) n = v :=
  sget_sput_same Core.empty _ n v h
theorem getCore_setCore_of_ne (s : State) (n : Nat) (v : Core) (h : v ≠ Core.empty) : getCore (setCore s n v) n = v :=
  sget_sput_same_of_ne Core.empty _ n v h
@[simp] theorem getCore_setCore_other (s : State) (n m : Nat) (v : Core) (h : m ≠ n) : getCore (setCore s n v) m = getCore s m :=
  sget_sput_other Core.empty _ n m v h
theorem swf_setCore (s : State) (n : Nat) (v : Core) (h : swf Core.empty s.cores = true) : swf Core.empty (setCore s n v).cores = true :=
  swf_sput Core.empty _ n v h
@[simp] theorem setCore_pending (s : State) (n : Nat) (v : Core) : (setCore s n v).pending = s.pending := rfl
@[simp] theorem setCore_freeNext (s : State) (n : Nat) (v : Core) : (setCore s n v).freeNext = s.freeNext := rfl
@[simp] theorem setCore_kitty (s : State) (n : Nat) (v : Core) : (setCore s n v).kitty = s.kitty := rfl
@[simp] theorem setCore_repairMap (s : State) (n : Nat) (v : Core) : (setCore s n v).repairMap = s.repairMap := rfl
@[simp] theorem setCore_retiredCores (s : State) (n : Nat) (v : Core) : (setCore s n v).retiredCores = s.retiredCores := rfl
@[simp] theorem setCore_badCores (s : State) (n : Nat) (v : Core) : (setCore s n v).badCores = s.badCores := rfl
@[simp] theorem setCore_paths (s : State) (n : Nat) (v : Core) : (setCore s n v).paths = s.paths := rfl
@[simp] theorem setCore_pathReplays (s : State) (n : Nat) (v : Core) : (setCore s n v).pathReplays = s.pathReplays := rfl
@[simp] theorem setCore_lanesSpared (s : State) (n : Nat) (v : Core) : (setCore s n v).lanesSpared = s.lanesSpared := rfl
@[simp] theorem setCore_pathsFailed (s : State) (n : Nat) (v : Core) : (setCore s n v).pathsFailed = s.pathsFailed := rfl
@[simp] theorem setCore_tricks (s : State) (n : Nat) (v : Core) : (setCore s n v).tricks = s.tricks := rfl
@[simp] theorem setCore_known (s : State) (n : Nat) (v : Core) : (setCore s n v).known = s.known := rfl
@[simp] theorem setCore_clusterPlays (s : State) (n : Nat) (v : Core) : (setCore s n v).clusterPlays = s.clusterPlays := rfl
@[simp] theorem setCore_arrives (s : State) (n : Nat) (v : Core) : (setCore s n v).arrives = s.arrives := rfl
@[simp] theorem setCore_releases (s : State) (n : Nat) (v : Core) : (setCore s n v).releases = s.releases := rfl
@[simp] theorem setCore_streams (s : State) (n : Nat) (v : Core) : (setCore s n v).streams = s.streams := rfl
@[simp] theorem setCore_creditFlight (s : State) (n : Nat) (v : Core) : (setCore s n v).creditFlight = s.creditFlight := rfl
@[simp] theorem setCore_pushes (s : State) (n : Nat) (v : Core) : (setCore s n v).pushes = s.pushes := rfl
@[simp] theorem setCore_latchFlight (s : State) (n : Nat) (v : Core) : (setCore s n v).latchFlight = s.latchFlight := rfl
@[simp] theorem setCore_tallies (s : State) (n : Nat) (v : Core) : (setCore s n v).tallies = s.tallies := rfl
@[simp] theorem setCore_spanLateDrops (s : State) (n : Nat) (v : Core) : (setCore s n v).spanLateDrops = s.spanLateDrops := rfl
@[simp] theorem setCore_array (s : State) (n : Nat) (v : Core) : (setCore s n v).array = s.array := rfl
@[simp] theorem setCore_stackMap (s : State) (n : Nat) (v : Core) : (setCore s n v).stackMap = s.stackMap := rfl
@[simp] theorem setCore_regs (s : State) (n : Nat) (v : Core) : (setCore s n v).regs = s.regs := rfl
@[simp] theorem setCore_regWait (s : State) (n : Nat) (v : Core) : (setCore s n v).regWait = s.regWait := rfl
@[simp] theorem setCore_directory (s : State) (n : Nat) (v : Core) : (setCore s n v).directory = s.directory := rfl
@[simp] theorem setCore_unrepaired (s : State) (n : Nat) (v : Core) : (setCore s n v).unrepaired = s.unrepaired := rfl
@[simp] theorem setCore_refetches (s : State) (n : Nat) (v : Core) : (setCore s n v).refetches = s.refetches := rfl
@[simp] theorem setCore_loader (s : State) (n : Nat) (v : Core) : (setCore s n v).loader = s.loader := rfl
@[simp] theorem setCore_ports (s : State) (n : Nat) (v : Core) : (setCore s n v).ports = s.ports := rfl
@[simp] theorem setCore_gen (s : State) (n : Nat) (v : Core) : (setCore s n v).gen = s.gen := rfl
@[simp] theorem setCore_genLateDrops (s : State) (n : Nat) (v : Core) : (setCore s n v).genLateDrops = s.genLateDrops := rfl
@[simp] theorem setCore_quarThreshold (s : State) (n : Nat) (v : Core) : (setCore s n v).quarThreshold = s.quarThreshold := rfl
@[simp] theorem setCore_routes (s : State) (n : Nat) (v : Core) : (setCore s n v).routes = s.routes := rfl
@[simp] theorem setCore_routesPending (s : State) (n : Nat) (v : Core) : (setCore s n v).routesPending = s.routesPending := rfl
@[simp] theorem setCore_lastRound (s : State) (n : Nat) (v : Core) : (setCore s n v).lastRound = s.lastRound := rfl
@[simp] theorem setCore_fabOut (s : State) (n : Nat) (v : Core) : (setCore s n v).fabOut = s.fabOut := rfl
@[simp] theorem setCore_flitOut (s : State) (n : Nat) (v : Core) : (setCore s n v).flitOut = s.flitOut := rfl
@[simp] theorem setCore_mctpParts (s : State) (n : Nat) (v : Core) : (setCore s n v).mctpParts = s.mctpParts := rfl
@[simp] theorem setCore_fabTags (s : State) (n : Nat) (v : Core) : (setCore s n v).fabTags = s.fabTags := rfl
@[simp] theorem setCore_fabTag (s : State) (n : Nat) (v : Core) : (setCore s n v).fabTag = s.fabTag := rfl
@[simp] theorem setCore_channels (s : State) (n : Nat) (v : Core) : (setCore s n v).channels = s.channels := rfl
@[simp] theorem setCore_sessions (s : State) (n : Nat) (v : Core) : (setCore s n v).sessions = s.sessions := rfl
@[simp] theorem setCore_admitNext (s : State) (n : Nat) (v : Core) : (setCore s n v).admitNext = s.admitNext := rfl
@[simp] theorem setCore_tables (s : State) (n : Nat) (v : Core) : (setCore s n v).tables = s.tables := rfl
@[simp] theorem setCore_rounds (s : State) (n : Nat) (v : Core) : (setCore s n v).rounds = s.rounds := rfl
@[simp] theorem setCore_cache (s : State) (n : Nat) (v : Core) : (setCore s n v).cache = s.cache := rfl
@[simp] theorem setCore_host (s : State) (n : Nat) (v : Core) : (setCore s n v).host = s.host := rfl
@[simp] theorem setCore_replies (s : State) (n : Nat) (v : Core) : (setCore s n v).replies = s.replies := rfl
@[simp] theorem setCore_background (s : State) (n : Nat) (v : Core) : (setCore s n v).background = s.background := rfl
@[simp] theorem setCore_logs (s : State) (n : Nat) (v : Core) : (setCore s n v).logs = s.logs := rfl
@[simp] theorem setCore_seqs (s : State) (n : Nat) (v : Core) : (setCore s n v).seqs = s.seqs := rfl
@[simp] theorem setCore_meter (s : State) (n : Nat) (v : Core) : (setCore s n v).meter = s.meter := rfl
@[simp] theorem setCore_meterHi (s : State) (n : Nat) (v : Core) : (setCore s n v).meterHi = s.meterHi := rfl
@[simp] theorem setCore_talHi (s : State) (n : Nat) (v : Core) : (setCore s n v).talHi = s.talHi := rfl
@[simp] theorem setCore_ringOsc (s : State) (n : Nat) (v : Core) : (setCore s n v).ringOsc = s.ringOsc := rfl
@[simp] theorem setCore_deadlines (s : State) (n : Nat) (v : Core) : (setCore s n v).deadlines = s.deadlines := rfl
@[simp] theorem setCore_refLostSeen (s : State) (n : Nat) (v : Core) : (setCore s n v).refLostSeen = s.refLostSeen := rfl
@[simp] theorem setCore_pace (s : State) (n : Nat) (v : Core) : (setCore s n v).pace = s.pace := rfl
@[simp] theorem setCore_power (s : State) (n : Nat) (v : Core) : (setCore s n v).power = s.power := rfl
@[simp] theorem setCore_ctl (s : State) (n : Nat) (v : Core) : (setCore s n v).ctl = s.ctl := rfl
@[simp] theorem setCore_sec (s : State) (n : Nat) (v : Core) : (setCore s n v).sec = s.sec := rfl
@[simp] theorem modCore_pending (s : State) (n : Nat) (v : Core → Core) : (modCore s n v).pending = s.pending := rfl
@[simp] theorem modCore_freeNext (s : State) (n : Nat) (v : Core → Core) : (modCore s n v).freeNext = s.freeNext := rfl
@[simp] theorem modCore_kitty (s : State) (n : Nat) (v : Core → Core) : (modCore s n v).kitty = s.kitty := rfl
@[simp] theorem modCore_repairMap (s : State) (n : Nat) (v : Core → Core) : (modCore s n v).repairMap = s.repairMap := rfl
@[simp] theorem modCore_retiredCores (s : State) (n : Nat) (v : Core → Core) : (modCore s n v).retiredCores = s.retiredCores := rfl
@[simp] theorem modCore_badCores (s : State) (n : Nat) (v : Core → Core) : (modCore s n v).badCores = s.badCores := rfl
@[simp] theorem modCore_paths (s : State) (n : Nat) (v : Core → Core) : (modCore s n v).paths = s.paths := rfl
@[simp] theorem modCore_pathReplays (s : State) (n : Nat) (v : Core → Core) : (modCore s n v).pathReplays = s.pathReplays := rfl
@[simp] theorem modCore_lanesSpared (s : State) (n : Nat) (v : Core → Core) : (modCore s n v).lanesSpared = s.lanesSpared := rfl
@[simp] theorem modCore_pathsFailed (s : State) (n : Nat) (v : Core → Core) : (modCore s n v).pathsFailed = s.pathsFailed := rfl
@[simp] theorem modCore_tricks (s : State) (n : Nat) (v : Core → Core) : (modCore s n v).tricks = s.tricks := rfl
@[simp] theorem modCore_known (s : State) (n : Nat) (v : Core → Core) : (modCore s n v).known = s.known := rfl
@[simp] theorem modCore_clusterPlays (s : State) (n : Nat) (v : Core → Core) : (modCore s n v).clusterPlays = s.clusterPlays := rfl
@[simp] theorem modCore_arrives (s : State) (n : Nat) (v : Core → Core) : (modCore s n v).arrives = s.arrives := rfl
@[simp] theorem modCore_releases (s : State) (n : Nat) (v : Core → Core) : (modCore s n v).releases = s.releases := rfl
@[simp] theorem modCore_streams (s : State) (n : Nat) (v : Core → Core) : (modCore s n v).streams = s.streams := rfl
@[simp] theorem modCore_creditFlight (s : State) (n : Nat) (v : Core → Core) : (modCore s n v).creditFlight = s.creditFlight := rfl
@[simp] theorem modCore_pushes (s : State) (n : Nat) (v : Core → Core) : (modCore s n v).pushes = s.pushes := rfl
@[simp] theorem modCore_latchFlight (s : State) (n : Nat) (v : Core → Core) : (modCore s n v).latchFlight = s.latchFlight := rfl
@[simp] theorem modCore_tallies (s : State) (n : Nat) (v : Core → Core) : (modCore s n v).tallies = s.tallies := rfl
@[simp] theorem modCore_spanLateDrops (s : State) (n : Nat) (v : Core → Core) : (modCore s n v).spanLateDrops = s.spanLateDrops := rfl
@[simp] theorem modCore_array (s : State) (n : Nat) (v : Core → Core) : (modCore s n v).array = s.array := rfl
@[simp] theorem modCore_stackMap (s : State) (n : Nat) (v : Core → Core) : (modCore s n v).stackMap = s.stackMap := rfl
@[simp] theorem modCore_regs (s : State) (n : Nat) (v : Core → Core) : (modCore s n v).regs = s.regs := rfl
@[simp] theorem modCore_regWait (s : State) (n : Nat) (v : Core → Core) : (modCore s n v).regWait = s.regWait := rfl
@[simp] theorem modCore_directory (s : State) (n : Nat) (v : Core → Core) : (modCore s n v).directory = s.directory := rfl
@[simp] theorem modCore_unrepaired (s : State) (n : Nat) (v : Core → Core) : (modCore s n v).unrepaired = s.unrepaired := rfl
@[simp] theorem modCore_refetches (s : State) (n : Nat) (v : Core → Core) : (modCore s n v).refetches = s.refetches := rfl
@[simp] theorem modCore_loader (s : State) (n : Nat) (v : Core → Core) : (modCore s n v).loader = s.loader := rfl
@[simp] theorem modCore_ports (s : State) (n : Nat) (v : Core → Core) : (modCore s n v).ports = s.ports := rfl
@[simp] theorem modCore_gen (s : State) (n : Nat) (v : Core → Core) : (modCore s n v).gen = s.gen := rfl
@[simp] theorem modCore_genLateDrops (s : State) (n : Nat) (v : Core → Core) : (modCore s n v).genLateDrops = s.genLateDrops := rfl
@[simp] theorem modCore_quarThreshold (s : State) (n : Nat) (v : Core → Core) : (modCore s n v).quarThreshold = s.quarThreshold := rfl
@[simp] theorem modCore_routes (s : State) (n : Nat) (v : Core → Core) : (modCore s n v).routes = s.routes := rfl
@[simp] theorem modCore_routesPending (s : State) (n : Nat) (v : Core → Core) : (modCore s n v).routesPending = s.routesPending := rfl
@[simp] theorem modCore_lastRound (s : State) (n : Nat) (v : Core → Core) : (modCore s n v).lastRound = s.lastRound := rfl
@[simp] theorem modCore_fabOut (s : State) (n : Nat) (v : Core → Core) : (modCore s n v).fabOut = s.fabOut := rfl
@[simp] theorem modCore_flitOut (s : State) (n : Nat) (v : Core → Core) : (modCore s n v).flitOut = s.flitOut := rfl
@[simp] theorem modCore_mctpParts (s : State) (n : Nat) (v : Core → Core) : (modCore s n v).mctpParts = s.mctpParts := rfl
@[simp] theorem modCore_fabTags (s : State) (n : Nat) (v : Core → Core) : (modCore s n v).fabTags = s.fabTags := rfl
@[simp] theorem modCore_fabTag (s : State) (n : Nat) (v : Core → Core) : (modCore s n v).fabTag = s.fabTag := rfl
@[simp] theorem modCore_channels (s : State) (n : Nat) (v : Core → Core) : (modCore s n v).channels = s.channels := rfl
@[simp] theorem modCore_sessions (s : State) (n : Nat) (v : Core → Core) : (modCore s n v).sessions = s.sessions := rfl
@[simp] theorem modCore_admitNext (s : State) (n : Nat) (v : Core → Core) : (modCore s n v).admitNext = s.admitNext := rfl
@[simp] theorem modCore_tables (s : State) (n : Nat) (v : Core → Core) : (modCore s n v).tables = s.tables := rfl
@[simp] theorem modCore_rounds (s : State) (n : Nat) (v : Core → Core) : (modCore s n v).rounds = s.rounds := rfl
@[simp] theorem modCore_cache (s : State) (n : Nat) (v : Core → Core) : (modCore s n v).cache = s.cache := rfl
@[simp] theorem modCore_host (s : State) (n : Nat) (v : Core → Core) : (modCore s n v).host = s.host := rfl
@[simp] theorem modCore_replies (s : State) (n : Nat) (v : Core → Core) : (modCore s n v).replies = s.replies := rfl
@[simp] theorem modCore_background (s : State) (n : Nat) (v : Core → Core) : (modCore s n v).background = s.background := rfl
@[simp] theorem modCore_logs (s : State) (n : Nat) (v : Core → Core) : (modCore s n v).logs = s.logs := rfl
@[simp] theorem modCore_seqs (s : State) (n : Nat) (v : Core → Core) : (modCore s n v).seqs = s.seqs := rfl
@[simp] theorem modCore_meter (s : State) (n : Nat) (v : Core → Core) : (modCore s n v).meter = s.meter := rfl
@[simp] theorem modCore_meterHi (s : State) (n : Nat) (v : Core → Core) : (modCore s n v).meterHi = s.meterHi := rfl
@[simp] theorem modCore_talHi (s : State) (n : Nat) (v : Core → Core) : (modCore s n v).talHi = s.talHi := rfl
@[simp] theorem modCore_ringOsc (s : State) (n : Nat) (v : Core → Core) : (modCore s n v).ringOsc = s.ringOsc := rfl
@[simp] theorem modCore_deadlines (s : State) (n : Nat) (v : Core → Core) : (modCore s n v).deadlines = s.deadlines := rfl
@[simp] theorem modCore_refLostSeen (s : State) (n : Nat) (v : Core → Core) : (modCore s n v).refLostSeen = s.refLostSeen := rfl
@[simp] theorem modCore_pace (s : State) (n : Nat) (v : Core → Core) : (modCore s n v).pace = s.pace := rfl
@[simp] theorem modCore_power (s : State) (n : Nat) (v : Core → Core) : (modCore s n v).power = s.power := rfl
@[simp] theorem modCore_ctl (s : State) (n : Nat) (v : Core → Core) : (modCore s n v).ctl = s.ctl := rfl
@[simp] theorem modCore_sec (s : State) (n : Nat) (v : Core → Core) : (modCore s n v).sec = s.sec := rfl

/-! ### Stack -/

theorem getStack_setStack_same (s : State) (n : Nat) (v : Stack) (h : swf Stack.empty s.stackMap = true) : getStack (setStack s n v) n = v :=
  sget_sput_same Stack.empty _ n v h
theorem getStack_setStack_of_ne (s : State) (n : Nat) (v : Stack) (h : v ≠ Stack.empty) : getStack (setStack s n v) n = v :=
  sget_sput_same_of_ne Stack.empty _ n v h
@[simp] theorem getStack_setStack_other (s : State) (n m : Nat) (v : Stack) (h : m ≠ n) : getStack (setStack s n v) m = getStack s m :=
  sget_sput_other Stack.empty _ n m v h
theorem swf_setStack (s : State) (n : Nat) (v : Stack) (h : swf Stack.empty s.stackMap = true) : swf Stack.empty (setStack s n v).stackMap = true :=
  swf_sput Stack.empty _ n v h
@[simp] theorem setStack_pending (s : State) (n : Nat) (v : Stack) : (setStack s n v).pending = s.pending := rfl
@[simp] theorem setStack_freeNext (s : State) (n : Nat) (v : Stack) : (setStack s n v).freeNext = s.freeNext := rfl
@[simp] theorem setStack_cores (s : State) (n : Nat) (v : Stack) : (setStack s n v).cores = s.cores := rfl
@[simp] theorem setStack_kitty (s : State) (n : Nat) (v : Stack) : (setStack s n v).kitty = s.kitty := rfl
@[simp] theorem setStack_repairMap (s : State) (n : Nat) (v : Stack) : (setStack s n v).repairMap = s.repairMap := rfl
@[simp] theorem setStack_retiredCores (s : State) (n : Nat) (v : Stack) : (setStack s n v).retiredCores = s.retiredCores := rfl
@[simp] theorem setStack_badCores (s : State) (n : Nat) (v : Stack) : (setStack s n v).badCores = s.badCores := rfl
@[simp] theorem setStack_paths (s : State) (n : Nat) (v : Stack) : (setStack s n v).paths = s.paths := rfl
@[simp] theorem setStack_pathReplays (s : State) (n : Nat) (v : Stack) : (setStack s n v).pathReplays = s.pathReplays := rfl
@[simp] theorem setStack_lanesSpared (s : State) (n : Nat) (v : Stack) : (setStack s n v).lanesSpared = s.lanesSpared := rfl
@[simp] theorem setStack_pathsFailed (s : State) (n : Nat) (v : Stack) : (setStack s n v).pathsFailed = s.pathsFailed := rfl
@[simp] theorem setStack_tricks (s : State) (n : Nat) (v : Stack) : (setStack s n v).tricks = s.tricks := rfl
@[simp] theorem setStack_known (s : State) (n : Nat) (v : Stack) : (setStack s n v).known = s.known := rfl
@[simp] theorem setStack_clusterPlays (s : State) (n : Nat) (v : Stack) : (setStack s n v).clusterPlays = s.clusterPlays := rfl
@[simp] theorem setStack_arrives (s : State) (n : Nat) (v : Stack) : (setStack s n v).arrives = s.arrives := rfl
@[simp] theorem setStack_releases (s : State) (n : Nat) (v : Stack) : (setStack s n v).releases = s.releases := rfl
@[simp] theorem setStack_streams (s : State) (n : Nat) (v : Stack) : (setStack s n v).streams = s.streams := rfl
@[simp] theorem setStack_creditFlight (s : State) (n : Nat) (v : Stack) : (setStack s n v).creditFlight = s.creditFlight := rfl
@[simp] theorem setStack_pushes (s : State) (n : Nat) (v : Stack) : (setStack s n v).pushes = s.pushes := rfl
@[simp] theorem setStack_latchFlight (s : State) (n : Nat) (v : Stack) : (setStack s n v).latchFlight = s.latchFlight := rfl
@[simp] theorem setStack_tallies (s : State) (n : Nat) (v : Stack) : (setStack s n v).tallies = s.tallies := rfl
@[simp] theorem setStack_spanLateDrops (s : State) (n : Nat) (v : Stack) : (setStack s n v).spanLateDrops = s.spanLateDrops := rfl
@[simp] theorem setStack_array (s : State) (n : Nat) (v : Stack) : (setStack s n v).array = s.array := rfl
@[simp] theorem setStack_regs (s : State) (n : Nat) (v : Stack) : (setStack s n v).regs = s.regs := rfl
@[simp] theorem setStack_regWait (s : State) (n : Nat) (v : Stack) : (setStack s n v).regWait = s.regWait := rfl
@[simp] theorem setStack_directory (s : State) (n : Nat) (v : Stack) : (setStack s n v).directory = s.directory := rfl
@[simp] theorem setStack_unrepaired (s : State) (n : Nat) (v : Stack) : (setStack s n v).unrepaired = s.unrepaired := rfl
@[simp] theorem setStack_refetches (s : State) (n : Nat) (v : Stack) : (setStack s n v).refetches = s.refetches := rfl
@[simp] theorem setStack_loader (s : State) (n : Nat) (v : Stack) : (setStack s n v).loader = s.loader := rfl
@[simp] theorem setStack_ports (s : State) (n : Nat) (v : Stack) : (setStack s n v).ports = s.ports := rfl
@[simp] theorem setStack_gen (s : State) (n : Nat) (v : Stack) : (setStack s n v).gen = s.gen := rfl
@[simp] theorem setStack_genLateDrops (s : State) (n : Nat) (v : Stack) : (setStack s n v).genLateDrops = s.genLateDrops := rfl
@[simp] theorem setStack_quarThreshold (s : State) (n : Nat) (v : Stack) : (setStack s n v).quarThreshold = s.quarThreshold := rfl
@[simp] theorem setStack_routes (s : State) (n : Nat) (v : Stack) : (setStack s n v).routes = s.routes := rfl
@[simp] theorem setStack_routesPending (s : State) (n : Nat) (v : Stack) : (setStack s n v).routesPending = s.routesPending := rfl
@[simp] theorem setStack_lastRound (s : State) (n : Nat) (v : Stack) : (setStack s n v).lastRound = s.lastRound := rfl
@[simp] theorem setStack_fabOut (s : State) (n : Nat) (v : Stack) : (setStack s n v).fabOut = s.fabOut := rfl
@[simp] theorem setStack_flitOut (s : State) (n : Nat) (v : Stack) : (setStack s n v).flitOut = s.flitOut := rfl
@[simp] theorem setStack_mctpParts (s : State) (n : Nat) (v : Stack) : (setStack s n v).mctpParts = s.mctpParts := rfl
@[simp] theorem setStack_fabTags (s : State) (n : Nat) (v : Stack) : (setStack s n v).fabTags = s.fabTags := rfl
@[simp] theorem setStack_fabTag (s : State) (n : Nat) (v : Stack) : (setStack s n v).fabTag = s.fabTag := rfl
@[simp] theorem setStack_channels (s : State) (n : Nat) (v : Stack) : (setStack s n v).channels = s.channels := rfl
@[simp] theorem setStack_sessions (s : State) (n : Nat) (v : Stack) : (setStack s n v).sessions = s.sessions := rfl
@[simp] theorem setStack_admitNext (s : State) (n : Nat) (v : Stack) : (setStack s n v).admitNext = s.admitNext := rfl
@[simp] theorem setStack_tables (s : State) (n : Nat) (v : Stack) : (setStack s n v).tables = s.tables := rfl
@[simp] theorem setStack_rounds (s : State) (n : Nat) (v : Stack) : (setStack s n v).rounds = s.rounds := rfl
@[simp] theorem setStack_cache (s : State) (n : Nat) (v : Stack) : (setStack s n v).cache = s.cache := rfl
@[simp] theorem setStack_host (s : State) (n : Nat) (v : Stack) : (setStack s n v).host = s.host := rfl
@[simp] theorem setStack_replies (s : State) (n : Nat) (v : Stack) : (setStack s n v).replies = s.replies := rfl
@[simp] theorem setStack_background (s : State) (n : Nat) (v : Stack) : (setStack s n v).background = s.background := rfl
@[simp] theorem setStack_logs (s : State) (n : Nat) (v : Stack) : (setStack s n v).logs = s.logs := rfl
@[simp] theorem setStack_seqs (s : State) (n : Nat) (v : Stack) : (setStack s n v).seqs = s.seqs := rfl
@[simp] theorem setStack_meter (s : State) (n : Nat) (v : Stack) : (setStack s n v).meter = s.meter := rfl
@[simp] theorem setStack_meterHi (s : State) (n : Nat) (v : Stack) : (setStack s n v).meterHi = s.meterHi := rfl
@[simp] theorem setStack_talHi (s : State) (n : Nat) (v : Stack) : (setStack s n v).talHi = s.talHi := rfl
@[simp] theorem setStack_ringOsc (s : State) (n : Nat) (v : Stack) : (setStack s n v).ringOsc = s.ringOsc := rfl
@[simp] theorem setStack_deadlines (s : State) (n : Nat) (v : Stack) : (setStack s n v).deadlines = s.deadlines := rfl
@[simp] theorem setStack_refLostSeen (s : State) (n : Nat) (v : Stack) : (setStack s n v).refLostSeen = s.refLostSeen := rfl
@[simp] theorem setStack_pace (s : State) (n : Nat) (v : Stack) : (setStack s n v).pace = s.pace := rfl
@[simp] theorem setStack_power (s : State) (n : Nat) (v : Stack) : (setStack s n v).power = s.power := rfl
@[simp] theorem setStack_ctl (s : State) (n : Nat) (v : Stack) : (setStack s n v).ctl = s.ctl := rfl
@[simp] theorem setStack_sec (s : State) (n : Nat) (v : Stack) : (setStack s n v).sec = s.sec := rfl
@[simp] theorem modStack_pending (s : State) (n : Nat) (v : Stack → Stack) : (modStack s n v).pending = s.pending := rfl
@[simp] theorem modStack_freeNext (s : State) (n : Nat) (v : Stack → Stack) : (modStack s n v).freeNext = s.freeNext := rfl
@[simp] theorem modStack_cores (s : State) (n : Nat) (v : Stack → Stack) : (modStack s n v).cores = s.cores := rfl
@[simp] theorem modStack_kitty (s : State) (n : Nat) (v : Stack → Stack) : (modStack s n v).kitty = s.kitty := rfl
@[simp] theorem modStack_repairMap (s : State) (n : Nat) (v : Stack → Stack) : (modStack s n v).repairMap = s.repairMap := rfl
@[simp] theorem modStack_retiredCores (s : State) (n : Nat) (v : Stack → Stack) : (modStack s n v).retiredCores = s.retiredCores := rfl
@[simp] theorem modStack_badCores (s : State) (n : Nat) (v : Stack → Stack) : (modStack s n v).badCores = s.badCores := rfl
@[simp] theorem modStack_paths (s : State) (n : Nat) (v : Stack → Stack) : (modStack s n v).paths = s.paths := rfl
@[simp] theorem modStack_pathReplays (s : State) (n : Nat) (v : Stack → Stack) : (modStack s n v).pathReplays = s.pathReplays := rfl
@[simp] theorem modStack_lanesSpared (s : State) (n : Nat) (v : Stack → Stack) : (modStack s n v).lanesSpared = s.lanesSpared := rfl
@[simp] theorem modStack_pathsFailed (s : State) (n : Nat) (v : Stack → Stack) : (modStack s n v).pathsFailed = s.pathsFailed := rfl
@[simp] theorem modStack_tricks (s : State) (n : Nat) (v : Stack → Stack) : (modStack s n v).tricks = s.tricks := rfl
@[simp] theorem modStack_known (s : State) (n : Nat) (v : Stack → Stack) : (modStack s n v).known = s.known := rfl
@[simp] theorem modStack_clusterPlays (s : State) (n : Nat) (v : Stack → Stack) : (modStack s n v).clusterPlays = s.clusterPlays := rfl
@[simp] theorem modStack_arrives (s : State) (n : Nat) (v : Stack → Stack) : (modStack s n v).arrives = s.arrives := rfl
@[simp] theorem modStack_releases (s : State) (n : Nat) (v : Stack → Stack) : (modStack s n v).releases = s.releases := rfl
@[simp] theorem modStack_streams (s : State) (n : Nat) (v : Stack → Stack) : (modStack s n v).streams = s.streams := rfl
@[simp] theorem modStack_creditFlight (s : State) (n : Nat) (v : Stack → Stack) : (modStack s n v).creditFlight = s.creditFlight := rfl
@[simp] theorem modStack_pushes (s : State) (n : Nat) (v : Stack → Stack) : (modStack s n v).pushes = s.pushes := rfl
@[simp] theorem modStack_latchFlight (s : State) (n : Nat) (v : Stack → Stack) : (modStack s n v).latchFlight = s.latchFlight := rfl
@[simp] theorem modStack_tallies (s : State) (n : Nat) (v : Stack → Stack) : (modStack s n v).tallies = s.tallies := rfl
@[simp] theorem modStack_spanLateDrops (s : State) (n : Nat) (v : Stack → Stack) : (modStack s n v).spanLateDrops = s.spanLateDrops := rfl
@[simp] theorem modStack_array (s : State) (n : Nat) (v : Stack → Stack) : (modStack s n v).array = s.array := rfl
@[simp] theorem modStack_regs (s : State) (n : Nat) (v : Stack → Stack) : (modStack s n v).regs = s.regs := rfl
@[simp] theorem modStack_regWait (s : State) (n : Nat) (v : Stack → Stack) : (modStack s n v).regWait = s.regWait := rfl
@[simp] theorem modStack_directory (s : State) (n : Nat) (v : Stack → Stack) : (modStack s n v).directory = s.directory := rfl
@[simp] theorem modStack_unrepaired (s : State) (n : Nat) (v : Stack → Stack) : (modStack s n v).unrepaired = s.unrepaired := rfl
@[simp] theorem modStack_refetches (s : State) (n : Nat) (v : Stack → Stack) : (modStack s n v).refetches = s.refetches := rfl
@[simp] theorem modStack_loader (s : State) (n : Nat) (v : Stack → Stack) : (modStack s n v).loader = s.loader := rfl
@[simp] theorem modStack_ports (s : State) (n : Nat) (v : Stack → Stack) : (modStack s n v).ports = s.ports := rfl
@[simp] theorem modStack_gen (s : State) (n : Nat) (v : Stack → Stack) : (modStack s n v).gen = s.gen := rfl
@[simp] theorem modStack_genLateDrops (s : State) (n : Nat) (v : Stack → Stack) : (modStack s n v).genLateDrops = s.genLateDrops := rfl
@[simp] theorem modStack_quarThreshold (s : State) (n : Nat) (v : Stack → Stack) : (modStack s n v).quarThreshold = s.quarThreshold := rfl
@[simp] theorem modStack_routes (s : State) (n : Nat) (v : Stack → Stack) : (modStack s n v).routes = s.routes := rfl
@[simp] theorem modStack_routesPending (s : State) (n : Nat) (v : Stack → Stack) : (modStack s n v).routesPending = s.routesPending := rfl
@[simp] theorem modStack_lastRound (s : State) (n : Nat) (v : Stack → Stack) : (modStack s n v).lastRound = s.lastRound := rfl
@[simp] theorem modStack_fabOut (s : State) (n : Nat) (v : Stack → Stack) : (modStack s n v).fabOut = s.fabOut := rfl
@[simp] theorem modStack_flitOut (s : State) (n : Nat) (v : Stack → Stack) : (modStack s n v).flitOut = s.flitOut := rfl
@[simp] theorem modStack_mctpParts (s : State) (n : Nat) (v : Stack → Stack) : (modStack s n v).mctpParts = s.mctpParts := rfl
@[simp] theorem modStack_fabTags (s : State) (n : Nat) (v : Stack → Stack) : (modStack s n v).fabTags = s.fabTags := rfl
@[simp] theorem modStack_fabTag (s : State) (n : Nat) (v : Stack → Stack) : (modStack s n v).fabTag = s.fabTag := rfl
@[simp] theorem modStack_channels (s : State) (n : Nat) (v : Stack → Stack) : (modStack s n v).channels = s.channels := rfl
@[simp] theorem modStack_sessions (s : State) (n : Nat) (v : Stack → Stack) : (modStack s n v).sessions = s.sessions := rfl
@[simp] theorem modStack_admitNext (s : State) (n : Nat) (v : Stack → Stack) : (modStack s n v).admitNext = s.admitNext := rfl
@[simp] theorem modStack_tables (s : State) (n : Nat) (v : Stack → Stack) : (modStack s n v).tables = s.tables := rfl
@[simp] theorem modStack_rounds (s : State) (n : Nat) (v : Stack → Stack) : (modStack s n v).rounds = s.rounds := rfl
@[simp] theorem modStack_cache (s : State) (n : Nat) (v : Stack → Stack) : (modStack s n v).cache = s.cache := rfl
@[simp] theorem modStack_host (s : State) (n : Nat) (v : Stack → Stack) : (modStack s n v).host = s.host := rfl
@[simp] theorem modStack_replies (s : State) (n : Nat) (v : Stack → Stack) : (modStack s n v).replies = s.replies := rfl
@[simp] theorem modStack_background (s : State) (n : Nat) (v : Stack → Stack) : (modStack s n v).background = s.background := rfl
@[simp] theorem modStack_logs (s : State) (n : Nat) (v : Stack → Stack) : (modStack s n v).logs = s.logs := rfl
@[simp] theorem modStack_seqs (s : State) (n : Nat) (v : Stack → Stack) : (modStack s n v).seqs = s.seqs := rfl
@[simp] theorem modStack_meter (s : State) (n : Nat) (v : Stack → Stack) : (modStack s n v).meter = s.meter := rfl
@[simp] theorem modStack_meterHi (s : State) (n : Nat) (v : Stack → Stack) : (modStack s n v).meterHi = s.meterHi := rfl
@[simp] theorem modStack_talHi (s : State) (n : Nat) (v : Stack → Stack) : (modStack s n v).talHi = s.talHi := rfl
@[simp] theorem modStack_ringOsc (s : State) (n : Nat) (v : Stack → Stack) : (modStack s n v).ringOsc = s.ringOsc := rfl
@[simp] theorem modStack_deadlines (s : State) (n : Nat) (v : Stack → Stack) : (modStack s n v).deadlines = s.deadlines := rfl
@[simp] theorem modStack_refLostSeen (s : State) (n : Nat) (v : Stack → Stack) : (modStack s n v).refLostSeen = s.refLostSeen := rfl
@[simp] theorem modStack_pace (s : State) (n : Nat) (v : Stack → Stack) : (modStack s n v).pace = s.pace := rfl
@[simp] theorem modStack_power (s : State) (n : Nat) (v : Stack → Stack) : (modStack s n v).power = s.power := rfl
@[simp] theorem modStack_ctl (s : State) (n : Nat) (v : Stack → Stack) : (modStack s n v).ctl = s.ctl := rfl
@[simp] theorem modStack_sec (s : State) (n : Nat) (v : Stack → Stack) : (modStack s n v).sec = s.sec := rfl

/-! ### Trick -/

theorem swf_setTrick (s : State) (n : Nat) (v : Trick) (h : swf Trick.empty s.tricks = true) : swf Trick.empty (setTrick s n v).tricks = true :=
  swf_sput Trick.empty _ n v h
@[simp] theorem setTrick_pending (s : State) (n : Nat) (v : Trick) : (setTrick s n v).pending = s.pending := rfl
@[simp] theorem setTrick_freeNext (s : State) (n : Nat) (v : Trick) : (setTrick s n v).freeNext = s.freeNext := rfl
@[simp] theorem setTrick_cores (s : State) (n : Nat) (v : Trick) : (setTrick s n v).cores = s.cores := rfl
@[simp] theorem setTrick_kitty (s : State) (n : Nat) (v : Trick) : (setTrick s n v).kitty = s.kitty := rfl
@[simp] theorem setTrick_repairMap (s : State) (n : Nat) (v : Trick) : (setTrick s n v).repairMap = s.repairMap := rfl
@[simp] theorem setTrick_retiredCores (s : State) (n : Nat) (v : Trick) : (setTrick s n v).retiredCores = s.retiredCores := rfl
@[simp] theorem setTrick_badCores (s : State) (n : Nat) (v : Trick) : (setTrick s n v).badCores = s.badCores := rfl
@[simp] theorem setTrick_paths (s : State) (n : Nat) (v : Trick) : (setTrick s n v).paths = s.paths := rfl
@[simp] theorem setTrick_pathReplays (s : State) (n : Nat) (v : Trick) : (setTrick s n v).pathReplays = s.pathReplays := rfl
@[simp] theorem setTrick_lanesSpared (s : State) (n : Nat) (v : Trick) : (setTrick s n v).lanesSpared = s.lanesSpared := rfl
@[simp] theorem setTrick_pathsFailed (s : State) (n : Nat) (v : Trick) : (setTrick s n v).pathsFailed = s.pathsFailed := rfl
@[simp] theorem setTrick_known (s : State) (n : Nat) (v : Trick) : (setTrick s n v).known = s.known := rfl
@[simp] theorem setTrick_clusterPlays (s : State) (n : Nat) (v : Trick) : (setTrick s n v).clusterPlays = s.clusterPlays := rfl
@[simp] theorem setTrick_arrives (s : State) (n : Nat) (v : Trick) : (setTrick s n v).arrives = s.arrives := rfl
@[simp] theorem setTrick_releases (s : State) (n : Nat) (v : Trick) : (setTrick s n v).releases = s.releases := rfl
@[simp] theorem setTrick_streams (s : State) (n : Nat) (v : Trick) : (setTrick s n v).streams = s.streams := rfl
@[simp] theorem setTrick_creditFlight (s : State) (n : Nat) (v : Trick) : (setTrick s n v).creditFlight = s.creditFlight := rfl
@[simp] theorem setTrick_pushes (s : State) (n : Nat) (v : Trick) : (setTrick s n v).pushes = s.pushes := rfl
@[simp] theorem setTrick_latchFlight (s : State) (n : Nat) (v : Trick) : (setTrick s n v).latchFlight = s.latchFlight := rfl
@[simp] theorem setTrick_tallies (s : State) (n : Nat) (v : Trick) : (setTrick s n v).tallies = s.tallies := rfl
@[simp] theorem setTrick_spanLateDrops (s : State) (n : Nat) (v : Trick) : (setTrick s n v).spanLateDrops = s.spanLateDrops := rfl
@[simp] theorem setTrick_array (s : State) (n : Nat) (v : Trick) : (setTrick s n v).array = s.array := rfl
@[simp] theorem setTrick_stackMap (s : State) (n : Nat) (v : Trick) : (setTrick s n v).stackMap = s.stackMap := rfl
@[simp] theorem setTrick_regs (s : State) (n : Nat) (v : Trick) : (setTrick s n v).regs = s.regs := rfl
@[simp] theorem setTrick_regWait (s : State) (n : Nat) (v : Trick) : (setTrick s n v).regWait = s.regWait := rfl
@[simp] theorem setTrick_directory (s : State) (n : Nat) (v : Trick) : (setTrick s n v).directory = s.directory := rfl
@[simp] theorem setTrick_unrepaired (s : State) (n : Nat) (v : Trick) : (setTrick s n v).unrepaired = s.unrepaired := rfl
@[simp] theorem setTrick_refetches (s : State) (n : Nat) (v : Trick) : (setTrick s n v).refetches = s.refetches := rfl
@[simp] theorem setTrick_loader (s : State) (n : Nat) (v : Trick) : (setTrick s n v).loader = s.loader := rfl
@[simp] theorem setTrick_ports (s : State) (n : Nat) (v : Trick) : (setTrick s n v).ports = s.ports := rfl
@[simp] theorem setTrick_gen (s : State) (n : Nat) (v : Trick) : (setTrick s n v).gen = s.gen := rfl
@[simp] theorem setTrick_genLateDrops (s : State) (n : Nat) (v : Trick) : (setTrick s n v).genLateDrops = s.genLateDrops := rfl
@[simp] theorem setTrick_quarThreshold (s : State) (n : Nat) (v : Trick) : (setTrick s n v).quarThreshold = s.quarThreshold := rfl
@[simp] theorem setTrick_routes (s : State) (n : Nat) (v : Trick) : (setTrick s n v).routes = s.routes := rfl
@[simp] theorem setTrick_routesPending (s : State) (n : Nat) (v : Trick) : (setTrick s n v).routesPending = s.routesPending := rfl
@[simp] theorem setTrick_lastRound (s : State) (n : Nat) (v : Trick) : (setTrick s n v).lastRound = s.lastRound := rfl
@[simp] theorem setTrick_fabOut (s : State) (n : Nat) (v : Trick) : (setTrick s n v).fabOut = s.fabOut := rfl
@[simp] theorem setTrick_flitOut (s : State) (n : Nat) (v : Trick) : (setTrick s n v).flitOut = s.flitOut := rfl
@[simp] theorem setTrick_mctpParts (s : State) (n : Nat) (v : Trick) : (setTrick s n v).mctpParts = s.mctpParts := rfl
@[simp] theorem setTrick_fabTags (s : State) (n : Nat) (v : Trick) : (setTrick s n v).fabTags = s.fabTags := rfl
@[simp] theorem setTrick_fabTag (s : State) (n : Nat) (v : Trick) : (setTrick s n v).fabTag = s.fabTag := rfl
@[simp] theorem setTrick_channels (s : State) (n : Nat) (v : Trick) : (setTrick s n v).channels = s.channels := rfl
@[simp] theorem setTrick_sessions (s : State) (n : Nat) (v : Trick) : (setTrick s n v).sessions = s.sessions := rfl
@[simp] theorem setTrick_admitNext (s : State) (n : Nat) (v : Trick) : (setTrick s n v).admitNext = s.admitNext := rfl
@[simp] theorem setTrick_tables (s : State) (n : Nat) (v : Trick) : (setTrick s n v).tables = s.tables := rfl
@[simp] theorem setTrick_rounds (s : State) (n : Nat) (v : Trick) : (setTrick s n v).rounds = s.rounds := rfl
@[simp] theorem setTrick_cache (s : State) (n : Nat) (v : Trick) : (setTrick s n v).cache = s.cache := rfl
@[simp] theorem setTrick_host (s : State) (n : Nat) (v : Trick) : (setTrick s n v).host = s.host := rfl
@[simp] theorem setTrick_replies (s : State) (n : Nat) (v : Trick) : (setTrick s n v).replies = s.replies := rfl
@[simp] theorem setTrick_background (s : State) (n : Nat) (v : Trick) : (setTrick s n v).background = s.background := rfl
@[simp] theorem setTrick_logs (s : State) (n : Nat) (v : Trick) : (setTrick s n v).logs = s.logs := rfl
@[simp] theorem setTrick_seqs (s : State) (n : Nat) (v : Trick) : (setTrick s n v).seqs = s.seqs := rfl
@[simp] theorem setTrick_meter (s : State) (n : Nat) (v : Trick) : (setTrick s n v).meter = s.meter := rfl
@[simp] theorem setTrick_meterHi (s : State) (n : Nat) (v : Trick) : (setTrick s n v).meterHi = s.meterHi := rfl
@[simp] theorem setTrick_talHi (s : State) (n : Nat) (v : Trick) : (setTrick s n v).talHi = s.talHi := rfl
@[simp] theorem setTrick_ringOsc (s : State) (n : Nat) (v : Trick) : (setTrick s n v).ringOsc = s.ringOsc := rfl
@[simp] theorem setTrick_deadlines (s : State) (n : Nat) (v : Trick) : (setTrick s n v).deadlines = s.deadlines := rfl
@[simp] theorem setTrick_refLostSeen (s : State) (n : Nat) (v : Trick) : (setTrick s n v).refLostSeen = s.refLostSeen := rfl
@[simp] theorem setTrick_pace (s : State) (n : Nat) (v : Trick) : (setTrick s n v).pace = s.pace := rfl
@[simp] theorem setTrick_power (s : State) (n : Nat) (v : Trick) : (setTrick s n v).power = s.power := rfl
@[simp] theorem setTrick_ctl (s : State) (n : Nat) (v : Trick) : (setTrick s n v).ctl = s.ctl := rfl
@[simp] theorem setTrick_sec (s : State) (n : Nat) (v : Trick) : (setTrick s n v).sec = s.sec := rfl

/-! ### Stream -/

theorem getStream_setStream_same (s : State) (n : Nat) (v : Stream) (h : swf Stream.empty s.streams = true) : getStream (setStream s n v) n = v :=
  sget_sput_same Stream.empty _ n v h
theorem getStream_setStream_of_ne (s : State) (n : Nat) (v : Stream) (h : v ≠ Stream.empty) : getStream (setStream s n v) n = v :=
  sget_sput_same_of_ne Stream.empty _ n v h
@[simp] theorem getStream_setStream_other (s : State) (n m : Nat) (v : Stream) (h : m ≠ n) : getStream (setStream s n v) m = getStream s m :=
  sget_sput_other Stream.empty _ n m v h
theorem swf_setStream (s : State) (n : Nat) (v : Stream) (h : swf Stream.empty s.streams = true) : swf Stream.empty (setStream s n v).streams = true :=
  swf_sput Stream.empty _ n v h
@[simp] theorem setStream_pending (s : State) (n : Nat) (v : Stream) : (setStream s n v).pending = s.pending := rfl
@[simp] theorem setStream_freeNext (s : State) (n : Nat) (v : Stream) : (setStream s n v).freeNext = s.freeNext := rfl
@[simp] theorem setStream_cores (s : State) (n : Nat) (v : Stream) : (setStream s n v).cores = s.cores := rfl
@[simp] theorem setStream_kitty (s : State) (n : Nat) (v : Stream) : (setStream s n v).kitty = s.kitty := rfl
@[simp] theorem setStream_repairMap (s : State) (n : Nat) (v : Stream) : (setStream s n v).repairMap = s.repairMap := rfl
@[simp] theorem setStream_retiredCores (s : State) (n : Nat) (v : Stream) : (setStream s n v).retiredCores = s.retiredCores := rfl
@[simp] theorem setStream_badCores (s : State) (n : Nat) (v : Stream) : (setStream s n v).badCores = s.badCores := rfl
@[simp] theorem setStream_paths (s : State) (n : Nat) (v : Stream) : (setStream s n v).paths = s.paths := rfl
@[simp] theorem setStream_pathReplays (s : State) (n : Nat) (v : Stream) : (setStream s n v).pathReplays = s.pathReplays := rfl
@[simp] theorem setStream_lanesSpared (s : State) (n : Nat) (v : Stream) : (setStream s n v).lanesSpared = s.lanesSpared := rfl
@[simp] theorem setStream_pathsFailed (s : State) (n : Nat) (v : Stream) : (setStream s n v).pathsFailed = s.pathsFailed := rfl
@[simp] theorem setStream_tricks (s : State) (n : Nat) (v : Stream) : (setStream s n v).tricks = s.tricks := rfl
@[simp] theorem setStream_known (s : State) (n : Nat) (v : Stream) : (setStream s n v).known = s.known := rfl
@[simp] theorem setStream_clusterPlays (s : State) (n : Nat) (v : Stream) : (setStream s n v).clusterPlays = s.clusterPlays := rfl
@[simp] theorem setStream_arrives (s : State) (n : Nat) (v : Stream) : (setStream s n v).arrives = s.arrives := rfl
@[simp] theorem setStream_releases (s : State) (n : Nat) (v : Stream) : (setStream s n v).releases = s.releases := rfl
@[simp] theorem setStream_creditFlight (s : State) (n : Nat) (v : Stream) : (setStream s n v).creditFlight = s.creditFlight := rfl
@[simp] theorem setStream_pushes (s : State) (n : Nat) (v : Stream) : (setStream s n v).pushes = s.pushes := rfl
@[simp] theorem setStream_latchFlight (s : State) (n : Nat) (v : Stream) : (setStream s n v).latchFlight = s.latchFlight := rfl
@[simp] theorem setStream_tallies (s : State) (n : Nat) (v : Stream) : (setStream s n v).tallies = s.tallies := rfl
@[simp] theorem setStream_spanLateDrops (s : State) (n : Nat) (v : Stream) : (setStream s n v).spanLateDrops = s.spanLateDrops := rfl
@[simp] theorem setStream_array (s : State) (n : Nat) (v : Stream) : (setStream s n v).array = s.array := rfl
@[simp] theorem setStream_stackMap (s : State) (n : Nat) (v : Stream) : (setStream s n v).stackMap = s.stackMap := rfl
@[simp] theorem setStream_regs (s : State) (n : Nat) (v : Stream) : (setStream s n v).regs = s.regs := rfl
@[simp] theorem setStream_regWait (s : State) (n : Nat) (v : Stream) : (setStream s n v).regWait = s.regWait := rfl
@[simp] theorem setStream_directory (s : State) (n : Nat) (v : Stream) : (setStream s n v).directory = s.directory := rfl
@[simp] theorem setStream_unrepaired (s : State) (n : Nat) (v : Stream) : (setStream s n v).unrepaired = s.unrepaired := rfl
@[simp] theorem setStream_refetches (s : State) (n : Nat) (v : Stream) : (setStream s n v).refetches = s.refetches := rfl
@[simp] theorem setStream_loader (s : State) (n : Nat) (v : Stream) : (setStream s n v).loader = s.loader := rfl
@[simp] theorem setStream_ports (s : State) (n : Nat) (v : Stream) : (setStream s n v).ports = s.ports := rfl
@[simp] theorem setStream_gen (s : State) (n : Nat) (v : Stream) : (setStream s n v).gen = s.gen := rfl
@[simp] theorem setStream_genLateDrops (s : State) (n : Nat) (v : Stream) : (setStream s n v).genLateDrops = s.genLateDrops := rfl
@[simp] theorem setStream_quarThreshold (s : State) (n : Nat) (v : Stream) : (setStream s n v).quarThreshold = s.quarThreshold := rfl
@[simp] theorem setStream_routes (s : State) (n : Nat) (v : Stream) : (setStream s n v).routes = s.routes := rfl
@[simp] theorem setStream_routesPending (s : State) (n : Nat) (v : Stream) : (setStream s n v).routesPending = s.routesPending := rfl
@[simp] theorem setStream_lastRound (s : State) (n : Nat) (v : Stream) : (setStream s n v).lastRound = s.lastRound := rfl
@[simp] theorem setStream_fabOut (s : State) (n : Nat) (v : Stream) : (setStream s n v).fabOut = s.fabOut := rfl
@[simp] theorem setStream_flitOut (s : State) (n : Nat) (v : Stream) : (setStream s n v).flitOut = s.flitOut := rfl
@[simp] theorem setStream_mctpParts (s : State) (n : Nat) (v : Stream) : (setStream s n v).mctpParts = s.mctpParts := rfl
@[simp] theorem setStream_fabTags (s : State) (n : Nat) (v : Stream) : (setStream s n v).fabTags = s.fabTags := rfl
@[simp] theorem setStream_fabTag (s : State) (n : Nat) (v : Stream) : (setStream s n v).fabTag = s.fabTag := rfl
@[simp] theorem setStream_channels (s : State) (n : Nat) (v : Stream) : (setStream s n v).channels = s.channels := rfl
@[simp] theorem setStream_sessions (s : State) (n : Nat) (v : Stream) : (setStream s n v).sessions = s.sessions := rfl
@[simp] theorem setStream_admitNext (s : State) (n : Nat) (v : Stream) : (setStream s n v).admitNext = s.admitNext := rfl
@[simp] theorem setStream_tables (s : State) (n : Nat) (v : Stream) : (setStream s n v).tables = s.tables := rfl
@[simp] theorem setStream_rounds (s : State) (n : Nat) (v : Stream) : (setStream s n v).rounds = s.rounds := rfl
@[simp] theorem setStream_cache (s : State) (n : Nat) (v : Stream) : (setStream s n v).cache = s.cache := rfl
@[simp] theorem setStream_host (s : State) (n : Nat) (v : Stream) : (setStream s n v).host = s.host := rfl
@[simp] theorem setStream_replies (s : State) (n : Nat) (v : Stream) : (setStream s n v).replies = s.replies := rfl
@[simp] theorem setStream_background (s : State) (n : Nat) (v : Stream) : (setStream s n v).background = s.background := rfl
@[simp] theorem setStream_logs (s : State) (n : Nat) (v : Stream) : (setStream s n v).logs = s.logs := rfl
@[simp] theorem setStream_seqs (s : State) (n : Nat) (v : Stream) : (setStream s n v).seqs = s.seqs := rfl
@[simp] theorem setStream_meter (s : State) (n : Nat) (v : Stream) : (setStream s n v).meter = s.meter := rfl
@[simp] theorem setStream_meterHi (s : State) (n : Nat) (v : Stream) : (setStream s n v).meterHi = s.meterHi := rfl
@[simp] theorem setStream_talHi (s : State) (n : Nat) (v : Stream) : (setStream s n v).talHi = s.talHi := rfl
@[simp] theorem setStream_ringOsc (s : State) (n : Nat) (v : Stream) : (setStream s n v).ringOsc = s.ringOsc := rfl
@[simp] theorem setStream_deadlines (s : State) (n : Nat) (v : Stream) : (setStream s n v).deadlines = s.deadlines := rfl
@[simp] theorem setStream_refLostSeen (s : State) (n : Nat) (v : Stream) : (setStream s n v).refLostSeen = s.refLostSeen := rfl
@[simp] theorem setStream_pace (s : State) (n : Nat) (v : Stream) : (setStream s n v).pace = s.pace := rfl
@[simp] theorem setStream_power (s : State) (n : Nat) (v : Stream) : (setStream s n v).power = s.power := rfl
@[simp] theorem setStream_ctl (s : State) (n : Nat) (v : Stream) : (setStream s n v).ctl = s.ctl := rfl
@[simp] theorem setStream_sec (s : State) (n : Nat) (v : Stream) : (setStream s n v).sec = s.sec := rfl
@[simp] theorem modStream_pending (s : State) (n : Nat) (v : Stream → Stream) : (modStream s n v).pending = s.pending := rfl
@[simp] theorem modStream_freeNext (s : State) (n : Nat) (v : Stream → Stream) : (modStream s n v).freeNext = s.freeNext := rfl
@[simp] theorem modStream_cores (s : State) (n : Nat) (v : Stream → Stream) : (modStream s n v).cores = s.cores := rfl
@[simp] theorem modStream_kitty (s : State) (n : Nat) (v : Stream → Stream) : (modStream s n v).kitty = s.kitty := rfl
@[simp] theorem modStream_repairMap (s : State) (n : Nat) (v : Stream → Stream) : (modStream s n v).repairMap = s.repairMap := rfl
@[simp] theorem modStream_retiredCores (s : State) (n : Nat) (v : Stream → Stream) : (modStream s n v).retiredCores = s.retiredCores := rfl
@[simp] theorem modStream_badCores (s : State) (n : Nat) (v : Stream → Stream) : (modStream s n v).badCores = s.badCores := rfl
@[simp] theorem modStream_paths (s : State) (n : Nat) (v : Stream → Stream) : (modStream s n v).paths = s.paths := rfl
@[simp] theorem modStream_pathReplays (s : State) (n : Nat) (v : Stream → Stream) : (modStream s n v).pathReplays = s.pathReplays := rfl
@[simp] theorem modStream_lanesSpared (s : State) (n : Nat) (v : Stream → Stream) : (modStream s n v).lanesSpared = s.lanesSpared := rfl
@[simp] theorem modStream_pathsFailed (s : State) (n : Nat) (v : Stream → Stream) : (modStream s n v).pathsFailed = s.pathsFailed := rfl
@[simp] theorem modStream_tricks (s : State) (n : Nat) (v : Stream → Stream) : (modStream s n v).tricks = s.tricks := rfl
@[simp] theorem modStream_known (s : State) (n : Nat) (v : Stream → Stream) : (modStream s n v).known = s.known := rfl
@[simp] theorem modStream_clusterPlays (s : State) (n : Nat) (v : Stream → Stream) : (modStream s n v).clusterPlays = s.clusterPlays := rfl
@[simp] theorem modStream_arrives (s : State) (n : Nat) (v : Stream → Stream) : (modStream s n v).arrives = s.arrives := rfl
@[simp] theorem modStream_releases (s : State) (n : Nat) (v : Stream → Stream) : (modStream s n v).releases = s.releases := rfl
@[simp] theorem modStream_creditFlight (s : State) (n : Nat) (v : Stream → Stream) : (modStream s n v).creditFlight = s.creditFlight := rfl
@[simp] theorem modStream_pushes (s : State) (n : Nat) (v : Stream → Stream) : (modStream s n v).pushes = s.pushes := rfl
@[simp] theorem modStream_latchFlight (s : State) (n : Nat) (v : Stream → Stream) : (modStream s n v).latchFlight = s.latchFlight := rfl
@[simp] theorem modStream_tallies (s : State) (n : Nat) (v : Stream → Stream) : (modStream s n v).tallies = s.tallies := rfl
@[simp] theorem modStream_spanLateDrops (s : State) (n : Nat) (v : Stream → Stream) : (modStream s n v).spanLateDrops = s.spanLateDrops := rfl
@[simp] theorem modStream_array (s : State) (n : Nat) (v : Stream → Stream) : (modStream s n v).array = s.array := rfl
@[simp] theorem modStream_stackMap (s : State) (n : Nat) (v : Stream → Stream) : (modStream s n v).stackMap = s.stackMap := rfl
@[simp] theorem modStream_regs (s : State) (n : Nat) (v : Stream → Stream) : (modStream s n v).regs = s.regs := rfl
@[simp] theorem modStream_regWait (s : State) (n : Nat) (v : Stream → Stream) : (modStream s n v).regWait = s.regWait := rfl
@[simp] theorem modStream_directory (s : State) (n : Nat) (v : Stream → Stream) : (modStream s n v).directory = s.directory := rfl
@[simp] theorem modStream_unrepaired (s : State) (n : Nat) (v : Stream → Stream) : (modStream s n v).unrepaired = s.unrepaired := rfl
@[simp] theorem modStream_refetches (s : State) (n : Nat) (v : Stream → Stream) : (modStream s n v).refetches = s.refetches := rfl
@[simp] theorem modStream_loader (s : State) (n : Nat) (v : Stream → Stream) : (modStream s n v).loader = s.loader := rfl
@[simp] theorem modStream_ports (s : State) (n : Nat) (v : Stream → Stream) : (modStream s n v).ports = s.ports := rfl
@[simp] theorem modStream_gen (s : State) (n : Nat) (v : Stream → Stream) : (modStream s n v).gen = s.gen := rfl
@[simp] theorem modStream_genLateDrops (s : State) (n : Nat) (v : Stream → Stream) : (modStream s n v).genLateDrops = s.genLateDrops := rfl
@[simp] theorem modStream_quarThreshold (s : State) (n : Nat) (v : Stream → Stream) : (modStream s n v).quarThreshold = s.quarThreshold := rfl
@[simp] theorem modStream_routes (s : State) (n : Nat) (v : Stream → Stream) : (modStream s n v).routes = s.routes := rfl
@[simp] theorem modStream_routesPending (s : State) (n : Nat) (v : Stream → Stream) : (modStream s n v).routesPending = s.routesPending := rfl
@[simp] theorem modStream_lastRound (s : State) (n : Nat) (v : Stream → Stream) : (modStream s n v).lastRound = s.lastRound := rfl
@[simp] theorem modStream_fabOut (s : State) (n : Nat) (v : Stream → Stream) : (modStream s n v).fabOut = s.fabOut := rfl
@[simp] theorem modStream_flitOut (s : State) (n : Nat) (v : Stream → Stream) : (modStream s n v).flitOut = s.flitOut := rfl
@[simp] theorem modStream_mctpParts (s : State) (n : Nat) (v : Stream → Stream) : (modStream s n v).mctpParts = s.mctpParts := rfl
@[simp] theorem modStream_fabTags (s : State) (n : Nat) (v : Stream → Stream) : (modStream s n v).fabTags = s.fabTags := rfl
@[simp] theorem modStream_fabTag (s : State) (n : Nat) (v : Stream → Stream) : (modStream s n v).fabTag = s.fabTag := rfl
@[simp] theorem modStream_channels (s : State) (n : Nat) (v : Stream → Stream) : (modStream s n v).channels = s.channels := rfl
@[simp] theorem modStream_sessions (s : State) (n : Nat) (v : Stream → Stream) : (modStream s n v).sessions = s.sessions := rfl
@[simp] theorem modStream_admitNext (s : State) (n : Nat) (v : Stream → Stream) : (modStream s n v).admitNext = s.admitNext := rfl
@[simp] theorem modStream_tables (s : State) (n : Nat) (v : Stream → Stream) : (modStream s n v).tables = s.tables := rfl
@[simp] theorem modStream_rounds (s : State) (n : Nat) (v : Stream → Stream) : (modStream s n v).rounds = s.rounds := rfl
@[simp] theorem modStream_cache (s : State) (n : Nat) (v : Stream → Stream) : (modStream s n v).cache = s.cache := rfl
@[simp] theorem modStream_host (s : State) (n : Nat) (v : Stream → Stream) : (modStream s n v).host = s.host := rfl
@[simp] theorem modStream_replies (s : State) (n : Nat) (v : Stream → Stream) : (modStream s n v).replies = s.replies := rfl
@[simp] theorem modStream_background (s : State) (n : Nat) (v : Stream → Stream) : (modStream s n v).background = s.background := rfl
@[simp] theorem modStream_logs (s : State) (n : Nat) (v : Stream → Stream) : (modStream s n v).logs = s.logs := rfl
@[simp] theorem modStream_seqs (s : State) (n : Nat) (v : Stream → Stream) : (modStream s n v).seqs = s.seqs := rfl
@[simp] theorem modStream_meter (s : State) (n : Nat) (v : Stream → Stream) : (modStream s n v).meter = s.meter := rfl
@[simp] theorem modStream_meterHi (s : State) (n : Nat) (v : Stream → Stream) : (modStream s n v).meterHi = s.meterHi := rfl
@[simp] theorem modStream_talHi (s : State) (n : Nat) (v : Stream → Stream) : (modStream s n v).talHi = s.talHi := rfl
@[simp] theorem modStream_ringOsc (s : State) (n : Nat) (v : Stream → Stream) : (modStream s n v).ringOsc = s.ringOsc := rfl
@[simp] theorem modStream_deadlines (s : State) (n : Nat) (v : Stream → Stream) : (modStream s n v).deadlines = s.deadlines := rfl
@[simp] theorem modStream_refLostSeen (s : State) (n : Nat) (v : Stream → Stream) : (modStream s n v).refLostSeen = s.refLostSeen := rfl
@[simp] theorem modStream_pace (s : State) (n : Nat) (v : Stream → Stream) : (modStream s n v).pace = s.pace := rfl
@[simp] theorem modStream_power (s : State) (n : Nat) (v : Stream → Stream) : (modStream s n v).power = s.power := rfl
@[simp] theorem modStream_ctl (s : State) (n : Nat) (v : Stream → Stream) : (modStream s n v).ctl = s.ctl := rfl
@[simp] theorem modStream_sec (s : State) (n : Nat) (v : Stream → Stream) : (modStream s n v).sec = s.sec := rfl

/-! ### Port -/

theorem getPort_setPort_same (s : State) (n : Nat) (v : Port) (h : swf Port.off s.ports = true) : getPort (setPort s n v) n = v :=
  sget_sput_same Port.off _ n v h
theorem getPort_setPort_of_ne (s : State) (n : Nat) (v : Port) (h : v ≠ Port.off) : getPort (setPort s n v) n = v :=
  sget_sput_same_of_ne Port.off _ n v h
@[simp] theorem getPort_setPort_other (s : State) (n m : Nat) (v : Port) (h : m ≠ n) : getPort (setPort s n v) m = getPort s m :=
  sget_sput_other Port.off _ n m v h
theorem swf_setPort (s : State) (n : Nat) (v : Port) (h : swf Port.off s.ports = true) : swf Port.off (setPort s n v).ports = true :=
  swf_sput Port.off _ n v h
@[simp] theorem setPort_pending (s : State) (n : Nat) (v : Port) : (setPort s n v).pending = s.pending := rfl
@[simp] theorem setPort_freeNext (s : State) (n : Nat) (v : Port) : (setPort s n v).freeNext = s.freeNext := rfl
@[simp] theorem setPort_cores (s : State) (n : Nat) (v : Port) : (setPort s n v).cores = s.cores := rfl
@[simp] theorem setPort_kitty (s : State) (n : Nat) (v : Port) : (setPort s n v).kitty = s.kitty := rfl
@[simp] theorem setPort_repairMap (s : State) (n : Nat) (v : Port) : (setPort s n v).repairMap = s.repairMap := rfl
@[simp] theorem setPort_retiredCores (s : State) (n : Nat) (v : Port) : (setPort s n v).retiredCores = s.retiredCores := rfl
@[simp] theorem setPort_badCores (s : State) (n : Nat) (v : Port) : (setPort s n v).badCores = s.badCores := rfl
@[simp] theorem setPort_paths (s : State) (n : Nat) (v : Port) : (setPort s n v).paths = s.paths := rfl
@[simp] theorem setPort_pathReplays (s : State) (n : Nat) (v : Port) : (setPort s n v).pathReplays = s.pathReplays := rfl
@[simp] theorem setPort_lanesSpared (s : State) (n : Nat) (v : Port) : (setPort s n v).lanesSpared = s.lanesSpared := rfl
@[simp] theorem setPort_pathsFailed (s : State) (n : Nat) (v : Port) : (setPort s n v).pathsFailed = s.pathsFailed := rfl
@[simp] theorem setPort_tricks (s : State) (n : Nat) (v : Port) : (setPort s n v).tricks = s.tricks := rfl
@[simp] theorem setPort_known (s : State) (n : Nat) (v : Port) : (setPort s n v).known = s.known := rfl
@[simp] theorem setPort_clusterPlays (s : State) (n : Nat) (v : Port) : (setPort s n v).clusterPlays = s.clusterPlays := rfl
@[simp] theorem setPort_arrives (s : State) (n : Nat) (v : Port) : (setPort s n v).arrives = s.arrives := rfl
@[simp] theorem setPort_releases (s : State) (n : Nat) (v : Port) : (setPort s n v).releases = s.releases := rfl
@[simp] theorem setPort_streams (s : State) (n : Nat) (v : Port) : (setPort s n v).streams = s.streams := rfl
@[simp] theorem setPort_creditFlight (s : State) (n : Nat) (v : Port) : (setPort s n v).creditFlight = s.creditFlight := rfl
@[simp] theorem setPort_pushes (s : State) (n : Nat) (v : Port) : (setPort s n v).pushes = s.pushes := rfl
@[simp] theorem setPort_latchFlight (s : State) (n : Nat) (v : Port) : (setPort s n v).latchFlight = s.latchFlight := rfl
@[simp] theorem setPort_tallies (s : State) (n : Nat) (v : Port) : (setPort s n v).tallies = s.tallies := rfl
@[simp] theorem setPort_spanLateDrops (s : State) (n : Nat) (v : Port) : (setPort s n v).spanLateDrops = s.spanLateDrops := rfl
@[simp] theorem setPort_array (s : State) (n : Nat) (v : Port) : (setPort s n v).array = s.array := rfl
@[simp] theorem setPort_stackMap (s : State) (n : Nat) (v : Port) : (setPort s n v).stackMap = s.stackMap := rfl
@[simp] theorem setPort_regs (s : State) (n : Nat) (v : Port) : (setPort s n v).regs = s.regs := rfl
@[simp] theorem setPort_regWait (s : State) (n : Nat) (v : Port) : (setPort s n v).regWait = s.regWait := rfl
@[simp] theorem setPort_directory (s : State) (n : Nat) (v : Port) : (setPort s n v).directory = s.directory := rfl
@[simp] theorem setPort_unrepaired (s : State) (n : Nat) (v : Port) : (setPort s n v).unrepaired = s.unrepaired := rfl
@[simp] theorem setPort_refetches (s : State) (n : Nat) (v : Port) : (setPort s n v).refetches = s.refetches := rfl
@[simp] theorem setPort_loader (s : State) (n : Nat) (v : Port) : (setPort s n v).loader = s.loader := rfl
@[simp] theorem setPort_gen (s : State) (n : Nat) (v : Port) : (setPort s n v).gen = s.gen := rfl
@[simp] theorem setPort_genLateDrops (s : State) (n : Nat) (v : Port) : (setPort s n v).genLateDrops = s.genLateDrops := rfl
@[simp] theorem setPort_quarThreshold (s : State) (n : Nat) (v : Port) : (setPort s n v).quarThreshold = s.quarThreshold := rfl
@[simp] theorem setPort_routes (s : State) (n : Nat) (v : Port) : (setPort s n v).routes = s.routes := rfl
@[simp] theorem setPort_routesPending (s : State) (n : Nat) (v : Port) : (setPort s n v).routesPending = s.routesPending := rfl
@[simp] theorem setPort_lastRound (s : State) (n : Nat) (v : Port) : (setPort s n v).lastRound = s.lastRound := rfl
@[simp] theorem setPort_fabOut (s : State) (n : Nat) (v : Port) : (setPort s n v).fabOut = s.fabOut := rfl
@[simp] theorem setPort_flitOut (s : State) (n : Nat) (v : Port) : (setPort s n v).flitOut = s.flitOut := rfl
@[simp] theorem setPort_mctpParts (s : State) (n : Nat) (v : Port) : (setPort s n v).mctpParts = s.mctpParts := rfl
@[simp] theorem setPort_fabTags (s : State) (n : Nat) (v : Port) : (setPort s n v).fabTags = s.fabTags := rfl
@[simp] theorem setPort_fabTag (s : State) (n : Nat) (v : Port) : (setPort s n v).fabTag = s.fabTag := rfl
@[simp] theorem setPort_channels (s : State) (n : Nat) (v : Port) : (setPort s n v).channels = s.channels := rfl
@[simp] theorem setPort_sessions (s : State) (n : Nat) (v : Port) : (setPort s n v).sessions = s.sessions := rfl
@[simp] theorem setPort_admitNext (s : State) (n : Nat) (v : Port) : (setPort s n v).admitNext = s.admitNext := rfl
@[simp] theorem setPort_tables (s : State) (n : Nat) (v : Port) : (setPort s n v).tables = s.tables := rfl
@[simp] theorem setPort_rounds (s : State) (n : Nat) (v : Port) : (setPort s n v).rounds = s.rounds := rfl
@[simp] theorem setPort_cache (s : State) (n : Nat) (v : Port) : (setPort s n v).cache = s.cache := rfl
@[simp] theorem setPort_host (s : State) (n : Nat) (v : Port) : (setPort s n v).host = s.host := rfl
@[simp] theorem setPort_replies (s : State) (n : Nat) (v : Port) : (setPort s n v).replies = s.replies := rfl
@[simp] theorem setPort_background (s : State) (n : Nat) (v : Port) : (setPort s n v).background = s.background := rfl
@[simp] theorem setPort_logs (s : State) (n : Nat) (v : Port) : (setPort s n v).logs = s.logs := rfl
@[simp] theorem setPort_seqs (s : State) (n : Nat) (v : Port) : (setPort s n v).seqs = s.seqs := rfl
@[simp] theorem setPort_meter (s : State) (n : Nat) (v : Port) : (setPort s n v).meter = s.meter := rfl
@[simp] theorem setPort_meterHi (s : State) (n : Nat) (v : Port) : (setPort s n v).meterHi = s.meterHi := rfl
@[simp] theorem setPort_talHi (s : State) (n : Nat) (v : Port) : (setPort s n v).talHi = s.talHi := rfl
@[simp] theorem setPort_ringOsc (s : State) (n : Nat) (v : Port) : (setPort s n v).ringOsc = s.ringOsc := rfl
@[simp] theorem setPort_deadlines (s : State) (n : Nat) (v : Port) : (setPort s n v).deadlines = s.deadlines := rfl
@[simp] theorem setPort_refLostSeen (s : State) (n : Nat) (v : Port) : (setPort s n v).refLostSeen = s.refLostSeen := rfl
@[simp] theorem setPort_pace (s : State) (n : Nat) (v : Port) : (setPort s n v).pace = s.pace := rfl
@[simp] theorem setPort_power (s : State) (n : Nat) (v : Port) : (setPort s n v).power = s.power := rfl
@[simp] theorem setPort_ctl (s : State) (n : Nat) (v : Port) : (setPort s n v).ctl = s.ctl := rfl
@[simp] theorem setPort_sec (s : State) (n : Nat) (v : Port) : (setPort s n v).sec = s.sec := rfl
@[simp] theorem modPort_pending (s : State) (n : Nat) (v : Port → Port) : (modPort s n v).pending = s.pending := rfl
@[simp] theorem modPort_freeNext (s : State) (n : Nat) (v : Port → Port) : (modPort s n v).freeNext = s.freeNext := rfl
@[simp] theorem modPort_cores (s : State) (n : Nat) (v : Port → Port) : (modPort s n v).cores = s.cores := rfl
@[simp] theorem modPort_kitty (s : State) (n : Nat) (v : Port → Port) : (modPort s n v).kitty = s.kitty := rfl
@[simp] theorem modPort_repairMap (s : State) (n : Nat) (v : Port → Port) : (modPort s n v).repairMap = s.repairMap := rfl
@[simp] theorem modPort_retiredCores (s : State) (n : Nat) (v : Port → Port) : (modPort s n v).retiredCores = s.retiredCores := rfl
@[simp] theorem modPort_badCores (s : State) (n : Nat) (v : Port → Port) : (modPort s n v).badCores = s.badCores := rfl
@[simp] theorem modPort_paths (s : State) (n : Nat) (v : Port → Port) : (modPort s n v).paths = s.paths := rfl
@[simp] theorem modPort_pathReplays (s : State) (n : Nat) (v : Port → Port) : (modPort s n v).pathReplays = s.pathReplays := rfl
@[simp] theorem modPort_lanesSpared (s : State) (n : Nat) (v : Port → Port) : (modPort s n v).lanesSpared = s.lanesSpared := rfl
@[simp] theorem modPort_pathsFailed (s : State) (n : Nat) (v : Port → Port) : (modPort s n v).pathsFailed = s.pathsFailed := rfl
@[simp] theorem modPort_tricks (s : State) (n : Nat) (v : Port → Port) : (modPort s n v).tricks = s.tricks := rfl
@[simp] theorem modPort_known (s : State) (n : Nat) (v : Port → Port) : (modPort s n v).known = s.known := rfl
@[simp] theorem modPort_clusterPlays (s : State) (n : Nat) (v : Port → Port) : (modPort s n v).clusterPlays = s.clusterPlays := rfl
@[simp] theorem modPort_arrives (s : State) (n : Nat) (v : Port → Port) : (modPort s n v).arrives = s.arrives := rfl
@[simp] theorem modPort_releases (s : State) (n : Nat) (v : Port → Port) : (modPort s n v).releases = s.releases := rfl
@[simp] theorem modPort_streams (s : State) (n : Nat) (v : Port → Port) : (modPort s n v).streams = s.streams := rfl
@[simp] theorem modPort_creditFlight (s : State) (n : Nat) (v : Port → Port) : (modPort s n v).creditFlight = s.creditFlight := rfl
@[simp] theorem modPort_pushes (s : State) (n : Nat) (v : Port → Port) : (modPort s n v).pushes = s.pushes := rfl
@[simp] theorem modPort_latchFlight (s : State) (n : Nat) (v : Port → Port) : (modPort s n v).latchFlight = s.latchFlight := rfl
@[simp] theorem modPort_tallies (s : State) (n : Nat) (v : Port → Port) : (modPort s n v).tallies = s.tallies := rfl
@[simp] theorem modPort_spanLateDrops (s : State) (n : Nat) (v : Port → Port) : (modPort s n v).spanLateDrops = s.spanLateDrops := rfl
@[simp] theorem modPort_array (s : State) (n : Nat) (v : Port → Port) : (modPort s n v).array = s.array := rfl
@[simp] theorem modPort_stackMap (s : State) (n : Nat) (v : Port → Port) : (modPort s n v).stackMap = s.stackMap := rfl
@[simp] theorem modPort_regs (s : State) (n : Nat) (v : Port → Port) : (modPort s n v).regs = s.regs := rfl
@[simp] theorem modPort_regWait (s : State) (n : Nat) (v : Port → Port) : (modPort s n v).regWait = s.regWait := rfl
@[simp] theorem modPort_directory (s : State) (n : Nat) (v : Port → Port) : (modPort s n v).directory = s.directory := rfl
@[simp] theorem modPort_unrepaired (s : State) (n : Nat) (v : Port → Port) : (modPort s n v).unrepaired = s.unrepaired := rfl
@[simp] theorem modPort_refetches (s : State) (n : Nat) (v : Port → Port) : (modPort s n v).refetches = s.refetches := rfl
@[simp] theorem modPort_loader (s : State) (n : Nat) (v : Port → Port) : (modPort s n v).loader = s.loader := rfl
@[simp] theorem modPort_gen (s : State) (n : Nat) (v : Port → Port) : (modPort s n v).gen = s.gen := rfl
@[simp] theorem modPort_genLateDrops (s : State) (n : Nat) (v : Port → Port) : (modPort s n v).genLateDrops = s.genLateDrops := rfl
@[simp] theorem modPort_quarThreshold (s : State) (n : Nat) (v : Port → Port) : (modPort s n v).quarThreshold = s.quarThreshold := rfl
@[simp] theorem modPort_routes (s : State) (n : Nat) (v : Port → Port) : (modPort s n v).routes = s.routes := rfl
@[simp] theorem modPort_routesPending (s : State) (n : Nat) (v : Port → Port) : (modPort s n v).routesPending = s.routesPending := rfl
@[simp] theorem modPort_lastRound (s : State) (n : Nat) (v : Port → Port) : (modPort s n v).lastRound = s.lastRound := rfl
@[simp] theorem modPort_fabOut (s : State) (n : Nat) (v : Port → Port) : (modPort s n v).fabOut = s.fabOut := rfl
@[simp] theorem modPort_flitOut (s : State) (n : Nat) (v : Port → Port) : (modPort s n v).flitOut = s.flitOut := rfl
@[simp] theorem modPort_mctpParts (s : State) (n : Nat) (v : Port → Port) : (modPort s n v).mctpParts = s.mctpParts := rfl
@[simp] theorem modPort_fabTags (s : State) (n : Nat) (v : Port → Port) : (modPort s n v).fabTags = s.fabTags := rfl
@[simp] theorem modPort_fabTag (s : State) (n : Nat) (v : Port → Port) : (modPort s n v).fabTag = s.fabTag := rfl
@[simp] theorem modPort_channels (s : State) (n : Nat) (v : Port → Port) : (modPort s n v).channels = s.channels := rfl
@[simp] theorem modPort_sessions (s : State) (n : Nat) (v : Port → Port) : (modPort s n v).sessions = s.sessions := rfl
@[simp] theorem modPort_admitNext (s : State) (n : Nat) (v : Port → Port) : (modPort s n v).admitNext = s.admitNext := rfl
@[simp] theorem modPort_tables (s : State) (n : Nat) (v : Port → Port) : (modPort s n v).tables = s.tables := rfl
@[simp] theorem modPort_rounds (s : State) (n : Nat) (v : Port → Port) : (modPort s n v).rounds = s.rounds := rfl
@[simp] theorem modPort_cache (s : State) (n : Nat) (v : Port → Port) : (modPort s n v).cache = s.cache := rfl
@[simp] theorem modPort_host (s : State) (n : Nat) (v : Port → Port) : (modPort s n v).host = s.host := rfl
@[simp] theorem modPort_replies (s : State) (n : Nat) (v : Port → Port) : (modPort s n v).replies = s.replies := rfl
@[simp] theorem modPort_background (s : State) (n : Nat) (v : Port → Port) : (modPort s n v).background = s.background := rfl
@[simp] theorem modPort_logs (s : State) (n : Nat) (v : Port → Port) : (modPort s n v).logs = s.logs := rfl
@[simp] theorem modPort_seqs (s : State) (n : Nat) (v : Port → Port) : (modPort s n v).seqs = s.seqs := rfl
@[simp] theorem modPort_meter (s : State) (n : Nat) (v : Port → Port) : (modPort s n v).meter = s.meter := rfl
@[simp] theorem modPort_meterHi (s : State) (n : Nat) (v : Port → Port) : (modPort s n v).meterHi = s.meterHi := rfl
@[simp] theorem modPort_talHi (s : State) (n : Nat) (v : Port → Port) : (modPort s n v).talHi = s.talHi := rfl
@[simp] theorem modPort_ringOsc (s : State) (n : Nat) (v : Port → Port) : (modPort s n v).ringOsc = s.ringOsc := rfl
@[simp] theorem modPort_deadlines (s : State) (n : Nat) (v : Port → Port) : (modPort s n v).deadlines = s.deadlines := rfl
@[simp] theorem modPort_refLostSeen (s : State) (n : Nat) (v : Port → Port) : (modPort s n v).refLostSeen = s.refLostSeen := rfl
@[simp] theorem modPort_pace (s : State) (n : Nat) (v : Port → Port) : (modPort s n v).pace = s.pace := rfl
@[simp] theorem modPort_power (s : State) (n : Nat) (v : Port → Port) : (modPort s n v).power = s.power := rfl
@[simp] theorem modPort_ctl (s : State) (n : Nat) (v : Port → Port) : (modPort s n v).ctl = s.ctl := rfl
@[simp] theorem modPort_sec (s : State) (n : Nat) (v : Port → Port) : (modPort s n v).sec = s.sec := rfl

/-! ### Chan -/

theorem getChan_setChan_same (s : State) (n : Nat) (v : Channel) (h : swf Channel.free s.channels = true) : getChan (setChan s n v) n = v :=
  sget_sput_same Channel.free _ n v h
theorem getChan_setChan_of_ne (s : State) (n : Nat) (v : Channel) (h : v ≠ Channel.free) : getChan (setChan s n v) n = v :=
  sget_sput_same_of_ne Channel.free _ n v h
@[simp] theorem getChan_setChan_other (s : State) (n m : Nat) (v : Channel) (h : m ≠ n) : getChan (setChan s n v) m = getChan s m :=
  sget_sput_other Channel.free _ n m v h
theorem swf_setChan (s : State) (n : Nat) (v : Channel) (h : swf Channel.free s.channels = true) : swf Channel.free (setChan s n v).channels = true :=
  swf_sput Channel.free _ n v h
@[simp] theorem setChan_pending (s : State) (n : Nat) (v : Channel) : (setChan s n v).pending = s.pending := rfl
@[simp] theorem setChan_freeNext (s : State) (n : Nat) (v : Channel) : (setChan s n v).freeNext = s.freeNext := rfl
@[simp] theorem setChan_cores (s : State) (n : Nat) (v : Channel) : (setChan s n v).cores = s.cores := rfl
@[simp] theorem setChan_kitty (s : State) (n : Nat) (v : Channel) : (setChan s n v).kitty = s.kitty := rfl
@[simp] theorem setChan_repairMap (s : State) (n : Nat) (v : Channel) : (setChan s n v).repairMap = s.repairMap := rfl
@[simp] theorem setChan_retiredCores (s : State) (n : Nat) (v : Channel) : (setChan s n v).retiredCores = s.retiredCores := rfl
@[simp] theorem setChan_badCores (s : State) (n : Nat) (v : Channel) : (setChan s n v).badCores = s.badCores := rfl
@[simp] theorem setChan_paths (s : State) (n : Nat) (v : Channel) : (setChan s n v).paths = s.paths := rfl
@[simp] theorem setChan_pathReplays (s : State) (n : Nat) (v : Channel) : (setChan s n v).pathReplays = s.pathReplays := rfl
@[simp] theorem setChan_lanesSpared (s : State) (n : Nat) (v : Channel) : (setChan s n v).lanesSpared = s.lanesSpared := rfl
@[simp] theorem setChan_pathsFailed (s : State) (n : Nat) (v : Channel) : (setChan s n v).pathsFailed = s.pathsFailed := rfl
@[simp] theorem setChan_tricks (s : State) (n : Nat) (v : Channel) : (setChan s n v).tricks = s.tricks := rfl
@[simp] theorem setChan_known (s : State) (n : Nat) (v : Channel) : (setChan s n v).known = s.known := rfl
@[simp] theorem setChan_clusterPlays (s : State) (n : Nat) (v : Channel) : (setChan s n v).clusterPlays = s.clusterPlays := rfl
@[simp] theorem setChan_arrives (s : State) (n : Nat) (v : Channel) : (setChan s n v).arrives = s.arrives := rfl
@[simp] theorem setChan_releases (s : State) (n : Nat) (v : Channel) : (setChan s n v).releases = s.releases := rfl
@[simp] theorem setChan_streams (s : State) (n : Nat) (v : Channel) : (setChan s n v).streams = s.streams := rfl
@[simp] theorem setChan_creditFlight (s : State) (n : Nat) (v : Channel) : (setChan s n v).creditFlight = s.creditFlight := rfl
@[simp] theorem setChan_pushes (s : State) (n : Nat) (v : Channel) : (setChan s n v).pushes = s.pushes := rfl
@[simp] theorem setChan_latchFlight (s : State) (n : Nat) (v : Channel) : (setChan s n v).latchFlight = s.latchFlight := rfl
@[simp] theorem setChan_tallies (s : State) (n : Nat) (v : Channel) : (setChan s n v).tallies = s.tallies := rfl
@[simp] theorem setChan_spanLateDrops (s : State) (n : Nat) (v : Channel) : (setChan s n v).spanLateDrops = s.spanLateDrops := rfl
@[simp] theorem setChan_array (s : State) (n : Nat) (v : Channel) : (setChan s n v).array = s.array := rfl
@[simp] theorem setChan_stackMap (s : State) (n : Nat) (v : Channel) : (setChan s n v).stackMap = s.stackMap := rfl
@[simp] theorem setChan_regs (s : State) (n : Nat) (v : Channel) : (setChan s n v).regs = s.regs := rfl
@[simp] theorem setChan_regWait (s : State) (n : Nat) (v : Channel) : (setChan s n v).regWait = s.regWait := rfl
@[simp] theorem setChan_directory (s : State) (n : Nat) (v : Channel) : (setChan s n v).directory = s.directory := rfl
@[simp] theorem setChan_unrepaired (s : State) (n : Nat) (v : Channel) : (setChan s n v).unrepaired = s.unrepaired := rfl
@[simp] theorem setChan_refetches (s : State) (n : Nat) (v : Channel) : (setChan s n v).refetches = s.refetches := rfl
@[simp] theorem setChan_loader (s : State) (n : Nat) (v : Channel) : (setChan s n v).loader = s.loader := rfl
@[simp] theorem setChan_ports (s : State) (n : Nat) (v : Channel) : (setChan s n v).ports = s.ports := rfl
@[simp] theorem setChan_gen (s : State) (n : Nat) (v : Channel) : (setChan s n v).gen = s.gen := rfl
@[simp] theorem setChan_genLateDrops (s : State) (n : Nat) (v : Channel) : (setChan s n v).genLateDrops = s.genLateDrops := rfl
@[simp] theorem setChan_quarThreshold (s : State) (n : Nat) (v : Channel) : (setChan s n v).quarThreshold = s.quarThreshold := rfl
@[simp] theorem setChan_routes (s : State) (n : Nat) (v : Channel) : (setChan s n v).routes = s.routes := rfl
@[simp] theorem setChan_routesPending (s : State) (n : Nat) (v : Channel) : (setChan s n v).routesPending = s.routesPending := rfl
@[simp] theorem setChan_lastRound (s : State) (n : Nat) (v : Channel) : (setChan s n v).lastRound = s.lastRound := rfl
@[simp] theorem setChan_fabOut (s : State) (n : Nat) (v : Channel) : (setChan s n v).fabOut = s.fabOut := rfl
@[simp] theorem setChan_flitOut (s : State) (n : Nat) (v : Channel) : (setChan s n v).flitOut = s.flitOut := rfl
@[simp] theorem setChan_mctpParts (s : State) (n : Nat) (v : Channel) : (setChan s n v).mctpParts = s.mctpParts := rfl
@[simp] theorem setChan_fabTags (s : State) (n : Nat) (v : Channel) : (setChan s n v).fabTags = s.fabTags := rfl
@[simp] theorem setChan_fabTag (s : State) (n : Nat) (v : Channel) : (setChan s n v).fabTag = s.fabTag := rfl
@[simp] theorem setChan_sessions (s : State) (n : Nat) (v : Channel) : (setChan s n v).sessions = s.sessions := rfl
@[simp] theorem setChan_admitNext (s : State) (n : Nat) (v : Channel) : (setChan s n v).admitNext = s.admitNext := rfl
@[simp] theorem setChan_tables (s : State) (n : Nat) (v : Channel) : (setChan s n v).tables = s.tables := rfl
@[simp] theorem setChan_rounds (s : State) (n : Nat) (v : Channel) : (setChan s n v).rounds = s.rounds := rfl
@[simp] theorem setChan_cache (s : State) (n : Nat) (v : Channel) : (setChan s n v).cache = s.cache := rfl
@[simp] theorem setChan_host (s : State) (n : Nat) (v : Channel) : (setChan s n v).host = s.host := rfl
@[simp] theorem setChan_replies (s : State) (n : Nat) (v : Channel) : (setChan s n v).replies = s.replies := rfl
@[simp] theorem setChan_background (s : State) (n : Nat) (v : Channel) : (setChan s n v).background = s.background := rfl
@[simp] theorem setChan_logs (s : State) (n : Nat) (v : Channel) : (setChan s n v).logs = s.logs := rfl
@[simp] theorem setChan_seqs (s : State) (n : Nat) (v : Channel) : (setChan s n v).seqs = s.seqs := rfl
@[simp] theorem setChan_meter (s : State) (n : Nat) (v : Channel) : (setChan s n v).meter = s.meter := rfl
@[simp] theorem setChan_meterHi (s : State) (n : Nat) (v : Channel) : (setChan s n v).meterHi = s.meterHi := rfl
@[simp] theorem setChan_talHi (s : State) (n : Nat) (v : Channel) : (setChan s n v).talHi = s.talHi := rfl
@[simp] theorem setChan_ringOsc (s : State) (n : Nat) (v : Channel) : (setChan s n v).ringOsc = s.ringOsc := rfl
@[simp] theorem setChan_deadlines (s : State) (n : Nat) (v : Channel) : (setChan s n v).deadlines = s.deadlines := rfl
@[simp] theorem setChan_refLostSeen (s : State) (n : Nat) (v : Channel) : (setChan s n v).refLostSeen = s.refLostSeen := rfl
@[simp] theorem setChan_pace (s : State) (n : Nat) (v : Channel) : (setChan s n v).pace = s.pace := rfl
@[simp] theorem setChan_power (s : State) (n : Nat) (v : Channel) : (setChan s n v).power = s.power := rfl
@[simp] theorem setChan_ctl (s : State) (n : Nat) (v : Channel) : (setChan s n v).ctl = s.ctl := rfl
@[simp] theorem setChan_sec (s : State) (n : Nat) (v : Channel) : (setChan s n v).sec = s.sec := rfl
@[simp] theorem modChan_pending (s : State) (n : Nat) (v : Channel → Channel) : (modChan s n v).pending = s.pending := rfl
@[simp] theorem modChan_freeNext (s : State) (n : Nat) (v : Channel → Channel) : (modChan s n v).freeNext = s.freeNext := rfl
@[simp] theorem modChan_cores (s : State) (n : Nat) (v : Channel → Channel) : (modChan s n v).cores = s.cores := rfl
@[simp] theorem modChan_kitty (s : State) (n : Nat) (v : Channel → Channel) : (modChan s n v).kitty = s.kitty := rfl
@[simp] theorem modChan_repairMap (s : State) (n : Nat) (v : Channel → Channel) : (modChan s n v).repairMap = s.repairMap := rfl
@[simp] theorem modChan_retiredCores (s : State) (n : Nat) (v : Channel → Channel) : (modChan s n v).retiredCores = s.retiredCores := rfl
@[simp] theorem modChan_badCores (s : State) (n : Nat) (v : Channel → Channel) : (modChan s n v).badCores = s.badCores := rfl
@[simp] theorem modChan_paths (s : State) (n : Nat) (v : Channel → Channel) : (modChan s n v).paths = s.paths := rfl
@[simp] theorem modChan_pathReplays (s : State) (n : Nat) (v : Channel → Channel) : (modChan s n v).pathReplays = s.pathReplays := rfl
@[simp] theorem modChan_lanesSpared (s : State) (n : Nat) (v : Channel → Channel) : (modChan s n v).lanesSpared = s.lanesSpared := rfl
@[simp] theorem modChan_pathsFailed (s : State) (n : Nat) (v : Channel → Channel) : (modChan s n v).pathsFailed = s.pathsFailed := rfl
@[simp] theorem modChan_tricks (s : State) (n : Nat) (v : Channel → Channel) : (modChan s n v).tricks = s.tricks := rfl
@[simp] theorem modChan_known (s : State) (n : Nat) (v : Channel → Channel) : (modChan s n v).known = s.known := rfl
@[simp] theorem modChan_clusterPlays (s : State) (n : Nat) (v : Channel → Channel) : (modChan s n v).clusterPlays = s.clusterPlays := rfl
@[simp] theorem modChan_arrives (s : State) (n : Nat) (v : Channel → Channel) : (modChan s n v).arrives = s.arrives := rfl
@[simp] theorem modChan_releases (s : State) (n : Nat) (v : Channel → Channel) : (modChan s n v).releases = s.releases := rfl
@[simp] theorem modChan_streams (s : State) (n : Nat) (v : Channel → Channel) : (modChan s n v).streams = s.streams := rfl
@[simp] theorem modChan_creditFlight (s : State) (n : Nat) (v : Channel → Channel) : (modChan s n v).creditFlight = s.creditFlight := rfl
@[simp] theorem modChan_pushes (s : State) (n : Nat) (v : Channel → Channel) : (modChan s n v).pushes = s.pushes := rfl
@[simp] theorem modChan_latchFlight (s : State) (n : Nat) (v : Channel → Channel) : (modChan s n v).latchFlight = s.latchFlight := rfl
@[simp] theorem modChan_tallies (s : State) (n : Nat) (v : Channel → Channel) : (modChan s n v).tallies = s.tallies := rfl
@[simp] theorem modChan_spanLateDrops (s : State) (n : Nat) (v : Channel → Channel) : (modChan s n v).spanLateDrops = s.spanLateDrops := rfl
@[simp] theorem modChan_array (s : State) (n : Nat) (v : Channel → Channel) : (modChan s n v).array = s.array := rfl
@[simp] theorem modChan_stackMap (s : State) (n : Nat) (v : Channel → Channel) : (modChan s n v).stackMap = s.stackMap := rfl
@[simp] theorem modChan_regs (s : State) (n : Nat) (v : Channel → Channel) : (modChan s n v).regs = s.regs := rfl
@[simp] theorem modChan_regWait (s : State) (n : Nat) (v : Channel → Channel) : (modChan s n v).regWait = s.regWait := rfl
@[simp] theorem modChan_directory (s : State) (n : Nat) (v : Channel → Channel) : (modChan s n v).directory = s.directory := rfl
@[simp] theorem modChan_unrepaired (s : State) (n : Nat) (v : Channel → Channel) : (modChan s n v).unrepaired = s.unrepaired := rfl
@[simp] theorem modChan_refetches (s : State) (n : Nat) (v : Channel → Channel) : (modChan s n v).refetches = s.refetches := rfl
@[simp] theorem modChan_loader (s : State) (n : Nat) (v : Channel → Channel) : (modChan s n v).loader = s.loader := rfl
@[simp] theorem modChan_ports (s : State) (n : Nat) (v : Channel → Channel) : (modChan s n v).ports = s.ports := rfl
@[simp] theorem modChan_gen (s : State) (n : Nat) (v : Channel → Channel) : (modChan s n v).gen = s.gen := rfl
@[simp] theorem modChan_genLateDrops (s : State) (n : Nat) (v : Channel → Channel) : (modChan s n v).genLateDrops = s.genLateDrops := rfl
@[simp] theorem modChan_quarThreshold (s : State) (n : Nat) (v : Channel → Channel) : (modChan s n v).quarThreshold = s.quarThreshold := rfl
@[simp] theorem modChan_routes (s : State) (n : Nat) (v : Channel → Channel) : (modChan s n v).routes = s.routes := rfl
@[simp] theorem modChan_routesPending (s : State) (n : Nat) (v : Channel → Channel) : (modChan s n v).routesPending = s.routesPending := rfl
@[simp] theorem modChan_lastRound (s : State) (n : Nat) (v : Channel → Channel) : (modChan s n v).lastRound = s.lastRound := rfl
@[simp] theorem modChan_fabOut (s : State) (n : Nat) (v : Channel → Channel) : (modChan s n v).fabOut = s.fabOut := rfl
@[simp] theorem modChan_flitOut (s : State) (n : Nat) (v : Channel → Channel) : (modChan s n v).flitOut = s.flitOut := rfl
@[simp] theorem modChan_mctpParts (s : State) (n : Nat) (v : Channel → Channel) : (modChan s n v).mctpParts = s.mctpParts := rfl
@[simp] theorem modChan_fabTags (s : State) (n : Nat) (v : Channel → Channel) : (modChan s n v).fabTags = s.fabTags := rfl
@[simp] theorem modChan_fabTag (s : State) (n : Nat) (v : Channel → Channel) : (modChan s n v).fabTag = s.fabTag := rfl
@[simp] theorem modChan_sessions (s : State) (n : Nat) (v : Channel → Channel) : (modChan s n v).sessions = s.sessions := rfl
@[simp] theorem modChan_admitNext (s : State) (n : Nat) (v : Channel → Channel) : (modChan s n v).admitNext = s.admitNext := rfl
@[simp] theorem modChan_tables (s : State) (n : Nat) (v : Channel → Channel) : (modChan s n v).tables = s.tables := rfl
@[simp] theorem modChan_rounds (s : State) (n : Nat) (v : Channel → Channel) : (modChan s n v).rounds = s.rounds := rfl
@[simp] theorem modChan_cache (s : State) (n : Nat) (v : Channel → Channel) : (modChan s n v).cache = s.cache := rfl
@[simp] theorem modChan_host (s : State) (n : Nat) (v : Channel → Channel) : (modChan s n v).host = s.host := rfl
@[simp] theorem modChan_replies (s : State) (n : Nat) (v : Channel → Channel) : (modChan s n v).replies = s.replies := rfl
@[simp] theorem modChan_background (s : State) (n : Nat) (v : Channel → Channel) : (modChan s n v).background = s.background := rfl
@[simp] theorem modChan_logs (s : State) (n : Nat) (v : Channel → Channel) : (modChan s n v).logs = s.logs := rfl
@[simp] theorem modChan_seqs (s : State) (n : Nat) (v : Channel → Channel) : (modChan s n v).seqs = s.seqs := rfl
@[simp] theorem modChan_meter (s : State) (n : Nat) (v : Channel → Channel) : (modChan s n v).meter = s.meter := rfl
@[simp] theorem modChan_meterHi (s : State) (n : Nat) (v : Channel → Channel) : (modChan s n v).meterHi = s.meterHi := rfl
@[simp] theorem modChan_talHi (s : State) (n : Nat) (v : Channel → Channel) : (modChan s n v).talHi = s.talHi := rfl
@[simp] theorem modChan_ringOsc (s : State) (n : Nat) (v : Channel → Channel) : (modChan s n v).ringOsc = s.ringOsc := rfl
@[simp] theorem modChan_deadlines (s : State) (n : Nat) (v : Channel → Channel) : (modChan s n v).deadlines = s.deadlines := rfl
@[simp] theorem modChan_refLostSeen (s : State) (n : Nat) (v : Channel → Channel) : (modChan s n v).refLostSeen = s.refLostSeen := rfl
@[simp] theorem modChan_pace (s : State) (n : Nat) (v : Channel → Channel) : (modChan s n v).pace = s.pace := rfl
@[simp] theorem modChan_power (s : State) (n : Nat) (v : Channel → Channel) : (modChan s n v).power = s.power := rfl
@[simp] theorem modChan_ctl (s : State) (n : Nat) (v : Channel → Channel) : (modChan s n v).ctl = s.ctl := rfl
@[simp] theorem modChan_sec (s : State) (n : Nat) (v : Channel → Channel) : (modChan s n v).sec = s.sec := rfl

/-! ### Sess -/

theorem getSess_setSess_same (s : State) (n : Nat) (v : Session) (h : swf Session.free s.sessions = true) : getSess (setSess s n v) n = v :=
  sget_sput_same Session.free _ n v h
theorem getSess_setSess_of_ne (s : State) (n : Nat) (v : Session) (h : v ≠ Session.free) : getSess (setSess s n v) n = v :=
  sget_sput_same_of_ne Session.free _ n v h
@[simp] theorem getSess_setSess_other (s : State) (n m : Nat) (v : Session) (h : m ≠ n) : getSess (setSess s n v) m = getSess s m :=
  sget_sput_other Session.free _ n m v h
theorem swf_setSess (s : State) (n : Nat) (v : Session) (h : swf Session.free s.sessions = true) : swf Session.free (setSess s n v).sessions = true :=
  swf_sput Session.free _ n v h
@[simp] theorem setSess_pending (s : State) (n : Nat) (v : Session) : (setSess s n v).pending = s.pending := rfl
@[simp] theorem setSess_freeNext (s : State) (n : Nat) (v : Session) : (setSess s n v).freeNext = s.freeNext := rfl
@[simp] theorem setSess_cores (s : State) (n : Nat) (v : Session) : (setSess s n v).cores = s.cores := rfl
@[simp] theorem setSess_kitty (s : State) (n : Nat) (v : Session) : (setSess s n v).kitty = s.kitty := rfl
@[simp] theorem setSess_repairMap (s : State) (n : Nat) (v : Session) : (setSess s n v).repairMap = s.repairMap := rfl
@[simp] theorem setSess_retiredCores (s : State) (n : Nat) (v : Session) : (setSess s n v).retiredCores = s.retiredCores := rfl
@[simp] theorem setSess_badCores (s : State) (n : Nat) (v : Session) : (setSess s n v).badCores = s.badCores := rfl
@[simp] theorem setSess_paths (s : State) (n : Nat) (v : Session) : (setSess s n v).paths = s.paths := rfl
@[simp] theorem setSess_pathReplays (s : State) (n : Nat) (v : Session) : (setSess s n v).pathReplays = s.pathReplays := rfl
@[simp] theorem setSess_lanesSpared (s : State) (n : Nat) (v : Session) : (setSess s n v).lanesSpared = s.lanesSpared := rfl
@[simp] theorem setSess_pathsFailed (s : State) (n : Nat) (v : Session) : (setSess s n v).pathsFailed = s.pathsFailed := rfl
@[simp] theorem setSess_tricks (s : State) (n : Nat) (v : Session) : (setSess s n v).tricks = s.tricks := rfl
@[simp] theorem setSess_known (s : State) (n : Nat) (v : Session) : (setSess s n v).known = s.known := rfl
@[simp] theorem setSess_clusterPlays (s : State) (n : Nat) (v : Session) : (setSess s n v).clusterPlays = s.clusterPlays := rfl
@[simp] theorem setSess_arrives (s : State) (n : Nat) (v : Session) : (setSess s n v).arrives = s.arrives := rfl
@[simp] theorem setSess_releases (s : State) (n : Nat) (v : Session) : (setSess s n v).releases = s.releases := rfl
@[simp] theorem setSess_streams (s : State) (n : Nat) (v : Session) : (setSess s n v).streams = s.streams := rfl
@[simp] theorem setSess_creditFlight (s : State) (n : Nat) (v : Session) : (setSess s n v).creditFlight = s.creditFlight := rfl
@[simp] theorem setSess_pushes (s : State) (n : Nat) (v : Session) : (setSess s n v).pushes = s.pushes := rfl
@[simp] theorem setSess_latchFlight (s : State) (n : Nat) (v : Session) : (setSess s n v).latchFlight = s.latchFlight := rfl
@[simp] theorem setSess_tallies (s : State) (n : Nat) (v : Session) : (setSess s n v).tallies = s.tallies := rfl
@[simp] theorem setSess_spanLateDrops (s : State) (n : Nat) (v : Session) : (setSess s n v).spanLateDrops = s.spanLateDrops := rfl
@[simp] theorem setSess_array (s : State) (n : Nat) (v : Session) : (setSess s n v).array = s.array := rfl
@[simp] theorem setSess_stackMap (s : State) (n : Nat) (v : Session) : (setSess s n v).stackMap = s.stackMap := rfl
@[simp] theorem setSess_regs (s : State) (n : Nat) (v : Session) : (setSess s n v).regs = s.regs := rfl
@[simp] theorem setSess_regWait (s : State) (n : Nat) (v : Session) : (setSess s n v).regWait = s.regWait := rfl
@[simp] theorem setSess_directory (s : State) (n : Nat) (v : Session) : (setSess s n v).directory = s.directory := rfl
@[simp] theorem setSess_unrepaired (s : State) (n : Nat) (v : Session) : (setSess s n v).unrepaired = s.unrepaired := rfl
@[simp] theorem setSess_refetches (s : State) (n : Nat) (v : Session) : (setSess s n v).refetches = s.refetches := rfl
@[simp] theorem setSess_loader (s : State) (n : Nat) (v : Session) : (setSess s n v).loader = s.loader := rfl
@[simp] theorem setSess_ports (s : State) (n : Nat) (v : Session) : (setSess s n v).ports = s.ports := rfl
@[simp] theorem setSess_gen (s : State) (n : Nat) (v : Session) : (setSess s n v).gen = s.gen := rfl
@[simp] theorem setSess_genLateDrops (s : State) (n : Nat) (v : Session) : (setSess s n v).genLateDrops = s.genLateDrops := rfl
@[simp] theorem setSess_quarThreshold (s : State) (n : Nat) (v : Session) : (setSess s n v).quarThreshold = s.quarThreshold := rfl
@[simp] theorem setSess_routes (s : State) (n : Nat) (v : Session) : (setSess s n v).routes = s.routes := rfl
@[simp] theorem setSess_routesPending (s : State) (n : Nat) (v : Session) : (setSess s n v).routesPending = s.routesPending := rfl
@[simp] theorem setSess_lastRound (s : State) (n : Nat) (v : Session) : (setSess s n v).lastRound = s.lastRound := rfl
@[simp] theorem setSess_fabOut (s : State) (n : Nat) (v : Session) : (setSess s n v).fabOut = s.fabOut := rfl
@[simp] theorem setSess_flitOut (s : State) (n : Nat) (v : Session) : (setSess s n v).flitOut = s.flitOut := rfl
@[simp] theorem setSess_mctpParts (s : State) (n : Nat) (v : Session) : (setSess s n v).mctpParts = s.mctpParts := rfl
@[simp] theorem setSess_fabTags (s : State) (n : Nat) (v : Session) : (setSess s n v).fabTags = s.fabTags := rfl
@[simp] theorem setSess_fabTag (s : State) (n : Nat) (v : Session) : (setSess s n v).fabTag = s.fabTag := rfl
@[simp] theorem setSess_channels (s : State) (n : Nat) (v : Session) : (setSess s n v).channels = s.channels := rfl
@[simp] theorem setSess_admitNext (s : State) (n : Nat) (v : Session) : (setSess s n v).admitNext = s.admitNext := rfl
@[simp] theorem setSess_tables (s : State) (n : Nat) (v : Session) : (setSess s n v).tables = s.tables := rfl
@[simp] theorem setSess_rounds (s : State) (n : Nat) (v : Session) : (setSess s n v).rounds = s.rounds := rfl
@[simp] theorem setSess_cache (s : State) (n : Nat) (v : Session) : (setSess s n v).cache = s.cache := rfl
@[simp] theorem setSess_host (s : State) (n : Nat) (v : Session) : (setSess s n v).host = s.host := rfl
@[simp] theorem setSess_replies (s : State) (n : Nat) (v : Session) : (setSess s n v).replies = s.replies := rfl
@[simp] theorem setSess_background (s : State) (n : Nat) (v : Session) : (setSess s n v).background = s.background := rfl
@[simp] theorem setSess_logs (s : State) (n : Nat) (v : Session) : (setSess s n v).logs = s.logs := rfl
@[simp] theorem setSess_seqs (s : State) (n : Nat) (v : Session) : (setSess s n v).seqs = s.seqs := rfl
@[simp] theorem setSess_meter (s : State) (n : Nat) (v : Session) : (setSess s n v).meter = s.meter := rfl
@[simp] theorem setSess_meterHi (s : State) (n : Nat) (v : Session) : (setSess s n v).meterHi = s.meterHi := rfl
@[simp] theorem setSess_talHi (s : State) (n : Nat) (v : Session) : (setSess s n v).talHi = s.talHi := rfl
@[simp] theorem setSess_ringOsc (s : State) (n : Nat) (v : Session) : (setSess s n v).ringOsc = s.ringOsc := rfl
@[simp] theorem setSess_deadlines (s : State) (n : Nat) (v : Session) : (setSess s n v).deadlines = s.deadlines := rfl
@[simp] theorem setSess_refLostSeen (s : State) (n : Nat) (v : Session) : (setSess s n v).refLostSeen = s.refLostSeen := rfl
@[simp] theorem setSess_pace (s : State) (n : Nat) (v : Session) : (setSess s n v).pace = s.pace := rfl
@[simp] theorem setSess_power (s : State) (n : Nat) (v : Session) : (setSess s n v).power = s.power := rfl
@[simp] theorem setSess_ctl (s : State) (n : Nat) (v : Session) : (setSess s n v).ctl = s.ctl := rfl
@[simp] theorem setSess_sec (s : State) (n : Nat) (v : Session) : (setSess s n v).sec = s.sec := rfl
@[simp] theorem modSess_pending (s : State) (n : Nat) (v : Session → Session) : (modSess s n v).pending = s.pending := rfl
@[simp] theorem modSess_freeNext (s : State) (n : Nat) (v : Session → Session) : (modSess s n v).freeNext = s.freeNext := rfl
@[simp] theorem modSess_cores (s : State) (n : Nat) (v : Session → Session) : (modSess s n v).cores = s.cores := rfl
@[simp] theorem modSess_kitty (s : State) (n : Nat) (v : Session → Session) : (modSess s n v).kitty = s.kitty := rfl
@[simp] theorem modSess_repairMap (s : State) (n : Nat) (v : Session → Session) : (modSess s n v).repairMap = s.repairMap := rfl
@[simp] theorem modSess_retiredCores (s : State) (n : Nat) (v : Session → Session) : (modSess s n v).retiredCores = s.retiredCores := rfl
@[simp] theorem modSess_badCores (s : State) (n : Nat) (v : Session → Session) : (modSess s n v).badCores = s.badCores := rfl
@[simp] theorem modSess_paths (s : State) (n : Nat) (v : Session → Session) : (modSess s n v).paths = s.paths := rfl
@[simp] theorem modSess_pathReplays (s : State) (n : Nat) (v : Session → Session) : (modSess s n v).pathReplays = s.pathReplays := rfl
@[simp] theorem modSess_lanesSpared (s : State) (n : Nat) (v : Session → Session) : (modSess s n v).lanesSpared = s.lanesSpared := rfl
@[simp] theorem modSess_pathsFailed (s : State) (n : Nat) (v : Session → Session) : (modSess s n v).pathsFailed = s.pathsFailed := rfl
@[simp] theorem modSess_tricks (s : State) (n : Nat) (v : Session → Session) : (modSess s n v).tricks = s.tricks := rfl
@[simp] theorem modSess_known (s : State) (n : Nat) (v : Session → Session) : (modSess s n v).known = s.known := rfl
@[simp] theorem modSess_clusterPlays (s : State) (n : Nat) (v : Session → Session) : (modSess s n v).clusterPlays = s.clusterPlays := rfl
@[simp] theorem modSess_arrives (s : State) (n : Nat) (v : Session → Session) : (modSess s n v).arrives = s.arrives := rfl
@[simp] theorem modSess_releases (s : State) (n : Nat) (v : Session → Session) : (modSess s n v).releases = s.releases := rfl
@[simp] theorem modSess_streams (s : State) (n : Nat) (v : Session → Session) : (modSess s n v).streams = s.streams := rfl
@[simp] theorem modSess_creditFlight (s : State) (n : Nat) (v : Session → Session) : (modSess s n v).creditFlight = s.creditFlight := rfl
@[simp] theorem modSess_pushes (s : State) (n : Nat) (v : Session → Session) : (modSess s n v).pushes = s.pushes := rfl
@[simp] theorem modSess_latchFlight (s : State) (n : Nat) (v : Session → Session) : (modSess s n v).latchFlight = s.latchFlight := rfl
@[simp] theorem modSess_tallies (s : State) (n : Nat) (v : Session → Session) : (modSess s n v).tallies = s.tallies := rfl
@[simp] theorem modSess_spanLateDrops (s : State) (n : Nat) (v : Session → Session) : (modSess s n v).spanLateDrops = s.spanLateDrops := rfl
@[simp] theorem modSess_array (s : State) (n : Nat) (v : Session → Session) : (modSess s n v).array = s.array := rfl
@[simp] theorem modSess_stackMap (s : State) (n : Nat) (v : Session → Session) : (modSess s n v).stackMap = s.stackMap := rfl
@[simp] theorem modSess_regs (s : State) (n : Nat) (v : Session → Session) : (modSess s n v).regs = s.regs := rfl
@[simp] theorem modSess_regWait (s : State) (n : Nat) (v : Session → Session) : (modSess s n v).regWait = s.regWait := rfl
@[simp] theorem modSess_directory (s : State) (n : Nat) (v : Session → Session) : (modSess s n v).directory = s.directory := rfl
@[simp] theorem modSess_unrepaired (s : State) (n : Nat) (v : Session → Session) : (modSess s n v).unrepaired = s.unrepaired := rfl
@[simp] theorem modSess_refetches (s : State) (n : Nat) (v : Session → Session) : (modSess s n v).refetches = s.refetches := rfl
@[simp] theorem modSess_loader (s : State) (n : Nat) (v : Session → Session) : (modSess s n v).loader = s.loader := rfl
@[simp] theorem modSess_ports (s : State) (n : Nat) (v : Session → Session) : (modSess s n v).ports = s.ports := rfl
@[simp] theorem modSess_gen (s : State) (n : Nat) (v : Session → Session) : (modSess s n v).gen = s.gen := rfl
@[simp] theorem modSess_genLateDrops (s : State) (n : Nat) (v : Session → Session) : (modSess s n v).genLateDrops = s.genLateDrops := rfl
@[simp] theorem modSess_quarThreshold (s : State) (n : Nat) (v : Session → Session) : (modSess s n v).quarThreshold = s.quarThreshold := rfl
@[simp] theorem modSess_routes (s : State) (n : Nat) (v : Session → Session) : (modSess s n v).routes = s.routes := rfl
@[simp] theorem modSess_routesPending (s : State) (n : Nat) (v : Session → Session) : (modSess s n v).routesPending = s.routesPending := rfl
@[simp] theorem modSess_lastRound (s : State) (n : Nat) (v : Session → Session) : (modSess s n v).lastRound = s.lastRound := rfl
@[simp] theorem modSess_fabOut (s : State) (n : Nat) (v : Session → Session) : (modSess s n v).fabOut = s.fabOut := rfl
@[simp] theorem modSess_flitOut (s : State) (n : Nat) (v : Session → Session) : (modSess s n v).flitOut = s.flitOut := rfl
@[simp] theorem modSess_mctpParts (s : State) (n : Nat) (v : Session → Session) : (modSess s n v).mctpParts = s.mctpParts := rfl
@[simp] theorem modSess_fabTags (s : State) (n : Nat) (v : Session → Session) : (modSess s n v).fabTags = s.fabTags := rfl
@[simp] theorem modSess_fabTag (s : State) (n : Nat) (v : Session → Session) : (modSess s n v).fabTag = s.fabTag := rfl
@[simp] theorem modSess_channels (s : State) (n : Nat) (v : Session → Session) : (modSess s n v).channels = s.channels := rfl
@[simp] theorem modSess_admitNext (s : State) (n : Nat) (v : Session → Session) : (modSess s n v).admitNext = s.admitNext := rfl
@[simp] theorem modSess_tables (s : State) (n : Nat) (v : Session → Session) : (modSess s n v).tables = s.tables := rfl
@[simp] theorem modSess_rounds (s : State) (n : Nat) (v : Session → Session) : (modSess s n v).rounds = s.rounds := rfl
@[simp] theorem modSess_cache (s : State) (n : Nat) (v : Session → Session) : (modSess s n v).cache = s.cache := rfl
@[simp] theorem modSess_host (s : State) (n : Nat) (v : Session → Session) : (modSess s n v).host = s.host := rfl
@[simp] theorem modSess_replies (s : State) (n : Nat) (v : Session → Session) : (modSess s n v).replies = s.replies := rfl
@[simp] theorem modSess_background (s : State) (n : Nat) (v : Session → Session) : (modSess s n v).background = s.background := rfl
@[simp] theorem modSess_logs (s : State) (n : Nat) (v : Session → Session) : (modSess s n v).logs = s.logs := rfl
@[simp] theorem modSess_seqs (s : State) (n : Nat) (v : Session → Session) : (modSess s n v).seqs = s.seqs := rfl
@[simp] theorem modSess_meter (s : State) (n : Nat) (v : Session → Session) : (modSess s n v).meter = s.meter := rfl
@[simp] theorem modSess_meterHi (s : State) (n : Nat) (v : Session → Session) : (modSess s n v).meterHi = s.meterHi := rfl
@[simp] theorem modSess_talHi (s : State) (n : Nat) (v : Session → Session) : (modSess s n v).talHi = s.talHi := rfl
@[simp] theorem modSess_ringOsc (s : State) (n : Nat) (v : Session → Session) : (modSess s n v).ringOsc = s.ringOsc := rfl
@[simp] theorem modSess_deadlines (s : State) (n : Nat) (v : Session → Session) : (modSess s n v).deadlines = s.deadlines := rfl
@[simp] theorem modSess_refLostSeen (s : State) (n : Nat) (v : Session → Session) : (modSess s n v).refLostSeen = s.refLostSeen := rfl
@[simp] theorem modSess_pace (s : State) (n : Nat) (v : Session → Session) : (modSess s n v).pace = s.pace := rfl
@[simp] theorem modSess_power (s : State) (n : Nat) (v : Session → Session) : (modSess s n v).power = s.power := rfl
@[simp] theorem modSess_ctl (s : State) (n : Nat) (v : Session → Session) : (modSess s n v).ctl = s.ctl := rfl
@[simp] theorem modSess_sec (s : State) (n : Nat) (v : Session → Session) : (modSess s n v).sec = s.sec := rfl

/-! ### Table -/

theorem getTable_setTable_same (s : State) (n : Nat) (v : TableRegs) (h : swf TableRegs.off s.tables = true) : getTable (setTable s n v) n = v :=
  sget_sput_same TableRegs.off _ n v h
theorem getTable_setTable_of_ne (s : State) (n : Nat) (v : TableRegs) (h : v ≠ TableRegs.off) : getTable (setTable s n v) n = v :=
  sget_sput_same_of_ne TableRegs.off _ n v h
@[simp] theorem getTable_setTable_other (s : State) (n m : Nat) (v : TableRegs) (h : m ≠ n) : getTable (setTable s n v) m = getTable s m :=
  sget_sput_other TableRegs.off _ n m v h
theorem swf_setTable (s : State) (n : Nat) (v : TableRegs) (h : swf TableRegs.off s.tables = true) : swf TableRegs.off (setTable s n v).tables = true :=
  swf_sput TableRegs.off _ n v h
@[simp] theorem setTable_pending (s : State) (n : Nat) (v : TableRegs) : (setTable s n v).pending = s.pending := rfl
@[simp] theorem setTable_freeNext (s : State) (n : Nat) (v : TableRegs) : (setTable s n v).freeNext = s.freeNext := rfl
@[simp] theorem setTable_cores (s : State) (n : Nat) (v : TableRegs) : (setTable s n v).cores = s.cores := rfl
@[simp] theorem setTable_kitty (s : State) (n : Nat) (v : TableRegs) : (setTable s n v).kitty = s.kitty := rfl
@[simp] theorem setTable_repairMap (s : State) (n : Nat) (v : TableRegs) : (setTable s n v).repairMap = s.repairMap := rfl
@[simp] theorem setTable_retiredCores (s : State) (n : Nat) (v : TableRegs) : (setTable s n v).retiredCores = s.retiredCores := rfl
@[simp] theorem setTable_badCores (s : State) (n : Nat) (v : TableRegs) : (setTable s n v).badCores = s.badCores := rfl
@[simp] theorem setTable_paths (s : State) (n : Nat) (v : TableRegs) : (setTable s n v).paths = s.paths := rfl
@[simp] theorem setTable_pathReplays (s : State) (n : Nat) (v : TableRegs) : (setTable s n v).pathReplays = s.pathReplays := rfl
@[simp] theorem setTable_lanesSpared (s : State) (n : Nat) (v : TableRegs) : (setTable s n v).lanesSpared = s.lanesSpared := rfl
@[simp] theorem setTable_pathsFailed (s : State) (n : Nat) (v : TableRegs) : (setTable s n v).pathsFailed = s.pathsFailed := rfl
@[simp] theorem setTable_tricks (s : State) (n : Nat) (v : TableRegs) : (setTable s n v).tricks = s.tricks := rfl
@[simp] theorem setTable_known (s : State) (n : Nat) (v : TableRegs) : (setTable s n v).known = s.known := rfl
@[simp] theorem setTable_clusterPlays (s : State) (n : Nat) (v : TableRegs) : (setTable s n v).clusterPlays = s.clusterPlays := rfl
@[simp] theorem setTable_arrives (s : State) (n : Nat) (v : TableRegs) : (setTable s n v).arrives = s.arrives := rfl
@[simp] theorem setTable_releases (s : State) (n : Nat) (v : TableRegs) : (setTable s n v).releases = s.releases := rfl
@[simp] theorem setTable_streams (s : State) (n : Nat) (v : TableRegs) : (setTable s n v).streams = s.streams := rfl
@[simp] theorem setTable_creditFlight (s : State) (n : Nat) (v : TableRegs) : (setTable s n v).creditFlight = s.creditFlight := rfl
@[simp] theorem setTable_pushes (s : State) (n : Nat) (v : TableRegs) : (setTable s n v).pushes = s.pushes := rfl
@[simp] theorem setTable_latchFlight (s : State) (n : Nat) (v : TableRegs) : (setTable s n v).latchFlight = s.latchFlight := rfl
@[simp] theorem setTable_tallies (s : State) (n : Nat) (v : TableRegs) : (setTable s n v).tallies = s.tallies := rfl
@[simp] theorem setTable_spanLateDrops (s : State) (n : Nat) (v : TableRegs) : (setTable s n v).spanLateDrops = s.spanLateDrops := rfl
@[simp] theorem setTable_array (s : State) (n : Nat) (v : TableRegs) : (setTable s n v).array = s.array := rfl
@[simp] theorem setTable_stackMap (s : State) (n : Nat) (v : TableRegs) : (setTable s n v).stackMap = s.stackMap := rfl
@[simp] theorem setTable_regs (s : State) (n : Nat) (v : TableRegs) : (setTable s n v).regs = s.regs := rfl
@[simp] theorem setTable_regWait (s : State) (n : Nat) (v : TableRegs) : (setTable s n v).regWait = s.regWait := rfl
@[simp] theorem setTable_directory (s : State) (n : Nat) (v : TableRegs) : (setTable s n v).directory = s.directory := rfl
@[simp] theorem setTable_unrepaired (s : State) (n : Nat) (v : TableRegs) : (setTable s n v).unrepaired = s.unrepaired := rfl
@[simp] theorem setTable_refetches (s : State) (n : Nat) (v : TableRegs) : (setTable s n v).refetches = s.refetches := rfl
@[simp] theorem setTable_loader (s : State) (n : Nat) (v : TableRegs) : (setTable s n v).loader = s.loader := rfl
@[simp] theorem setTable_ports (s : State) (n : Nat) (v : TableRegs) : (setTable s n v).ports = s.ports := rfl
@[simp] theorem setTable_gen (s : State) (n : Nat) (v : TableRegs) : (setTable s n v).gen = s.gen := rfl
@[simp] theorem setTable_genLateDrops (s : State) (n : Nat) (v : TableRegs) : (setTable s n v).genLateDrops = s.genLateDrops := rfl
@[simp] theorem setTable_quarThreshold (s : State) (n : Nat) (v : TableRegs) : (setTable s n v).quarThreshold = s.quarThreshold := rfl
@[simp] theorem setTable_routes (s : State) (n : Nat) (v : TableRegs) : (setTable s n v).routes = s.routes := rfl
@[simp] theorem setTable_routesPending (s : State) (n : Nat) (v : TableRegs) : (setTable s n v).routesPending = s.routesPending := rfl
@[simp] theorem setTable_lastRound (s : State) (n : Nat) (v : TableRegs) : (setTable s n v).lastRound = s.lastRound := rfl
@[simp] theorem setTable_fabOut (s : State) (n : Nat) (v : TableRegs) : (setTable s n v).fabOut = s.fabOut := rfl
@[simp] theorem setTable_flitOut (s : State) (n : Nat) (v : TableRegs) : (setTable s n v).flitOut = s.flitOut := rfl
@[simp] theorem setTable_mctpParts (s : State) (n : Nat) (v : TableRegs) : (setTable s n v).mctpParts = s.mctpParts := rfl
@[simp] theorem setTable_fabTags (s : State) (n : Nat) (v : TableRegs) : (setTable s n v).fabTags = s.fabTags := rfl
@[simp] theorem setTable_fabTag (s : State) (n : Nat) (v : TableRegs) : (setTable s n v).fabTag = s.fabTag := rfl
@[simp] theorem setTable_channels (s : State) (n : Nat) (v : TableRegs) : (setTable s n v).channels = s.channels := rfl
@[simp] theorem setTable_sessions (s : State) (n : Nat) (v : TableRegs) : (setTable s n v).sessions = s.sessions := rfl
@[simp] theorem setTable_admitNext (s : State) (n : Nat) (v : TableRegs) : (setTable s n v).admitNext = s.admitNext := rfl
@[simp] theorem setTable_rounds (s : State) (n : Nat) (v : TableRegs) : (setTable s n v).rounds = s.rounds := rfl
@[simp] theorem setTable_cache (s : State) (n : Nat) (v : TableRegs) : (setTable s n v).cache = s.cache := rfl
@[simp] theorem setTable_host (s : State) (n : Nat) (v : TableRegs) : (setTable s n v).host = s.host := rfl
@[simp] theorem setTable_replies (s : State) (n : Nat) (v : TableRegs) : (setTable s n v).replies = s.replies := rfl
@[simp] theorem setTable_background (s : State) (n : Nat) (v : TableRegs) : (setTable s n v).background = s.background := rfl
@[simp] theorem setTable_logs (s : State) (n : Nat) (v : TableRegs) : (setTable s n v).logs = s.logs := rfl
@[simp] theorem setTable_seqs (s : State) (n : Nat) (v : TableRegs) : (setTable s n v).seqs = s.seqs := rfl
@[simp] theorem setTable_meter (s : State) (n : Nat) (v : TableRegs) : (setTable s n v).meter = s.meter := rfl
@[simp] theorem setTable_meterHi (s : State) (n : Nat) (v : TableRegs) : (setTable s n v).meterHi = s.meterHi := rfl
@[simp] theorem setTable_talHi (s : State) (n : Nat) (v : TableRegs) : (setTable s n v).talHi = s.talHi := rfl
@[simp] theorem setTable_ringOsc (s : State) (n : Nat) (v : TableRegs) : (setTable s n v).ringOsc = s.ringOsc := rfl
@[simp] theorem setTable_deadlines (s : State) (n : Nat) (v : TableRegs) : (setTable s n v).deadlines = s.deadlines := rfl
@[simp] theorem setTable_refLostSeen (s : State) (n : Nat) (v : TableRegs) : (setTable s n v).refLostSeen = s.refLostSeen := rfl
@[simp] theorem setTable_pace (s : State) (n : Nat) (v : TableRegs) : (setTable s n v).pace = s.pace := rfl
@[simp] theorem setTable_power (s : State) (n : Nat) (v : TableRegs) : (setTable s n v).power = s.power := rfl
@[simp] theorem setTable_ctl (s : State) (n : Nat) (v : TableRegs) : (setTable s n v).ctl = s.ctl := rfl
@[simp] theorem setTable_sec (s : State) (n : Nat) (v : TableRegs) : (setTable s n v).sec = s.sec := rfl
@[simp] theorem modTable_pending (s : State) (n : Nat) (v : TableRegs → TableRegs) : (modTable s n v).pending = s.pending := rfl
@[simp] theorem modTable_freeNext (s : State) (n : Nat) (v : TableRegs → TableRegs) : (modTable s n v).freeNext = s.freeNext := rfl
@[simp] theorem modTable_cores (s : State) (n : Nat) (v : TableRegs → TableRegs) : (modTable s n v).cores = s.cores := rfl
@[simp] theorem modTable_kitty (s : State) (n : Nat) (v : TableRegs → TableRegs) : (modTable s n v).kitty = s.kitty := rfl
@[simp] theorem modTable_repairMap (s : State) (n : Nat) (v : TableRegs → TableRegs) : (modTable s n v).repairMap = s.repairMap := rfl
@[simp] theorem modTable_retiredCores (s : State) (n : Nat) (v : TableRegs → TableRegs) : (modTable s n v).retiredCores = s.retiredCores := rfl
@[simp] theorem modTable_badCores (s : State) (n : Nat) (v : TableRegs → TableRegs) : (modTable s n v).badCores = s.badCores := rfl
@[simp] theorem modTable_paths (s : State) (n : Nat) (v : TableRegs → TableRegs) : (modTable s n v).paths = s.paths := rfl
@[simp] theorem modTable_pathReplays (s : State) (n : Nat) (v : TableRegs → TableRegs) : (modTable s n v).pathReplays = s.pathReplays := rfl
@[simp] theorem modTable_lanesSpared (s : State) (n : Nat) (v : TableRegs → TableRegs) : (modTable s n v).lanesSpared = s.lanesSpared := rfl
@[simp] theorem modTable_pathsFailed (s : State) (n : Nat) (v : TableRegs → TableRegs) : (modTable s n v).pathsFailed = s.pathsFailed := rfl
@[simp] theorem modTable_tricks (s : State) (n : Nat) (v : TableRegs → TableRegs) : (modTable s n v).tricks = s.tricks := rfl
@[simp] theorem modTable_known (s : State) (n : Nat) (v : TableRegs → TableRegs) : (modTable s n v).known = s.known := rfl
@[simp] theorem modTable_clusterPlays (s : State) (n : Nat) (v : TableRegs → TableRegs) : (modTable s n v).clusterPlays = s.clusterPlays := rfl
@[simp] theorem modTable_arrives (s : State) (n : Nat) (v : TableRegs → TableRegs) : (modTable s n v).arrives = s.arrives := rfl
@[simp] theorem modTable_releases (s : State) (n : Nat) (v : TableRegs → TableRegs) : (modTable s n v).releases = s.releases := rfl
@[simp] theorem modTable_streams (s : State) (n : Nat) (v : TableRegs → TableRegs) : (modTable s n v).streams = s.streams := rfl
@[simp] theorem modTable_creditFlight (s : State) (n : Nat) (v : TableRegs → TableRegs) : (modTable s n v).creditFlight = s.creditFlight := rfl
@[simp] theorem modTable_pushes (s : State) (n : Nat) (v : TableRegs → TableRegs) : (modTable s n v).pushes = s.pushes := rfl
@[simp] theorem modTable_latchFlight (s : State) (n : Nat) (v : TableRegs → TableRegs) : (modTable s n v).latchFlight = s.latchFlight := rfl
@[simp] theorem modTable_tallies (s : State) (n : Nat) (v : TableRegs → TableRegs) : (modTable s n v).tallies = s.tallies := rfl
@[simp] theorem modTable_spanLateDrops (s : State) (n : Nat) (v : TableRegs → TableRegs) : (modTable s n v).spanLateDrops = s.spanLateDrops := rfl
@[simp] theorem modTable_array (s : State) (n : Nat) (v : TableRegs → TableRegs) : (modTable s n v).array = s.array := rfl
@[simp] theorem modTable_stackMap (s : State) (n : Nat) (v : TableRegs → TableRegs) : (modTable s n v).stackMap = s.stackMap := rfl
@[simp] theorem modTable_regs (s : State) (n : Nat) (v : TableRegs → TableRegs) : (modTable s n v).regs = s.regs := rfl
@[simp] theorem modTable_regWait (s : State) (n : Nat) (v : TableRegs → TableRegs) : (modTable s n v).regWait = s.regWait := rfl
@[simp] theorem modTable_directory (s : State) (n : Nat) (v : TableRegs → TableRegs) : (modTable s n v).directory = s.directory := rfl
@[simp] theorem modTable_unrepaired (s : State) (n : Nat) (v : TableRegs → TableRegs) : (modTable s n v).unrepaired = s.unrepaired := rfl
@[simp] theorem modTable_refetches (s : State) (n : Nat) (v : TableRegs → TableRegs) : (modTable s n v).refetches = s.refetches := rfl
@[simp] theorem modTable_loader (s : State) (n : Nat) (v : TableRegs → TableRegs) : (modTable s n v).loader = s.loader := rfl
@[simp] theorem modTable_ports (s : State) (n : Nat) (v : TableRegs → TableRegs) : (modTable s n v).ports = s.ports := rfl
@[simp] theorem modTable_gen (s : State) (n : Nat) (v : TableRegs → TableRegs) : (modTable s n v).gen = s.gen := rfl
@[simp] theorem modTable_genLateDrops (s : State) (n : Nat) (v : TableRegs → TableRegs) : (modTable s n v).genLateDrops = s.genLateDrops := rfl
@[simp] theorem modTable_quarThreshold (s : State) (n : Nat) (v : TableRegs → TableRegs) : (modTable s n v).quarThreshold = s.quarThreshold := rfl
@[simp] theorem modTable_routes (s : State) (n : Nat) (v : TableRegs → TableRegs) : (modTable s n v).routes = s.routes := rfl
@[simp] theorem modTable_routesPending (s : State) (n : Nat) (v : TableRegs → TableRegs) : (modTable s n v).routesPending = s.routesPending := rfl
@[simp] theorem modTable_lastRound (s : State) (n : Nat) (v : TableRegs → TableRegs) : (modTable s n v).lastRound = s.lastRound := rfl
@[simp] theorem modTable_fabOut (s : State) (n : Nat) (v : TableRegs → TableRegs) : (modTable s n v).fabOut = s.fabOut := rfl
@[simp] theorem modTable_flitOut (s : State) (n : Nat) (v : TableRegs → TableRegs) : (modTable s n v).flitOut = s.flitOut := rfl
@[simp] theorem modTable_mctpParts (s : State) (n : Nat) (v : TableRegs → TableRegs) : (modTable s n v).mctpParts = s.mctpParts := rfl
@[simp] theorem modTable_fabTags (s : State) (n : Nat) (v : TableRegs → TableRegs) : (modTable s n v).fabTags = s.fabTags := rfl
@[simp] theorem modTable_fabTag (s : State) (n : Nat) (v : TableRegs → TableRegs) : (modTable s n v).fabTag = s.fabTag := rfl
@[simp] theorem modTable_channels (s : State) (n : Nat) (v : TableRegs → TableRegs) : (modTable s n v).channels = s.channels := rfl
@[simp] theorem modTable_sessions (s : State) (n : Nat) (v : TableRegs → TableRegs) : (modTable s n v).sessions = s.sessions := rfl
@[simp] theorem modTable_admitNext (s : State) (n : Nat) (v : TableRegs → TableRegs) : (modTable s n v).admitNext = s.admitNext := rfl
@[simp] theorem modTable_rounds (s : State) (n : Nat) (v : TableRegs → TableRegs) : (modTable s n v).rounds = s.rounds := rfl
@[simp] theorem modTable_cache (s : State) (n : Nat) (v : TableRegs → TableRegs) : (modTable s n v).cache = s.cache := rfl
@[simp] theorem modTable_host (s : State) (n : Nat) (v : TableRegs → TableRegs) : (modTable s n v).host = s.host := rfl
@[simp] theorem modTable_replies (s : State) (n : Nat) (v : TableRegs → TableRegs) : (modTable s n v).replies = s.replies := rfl
@[simp] theorem modTable_background (s : State) (n : Nat) (v : TableRegs → TableRegs) : (modTable s n v).background = s.background := rfl
@[simp] theorem modTable_logs (s : State) (n : Nat) (v : TableRegs → TableRegs) : (modTable s n v).logs = s.logs := rfl
@[simp] theorem modTable_seqs (s : State) (n : Nat) (v : TableRegs → TableRegs) : (modTable s n v).seqs = s.seqs := rfl
@[simp] theorem modTable_meter (s : State) (n : Nat) (v : TableRegs → TableRegs) : (modTable s n v).meter = s.meter := rfl
@[simp] theorem modTable_meterHi (s : State) (n : Nat) (v : TableRegs → TableRegs) : (modTable s n v).meterHi = s.meterHi := rfl
@[simp] theorem modTable_talHi (s : State) (n : Nat) (v : TableRegs → TableRegs) : (modTable s n v).talHi = s.talHi := rfl
@[simp] theorem modTable_ringOsc (s : State) (n : Nat) (v : TableRegs → TableRegs) : (modTable s n v).ringOsc = s.ringOsc := rfl
@[simp] theorem modTable_deadlines (s : State) (n : Nat) (v : TableRegs → TableRegs) : (modTable s n v).deadlines = s.deadlines := rfl
@[simp] theorem modTable_refLostSeen (s : State) (n : Nat) (v : TableRegs → TableRegs) : (modTable s n v).refLostSeen = s.refLostSeen := rfl
@[simp] theorem modTable_pace (s : State) (n : Nat) (v : TableRegs → TableRegs) : (modTable s n v).pace = s.pace := rfl
@[simp] theorem modTable_power (s : State) (n : Nat) (v : TableRegs → TableRegs) : (modTable s n v).power = s.power := rfl
@[simp] theorem modTable_ctl (s : State) (n : Nat) (v : TableRegs → TableRegs) : (modTable s n v).ctl = s.ctl := rfl
@[simp] theorem modTable_sec (s : State) (n : Nat) (v : TableRegs → TableRegs) : (modTable s n v).sec = s.sec := rfl

/-! ### Round -/

theorem getRound_setRound_same (s : State) (n : Nat) (v : RoundState) (h : swf RoundState.idle s.rounds = true) : getRound (setRound s n v) n = v :=
  sget_sput_same RoundState.idle _ n v h
theorem getRound_setRound_of_ne (s : State) (n : Nat) (v : RoundState) (h : v ≠ RoundState.idle) : getRound (setRound s n v) n = v :=
  sget_sput_same_of_ne RoundState.idle _ n v h
@[simp] theorem getRound_setRound_other (s : State) (n m : Nat) (v : RoundState) (h : m ≠ n) : getRound (setRound s n v) m = getRound s m :=
  sget_sput_other RoundState.idle _ n m v h
theorem swf_setRound (s : State) (n : Nat) (v : RoundState) (h : swf RoundState.idle s.rounds = true) : swf RoundState.idle (setRound s n v).rounds = true :=
  swf_sput RoundState.idle _ n v h
@[simp] theorem setRound_pending (s : State) (n : Nat) (v : RoundState) : (setRound s n v).pending = s.pending := rfl
@[simp] theorem setRound_freeNext (s : State) (n : Nat) (v : RoundState) : (setRound s n v).freeNext = s.freeNext := rfl
@[simp] theorem setRound_cores (s : State) (n : Nat) (v : RoundState) : (setRound s n v).cores = s.cores := rfl
@[simp] theorem setRound_kitty (s : State) (n : Nat) (v : RoundState) : (setRound s n v).kitty = s.kitty := rfl
@[simp] theorem setRound_repairMap (s : State) (n : Nat) (v : RoundState) : (setRound s n v).repairMap = s.repairMap := rfl
@[simp] theorem setRound_retiredCores (s : State) (n : Nat) (v : RoundState) : (setRound s n v).retiredCores = s.retiredCores := rfl
@[simp] theorem setRound_badCores (s : State) (n : Nat) (v : RoundState) : (setRound s n v).badCores = s.badCores := rfl
@[simp] theorem setRound_paths (s : State) (n : Nat) (v : RoundState) : (setRound s n v).paths = s.paths := rfl
@[simp] theorem setRound_pathReplays (s : State) (n : Nat) (v : RoundState) : (setRound s n v).pathReplays = s.pathReplays := rfl
@[simp] theorem setRound_lanesSpared (s : State) (n : Nat) (v : RoundState) : (setRound s n v).lanesSpared = s.lanesSpared := rfl
@[simp] theorem setRound_pathsFailed (s : State) (n : Nat) (v : RoundState) : (setRound s n v).pathsFailed = s.pathsFailed := rfl
@[simp] theorem setRound_tricks (s : State) (n : Nat) (v : RoundState) : (setRound s n v).tricks = s.tricks := rfl
@[simp] theorem setRound_known (s : State) (n : Nat) (v : RoundState) : (setRound s n v).known = s.known := rfl
@[simp] theorem setRound_clusterPlays (s : State) (n : Nat) (v : RoundState) : (setRound s n v).clusterPlays = s.clusterPlays := rfl
@[simp] theorem setRound_arrives (s : State) (n : Nat) (v : RoundState) : (setRound s n v).arrives = s.arrives := rfl
@[simp] theorem setRound_releases (s : State) (n : Nat) (v : RoundState) : (setRound s n v).releases = s.releases := rfl
@[simp] theorem setRound_streams (s : State) (n : Nat) (v : RoundState) : (setRound s n v).streams = s.streams := rfl
@[simp] theorem setRound_creditFlight (s : State) (n : Nat) (v : RoundState) : (setRound s n v).creditFlight = s.creditFlight := rfl
@[simp] theorem setRound_pushes (s : State) (n : Nat) (v : RoundState) : (setRound s n v).pushes = s.pushes := rfl
@[simp] theorem setRound_latchFlight (s : State) (n : Nat) (v : RoundState) : (setRound s n v).latchFlight = s.latchFlight := rfl
@[simp] theorem setRound_tallies (s : State) (n : Nat) (v : RoundState) : (setRound s n v).tallies = s.tallies := rfl
@[simp] theorem setRound_spanLateDrops (s : State) (n : Nat) (v : RoundState) : (setRound s n v).spanLateDrops = s.spanLateDrops := rfl
@[simp] theorem setRound_array (s : State) (n : Nat) (v : RoundState) : (setRound s n v).array = s.array := rfl
@[simp] theorem setRound_stackMap (s : State) (n : Nat) (v : RoundState) : (setRound s n v).stackMap = s.stackMap := rfl
@[simp] theorem setRound_regs (s : State) (n : Nat) (v : RoundState) : (setRound s n v).regs = s.regs := rfl
@[simp] theorem setRound_regWait (s : State) (n : Nat) (v : RoundState) : (setRound s n v).regWait = s.regWait := rfl
@[simp] theorem setRound_directory (s : State) (n : Nat) (v : RoundState) : (setRound s n v).directory = s.directory := rfl
@[simp] theorem setRound_unrepaired (s : State) (n : Nat) (v : RoundState) : (setRound s n v).unrepaired = s.unrepaired := rfl
@[simp] theorem setRound_refetches (s : State) (n : Nat) (v : RoundState) : (setRound s n v).refetches = s.refetches := rfl
@[simp] theorem setRound_loader (s : State) (n : Nat) (v : RoundState) : (setRound s n v).loader = s.loader := rfl
@[simp] theorem setRound_ports (s : State) (n : Nat) (v : RoundState) : (setRound s n v).ports = s.ports := rfl
@[simp] theorem setRound_gen (s : State) (n : Nat) (v : RoundState) : (setRound s n v).gen = s.gen := rfl
@[simp] theorem setRound_genLateDrops (s : State) (n : Nat) (v : RoundState) : (setRound s n v).genLateDrops = s.genLateDrops := rfl
@[simp] theorem setRound_quarThreshold (s : State) (n : Nat) (v : RoundState) : (setRound s n v).quarThreshold = s.quarThreshold := rfl
@[simp] theorem setRound_routes (s : State) (n : Nat) (v : RoundState) : (setRound s n v).routes = s.routes := rfl
@[simp] theorem setRound_routesPending (s : State) (n : Nat) (v : RoundState) : (setRound s n v).routesPending = s.routesPending := rfl
@[simp] theorem setRound_lastRound (s : State) (n : Nat) (v : RoundState) : (setRound s n v).lastRound = s.lastRound := rfl
@[simp] theorem setRound_fabOut (s : State) (n : Nat) (v : RoundState) : (setRound s n v).fabOut = s.fabOut := rfl
@[simp] theorem setRound_flitOut (s : State) (n : Nat) (v : RoundState) : (setRound s n v).flitOut = s.flitOut := rfl
@[simp] theorem setRound_mctpParts (s : State) (n : Nat) (v : RoundState) : (setRound s n v).mctpParts = s.mctpParts := rfl
@[simp] theorem setRound_fabTags (s : State) (n : Nat) (v : RoundState) : (setRound s n v).fabTags = s.fabTags := rfl
@[simp] theorem setRound_fabTag (s : State) (n : Nat) (v : RoundState) : (setRound s n v).fabTag = s.fabTag := rfl
@[simp] theorem setRound_channels (s : State) (n : Nat) (v : RoundState) : (setRound s n v).channels = s.channels := rfl
@[simp] theorem setRound_sessions (s : State) (n : Nat) (v : RoundState) : (setRound s n v).sessions = s.sessions := rfl
@[simp] theorem setRound_admitNext (s : State) (n : Nat) (v : RoundState) : (setRound s n v).admitNext = s.admitNext := rfl
@[simp] theorem setRound_tables (s : State) (n : Nat) (v : RoundState) : (setRound s n v).tables = s.tables := rfl
@[simp] theorem setRound_cache (s : State) (n : Nat) (v : RoundState) : (setRound s n v).cache = s.cache := rfl
@[simp] theorem setRound_host (s : State) (n : Nat) (v : RoundState) : (setRound s n v).host = s.host := rfl
@[simp] theorem setRound_replies (s : State) (n : Nat) (v : RoundState) : (setRound s n v).replies = s.replies := rfl
@[simp] theorem setRound_background (s : State) (n : Nat) (v : RoundState) : (setRound s n v).background = s.background := rfl
@[simp] theorem setRound_logs (s : State) (n : Nat) (v : RoundState) : (setRound s n v).logs = s.logs := rfl
@[simp] theorem setRound_seqs (s : State) (n : Nat) (v : RoundState) : (setRound s n v).seqs = s.seqs := rfl
@[simp] theorem setRound_meter (s : State) (n : Nat) (v : RoundState) : (setRound s n v).meter = s.meter := rfl
@[simp] theorem setRound_meterHi (s : State) (n : Nat) (v : RoundState) : (setRound s n v).meterHi = s.meterHi := rfl
@[simp] theorem setRound_talHi (s : State) (n : Nat) (v : RoundState) : (setRound s n v).talHi = s.talHi := rfl
@[simp] theorem setRound_ringOsc (s : State) (n : Nat) (v : RoundState) : (setRound s n v).ringOsc = s.ringOsc := rfl
@[simp] theorem setRound_deadlines (s : State) (n : Nat) (v : RoundState) : (setRound s n v).deadlines = s.deadlines := rfl
@[simp] theorem setRound_refLostSeen (s : State) (n : Nat) (v : RoundState) : (setRound s n v).refLostSeen = s.refLostSeen := rfl
@[simp] theorem setRound_pace (s : State) (n : Nat) (v : RoundState) : (setRound s n v).pace = s.pace := rfl
@[simp] theorem setRound_power (s : State) (n : Nat) (v : RoundState) : (setRound s n v).power = s.power := rfl
@[simp] theorem setRound_ctl (s : State) (n : Nat) (v : RoundState) : (setRound s n v).ctl = s.ctl := rfl
@[simp] theorem setRound_sec (s : State) (n : Nat) (v : RoundState) : (setRound s n v).sec = s.sec := rfl
@[simp] theorem modRound_pending (s : State) (n : Nat) (v : RoundState → RoundState) : (modRound s n v).pending = s.pending := rfl
@[simp] theorem modRound_freeNext (s : State) (n : Nat) (v : RoundState → RoundState) : (modRound s n v).freeNext = s.freeNext := rfl
@[simp] theorem modRound_cores (s : State) (n : Nat) (v : RoundState → RoundState) : (modRound s n v).cores = s.cores := rfl
@[simp] theorem modRound_kitty (s : State) (n : Nat) (v : RoundState → RoundState) : (modRound s n v).kitty = s.kitty := rfl
@[simp] theorem modRound_repairMap (s : State) (n : Nat) (v : RoundState → RoundState) : (modRound s n v).repairMap = s.repairMap := rfl
@[simp] theorem modRound_retiredCores (s : State) (n : Nat) (v : RoundState → RoundState) : (modRound s n v).retiredCores = s.retiredCores := rfl
@[simp] theorem modRound_badCores (s : State) (n : Nat) (v : RoundState → RoundState) : (modRound s n v).badCores = s.badCores := rfl
@[simp] theorem modRound_paths (s : State) (n : Nat) (v : RoundState → RoundState) : (modRound s n v).paths = s.paths := rfl
@[simp] theorem modRound_pathReplays (s : State) (n : Nat) (v : RoundState → RoundState) : (modRound s n v).pathReplays = s.pathReplays := rfl
@[simp] theorem modRound_lanesSpared (s : State) (n : Nat) (v : RoundState → RoundState) : (modRound s n v).lanesSpared = s.lanesSpared := rfl
@[simp] theorem modRound_pathsFailed (s : State) (n : Nat) (v : RoundState → RoundState) : (modRound s n v).pathsFailed = s.pathsFailed := rfl
@[simp] theorem modRound_tricks (s : State) (n : Nat) (v : RoundState → RoundState) : (modRound s n v).tricks = s.tricks := rfl
@[simp] theorem modRound_known (s : State) (n : Nat) (v : RoundState → RoundState) : (modRound s n v).known = s.known := rfl
@[simp] theorem modRound_clusterPlays (s : State) (n : Nat) (v : RoundState → RoundState) : (modRound s n v).clusterPlays = s.clusterPlays := rfl
@[simp] theorem modRound_arrives (s : State) (n : Nat) (v : RoundState → RoundState) : (modRound s n v).arrives = s.arrives := rfl
@[simp] theorem modRound_releases (s : State) (n : Nat) (v : RoundState → RoundState) : (modRound s n v).releases = s.releases := rfl
@[simp] theorem modRound_streams (s : State) (n : Nat) (v : RoundState → RoundState) : (modRound s n v).streams = s.streams := rfl
@[simp] theorem modRound_creditFlight (s : State) (n : Nat) (v : RoundState → RoundState) : (modRound s n v).creditFlight = s.creditFlight := rfl
@[simp] theorem modRound_pushes (s : State) (n : Nat) (v : RoundState → RoundState) : (modRound s n v).pushes = s.pushes := rfl
@[simp] theorem modRound_latchFlight (s : State) (n : Nat) (v : RoundState → RoundState) : (modRound s n v).latchFlight = s.latchFlight := rfl
@[simp] theorem modRound_tallies (s : State) (n : Nat) (v : RoundState → RoundState) : (modRound s n v).tallies = s.tallies := rfl
@[simp] theorem modRound_spanLateDrops (s : State) (n : Nat) (v : RoundState → RoundState) : (modRound s n v).spanLateDrops = s.spanLateDrops := rfl
@[simp] theorem modRound_array (s : State) (n : Nat) (v : RoundState → RoundState) : (modRound s n v).array = s.array := rfl
@[simp] theorem modRound_stackMap (s : State) (n : Nat) (v : RoundState → RoundState) : (modRound s n v).stackMap = s.stackMap := rfl
@[simp] theorem modRound_regs (s : State) (n : Nat) (v : RoundState → RoundState) : (modRound s n v).regs = s.regs := rfl
@[simp] theorem modRound_regWait (s : State) (n : Nat) (v : RoundState → RoundState) : (modRound s n v).regWait = s.regWait := rfl
@[simp] theorem modRound_directory (s : State) (n : Nat) (v : RoundState → RoundState) : (modRound s n v).directory = s.directory := rfl
@[simp] theorem modRound_unrepaired (s : State) (n : Nat) (v : RoundState → RoundState) : (modRound s n v).unrepaired = s.unrepaired := rfl
@[simp] theorem modRound_refetches (s : State) (n : Nat) (v : RoundState → RoundState) : (modRound s n v).refetches = s.refetches := rfl
@[simp] theorem modRound_loader (s : State) (n : Nat) (v : RoundState → RoundState) : (modRound s n v).loader = s.loader := rfl
@[simp] theorem modRound_ports (s : State) (n : Nat) (v : RoundState → RoundState) : (modRound s n v).ports = s.ports := rfl
@[simp] theorem modRound_gen (s : State) (n : Nat) (v : RoundState → RoundState) : (modRound s n v).gen = s.gen := rfl
@[simp] theorem modRound_genLateDrops (s : State) (n : Nat) (v : RoundState → RoundState) : (modRound s n v).genLateDrops = s.genLateDrops := rfl
@[simp] theorem modRound_quarThreshold (s : State) (n : Nat) (v : RoundState → RoundState) : (modRound s n v).quarThreshold = s.quarThreshold := rfl
@[simp] theorem modRound_routes (s : State) (n : Nat) (v : RoundState → RoundState) : (modRound s n v).routes = s.routes := rfl
@[simp] theorem modRound_routesPending (s : State) (n : Nat) (v : RoundState → RoundState) : (modRound s n v).routesPending = s.routesPending := rfl
@[simp] theorem modRound_lastRound (s : State) (n : Nat) (v : RoundState → RoundState) : (modRound s n v).lastRound = s.lastRound := rfl
@[simp] theorem modRound_fabOut (s : State) (n : Nat) (v : RoundState → RoundState) : (modRound s n v).fabOut = s.fabOut := rfl
@[simp] theorem modRound_flitOut (s : State) (n : Nat) (v : RoundState → RoundState) : (modRound s n v).flitOut = s.flitOut := rfl
@[simp] theorem modRound_mctpParts (s : State) (n : Nat) (v : RoundState → RoundState) : (modRound s n v).mctpParts = s.mctpParts := rfl
@[simp] theorem modRound_fabTags (s : State) (n : Nat) (v : RoundState → RoundState) : (modRound s n v).fabTags = s.fabTags := rfl
@[simp] theorem modRound_fabTag (s : State) (n : Nat) (v : RoundState → RoundState) : (modRound s n v).fabTag = s.fabTag := rfl
@[simp] theorem modRound_channels (s : State) (n : Nat) (v : RoundState → RoundState) : (modRound s n v).channels = s.channels := rfl
@[simp] theorem modRound_sessions (s : State) (n : Nat) (v : RoundState → RoundState) : (modRound s n v).sessions = s.sessions := rfl
@[simp] theorem modRound_admitNext (s : State) (n : Nat) (v : RoundState → RoundState) : (modRound s n v).admitNext = s.admitNext := rfl
@[simp] theorem modRound_tables (s : State) (n : Nat) (v : RoundState → RoundState) : (modRound s n v).tables = s.tables := rfl
@[simp] theorem modRound_cache (s : State) (n : Nat) (v : RoundState → RoundState) : (modRound s n v).cache = s.cache := rfl
@[simp] theorem modRound_host (s : State) (n : Nat) (v : RoundState → RoundState) : (modRound s n v).host = s.host := rfl
@[simp] theorem modRound_replies (s : State) (n : Nat) (v : RoundState → RoundState) : (modRound s n v).replies = s.replies := rfl
@[simp] theorem modRound_background (s : State) (n : Nat) (v : RoundState → RoundState) : (modRound s n v).background = s.background := rfl
@[simp] theorem modRound_logs (s : State) (n : Nat) (v : RoundState → RoundState) : (modRound s n v).logs = s.logs := rfl
@[simp] theorem modRound_seqs (s : State) (n : Nat) (v : RoundState → RoundState) : (modRound s n v).seqs = s.seqs := rfl
@[simp] theorem modRound_meter (s : State) (n : Nat) (v : RoundState → RoundState) : (modRound s n v).meter = s.meter := rfl
@[simp] theorem modRound_meterHi (s : State) (n : Nat) (v : RoundState → RoundState) : (modRound s n v).meterHi = s.meterHi := rfl
@[simp] theorem modRound_talHi (s : State) (n : Nat) (v : RoundState → RoundState) : (modRound s n v).talHi = s.talHi := rfl
@[simp] theorem modRound_ringOsc (s : State) (n : Nat) (v : RoundState → RoundState) : (modRound s n v).ringOsc = s.ringOsc := rfl
@[simp] theorem modRound_deadlines (s : State) (n : Nat) (v : RoundState → RoundState) : (modRound s n v).deadlines = s.deadlines := rfl
@[simp] theorem modRound_refLostSeen (s : State) (n : Nat) (v : RoundState → RoundState) : (modRound s n v).refLostSeen = s.refLostSeen := rfl
@[simp] theorem modRound_pace (s : State) (n : Nat) (v : RoundState → RoundState) : (modRound s n v).pace = s.pace := rfl
@[simp] theorem modRound_power (s : State) (n : Nat) (v : RoundState → RoundState) : (modRound s n v).power = s.power := rfl
@[simp] theorem modRound_ctl (s : State) (n : Nat) (v : RoundState → RoundState) : (modRound s n v).ctl = s.ctl := rfl
@[simp] theorem modRound_sec (s : State) (n : Nat) (v : RoundState → RoundState) : (modRound s n v).sec = s.sec := rfl

/-! ### Reg -/

theorem getReg_setReg_same (s : State) (n : Nat) (v : Regulator) (h : swf Regulator.off s.regs = true) : getReg (setReg s n v) n = v :=
  sget_sput_same Regulator.off _ n v h
theorem getReg_setReg_of_ne (s : State) (n : Nat) (v : Regulator) (h : v ≠ Regulator.off) : getReg (setReg s n v) n = v :=
  sget_sput_same_of_ne Regulator.off _ n v h
@[simp] theorem getReg_setReg_other (s : State) (n m : Nat) (v : Regulator) (h : m ≠ n) : getReg (setReg s n v) m = getReg s m :=
  sget_sput_other Regulator.off _ n m v h
theorem swf_setReg (s : State) (n : Nat) (v : Regulator) (h : swf Regulator.off s.regs = true) : swf Regulator.off (setReg s n v).regs = true :=
  swf_sput Regulator.off _ n v h
@[simp] theorem setReg_pending (s : State) (n : Nat) (v : Regulator) : (setReg s n v).pending = s.pending := rfl
@[simp] theorem setReg_freeNext (s : State) (n : Nat) (v : Regulator) : (setReg s n v).freeNext = s.freeNext := rfl
@[simp] theorem setReg_cores (s : State) (n : Nat) (v : Regulator) : (setReg s n v).cores = s.cores := rfl
@[simp] theorem setReg_kitty (s : State) (n : Nat) (v : Regulator) : (setReg s n v).kitty = s.kitty := rfl
@[simp] theorem setReg_repairMap (s : State) (n : Nat) (v : Regulator) : (setReg s n v).repairMap = s.repairMap := rfl
@[simp] theorem setReg_retiredCores (s : State) (n : Nat) (v : Regulator) : (setReg s n v).retiredCores = s.retiredCores := rfl
@[simp] theorem setReg_badCores (s : State) (n : Nat) (v : Regulator) : (setReg s n v).badCores = s.badCores := rfl
@[simp] theorem setReg_paths (s : State) (n : Nat) (v : Regulator) : (setReg s n v).paths = s.paths := rfl
@[simp] theorem setReg_pathReplays (s : State) (n : Nat) (v : Regulator) : (setReg s n v).pathReplays = s.pathReplays := rfl
@[simp] theorem setReg_lanesSpared (s : State) (n : Nat) (v : Regulator) : (setReg s n v).lanesSpared = s.lanesSpared := rfl
@[simp] theorem setReg_pathsFailed (s : State) (n : Nat) (v : Regulator) : (setReg s n v).pathsFailed = s.pathsFailed := rfl
@[simp] theorem setReg_tricks (s : State) (n : Nat) (v : Regulator) : (setReg s n v).tricks = s.tricks := rfl
@[simp] theorem setReg_known (s : State) (n : Nat) (v : Regulator) : (setReg s n v).known = s.known := rfl
@[simp] theorem setReg_clusterPlays (s : State) (n : Nat) (v : Regulator) : (setReg s n v).clusterPlays = s.clusterPlays := rfl
@[simp] theorem setReg_arrives (s : State) (n : Nat) (v : Regulator) : (setReg s n v).arrives = s.arrives := rfl
@[simp] theorem setReg_releases (s : State) (n : Nat) (v : Regulator) : (setReg s n v).releases = s.releases := rfl
@[simp] theorem setReg_streams (s : State) (n : Nat) (v : Regulator) : (setReg s n v).streams = s.streams := rfl
@[simp] theorem setReg_creditFlight (s : State) (n : Nat) (v : Regulator) : (setReg s n v).creditFlight = s.creditFlight := rfl
@[simp] theorem setReg_pushes (s : State) (n : Nat) (v : Regulator) : (setReg s n v).pushes = s.pushes := rfl
@[simp] theorem setReg_latchFlight (s : State) (n : Nat) (v : Regulator) : (setReg s n v).latchFlight = s.latchFlight := rfl
@[simp] theorem setReg_tallies (s : State) (n : Nat) (v : Regulator) : (setReg s n v).tallies = s.tallies := rfl
@[simp] theorem setReg_spanLateDrops (s : State) (n : Nat) (v : Regulator) : (setReg s n v).spanLateDrops = s.spanLateDrops := rfl
@[simp] theorem setReg_array (s : State) (n : Nat) (v : Regulator) : (setReg s n v).array = s.array := rfl
@[simp] theorem setReg_stackMap (s : State) (n : Nat) (v : Regulator) : (setReg s n v).stackMap = s.stackMap := rfl
@[simp] theorem setReg_regWait (s : State) (n : Nat) (v : Regulator) : (setReg s n v).regWait = s.regWait := rfl
@[simp] theorem setReg_directory (s : State) (n : Nat) (v : Regulator) : (setReg s n v).directory = s.directory := rfl
@[simp] theorem setReg_unrepaired (s : State) (n : Nat) (v : Regulator) : (setReg s n v).unrepaired = s.unrepaired := rfl
@[simp] theorem setReg_refetches (s : State) (n : Nat) (v : Regulator) : (setReg s n v).refetches = s.refetches := rfl
@[simp] theorem setReg_loader (s : State) (n : Nat) (v : Regulator) : (setReg s n v).loader = s.loader := rfl
@[simp] theorem setReg_ports (s : State) (n : Nat) (v : Regulator) : (setReg s n v).ports = s.ports := rfl
@[simp] theorem setReg_gen (s : State) (n : Nat) (v : Regulator) : (setReg s n v).gen = s.gen := rfl
@[simp] theorem setReg_genLateDrops (s : State) (n : Nat) (v : Regulator) : (setReg s n v).genLateDrops = s.genLateDrops := rfl
@[simp] theorem setReg_quarThreshold (s : State) (n : Nat) (v : Regulator) : (setReg s n v).quarThreshold = s.quarThreshold := rfl
@[simp] theorem setReg_routes (s : State) (n : Nat) (v : Regulator) : (setReg s n v).routes = s.routes := rfl
@[simp] theorem setReg_routesPending (s : State) (n : Nat) (v : Regulator) : (setReg s n v).routesPending = s.routesPending := rfl
@[simp] theorem setReg_lastRound (s : State) (n : Nat) (v : Regulator) : (setReg s n v).lastRound = s.lastRound := rfl
@[simp] theorem setReg_fabOut (s : State) (n : Nat) (v : Regulator) : (setReg s n v).fabOut = s.fabOut := rfl
@[simp] theorem setReg_flitOut (s : State) (n : Nat) (v : Regulator) : (setReg s n v).flitOut = s.flitOut := rfl
@[simp] theorem setReg_mctpParts (s : State) (n : Nat) (v : Regulator) : (setReg s n v).mctpParts = s.mctpParts := rfl
@[simp] theorem setReg_fabTags (s : State) (n : Nat) (v : Regulator) : (setReg s n v).fabTags = s.fabTags := rfl
@[simp] theorem setReg_fabTag (s : State) (n : Nat) (v : Regulator) : (setReg s n v).fabTag = s.fabTag := rfl
@[simp] theorem setReg_channels (s : State) (n : Nat) (v : Regulator) : (setReg s n v).channels = s.channels := rfl
@[simp] theorem setReg_sessions (s : State) (n : Nat) (v : Regulator) : (setReg s n v).sessions = s.sessions := rfl
@[simp] theorem setReg_admitNext (s : State) (n : Nat) (v : Regulator) : (setReg s n v).admitNext = s.admitNext := rfl
@[simp] theorem setReg_tables (s : State) (n : Nat) (v : Regulator) : (setReg s n v).tables = s.tables := rfl
@[simp] theorem setReg_rounds (s : State) (n : Nat) (v : Regulator) : (setReg s n v).rounds = s.rounds := rfl
@[simp] theorem setReg_cache (s : State) (n : Nat) (v : Regulator) : (setReg s n v).cache = s.cache := rfl
@[simp] theorem setReg_host (s : State) (n : Nat) (v : Regulator) : (setReg s n v).host = s.host := rfl
@[simp] theorem setReg_replies (s : State) (n : Nat) (v : Regulator) : (setReg s n v).replies = s.replies := rfl
@[simp] theorem setReg_background (s : State) (n : Nat) (v : Regulator) : (setReg s n v).background = s.background := rfl
@[simp] theorem setReg_logs (s : State) (n : Nat) (v : Regulator) : (setReg s n v).logs = s.logs := rfl
@[simp] theorem setReg_seqs (s : State) (n : Nat) (v : Regulator) : (setReg s n v).seqs = s.seqs := rfl
@[simp] theorem setReg_meter (s : State) (n : Nat) (v : Regulator) : (setReg s n v).meter = s.meter := rfl
@[simp] theorem setReg_meterHi (s : State) (n : Nat) (v : Regulator) : (setReg s n v).meterHi = s.meterHi := rfl
@[simp] theorem setReg_talHi (s : State) (n : Nat) (v : Regulator) : (setReg s n v).talHi = s.talHi := rfl
@[simp] theorem setReg_ringOsc (s : State) (n : Nat) (v : Regulator) : (setReg s n v).ringOsc = s.ringOsc := rfl
@[simp] theorem setReg_deadlines (s : State) (n : Nat) (v : Regulator) : (setReg s n v).deadlines = s.deadlines := rfl
@[simp] theorem setReg_refLostSeen (s : State) (n : Nat) (v : Regulator) : (setReg s n v).refLostSeen = s.refLostSeen := rfl
@[simp] theorem setReg_pace (s : State) (n : Nat) (v : Regulator) : (setReg s n v).pace = s.pace := rfl
@[simp] theorem setReg_power (s : State) (n : Nat) (v : Regulator) : (setReg s n v).power = s.power := rfl
@[simp] theorem setReg_ctl (s : State) (n : Nat) (v : Regulator) : (setReg s n v).ctl = s.ctl := rfl
@[simp] theorem setReg_sec (s : State) (n : Nat) (v : Regulator) : (setReg s n v).sec = s.sec := rfl

/-! ### Domain -/

theorem getDomain_setDomain_same (s : State) (n : Nat) (v : Domain) (h : swf Domain.off s.power.domains = true) : getDomain (setDomain s n v) n = v :=
  sget_sput_same Domain.off _ n v h
theorem getDomain_setDomain_of_ne (s : State) (n : Nat) (v : Domain) (h : v ≠ Domain.off) : getDomain (setDomain s n v) n = v :=
  sget_sput_same_of_ne Domain.off _ n v h
@[simp] theorem getDomain_setDomain_other (s : State) (n m : Nat) (v : Domain) (h : m ≠ n) : getDomain (setDomain s n v) m = getDomain s m :=
  sget_sput_other Domain.off _ n m v h
theorem swf_setDomain (s : State) (n : Nat) (v : Domain) (h : swf Domain.off s.power.domains = true) : swf Domain.off (setDomain s n v).power.domains = true :=
  swf_sput Domain.off _ n v h
@[simp] theorem setDomain_pending (s : State) (n : Nat) (v : Domain) : (setDomain s n v).pending = s.pending := rfl
@[simp] theorem setDomain_freeNext (s : State) (n : Nat) (v : Domain) : (setDomain s n v).freeNext = s.freeNext := rfl
@[simp] theorem setDomain_cores (s : State) (n : Nat) (v : Domain) : (setDomain s n v).cores = s.cores := rfl
@[simp] theorem setDomain_kitty (s : State) (n : Nat) (v : Domain) : (setDomain s n v).kitty = s.kitty := rfl
@[simp] theorem setDomain_repairMap (s : State) (n : Nat) (v : Domain) : (setDomain s n v).repairMap = s.repairMap := rfl
@[simp] theorem setDomain_retiredCores (s : State) (n : Nat) (v : Domain) : (setDomain s n v).retiredCores = s.retiredCores := rfl
@[simp] theorem setDomain_badCores (s : State) (n : Nat) (v : Domain) : (setDomain s n v).badCores = s.badCores := rfl
@[simp] theorem setDomain_paths (s : State) (n : Nat) (v : Domain) : (setDomain s n v).paths = s.paths := rfl
@[simp] theorem setDomain_pathReplays (s : State) (n : Nat) (v : Domain) : (setDomain s n v).pathReplays = s.pathReplays := rfl
@[simp] theorem setDomain_lanesSpared (s : State) (n : Nat) (v : Domain) : (setDomain s n v).lanesSpared = s.lanesSpared := rfl
@[simp] theorem setDomain_pathsFailed (s : State) (n : Nat) (v : Domain) : (setDomain s n v).pathsFailed = s.pathsFailed := rfl
@[simp] theorem setDomain_tricks (s : State) (n : Nat) (v : Domain) : (setDomain s n v).tricks = s.tricks := rfl
@[simp] theorem setDomain_known (s : State) (n : Nat) (v : Domain) : (setDomain s n v).known = s.known := rfl
@[simp] theorem setDomain_clusterPlays (s : State) (n : Nat) (v : Domain) : (setDomain s n v).clusterPlays = s.clusterPlays := rfl
@[simp] theorem setDomain_arrives (s : State) (n : Nat) (v : Domain) : (setDomain s n v).arrives = s.arrives := rfl
@[simp] theorem setDomain_releases (s : State) (n : Nat) (v : Domain) : (setDomain s n v).releases = s.releases := rfl
@[simp] theorem setDomain_streams (s : State) (n : Nat) (v : Domain) : (setDomain s n v).streams = s.streams := rfl
@[simp] theorem setDomain_creditFlight (s : State) (n : Nat) (v : Domain) : (setDomain s n v).creditFlight = s.creditFlight := rfl
@[simp] theorem setDomain_pushes (s : State) (n : Nat) (v : Domain) : (setDomain s n v).pushes = s.pushes := rfl
@[simp] theorem setDomain_latchFlight (s : State) (n : Nat) (v : Domain) : (setDomain s n v).latchFlight = s.latchFlight := rfl
@[simp] theorem setDomain_tallies (s : State) (n : Nat) (v : Domain) : (setDomain s n v).tallies = s.tallies := rfl
@[simp] theorem setDomain_spanLateDrops (s : State) (n : Nat) (v : Domain) : (setDomain s n v).spanLateDrops = s.spanLateDrops := rfl
@[simp] theorem setDomain_array (s : State) (n : Nat) (v : Domain) : (setDomain s n v).array = s.array := rfl
@[simp] theorem setDomain_stackMap (s : State) (n : Nat) (v : Domain) : (setDomain s n v).stackMap = s.stackMap := rfl
@[simp] theorem setDomain_regs (s : State) (n : Nat) (v : Domain) : (setDomain s n v).regs = s.regs := rfl
@[simp] theorem setDomain_regWait (s : State) (n : Nat) (v : Domain) : (setDomain s n v).regWait = s.regWait := rfl
@[simp] theorem setDomain_directory (s : State) (n : Nat) (v : Domain) : (setDomain s n v).directory = s.directory := rfl
@[simp] theorem setDomain_unrepaired (s : State) (n : Nat) (v : Domain) : (setDomain s n v).unrepaired = s.unrepaired := rfl
@[simp] theorem setDomain_refetches (s : State) (n : Nat) (v : Domain) : (setDomain s n v).refetches = s.refetches := rfl
@[simp] theorem setDomain_loader (s : State) (n : Nat) (v : Domain) : (setDomain s n v).loader = s.loader := rfl
@[simp] theorem setDomain_ports (s : State) (n : Nat) (v : Domain) : (setDomain s n v).ports = s.ports := rfl
@[simp] theorem setDomain_gen (s : State) (n : Nat) (v : Domain) : (setDomain s n v).gen = s.gen := rfl
@[simp] theorem setDomain_genLateDrops (s : State) (n : Nat) (v : Domain) : (setDomain s n v).genLateDrops = s.genLateDrops := rfl
@[simp] theorem setDomain_quarThreshold (s : State) (n : Nat) (v : Domain) : (setDomain s n v).quarThreshold = s.quarThreshold := rfl
@[simp] theorem setDomain_routes (s : State) (n : Nat) (v : Domain) : (setDomain s n v).routes = s.routes := rfl
@[simp] theorem setDomain_routesPending (s : State) (n : Nat) (v : Domain) : (setDomain s n v).routesPending = s.routesPending := rfl
@[simp] theorem setDomain_lastRound (s : State) (n : Nat) (v : Domain) : (setDomain s n v).lastRound = s.lastRound := rfl
@[simp] theorem setDomain_fabOut (s : State) (n : Nat) (v : Domain) : (setDomain s n v).fabOut = s.fabOut := rfl
@[simp] theorem setDomain_flitOut (s : State) (n : Nat) (v : Domain) : (setDomain s n v).flitOut = s.flitOut := rfl
@[simp] theorem setDomain_mctpParts (s : State) (n : Nat) (v : Domain) : (setDomain s n v).mctpParts = s.mctpParts := rfl
@[simp] theorem setDomain_fabTags (s : State) (n : Nat) (v : Domain) : (setDomain s n v).fabTags = s.fabTags := rfl
@[simp] theorem setDomain_fabTag (s : State) (n : Nat) (v : Domain) : (setDomain s n v).fabTag = s.fabTag := rfl
@[simp] theorem setDomain_channels (s : State) (n : Nat) (v : Domain) : (setDomain s n v).channels = s.channels := rfl
@[simp] theorem setDomain_sessions (s : State) (n : Nat) (v : Domain) : (setDomain s n v).sessions = s.sessions := rfl
@[simp] theorem setDomain_admitNext (s : State) (n : Nat) (v : Domain) : (setDomain s n v).admitNext = s.admitNext := rfl
@[simp] theorem setDomain_tables (s : State) (n : Nat) (v : Domain) : (setDomain s n v).tables = s.tables := rfl
@[simp] theorem setDomain_rounds (s : State) (n : Nat) (v : Domain) : (setDomain s n v).rounds = s.rounds := rfl
@[simp] theorem setDomain_cache (s : State) (n : Nat) (v : Domain) : (setDomain s n v).cache = s.cache := rfl
@[simp] theorem setDomain_host (s : State) (n : Nat) (v : Domain) : (setDomain s n v).host = s.host := rfl
@[simp] theorem setDomain_replies (s : State) (n : Nat) (v : Domain) : (setDomain s n v).replies = s.replies := rfl
@[simp] theorem setDomain_background (s : State) (n : Nat) (v : Domain) : (setDomain s n v).background = s.background := rfl
@[simp] theorem setDomain_logs (s : State) (n : Nat) (v : Domain) : (setDomain s n v).logs = s.logs := rfl
@[simp] theorem setDomain_seqs (s : State) (n : Nat) (v : Domain) : (setDomain s n v).seqs = s.seqs := rfl
@[simp] theorem setDomain_meter (s : State) (n : Nat) (v : Domain) : (setDomain s n v).meter = s.meter := rfl
@[simp] theorem setDomain_meterHi (s : State) (n : Nat) (v : Domain) : (setDomain s n v).meterHi = s.meterHi := rfl
@[simp] theorem setDomain_talHi (s : State) (n : Nat) (v : Domain) : (setDomain s n v).talHi = s.talHi := rfl
@[simp] theorem setDomain_ringOsc (s : State) (n : Nat) (v : Domain) : (setDomain s n v).ringOsc = s.ringOsc := rfl
@[simp] theorem setDomain_deadlines (s : State) (n : Nat) (v : Domain) : (setDomain s n v).deadlines = s.deadlines := rfl
@[simp] theorem setDomain_refLostSeen (s : State) (n : Nat) (v : Domain) : (setDomain s n v).refLostSeen = s.refLostSeen := rfl
@[simp] theorem setDomain_pace (s : State) (n : Nat) (v : Domain) : (setDomain s n v).pace = s.pace := rfl
@[simp] theorem setDomain_ctl (s : State) (n : Nat) (v : Domain) : (setDomain s n v).ctl = s.ctl := rfl
@[simp] theorem setDomain_sec (s : State) (n : Nat) (v : Domain) : (setDomain s n v).sec = s.sec := rfl
@[simp] theorem setDomain_power_inputOn (s : State) (n : Nat) (v : Domain) : (setDomain s n v).power.inputOn = s.power.inputOn := rfl
@[simp] theorem setDomain_power_inputLow (s : State) (n : Nat) (v : Domain) : (setDomain s n v).power.inputLow = s.power.inputLow := rfl
@[simp] theorem setDomain_power_voltage (s : State) (n : Nat) (v : Domain) : (setDomain s n v).power.voltage = s.power.voltage := rfl
@[simp] theorem setDomain_power_enableOpen (s : State) (n : Nat) (v : Domain) : (setDomain s n v).power.enableOpen = s.power.enableOpen := rfl
@[simp] theorem setDomain_power_tripped (s : State) (n : Nat) (v : Domain) : (setDomain s n v).power.tripped = s.power.tripped := rfl
@[simp] theorem setDomain_power_tripLatch (s : State) (n : Nat) (v : Domain) : (setDomain s n v).power.tripLatch = s.power.tripLatch := rfl
@[simp] theorem setDomain_power_diodes (s : State) (n : Nat) (v : Domain) : (setDomain s n v).power.diodes = s.power.diodes := rfl
@[simp] theorem setDomain_power_depthDie (s : State) (n : Nat) (v : Domain) : (setDomain s n v).power.depthDie = s.power.depthDie := rfl
@[simp] theorem setDomain_power_depthNb0 (s : State) (n : Nat) (v : Domain) : (setDomain s n v).power.depthNb0 = s.power.depthNb0 := rfl
@[simp] theorem setDomain_power_depthNb1 (s : State) (n : Nat) (v : Domain) : (setDomain s n v).power.depthNb1 = s.power.depthNb1 := rfl
@[simp] theorem setDomain_power_floorDie (s : State) (n : Nat) (v : Domain) : (setDomain s n v).power.floorDie = s.power.floorDie := rfl
@[simp] theorem setDomain_power_floorNb0 (s : State) (n : Nat) (v : Domain) : (setDomain s n v).power.floorNb0 = s.power.floorNb0 := rfl
@[simp] theorem setDomain_power_floorNb1 (s : State) (n : Nat) (v : Domain) : (setDomain s n v).power.floorNb1 = s.power.floorNb1 := rfl
@[simp] theorem setDomain_power_throttleAt (s : State) (n : Nat) (v : Domain) : (setDomain s n v).power.throttleAt = s.power.throttleAt := rfl
@[simp] theorem setDomain_power_limitRejected (s : State) (n : Nat) (v : Domain) : (setDomain s n v).power.limitRejected = s.power.limitRejected := rfl
@[simp] theorem setDomain_power_shutdown (s : State) (n : Nat) (v : Domain) : (setDomain s n v).power.shutdown = s.power.shutdown := rfl
@[simp] theorem setDomain_power_mgmtAddr (s : State) (n : Nat) (v : Domain) : (setDomain s n v).power.mgmtAddr = s.power.mgmtAddr := rfl
@[simp] theorem setDomain_power_watts (s : State) (n : Nat) (v : Domain) : (setDomain s n v).power.watts = s.power.watts := rfl

/-! ### Diode -/

theorem getDiode_setDiode_same (s : State) (n : Nat) (v : Diode) (h : swf Diode.unread s.power.diodes = true) : getDiode (setDiode s n v) n = v :=
  sget_sput_same Diode.unread _ n v h
theorem getDiode_setDiode_of_ne (s : State) (n : Nat) (v : Diode) (h : v ≠ Diode.unread) : getDiode (setDiode s n v) n = v :=
  sget_sput_same_of_ne Diode.unread _ n v h
@[simp] theorem getDiode_setDiode_other (s : State) (n m : Nat) (v : Diode) (h : m ≠ n) : getDiode (setDiode s n v) m = getDiode s m :=
  sget_sput_other Diode.unread _ n m v h
theorem swf_setDiode (s : State) (n : Nat) (v : Diode) (h : swf Diode.unread s.power.diodes = true) : swf Diode.unread (setDiode s n v).power.diodes = true :=
  swf_sput Diode.unread _ n v h
@[simp] theorem setDiode_pending (s : State) (n : Nat) (v : Diode) : (setDiode s n v).pending = s.pending := rfl
@[simp] theorem setDiode_freeNext (s : State) (n : Nat) (v : Diode) : (setDiode s n v).freeNext = s.freeNext := rfl
@[simp] theorem setDiode_cores (s : State) (n : Nat) (v : Diode) : (setDiode s n v).cores = s.cores := rfl
@[simp] theorem setDiode_kitty (s : State) (n : Nat) (v : Diode) : (setDiode s n v).kitty = s.kitty := rfl
@[simp] theorem setDiode_repairMap (s : State) (n : Nat) (v : Diode) : (setDiode s n v).repairMap = s.repairMap := rfl
@[simp] theorem setDiode_retiredCores (s : State) (n : Nat) (v : Diode) : (setDiode s n v).retiredCores = s.retiredCores := rfl
@[simp] theorem setDiode_badCores (s : State) (n : Nat) (v : Diode) : (setDiode s n v).badCores = s.badCores := rfl
@[simp] theorem setDiode_paths (s : State) (n : Nat) (v : Diode) : (setDiode s n v).paths = s.paths := rfl
@[simp] theorem setDiode_pathReplays (s : State) (n : Nat) (v : Diode) : (setDiode s n v).pathReplays = s.pathReplays := rfl
@[simp] theorem setDiode_lanesSpared (s : State) (n : Nat) (v : Diode) : (setDiode s n v).lanesSpared = s.lanesSpared := rfl
@[simp] theorem setDiode_pathsFailed (s : State) (n : Nat) (v : Diode) : (setDiode s n v).pathsFailed = s.pathsFailed := rfl
@[simp] theorem setDiode_tricks (s : State) (n : Nat) (v : Diode) : (setDiode s n v).tricks = s.tricks := rfl
@[simp] theorem setDiode_known (s : State) (n : Nat) (v : Diode) : (setDiode s n v).known = s.known := rfl
@[simp] theorem setDiode_clusterPlays (s : State) (n : Nat) (v : Diode) : (setDiode s n v).clusterPlays = s.clusterPlays := rfl
@[simp] theorem setDiode_arrives (s : State) (n : Nat) (v : Diode) : (setDiode s n v).arrives = s.arrives := rfl
@[simp] theorem setDiode_releases (s : State) (n : Nat) (v : Diode) : (setDiode s n v).releases = s.releases := rfl
@[simp] theorem setDiode_streams (s : State) (n : Nat) (v : Diode) : (setDiode s n v).streams = s.streams := rfl
@[simp] theorem setDiode_creditFlight (s : State) (n : Nat) (v : Diode) : (setDiode s n v).creditFlight = s.creditFlight := rfl
@[simp] theorem setDiode_pushes (s : State) (n : Nat) (v : Diode) : (setDiode s n v).pushes = s.pushes := rfl
@[simp] theorem setDiode_latchFlight (s : State) (n : Nat) (v : Diode) : (setDiode s n v).latchFlight = s.latchFlight := rfl
@[simp] theorem setDiode_tallies (s : State) (n : Nat) (v : Diode) : (setDiode s n v).tallies = s.tallies := rfl
@[simp] theorem setDiode_spanLateDrops (s : State) (n : Nat) (v : Diode) : (setDiode s n v).spanLateDrops = s.spanLateDrops := rfl
@[simp] theorem setDiode_array (s : State) (n : Nat) (v : Diode) : (setDiode s n v).array = s.array := rfl
@[simp] theorem setDiode_stackMap (s : State) (n : Nat) (v : Diode) : (setDiode s n v).stackMap = s.stackMap := rfl
@[simp] theorem setDiode_regs (s : State) (n : Nat) (v : Diode) : (setDiode s n v).regs = s.regs := rfl
@[simp] theorem setDiode_regWait (s : State) (n : Nat) (v : Diode) : (setDiode s n v).regWait = s.regWait := rfl
@[simp] theorem setDiode_directory (s : State) (n : Nat) (v : Diode) : (setDiode s n v).directory = s.directory := rfl
@[simp] theorem setDiode_unrepaired (s : State) (n : Nat) (v : Diode) : (setDiode s n v).unrepaired = s.unrepaired := rfl
@[simp] theorem setDiode_refetches (s : State) (n : Nat) (v : Diode) : (setDiode s n v).refetches = s.refetches := rfl
@[simp] theorem setDiode_loader (s : State) (n : Nat) (v : Diode) : (setDiode s n v).loader = s.loader := rfl
@[simp] theorem setDiode_ports (s : State) (n : Nat) (v : Diode) : (setDiode s n v).ports = s.ports := rfl
@[simp] theorem setDiode_gen (s : State) (n : Nat) (v : Diode) : (setDiode s n v).gen = s.gen := rfl
@[simp] theorem setDiode_genLateDrops (s : State) (n : Nat) (v : Diode) : (setDiode s n v).genLateDrops = s.genLateDrops := rfl
@[simp] theorem setDiode_quarThreshold (s : State) (n : Nat) (v : Diode) : (setDiode s n v).quarThreshold = s.quarThreshold := rfl
@[simp] theorem setDiode_routes (s : State) (n : Nat) (v : Diode) : (setDiode s n v).routes = s.routes := rfl
@[simp] theorem setDiode_routesPending (s : State) (n : Nat) (v : Diode) : (setDiode s n v).routesPending = s.routesPending := rfl
@[simp] theorem setDiode_lastRound (s : State) (n : Nat) (v : Diode) : (setDiode s n v).lastRound = s.lastRound := rfl
@[simp] theorem setDiode_fabOut (s : State) (n : Nat) (v : Diode) : (setDiode s n v).fabOut = s.fabOut := rfl
@[simp] theorem setDiode_flitOut (s : State) (n : Nat) (v : Diode) : (setDiode s n v).flitOut = s.flitOut := rfl
@[simp] theorem setDiode_mctpParts (s : State) (n : Nat) (v : Diode) : (setDiode s n v).mctpParts = s.mctpParts := rfl
@[simp] theorem setDiode_fabTags (s : State) (n : Nat) (v : Diode) : (setDiode s n v).fabTags = s.fabTags := rfl
@[simp] theorem setDiode_fabTag (s : State) (n : Nat) (v : Diode) : (setDiode s n v).fabTag = s.fabTag := rfl
@[simp] theorem setDiode_channels (s : State) (n : Nat) (v : Diode) : (setDiode s n v).channels = s.channels := rfl
@[simp] theorem setDiode_sessions (s : State) (n : Nat) (v : Diode) : (setDiode s n v).sessions = s.sessions := rfl
@[simp] theorem setDiode_admitNext (s : State) (n : Nat) (v : Diode) : (setDiode s n v).admitNext = s.admitNext := rfl
@[simp] theorem setDiode_tables (s : State) (n : Nat) (v : Diode) : (setDiode s n v).tables = s.tables := rfl
@[simp] theorem setDiode_rounds (s : State) (n : Nat) (v : Diode) : (setDiode s n v).rounds = s.rounds := rfl
@[simp] theorem setDiode_cache (s : State) (n : Nat) (v : Diode) : (setDiode s n v).cache = s.cache := rfl
@[simp] theorem setDiode_host (s : State) (n : Nat) (v : Diode) : (setDiode s n v).host = s.host := rfl
@[simp] theorem setDiode_replies (s : State) (n : Nat) (v : Diode) : (setDiode s n v).replies = s.replies := rfl
@[simp] theorem setDiode_background (s : State) (n : Nat) (v : Diode) : (setDiode s n v).background = s.background := rfl
@[simp] theorem setDiode_logs (s : State) (n : Nat) (v : Diode) : (setDiode s n v).logs = s.logs := rfl
@[simp] theorem setDiode_seqs (s : State) (n : Nat) (v : Diode) : (setDiode s n v).seqs = s.seqs := rfl
@[simp] theorem setDiode_meter (s : State) (n : Nat) (v : Diode) : (setDiode s n v).meter = s.meter := rfl
@[simp] theorem setDiode_meterHi (s : State) (n : Nat) (v : Diode) : (setDiode s n v).meterHi = s.meterHi := rfl
@[simp] theorem setDiode_talHi (s : State) (n : Nat) (v : Diode) : (setDiode s n v).talHi = s.talHi := rfl
@[simp] theorem setDiode_ringOsc (s : State) (n : Nat) (v : Diode) : (setDiode s n v).ringOsc = s.ringOsc := rfl
@[simp] theorem setDiode_deadlines (s : State) (n : Nat) (v : Diode) : (setDiode s n v).deadlines = s.deadlines := rfl
@[simp] theorem setDiode_refLostSeen (s : State) (n : Nat) (v : Diode) : (setDiode s n v).refLostSeen = s.refLostSeen := rfl
@[simp] theorem setDiode_pace (s : State) (n : Nat) (v : Diode) : (setDiode s n v).pace = s.pace := rfl
@[simp] theorem setDiode_ctl (s : State) (n : Nat) (v : Diode) : (setDiode s n v).ctl = s.ctl := rfl
@[simp] theorem setDiode_sec (s : State) (n : Nat) (v : Diode) : (setDiode s n v).sec = s.sec := rfl
@[simp] theorem setDiode_power_inputOn (s : State) (n : Nat) (v : Diode) : (setDiode s n v).power.inputOn = s.power.inputOn := rfl
@[simp] theorem setDiode_power_inputLow (s : State) (n : Nat) (v : Diode) : (setDiode s n v).power.inputLow = s.power.inputLow := rfl
@[simp] theorem setDiode_power_voltage (s : State) (n : Nat) (v : Diode) : (setDiode s n v).power.voltage = s.power.voltage := rfl
@[simp] theorem setDiode_power_enableOpen (s : State) (n : Nat) (v : Diode) : (setDiode s n v).power.enableOpen = s.power.enableOpen := rfl
@[simp] theorem setDiode_power_tripped (s : State) (n : Nat) (v : Diode) : (setDiode s n v).power.tripped = s.power.tripped := rfl
@[simp] theorem setDiode_power_tripLatch (s : State) (n : Nat) (v : Diode) : (setDiode s n v).power.tripLatch = s.power.tripLatch := rfl
@[simp] theorem setDiode_power_domains (s : State) (n : Nat) (v : Diode) : (setDiode s n v).power.domains = s.power.domains := rfl
@[simp] theorem setDiode_power_depthDie (s : State) (n : Nat) (v : Diode) : (setDiode s n v).power.depthDie = s.power.depthDie := rfl
@[simp] theorem setDiode_power_depthNb0 (s : State) (n : Nat) (v : Diode) : (setDiode s n v).power.depthNb0 = s.power.depthNb0 := rfl
@[simp] theorem setDiode_power_depthNb1 (s : State) (n : Nat) (v : Diode) : (setDiode s n v).power.depthNb1 = s.power.depthNb1 := rfl
@[simp] theorem setDiode_power_floorDie (s : State) (n : Nat) (v : Diode) : (setDiode s n v).power.floorDie = s.power.floorDie := rfl
@[simp] theorem setDiode_power_floorNb0 (s : State) (n : Nat) (v : Diode) : (setDiode s n v).power.floorNb0 = s.power.floorNb0 := rfl
@[simp] theorem setDiode_power_floorNb1 (s : State) (n : Nat) (v : Diode) : (setDiode s n v).power.floorNb1 = s.power.floorNb1 := rfl
@[simp] theorem setDiode_power_throttleAt (s : State) (n : Nat) (v : Diode) : (setDiode s n v).power.throttleAt = s.power.throttleAt := rfl
@[simp] theorem setDiode_power_limitRejected (s : State) (n : Nat) (v : Diode) : (setDiode s n v).power.limitRejected = s.power.limitRejected := rfl
@[simp] theorem setDiode_power_shutdown (s : State) (n : Nat) (v : Diode) : (setDiode s n v).power.shutdown = s.power.shutdown := rfl
@[simp] theorem setDiode_power_mgmtAddr (s : State) (n : Nat) (v : Diode) : (setDiode s n v).power.mgmtAddr = s.power.mgmtAddr := rfl
@[simp] theorem setDiode_power_watts (s : State) (n : Nat) (v : Diode) : (setDiode s n v).power.watts = s.power.watts := rfl

/-! ### Page -/

theorem getPage_setPage_same (s : State) (n : Nat) (v : Page) (h : swf Page.free s.cache.pages = true) : getPage (setPage s n v) n = v :=
  sget_sput_same Page.free _ n v h
theorem getPage_setPage_of_ne (s : State) (n : Nat) (v : Page) (h : v ≠ Page.free) : getPage (setPage s n v) n = v :=
  sget_sput_same_of_ne Page.free _ n v h
@[simp] theorem getPage_setPage_other (s : State) (n m : Nat) (v : Page) (h : m ≠ n) : getPage (setPage s n v) m = getPage s m :=
  sget_sput_other Page.free _ n m v h
theorem swf_setPage (s : State) (n : Nat) (v : Page) (h : swf Page.free s.cache.pages = true) : swf Page.free (setPage s n v).cache.pages = true :=
  swf_sput Page.free _ n v h
@[simp] theorem setPage_pending (s : State) (n : Nat) (v : Page) : (setPage s n v).pending = s.pending := rfl
@[simp] theorem setPage_freeNext (s : State) (n : Nat) (v : Page) : (setPage s n v).freeNext = s.freeNext := rfl
@[simp] theorem setPage_cores (s : State) (n : Nat) (v : Page) : (setPage s n v).cores = s.cores := rfl
@[simp] theorem setPage_kitty (s : State) (n : Nat) (v : Page) : (setPage s n v).kitty = s.kitty := rfl
@[simp] theorem setPage_repairMap (s : State) (n : Nat) (v : Page) : (setPage s n v).repairMap = s.repairMap := rfl
@[simp] theorem setPage_retiredCores (s : State) (n : Nat) (v : Page) : (setPage s n v).retiredCores = s.retiredCores := rfl
@[simp] theorem setPage_badCores (s : State) (n : Nat) (v : Page) : (setPage s n v).badCores = s.badCores := rfl
@[simp] theorem setPage_paths (s : State) (n : Nat) (v : Page) : (setPage s n v).paths = s.paths := rfl
@[simp] theorem setPage_pathReplays (s : State) (n : Nat) (v : Page) : (setPage s n v).pathReplays = s.pathReplays := rfl
@[simp] theorem setPage_lanesSpared (s : State) (n : Nat) (v : Page) : (setPage s n v).lanesSpared = s.lanesSpared := rfl
@[simp] theorem setPage_pathsFailed (s : State) (n : Nat) (v : Page) : (setPage s n v).pathsFailed = s.pathsFailed := rfl
@[simp] theorem setPage_tricks (s : State) (n : Nat) (v : Page) : (setPage s n v).tricks = s.tricks := rfl
@[simp] theorem setPage_known (s : State) (n : Nat) (v : Page) : (setPage s n v).known = s.known := rfl
@[simp] theorem setPage_clusterPlays (s : State) (n : Nat) (v : Page) : (setPage s n v).clusterPlays = s.clusterPlays := rfl
@[simp] theorem setPage_arrives (s : State) (n : Nat) (v : Page) : (setPage s n v).arrives = s.arrives := rfl
@[simp] theorem setPage_releases (s : State) (n : Nat) (v : Page) : (setPage s n v).releases = s.releases := rfl
@[simp] theorem setPage_streams (s : State) (n : Nat) (v : Page) : (setPage s n v).streams = s.streams := rfl
@[simp] theorem setPage_creditFlight (s : State) (n : Nat) (v : Page) : (setPage s n v).creditFlight = s.creditFlight := rfl
@[simp] theorem setPage_pushes (s : State) (n : Nat) (v : Page) : (setPage s n v).pushes = s.pushes := rfl
@[simp] theorem setPage_latchFlight (s : State) (n : Nat) (v : Page) : (setPage s n v).latchFlight = s.latchFlight := rfl
@[simp] theorem setPage_tallies (s : State) (n : Nat) (v : Page) : (setPage s n v).tallies = s.tallies := rfl
@[simp] theorem setPage_spanLateDrops (s : State) (n : Nat) (v : Page) : (setPage s n v).spanLateDrops = s.spanLateDrops := rfl
@[simp] theorem setPage_array (s : State) (n : Nat) (v : Page) : (setPage s n v).array = s.array := rfl
@[simp] theorem setPage_stackMap (s : State) (n : Nat) (v : Page) : (setPage s n v).stackMap = s.stackMap := rfl
@[simp] theorem setPage_regs (s : State) (n : Nat) (v : Page) : (setPage s n v).regs = s.regs := rfl
@[simp] theorem setPage_regWait (s : State) (n : Nat) (v : Page) : (setPage s n v).regWait = s.regWait := rfl
@[simp] theorem setPage_directory (s : State) (n : Nat) (v : Page) : (setPage s n v).directory = s.directory := rfl
@[simp] theorem setPage_unrepaired (s : State) (n : Nat) (v : Page) : (setPage s n v).unrepaired = s.unrepaired := rfl
@[simp] theorem setPage_refetches (s : State) (n : Nat) (v : Page) : (setPage s n v).refetches = s.refetches := rfl
@[simp] theorem setPage_loader (s : State) (n : Nat) (v : Page) : (setPage s n v).loader = s.loader := rfl
@[simp] theorem setPage_ports (s : State) (n : Nat) (v : Page) : (setPage s n v).ports = s.ports := rfl
@[simp] theorem setPage_gen (s : State) (n : Nat) (v : Page) : (setPage s n v).gen = s.gen := rfl
@[simp] theorem setPage_genLateDrops (s : State) (n : Nat) (v : Page) : (setPage s n v).genLateDrops = s.genLateDrops := rfl
@[simp] theorem setPage_quarThreshold (s : State) (n : Nat) (v : Page) : (setPage s n v).quarThreshold = s.quarThreshold := rfl
@[simp] theorem setPage_routes (s : State) (n : Nat) (v : Page) : (setPage s n v).routes = s.routes := rfl
@[simp] theorem setPage_routesPending (s : State) (n : Nat) (v : Page) : (setPage s n v).routesPending = s.routesPending := rfl
@[simp] theorem setPage_lastRound (s : State) (n : Nat) (v : Page) : (setPage s n v).lastRound = s.lastRound := rfl
@[simp] theorem setPage_fabOut (s : State) (n : Nat) (v : Page) : (setPage s n v).fabOut = s.fabOut := rfl
@[simp] theorem setPage_flitOut (s : State) (n : Nat) (v : Page) : (setPage s n v).flitOut = s.flitOut := rfl
@[simp] theorem setPage_mctpParts (s : State) (n : Nat) (v : Page) : (setPage s n v).mctpParts = s.mctpParts := rfl
@[simp] theorem setPage_fabTags (s : State) (n : Nat) (v : Page) : (setPage s n v).fabTags = s.fabTags := rfl
@[simp] theorem setPage_fabTag (s : State) (n : Nat) (v : Page) : (setPage s n v).fabTag = s.fabTag := rfl
@[simp] theorem setPage_channels (s : State) (n : Nat) (v : Page) : (setPage s n v).channels = s.channels := rfl
@[simp] theorem setPage_sessions (s : State) (n : Nat) (v : Page) : (setPage s n v).sessions = s.sessions := rfl
@[simp] theorem setPage_admitNext (s : State) (n : Nat) (v : Page) : (setPage s n v).admitNext = s.admitNext := rfl
@[simp] theorem setPage_tables (s : State) (n : Nat) (v : Page) : (setPage s n v).tables = s.tables := rfl
@[simp] theorem setPage_rounds (s : State) (n : Nat) (v : Page) : (setPage s n v).rounds = s.rounds := rfl
@[simp] theorem setPage_host (s : State) (n : Nat) (v : Page) : (setPage s n v).host = s.host := rfl
@[simp] theorem setPage_replies (s : State) (n : Nat) (v : Page) : (setPage s n v).replies = s.replies := rfl
@[simp] theorem setPage_background (s : State) (n : Nat) (v : Page) : (setPage s n v).background = s.background := rfl
@[simp] theorem setPage_logs (s : State) (n : Nat) (v : Page) : (setPage s n v).logs = s.logs := rfl
@[simp] theorem setPage_seqs (s : State) (n : Nat) (v : Page) : (setPage s n v).seqs = s.seqs := rfl
@[simp] theorem setPage_meter (s : State) (n : Nat) (v : Page) : (setPage s n v).meter = s.meter := rfl
@[simp] theorem setPage_meterHi (s : State) (n : Nat) (v : Page) : (setPage s n v).meterHi = s.meterHi := rfl
@[simp] theorem setPage_talHi (s : State) (n : Nat) (v : Page) : (setPage s n v).talHi = s.talHi := rfl
@[simp] theorem setPage_ringOsc (s : State) (n : Nat) (v : Page) : (setPage s n v).ringOsc = s.ringOsc := rfl
@[simp] theorem setPage_deadlines (s : State) (n : Nat) (v : Page) : (setPage s n v).deadlines = s.deadlines := rfl
@[simp] theorem setPage_refLostSeen (s : State) (n : Nat) (v : Page) : (setPage s n v).refLostSeen = s.refLostSeen := rfl
@[simp] theorem setPage_pace (s : State) (n : Nat) (v : Page) : (setPage s n v).pace = s.pace := rfl
@[simp] theorem setPage_power (s : State) (n : Nat) (v : Page) : (setPage s n v).power = s.power := rfl
@[simp] theorem setPage_ctl (s : State) (n : Nat) (v : Page) : (setPage s n v).ctl = s.ctl := rfl
@[simp] theorem setPage_sec (s : State) (n : Nat) (v : Page) : (setPage s n v).sec = s.sec := rfl
@[simp] theorem modPage_pending (s : State) (n : Nat) (v : Page → Page) : (modPage s n v).pending = s.pending := rfl
@[simp] theorem modPage_freeNext (s : State) (n : Nat) (v : Page → Page) : (modPage s n v).freeNext = s.freeNext := rfl
@[simp] theorem modPage_cores (s : State) (n : Nat) (v : Page → Page) : (modPage s n v).cores = s.cores := rfl
@[simp] theorem modPage_kitty (s : State) (n : Nat) (v : Page → Page) : (modPage s n v).kitty = s.kitty := rfl
@[simp] theorem modPage_repairMap (s : State) (n : Nat) (v : Page → Page) : (modPage s n v).repairMap = s.repairMap := rfl
@[simp] theorem modPage_retiredCores (s : State) (n : Nat) (v : Page → Page) : (modPage s n v).retiredCores = s.retiredCores := rfl
@[simp] theorem modPage_badCores (s : State) (n : Nat) (v : Page → Page) : (modPage s n v).badCores = s.badCores := rfl
@[simp] theorem modPage_paths (s : State) (n : Nat) (v : Page → Page) : (modPage s n v).paths = s.paths := rfl
@[simp] theorem modPage_pathReplays (s : State) (n : Nat) (v : Page → Page) : (modPage s n v).pathReplays = s.pathReplays := rfl
@[simp] theorem modPage_lanesSpared (s : State) (n : Nat) (v : Page → Page) : (modPage s n v).lanesSpared = s.lanesSpared := rfl
@[simp] theorem modPage_pathsFailed (s : State) (n : Nat) (v : Page → Page) : (modPage s n v).pathsFailed = s.pathsFailed := rfl
@[simp] theorem modPage_tricks (s : State) (n : Nat) (v : Page → Page) : (modPage s n v).tricks = s.tricks := rfl
@[simp] theorem modPage_known (s : State) (n : Nat) (v : Page → Page) : (modPage s n v).known = s.known := rfl
@[simp] theorem modPage_clusterPlays (s : State) (n : Nat) (v : Page → Page) : (modPage s n v).clusterPlays = s.clusterPlays := rfl
@[simp] theorem modPage_arrives (s : State) (n : Nat) (v : Page → Page) : (modPage s n v).arrives = s.arrives := rfl
@[simp] theorem modPage_releases (s : State) (n : Nat) (v : Page → Page) : (modPage s n v).releases = s.releases := rfl
@[simp] theorem modPage_streams (s : State) (n : Nat) (v : Page → Page) : (modPage s n v).streams = s.streams := rfl
@[simp] theorem modPage_creditFlight (s : State) (n : Nat) (v : Page → Page) : (modPage s n v).creditFlight = s.creditFlight := rfl
@[simp] theorem modPage_pushes (s : State) (n : Nat) (v : Page → Page) : (modPage s n v).pushes = s.pushes := rfl
@[simp] theorem modPage_latchFlight (s : State) (n : Nat) (v : Page → Page) : (modPage s n v).latchFlight = s.latchFlight := rfl
@[simp] theorem modPage_tallies (s : State) (n : Nat) (v : Page → Page) : (modPage s n v).tallies = s.tallies := rfl
@[simp] theorem modPage_spanLateDrops (s : State) (n : Nat) (v : Page → Page) : (modPage s n v).spanLateDrops = s.spanLateDrops := rfl
@[simp] theorem modPage_array (s : State) (n : Nat) (v : Page → Page) : (modPage s n v).array = s.array := rfl
@[simp] theorem modPage_stackMap (s : State) (n : Nat) (v : Page → Page) : (modPage s n v).stackMap = s.stackMap := rfl
@[simp] theorem modPage_regs (s : State) (n : Nat) (v : Page → Page) : (modPage s n v).regs = s.regs := rfl
@[simp] theorem modPage_regWait (s : State) (n : Nat) (v : Page → Page) : (modPage s n v).regWait = s.regWait := rfl
@[simp] theorem modPage_directory (s : State) (n : Nat) (v : Page → Page) : (modPage s n v).directory = s.directory := rfl
@[simp] theorem modPage_unrepaired (s : State) (n : Nat) (v : Page → Page) : (modPage s n v).unrepaired = s.unrepaired := rfl
@[simp] theorem modPage_refetches (s : State) (n : Nat) (v : Page → Page) : (modPage s n v).refetches = s.refetches := rfl
@[simp] theorem modPage_loader (s : State) (n : Nat) (v : Page → Page) : (modPage s n v).loader = s.loader := rfl
@[simp] theorem modPage_ports (s : State) (n : Nat) (v : Page → Page) : (modPage s n v).ports = s.ports := rfl
@[simp] theorem modPage_gen (s : State) (n : Nat) (v : Page → Page) : (modPage s n v).gen = s.gen := rfl
@[simp] theorem modPage_genLateDrops (s : State) (n : Nat) (v : Page → Page) : (modPage s n v).genLateDrops = s.genLateDrops := rfl
@[simp] theorem modPage_quarThreshold (s : State) (n : Nat) (v : Page → Page) : (modPage s n v).quarThreshold = s.quarThreshold := rfl
@[simp] theorem modPage_routes (s : State) (n : Nat) (v : Page → Page) : (modPage s n v).routes = s.routes := rfl
@[simp] theorem modPage_routesPending (s : State) (n : Nat) (v : Page → Page) : (modPage s n v).routesPending = s.routesPending := rfl
@[simp] theorem modPage_lastRound (s : State) (n : Nat) (v : Page → Page) : (modPage s n v).lastRound = s.lastRound := rfl
@[simp] theorem modPage_fabOut (s : State) (n : Nat) (v : Page → Page) : (modPage s n v).fabOut = s.fabOut := rfl
@[simp] theorem modPage_flitOut (s : State) (n : Nat) (v : Page → Page) : (modPage s n v).flitOut = s.flitOut := rfl
@[simp] theorem modPage_mctpParts (s : State) (n : Nat) (v : Page → Page) : (modPage s n v).mctpParts = s.mctpParts := rfl
@[simp] theorem modPage_fabTags (s : State) (n : Nat) (v : Page → Page) : (modPage s n v).fabTags = s.fabTags := rfl
@[simp] theorem modPage_fabTag (s : State) (n : Nat) (v : Page → Page) : (modPage s n v).fabTag = s.fabTag := rfl
@[simp] theorem modPage_channels (s : State) (n : Nat) (v : Page → Page) : (modPage s n v).channels = s.channels := rfl
@[simp] theorem modPage_sessions (s : State) (n : Nat) (v : Page → Page) : (modPage s n v).sessions = s.sessions := rfl
@[simp] theorem modPage_admitNext (s : State) (n : Nat) (v : Page → Page) : (modPage s n v).admitNext = s.admitNext := rfl
@[simp] theorem modPage_tables (s : State) (n : Nat) (v : Page → Page) : (modPage s n v).tables = s.tables := rfl
@[simp] theorem modPage_rounds (s : State) (n : Nat) (v : Page → Page) : (modPage s n v).rounds = s.rounds := rfl
@[simp] theorem modPage_host (s : State) (n : Nat) (v : Page → Page) : (modPage s n v).host = s.host := rfl
@[simp] theorem modPage_replies (s : State) (n : Nat) (v : Page → Page) : (modPage s n v).replies = s.replies := rfl
@[simp] theorem modPage_background (s : State) (n : Nat) (v : Page → Page) : (modPage s n v).background = s.background := rfl
@[simp] theorem modPage_logs (s : State) (n : Nat) (v : Page → Page) : (modPage s n v).logs = s.logs := rfl
@[simp] theorem modPage_seqs (s : State) (n : Nat) (v : Page → Page) : (modPage s n v).seqs = s.seqs := rfl
@[simp] theorem modPage_meter (s : State) (n : Nat) (v : Page → Page) : (modPage s n v).meter = s.meter := rfl
@[simp] theorem modPage_meterHi (s : State) (n : Nat) (v : Page → Page) : (modPage s n v).meterHi = s.meterHi := rfl
@[simp] theorem modPage_talHi (s : State) (n : Nat) (v : Page → Page) : (modPage s n v).talHi = s.talHi := rfl
@[simp] theorem modPage_ringOsc (s : State) (n : Nat) (v : Page → Page) : (modPage s n v).ringOsc = s.ringOsc := rfl
@[simp] theorem modPage_deadlines (s : State) (n : Nat) (v : Page → Page) : (modPage s n v).deadlines = s.deadlines := rfl
@[simp] theorem modPage_refLostSeen (s : State) (n : Nat) (v : Page → Page) : (modPage s n v).refLostSeen = s.refLostSeen := rfl
@[simp] theorem modPage_pace (s : State) (n : Nat) (v : Page → Page) : (modPage s n v).pace = s.pace := rfl
@[simp] theorem modPage_power (s : State) (n : Nat) (v : Page → Page) : (modPage s n v).power = s.power := rfl
@[simp] theorem modPage_ctl (s : State) (n : Nat) (v : Page → Page) : (modPage s n v).ctl = s.ctl := rfl
@[simp] theorem modPage_sec (s : State) (n : Nat) (v : Page → Page) : (modPage s n v).sec = s.sec := rfl
@[simp] theorem setPage_cache_rebuilding (s : State) (n : Nat) (v : Page) : (setPage s n v).cache.rebuilding = s.cache.rebuilding := rfl
@[simp] theorem setPage_cache_scanNext (s : State) (n : Nat) (v : Page) : (setPage s n v).cache.scanNext = s.cache.scanNext := rfl
@[simp] theorem setPage_cache_entered (s : State) (n : Nat) (v : Page) : (setPage s n v).cache.entered = s.cache.entered := rfl
@[simp] theorem setPage_cache_pins (s : State) (n : Nat) (v : Page) : (setPage s n v).cache.pins = s.cache.pins := rfl
@[simp] theorem setPage_cache_spillUsed (s : State) (n : Nat) (v : Page) : (setPage s n v).cache.spillUsed = s.cache.spillUsed := rfl
@[simp] theorem setPage_cache_buckets (s : State) (n : Nat) (v : Page) : (setPage s n v).cache.buckets = s.cache.buckets := rfl
@[simp] theorem setPage_cache_collided (s : State) (n : Nat) (v : Page) : (setPage s n v).cache.collided = s.cache.collided := rfl
@[simp] theorem setPage_cache_treeFullAt (s : State) (n : Nat) (v : Page) : (setPage s n v).cache.treeFullAt = s.cache.treeFullAt := rfl
@[simp] theorem setPage_cache_jobs (s : State) (n : Nat) (v : Page) : (setPage s n v).cache.jobs = s.cache.jobs := rfl
@[simp] theorem modPage_cache_rebuilding (s : State) (n : Nat) (v : Page → Page) : (modPage s n v).cache.rebuilding = s.cache.rebuilding := rfl
@[simp] theorem modPage_cache_scanNext (s : State) (n : Nat) (v : Page → Page) : (modPage s n v).cache.scanNext = s.cache.scanNext := rfl
@[simp] theorem modPage_cache_entered (s : State) (n : Nat) (v : Page → Page) : (modPage s n v).cache.entered = s.cache.entered := rfl
@[simp] theorem modPage_cache_pins (s : State) (n : Nat) (v : Page → Page) : (modPage s n v).cache.pins = s.cache.pins := rfl
@[simp] theorem modPage_cache_spillUsed (s : State) (n : Nat) (v : Page → Page) : (modPage s n v).cache.spillUsed = s.cache.spillUsed := rfl
@[simp] theorem modPage_cache_buckets (s : State) (n : Nat) (v : Page → Page) : (modPage s n v).cache.buckets = s.cache.buckets := rfl
@[simp] theorem modPage_cache_collided (s : State) (n : Nat) (v : Page → Page) : (modPage s n v).cache.collided = s.cache.collided := rfl
@[simp] theorem modPage_cache_treeFullAt (s : State) (n : Nat) (v : Page → Page) : (modPage s n v).cache.treeFullAt = s.cache.treeFullAt := rfl
@[simp] theorem modPage_cache_jobs (s : State) (n : Nat) (v : Page → Page) : (modPage s n v).cache.jobs = s.cache.jobs := rfl

/-! ### Tally -/

theorem getTally_setTally_same (s : State) (n : Nat) (v : TableTally) (h : swf TableTally.zero s.tallies = true) : getTally (setTally s n v) n = v :=
  sget_sput_same TableTally.zero _ n v h
theorem getTally_setTally_of_ne (s : State) (n : Nat) (v : TableTally) (h : v ≠ TableTally.zero) : getTally (setTally s n v) n = v :=
  sget_sput_same_of_ne TableTally.zero _ n v h
@[simp] theorem getTally_setTally_other (s : State) (n m : Nat) (v : TableTally) (h : m ≠ n) : getTally (setTally s n v) m = getTally s m :=
  sget_sput_other TableTally.zero _ n m v h
theorem swf_setTally (s : State) (n : Nat) (v : TableTally) (h : swf TableTally.zero s.tallies = true) : swf TableTally.zero (setTally s n v).tallies = true :=
  swf_sput TableTally.zero _ n v h
@[simp] theorem setTally_pending (s : State) (n : Nat) (v : TableTally) : (setTally s n v).pending = s.pending := rfl
@[simp] theorem setTally_freeNext (s : State) (n : Nat) (v : TableTally) : (setTally s n v).freeNext = s.freeNext := rfl
@[simp] theorem setTally_cores (s : State) (n : Nat) (v : TableTally) : (setTally s n v).cores = s.cores := rfl
@[simp] theorem setTally_kitty (s : State) (n : Nat) (v : TableTally) : (setTally s n v).kitty = s.kitty := rfl
@[simp] theorem setTally_repairMap (s : State) (n : Nat) (v : TableTally) : (setTally s n v).repairMap = s.repairMap := rfl
@[simp] theorem setTally_retiredCores (s : State) (n : Nat) (v : TableTally) : (setTally s n v).retiredCores = s.retiredCores := rfl
@[simp] theorem setTally_badCores (s : State) (n : Nat) (v : TableTally) : (setTally s n v).badCores = s.badCores := rfl
@[simp] theorem setTally_paths (s : State) (n : Nat) (v : TableTally) : (setTally s n v).paths = s.paths := rfl
@[simp] theorem setTally_pathReplays (s : State) (n : Nat) (v : TableTally) : (setTally s n v).pathReplays = s.pathReplays := rfl
@[simp] theorem setTally_lanesSpared (s : State) (n : Nat) (v : TableTally) : (setTally s n v).lanesSpared = s.lanesSpared := rfl
@[simp] theorem setTally_pathsFailed (s : State) (n : Nat) (v : TableTally) : (setTally s n v).pathsFailed = s.pathsFailed := rfl
@[simp] theorem setTally_tricks (s : State) (n : Nat) (v : TableTally) : (setTally s n v).tricks = s.tricks := rfl
@[simp] theorem setTally_known (s : State) (n : Nat) (v : TableTally) : (setTally s n v).known = s.known := rfl
@[simp] theorem setTally_clusterPlays (s : State) (n : Nat) (v : TableTally) : (setTally s n v).clusterPlays = s.clusterPlays := rfl
@[simp] theorem setTally_arrives (s : State) (n : Nat) (v : TableTally) : (setTally s n v).arrives = s.arrives := rfl
@[simp] theorem setTally_releases (s : State) (n : Nat) (v : TableTally) : (setTally s n v).releases = s.releases := rfl
@[simp] theorem setTally_streams (s : State) (n : Nat) (v : TableTally) : (setTally s n v).streams = s.streams := rfl
@[simp] theorem setTally_creditFlight (s : State) (n : Nat) (v : TableTally) : (setTally s n v).creditFlight = s.creditFlight := rfl
@[simp] theorem setTally_pushes (s : State) (n : Nat) (v : TableTally) : (setTally s n v).pushes = s.pushes := rfl
@[simp] theorem setTally_latchFlight (s : State) (n : Nat) (v : TableTally) : (setTally s n v).latchFlight = s.latchFlight := rfl
@[simp] theorem setTally_spanLateDrops (s : State) (n : Nat) (v : TableTally) : (setTally s n v).spanLateDrops = s.spanLateDrops := rfl
@[simp] theorem setTally_array (s : State) (n : Nat) (v : TableTally) : (setTally s n v).array = s.array := rfl
@[simp] theorem setTally_stackMap (s : State) (n : Nat) (v : TableTally) : (setTally s n v).stackMap = s.stackMap := rfl
@[simp] theorem setTally_regs (s : State) (n : Nat) (v : TableTally) : (setTally s n v).regs = s.regs := rfl
@[simp] theorem setTally_regWait (s : State) (n : Nat) (v : TableTally) : (setTally s n v).regWait = s.regWait := rfl
@[simp] theorem setTally_directory (s : State) (n : Nat) (v : TableTally) : (setTally s n v).directory = s.directory := rfl
@[simp] theorem setTally_unrepaired (s : State) (n : Nat) (v : TableTally) : (setTally s n v).unrepaired = s.unrepaired := rfl
@[simp] theorem setTally_refetches (s : State) (n : Nat) (v : TableTally) : (setTally s n v).refetches = s.refetches := rfl
@[simp] theorem setTally_loader (s : State) (n : Nat) (v : TableTally) : (setTally s n v).loader = s.loader := rfl
@[simp] theorem setTally_ports (s : State) (n : Nat) (v : TableTally) : (setTally s n v).ports = s.ports := rfl
@[simp] theorem setTally_gen (s : State) (n : Nat) (v : TableTally) : (setTally s n v).gen = s.gen := rfl
@[simp] theorem setTally_genLateDrops (s : State) (n : Nat) (v : TableTally) : (setTally s n v).genLateDrops = s.genLateDrops := rfl
@[simp] theorem setTally_quarThreshold (s : State) (n : Nat) (v : TableTally) : (setTally s n v).quarThreshold = s.quarThreshold := rfl
@[simp] theorem setTally_routes (s : State) (n : Nat) (v : TableTally) : (setTally s n v).routes = s.routes := rfl
@[simp] theorem setTally_routesPending (s : State) (n : Nat) (v : TableTally) : (setTally s n v).routesPending = s.routesPending := rfl
@[simp] theorem setTally_lastRound (s : State) (n : Nat) (v : TableTally) : (setTally s n v).lastRound = s.lastRound := rfl
@[simp] theorem setTally_fabOut (s : State) (n : Nat) (v : TableTally) : (setTally s n v).fabOut = s.fabOut := rfl
@[simp] theorem setTally_flitOut (s : State) (n : Nat) (v : TableTally) : (setTally s n v).flitOut = s.flitOut := rfl
@[simp] theorem setTally_mctpParts (s : State) (n : Nat) (v : TableTally) : (setTally s n v).mctpParts = s.mctpParts := rfl
@[simp] theorem setTally_fabTags (s : State) (n : Nat) (v : TableTally) : (setTally s n v).fabTags = s.fabTags := rfl
@[simp] theorem setTally_fabTag (s : State) (n : Nat) (v : TableTally) : (setTally s n v).fabTag = s.fabTag := rfl
@[simp] theorem setTally_channels (s : State) (n : Nat) (v : TableTally) : (setTally s n v).channels = s.channels := rfl
@[simp] theorem setTally_sessions (s : State) (n : Nat) (v : TableTally) : (setTally s n v).sessions = s.sessions := rfl
@[simp] theorem setTally_admitNext (s : State) (n : Nat) (v : TableTally) : (setTally s n v).admitNext = s.admitNext := rfl
@[simp] theorem setTally_tables (s : State) (n : Nat) (v : TableTally) : (setTally s n v).tables = s.tables := rfl
@[simp] theorem setTally_rounds (s : State) (n : Nat) (v : TableTally) : (setTally s n v).rounds = s.rounds := rfl
@[simp] theorem setTally_cache (s : State) (n : Nat) (v : TableTally) : (setTally s n v).cache = s.cache := rfl
@[simp] theorem setTally_host (s : State) (n : Nat) (v : TableTally) : (setTally s n v).host = s.host := rfl
@[simp] theorem setTally_replies (s : State) (n : Nat) (v : TableTally) : (setTally s n v).replies = s.replies := rfl
@[simp] theorem setTally_background (s : State) (n : Nat) (v : TableTally) : (setTally s n v).background = s.background := rfl
@[simp] theorem setTally_logs (s : State) (n : Nat) (v : TableTally) : (setTally s n v).logs = s.logs := rfl
@[simp] theorem setTally_seqs (s : State) (n : Nat) (v : TableTally) : (setTally s n v).seqs = s.seqs := rfl
@[simp] theorem setTally_meter (s : State) (n : Nat) (v : TableTally) : (setTally s n v).meter = s.meter := rfl
@[simp] theorem setTally_meterHi (s : State) (n : Nat) (v : TableTally) : (setTally s n v).meterHi = s.meterHi := rfl
@[simp] theorem setTally_talHi (s : State) (n : Nat) (v : TableTally) : (setTally s n v).talHi = s.talHi := rfl
@[simp] theorem setTally_ringOsc (s : State) (n : Nat) (v : TableTally) : (setTally s n v).ringOsc = s.ringOsc := rfl
@[simp] theorem setTally_deadlines (s : State) (n : Nat) (v : TableTally) : (setTally s n v).deadlines = s.deadlines := rfl
@[simp] theorem setTally_refLostSeen (s : State) (n : Nat) (v : TableTally) : (setTally s n v).refLostSeen = s.refLostSeen := rfl
@[simp] theorem setTally_pace (s : State) (n : Nat) (v : TableTally) : (setTally s n v).pace = s.pace := rfl
@[simp] theorem setTally_power (s : State) (n : Nat) (v : TableTally) : (setTally s n v).power = s.power := rfl
@[simp] theorem setTally_ctl (s : State) (n : Nat) (v : TableTally) : (setTally s n v).ctl = s.ctl := rfl
@[simp] theorem setTally_sec (s : State) (n : Nat) (v : TableTally) : (setTally s n v).sec = s.sec := rfl

/-! ### Ctl -/

@[simp] theorem modCtl_ctl (s : State) (f : Control → Control) : (modCtl s f).ctl = f s.ctl := rfl
@[simp] theorem modCtl_pending (s : State) (f : Control → Control) : (modCtl s f).pending = s.pending := rfl
@[simp] theorem modCtl_freeNext (s : State) (f : Control → Control) : (modCtl s f).freeNext = s.freeNext := rfl
@[simp] theorem modCtl_cores (s : State) (f : Control → Control) : (modCtl s f).cores = s.cores := rfl
@[simp] theorem modCtl_kitty (s : State) (f : Control → Control) : (modCtl s f).kitty = s.kitty := rfl
@[simp] theorem modCtl_repairMap (s : State) (f : Control → Control) : (modCtl s f).repairMap = s.repairMap := rfl
@[simp] theorem modCtl_retiredCores (s : State) (f : Control → Control) : (modCtl s f).retiredCores = s.retiredCores := rfl
@[simp] theorem modCtl_badCores (s : State) (f : Control → Control) : (modCtl s f).badCores = s.badCores := rfl
@[simp] theorem modCtl_paths (s : State) (f : Control → Control) : (modCtl s f).paths = s.paths := rfl
@[simp] theorem modCtl_pathReplays (s : State) (f : Control → Control) : (modCtl s f).pathReplays = s.pathReplays := rfl
@[simp] theorem modCtl_lanesSpared (s : State) (f : Control → Control) : (modCtl s f).lanesSpared = s.lanesSpared := rfl
@[simp] theorem modCtl_pathsFailed (s : State) (f : Control → Control) : (modCtl s f).pathsFailed = s.pathsFailed := rfl
@[simp] theorem modCtl_tricks (s : State) (f : Control → Control) : (modCtl s f).tricks = s.tricks := rfl
@[simp] theorem modCtl_known (s : State) (f : Control → Control) : (modCtl s f).known = s.known := rfl
@[simp] theorem modCtl_clusterPlays (s : State) (f : Control → Control) : (modCtl s f).clusterPlays = s.clusterPlays := rfl
@[simp] theorem modCtl_arrives (s : State) (f : Control → Control) : (modCtl s f).arrives = s.arrives := rfl
@[simp] theorem modCtl_releases (s : State) (f : Control → Control) : (modCtl s f).releases = s.releases := rfl
@[simp] theorem modCtl_streams (s : State) (f : Control → Control) : (modCtl s f).streams = s.streams := rfl
@[simp] theorem modCtl_creditFlight (s : State) (f : Control → Control) : (modCtl s f).creditFlight = s.creditFlight := rfl
@[simp] theorem modCtl_pushes (s : State) (f : Control → Control) : (modCtl s f).pushes = s.pushes := rfl
@[simp] theorem modCtl_latchFlight (s : State) (f : Control → Control) : (modCtl s f).latchFlight = s.latchFlight := rfl
@[simp] theorem modCtl_tallies (s : State) (f : Control → Control) : (modCtl s f).tallies = s.tallies := rfl
@[simp] theorem modCtl_spanLateDrops (s : State) (f : Control → Control) : (modCtl s f).spanLateDrops = s.spanLateDrops := rfl
@[simp] theorem modCtl_array (s : State) (f : Control → Control) : (modCtl s f).array = s.array := rfl
@[simp] theorem modCtl_stackMap (s : State) (f : Control → Control) : (modCtl s f).stackMap = s.stackMap := rfl
@[simp] theorem modCtl_regs (s : State) (f : Control → Control) : (modCtl s f).regs = s.regs := rfl
@[simp] theorem modCtl_regWait (s : State) (f : Control → Control) : (modCtl s f).regWait = s.regWait := rfl
@[simp] theorem modCtl_directory (s : State) (f : Control → Control) : (modCtl s f).directory = s.directory := rfl
@[simp] theorem modCtl_unrepaired (s : State) (f : Control → Control) : (modCtl s f).unrepaired = s.unrepaired := rfl
@[simp] theorem modCtl_refetches (s : State) (f : Control → Control) : (modCtl s f).refetches = s.refetches := rfl
@[simp] theorem modCtl_loader (s : State) (f : Control → Control) : (modCtl s f).loader = s.loader := rfl
@[simp] theorem modCtl_ports (s : State) (f : Control → Control) : (modCtl s f).ports = s.ports := rfl
@[simp] theorem modCtl_gen (s : State) (f : Control → Control) : (modCtl s f).gen = s.gen := rfl
@[simp] theorem modCtl_genLateDrops (s : State) (f : Control → Control) : (modCtl s f).genLateDrops = s.genLateDrops := rfl
@[simp] theorem modCtl_quarThreshold (s : State) (f : Control → Control) : (modCtl s f).quarThreshold = s.quarThreshold := rfl
@[simp] theorem modCtl_routes (s : State) (f : Control → Control) : (modCtl s f).routes = s.routes := rfl
@[simp] theorem modCtl_routesPending (s : State) (f : Control → Control) : (modCtl s f).routesPending = s.routesPending := rfl
@[simp] theorem modCtl_lastRound (s : State) (f : Control → Control) : (modCtl s f).lastRound = s.lastRound := rfl
@[simp] theorem modCtl_fabOut (s : State) (f : Control → Control) : (modCtl s f).fabOut = s.fabOut := rfl
@[simp] theorem modCtl_flitOut (s : State) (f : Control → Control) : (modCtl s f).flitOut = s.flitOut := rfl
@[simp] theorem modCtl_mctpParts (s : State) (f : Control → Control) : (modCtl s f).mctpParts = s.mctpParts := rfl
@[simp] theorem modCtl_fabTags (s : State) (f : Control → Control) : (modCtl s f).fabTags = s.fabTags := rfl
@[simp] theorem modCtl_fabTag (s : State) (f : Control → Control) : (modCtl s f).fabTag = s.fabTag := rfl
@[simp] theorem modCtl_channels (s : State) (f : Control → Control) : (modCtl s f).channels = s.channels := rfl
@[simp] theorem modCtl_sessions (s : State) (f : Control → Control) : (modCtl s f).sessions = s.sessions := rfl
@[simp] theorem modCtl_admitNext (s : State) (f : Control → Control) : (modCtl s f).admitNext = s.admitNext := rfl
@[simp] theorem modCtl_tables (s : State) (f : Control → Control) : (modCtl s f).tables = s.tables := rfl
@[simp] theorem modCtl_rounds (s : State) (f : Control → Control) : (modCtl s f).rounds = s.rounds := rfl
@[simp] theorem modCtl_cache (s : State) (f : Control → Control) : (modCtl s f).cache = s.cache := rfl
@[simp] theorem modCtl_host (s : State) (f : Control → Control) : (modCtl s f).host = s.host := rfl
@[simp] theorem modCtl_replies (s : State) (f : Control → Control) : (modCtl s f).replies = s.replies := rfl
@[simp] theorem modCtl_background (s : State) (f : Control → Control) : (modCtl s f).background = s.background := rfl
@[simp] theorem modCtl_logs (s : State) (f : Control → Control) : (modCtl s f).logs = s.logs := rfl
@[simp] theorem modCtl_seqs (s : State) (f : Control → Control) : (modCtl s f).seqs = s.seqs := rfl
@[simp] theorem modCtl_meter (s : State) (f : Control → Control) : (modCtl s f).meter = s.meter := rfl
@[simp] theorem modCtl_meterHi (s : State) (f : Control → Control) : (modCtl s f).meterHi = s.meterHi := rfl
@[simp] theorem modCtl_talHi (s : State) (f : Control → Control) : (modCtl s f).talHi = s.talHi := rfl
@[simp] theorem modCtl_ringOsc (s : State) (f : Control → Control) : (modCtl s f).ringOsc = s.ringOsc := rfl
@[simp] theorem modCtl_deadlines (s : State) (f : Control → Control) : (modCtl s f).deadlines = s.deadlines := rfl
@[simp] theorem modCtl_refLostSeen (s : State) (f : Control → Control) : (modCtl s f).refLostSeen = s.refLostSeen := rfl
@[simp] theorem modCtl_pace (s : State) (f : Control → Control) : (modCtl s f).pace = s.pace := rfl
@[simp] theorem modCtl_power (s : State) (f : Control → Control) : (modCtl s f).power = s.power := rfl
@[simp] theorem modCtl_sec (s : State) (f : Control → Control) : (modCtl s f).sec = s.sec := rfl

/-! ### Loader -/

@[simp] theorem modLoader_loader (s : State) (f : Loader → Loader) : (modLoader s f).loader = f s.loader := rfl
@[simp] theorem modLoader_pending (s : State) (f : Loader → Loader) : (modLoader s f).pending = s.pending := rfl
@[simp] theorem modLoader_freeNext (s : State) (f : Loader → Loader) : (modLoader s f).freeNext = s.freeNext := rfl
@[simp] theorem modLoader_cores (s : State) (f : Loader → Loader) : (modLoader s f).cores = s.cores := rfl
@[simp] theorem modLoader_kitty (s : State) (f : Loader → Loader) : (modLoader s f).kitty = s.kitty := rfl
@[simp] theorem modLoader_repairMap (s : State) (f : Loader → Loader) : (modLoader s f).repairMap = s.repairMap := rfl
@[simp] theorem modLoader_retiredCores (s : State) (f : Loader → Loader) : (modLoader s f).retiredCores = s.retiredCores := rfl
@[simp] theorem modLoader_badCores (s : State) (f : Loader → Loader) : (modLoader s f).badCores = s.badCores := rfl
@[simp] theorem modLoader_paths (s : State) (f : Loader → Loader) : (modLoader s f).paths = s.paths := rfl
@[simp] theorem modLoader_pathReplays (s : State) (f : Loader → Loader) : (modLoader s f).pathReplays = s.pathReplays := rfl
@[simp] theorem modLoader_lanesSpared (s : State) (f : Loader → Loader) : (modLoader s f).lanesSpared = s.lanesSpared := rfl
@[simp] theorem modLoader_pathsFailed (s : State) (f : Loader → Loader) : (modLoader s f).pathsFailed = s.pathsFailed := rfl
@[simp] theorem modLoader_tricks (s : State) (f : Loader → Loader) : (modLoader s f).tricks = s.tricks := rfl
@[simp] theorem modLoader_known (s : State) (f : Loader → Loader) : (modLoader s f).known = s.known := rfl
@[simp] theorem modLoader_clusterPlays (s : State) (f : Loader → Loader) : (modLoader s f).clusterPlays = s.clusterPlays := rfl
@[simp] theorem modLoader_arrives (s : State) (f : Loader → Loader) : (modLoader s f).arrives = s.arrives := rfl
@[simp] theorem modLoader_releases (s : State) (f : Loader → Loader) : (modLoader s f).releases = s.releases := rfl
@[simp] theorem modLoader_streams (s : State) (f : Loader → Loader) : (modLoader s f).streams = s.streams := rfl
@[simp] theorem modLoader_creditFlight (s : State) (f : Loader → Loader) : (modLoader s f).creditFlight = s.creditFlight := rfl
@[simp] theorem modLoader_pushes (s : State) (f : Loader → Loader) : (modLoader s f).pushes = s.pushes := rfl
@[simp] theorem modLoader_latchFlight (s : State) (f : Loader → Loader) : (modLoader s f).latchFlight = s.latchFlight := rfl
@[simp] theorem modLoader_tallies (s : State) (f : Loader → Loader) : (modLoader s f).tallies = s.tallies := rfl
@[simp] theorem modLoader_spanLateDrops (s : State) (f : Loader → Loader) : (modLoader s f).spanLateDrops = s.spanLateDrops := rfl
@[simp] theorem modLoader_array (s : State) (f : Loader → Loader) : (modLoader s f).array = s.array := rfl
@[simp] theorem modLoader_stackMap (s : State) (f : Loader → Loader) : (modLoader s f).stackMap = s.stackMap := rfl
@[simp] theorem modLoader_regs (s : State) (f : Loader → Loader) : (modLoader s f).regs = s.regs := rfl
@[simp] theorem modLoader_regWait (s : State) (f : Loader → Loader) : (modLoader s f).regWait = s.regWait := rfl
@[simp] theorem modLoader_directory (s : State) (f : Loader → Loader) : (modLoader s f).directory = s.directory := rfl
@[simp] theorem modLoader_unrepaired (s : State) (f : Loader → Loader) : (modLoader s f).unrepaired = s.unrepaired := rfl
@[simp] theorem modLoader_refetches (s : State) (f : Loader → Loader) : (modLoader s f).refetches = s.refetches := rfl
@[simp] theorem modLoader_ports (s : State) (f : Loader → Loader) : (modLoader s f).ports = s.ports := rfl
@[simp] theorem modLoader_gen (s : State) (f : Loader → Loader) : (modLoader s f).gen = s.gen := rfl
@[simp] theorem modLoader_genLateDrops (s : State) (f : Loader → Loader) : (modLoader s f).genLateDrops = s.genLateDrops := rfl
@[simp] theorem modLoader_quarThreshold (s : State) (f : Loader → Loader) : (modLoader s f).quarThreshold = s.quarThreshold := rfl
@[simp] theorem modLoader_routes (s : State) (f : Loader → Loader) : (modLoader s f).routes = s.routes := rfl
@[simp] theorem modLoader_routesPending (s : State) (f : Loader → Loader) : (modLoader s f).routesPending = s.routesPending := rfl
@[simp] theorem modLoader_lastRound (s : State) (f : Loader → Loader) : (modLoader s f).lastRound = s.lastRound := rfl
@[simp] theorem modLoader_fabOut (s : State) (f : Loader → Loader) : (modLoader s f).fabOut = s.fabOut := rfl
@[simp] theorem modLoader_flitOut (s : State) (f : Loader → Loader) : (modLoader s f).flitOut = s.flitOut := rfl
@[simp] theorem modLoader_mctpParts (s : State) (f : Loader → Loader) : (modLoader s f).mctpParts = s.mctpParts := rfl
@[simp] theorem modLoader_fabTags (s : State) (f : Loader → Loader) : (modLoader s f).fabTags = s.fabTags := rfl
@[simp] theorem modLoader_fabTag (s : State) (f : Loader → Loader) : (modLoader s f).fabTag = s.fabTag := rfl
@[simp] theorem modLoader_channels (s : State) (f : Loader → Loader) : (modLoader s f).channels = s.channels := rfl
@[simp] theorem modLoader_sessions (s : State) (f : Loader → Loader) : (modLoader s f).sessions = s.sessions := rfl
@[simp] theorem modLoader_admitNext (s : State) (f : Loader → Loader) : (modLoader s f).admitNext = s.admitNext := rfl
@[simp] theorem modLoader_tables (s : State) (f : Loader → Loader) : (modLoader s f).tables = s.tables := rfl
@[simp] theorem modLoader_rounds (s : State) (f : Loader → Loader) : (modLoader s f).rounds = s.rounds := rfl
@[simp] theorem modLoader_cache (s : State) (f : Loader → Loader) : (modLoader s f).cache = s.cache := rfl
@[simp] theorem modLoader_host (s : State) (f : Loader → Loader) : (modLoader s f).host = s.host := rfl
@[simp] theorem modLoader_replies (s : State) (f : Loader → Loader) : (modLoader s f).replies = s.replies := rfl
@[simp] theorem modLoader_background (s : State) (f : Loader → Loader) : (modLoader s f).background = s.background := rfl
@[simp] theorem modLoader_logs (s : State) (f : Loader → Loader) : (modLoader s f).logs = s.logs := rfl
@[simp] theorem modLoader_seqs (s : State) (f : Loader → Loader) : (modLoader s f).seqs = s.seqs := rfl
@[simp] theorem modLoader_meter (s : State) (f : Loader → Loader) : (modLoader s f).meter = s.meter := rfl
@[simp] theorem modLoader_meterHi (s : State) (f : Loader → Loader) : (modLoader s f).meterHi = s.meterHi := rfl
@[simp] theorem modLoader_talHi (s : State) (f : Loader → Loader) : (modLoader s f).talHi = s.talHi := rfl
@[simp] theorem modLoader_ringOsc (s : State) (f : Loader → Loader) : (modLoader s f).ringOsc = s.ringOsc := rfl
@[simp] theorem modLoader_deadlines (s : State) (f : Loader → Loader) : (modLoader s f).deadlines = s.deadlines := rfl
@[simp] theorem modLoader_refLostSeen (s : State) (f : Loader → Loader) : (modLoader s f).refLostSeen = s.refLostSeen := rfl
@[simp] theorem modLoader_pace (s : State) (f : Loader → Loader) : (modLoader s f).pace = s.pace := rfl
@[simp] theorem modLoader_power (s : State) (f : Loader → Loader) : (modLoader s f).power = s.power := rfl
@[simp] theorem modLoader_ctl (s : State) (f : Loader → Loader) : (modLoader s f).ctl = s.ctl := rfl
@[simp] theorem modLoader_sec (s : State) (f : Loader → Loader) : (modLoader s f).sec = s.sec := rfl

/-! ### Host -/

@[simp] theorem modHost_host (s : State) (f : HostPort → HostPort) : (modHost s f).host = f s.host := rfl
@[simp] theorem modHost_pending (s : State) (f : HostPort → HostPort) : (modHost s f).pending = s.pending := rfl
@[simp] theorem modHost_freeNext (s : State) (f : HostPort → HostPort) : (modHost s f).freeNext = s.freeNext := rfl
@[simp] theorem modHost_cores (s : State) (f : HostPort → HostPort) : (modHost s f).cores = s.cores := rfl
@[simp] theorem modHost_kitty (s : State) (f : HostPort → HostPort) : (modHost s f).kitty = s.kitty := rfl
@[simp] theorem modHost_repairMap (s : State) (f : HostPort → HostPort) : (modHost s f).repairMap = s.repairMap := rfl
@[simp] theorem modHost_retiredCores (s : State) (f : HostPort → HostPort) : (modHost s f).retiredCores = s.retiredCores := rfl
@[simp] theorem modHost_badCores (s : State) (f : HostPort → HostPort) : (modHost s f).badCores = s.badCores := rfl
@[simp] theorem modHost_paths (s : State) (f : HostPort → HostPort) : (modHost s f).paths = s.paths := rfl
@[simp] theorem modHost_pathReplays (s : State) (f : HostPort → HostPort) : (modHost s f).pathReplays = s.pathReplays := rfl
@[simp] theorem modHost_lanesSpared (s : State) (f : HostPort → HostPort) : (modHost s f).lanesSpared = s.lanesSpared := rfl
@[simp] theorem modHost_pathsFailed (s : State) (f : HostPort → HostPort) : (modHost s f).pathsFailed = s.pathsFailed := rfl
@[simp] theorem modHost_tricks (s : State) (f : HostPort → HostPort) : (modHost s f).tricks = s.tricks := rfl
@[simp] theorem modHost_known (s : State) (f : HostPort → HostPort) : (modHost s f).known = s.known := rfl
@[simp] theorem modHost_clusterPlays (s : State) (f : HostPort → HostPort) : (modHost s f).clusterPlays = s.clusterPlays := rfl
@[simp] theorem modHost_arrives (s : State) (f : HostPort → HostPort) : (modHost s f).arrives = s.arrives := rfl
@[simp] theorem modHost_releases (s : State) (f : HostPort → HostPort) : (modHost s f).releases = s.releases := rfl
@[simp] theorem modHost_streams (s : State) (f : HostPort → HostPort) : (modHost s f).streams = s.streams := rfl
@[simp] theorem modHost_creditFlight (s : State) (f : HostPort → HostPort) : (modHost s f).creditFlight = s.creditFlight := rfl
@[simp] theorem modHost_pushes (s : State) (f : HostPort → HostPort) : (modHost s f).pushes = s.pushes := rfl
@[simp] theorem modHost_latchFlight (s : State) (f : HostPort → HostPort) : (modHost s f).latchFlight = s.latchFlight := rfl
@[simp] theorem modHost_tallies (s : State) (f : HostPort → HostPort) : (modHost s f).tallies = s.tallies := rfl
@[simp] theorem modHost_spanLateDrops (s : State) (f : HostPort → HostPort) : (modHost s f).spanLateDrops = s.spanLateDrops := rfl
@[simp] theorem modHost_array (s : State) (f : HostPort → HostPort) : (modHost s f).array = s.array := rfl
@[simp] theorem modHost_stackMap (s : State) (f : HostPort → HostPort) : (modHost s f).stackMap = s.stackMap := rfl
@[simp] theorem modHost_regs (s : State) (f : HostPort → HostPort) : (modHost s f).regs = s.regs := rfl
@[simp] theorem modHost_regWait (s : State) (f : HostPort → HostPort) : (modHost s f).regWait = s.regWait := rfl
@[simp] theorem modHost_directory (s : State) (f : HostPort → HostPort) : (modHost s f).directory = s.directory := rfl
@[simp] theorem modHost_unrepaired (s : State) (f : HostPort → HostPort) : (modHost s f).unrepaired = s.unrepaired := rfl
@[simp] theorem modHost_refetches (s : State) (f : HostPort → HostPort) : (modHost s f).refetches = s.refetches := rfl
@[simp] theorem modHost_loader (s : State) (f : HostPort → HostPort) : (modHost s f).loader = s.loader := rfl
@[simp] theorem modHost_ports (s : State) (f : HostPort → HostPort) : (modHost s f).ports = s.ports := rfl
@[simp] theorem modHost_gen (s : State) (f : HostPort → HostPort) : (modHost s f).gen = s.gen := rfl
@[simp] theorem modHost_genLateDrops (s : State) (f : HostPort → HostPort) : (modHost s f).genLateDrops = s.genLateDrops := rfl
@[simp] theorem modHost_quarThreshold (s : State) (f : HostPort → HostPort) : (modHost s f).quarThreshold = s.quarThreshold := rfl
@[simp] theorem modHost_routes (s : State) (f : HostPort → HostPort) : (modHost s f).routes = s.routes := rfl
@[simp] theorem modHost_routesPending (s : State) (f : HostPort → HostPort) : (modHost s f).routesPending = s.routesPending := rfl
@[simp] theorem modHost_lastRound (s : State) (f : HostPort → HostPort) : (modHost s f).lastRound = s.lastRound := rfl
@[simp] theorem modHost_fabOut (s : State) (f : HostPort → HostPort) : (modHost s f).fabOut = s.fabOut := rfl
@[simp] theorem modHost_flitOut (s : State) (f : HostPort → HostPort) : (modHost s f).flitOut = s.flitOut := rfl
@[simp] theorem modHost_mctpParts (s : State) (f : HostPort → HostPort) : (modHost s f).mctpParts = s.mctpParts := rfl
@[simp] theorem modHost_fabTags (s : State) (f : HostPort → HostPort) : (modHost s f).fabTags = s.fabTags := rfl
@[simp] theorem modHost_fabTag (s : State) (f : HostPort → HostPort) : (modHost s f).fabTag = s.fabTag := rfl
@[simp] theorem modHost_channels (s : State) (f : HostPort → HostPort) : (modHost s f).channels = s.channels := rfl
@[simp] theorem modHost_sessions (s : State) (f : HostPort → HostPort) : (modHost s f).sessions = s.sessions := rfl
@[simp] theorem modHost_admitNext (s : State) (f : HostPort → HostPort) : (modHost s f).admitNext = s.admitNext := rfl
@[simp] theorem modHost_tables (s : State) (f : HostPort → HostPort) : (modHost s f).tables = s.tables := rfl
@[simp] theorem modHost_rounds (s : State) (f : HostPort → HostPort) : (modHost s f).rounds = s.rounds := rfl
@[simp] theorem modHost_cache (s : State) (f : HostPort → HostPort) : (modHost s f).cache = s.cache := rfl
@[simp] theorem modHost_replies (s : State) (f : HostPort → HostPort) : (modHost s f).replies = s.replies := rfl
@[simp] theorem modHost_background (s : State) (f : HostPort → HostPort) : (modHost s f).background = s.background := rfl
@[simp] theorem modHost_logs (s : State) (f : HostPort → HostPort) : (modHost s f).logs = s.logs := rfl
@[simp] theorem modHost_seqs (s : State) (f : HostPort → HostPort) : (modHost s f).seqs = s.seqs := rfl
@[simp] theorem modHost_meter (s : State) (f : HostPort → HostPort) : (modHost s f).meter = s.meter := rfl
@[simp] theorem modHost_meterHi (s : State) (f : HostPort → HostPort) : (modHost s f).meterHi = s.meterHi := rfl
@[simp] theorem modHost_talHi (s : State) (f : HostPort → HostPort) : (modHost s f).talHi = s.talHi := rfl
@[simp] theorem modHost_ringOsc (s : State) (f : HostPort → HostPort) : (modHost s f).ringOsc = s.ringOsc := rfl
@[simp] theorem modHost_deadlines (s : State) (f : HostPort → HostPort) : (modHost s f).deadlines = s.deadlines := rfl
@[simp] theorem modHost_refLostSeen (s : State) (f : HostPort → HostPort) : (modHost s f).refLostSeen = s.refLostSeen := rfl
@[simp] theorem modHost_pace (s : State) (f : HostPort → HostPort) : (modHost s f).pace = s.pace := rfl
@[simp] theorem modHost_power (s : State) (f : HostPort → HostPort) : (modHost s f).power = s.power := rfl
@[simp] theorem modHost_ctl (s : State) (f : HostPort → HostPort) : (modHost s f).ctl = s.ctl := rfl
@[simp] theorem modHost_sec (s : State) (f : HostPort → HostPort) : (modHost s f).sec = s.sec := rfl

/-! ### Reading one part after writing another -/

@[simp] theorem getStack_setCore (s : State) (n m : Nat) (v : Core) : getStack (setCore s n v) m = getStack s m := rfl
@[simp] theorem getStream_setCore (s : State) (n m : Nat) (v : Core) : getStream (setCore s n v) m = getStream s m := rfl
@[simp] theorem getPort_setCore (s : State) (n m : Nat) (v : Core) : getPort (setCore s n v) m = getPort s m := rfl
@[simp] theorem getChan_setCore (s : State) (n m : Nat) (v : Core) : getChan (setCore s n v) m = getChan s m := rfl
@[simp] theorem getSess_setCore (s : State) (n m : Nat) (v : Core) : getSess (setCore s n v) m = getSess s m := rfl
@[simp] theorem getTable_setCore (s : State) (n m : Nat) (v : Core) : getTable (setCore s n v) m = getTable s m := rfl
@[simp] theorem getRound_setCore (s : State) (n m : Nat) (v : Core) : getRound (setCore s n v) m = getRound s m := rfl
@[simp] theorem getReg_setCore (s : State) (n m : Nat) (v : Core) : getReg (setCore s n v) m = getReg s m := rfl
@[simp] theorem getDomain_setCore (s : State) (n m : Nat) (v : Core) : getDomain (setCore s n v) m = getDomain s m := rfl
@[simp] theorem getDiode_setCore (s : State) (n m : Nat) (v : Core) : getDiode (setCore s n v) m = getDiode s m := rfl
@[simp] theorem getPage_setCore (s : State) (n m : Nat) (v : Core) : getPage (setCore s n v) m = getPage s m := rfl
@[simp] theorem getTally_setCore (s : State) (n m : Nat) (v : Core) : getTally (setCore s n v) m = getTally s m := rfl
@[simp] theorem getCore_setStack (s : State) (n m : Nat) (v : Stack) : getCore (setStack s n v) m = getCore s m := rfl
@[simp] theorem getStream_setStack (s : State) (n m : Nat) (v : Stack) : getStream (setStack s n v) m = getStream s m := rfl
@[simp] theorem getPort_setStack (s : State) (n m : Nat) (v : Stack) : getPort (setStack s n v) m = getPort s m := rfl
@[simp] theorem getChan_setStack (s : State) (n m : Nat) (v : Stack) : getChan (setStack s n v) m = getChan s m := rfl
@[simp] theorem getSess_setStack (s : State) (n m : Nat) (v : Stack) : getSess (setStack s n v) m = getSess s m := rfl
@[simp] theorem getTable_setStack (s : State) (n m : Nat) (v : Stack) : getTable (setStack s n v) m = getTable s m := rfl
@[simp] theorem getRound_setStack (s : State) (n m : Nat) (v : Stack) : getRound (setStack s n v) m = getRound s m := rfl
@[simp] theorem getReg_setStack (s : State) (n m : Nat) (v : Stack) : getReg (setStack s n v) m = getReg s m := rfl
@[simp] theorem getDomain_setStack (s : State) (n m : Nat) (v : Stack) : getDomain (setStack s n v) m = getDomain s m := rfl
@[simp] theorem getDiode_setStack (s : State) (n m : Nat) (v : Stack) : getDiode (setStack s n v) m = getDiode s m := rfl
@[simp] theorem getPage_setStack (s : State) (n m : Nat) (v : Stack) : getPage (setStack s n v) m = getPage s m := rfl
@[simp] theorem getTally_setStack (s : State) (n m : Nat) (v : Stack) : getTally (setStack s n v) m = getTally s m := rfl
@[simp] theorem getCore_setTrick (s : State) (n m : Nat) (v : Trick) : getCore (setTrick s n v) m = getCore s m := rfl
@[simp] theorem getStack_setTrick (s : State) (n m : Nat) (v : Trick) : getStack (setTrick s n v) m = getStack s m := rfl
@[simp] theorem getStream_setTrick (s : State) (n m : Nat) (v : Trick) : getStream (setTrick s n v) m = getStream s m := rfl
@[simp] theorem getPort_setTrick (s : State) (n m : Nat) (v : Trick) : getPort (setTrick s n v) m = getPort s m := rfl
@[simp] theorem getChan_setTrick (s : State) (n m : Nat) (v : Trick) : getChan (setTrick s n v) m = getChan s m := rfl
@[simp] theorem getSess_setTrick (s : State) (n m : Nat) (v : Trick) : getSess (setTrick s n v) m = getSess s m := rfl
@[simp] theorem getTable_setTrick (s : State) (n m : Nat) (v : Trick) : getTable (setTrick s n v) m = getTable s m := rfl
@[simp] theorem getRound_setTrick (s : State) (n m : Nat) (v : Trick) : getRound (setTrick s n v) m = getRound s m := rfl
@[simp] theorem getReg_setTrick (s : State) (n m : Nat) (v : Trick) : getReg (setTrick s n v) m = getReg s m := rfl
@[simp] theorem getDomain_setTrick (s : State) (n m : Nat) (v : Trick) : getDomain (setTrick s n v) m = getDomain s m := rfl
@[simp] theorem getDiode_setTrick (s : State) (n m : Nat) (v : Trick) : getDiode (setTrick s n v) m = getDiode s m := rfl
@[simp] theorem getPage_setTrick (s : State) (n m : Nat) (v : Trick) : getPage (setTrick s n v) m = getPage s m := rfl
@[simp] theorem getTally_setTrick (s : State) (n m : Nat) (v : Trick) : getTally (setTrick s n v) m = getTally s m := rfl
@[simp] theorem getCore_setStream (s : State) (n m : Nat) (v : Stream) : getCore (setStream s n v) m = getCore s m := rfl
@[simp] theorem getStack_setStream (s : State) (n m : Nat) (v : Stream) : getStack (setStream s n v) m = getStack s m := rfl
@[simp] theorem getPort_setStream (s : State) (n m : Nat) (v : Stream) : getPort (setStream s n v) m = getPort s m := rfl
@[simp] theorem getChan_setStream (s : State) (n m : Nat) (v : Stream) : getChan (setStream s n v) m = getChan s m := rfl
@[simp] theorem getSess_setStream (s : State) (n m : Nat) (v : Stream) : getSess (setStream s n v) m = getSess s m := rfl
@[simp] theorem getTable_setStream (s : State) (n m : Nat) (v : Stream) : getTable (setStream s n v) m = getTable s m := rfl
@[simp] theorem getRound_setStream (s : State) (n m : Nat) (v : Stream) : getRound (setStream s n v) m = getRound s m := rfl
@[simp] theorem getReg_setStream (s : State) (n m : Nat) (v : Stream) : getReg (setStream s n v) m = getReg s m := rfl
@[simp] theorem getDomain_setStream (s : State) (n m : Nat) (v : Stream) : getDomain (setStream s n v) m = getDomain s m := rfl
@[simp] theorem getDiode_setStream (s : State) (n m : Nat) (v : Stream) : getDiode (setStream s n v) m = getDiode s m := rfl
@[simp] theorem getPage_setStream (s : State) (n m : Nat) (v : Stream) : getPage (setStream s n v) m = getPage s m := rfl
@[simp] theorem getTally_setStream (s : State) (n m : Nat) (v : Stream) : getTally (setStream s n v) m = getTally s m := rfl
@[simp] theorem getCore_setPort (s : State) (n m : Nat) (v : Port) : getCore (setPort s n v) m = getCore s m := rfl
@[simp] theorem getStack_setPort (s : State) (n m : Nat) (v : Port) : getStack (setPort s n v) m = getStack s m := rfl
@[simp] theorem getStream_setPort (s : State) (n m : Nat) (v : Port) : getStream (setPort s n v) m = getStream s m := rfl
@[simp] theorem getChan_setPort (s : State) (n m : Nat) (v : Port) : getChan (setPort s n v) m = getChan s m := rfl
@[simp] theorem getSess_setPort (s : State) (n m : Nat) (v : Port) : getSess (setPort s n v) m = getSess s m := rfl
@[simp] theorem getTable_setPort (s : State) (n m : Nat) (v : Port) : getTable (setPort s n v) m = getTable s m := rfl
@[simp] theorem getRound_setPort (s : State) (n m : Nat) (v : Port) : getRound (setPort s n v) m = getRound s m := rfl
@[simp] theorem getReg_setPort (s : State) (n m : Nat) (v : Port) : getReg (setPort s n v) m = getReg s m := rfl
@[simp] theorem getDomain_setPort (s : State) (n m : Nat) (v : Port) : getDomain (setPort s n v) m = getDomain s m := rfl
@[simp] theorem getDiode_setPort (s : State) (n m : Nat) (v : Port) : getDiode (setPort s n v) m = getDiode s m := rfl
@[simp] theorem getPage_setPort (s : State) (n m : Nat) (v : Port) : getPage (setPort s n v) m = getPage s m := rfl
@[simp] theorem getTally_setPort (s : State) (n m : Nat) (v : Port) : getTally (setPort s n v) m = getTally s m := rfl
@[simp] theorem getCore_setChan (s : State) (n m : Nat) (v : Channel) : getCore (setChan s n v) m = getCore s m := rfl
@[simp] theorem getStack_setChan (s : State) (n m : Nat) (v : Channel) : getStack (setChan s n v) m = getStack s m := rfl
@[simp] theorem getStream_setChan (s : State) (n m : Nat) (v : Channel) : getStream (setChan s n v) m = getStream s m := rfl
@[simp] theorem getPort_setChan (s : State) (n m : Nat) (v : Channel) : getPort (setChan s n v) m = getPort s m := rfl
@[simp] theorem getSess_setChan (s : State) (n m : Nat) (v : Channel) : getSess (setChan s n v) m = getSess s m := rfl
@[simp] theorem getTable_setChan (s : State) (n m : Nat) (v : Channel) : getTable (setChan s n v) m = getTable s m := rfl
@[simp] theorem getRound_setChan (s : State) (n m : Nat) (v : Channel) : getRound (setChan s n v) m = getRound s m := rfl
@[simp] theorem getReg_setChan (s : State) (n m : Nat) (v : Channel) : getReg (setChan s n v) m = getReg s m := rfl
@[simp] theorem getDomain_setChan (s : State) (n m : Nat) (v : Channel) : getDomain (setChan s n v) m = getDomain s m := rfl
@[simp] theorem getDiode_setChan (s : State) (n m : Nat) (v : Channel) : getDiode (setChan s n v) m = getDiode s m := rfl
@[simp] theorem getPage_setChan (s : State) (n m : Nat) (v : Channel) : getPage (setChan s n v) m = getPage s m := rfl
@[simp] theorem getTally_setChan (s : State) (n m : Nat) (v : Channel) : getTally (setChan s n v) m = getTally s m := rfl
@[simp] theorem getCore_setSess (s : State) (n m : Nat) (v : Session) : getCore (setSess s n v) m = getCore s m := rfl
@[simp] theorem getStack_setSess (s : State) (n m : Nat) (v : Session) : getStack (setSess s n v) m = getStack s m := rfl
@[simp] theorem getStream_setSess (s : State) (n m : Nat) (v : Session) : getStream (setSess s n v) m = getStream s m := rfl
@[simp] theorem getPort_setSess (s : State) (n m : Nat) (v : Session) : getPort (setSess s n v) m = getPort s m := rfl
@[simp] theorem getChan_setSess (s : State) (n m : Nat) (v : Session) : getChan (setSess s n v) m = getChan s m := rfl
@[simp] theorem getTable_setSess (s : State) (n m : Nat) (v : Session) : getTable (setSess s n v) m = getTable s m := rfl
@[simp] theorem getRound_setSess (s : State) (n m : Nat) (v : Session) : getRound (setSess s n v) m = getRound s m := rfl
@[simp] theorem getReg_setSess (s : State) (n m : Nat) (v : Session) : getReg (setSess s n v) m = getReg s m := rfl
@[simp] theorem getDomain_setSess (s : State) (n m : Nat) (v : Session) : getDomain (setSess s n v) m = getDomain s m := rfl
@[simp] theorem getDiode_setSess (s : State) (n m : Nat) (v : Session) : getDiode (setSess s n v) m = getDiode s m := rfl
@[simp] theorem getPage_setSess (s : State) (n m : Nat) (v : Session) : getPage (setSess s n v) m = getPage s m := rfl
@[simp] theorem getTally_setSess (s : State) (n m : Nat) (v : Session) : getTally (setSess s n v) m = getTally s m := rfl
@[simp] theorem getCore_setTable (s : State) (n m : Nat) (v : TableRegs) : getCore (setTable s n v) m = getCore s m := rfl
@[simp] theorem getStack_setTable (s : State) (n m : Nat) (v : TableRegs) : getStack (setTable s n v) m = getStack s m := rfl
@[simp] theorem getStream_setTable (s : State) (n m : Nat) (v : TableRegs) : getStream (setTable s n v) m = getStream s m := rfl
@[simp] theorem getPort_setTable (s : State) (n m : Nat) (v : TableRegs) : getPort (setTable s n v) m = getPort s m := rfl
@[simp] theorem getChan_setTable (s : State) (n m : Nat) (v : TableRegs) : getChan (setTable s n v) m = getChan s m := rfl
@[simp] theorem getSess_setTable (s : State) (n m : Nat) (v : TableRegs) : getSess (setTable s n v) m = getSess s m := rfl
@[simp] theorem getRound_setTable (s : State) (n m : Nat) (v : TableRegs) : getRound (setTable s n v) m = getRound s m := rfl
@[simp] theorem getReg_setTable (s : State) (n m : Nat) (v : TableRegs) : getReg (setTable s n v) m = getReg s m := rfl
@[simp] theorem getDomain_setTable (s : State) (n m : Nat) (v : TableRegs) : getDomain (setTable s n v) m = getDomain s m := rfl
@[simp] theorem getDiode_setTable (s : State) (n m : Nat) (v : TableRegs) : getDiode (setTable s n v) m = getDiode s m := rfl
@[simp] theorem getPage_setTable (s : State) (n m : Nat) (v : TableRegs) : getPage (setTable s n v) m = getPage s m := rfl
@[simp] theorem getTally_setTable (s : State) (n m : Nat) (v : TableRegs) : getTally (setTable s n v) m = getTally s m := rfl
@[simp] theorem getCore_setRound (s : State) (n m : Nat) (v : RoundState) : getCore (setRound s n v) m = getCore s m := rfl
@[simp] theorem getStack_setRound (s : State) (n m : Nat) (v : RoundState) : getStack (setRound s n v) m = getStack s m := rfl
@[simp] theorem getStream_setRound (s : State) (n m : Nat) (v : RoundState) : getStream (setRound s n v) m = getStream s m := rfl
@[simp] theorem getPort_setRound (s : State) (n m : Nat) (v : RoundState) : getPort (setRound s n v) m = getPort s m := rfl
@[simp] theorem getChan_setRound (s : State) (n m : Nat) (v : RoundState) : getChan (setRound s n v) m = getChan s m := rfl
@[simp] theorem getSess_setRound (s : State) (n m : Nat) (v : RoundState) : getSess (setRound s n v) m = getSess s m := rfl
@[simp] theorem getTable_setRound (s : State) (n m : Nat) (v : RoundState) : getTable (setRound s n v) m = getTable s m := rfl
@[simp] theorem getReg_setRound (s : State) (n m : Nat) (v : RoundState) : getReg (setRound s n v) m = getReg s m := rfl
@[simp] theorem getDomain_setRound (s : State) (n m : Nat) (v : RoundState) : getDomain (setRound s n v) m = getDomain s m := rfl
@[simp] theorem getDiode_setRound (s : State) (n m : Nat) (v : RoundState) : getDiode (setRound s n v) m = getDiode s m := rfl
@[simp] theorem getPage_setRound (s : State) (n m : Nat) (v : RoundState) : getPage (setRound s n v) m = getPage s m := rfl
@[simp] theorem getTally_setRound (s : State) (n m : Nat) (v : RoundState) : getTally (setRound s n v) m = getTally s m := rfl
@[simp] theorem getCore_setReg (s : State) (n m : Nat) (v : Regulator) : getCore (setReg s n v) m = getCore s m := rfl
@[simp] theorem getStack_setReg (s : State) (n m : Nat) (v : Regulator) : getStack (setReg s n v) m = getStack s m := rfl
@[simp] theorem getStream_setReg (s : State) (n m : Nat) (v : Regulator) : getStream (setReg s n v) m = getStream s m := rfl
@[simp] theorem getPort_setReg (s : State) (n m : Nat) (v : Regulator) : getPort (setReg s n v) m = getPort s m := rfl
@[simp] theorem getChan_setReg (s : State) (n m : Nat) (v : Regulator) : getChan (setReg s n v) m = getChan s m := rfl
@[simp] theorem getSess_setReg (s : State) (n m : Nat) (v : Regulator) : getSess (setReg s n v) m = getSess s m := rfl
@[simp] theorem getTable_setReg (s : State) (n m : Nat) (v : Regulator) : getTable (setReg s n v) m = getTable s m := rfl
@[simp] theorem getRound_setReg (s : State) (n m : Nat) (v : Regulator) : getRound (setReg s n v) m = getRound s m := rfl
@[simp] theorem getDomain_setReg (s : State) (n m : Nat) (v : Regulator) : getDomain (setReg s n v) m = getDomain s m := rfl
@[simp] theorem getDiode_setReg (s : State) (n m : Nat) (v : Regulator) : getDiode (setReg s n v) m = getDiode s m := rfl
@[simp] theorem getPage_setReg (s : State) (n m : Nat) (v : Regulator) : getPage (setReg s n v) m = getPage s m := rfl
@[simp] theorem getTally_setReg (s : State) (n m : Nat) (v : Regulator) : getTally (setReg s n v) m = getTally s m := rfl
@[simp] theorem getCore_setDomain (s : State) (n m : Nat) (v : Domain) : getCore (setDomain s n v) m = getCore s m := rfl
@[simp] theorem getStack_setDomain (s : State) (n m : Nat) (v : Domain) : getStack (setDomain s n v) m = getStack s m := rfl
@[simp] theorem getStream_setDomain (s : State) (n m : Nat) (v : Domain) : getStream (setDomain s n v) m = getStream s m := rfl
@[simp] theorem getPort_setDomain (s : State) (n m : Nat) (v : Domain) : getPort (setDomain s n v) m = getPort s m := rfl
@[simp] theorem getChan_setDomain (s : State) (n m : Nat) (v : Domain) : getChan (setDomain s n v) m = getChan s m := rfl
@[simp] theorem getSess_setDomain (s : State) (n m : Nat) (v : Domain) : getSess (setDomain s n v) m = getSess s m := rfl
@[simp] theorem getTable_setDomain (s : State) (n m : Nat) (v : Domain) : getTable (setDomain s n v) m = getTable s m := rfl
@[simp] theorem getRound_setDomain (s : State) (n m : Nat) (v : Domain) : getRound (setDomain s n v) m = getRound s m := rfl
@[simp] theorem getReg_setDomain (s : State) (n m : Nat) (v : Domain) : getReg (setDomain s n v) m = getReg s m := rfl
@[simp] theorem getDiode_setDomain (s : State) (n m : Nat) (v : Domain) : getDiode (setDomain s n v) m = getDiode s m := rfl
@[simp] theorem getPage_setDomain (s : State) (n m : Nat) (v : Domain) : getPage (setDomain s n v) m = getPage s m := rfl
@[simp] theorem getTally_setDomain (s : State) (n m : Nat) (v : Domain) : getTally (setDomain s n v) m = getTally s m := rfl
@[simp] theorem getCore_setDiode (s : State) (n m : Nat) (v : Diode) : getCore (setDiode s n v) m = getCore s m := rfl
@[simp] theorem getStack_setDiode (s : State) (n m : Nat) (v : Diode) : getStack (setDiode s n v) m = getStack s m := rfl
@[simp] theorem getStream_setDiode (s : State) (n m : Nat) (v : Diode) : getStream (setDiode s n v) m = getStream s m := rfl
@[simp] theorem getPort_setDiode (s : State) (n m : Nat) (v : Diode) : getPort (setDiode s n v) m = getPort s m := rfl
@[simp] theorem getChan_setDiode (s : State) (n m : Nat) (v : Diode) : getChan (setDiode s n v) m = getChan s m := rfl
@[simp] theorem getSess_setDiode (s : State) (n m : Nat) (v : Diode) : getSess (setDiode s n v) m = getSess s m := rfl
@[simp] theorem getTable_setDiode (s : State) (n m : Nat) (v : Diode) : getTable (setDiode s n v) m = getTable s m := rfl
@[simp] theorem getRound_setDiode (s : State) (n m : Nat) (v : Diode) : getRound (setDiode s n v) m = getRound s m := rfl
@[simp] theorem getReg_setDiode (s : State) (n m : Nat) (v : Diode) : getReg (setDiode s n v) m = getReg s m := rfl
@[simp] theorem getDomain_setDiode (s : State) (n m : Nat) (v : Diode) : getDomain (setDiode s n v) m = getDomain s m := rfl
@[simp] theorem getPage_setDiode (s : State) (n m : Nat) (v : Diode) : getPage (setDiode s n v) m = getPage s m := rfl
@[simp] theorem getTally_setDiode (s : State) (n m : Nat) (v : Diode) : getTally (setDiode s n v) m = getTally s m := rfl
@[simp] theorem getCore_setPage (s : State) (n m : Nat) (v : Page) : getCore (setPage s n v) m = getCore s m := rfl
@[simp] theorem getStack_setPage (s : State) (n m : Nat) (v : Page) : getStack (setPage s n v) m = getStack s m := rfl
@[simp] theorem getStream_setPage (s : State) (n m : Nat) (v : Page) : getStream (setPage s n v) m = getStream s m := rfl
@[simp] theorem getPort_setPage (s : State) (n m : Nat) (v : Page) : getPort (setPage s n v) m = getPort s m := rfl
@[simp] theorem getChan_setPage (s : State) (n m : Nat) (v : Page) : getChan (setPage s n v) m = getChan s m := rfl
@[simp] theorem getSess_setPage (s : State) (n m : Nat) (v : Page) : getSess (setPage s n v) m = getSess s m := rfl
@[simp] theorem getTable_setPage (s : State) (n m : Nat) (v : Page) : getTable (setPage s n v) m = getTable s m := rfl
@[simp] theorem getRound_setPage (s : State) (n m : Nat) (v : Page) : getRound (setPage s n v) m = getRound s m := rfl
@[simp] theorem getReg_setPage (s : State) (n m : Nat) (v : Page) : getReg (setPage s n v) m = getReg s m := rfl
@[simp] theorem getDomain_setPage (s : State) (n m : Nat) (v : Page) : getDomain (setPage s n v) m = getDomain s m := rfl
@[simp] theorem getDiode_setPage (s : State) (n m : Nat) (v : Page) : getDiode (setPage s n v) m = getDiode s m := rfl
@[simp] theorem getTally_setPage (s : State) (n m : Nat) (v : Page) : getTally (setPage s n v) m = getTally s m := rfl
@[simp] theorem getCore_setTally (s : State) (n m : Nat) (v : TableTally) : getCore (setTally s n v) m = getCore s m := rfl
@[simp] theorem getStack_setTally (s : State) (n m : Nat) (v : TableTally) : getStack (setTally s n v) m = getStack s m := rfl
@[simp] theorem getStream_setTally (s : State) (n m : Nat) (v : TableTally) : getStream (setTally s n v) m = getStream s m := rfl
@[simp] theorem getPort_setTally (s : State) (n m : Nat) (v : TableTally) : getPort (setTally s n v) m = getPort s m := rfl
@[simp] theorem getChan_setTally (s : State) (n m : Nat) (v : TableTally) : getChan (setTally s n v) m = getChan s m := rfl
@[simp] theorem getSess_setTally (s : State) (n m : Nat) (v : TableTally) : getSess (setTally s n v) m = getSess s m := rfl
@[simp] theorem getTable_setTally (s : State) (n m : Nat) (v : TableTally) : getTable (setTally s n v) m = getTable s m := rfl
@[simp] theorem getRound_setTally (s : State) (n m : Nat) (v : TableTally) : getRound (setTally s n v) m = getRound s m := rfl
@[simp] theorem getReg_setTally (s : State) (n m : Nat) (v : TableTally) : getReg (setTally s n v) m = getReg s m := rfl
@[simp] theorem getDomain_setTally (s : State) (n m : Nat) (v : TableTally) : getDomain (setTally s n v) m = getDomain s m := rfl
@[simp] theorem getDiode_setTally (s : State) (n m : Nat) (v : TableTally) : getDiode (setTally s n v) m = getDiode s m := rfl
@[simp] theorem getPage_setTally (s : State) (n m : Nat) (v : TableTally) : getPage (setTally s n v) m = getPage s m := rfl

end Sys2Proof.Machine
end

