-- ==== Sys2Proof/Laws/Ops.lean ====
section
/-! SUPPORT. What logging, messages and aborts can do: one lemma per shared operation. -/

namespace Sys2Proof.Machine

/-- A record that is logged: the die's sequence number grows, the log of the severity takes the record, and the host may get a
message; nothing else changes. -/
theorem logAtDie_shape (s : State) (e : Ev) (u die : Nat) (t : Option Nat) (d : Detail) :
    ∃ out, logAtDie s e u die t d =
      { s with
        seqs := sput 0 s.seqs die (sget 0 s.seqs die + 1),
        logs := sput emptyLog s.logs e.sev (addRecord (sget emptyLog s.logs e.sev)
          { code := e.word u, seq := sget 0 s.seqs die + 1, die := die, epoch := epochFor s t, detail := d }),
        host := { s.host with out := out } } := by
  simp only [logAtDie]
  split
  · simp only [sendMsix]
    split
    · exact ⟨_, rfl⟩
    · exact ⟨s.host.out, rfl⟩
  · exact ⟨s.host.out, rfl⟩

/-- Without a deck there is no group to abort. -/
theorem requestAbort_of_no_deck (s : State) (code : W32) (h : deckOf s = none) : requestAbort s code = s := by
  simp [requestAbort, h]

/-- Without a deck no cluster belongs to a table. -/
theorem tableOfCore_of_no_deck (s : State) (n : Nat) (h : deckOf s = none) : tableOfCore s n = none := by
  simp [tableOfCore, tableOfCluster, h]

/-- A message to the host changes nothing but what has been sent to it. -/
theorem toHost_shape (s : State) (m : HostMsg) : toHost s m = { s with host := { s.host with out := s.host.out ++ [m] } } := rfl

/-- The record a background operation leaves when it ends. -/
theorem endBackground_of_none (s : State) (op : Nat) (st : Status) (c : W32) (o : List Byte) (h : s.background = none) :
    endBackground s op st c o = s := by
  simp [endBackground, h]

end Sys2Proof.Machine
end

