-- ==== Sys2Proof/Laws/Plays.lean ====
section
/-! SUPPORT. What issuing a play can do, case by case, and how a play's end moves its core on (R144, R146, R150). -/

namespace Sys2Proof.Machine

/-- A core that issues no play leaves the state as it is. -/
theorem issueWith_idle (s : State) (h : PlayHdr) (k b : State → Nat → PlayEnd) (hi : coreIssues s h.core.idx = false) :
    issueWith s h k b = .next s := by
  simp [issueWith, hi]

/-- A play whose own word fails its parity faults the core before it issues (R386). -/
theorem issueWith_unreadable (s : State) (h : PlayHdr) (k b : State → Nat → PlayEnd) (hi : coreIssues s h.core.idx = true)
    (hn : h.parity = some .program) : issueWith s h k b = .next (coreFault s h.core.idx evIntStoredWordParity 0 0) := by
  simp [issueWith, hi, hn]

/-- A poisoned predicate faults the core. -/
theorem issueWith_poisoned (s : State) (h : PlayHdr) (k b : State → Nat → PlayEnd) (hi : coreIssues s h.core.idx = true)
    (hn : h.parity = none) (hp : h.pen = true) (hb : predBad (getCore s h.core.idx) h.pred.val = true) :
    issueWith s h k b = .next (coreFault s h.core.idx evIntPoisonPredicate 0 0) := by
  simp [issueWith, hi, hn, hp, hb]

/-- A play whose predicate does not let it run ends as its skip says. -/
theorem issueWith_skipped (s : State) (h : PlayHdr) (k b : State → Nat → PlayEnd) (hi : coreIssues s h.core.idx = true)
    (hn : h.parity = none) (hp : h.pen = true) (hb : predBad (getCore s h.core.idx) h.pred.val = false)
    (hf : predOf (getCore s h.core.idx) h.pred.val = h.pneg) :
    issueWith s h k b = .next (finishPlay h.core.idx (k s h.core.idx)) := by
  simp [issueWith, hi, hn, hp, hb, predRuns, hf]

/-- A play that runs ends as its body says. -/
theorem issueWith_runs (s : State) (h : PlayHdr) (k b : State → Nat → PlayEnd) (hr : Runs s h) :
    issueWith s h k b = .next (finishPlay h.core.idx (b s h.core.idx)) := by
  obtain ⟨hi, hn, hp⟩ := hr
  cases hpen : h.pen
  · simp [issueWith, readWords, hi, hn, hpen, predRuns]
  · have := hp hpen
    simp [issueWith, readWords, hi, hn, hpen, predRuns, this.1, this.2]

/-- The same for a play that a false predicate turns into nothing. -/
theorem issue_runs (s : State) (h : PlayHdr) (b : State → Nat → PlayEnd) (hr : Runs s h) :
    issue s h b = .next (finishPlay h.core.idx (b s h.core.idx)) :=
  issueWith_runs s h _ b hr

/-- Operands that a play reaches let it go on. -/
theorem rangeEnd_reaches {s : State} {n : Nat} {ds : List Desc} (h : Reaches s n ds) (ok : State → PlayEnd) :
    rangeEnd s n ds ok = ok s := by
  simp [rangeEnd, h.1, h.2]

/-- An operand that breaks R108 or R109 faults the play. -/
theorem rangeEnd_fault {s : State} {n : Nat} {ds : List Desc} {e : Ev} {a : Int} (h : rangeFault s (coreTable s n) ds = some (e, a))
    (ok : State → PlayEnd) : rangeEnd s n ds ok = .fault s e 0 (BitVec.ofInt 64 a) := by
  simp [rangeEnd, h]

/-- A play whose operands lie where an outstanding script still delivers results waits (R144). -/
theorem rangeEnd_wait {s : State} {n t : Nat} {ds : List Desc} (h : rangeFault s (coreTable s n) ds = none)
    (hm : doutMeets s n (ds.flatMap extents) = some t) (ok : State → PlayEnd) :
    rangeEnd s n ds ok = .wait (coreWaits s n (.ticket t)) := by
  simp [rangeEnd, h, hm]

/-- An address that a play reaches lets it go on. -/
theorem addrEnd_reaches {s : State} {n r len align : Nat} {a : W64} {dev : Bool} (hb : sregBad (getCore s n) r = false)
    (h : ReachesAddr s n a.toNat len align dev) (ok : Nat → PlayEnd) : addrEnd s n r a len align dev ok = ok a.toNat := by
  simp [addrEnd, hb, h.1, h.2]

/-- A core that issues is a core that runs. -/
theorem Runs.run {s : State} {h : PlayHdr} (hr : Runs s h) : (getCore s h.core.idx).run = .running := by
  have := hr.1
  simp only [coreIssues, Bool.and_eq_true, decide_eq_true_eq] at this
  exact this.1.1

/-- A running core is not the core without a program. -/
theorem ne_empty_of_running {c : Core} (h : c.run = .running) : c ≠ Core.empty := by
  intro e
  rw [e] at h
  cases h

/-- Reading a core back that was written and runs. -/
theorem getCore_setCore_running (s : State) (n : Nat) (c : Core) (h : c.run = .running) : getCore (setCore s n c) n = c :=
  getCore_setCore_of_ne s n c (ne_empty_of_running h)

/-- Two writes of one core, the first of a running one, are the second. -/
theorem setCore_setCore_running (s : State) (n : Nat) (c d : Core) (h : c.run = .running) :
    setCore (setCore s n c) n d = setCore s n d := by
  simp only [setCore]
  rw [sput_sput_of_ne _ _ _ _ _ (ne_empty_of_running h)]

/-- A core moves on after a change that leaves it running. -/
theorem nextPlay_setCore (s : State) (n : Nat) (c : Core) (h : c.run = .running) :
    nextPlay (setCore s n c) n = coreAt s n c (c.pc + 1) := by
  rw [nextPlay, modCore, getCore_setCore_running s n c h, setCore_setCore_running s n c _ h]
  rfl

/-- A core moves on with nothing changed. -/
theorem nextPlay_same (s : State) (n : Nat) : nextPlay s n = coreAt s n (getCore s n) ((getCore s n).pc + 1) := rfl

end Sys2Proof.Machine
end

