-- ==== Sys2Proof/WellFormed.lean ====
section
/-! DEFINITION. Well-formed commands: every operand fits the field that carries it (Tables 4.2 to 4.7, 11.4 to 11.8, 12.1, 13.6, 13.13,
14.7, 17.3, 17.8). The meanings do not rest on it; it says which terms the outside world can send. -/

namespace Sys2Proof

/-- A field of `w` bits holds a number. -/
def fits (w n : Nat) : Bool := decide (n < 2 ^ w)

/-- PNEG says something only with PEN (Table 4.2). -/
def PlayHdr.wf (h : PlayHdr) : Bool := h.pen || !h.pneg

/-- A frame header: 16-bit indices, a SCOPE of one byte (Table 11.7). -/
def FrameHdr.wf (h : FrameHdr) : Bool := fits 16 h.dest && fits 16 h.src && fits 8 h.table

/-- A path's number within its kind (Table 12.1). -/
def PathId.wf : PathId → Bool
  | .mesh n => decide (n < 256)
  | .spine n => decide (n < 64)
  | .stackIf s c => decide (s < 8) && decide (c < 32)
  | .exchange s => decide (s < 8)
  | .coreInside n => decide (n < 4096)

/-- A requester of a kitty access: a core is one of 4,096 (Table 1.2). -/
def Agent.wf : Agent → Bool
  | .core n => decide (n < 4096)
  | .firmware => true
  | .cxl => true
  | .fabric => true

/-- A consumer of a line read. -/
def Consumer.wf : Consumer → Bool
  | .fabric src tag a n _ => fits 16 src && fits 16 tag && fits 48 a && decide (n ≤ 512)
  | .host hpa => fits 64 hpa
  | _ => true

/-- KIND and INSTANCE of a reset domain (Table 17.8). -/
def ResetDomain.wf : ResetDomain → Bool
  | .quadrant n => decide (n < 16)
  | .nearBank n => decide (n < 2)
  | .fabricSide n => decide (n < 2)
  | .stack n => decide (n < 8)
  | .controlCore n => decide (n < 2)
  | .wholeModule => true

/-- A TRAIN body (Table 11.3). -/
def TrainBody.wf (b : TrainBody) : Bool :=
  fits 8 b.majorMin && fits 8 b.majorMax && fits 8 b.minorMax && fits 8 b.arch && fits 16 b.module && fits 8 b.port && fits 8 b.role

/-- Entries of a serving message (Table 13.14). -/
def ServEntry.wf (e : ServEntry) : Bool := fits 16 e.slot && fits 8 e.kind && fits 16 e.count

/-- A serving message (Table 13.13): parts from 0, at most as many as announced. -/
def ServMsg.wf (m : ServMsg) : Bool := decide (m.part < m.parts) && decide (m.table < 64) && m.entries.all ServEntry.wf

/-- A group message (Table 17.3): 1 to 274 parts of at most 60 pairs. -/
def GroupMsg.wf (m : GroupMsg) : Bool :=
  decide (m.part < m.parts) && decide (m.parts ≤ 274) && decide (m.pairs.length ≤ 60) && m.pairs.all fun p => fits 16 p.1

/-- A submission entry (Table 13.6). -/
def Submission.wf (e : Submission) : Bool := fits 8 e.opcode

/-- A flit: 224 bytes on four lanes (Table 11.4). -/
def Flit.wf (f : Flit) : Bool := decide (f.lanes.length = 4) && f.lanes.all fun l => decide (l.length = 56)

/-- A poison mask is absent, or has one bit for each 32-bit word of the 512 bytes that a frame can carry (R361). -/
def maskFits (mask : List Bool) : Bool := mask.isEmpty || decide (mask.length = 128)

/-- A frame's data (Table 11.8). -/
def dataFits (data : List Byte) : Bool := decide (data.length ≤ 512)

/-- A mailbox input is at most the 4 KiB of the payload (R520). -/
def inputFits (input : List Byte) : Bool := decide (input.length ≤ 4096)

/-- Findings of a self-test in the fields of Table 17.2. -/
def TestFindings.wf (t : TestFindings) : Bool :=
  fits 16 t.quadrants && fits 2 t.nearBank && fits 8 t.stackMask && fits 12 t.ports && fits 9 t.diodes &&
    t.rows.all (fun r => decide (r.2.2.1 < 49152)) && t.lanes.all fun l => l.1.wf && decide (l.2 < 64)

/-- A diode's reading in units of 0.25 °C is a 12-bit two's-complement number (Table 16.8). -/
def readingFits (r : Option Int) : Bool :=
  match r with
  | none => true
  | some t => decide (-2048 ≤ t) && decide (t < 2048)

/-- Whether every operand of a command fits its field. -/
def Instr.wf : Instr → Bool
  | .nop h | .halt h | .fault h _ | .loop h _ _ | .skip h _ | .seti h _ | .saddi h _ | .salu h _ | .scmp h _ | .plog h _
  | .pbit h _ | .lidx h _ => h.wf
  | .playIllegal _ => true
  | .tmma h _ | .tzero h _ | .tout h _ | .tload h _ => h.wf
  | .vadd h _ | .vsub h _ | .vmul h _ | .vfma h _ | .vmax h _ | .vmin h _ | .vaddi h _ | .vmuli h _ | .vcvt h _ | .vquant h _
  | .vdeq h _ | .vexp2 h _ | .vlog2 h _ | .vrcp h _ | .vrsqrt h _ | .vtanh h _ | .vsigm h _ | .vsilu h _ | .vrsum h _
  | .vrssq h _ | .vrmax h _ | .vtopk h _ | .vscan h _ | .vfirst h _ | .vrand h _ => h.wf
  | .mcopy h _ | .mfill h _ | .mlds h _ | .msts h _ | .matom h _ | .mred h _ | .mpush h _ | .dload h _ | .dbase h _ => h.wf
  | .tplay h _ | .twait h _ | .tpw h _ | .ctake h _ | .csend h _ | .acq h _ | .rel h _ | .poll h _ | .fence h _ | .invr h _ => h.wf
  | .blatch h _ | .bissue h _ | .bawait h _ | .babort h _ => h.wf
  | .kittyAccess who a w _ _ => who.wf && fits 64 a && (w.map fun bs => decide (bs.length ≤ 64)).getD true
  | .kittyAtomic a _ _ _ _ => fits 64 a
  | .localTrickArrive _ t | .localTrickRelease _ t => fits 14 t
  | .onDiePushLanding n | .onDieCreditReturn n => fits 14 n
  | .pathTransferReceive p _ a b lane => p.wf && decide (a.length ≤ 64) && decide (b.length = a.length) && decide (lane < 64)
  | .lineRead who a _ => who.wf && fits 64 a
  | .lineWrite a _ _ _ => fits 64 a
  | .wcbDrainDone _ l _ | .writeHoldExpiry _ l | .sourceRepairReport _ l | .sourceFetchTimeout _ l => fits 58 l
  | .wcbDrainTimeout _ | .refreshDue _ _ | .refreshDone _ _ | .latchWrite _ _ | .scriptOperationStart _ _ _
  | .streamingPermitTaken _ | .rowOperationDone _ _ _ _ _ | .exchangeBusTransferDone _ | .bankResultDelivery _ _ _
  | .scrubRowStart _ _ | .trumpScrubDue _ | .scrubRowDone _ _ _ | .scrubLapTrumpCheck _ | .scrubLapDeadline _ => true
  | .unrepairedRefetchTick | .sourceDirectoryRetry => true
  | .sourceDirectoryReply r _ => fits 16 r
  | .flitReceive _ f => f.wf
  | .laneSignalLoss _ | .flitTimeout _ | .cablePresent _ | .trainPatternDetected _ | .trainStepDone _ | .trainStepTimeout _ => true
  | .train _ b => b.wf
  | .push h n o d u m => h.wf && fits 14 n && fits 32 o && dataFits d && fits 16 u && maskFits m
  | .pushAck h n u => h.wf && fits 14 n && fits 16 u
  | .credit h n c => h.wf && fits 14 n && fits 16 c
  | .streamStop h n _ => h.wf && fits 14 n
  | .tallyMark h n _ _ => h.wf && fits 14 n
  | .memRead _ h tag a l => h.wf && fits 16 tag && fits 48 a && fits 16 l
  | .memData h tag st d m _ => h.wf && fits 16 tag && fits 8 st && dataFits d && maskFits m
  | .memWrite _ h tag a d m => h.wf && fits 16 tag && fits 48 a && dataFits d && maskFits m
  | .memAck h tag st => h.wf && fits 16 tag && fits 8 st
  | .trickArrive h n _ _ | .trickRelease h n _ _ => h.wf && fits 14 n
  | .roundMark h _ _ | .abortReq h _ _ | .switchAnnounce h _ _ | .switchCancel h _ _ => h.wf
  | .abort h o _ _ => h.wf && fits 16 o
  | .switchLoadDone _ | .switchGatherTimeout | .fabViolationSecondTick => true
  | .switchGatherReply m _ => fits 16 m
  | .mgmt h p => h.wf && dataFits p
  | .quarClear h p t => h.wf && fits 8 p && fits 16 t
  | .nack h r b => h.wf && fits 8 r && decide (b.length = 16)
  | .roundList m | .spill m => m.wf
  | .roundReport n m | .prefillJob n m | .prefillDone n m | .spillDone n m | .pageFault n m => fits 16 n && m.wf
  | .join n m | .align n m | .ready n m | .windowDone n m | .probe n m => fits 16 n && m.wf
  | .windowOpen m | .probeAck m => m.wf
  | .probeTimer | .abortReqTimeout | .repairWindowPeriod | .windowBudgetExpiry => true
  | .memberReadyTimeout m => fits 16 m
  | .roundBudgetExpiry _ | .roundStall _ => true
  | .watchWake _ | .watchWakeService _ _ _ | .d2hCompletion _ _ _ => true
  | .openSession _ e | .generate _ e | .append _ e | .abortRequest _ e | .pause _ e | .resume _ e | .close _ e | .attach _ e => e.wf
  | .requestTokensFetched n _ | .pauseTtlExpiry n => fits 20 n
  | .treeRebuildStep => true
  | .uioCompletion t _ d _ => fits 16 t && decide (d.length ≤ 512)
  | .uioTimeout t => fits 16 t
  | .memRd a _ | .memWr a _ _ _ => fits 64 a
  | .birspi a | .bisnpinvTimeout a => fits 64 a
  | .snpinv _ | .snpdata _ => true
  | .bar0AccessInvalid o n => fits 64 o && decide (n ≤ 4096)
  | .partnerViolation _ h => decide (h.length ≤ 16)
  | .hdmDecoderCommit _ a n d w g => fits 64 a && fits 64 n && fits 64 d && fits 8 w && fits 16 g
  | .busMasterClear | .functionLevelReset | .cxlReset | .hotReset => true
  | .cxlLinkUp w r => decide (w ≤ 16) && fits 8 r
  | .ideKeyProg st d k key => fits 8 st && fits 1 d && fits 1 k && decide (key.length = 32)
  | .keySetGo st d k | .keySetStop st d k => fits 8 st && fits 1 d && fits 1 k
  | .spdmGetCertificate n => fits 8 n
  | .spdmChallenge n c => fits 8 n && decide (c.length = 32)
  | .spdmGetMeasurements i _ c => fits 8 i && decide (c.length ≤ 32)
  | .spdmKeyExchange n _ => fits 8 n
  | .spdmSessionLoss => true
  | .identify _ | .backgroundOperationStatus _ | .requestAbortBackgroundOperation _ | .getEventRecords _ _
  | .getEventInterruptPolicy _ | .getFwInfo _ | .getSupportedLogs _ | .getLog _ _ | .identifyMemoryDevice _ | .getHealthInfo _
  | .getPoisonList _ => true
  | .clearEventRecords _ _ _ hs => decide (hs.length ≤ 255)
  | .setEventInterruptPolicy _ bs => decide (bs.length ≤ 8)
  | .transferFw _ n _ | .activateFw _ _ n => fits 8 n
  | .performMaintenance _ _ a _ | .injectPoison _ a | .clearPoison _ a _ => fits 64 a
  | .mailboxUnsupported _ op => fits 16 op
  | .vndIdentify _ i | .partnerLogRead _ i | .deckQuery _ i | .deckSetIndex _ i | .deckStage _ i => inputFits i
  | .deckStageReadCompletion d _ => inputFits d
  | .deckVerifyDone | .deckArmBuildDone | .poolFillDone => true
  | .deckArm _ i | .deckSwitch _ i | .deckDiscard _ i => inputFits i
  | .fabRouteLoad _ i es => inputFits i && decide (es.length ≤ 65536)
  | .fabPortClear _ i | .fabPortRetrain _ i => inputFits i
  | .chanCreate _ i | .chanDestroy _ i | .chanResume _ i | .chanQuery _ i | .tableDisable _ i | .tableEnable _ i => inputFits i
  | .prefixPin _ i _ => inputFits i
  | .prefixUnpin _ i | .prefixFlush _ i | .kvSpillSet _ i | .slowWindowSet _ i | .slowWindowQuery _ i => inputFits i
  | .selftestResult _ i | .retest _ i | .repairWindowOpen _ i | .repairApply _ i | .recover _ i => inputFits i
  | .secNonceGet _ i | .secKeyState _ i | .secOwnerEnroll _ i | .secOwnerRevoke _ i | .secSvnAdvance _ i | .secDebugUnlock _ i =>
    inputFits i
  | .fuseWrite | .nonceExpiry _ => true
  | .telMeterLoRead o | .rglWrite o _ | .registerWrite o _ => fits 24 o
  | .thermLimitCtlWrite _ | .pwrDomainSetpointWrite _ _ => true
  | .regulatorRefillTick | .controlBeat | .heartbeatCheck | .mgmtBeat | .mgmtWatchdogExpiry => true
  | .paceUpdate cs => decide (cs.length = 16) && cs.all (fits 24)
  | .diodeSample _ r => readingFits r
  | .thermalTrip => true
  | .inputPowerApplied v m => fits 16 v && fits 8 m
  | .inputLow v | .inputExcursionEnd v => fits 16 v
  | .inputPowerLoss | .vinEnableOpen | .perstNDeassert => true
  | .refclkLost _ | .refclkRestored _ | .domainInRegulation _ | .domainRegulationTimeout _ => true
  | .bootFwVerified => true
  | .selftestComplete t => t.wf
  | .recoveryDone d _ | .domainFailureDetected d => d.wf
  | .standbyImageReady | .standbyLoadTimeout | .fwProbationExpiry | .oldActiveReloaded => true
  | .testAccessPortInstruction ir => fits 8 ir
  | .globalPersistentFlush n => fits 8 n
  | .partnerViolationSecondTick => true
  | .spdmGetVersion | .spdmGetCapabilities | .spdmNegotiateAlgorithms | .spdmGetDigests | .spdmHeartbeat | .spdmEndSession => true
  | .spdmFinish v => decide (v.length = 48)

end Sys2Proof
end

