-- ==== Sys2Proof/Tests/Slice0.lean ====
section
/-! SUPPORT. Tests of one step each: for every clause of every statement a state and operands that meet its hypotheses together,
ill-formed commands that WellFormed.lean refuses, and a few results worked out by hand. -/

namespace Sys2Proof.Tests
open Sys2Proof Sys2Proof.Machine

set_option Elab.async false

theorem fst_eq {α β : Type} {p : α × β} {y : β} (h : p.2 = y) : p = (p.1, y) := by subst h; rfl
theorem fst_some {α β : Type} {p : α × Option β} (h : p.2.isSome = true) : p = (p.1, some (p.2.get h)) := by
  obtain ⟨a, b⟩ := p
  cases b with
  | none => cases h
  | some v => rfl

theorem session_read {s : State} {n i : Nat} {e : Submission} (h : sessOf s e.session = some i ∧
    (getSess s i).table = (getChan s n).table ∧ (readSession s i).2 = false) : sessionRead s (readSession s i).1 n e i :=
  ⟨h.1, h.2.1, (readSession s i).1, (readSession s i).2, rfl, by simp [h.2.2]⟩
theorem idle_session {s : State} {n i : Nat} {e : Submission} (h : (sessOf s e.session = some i ∧
    (getSess s i).table = (getChan s n).table ∧ (readSession s i).2 = false) ∧ busySession (getSess (readSession s i).1 i) = false) :
    idleSession s (readSession s i).1 n e i := ⟨session_read h.1, h.2⟩
theorem all_or {P : Nat → Prop} {a : Nat} {l : List Nat} (h : P a ∧ ∀ k ∈ l, P k) : ∀ k, k = a ∨ k ∈ l → P k := by
  rintro k (rfl | m)
  · exact h.1
  · exact h.2 k m

/-! ### Small states for the tests -/

/-- A running module with input power, host and media ready, and no deck. -/
def up : State :=
  { State.reset with
    power := { Power.reset with inputOn := true }
    host := { HostPort.reset with busMaster := true, perst := false, linkUp := true }
    ctl := { Control.reset with idState := .running, mediaReady := true } }

/-- One region of table 0, a source region whose copy lies in slow-tier window 0. -/
def rg : Region :=
  { region := 0, owner := 0, banked := false, cls := .source, hostShared := false, scriptTarget := true, base := 0,
    size := 0x10000, srcKind := 2, srcModule := 0, srcRegion := 0 }

def tr0 : TrickEntry := { trick := 0, table := 0, spanning := false, expected := 2, masks := [(0, 3)] }
def tr1 : TrickEntry := { trick := 64, table := 0, spanning := true, expected := 1, masks := [(0, 1)] }
def st0 : StreamEntry :=
  { stream := 0, table := 0, kind := 0, producer := 0, consumer := 1, remote := 0, initial := 8, unitLog2 := 4 }
def st1 : StreamEntry := { st0 with stream := 1, kind := 1, remote := 1 }
def st2 : StreamEntry := { st0 with stream := 2, kind := 2, remote := 1 }

/-- A latch group of one slot and channel with chunks of 32 elements. -/
def grp : ScriptOp := { op := 1, ra := 0, rb := 0, chMask := 1, slotMask := 1, rowA := 0, rowB := 0, x := 256 }
def opEnd : ScriptOp := { op := 0, ra := 0, rb := 0, chMask := 0, slotMask := 0, rowA := 0, rowB := 0, x := 0 }
def sc : Script := { script := 0, table := 0, regions := [0], ops := [grp, opEnd] }

/-- The deck of a group of two modules: dealer 0, successor and member 1; table 0 on cluster 0 with two tricks, three streams
and one script. -/
def dk : Deck :=
  { id := { deckId := 5, serial := 1, digest := 9, keySlot := 0 }
    programs := [], routes := [], regions := [rg]
    tricks := [tr0, tr1], streams := [st0, st1, st2]
    scripts := [sc], regs := []
    tables := [
      { table := 0, enabled := true, trickBase := 0, trickCount := 65, chanBase := 0
        chanCount := 2, sessBase := 0, sessCount := 2, clusterMask := 1 }]
    plan :=
      { budget := 1, sessions := 1, batch := 1, thermalClass := 0, refreshAllow := 0
        riders := 0, trumpInterval := 1, lapDeadline := 1, drafts := 0, prefetch := 0 }
    spare := { windowPeriod := 4, windowBudget := 1, auto := 0, fuseMax := 1 }
    role :=
      { group := 7, dealer := 0, successor := 1, widen := 0, deepen := 0, roles := [], neighbours := []
        members := [(0, 0), (1, 0)] }
    annotation := [] }

/-- The dealer with the deck running, all domains on, and core 0 running. -/
def run : State :=
  { up with
    loader := { Loader.empty with running := some dk, index := some 0 }
    tables := [(0, { TableRegs.off with enabled := true })]
    power := { Power.reset with inputOn := true
                                domains := (List.range 20).map fun n => (n, { Domain.off with on := true, inReg := true }) }
    cores := [(0, { Core.empty with run := .running })] }

/-- The member of the same group. -/
def mem : State := { run with loader := { run.loader with index := some 1 } }

/-- `run` with core 0 changed. -/
def withCore (f : Core → Core) : State := { run with cores := [(0, f { Core.empty with run := .running })] }

/-- `run` with the deck changed. -/
def withDeck (f : Deck → Deck) : State := { run with loader := { run.loader with running := some (f dk) } }

/-- `run` with stack 0 changed. -/
def withStack (f : Stack → Stack) : State := { run with stackMap := [(0, f Stack.empty)] }

def hd : PlayHdr := { core := ⟨0, 0⟩, pen := false, pneg := false, pred := 0 }
def fC : FmtC := { sd := 1, sx := 2, sy := 3, pd := 0, fn := 0, imm := 0 }
def fT : FmtT := { da := 0, db := 0, dc := 0, sa := 0, sb := 0, sc := 0, acc := 0, mode := 0, imm := 0 }
def fY : FmtY := { id := 0, count := 1, inv := false, sa := 0, da := 0, cmp := 0, sd := 0, kind := false, imm := 0 }
def fB : FmtB := { script := 0, ticket := 0, din := 0, dout := 0, sp := 0, latch := 0, sd := 0 }
def fh : FrameHdr := { dest := 0, src := 1, gen := 0, table := 0, poison := false }

/-- A descriptor of Table 6.1 with bounds equal to sizes, written out from its byte offsets. -/
def desc (type block base : Nat) (size : List Nat) (stride : List Nat) (scaleBase : Nat) : BitVec 1024 :=
  BitVec.ofNat 1024 (leNat (leBytes 1 1 ++ leBytes 1 size.length ++ leBytes 1 type ++ leBytes 1 block ++ leBytes 1 0 ++
    leBytes 1 (if block = 0 then 0 else 0x10) ++ leBytes 2 0 ++ leBytes 6 base ++ leBytes 2 0 ++
    ((size ++ List.replicate 6 1).take 6).flatMap (leBytes 4) ++ ((size ++ List.replicate 6 1).take 6).flatMap (leBytes 4) ++
    ((stride ++ List.replicate 6 0).take 6).flatMap (leBytes 5) ++ leBytes 6 scaleBase))

/-- Four FP32 elements at scratch offset 0. -/
def dF : BitVec 1024 := desc 1 0 localBit [4] [1] 0

/-- `desc` at no offset. -/
def at0 (b : BitVec 1024) : Desc := moveDesc (parseDesc b) 0

def dI2 : BitVec 1024 := desc 0x0C 0 (localBit + 64) [2] [1] 0
def dA : BitVec 1024 := desc 2 0 localBit [32, 2] [1, 32] 0
def dB : BitVec 1024 := desc 2 0 (localBit + 256) [32, 3] [1, 32] 0
def dH : BitVec 1024 := desc 3 0 (localBit + 256) [32, 3] [1, 32] 0
def dT : BitVec 1024 := desc 1 0 (localBit + 512) [2, 3] [1, 2] 0
def dG : BitVec 1024 := desc 1 0 (localBit + 64) [4] [1] 0
def dX : BitVec 1024 := desc 1 0 localBit [2, 2] [1, 2] 0
def dY : BitVec 1024 := desc 1 0 localBit [2, 2] [2, 1] 0
def dV : BitVec 1024 := desc 1 0 (localBit + 64) [1] [1] 0
def dQ : BitVec 1024 := desc 1 0 localBit [32] [1] 0
def dM : BitVec 1024 := desc 4 1 (localBit + 1024) [32] [1] (localBit + 2048)
def dD : BitVec 1024 := desc 0x0C 0 0x1000 [4] [1] 0
def dE : BitVec 1024 := desc 0x0C 0 localBit [4] [1] 0
def dL : BitVec 1024 := desc 4 0 localBit [32] [1] 0

/-- `run` with core 0 holding two descriptors in slots 0 and 1, and one in slot 2. -/
def dcore (a b c : BitVec 1024) : State := withCore fun k => { k with descs := [(0, a), (1, b), (2, c)] }

/-- The descriptors of the format in slots 0, 1 and 2. -/
def f012 : FmtT := { fT with db := 1, dc := 2 }
def f02 : FmtT := { fT with dc := 2 }
def f01 : FmtT := { fT with db := 1 }
def f1 : FmtT := { fT with dc := 1 }

/-- A stream of this module's deck with credits. -/
def strm : Stream := { Stream.empty with prodValid := true, consValid := true, avail := 1, taken := 1, delivered := 1, held := 1 }
/-- A clean Kitty line without poison. -/
def kl : CLine := { data := 0, poison := 0, dirty := false }
/-- `run` with one Kitty line present. -/
def kk (l : Nat) : State := { run with kitty := [(l, some kl)] }

/-- An entry of the write-combining buffer. -/
def we (l : Nat) : WcbEntry := { line := l, data := 7, mask := fullMask, poison := 0, sender := .none }

/-- `run` with a regulator of table 0 enabled and empty at stack 0. -/
def dry : State := { run with regs := [(0, { Regulator.off with enable := true, depth := 100, level := 0 })] }
theorem dF_extents : ∀ e ∈ extents (moveDesc (parseDesc dF) 0), ∀ a : Int, e.2.1 ≤ a → a ≤ e.2.2 →
    (a.toNat - localBit) / 4 ≠ 16 / 4 := by
  have h : extents (moveDesc (parseDesc dF) 0) = [(0, (localBit : Int), (localBit : Int) + 15)] := by decide +kernel
  rw [h]
  simp only [List.mem_singleton, localBit]
  rintro e rfl a h1 h2
  simp only at h1 h2
  omega
theorem no_some {α : Type} {o : Option α} {r : α} {P : Prop} (h : o = none) (q : o = some r) : P := by
  rw [h] at q
  cases q

/-- A fill, a copy, and a fill past the last row. -/
def fill : ScriptOp := { op := 0x10, ra := 0, rb := 0, chMask := 1, slotMask := 1, rowA := 0, rowB := 0, x := 1 }
def copy : ScriptOp := { fill with op := 0x11, rowB := 1 }
def dot : ScriptOp := { fill with op := 0x21, x := 0x1000 }
def fills : ScriptOp := { fill with x := 2 }
def sops : Script := { sc with ops := [grp, opEnd, fill, copy, dot, fills] }

/-- A bank in the row it works on, and a run of core 0 at the operation numbered. -/
def inRow : BankRun := { bank := 0, started := true, inRow := true, done := 0, rows := [], held := none, ended := false }
def runOpAt (i : Nat) : ScriptRun :=
  { core := 0, ticket := 0, gen := 0, card := sops, rowAdd := 0, dout := 0, doutDesc := dF, opIdx := i, active := true
    banks := [inRow], cursor := 0, results := [], abort := false, faulted := false }

/-- `run` with the script of `sops` and stack 0 changed. -/
def withRun (f : Stack → Stack) : State :=
  { withDeck (fun d => { d with scripts := [sops] }) with stackMap := [(0, f Stack.empty)] }
def withScrub (f : Scrub → Scrub) : State := withStack fun k => { k with scrub := f k.scrub }

/-- A latch load on its way to bank 767 of stack 0. -/
def lf : LatchFlight :=
  { id := 0, core := 0, stack := 0, bank := 767, latch := 0, card := sc, param := 0
    content := { values := [], scales := [], length := 1, valid := true, e5 := false, raw := false, poison := [] } }
def bx : BusXfer := { channel := 0, core := 0, ticket := 0, gen := 0, dests := [(1, 0)], data := 0, poison := 0 }

/-- A repair of line 1023, the last of region 0. -/
def rp : Repair :=
  { line := 1023, bank := 0, row := 0, pos := 0, region := some rg, base := some 0, fetching := false, tag := 0, gen := 0, addr := 0, consumers := [], writes := [] }

/-- `run` with slow-tier window 0, and port 0 the way to module 1. -/
def far : State :=
  { run with host := { run.host with slow := [(0, (true, 0x100000, 0x10000))] }
             ports := [(0, { Port.off with state := .active, role := 1 })]
             routes := [(0, 0x00F0), (1, 0x00F0)]
             directory := [(0, some (.valid 0x1000))] }

/-- `far` with region 0 sourced from module 1. -/
def rgM : Region := { rg with srcKind := 1, srcModule := 1 }
def farM : State := { far with loader := { far.loader with running := some { dk with regions := [rgM] } } }

/-- `run` with a cabled port 0 of role 1 whose neighbour is module 1. -/
def net (f : Port → Port) : State :=
  { withDeck (fun d => { d with role := { d.role with roles := [1], neighbours := [1] } }) with
    ports := [(0, f { Port.off with cable := true })] }
def tb : TrainBody :=
  { majorMin := 1, majorMax := 1, minorMax := 0, arch := 1, module := 1, port := 0, role := 1, group := 7, deckSerial := 1 }
/-- A flit of a sequence number and a payload, with `n` bytes in error. -/
def fl (seq : BitVec 10) (payload : List Byte) (n : Nat) : Flit :=
  let m := flitMessage seq 0 false 0 0 0 payload ++ List.replicate 13 0
  { lanes := (List.range 4).map fun l => (List.range 56).map fun i => (m[4 * i + l]?).getD 0
    errors := (List.range n).map (Fin.ofNat 224) }
def padding : List Byte := List.replicate 200 0
def credits : List Byte := 3 :: List.replicate 199 0
def rf (seq : BitVec 10) (n : Nat) : RetFlit := { seq := seq, payload := padding, first := 0, credit := (0, 0), frames := [], replays := n }
/-- `run` with region 0 replaced. -/
def withReg (r : Region) : State := withDeck fun d => { d with regions := [r] }
def rgC : Region := { rg with cls := .recompute }
def withCtl (b : State) (f : Control → Control) : State := { b with ctl := f b.ctl }

/-- `run` waiting for the answer with tag 5 of module 1, for line 1023. -/
def asked : State :=
  { run with fabTags := [(1, 5)]
             stackMap := [(0, { Stack.empty with repairs := [{ rp with region := some rgM, fetching := true, tag := 5 }] })] }
def job : PrefillJob :=
  { src := 1, table := 0, session := 0, newPage := 0, parts := [], total := 0, tokens := [], pages := [], committed := 0
    acks := [(5, 0, 0, 0, 1)], shipping := false, failed := false, done := [] }
def job2 : PrefillJob := { job with acks := [(5, 0, 0, 0, 1), (6, 0, 0, 0, 1)] }

/-- The member with the same deck armed, and a group of three modules. -/
def armd : State := { mem with loader := { mem.loader with armed := some dk } }
def dk3 : Deck := { dk with role := { dk.role with members := [(0, 0), (1, 0), (2, 0)] } }
def gath (d : Deck) : State :=
  { run with loader := { run.loader with running := some d, armed := some d, phase := .gathering } }
def sw : SwitchState := { armed := true, id := dk.id }
def gm : GroupMsg :=
  { kind := 1, part := 0, parts := 1, gen := 0, group := 7, arg := 0, deckId := 5, deckSerial := 1, pairs := [] }
def sm : ServMsg := { kind := 0, part := 0, parts := 1, table := 0, round := 0, gen := 0, entries := [], tokens := [] }
def opened : RoundState := { RoundState.idle with isOpen := true }

/-- Session 0 of table 0 in a phase, and an entry that names it. -/
def withSess (b : State) (f : Session → Session) : State := { b with sessions := [(0, f Session.free)] }
def se : ServEntry :=
  { session := 2 ^ 26, position := 0, slot := 0, kind := 0, flags := 1, count := 0, newPage := 0 }

def cmpl : Completion := { tag := 0, kind := 0, status := 0, tokens := [], position := 0 }
def sub : Submission :=
  { opcode := 1, tag := 0, session := 0, tokensAddr := 0, tokenCount := 0, maxNew := 0, param := 0, arg := 0, reserved := true }
def bg : Background := { cci := 0, opcode := 0xC012, running := true, percent := 0, result := .success, code := 0, out := [] }

/-- Bytes most significant first, as keys, hashes and signatures are written. -/
def big (n v : Nat) : List Byte := (leBytes n v).reverse

/-- The public key that is the base point of the curve, its hash, and the first half of the signatures below. -/
def keyG : List Byte :=
  big 48 0xAA87CA22BE8B05378EB1C71EF320AD746E1D3B628BA79B9859F741E082542A385502F25DBF55296C3A545E3872760AB7 ++
  big 48 0x3617DE4A96262C6F5D9E98BF9292DC29F8F41DBD289A147CE9DA3113B5F0B8C00A60B1CE1D7E819D7A431D7C90EA0E5F
def keyHash : BitVec 384 := 0xA19D4DB171B582EB8052B0CFE555E17894AA22D1C8A9770950697DD8F796D2FA4BF0A56AD80006B7EA08E1191F814B65
def sigR : Nat := 0xAA87CA22BE8B05378EB1C71EF320AD746E1D3B628BA79B9859F741E082542A385502F25DBF55296C3A545E3872760AB7

/-- An input with its trailer: key slot `slot`, nonce 5, signature `(sigR, v)` and `keyG`. -/
def signed (own : List Byte) (slot v : Nat) : List Byte :=
  own ++ leBytes 8 slot ++ leBytes 16 5 ++ big 48 sigR ++ big 48 v ++ keyG

/-- A state whose interface 0 has nonce 5, and in which `keyG` is the key of owner slot 0 and of the vendor. -/
def owned (b : State) : State :=
  { b with sec := { b.sec with nonces := [(0, some 5)], ownerState := [(0, 1)], ownerHash := [(0, keyHash)], vendorHash := keyHash } }
def gIndex : List Byte := signed (leBytes 8 8191) 0
  0x82425DEDDB6D8459F8E73D344A67C2AFC703CBF3C4E89D9F70F1CC9ACA6F5F7C981C9F163F17564383CA7BBC02C996FA
def gDisable : List Byte := signed (leBytes 8 0) 0
  0xD5C8502C3ED43D208FD90FA0FFDF9699D1E525F9C17EB18F6615593BE0808584DF9CFF8CA5A1F1792E9249B0288637B7
def gEnable : List Byte := signed (leBytes 8 0) 0
  0xC49089899390D720B6690DEA3A33CFFCE9BCACA49492835C36089526C72B717B5411F566198D63A82712C85CD092EBE4
def gSpill : List Byte := signed (leBytes 16 3903) 0
  0x4B7EF9EF90F91FFEBF02830001D75181CDBB59E86FA6B788C5A5DEB4987563C2F9C9F124805DF2B8AE64F89D334DD1B6
def gWindow : List Byte := signed (leBytes 24 22300745198530623160878531386482428301279503) 0
  0x185214148264D3E58A2B0CBB5AEC8A1249412746D934C22F9D0D756A56FDF93F67F2A8611BC1ECF47B48E66C25A77EEA
def gRoutes : List Byte := signed (leBytes 8 16384) 0
  0x4BBC920F761AB97E44EB0CD5DD65346E055ABA82FB4D777C3CD7DF22413A973AFF533A5CEE9AF798BD7C2ED4D08869C8
def gQuar : List Byte := signed (leBytes 8 65547) 0
  0x8551C85E93998EB301F63AFC869916B499CCCBE53770503ACE4D5FD9360934BDCDC1B822ED135A768B780C9A6469BE43
def gRetire : List Byte := signed (leBytes 8 11) 0
  0x480E992E7E35F7A679A39810DD5DAB1C6C8D0DC71AF322473962E0C0DA85B352B91A33C2427FFDDC68BBC5CF10CADF4F
def gEnroll : List Byte := signed (leBytes 56 3) 0
  0x3F7E1FEDB4F2390086F1FAE1AC8EFA6549879883A806F37F7CDA66CCDA63E7947B50DBEED452BE5148689515FA30B652
def gEnrollBad : List Byte := signed (leBytes 56 4) 0
  0xC1280AE54E1DF677FEBEEBFC587565222ACC6BE76B667F2A6D3347FF233FC8E6AC09328675542265F6428AAE57941210
def gRevoke : List Byte := signed (leBytes 8 0) 0
  0xE5A2C5895200CB56C3C77C91DCEDF34AE5F9268B32E8F2AE8A44538E75855DDE48B015CE356AC95912B0AFE623C2AF07
def gRevokeTwo : List Byte := signed (leBytes 8 1) 0
  0x4E7565C4D0A6EE96C9815A55E6297A0005E193DDB238551C118F1E15B4AF773DFAD0605081FCDB7C15B462CA85A9B0C5
def gSvn : List Byte := signed (leBytes 0 0) 0
  0xB138E272A5FCFCAD07A9574FB5228F8F26E4ED0A4E110F4A0221AB8BC89683890C7D08D36A889536C14D6EF7AAC2A878
def gDebug : List Byte := signed (leBytes 8 1) 255
  0x7C8031F9A2490762AE87BC11A122F4E87D9878571BD7180D5AAD0BFD131B7BE9FF9F7CF12B85C2061FB6E264A199F944
def gUndebug : List Byte := signed (leBytes 8 0) 255
  0xABB836F46FF6A2836737C83ED95C028F9B9395CB9D45C64D0AB02F33018B38F21901C0897377889566AC3B2E41B90A03
def gTest : List Byte := signed (leBytes 8 1) 0
  0xC1EE87CF37A297596681A6EA5392E93306BA89B7466B1F63F31CF0B8C5E6AB767731F5B51E4836738069811364E4C355
def gOnline : List Byte := signed (leBytes 0 0) 0
  0xEE3DFC651B8CEA6438C3A301E19131FBF614DE55C5DD517EEBFBC485B9AA3E2C1B88C20DFF0E1850A5562FC08FAB1A5
def gAck : List Byte := signed (leBytes 0 0) 0
  0x82C8374C872D95C97E39C1475B5BA29114E8C40725017CC4B9047D05A91437CD18BBC4BDB93D8577EAE4452E2A18BFFD
def gReset : List Byte := signed (leBytes 8 1) 0
  0xCC4B8D6B6A8EB0B71F0EB67286B94089C4D9460E49247B526C7C1952132B7C65134EAC2E8F1E30369C8D8BEAD030B398
def gResetBad : List Byte := signed (leBytes 8 255) 0
  0xD170F116720009434AE4AF41073C9CC6B6C291DCA48D557C51DAF87F726AF74FF3787BC2153BA75293AC65EEC02377A7

/-- A firmware image of 320 bytes, security version 1, signed by the vendor key `keyG`. -/
def fwImg : List Byte :=
  [0x4E, 0x59, 0x44, 0x4C, 0x46, 0x57, 0x49, 0x4D, 0, 0, 1, 1, 1, 0, 1, 0] ++ leBytes 8 320 ++ List.replicate 24 0 ++
  big 48 0xFF385538C814BFD74597BACCF219E8BECAFF8712E82C675A9BA5DD1DC474321041177A72A6E99829C317AB3E14C5BCC0 ++ big 48 sigR ++
  big 48 0xA9C01F5B869FC50ED44981EBE53A9633391CC27573D402F32E39D17C52912E693E005F1E1D8E1A1B107FF00BBA769E04 ++ keyG ++ List.replicate 32 0

/-- A deck image of 320 bytes without cards, signed by the owner key `keyG`. -/
def deckImg : List Byte :=
  [0x4E, 0x59, 0x44, 0x4C, 0x44, 0x45, 0x43, 0x4B, 1, 0, 1, 0] ++ leBytes 4 320 ++ leBytes 8 320 ++ List.replicate 24 0 ++
  big 48 0x839C4068BB94802BBD9650D1FD84237F8A2F596AF0272B276678E11FFD403AA8CFD373BC73C6652B5AF069E0F333790A ++ big 48 sigR ++
  big 48 0x2E240A8B7A1F85634C4817F0F0A4D0F3F84C94CD7BCEC6BFF90CD57E8B5D3701CCBC5867EA6AE71CA858AEAE98E45A4E ++ keyG ++ List.replicate 32 0

def spent (b : State) : State := { owned b with sec := { (owned b).sec with nonces := [] } }

/-- The same with two owner slots enrolled. -/
def owned2 (b : State) : State := { owned b with sec := { (owned b).sec with ownerState := [(0, 1), (1, 1)] } }
def spent2 (b : State) : State := { owned2 b with sec := { (owned2 b).sec with nonces := [] } }

/-- A base die at the warmest temperature at which the store is written. -/
def warm (b : State) : State :=
  { b with power := { b.power with diodes := [(0, { Diode.unread with valid := true, temp := 340 })] } }

def fwz (n : Nat) : FwImage :=
  { major := 1, minor := 0, patch := 0, generation := 1, svn := n, deckMajor := 1, digest := 0, bytes := [] }
def pn : Pin := { Pin.free with used := true, ready := true }

/-- `up` with the deck loader changed. -/
def ld (f : Loader → Loader) : State := { up with loader := f Loader.empty }

/-- A deck image with one role card, of a group whose only member is module 0. -/
def roleCard : Card :=
  { off := 320, type := 11, version := 16, flags := 0, selector := 0xFFFF
    payload := leBytes 4 7 ++ leBytes 4 0 ++ leBytes 2 1 ++ leBytes 54 0 ++ leBytes 8 0 }
def roleImg : List Byte :=
  leBytes 24 0 ++ leBytes 4 1 ++ leBytes 292 0 ++ leBytes 2 11 ++ [16, 0] ++ leBytes 4 72 ++ leBytes 2 0xFFFF ++ leBytes 6 0 ++
    roleCard.payload

/-! ### Witnesses: `test_meets_<Statement>` meets the hypotheses of each clause of `Obligations.<Statement>` -/

theorem test_meets_IdleStepCountsMeters :
    (∃ s : State, s.pending = [] ∧ s.power.inputOn = false) ∧
    (∃ s : State, ∃ u : State, ∃ m, u = (if s.loader.stage = .staged then { s with loader := { s.loader with stage := .verifying } } else s)
    ∧ (m = (List.range 8).foldl (fun m n => smod Stack.empty m n fun k => { k with meter := k.meter + 1 }) s.stackMap) ∧ s.pending = []
    ∧ s.power.inputOn = true ∧ (∀ n < 8, (getStack s n).ringOsc = false) ∧ s.ringOsc = false) ∧
    (∃ s : State, ∃ u : State, ∃ m, u = (if s.loader.stage = .staged then { s with loader := { s.loader with stage := .verifying } } else s)
    ∧ (m = (List.range 8).foldl (fun m n => smod Stack.empty m n fun k => { k with meter := k.meter + 1 }) s.stackMap) ∧ s.pending = []
    ∧ s.power.inputOn = true ∧ (∀ n < 8, (getStack s n).ringOsc = false) ∧ s.ringOsc = true) :=
  ⟨⟨State.reset, by decide +kernel⟩,
   ⟨up, _, _, rfl, rfl, by decide +kernel⟩,
   ⟨{ up with ringOsc := true }, _, _, rfl, rfl, by decide +kernel⟩⟩

theorem test_meets_StepTakesOnlyTheFront :
    (∃ s : State, ∃ t : State, step s = .next t) :=
  ⟨{ up with pending := [.nonceExpiry 0] }, up, rfl⟩

theorem test_meets_StepKeepsArrayForm :
    (∃ s : State, ∃ t : State, s.arrayOk ∧ step s = .next t) :=
  ⟨{ up with pending := [.nonceExpiry 0] }, up, rfl, rfl⟩

theorem test_meets_StepOnlySetsFuses :
    (∃ s : State, ∃ t : State, step s = .next t ∧ s.sec.debugFuse = 3) ∧
    (∃ s : State, ∃ t : State, ∃ k, step s = .next t ∧ sget 0 s.sec.ownerState k ≠ 0) ∧
    (∃ s : State, ∃ t : State, ∃ k, step s = .next t ∧ sget 0 s.sec.ownerState k = 3) :=
  ⟨⟨{ up with pending := [.nonceExpiry 0], sec := { Security.reset with debugFuse := 3 } },
    { up with sec := { Security.reset with debugFuse := 3 } }, rfl, by decide +kernel⟩,
   ⟨{ up with pending := [.nonceExpiry 0], sec := { Security.reset with ownerState := [(0, 1)] } },
    { up with sec := { Security.reset with ownerState := [(0, 1)] } }, 0, rfl, by decide +kernel⟩,
   ⟨{ up with pending := [.nonceExpiry 0], sec := { Security.reset with ownerState := [(0, 3)] } },
    { up with sec := { Security.reset with ownerState := [(0, 3)] } }, 0, rfl, by decide +kernel⟩⟩

theorem test_meets_PredicateFalseSkipsPlay :
    (∃ i : Instr, ∃ h : PlayHdr, ∃ s : State, playHdr i = some h ∧ (∀ c b, i ≠ .loop h c b) ∧ coreIssues s h.core.idx = true ∧ h.parity = none
    ∧ h.pen = true ∧ predBad (getCore s h.core.idx) h.pred.val = false ∧ predOf (getCore s h.core.idx) h.pred.val = h.pneg) :=
  ⟨.halt { hd with pen := true, pred := 1 }, { hd with pen := true, pred := 1 }, run, rfl, (by simp), by decide +kernel⟩

theorem test_meets_PoisonedPredicateFaults :
    (∃ i : Instr, ∃ h : PlayHdr, ∃ s : State, playHdr i = some h ∧ coreIssues s h.core.idx = true ∧ h.parity = none ∧ h.pen = true
    ∧ predBad (getCore s h.core.idx) h.pred.val = true) :=
  ⟨.halt { hd with pen := true, pred := 1 }, { hd with pen := true, pred := 1 }, withCore fun c => { c with predPoison := 2 }, rfl,
    by decide +kernel⟩

theorem test_meets_StoppedCoreIssuesNothing :
    (∃ i : Instr, ∃ n : CoreId, ∃ s : State, ((playHdr i).map (·.core) = some n ∨ i = .playIllegal n)
    ∧ ((getCore s n.idx).run ≠ .running ∨ (getCore s n.idx).wait ≠ .none ∨ clusterOn s (n.idx / 64) = false)) :=
  ⟨.halt hd, ⟨0, 0⟩, up, .inl rfl, by decide +kernel⟩

theorem test_meets_ControlPlays :
    (∃ s : State, ∃ h : PlayHdr, Runs s h) ∧
    (∃ s : State, ∃ h : PlayHdr, ∃ count : BitVec 20, ∃ body : BitVec 11, Runs s h) ∧
    (∃ s : State, ∃ h : PlayHdr, ∃ n : BitVec 11, Runs s h) ∧
    (∃ s : State, ∃ h : PlayHdr, ∃ count : BitVec 20, ∃ body : BitVec 11, coreIssues s h.core.idx = true ∧ h.parity = none ∧ h.pen = true
    ∧ predBad (getCore s h.core.idx) h.pred.val = false ∧ predOf (getCore s h.core.idx) h.pred.val = h.pneg) ∧
    (∃ s : State, ∃ h : PlayHdr, ∃ n : BitVec 11, coreIssues s h.core.idx = true ∧ h.parity = none ∧ h.pen = true
    ∧ predBad (getCore s h.core.idx) h.pred.val = false ∧ predOf (getCore s h.core.idx) h.pred.val = h.pneg) :=
  ⟨⟨run, hd, by unfold Runs; decide +kernel⟩,
   ⟨run, hd, 0, 0, by unfold Runs; decide +kernel⟩,
   ⟨run, hd, 0, by unfold Runs; decide +kernel⟩,
   ⟨run, { hd with pen := true, pred := 1 }, 0, 0, by decide +kernel⟩,
   ⟨run, { hd with pen := true, pred := 1 }, 0, by decide +kernel⟩⟩

theorem test_meets_ScalarPlays :
    (∃ s : State, ∃ h : PlayHdr, ∃ f : FmtC, Runs s h ∧ sregBad (getCore s h.core.idx) f.sx.val = false) ∧
    (∃ s : State, ∃ h : PlayHdr, ∃ f : FmtC, Runs s h ∧ sregBad (getCore s h.core.idx) f.sx.val = true ∧ f.sd.val ≠ 0) ∧
    (∃ s : State, ∃ h : PlayHdr, ∃ f : FmtC, ∃ x : W64, ∃ y : W64, ∃ v : W64, Runs s h ∧ sreg (getCore s h.core.idx) f.sx.val = x
    ∧ sreg (getCore s h.core.idx) f.sy.val = y ∧ sregBad (getCore s h.core.idx) f.sx.val = false
    ∧ sregBad (getCore s h.core.idx) f.sy.val = false
    ∧ (f.fn = 0 ∧ v = x + y ∨ f.fn = 1 ∧ v = x - y ∨ f.fn = 2 ∧ v = x * y ∨ f.fn = 3 ∧ v = x &&& y ∨ f.fn = 4 ∧ v = x ||| y ∨ f.fn = 5 ∧ v = x ^^^ y ∨ f.fn = 6 ∧ v = x <<< (y.toNat % 64) ∨ f.fn = 7 ∧ v = x >>> (y.toNat % 64) ∨ f.fn = 8 ∧ v = BitVec.ofNat 64 (min x.toNat y.toNat) ∨ f.fn = 9 ∧ v = BitVec.ofNat 64 (max x.toNat y.toNat))) ∧
    (∃ s : State, ∃ h : PlayHdr, ∃ f : FmtC, ∃ v : W64,
    (match (getCore s h.core.idx).loops[f.fn.toNat % 4]? with | some l => v = BitVec.ofNat 64 l.iter | none => v = BitVec.allOnes 64)
    ∧ Runs s h) :=
  ⟨⟨run, hd, fC, by unfold Runs; decide +kernel⟩,
   ⟨withCore fun c => { c with spoison := [(2, 1)] }, hd, fC, by unfold Runs; decide +kernel⟩,
   ⟨run, hd, fC, 0, 0, 0, by unfold Runs; decide +kernel⟩,
   ⟨run, hd, fC, BitVec.allOnes 64, rfl, by unfold Runs; decide +kernel⟩⟩

theorem test_meets_PredicatePlays :
    (∃ s : State, ∃ h : PlayHdr, ∃ f : FmtC, ∃ x : W64, ∃ y : W64, ∃ b : Bool, Runs s h ∧ sreg (getCore s h.core.idx) f.sx.val = x
    ∧ sregBad (getCore s h.core.idx) f.sx.val = false
    ∧ (if bitOf f.fn.toNat 3 then y = f.imm.zeroExtend 64 else y = sreg (getCore s h.core.idx) f.sy.val ∧ sregBad (getCore s h.core.idx) f.sy.val = false)
    ∧ (f.fn.toNat % 8 = 0 ∧ b = decide (x = y) ∨ f.fn.toNat % 8 = 1 ∧ b = decide (x ≠ y) ∨ f.fn.toNat % 8 = 2 ∧ b = decide (x.toNat < y.toNat) ∨ f.fn.toNat % 8 = 3 ∧ b = decide (y.toNat ≤ x.toNat) ∨ f.fn.toNat % 8 = 4 ∧ b = decide (x.toInt < y.toInt) ∨ f.fn.toNat % 8 = 5 ∧ b = decide (y.toInt ≤ x.toInt))) ∧
    (∃ s : State, ∃ h : PlayHdr, ∃ f : FmtC, ∃ x : Bool, ∃ y : Bool, ∃ b : Bool, Runs s h ∧ predOf (getCore s h.core.idx) (f.sx.val % 8) = x
    ∧ predOf (getCore s h.core.idx) (f.sy.val % 8) = y
    ∧ (f.fn.toNat < 4 → predBad (getCore s h.core.idx) (f.sx.val % 8) = false ∧ predBad (getCore s h.core.idx) (f.sy.val % 8) = false)
    ∧ (f.fn = 0 ∧ b = (x && y) ∨ f.fn = 1 ∧ b = (x || y) ∨ f.fn = 2 ∧ b = (x != y) ∨ f.fn = 3 ∧ b = (x && !y) ∨ f.fn = 4 ∧ b = true ∨ f.fn = 5 ∧ b = false)) ∧
    (∃ s : State, ∃ h : PlayHdr, ∃ f : FmtC, Runs s h ∧ sregBad (getCore s h.core.idx) f.sx.val = false) ∧
    (∃ s : State, ∃ h : PlayHdr, ∃ f : FmtC, Runs s h ∧ f.fn.toNat < 4
    ∧ (predBad (getCore s h.core.idx) (f.sx.val % 8) = true ∨ predBad (getCore s h.core.idx) (f.sy.val % 8) = true)) :=
  ⟨⟨run, hd, fC, 0, 0, true, by unfold Runs; decide +kernel⟩,
   ⟨run, hd, fC, false, false, false, by unfold Runs; decide +kernel⟩,
   ⟨run, hd, fC, by unfold Runs; decide +kernel⟩,
   ⟨withCore fun c => { c with predPoison := 4 }, hd, fC, by unfold Runs; decide +kernel⟩⟩

theorem test_meets_CoreFaults :
    (∃ s : State, ∃ h : PlayHdr, ∃ k : BitVec 16, Runs s h) ∧
    (∃ s : State, ∃ n : CoreId, coreIssues s n.idx = true ∧ fetchPlay s n = none) ∧
    (∃ i : Instr, ∃ h : PlayHdr, ∃ s : State, playHdr i = some h ∧ coreIssues s h.core.idx = true ∧ h.parity = some .program) ∧
    (∃ i : Instr, ∃ h : PlayHdr, ∃ r : Fin 64, ∃ s : State, playHdr i = some h ∧ coreIssues s h.core.idx = true ∧ h.parity = some (.desc r)
    ∧ h.pen = false) ∧
    (∃ s : State, ∃ h : PlayHdr, ∃ f : FmtT, ∃ k : Fin 49152, coreIssues s h.core.idx = true ∧ h.pen = false ∧ h.parity = some (.scratch k)) ∧
    (∃ s : State, ∃ n : Nat, ∃ e : Ev, ∃ k : Nat, ∃ a : W64, ∃ m, deckOf s = none ∧ n < 4096 ∧ m ≠ n) :=
  ⟨⟨run, hd, 0, by unfold Runs; decide +kernel⟩,
   ⟨run, ⟨0, 0⟩, by decide +kernel⟩,
   ⟨.halt { hd with parity := some (.program) }, { hd with parity := some (.program) }, run, by decide +kernel⟩,
   ⟨.dbase { hd with parity := some (.desc 0) } fT, { hd with parity := some (.desc 0) }, 0, run, by decide +kernel⟩,
   ⟨run, { hd with parity := some (.scratch 0) }, fT, 0, by decide +kernel⟩,
   ⟨up, 5, evTnsOperand, 0, 0, 6, by decide +kernel⟩⟩

theorem test_meets_TensorPlays :
    (∃ s : State, ∃ h : PlayHdr, ∃ f : FmtT, Runs s h) ∧
    (∃ s : State, ∃ h : PlayHdr, ∃ f : FmtT, ∃ a : Desc, ∃ b : Desc, ∃ m : Nat, ∃ n : Nat, ∃ k : Nat, ∃ len : Nat, ∃ isInt : Bool,
    ∃ old : Tile, pairKind (descElem a) (descElem b) = some isInt ∧ Runs s h
    ∧ takeOperands (getCore s h.core.idx) [(f.da.val, f.sa.val), (f.db.val, f.sb.val)] = .ok [a, b] ∧ a.rank = 2 ∧ b.rank = 2
    ∧ descLocal a = true ∧ descLocal b = true ∧ dimN a.size 0 = k ∧ dimN b.size 0 = k ∧ dimN a.size 1 = m ∧ dimN b.size 1 = n ∧ m ≤ 64
    ∧ n ≤ 64 ∧ k ≤ 65536 ∧ pairBlock a b = some len ∧ k % len = 0 ∧ Reaches s h.core.idx [a, b]
    ∧ (if bitOf f.mode.toNat 0 then old = { isInt := isInt, elems := [], poison := [] } else old = tileOf (getCore s h.core.idx) f.acc.val ∧ old.isInt = isInt)) ∧
    (∃ s : State, ∃ h : PlayHdr, ∃ f : FmtT, ∃ d : Desc, Runs s h ∧ takeOperands (getCore s h.core.idx) [(f.dc.val, f.sc.val)] = .ok [d]
    ∧ tileShape d = true ∧ writable d = true ∧ ((tileOf (getCore s h.core.idx) f.acc.val).isInt = true → descElem d = .int32)
    ∧ ((tileOf (getCore s h.core.idx) f.acc.val).isInt = false → descElem d = .fp32 ∨ descElem d = .bf16 ∨ descElem d = .fp16)
    ∧ Reaches s h.core.idx [d]) ∧
    (∃ s : State, ∃ h : PlayHdr, ∃ f : FmtT, ∃ d : Desc, Runs s h ∧ takeOperands (getCore s h.core.idx) [(f.dc.val, f.sc.val)] = .ok [d]
    ∧ tileShape d = true ∧ descElem d = (if bitOf f.mode.toNat 0 then .int32 else .fp32) ∧ Reaches s h.core.idx [d]) ∧
    (∃ s : State, ∃ h : PlayHdr, ∃ f : FmtT, ∃ a : Desc, ∃ b : Desc, ∃ len : Nat, ∃ isInt : Bool, Runs s h
    ∧ takeOperands (getCore s h.core.idx) [(f.da.val, f.sa.val), (f.db.val, f.sb.val)] = .ok [a, b] ∧ a.rank = 2 ∧ b.rank = 2
    ∧ descLocal a = true ∧ descLocal b = true ∧ dimN b.size 0 = dimN a.size 0 ∧ dimN a.size 1 ≤ 64 ∧ dimN b.size 1 ≤ 64
    ∧ dimN a.size 0 ≤ 65536 ∧ pairKind (descElem a) (descElem b) = none) ∧
    (∃ s : State, ∃ h : PlayHdr, ∃ f : FmtT, ∃ a : Desc, ∃ b : Desc, ∃ len : Nat, ∃ isInt : Bool,
    pairKind (descElem a) (descElem b) = some isInt ∧ Runs s h
    ∧ takeOperands (getCore s h.core.idx) [(f.da.val, f.sa.val), (f.db.val, f.sb.val)] = .ok [a, b] ∧ a.rank = 2 ∧ b.rank = 2
    ∧ descLocal a = true ∧ descLocal b = true ∧ dimN b.size 0 = dimN a.size 0 ∧ dimN a.size 1 ≤ 64 ∧ dimN b.size 1 ≤ 64
    ∧ dimN a.size 0 ≤ 65536 ∧ pairBlock a b = some len ∧ dimN a.size 0 % len = 0 ∧ bitOf f.mode.toNat 0 = false
    ∧ (tileOf (getCore s h.core.idx) f.acc.val).isInt ≠ isInt) :=
  ⟨⟨run, hd, fT, by unfold Runs; decide +kernel⟩,
   ⟨dcore dA dB dT, hd, f012, at0 dA, at0 dB, 2, 3, 32, 32, _, Tile.zero, (Option.some_get (by decide +kernel)).symm,
    by unfold Runs Reaches; decide +kernel⟩,
   ⟨dcore dA dB dT, hd, f012, at0 dT, by unfold Runs Reaches; decide +kernel⟩,
   ⟨dcore dA dB dT, hd, f012, at0 dT, by unfold Runs Reaches; decide +kernel⟩,
   ⟨dcore dA dH dT, hd, f012, at0 dA, at0 dH, 32, false, by unfold Runs; decide +kernel⟩,
   ⟨withCore fun k => { k with descs := [(0, dA), (1, dB)], tiles := [(0, { Tile.zero with isInt := true })] }, hd, f01, at0 dA, at0 dB, 32,
    _, (Option.some_get (by decide +kernel)).symm, by unfold Runs; decide +kernel⟩⟩

theorem test_meets_ScratchWritesStayInExtents :
    (∃ s : State, ∃ n : Nat, ∃ b : BitVec 1024, ∃ off : Int, ∃ ds : List Desc, ∃ table : Nat, ∃ vals : List (Nat × Bool), ∃ o : Nat,
    (∀ e ∈ extents (moveDesc (parseDesc b) off), ∀ a : Int, e.2.1 ≤ a → a ≤ e.2.2 → (a.toNat - localBit) / 4 ≠ o / 4)
    ∧ (getCore s n).run = .running ∧ moveDesc (parseDesc b) off ∈ ds ∧ descLocal (moveDesc (parseDesc b) off) = true
    ∧ rangeFault s table ds = none) :=
  ⟨run, 0, dF, 0, [at0 dF], 0, [], 16, dF_extents, by decide +kernel⟩

theorem test_meets_ElementwisePlays :
    (∃ s : State, ∃ h : PlayHdr, ∃ f : FmtT, Runs s h) :=
  ⟨run, hd, fT, by unfold Runs; decide +kernel⟩

theorem test_meets_TranscendentalPlays :
    (∃ s : State, ∃ h : PlayHdr, ∃ f : FmtT, ∃ i : Instr, ∃ p : Trans,
    (i = .vexp2 h f ∧ p = .exp2 ∨ i = .vlog2 h f ∧ p = .log2 ∨ i = .vrcp h f ∧ p = .rcp ∨ i = .vrsqrt h f ∧ p = .rsqrt ∨ i = .vtanh h f ∧ p = .tanh ∨ i = .vsigm h f ∧ p = .sigm ∨ i = .vsilu h f ∧ p = .silu)
    ∧ Runs s h) :=
  ⟨run, hd, fT, .vexp2 hd fT, .exp2, .inl ⟨rfl, rfl⟩, by unfold Runs; decide +kernel⟩

theorem test_meets_ReductionPlays :
    (∃ s : State, ∃ h : PlayHdr, ∃ f : FmtT, ∃ a : Desc, ∃ c : Desc, ∃ rows, ∃ t,
    rows = rowsOf a (gather (coreView (getCore s h.core.idx) []) a)
    ∧ (t = commitWords s h.core.idx (scatter c (rows.flatMap fun r => (topIndices r f.imm.toNat).map fun i => (i, r.any (·.poison)))))
    ∧ Runs s h ∧ takeOperands (getCore s h.core.idx) [(f.da.val, f.sa.val), (f.dc.val, f.sc.val)] = .ok [a, c] ∧ plainFloat a = true
    ∧ descLocal a = true ∧ descLocal c = true ∧ writable c = true ∧ c.block = 0 ∧ descElem c = .int32 ∧ 1 ≤ f.imm.toNat ∧ f.imm.toNat ≤ 16
    ∧ f.imm.toNat ≤ dimN a.size 0 ∧ (bitOf f.mode.toNat 0 = true → dimN a.size 0 ≤ 64)
    ∧ elemCount c = elemCount a / dimN a.size 0 * f.imm.toNat ∧ Reaches s h.core.idx [a, c] ∧ bitOf f.mode.toNat 0 = false) ∧
    (∃ s : State, ∃ h : PlayHdr, ∃ f : FmtT, ∃ a : Desc, ∃ c : Desc, ∃ rows, ∃ t, ∃ r, ∃ rs,
    rows = rowsOf a (gather (coreView (getCore s h.core.idx) []) a)
    ∧ (t = commitWords s h.core.idx (scatter c (rows.flatMap fun r => (topIndices r f.imm.toNat).map fun i => (i, r.any (·.poison)))))
    ∧ Runs s h ∧ takeOperands (getCore s h.core.idx) [(f.da.val, f.sa.val), (f.dc.val, f.sc.val)] = .ok [a, c] ∧ plainFloat a = true
    ∧ descLocal a = true ∧ descLocal c = true ∧ writable c = true ∧ c.block = 0 ∧ descElem c = .int32 ∧ 1 ≤ f.imm.toNat ∧ f.imm.toNat ≤ 16
    ∧ f.imm.toNat ≤ dimN a.size 0 ∧ (bitOf f.mode.toNat 0 = true → dimN a.size 0 ≤ 64)
    ∧ elemCount c = elemCount a / dimN a.size 0 * f.imm.toNat ∧ Reaches s h.core.idx [a, c] ∧ rows = r :: rs
    ∧ bitOf f.mode.toNat 0 = true) ∧
    (∃ s : State, ∃ h : PlayHdr, ∃ f : FmtT, ∃ a : Desc, ∃ b : Desc, ∃ row, ∃ y,
    row = (gather (coreView (getCore s h.core.idx) []) a).take (dimN a.size 0)
    ∧ y = elemAt (gather (coreView (getCore s h.core.idx) []) b) 0 ∧ Runs s h
    ∧ takeOperands (getCore s h.core.idx) [(f.da.val, f.sa.val), (f.db.val, f.sb.val)] = .ok [a, b] ∧ plainFloat a = true
    ∧ plainFloat b = true ∧ descLocal a = true ∧ descLocal b = true ∧ Reaches s h.core.idx [a, b]) ∧
    (∃ s : State, ∃ h : PlayHdr, ∃ f : FmtT, ∃ c : Desc, Runs s h ∧ takeOperands (getCore s h.core.idx) [(f.dc.val, f.sc.val)] = .ok [c]
    ∧ descLocal c = true ∧ writable c = true ∧ c.block = 0 ∧ (descElem c = .int32 ∨ descElem c = .fp32) ∧ Reaches s h.core.idx [c]) ∧
    (∃ s : State, ∃ h : PlayHdr, ∃ f : FmtT, ∃ a : Desc, ∃ b : Desc, ∃ c : Desc, Runs s h
    ∧ takeOperands (getCore s h.core.idx) [(f.da.val, f.sa.val), (f.db.val, f.sb.val), (f.dc.val, f.sc.val)] = .ok [a, b, c]
    ∧ plainFloat a = true ∧ plainFloat b = true ∧ c.block ≠ 0 ∧ c.sl = false ∧ descLocal a = true ∧ descLocal b = true
    ∧ descLocal c = true ∧ fitsSpace c a = true ∧ fitsSpace c b = true ∧ writable c = true ∧ Reaches s h.core.idx [a, b, c]) :=
  ⟨⟨dcore dF dI2 dG, hd, { f1 with imm := 2 }, at0 dF, at0 dI2, _, _, rfl, rfl, by unfold Runs Reaches; decide +kernel⟩,
   ⟨dcore dF dI2 dG, hd, { f1 with imm := 2, mode := 1 }, at0 dF, at0 dI2, _, _,
    (rowsOf (at0 dF) (gather (coreView (getCore (dcore dF dI2 dG) 0) []) (at0 dF))).headD [],
    (rowsOf (at0 dF) (gather (coreView (getCore (dcore dF dI2 dG) 0) []) (at0 dF))).tail, rfl, rfl,
    by unfold Runs Reaches; decide +kernel⟩,
   ⟨dcore dF dV dG, hd, f01, at0 dF, at0 dV, _, _, rfl, rfl, by unfold Runs Reaches; decide +kernel⟩,
   ⟨dcore dF dI2 dG, hd, f1, at0 dI2, by unfold Runs Reaches; decide +kernel⟩,
   ⟨dcore dQ dQ dM, hd, f012, at0 dQ, at0 dQ, at0 dM, by unfold Runs Reaches; decide +kernel⟩⟩

theorem test_meets_CopyFillReduce :
    (∃ s : State, ∃ s1 : State, ∃ t : State, ∃ h : PlayHdr, ∃ f : FmtT, ∃ a : Desc, ∃ c : Desc, ∃ snap : List (Nat × CLine),
    fetchLines s h.core.idx (bitOf f.mode.toNat 5) (deviceLines [a]) = (s1, some snap)
    ∧ writeWords s1 h.core.idx (scatterScaled c (gather (coreView (getCore s1 h.core.idx) snap) a)) = (t, true) ∧ Runs s h
    ∧ takeOperands (getCore s h.core.idx) [(f.da.val, f.sa.val), (f.dc.val, f.sc.val)] = .ok [a, c] ∧ copyable a c = true
    ∧ writable c = true ∧ Reaches s h.core.idx [a, c] ∧ copyClash a c false = false) ∧
    (∃ s : State, ∃ t : State, ∃ h : PlayHdr, ∃ f : FmtT, ∃ c : Desc,
    writeWords s h.core.idx (scatter c (List.replicate (elemCount c) (f.imm.toNat % 2 ^ (descElem c).bits, false))) = (t, true) ∧ Runs s h
    ∧ takeOperands (getCore s h.core.idx) [(f.dc.val, f.sc.val)] = .ok [c] ∧ writable c = true ∧ Reaches s h.core.idx [c]) ∧
    (∃ s : State, ∃ s1 : State, ∃ t : State, ∃ h : PlayHdr, ∃ f : FmtT, ∃ a : Desc, ∃ c : Desc, ∃ op : Nat, ∃ snap : List (Nat × CLine),
    fetchLines s h.core.idx (bitOf f.mode.toNat 5) (deviceLines [a]) = (s1, some snap)
    ∧ ensureLines (linesRoom s1 (deviceLines [c])) h.core.idx [] (deviceLines [c]) = (t, true) ∧ Runs s h
    ∧ takeOperands (getCore s h.core.idx) [(f.da.val, f.sa.val), (f.dc.val, f.sc.val)] = .ok [a, c]
    ∧ (descElem c = .int32 ∧ op = 0 ∨ descElem c = .fp32 ∧ op = 2 ∨ descElem c = .bf16 ∧ op = 3) ∧ copyable a c = true ∧ c.block = 0
    ∧ writable c = true ∧ descLocal c = false ∧ Reaches s h.core.idx [a, c] ∧ copyClash a c true = false) ∧
    (∃ s : State, ∃ h : PlayHdr, ∃ f : FmtT, ∃ a : Desc, ∃ c : Desc, Runs s h
    ∧ takeOperands (getCore s h.core.idx) [(f.da.val, f.sa.val), (f.dc.val, f.sc.val)] = .ok [a, c] ∧ copyable a c = true
    ∧ writable c = true ∧ Reaches s h.core.idx [a, c] ∧ copyClash a c false = true) ∧
    (∃ s : State, ∃ h : PlayHdr, ∃ f : FmtT, ∃ a : Desc, ∃ c : Desc, Runs s h
    ∧ takeOperands (getCore s h.core.idx) [(f.da.val, f.sa.val), (f.dc.val, f.sc.val)] = .ok [a, c] ∧ copyable a c = true
    ∧ writable c = true ∧ Reaches s h.core.idx [a, c] ∧ copyClash a c true = true ∧ c.block = 0 ∧ (redOp (descElem c)).isSome = true
    ∧ descLocal c = false) :=
  ⟨⟨(dcore dF dG dG), _, _, hd, f1, at0 dF, at0 dG, _, fst_some (by decide +kernel), fst_eq (by decide +kernel),
    by unfold Runs Reaches; decide +kernel⟩,
   ⟨(dcore dF dG dG), _, hd, f1, at0 dG, fst_eq (by decide +kernel), by unfold Runs Reaches; decide +kernel⟩,
   ⟨{ dcore dE dD dG with kitty := [(0x40, some kl)] }, _, _, hd, f1, at0 dE, at0 dD, 0, _, fst_some (by decide +kernel),
    fst_eq (by decide +kernel), by unfold Runs Reaches; decide +kernel⟩,
   ⟨dcore dX dY dG, hd, f1, at0 dX, at0 dY, by unfold Runs Reaches; decide +kernel⟩,
   ⟨dcore dD dD dG, hd, f1, at0 dD, at0 dD, by unfold Runs Reaches; decide +kernel⟩⟩

theorem test_meets_WordPlays :
    (∃ s : State, ∃ h : PlayHdr, ∃ f : FmtT, ∃ o : Nat, Runs s h ∧ sregBad (getCore s h.core.idx) f.sa.val = false
    ∧ (sreg (getCore s h.core.idx) f.sa.val + f.imm.signExtend 64).toNat = localBit + o ∧ o % 8 = 0 ∧ o + 8 ≤ 0x30000
    ∧ doutMeets s h.core.idx [(0, ((localBit + o : Nat) : Int), ((localBit + o : Nat) : Int) + ((8 : Nat) : Int) - 1)] = none) ∧
    (∃ s : State, ∃ h : PlayHdr, ∃ f : FmtT, ∃ a : Nat, ∃ op : Nat, Runs s h ∧ sregBad (getCore s h.core.idx) f.sa.val = false
    ∧ (sreg (getCore s h.core.idx) f.sa.val + f.imm.signExtend 64).toNat = a ∧ fieldOf f.mode.toNat 6 3 = op ∧ op < 7
    ∧ ReachesAddr s h.core.idx a (atomBytes op) (atomBytes op) true ∧ (kittyGet s (a / 64)).isSome = true ∧ kittyOn s (a / 64) = true
    ∧ hostHolds s (lineDpa (a / 64)) = none) ∧
    (∃ s : State, ∃ h : PlayHdr, ∃ f : FmtT, ∃ e : Ev, ∃ a : W64, a = sreg (getCore s h.core.idx) f.sa.val + f.imm.signExtend 64 ∧ Runs s h
    ∧ sregBad (getCore s h.core.idx) f.sa.val = false ∧ addressFault s h.core.idx a.toNat 8 8 false = some e) ∧
    (∃ s : State, ∃ h : PlayHdr, ∃ f : FmtT, ∃ a : W64, ∃ t : Nat, a = sreg (getCore s h.core.idx) f.sa.val + f.imm.signExtend 64
    ∧ doutMeets s h.core.idx [(0, (a.toNat : Int), (a.toNat : Int) + ((8 : Nat) : Int) - 1)] = some t ∧ Runs s h
    ∧ sregBad (getCore s h.core.idx) f.sa.val = false ∧ addressFault s h.core.idx a.toNat 8 8 false = none) :=
  ⟨⟨withCore fun c => { c with sregs := [(4, BitVec.ofNat 64 localBit)] }, hd, { fT with sa := 4 }, 0, by unfold Runs; decide +kernel⟩,
   ⟨{ (withCore fun c => { c with sregs := [(4, BitVec.ofNat 64 0x1000)] }) with kitty := [(0x40, some { data := 0, poison := 0, dirty := false })] },
    hd, { fT with sa := 4 }, 0x1000, 0, by unfold Runs ReachesAddr; decide +kernel⟩,
   ⟨withCore fun c => { c with sregs := [(4, BitVec.ofNat 64 3)] }, hd, { fT with sa := 4 }, evTnsAlign, _, rfl,
    by unfold Runs; decide +kernel⟩,
   ⟨{ (withCore fun c => { c with sregs := [(4, BitVec.ofNat 64 localBit)], descs := [(0, dF)], tickets := [(0, .busy 0 0)] }) with stackMap := [(0, { Stack.empty with runs := [{ core := 0, ticket := 0, gen := 0, card := sc, rowAdd := 0, dout := 0, doutDesc := dF, opIdx := 1, active := false, banks := [], cursor := 0, results := [], abort := false, faulted := false }] })] },
    hd, { fT with sa := 4 }, _, _, rfl, (Option.some_get (by decide +kernel)).symm, by unfold Runs; decide +kernel⟩⟩

theorem test_meets_DescriptorPlays :
    (∃ s : State, ∃ s1 : State, ∃ h : PlayHdr, ∃ f : FmtT, ∃ bs : List (Byte × Bool), ∃ d : BitVec 1024,
    d = BitVec.ofNat 1024 (leNat (bs.map (·.1))) ∧ Runs s h ∧ sregBad (getCore s h.core.idx) f.sa.val = false
    ∧ ReachesAddr s h.core.idx (sreg (getCore s h.core.idx) f.sa.val + f.imm.signExtend 64).toNat 128 1 false
    ∧ coreRead s h.core.idx (sreg (getCore s h.core.idx) f.sa.val + f.imm.signExtend 64).toNat 128 true = (s1, some bs)
    ∧ bs.any (·.2) = false ∧ descValid (parseDesc d) = true) ∧
    (∃ s : State, ∃ s1 : State, ∃ h : PlayHdr, ∃ f : FmtT, ∃ bs : List (Byte × Bool), ∃ d : BitVec 1024,
    d = BitVec.ofNat 1024 (leNat (bs.map (·.1))) ∧ Runs s h ∧ sregBad (getCore s h.core.idx) f.sa.val = false
    ∧ ReachesAddr s h.core.idx (sreg (getCore s h.core.idx) f.sa.val + f.imm.signExtend 64).toNat 128 1 false
    ∧ coreRead s h.core.idx (sreg (getCore s h.core.idx) f.sa.val + f.imm.signExtend 64).toNat 128 true = (s1, some bs)
    ∧ bs.any (·.2) = false ∧ descValid (parseDesc d) = false) ∧
    (∃ s : State, ∃ h : PlayHdr, ∃ f : FmtT, ∃ a : Nat, ∃ d : BitVec 1024,
    a = (sreg (getCore s h.core.idx) f.sa.val + f.imm.signExtend 64).toNat ∧ d = withBase (sget 0 (getCore s h.core.idx).descs f.dc.val) a
    ∧ Runs s h ∧ sregBad (getCore s h.core.idx) f.sa.val = false ∧ a < 2 ^ 48 ∧ descValid (parseDesc d) = true) ∧
    (∃ s : State, ∃ h : PlayHdr, ∃ f : FmtT, ∃ a : Nat, ∃ d : BitVec 1024,
    a = (sreg (getCore s h.core.idx) f.sa.val + f.imm.signExtend 64).toNat ∧ d = withBase (sget 0 (getCore s h.core.idx).descs f.dc.val) a
    ∧ Runs s h ∧ sregBad (getCore s h.core.idx) f.sa.val = false ∧ (2 ^ 48 ≤ a ∨ descValid (parseDesc d) = false)) :=
  ⟨⟨withCore fun c => { c with sregs := [(4, BitVec.ofNat 64 localBit)], scratch := wrBytes [] 0 (leBytes 128 dF.toNat) },
    withCore fun c => { c with sregs := [(4, BitVec.ofNat 64 localBit)], scratch := wrBytes [] 0 (leBytes 128 dF.toNat) }, hd,
    { fT with sa := 4 }, (leBytes 128 dF.toNat).map (·, false), _, rfl, by unfold Runs ReachesAddr; decide +kernel⟩,
   ⟨withCore fun c => { c with sregs := [(4, BitVec.ofNat 64 localBit)] },
    withCore fun c => { c with sregs := [(4, BitVec.ofNat 64 localBit)] }, hd, { fT with sa := 4 }, List.replicate 128 (0, false), _, rfl,
    by unfold Runs ReachesAddr; decide +kernel⟩,
   ⟨withCore fun c => { c with sregs := [(4, BitVec.ofNat 64 (localBit + 128))], descs := [(0, dF)] }, hd, { fT with sa := 4 }, _, _, rfl,
    rfl, by unfold Runs; decide +kernel⟩,
   ⟨withCore fun c => { c with sregs := [(4, BitVec.ofNat 64 (2 ^ 48))], descs := [(0, dF)] }, hd, { fT with sa := 4 }, _, _, rfl, rfl,
    by unfold Runs; decide +kernel⟩⟩

theorem test_meets_PushPlay :
    (∃ s : State, ∃ h : PlayHdr, ∃ f : FmtT, ∃ a : Desc, ∃ c : Desc, ∃ e : StreamEntry, ∃ k : Stream, ∃ units : Nat,
    units = ceilDiv (extentBytes c) (2 ^ e.unitLog2) ∧ Runs s h
    ∧ takeOperands (getCore s h.core.idx) [(f.da.val, f.sa.val), (f.dc.val, f.sc.val)] = .ok [a, c] ∧ descLocal a = true
    ∧ descLocal c = true ∧ copyable a c = true ∧ writable c = true ∧ Reaches s h.core.idx [a, c]
    ∧ streamEntry s (f.imm.toNat % 2 ^ 14) = some e ∧ getStream s (f.imm.toNat % 2 ^ 14) = k ∧ k.stopped = true) ∧
    (∃ s : State, ∃ h : PlayHdr, ∃ f : FmtT, ∃ a : Desc, ∃ c : Desc, ∃ e : StreamEntry, ∃ k : Stream, ∃ units : Nat,
    units = ceilDiv (extentBytes c) (2 ^ e.unitLog2) ∧ Runs s h
    ∧ takeOperands (getCore s h.core.idx) [(f.da.val, f.sa.val), (f.dc.val, f.sc.val)] = .ok [a, c] ∧ descLocal a = true
    ∧ descLocal c = true ∧ copyable a c = true ∧ writable c = true ∧ Reaches s h.core.idx [a, c]
    ∧ streamEntry s (f.imm.toNat % 2 ^ 14) = some e ∧ getStream s (f.imm.toNat % 2 ^ 14) = k ∧ k.stopped = false ∧ k.taken < units) ∧
    (∃ s : State, ∃ h : PlayHdr, ∃ f : FmtT, ∃ a : Desc, ∃ c : Desc, ∃ e : StreamEntry, ∃ k : Stream, ∃ units : Nat, ∃ bytes, ∃ s1,
    units = ceilDiv (extentBytes c) (2 ^ e.unitLog2) ∧ bytes = pushBytes (scatterScaled c (gather (coreView (getCore s h.core.idx) []) a))
    ∧ (s1 = modCore (setStream s (f.imm.toNat % 2 ^ 14) { k with taken := k.taken - units, ptally := k.ptally + BitVec.ofNat 32 units }) h.core.idx (fun c => { c with unperformed := c.unperformed + 1 }))
    ∧ Runs s h ∧ takeOperands (getCore s h.core.idx) [(f.da.val, f.sa.val), (f.dc.val, f.sc.val)] = .ok [a, c] ∧ descLocal a = true
    ∧ descLocal c = true ∧ copyable a c = true ∧ writable c = true ∧ Reaches s h.core.idx [a, c]
    ∧ streamEntry s (f.imm.toNat % 2 ^ 14) = some e ∧ getStream s (f.imm.toNat % 2 ^ 14) = k ∧ k.stopped = false ∧ units ≤ k.taken
    ∧ e.kind = 0) ∧
    (∃ s : State, ∃ h : PlayHdr, ∃ f : FmtT, ∃ a : Desc, ∃ c : Desc, ∃ e : StreamEntry, ∃ k : Stream, ∃ units : Nat, ∃ bytes, ∃ s1,
    units = ceilDiv (extentBytes c) (2 ^ e.unitLog2) ∧ bytes = pushBytes (scatterScaled c (gather (coreView (getCore s h.core.idx) []) a))
    ∧ (s1 = modCore (setStream s (f.imm.toNat % 2 ^ 14) { k with taken := k.taken - units, ptally := k.ptally + BitVec.ofNat 32 units }) h.core.idx (fun c => { c with unperformed := c.unperformed + 1 }))
    ∧ Runs s h ∧ takeOperands (getCore s h.core.idx) [(f.da.val, f.sa.val), (f.dc.val, f.sc.val)] = .ok [a, c] ∧ descLocal a = true
    ∧ descLocal c = true ∧ copyable a c = true ∧ writable c = true ∧ Reaches s h.core.idx [a, c]
    ∧ streamEntry s (f.imm.toNat % 2 ^ 14) = some e ∧ getStream s (f.imm.toNat % 2 ^ 14) = k ∧ k.stopped = false ∧ units ≤ k.taken
    ∧ e.kind ≠ 0) :=
  ⟨⟨{ dcore dF dG dG with streams := [(0, { strm with stopped := true })] }, hd, { f1 with imm := 0 }, at0 dF, at0 dG, st0,
    { strm with stopped := true }, _, rfl, by unfold Runs Reaches; decide +kernel⟩,
   ⟨{ dcore dF dG dG with streams := [(0, { strm with taken := 0 })] }, hd, { f1 with imm := 0 }, at0 dF, at0 dG, st0,
    { strm with taken := 0 }, _, rfl, by unfold Runs Reaches; decide +kernel⟩,
   ⟨{ dcore dF dG dG with streams := [(0, strm)] }, hd, { f1 with imm := 0 }, at0 dF, at0 dG, st0, strm, _, _, _, rfl, rfl, rfl,
    by unfold Runs Reaches; decide +kernel⟩,
   ⟨{ dcore dF dG dG with streams := [(1, strm)] }, hd, { f1 with imm := 1 }, at0 dF, at0 dG, st1, strm, _, _, _, rfl, rfl, rfl,
    by unfold Runs Reaches; decide +kernel⟩⟩

theorem test_meets_TrickPlays :
    (∃ s : State, ∃ h : PlayHdr, ∃ f : FmtY, ∃ e : TrickEntry, Runs s h ∧ trickEntry s f.id.toNat = some e ∧ isMember e h.core.idx = true
    ∧ (getCore s h.core.idx).unperformed ≠ 0) ∧
    (∃ s : State, ∃ h : PlayHdr, ∃ f : FmtY, ∃ e : TrickEntry, Runs s h ∧ trickEntry s f.id.toNat = some e ∧ isMember e h.core.idx = true
    ∧ (getCore s h.core.idx).unperformed = 0
    ∧ sget none (getCore s h.core.idx).members f.id.toNat = some (knownEpoch s f.id.toNat (h.core.idx / 64))) ∧
    (∃ s : State, ∃ h : PlayHdr, ∃ f : FmtY, ∃ e : TrickEntry, Runs s h ∧ trickEntry s f.id.toNat = some e ∧ isMember e h.core.idx = true
    ∧ (getCore s h.core.idx).unperformed = 0
    ∧ sget none (getCore s h.core.idx).members f.id.toNat ≠ some (knownEpoch s f.id.toNat (h.core.idx / 64))
    ∧ (getCore s h.core.idx).tpwPlayed = false) ∧
    (∃ s : State, ∃ h : PlayHdr, ∃ f : FmtY, ∃ i : Instr, (i = .twait h f ∨ i = .tpw h f ∧ (getCore s h.core.idx).tpwPlayed = true) ∧ Runs s h
    ∧ sget none (getCore s h.core.idx).members f.id.toNat = none) ∧
    (∃ s : State, ∃ h : PlayHdr, ∃ f : FmtY, ∃ i : Instr, ∃ r, (i = .twait h f ∨ i = .tpw h f ∧ (getCore s h.core.idx).tpwPlayed = true)
    ∧ Runs s h ∧ sget none (getCore s h.core.idx).members f.id.toNat = some r ∧ r = knownEpoch s f.id.toNat (h.core.idx / 64)) ∧
    (∃ s : State, ∃ h : PlayHdr, ∃ f : FmtY, ∃ i : Instr, ∃ r, (i = .twait h f ∨ i = .tpw h f ∧ (getCore s h.core.idx).tpwPlayed = true)
    ∧ Runs s h ∧ sget none (getCore s h.core.idx).members f.id.toNat = some r ∧ r ≠ knownEpoch s f.id.toNat (h.core.idx / 64)) ∧
    (∃ s : State, ∃ e : TrickEntry, ∃ n : Nat, n / 64 ≠ homeOf e) ∧
    (∃ s : State, ∃ e : TrickEntry, ∃ n : Nat, n / 64 = homeOf e ∧ (deckOf s).isSome = true ∧ trickEntry s e.trick = some e
    ∧ (getTrick s e.trick).arrived + 1 ≠ (getTrick s e.trick).expected) :=
  ⟨⟨withCore fun c => { c with unperformed := 1 }, hd, fY, tr0, by unfold Runs; decide +kernel⟩,
   ⟨withCore fun c => { c with members := [(0, some 0)] }, hd, fY, tr0, by unfold Runs; decide +kernel⟩,
   ⟨run, hd, fY, tr0, by unfold Runs; decide +kernel⟩,
   ⟨run, hd, fY, .twait hd fY, .inl rfl, by unfold Runs; decide +kernel⟩,
   ⟨withCore fun c => { c with members := [(0, some 0)] }, hd, fY, .twait hd fY, 0, .inl rfl, by unfold Runs; decide +kernel⟩,
   ⟨withCore fun c => { c with members := [(0, some 1)] }, hd, fY, .twait hd fY, 1, .inl rfl, by unfold Runs; decide +kernel⟩,
   ⟨run, tr0, 64, by decide +kernel⟩,
   ⟨{ run with tricks := [(0, { Trick.empty with expected := 2, valid := true })] }, tr0, 0, by decide +kernel⟩⟩

theorem test_meets_CreditPlays :
    (∃ s : State, ∃ h : PlayHdr, ∃ f : FmtY, ∃ e : StreamEntry, ∃ r : Stream, ∃ prod : Bool, Runs s h ∧ streamEntry s f.id.toNat = some e
    ∧ streamEnd s e h.core.idx = some prod ∧ getStream s f.id.toNat = r ∧ r.stopped = true) ∧
    (∃ s : State, ∃ h : PlayHdr, ∃ f : FmtY, ∃ e : StreamEntry, ∃ r : Stream, ∃ prod : Bool, Runs s h ∧ streamEntry s f.id.toNat = some e
    ∧ streamEnd s e h.core.idx = some prod ∧ getStream s f.id.toNat = r ∧ r.stopped = false ∧ prod = true ∧ f.count.toNat ≤ r.avail) ∧
    (∃ s : State, ∃ h : PlayHdr, ∃ f : FmtY, ∃ e : StreamEntry, ∃ r : Stream, ∃ prod : Bool, Runs s h ∧ streamEntry s f.id.toNat = some e
    ∧ streamEnd s e h.core.idx = some prod ∧ getStream s f.id.toNat = r ∧ r.stopped = false ∧ prod = false ∧ f.count.toNat ≤ r.delivered) ∧
    (∃ s : State, ∃ h : PlayHdr, ∃ f : FmtY, ∃ e : StreamEntry, ∃ r : Stream, ∃ prod : Bool, Runs s h ∧ streamEntry s f.id.toNat = some e
    ∧ streamEnd s e h.core.idx = some prod ∧ getStream s f.id.toNat = r ∧ r.stopped = false
    ∧ (prod = true ∧ r.avail < f.count.toNat ∨ prod = false ∧ r.delivered < f.count.toNat)) ∧
    (∃ s : State, ∃ h : PlayHdr, ∃ f : FmtY, ∃ e : StreamEntry, ∃ r : Stream, Runs s h ∧ streamEntry s f.id.toNat = some e
    ∧ getStream s f.id.toNat = r ∧ r.consValid = true ∧ coreOfField e.consumer = h.core.idx ∧ r.stopped = true) ∧
    (∃ s : State, ∃ h : PlayHdr, ∃ f : FmtY, ∃ e : StreamEntry, ∃ r : Stream, Runs s h ∧ streamEntry s f.id.toNat = some e
    ∧ getStream s f.id.toNat = r ∧ r.consValid = true ∧ coreOfField e.consumer = h.core.idx ∧ r.stopped = false ∧ r.held < f.count.toNat) ∧
    (∃ s : State, ∃ h : PlayHdr, ∃ f : FmtY, ∃ e : StreamEntry, ∃ r : Stream, Runs s h ∧ streamEntry s f.id.toNat = some e
    ∧ getStream s f.id.toNat = r ∧ r.consValid = true ∧ coreOfField e.consumer = h.core.idx ∧ r.stopped = false ∧ f.count.toNat ≤ r.held
    ∧ e.kind = 0) ∧
    (∃ s : State, ∃ h : PlayHdr, ∃ f : FmtY, ∃ e : StreamEntry, ∃ r : Stream, Runs s h ∧ streamEntry s f.id.toNat = some e
    ∧ getStream s f.id.toNat = r ∧ r.consValid = true ∧ coreOfField e.consumer = h.core.idx ∧ r.stopped = false ∧ f.count.toNat ≤ r.held
    ∧ e.kind ≠ 0) :=
  ⟨⟨{ run with streams := [(0, { strm with stopped := true })], cores := [(0, { Core.empty with run := .running }), (1, { Core.empty with run := .running })] },
    hd, { fY with id := 0 }, st0, { strm with stopped := true }, true, by unfold Runs; decide +kernel⟩,
   ⟨{ run with streams := [(0, strm)], cores := [(0, { Core.empty with run := .running }), (1, { Core.empty with run := .running })] }, hd,
    { fY with id := 0 }, st0, strm, true, by unfold Runs; decide +kernel⟩,
   ⟨{ run with streams := [(0, strm)], cores := [(0, { Core.empty with run := .running }), (1, { Core.empty with run := .running })] },
    { hd with core := ⟨0, 1⟩ }, { fY with id := 0 }, st0, strm, false, by unfold Runs; decide +kernel⟩,
   ⟨{ run with streams := [(0, { strm with delivered := 0 })], cores := [(0, { Core.empty with run := .running }), (1, { Core.empty with run := .running })] },
    { hd with core := ⟨0, 1⟩ }, { fY with id := 0 }, st0, { strm with delivered := 0 }, false, by unfold Runs; decide +kernel⟩,
   ⟨{ run with streams := [(0, { strm with stopped := true })], cores := [(0, { Core.empty with run := .running }), (1, { Core.empty with run := .running })] },
    { hd with core := ⟨0, 1⟩ }, { fY with id := 0 }, st0, { strm with stopped := true }, by unfold Runs; decide +kernel⟩,
   ⟨{ run with streams := [(0, { strm with held := 0 })], cores := [(0, { Core.empty with run := .running }), (1, { Core.empty with run := .running })] },
    { hd with core := ⟨0, 1⟩ }, { fY with id := 0 }, st0, { strm with held := 0 }, by unfold Runs; decide +kernel⟩,
   ⟨{ run with streams := [(0, strm)], cores := [(0, { Core.empty with run := .running }), (1, { Core.empty with run := .running })] },
    { hd with core := ⟨0, 1⟩ }, { fY with id := 0 }, st0, strm, by unfold Runs; decide +kernel⟩,
   ⟨{ run with streams := [(2, strm)], cores := [(0, { Core.empty with run := .running }), (1, { Core.empty with run := .running })] },
    { hd with core := ⟨0, 1⟩ }, { fY with id := 2 }, st2, strm, by unfold Runs; decide +kernel⟩⟩

theorem test_meets_SyncWordPlays :
    (∃ s : State, ∃ s1 : State, ∃ h : PlayHdr, ∃ f : FmtY, ∃ a : Nat, ∃ bs : List (Byte × Bool), Runs s h
    ∧ sregBad (getCore s h.core.idx) f.sa.val = false ∧ (sreg (getCore s h.core.idx) f.sa.val).toNat = a
    ∧ ReachesAddr s h.core.idx a 8 8 false ∧ coreRead s h.core.idx a 8 true = (s1, some bs) ∧ bs.any (·.2) = true) ∧
    (∃ s : State, ∃ s1 : State, ∃ h : PlayHdr, ∃ f : FmtY, ∃ a : Nat, ∃ bs : List (Byte × Bool), ∃ v, ∃ ok, v = leNat (bs.map (·.1))
    ∧ Runs s h ∧ sregBad (getCore s h.core.idx) f.sa.val = false ∧ (sreg (getCore s h.core.idx) f.sa.val).toNat = a
    ∧ ReachesAddr s h.core.idx a 8 8 false ∧ coreRead s h.core.idx a 8 true = (s1, some bs) ∧ bs.any (·.2) = false
    ∧ (f.cmp = 0 ∧ ok = decide (v = f.imm.toNat) ∨ f.cmp = 1 ∧ ok = decide (v ≠ f.imm.toNat) ∨ f.cmp = 2 ∧ ok = decide (f.imm.toNat ≤ v) ∨ f.cmp = 3 ∧ ok = decide (v < f.imm.toNat))) ∧
    (∃ s : State, ∃ t : State, ∃ h : PlayHdr, ∃ f : FmtY, ∃ a : Nat, Runs s h ∧ sregBad (getCore s h.core.idx) f.sa.val = false
    ∧ (sreg (getCore s h.core.idx) f.sa.val).toNat = a ∧ ReachesAddr s h.core.idx a 8 8 false ∧ (getCore s h.core.idx).unperformed ≠ 0) ∧
    (∃ s : State, ∃ t : State, ∃ h : PlayHdr, ∃ f : FmtY, ∃ a : Nat,
    writeWords s h.core.idx (store8 a (sreg (getCore s h.core.idx) f.sd.val) (sregPoison (getCore s h.core.idx) f.sd.val)) = (t, true)
    ∧ Runs s h ∧ sregBad (getCore s h.core.idx) f.sa.val = false ∧ (sreg (getCore s h.core.idx) f.sa.val).toNat = a
    ∧ ReachesAddr s h.core.idx a 8 8 false ∧ (getCore s h.core.idx).unperformed = 0) ∧
    (∃ s : State, ∃ h : PlayHdr, ∃ f : FmtY, Runs s h ∧ f.inv = true) ∧
    (∃ s : State, ∃ h : PlayHdr, ∃ f : FmtY, ∃ d, Runs s h ∧ f.inv = false ∧ takeOperands (getCore s h.core.idx) [(f.da.val, 0)] = .ok [d]
    ∧ Reaches s h.core.idx [d]) :=
  ⟨⟨withCore fun c => { c with sregs := [(4, BitVec.ofNat 64 localBit)], scratchPoison := [(0, true)] },
    withCore fun c => { c with sregs := [(4, BitVec.ofNat 64 localBit)], scratchPoison := [(0, true)] }, hd, { fY with sa := 4 },
    localBit, (List.replicate 4 (0, true)) ++ List.replicate 4 (0, false), by unfold Runs ReachesAddr; decide +kernel⟩,
   ⟨withCore fun c => { c with sregs := [(4, BitVec.ofNat 64 localBit)] },
    withCore fun c => { c with sregs := [(4, BitVec.ofNat 64 localBit)] }, hd, { fY with sa := 4 }, localBit, List.replicate 8 (0, false),
    _, true, rfl, by unfold Runs ReachesAddr; decide +kernel⟩,
   ⟨withCore fun c => { c with sregs := [(4, BitVec.ofNat 64 localBit)], unperformed := 1 }, run, hd, { fY with sa := 4 }, localBit,
    by unfold Runs ReachesAddr; decide +kernel⟩,
   ⟨withCore fun c => { c with sregs := [(4, BitVec.ofNat 64 localBit)] },
    (writeWords (withCore fun c => { c with sregs := [(4, BitVec.ofNat 64 localBit)] }) 0 (store8 localBit 0 0)).1, hd,
    { fY with sa := 4 }, localBit, Prod.ext rfl (by decide +kernel), by unfold Runs ReachesAddr; decide +kernel⟩,
   ⟨run, hd, { fY with inv := true }, by unfold Runs; decide +kernel⟩,
   ⟨dcore dF dG dG, hd, fY, at0 dF, by unfold Runs Reaches; decide +kernel⟩⟩

theorem test_meets_BankPlays :
    (∃ s : State, ∃ h : PlayHdr, ∃ f : FmtB, ∃ p : Script, ∃ d : Desc, ∃ g : ScriptOp, ∃ par : W64, ∃ k : Nat,
    k = elemCount d + (if d.block = 0 then 0 else elemCount d / 32) ∧ Runs s h ∧ playScript s h.core.idx f = some p
    ∧ takeOperands (getCore s h.core.idx) [(f.din.val, 0)] = .ok [d] ∧ sregBad (getCore s h.core.idx) f.sp.val = false
    ∧ sreg (getCore s h.core.idx) f.sp.val = par ∧ groupOf p (parGroup par) = some g ∧ elemCount d = chunkOf g * (opSlots g).length
    ∧ latchOperand d = true ∧ Reaches s h.core.idx [d] ∧ parClean par = false) ∧
    (∃ s : State, ∃ h : PlayHdr, ∃ f : FmtB, ∃ p : Script, ∃ d : Desc, ∃ g : ScriptOp, ∃ par : W64, ∃ k : Nat,
    k = elemCount d + (if d.block = 0 then 0 else elemCount d / 32) ∧ Runs s h ∧ playScript s h.core.idx f = some p
    ∧ takeOperands (getCore s h.core.idx) [(f.din.val, 0)] = .ok [d] ∧ sregBad (getCore s h.core.idx) f.sp.val = false
    ∧ sreg (getCore s h.core.idx) f.sp.val = par ∧ groupOf p (parGroup par) = some g ∧ elemCount d = chunkOf g * (opSlots g).length
    ∧ latchOperand d = true ∧ Reaches s h.core.idx [d] ∧ parClean par = true ∧ halfUp s (scriptStack s p) = false) ∧
    (∃ s : State, ∃ h : PlayHdr, ∃ f : FmtB, ∃ p : Script, ∃ d : Desc, ∃ g : ScriptOp, ∃ par : W64, ∃ k : Nat, ∃ fs, ∃ s1,
    k = elemCount d + (if d.block = 0 then 0 else elemCount d / 32)
    ∧ fs = latchChunks s h.core.idx (scriptStack s p) f.latch.val p par g d (gather (coreView (getCore s h.core.idx) []) d)
    ∧ s1 = coreCharge s h.core.idx p.table (scriptStack s p) k ∧ Runs s h ∧ playScript s h.core.idx f = some p
    ∧ takeOperands (getCore s h.core.idx) [(f.din.val, 0)] = .ok [d] ∧ sregBad (getCore s h.core.idx) f.sp.val = false
    ∧ sreg (getCore s h.core.idx) f.sp.val = par ∧ groupOf p (parGroup par) = some g ∧ elemCount d = chunkOf g * (opSlots g).length
    ∧ latchOperand d = true ∧ Reaches s h.core.idx [d] ∧ parClean par = true ∧ halfUp s (scriptStack s p) = true
    ∧ coreMayCharge s h.core.idx p.table (scriptStack s p) k = true) ∧
    (∃ s : State, ∃ h : PlayHdr, ∃ f : FmtB, ∃ p : Script,
    (∃ d, takeOperands (getCore s h.core.idx) [(f.dout.val, 0)] = .ok [d] ∧ doutFits p d = true ∧ Reaches s h.core.idx [d]) ∧ Runs s h
    ∧ playScript s h.core.idx f = some p ∧ sregBad (getCore s h.core.idx) f.sp.val = false
    ∧ sget Ticket.free (getCore s h.core.idx).tickets f.ticket.val = .free ∧ (getCore s h.core.idx).unperformed ≠ 0) ∧
    (∃ s : State, ∃ h : PlayHdr, ∃ f : FmtB, ∃ p : Script,
    (∃ d, takeOperands (getCore s h.core.idx) [(f.dout.val, 0)] = .ok [d] ∧ doutFits p d = true ∧ Reaches s h.core.idx [d]) ∧ Runs s h
    ∧ playScript s h.core.idx f = some p ∧ sregBad (getCore s h.core.idx) f.sp.val = false
    ∧ sget Ticket.free (getCore s h.core.idx).tickets f.ticket.val = .free ∧ (getCore s h.core.idx).unperformed = 0) ∧
    (∃ s : State, ∃ h : PlayHdr, ∃ f : FmtB, ∃ st : Nat, ∃ i : Instr, ∃ v : Nat,
    (i = .bawait h f ∧ v = st ∨ i = .babort h f ∧ v = if st = 0 then 2 else st) ∧ Runs s h
    ∧ sget Ticket.free (getCore s h.core.idx).tickets f.ticket.val = .ended st) ∧
    (∃ s : State, ∃ h : PlayHdr, ∃ f : FmtB, ∃ stack : Nat, ∃ g : BitVec 8, ∃ r, Runs s h
    ∧ sget Ticket.free (getCore s h.core.idx).tickets f.ticket.val = .busy stack g
    ∧ runAt (getStack s stack) (h.core.idx, f.ticket.val, g) = some r ∧ r.abort = true) ∧
    (∃ s : State, ∃ h : PlayHdr, ∃ f : FmtB, ∃ stack : Nat, ∃ g : BitVec 8, ∃ r, Runs s h
    ∧ sget Ticket.free (getCore s h.core.idx).tickets f.ticket.val = .busy stack g
    ∧ runAt (getStack s stack) (h.core.idx, f.ticket.val, g) = some r ∧ r.abort = false) :=
  ⟨⟨{ (withCore fun c => { c with descs := [(0, dL)], sregs := [(5, 0x100000)] }) with regWait := [] }, hd, { fB with sp := 5 }, sc, at0 dL,
    grp, 0x100000, _, rfl, by unfold Runs Reaches; decide +kernel⟩,
   ⟨{ (withCore fun c => { c with descs := [(0, dL)], sregs := [(5, 0)] }) with regWait := [], power := { run.power with domains := (List.range 16).map fun n => (n, { Domain.off with on := true }) } },
    hd, { fB with sp := 5 }, sc, at0 dL, grp, 0, _, rfl, by unfold Runs Reaches; decide +kernel⟩,
   ⟨{ (withCore fun c => { c with descs := [(0, dL)], sregs := [(5, 0)] }) with regWait := [] }, hd, { fB with sp := 5 }, sc, at0 dL, grp, 0,
    _, _, _, rfl, rfl, rfl, by unfold Runs Reaches; decide +kernel⟩,
   ⟨withCore fun c => { c with descs := [(0, dF)], unperformed := 1 }, hd, fB, sc, ⟨at0 dF, by unfold Reaches; decide +kernel⟩,
    by unfold Runs; decide +kernel⟩,
   ⟨dcore dF dI2 dG, hd, fB, sc, ⟨at0 dF, by unfold Reaches; decide +kernel⟩, by unfold Runs; decide +kernel⟩,
   ⟨withCore fun c => { c with tickets := [(0, .ended 1)] }, hd, fB, 1, .bawait hd fB, 1, .inl ⟨rfl, rfl⟩, by unfold Runs; decide +kernel⟩,
   ⟨{ (withCore fun c => { c with tickets := [(0, .busy 0 0)] }) with stackMap := [(0, { Stack.empty with runs := [{ core := 0, ticket := 0, gen := 0, card := sc, rowAdd := 0, dout := 0, doutDesc := dF, opIdx := 1, active := false, banks := [], cursor := 0, results := [], abort := true, faulted := false }] })] },
    hd, fB, 0, 0,
    { core := 0, ticket := 0, gen := 0, card := sc, rowAdd := 0, dout := 0, doutDesc := dF, opIdx := 1, active := false, banks := [], cursor := 0, results := [], abort := true, faulted := false },
    by unfold Runs; decide +kernel⟩,
   ⟨{ (withCore fun c => { c with tickets := [(0, .busy 0 0)] }) with stackMap := [(0, { Stack.empty with runs := [{ core := 0, ticket := 0, gen := 0, card := sc, rowAdd := 0, dout := 0, doutDesc := dF, opIdx := 1, active := false, banks := [], cursor := 0, results := [], abort := false, faulted := false }] })] },
    hd, fB, 0, 0,
    { core := 0, ticket := 0, gen := 0, card := sc, rowAdd := 0, dout := 0, doutDesc := dF, opIdx := 1, active := false, banks := [], cursor := 0, results := [], abort := false, faulted := false },
    by unfold Runs; decide +kernel⟩⟩

theorem test_meets_TicketFaults :
    (∃ s : State, ∃ h : PlayHdr, ∃ f : FmtB, ∃ p : Script,
    (∃ d, takeOperands (getCore s h.core.idx) [(f.dout.val, 0)] = .ok [d] ∧ doutFits p d = true ∧ Reaches s h.core.idx [d]) ∧ Runs s h
    ∧ playScript s h.core.idx f = some p ∧ sregBad (getCore s h.core.idx) f.sp.val = false
    ∧ sget Ticket.free (getCore s h.core.idx).tickets f.ticket.val ≠ .free) ∧
    (∃ s : State, ∃ h : PlayHdr, ∃ f : FmtB, Runs s h ∧ sget Ticket.free (getCore s h.core.idx).tickets f.ticket.val = .free) :=
  ⟨⟨withCore fun c => { c with tickets := [(0, .ended 1)], descs := [(0, dF)] }, hd, fB, sc, ⟨at0 dF, by unfold Reaches; decide +kernel⟩,
    by unfold Runs; decide +kernel⟩,
   ⟨run, hd, fB, by unfold Runs; decide +kernel⟩⟩

theorem test_meets_KittyEvents_1 :
    (∃ s : State, ∃ n : Nat, ∃ addr : Nat, ∃ bs : List Byte, ∃ p : Bool, ∃ c : CLine, kittyGet s (addr / 64) = some c ∧ populated addr = true
    ∧ hostHolds s (lineDpa (addr / 64)) = none ∧ kittyOn s (addr / 64) = true) ∧
    (∃ s : State, ∃ who : Agent, ∃ addr : Nat, ∃ bs : List Byte, ∃ p : Bool, ∃ c, kittyGet s (addr / 64) = some c ∧ populated addr = true
    ∧ hostHolds s (lineDpa (addr / 64)) = none ∧ (who = .firmware ∨ who = .cxl ∨ who = .fabric)) ∧
    (∃ s : State, ∃ who : Agent, ∃ addr : Nat, ∃ bs : List Byte, ∃ p : Bool, populated addr = true ∧ hostHolds s (lineDpa (addr / 64)) = none
    ∧ (who = .firmware ∨ who = .cxl ∨ who = .fabric) ∧ kittyGet s (addr / 64) = none ∧ who = .cxl) ∧
    (∃ s : State, ∃ who : Agent, ∃ addr : Nat, ∃ bs : List Byte, ∃ p : Bool, populated addr = true ∧ hostHolds s (lineDpa (addr / 64)) = none
    ∧ (who = .firmware ∨ who = .cxl ∨ who = .fabric) ∧ kittyGet s (addr / 64) = none ∧ who ≠ .cxl ∧ lineCharges s (addr / 64) = true) ∧
    (∃ s : State, ∃ who : Agent, ∃ addr : Nat, ∃ bs : List Byte, ∃ p : Bool, populated addr = true ∧ hostHolds s (lineDpa (addr / 64)) = none
    ∧ (who = .firmware ∨ who = .cxl ∨ who = .fabric) ∧ kittyGet s (addr / 64) = none ∧ who ≠ .cxl ∧ lineCharges s (addr / 64) = false) ∧
    (∃ s : State, ∃ who : Agent, ∃ addr : Nat, ∃ c : CLine, kittyGet s (addr / 64) = some c ∧ populated addr = true
    ∧ hostHolds s (lineDpa (addr / 64)) = none) ∧
    (∃ s : State, ∃ s1 : State, ∃ n : Nat, ∃ addr : Nat, ∃ v : Line × Bool, ∃ t, t = chargeLine s (addr / 64)
    ∧ ctlRead t (.core n) (addr / 64) 0 = (s1, some v) ∧ populated addr = true ∧ hostHolds s (lineDpa (addr / 64)) = none
    ∧ kittyOn s (addr / 64) = true ∧ kittyGet s (addr / 64) = none ∧ lineCrossing s (addr / 64) = false ∧ lineCharges s (addr / 64) = true
    ∧ readHeld t (addr / 64) = false) ∧
    (∃ s : State, ∃ who : Agent, ∃ addr : Nat, ∃ write : Option (List Byte), ∃ p : Bool, ∃ ex : Bool,
    hostHolds s (lineDpa (addr / 64)) = some ex ∧ populated addr = true ∧ invalidates who write.isSome = true) :=
  ⟨⟨kk 0x23FFFFFF, 0, 0x8FFFFFFC0, [], false, _, (Option.some_get (by decide +kernel)).symm, by decide +kernel⟩,
   ⟨kk 0x23FFFFFF, .fabric, 0x8FFFFFFC0, [], false, _, (Option.some_get (by decide +kernel)).symm, by decide +kernel⟩,
   ⟨run, .cxl, 0x8FFFFFFC0, [], false, by decide +kernel⟩,
   ⟨run, .fabric, 0x8FFFFFFC0, [], false, by decide +kernel⟩,
   ⟨dry, .firmware, 0, [], false, by decide +kernel⟩,
   ⟨kk 0x23FFFFFF, .firmware, 0x8FFFFFFC0, _, (Option.some_get (by decide +kernel)).symm, by decide +kernel⟩,
   ⟨run, _, 0, 0x8FFFFFFC0, _, _, rfl, fst_some (by decide +kernel), by decide +kernel⟩,
   ⟨{ run with host := { run.host with snoop := [(lineDpa 0x23FFFFFF, true)] } }, .core 0, 0x8FFFFFFC0, none, false, _,
    (Option.some_get (by decide +kernel)).symm, by decide +kernel⟩⟩

theorem test_meets_KittyEvents_2 :
    (∃ s : State, ∃ addr : Nat, ∃ op : Fin 7, ∃ x : W64, ∃ y : W64, ∃ p : Bool, ∃ c : CLine, kittyGet s (addr / 64) = some c
    ∧ populated addr = true ∧ addr % atomBytes op.val = 0 ∧ kittyOn s (addr / 64) = true ∧ hostHolds s (lineDpa (addr / 64)) = none) ∧
    (∃ s : State, ∃ n : Nat, ∃ addr : Nat, ∃ c : CLine, kittyGet s (addr / 64) = some c ∧ populated addr = true
    ∧ hostHolds s (lineDpa (addr / 64)) = none ∧ kittyOn s (addr / 64) = false ∧ c.dirty = false) :=
  ⟨⟨kk 0x23FFFFFF, 0x8FFFFFFC0 + 60, 0, 0, 0, true, _, (Option.some_get (by decide +kernel)).symm, by decide +kernel⟩,
   ⟨{ kk 0x23FFFFFF with power := Power.reset }, 0, 0x8FFFFFFC0, _, (Option.some_get (by decide +kernel)).symm, by decide +kernel⟩⟩

theorem test_meets_TrickMessages :
    (∃ s : State, ∃ c : Fin 64, ∃ trick : Nat, ∃ k : Nat, ∃ rest : List (Nat × Nat × Nat), ∃ e : TrickEntry, ∃ d : Deck, deckOf s = some d
    ∧ trickEntry s trick = some e
    ∧ (takeFirst (fun x : Nat × Nat × Nat => x.1 = c.val && x.2.1 = trick) s.arrives = some ((c.val, trick, k), rest)) ∧ e.trick = trick
    ∧ 0 < k ∧ (getTrick s trick).arrived + k ≠ (getTrick s trick).expected) ∧
    (∃ s : State, ∃ c : Fin 64, ∃ trick : Nat, ∃ k : Nat, ∃ rest : List (Nat × Nat × Nat), ∃ e : TrickEntry, ∃ d : Deck, deckOf s = some d
    ∧ trickEntry s trick = some e
    ∧ (takeFirst (fun x : Nat × Nat × Nat => x.1 = c.val && x.2.1 = trick) s.arrives = some ((c.val, trick, k), rest)) ∧ e.trick = trick
    ∧ 0 < k ∧ (getTrick s trick).arrived + k = (getTrick s trick).expected ∧ e.spanning = false ∧ closingTrick d e.table ≠ some trick) ∧
    (∃ s : State, ∃ c : Fin 64, ∃ trick : Nat, (takeFirst (fun x : Nat × Nat × Nat => x.1 = c.val && x.2.1 = trick) s.arrives = none)) ∧
    (∃ s : State, ∃ c : Fin 64, ∃ trick : Nat, ∃ ep : W32, ∃ rest : List (Nat × Nat × W32),
    (takeFirst (fun x : Nat × Nat × W32 => x.1 = c.val && x.2.1 = trick) s.releases = some ((c.val, trick, ep), rest))) ∧
    (∃ s : State, ∃ c : Fin 64, ∃ trick : Nat, (takeFirst (fun x : Nat × Nat × W32 => x.1 = c.val && x.2.1 = trick) s.releases = none)) :=
  ⟨⟨{ run with arrives := [(63, 0, 1)] }, 63, 0, 1, [], _, _, (Option.some_get (by decide +kernel)).symm,
    (Option.some_get (by decide +kernel)).symm, by decide +kernel⟩,
   ⟨{ run with arrives := [(63, 0, 2)], tricks := [(0, { Trick.empty with expected := 2 })] }, 63, 0, 2, [], _, _,
    (Option.some_get (by decide +kernel)).symm, (Option.some_get (by decide +kernel)).symm, by decide +kernel⟩,
   ⟨run, 63, 0, by decide +kernel⟩,
   ⟨{ run with releases := [(63, 0, 1)] }, 63, 0, 1, [], by decide +kernel⟩,
   ⟨run, 63, 0, by decide +kernel⟩⟩

theorem test_meets_PushCreditPathEvents_1 :
    (∃ s : State, ∃ stream : Nat, ∃ p : PushFlight, ∃ rest : List PushFlight, ∃ e : StreamEntry, streamEntry s stream = some e
    ∧ (takeFirst (fun p : PushFlight => p.stream = stream) s.pushes = some (p, rest)) ∧ p.gen = s.gen) ∧
    (∃ s : State, ∃ stream : Nat, ∃ p : PushFlight, ∃ rest : List PushFlight, ∃ e : StreamEntry, streamEntry s stream = some e
    ∧ (takeFirst (fun p : PushFlight => p.stream = stream) s.pushes = some (p, rest)) ∧ p.gen ≠ s.gen) ∧
    (∃ s : State, ∃ stream : Nat, ∃ count : Nat, ∃ rest : List (Nat × Nat), ∃ e : StreamEntry, streamEntry s stream = some e
    ∧ (takeFirst (fun x : Nat × Nat => x.1 = stream) s.creditFlight = some ((stream, count), rest)) ∧ e.stream = stream
    ∧ (getStream s stream).stopped = false ∧ count ≤ e.initial - (getStream s stream).avail - (getStream s stream).taken) ∧
    (∃ s : State, ∃ stream : Nat, ∃ count : Nat, ∃ rest : List (Nat × Nat), ∃ e : StreamEntry, ∃ t, streamEntry s stream = some e
    ∧ t = logGen { s with creditFlight := rest } evSynCreditOverflow (0x10 + coreOfField e.producer / 64) (some e.table) [w32 stream] []
    ∧ (takeFirst (fun x : Nat × Nat => x.1 = stream) s.creditFlight = some ((stream, count), rest)) ∧ e.stream = stream
    ∧ (getStream s stream).stopped = false ∧ e.initial - (getStream s stream).avail - (getStream s stream).taken < count) ∧
    (∃ s : State, ∃ path : PathId, ∃ replay : Bool, ∃ sent : List W32, ∃ received : List (W32 × Bool), ∃ lane : Nat, ∃ v : Path,
    getPath s path = v ∧ v.failed = true) ∧
    (∃ s : State, ∃ path : PathId, ∃ replay : Bool, ∃ sent : List W32, ∃ received : List (W32 × Bool), ∃ lane : Nat, ∃ v : Path,
    getPath s path = v ∧ replay = false ∧ v.failed = false ∧ v.retained ≠ []) ∧
    (∃ s : State, ∃ path : PathId, ∃ replay : Bool, ∃ sent : List W32, ∃ received : List (W32 × Bool), ∃ lane : Nat, ∃ v : Path, ∃ u,
    getPath s path = v ∧ u = (if replay then v else { v with retained := [sent] }) ∧ v.failed = false
    ∧ (replay = true ∧ v.retained ≠ [] ∨ replay = false ∧ v.retained = []) ∧ received.all evenParity = true) ∧
    (∃ s : State, ∃ path : PathId, ∃ replay : Bool, ∃ sent : List W32, ∃ received : List (W32 × Bool), ∃ lane : Nat, ∃ v : Path, ∃ u,
    getPath s path = v ∧ u = (if replay then v else { v with retained := [sent] }) ∧ v.failed = false
    ∧ (replay = true ∧ v.retained ≠ [] ∨ replay = false ∧ v.retained = []) ∧ received.all evenParity = false ∧ v.failures < 3) :=
  ⟨⟨{ run with pushes := [{ stream := 0, producer := 0, units := 1, bytes := [], gen := 0 }] }, 0,
    { stream := 0, producer := 0, units := 1, bytes := [], gen := 0 }, [], _, (Option.some_get (by decide +kernel)).symm,
    by decide +kernel⟩,
   ⟨{ run with pushes := [{ stream := 0, producer := 0, units := 1, bytes := [], gen := 1 }] }, 0,
    { stream := 0, producer := 0, units := 1, bytes := [], gen := 1 }, [], _, (Option.some_get (by decide +kernel)).symm,
    by decide +kernel⟩,
   ⟨{ run with streams := [(0, { strm with avail := 0, taken := 0 })], creditFlight := [(0, 8)] }, 0, 8, [], _,
    (Option.some_get (by decide +kernel)).symm, by decide +kernel⟩,
   ⟨{ run with streams := [(0, { strm with avail := 0, taken := 0 })], creditFlight := [(0, 9)] }, 0, 9, [], _, _,
    (Option.some_get (by decide +kernel)).symm, rfl, by decide +kernel⟩,
   ⟨{ run with paths := [(.mesh 0, { Path.clean with failed := true })] }, .mesh 0, false, [], [], 0, { Path.clean with failed := true },
    rfl, by decide +kernel⟩,
   ⟨{ run with paths := [(.mesh 0, { Path.clean with retained := [[7]] })] }, .mesh 0, _, [], [], 0, { Path.clean with retained := [[7]] },
    rfl, rfl, by decide +kernel⟩,
   ⟨{ run with paths := [(.mesh 0, { Path.clean with retained := [[7]] })] }, .mesh 0, true, [], [(3, false)], 0,
    { Path.clean with retained := [[7]] }, _, rfl, rfl, by decide +kernel⟩,
   ⟨{ run with paths := [(.mesh 0, { Path.clean with failures := 2 })] }, .mesh 0, false, [1], [(1, false)], 0,
    { Path.clean with failures := 2 }, _, rfl, rfl, by decide +kernel⟩⟩

theorem test_meets_PushCreditPathEvents_2 :
    (∃ s : State, ∃ path : PathId, ∃ replay : Bool, ∃ sent : List W32, ∃ received : List (W32 × Bool), ∃ lane : Nat, ∃ v : Path, ∃ u, ∃ t,
    getPath s path = v ∧ u = (if replay then v else { v with retained := [sent] }) ∧ (∀ n, path ≠ .coreInside n)
    ∧ t = setPath s path { u with failures := 0, steered := v.steered ++ [lane], spares := some (v.spares.getD (pathSpares path) - 1) }
    ∧ v.failed = false ∧ (replay = true ∧ v.retained ≠ [] ∨ replay = false ∧ v.retained = []) ∧ received.all evenParity = false
    ∧ 3 ≤ v.failures ∧ 0 < v.spares.getD (pathSpares path)) ∧
    (∃ s : State, ∃ path : PathId, ∃ replay : Bool, ∃ sent : List W32, ∃ received : List (W32 × Bool), ∃ lane : Nat, ∃ v : Path, ∃ u, ∃ n,
    ∃ t, getPath s path = v ∧ u = (if replay then v else { v with retained := [sent] }) ∧ path = .coreInside n
    ∧ t = setPath s path { u with failures := 0, retained := [], strikes := v.strikes + 1 } ∧ v.failed = false
    ∧ (replay = true ∧ v.retained ≠ [] ∨ replay = false ∧ v.retained = []) ∧ received.all evenParity = false ∧ 3 ≤ v.failures) :=
  ⟨⟨{ run with paths := [(.mesh 0, { Path.clean with failures := 3 })] }, .mesh 0, false, [1], [(1, false)], 0,
    { Path.clean with failures := 3 }, _, _, rfl, rfl, (by intro n h; cases h), rfl, by decide +kernel⟩,
   ⟨{ run with paths := [(.coreInside 0, { Path.clean with failures := 3 })] }, _, false, [1], [(0, true)], 0, _, _, 0, _, rfl, rfl, rfl,
    rfl, by decide +kernel⟩⟩

theorem test_meets_WrittenLineReadsBack :
    (∃ s : State, ∃ p : Place, ∃ q : Place, ∃ data : Line, ∃ poison : Bool, s.arrayOk ∧ p.line < 16 ∧ q.line < 16
    ∧ sget 0 (getStack s p.stack).columns (16 * p.bank + p.line) ≤ 4 ∧ sget 0 (getStack s q.stack).columns (16 * q.bank + q.line) ≤ 4
    ∧ (rowBase s q.stack q.bank q.row ≠ rowBase s p.stack p.bank p.row ∨ (rowBase s q.stack q.bank q.row = rowBase s p.stack p.bank p.row ∧ q.line ≠ p.line ∧ lineOff (getStack s q.stack) q.bank q.line ≠ lineOff (getStack s p.stack) p.bank p.line))) :=
  ⟨run, { stack := 0, bank := 0, row := 0, line := 15 }, { stack := 0, bank := 0, row := 0, line := 0 }, 0, false,
    (by unfold State.arrayOk; decide +kernel), by decide +kernel⟩

theorem test_meets_LineTraffic :
    (∃ s : State, ∃ s1 : State, ∃ who : Consumer, ∃ addr : Nat, ∃ dist : Nat, ∃ v : Line × BitVec 16,
    fetchOutside (if chargedReader who then chargeLine s (addr / 64) else s) who (addr / 64) dist = (s1, some v) ∧ populated addr = true
    ∧ (chargedReader who = true → lineCharges s (addr / 64) = true)) ∧
    (∃ s : State, ∃ hpa : Nat, ∃ addr : Nat, ∃ dist : Nat, ∃ c : CLine, kittyGet s (addr / 64) = some c ∧ populated addr = true
    ∧ c.poison = 0) ∧
    (∃ s : State, ∃ addr : Nat, ∃ data : Line, ∃ mask : BitVec 64, ∃ p : Bool, populated addr = true ∧ lineCharges s (addr / 64) = true) ∧
    (∃ s : State, ∃ addr : Nat, ∃ data : Line, ∃ p : Bool, ∃ who : Consumer, ∃ f : Nat, populated addr = true ∧ lineOwner s (addr / 64) = none
    ∧ underRepair s (addr / 64) = false ∧ (getStack s (lineStack (addr / 64))).resetting = false
    ∧ wcbEntry (getStack s (lineStack (addr / 64))) (addr / 64) = none
    ∧ wcbCount s (lineStack (addr / 64)) (lineChannel s (addr / 64)) < 64
    ∧ lineQueued (getStack s (lineStack (addr / 64))) (addr / 64) = false ∧ lineCrossing s (addr / 64) = false
    ∧ areaLine s (addr / 64) = none) ∧
    (∃ s : State, ∃ addr : Nat, ∃ t : Nat, ∃ data : Line, ∃ mask : BitVec 64, ∃ p : Bool, ∃ who : Consumer, ∃ dist : Nat,
    lineOwner s (addr / 64) = some t ∧ populated addr = true ∧ lineCharges s (addr / 64) = false ∧ chargedReader who = true) ∧
    (∃ s : State, ∃ stack : Fin 8, ∃ line : Nat, ∃ d : Nat, ∃ e : WcbEntry, ∃ t, wcbEntry (getStack s stack.val) line = some e
    ∧ (t = writeLine (openRow (modStack s stack.val fun k => dropEntry k line) (linePlace s line).stack (linePlace s line).bank (linePlace s line).row) (linePlace s line) e.data (decide (e.poison ≠ 0)))
    ∧ lineStack line = stack.val ∧ (getStack s stack.val).draining.contains line = true ∧ drainHeld s line = false ∧ e.mask = fullMask) ∧
    (∃ s : State, ∃ t : State, ∃ stack : Fin 8, t = expire s (.drain stack.val) 10000 ∧ (getStack s stack.val).resetting = true
    ∧ (getStack t stack.val).resetting = true) :=
  ⟨⟨kk 0x23FFFFFF, _, .core 63, 0x8FFFFFFC0, 0, _, fst_some (by decide +kernel), by decide +kernel⟩,
   ⟨kk 0x23FFFFFF, 0, 0x8FFFFFFC0, 0, _, (Option.some_get (by decide +kernel)).symm, by decide +kernel⟩,
   ⟨run, 0x8FFFFFFC0, 0, 0, false, by decide +kernel⟩,
   ⟨run, 0x8FFFFFFC0, 0, false, .core 0, 0, by decide +kernel⟩,
   ⟨dry, 0, _, 0, 0, false, .firmware, 0, (Option.some_get (by decide +kernel)).symm, by decide +kernel⟩,
   ⟨withStack fun k => { k with wcb := [we 0], draining := [0] }, 0, 0, 0, _, _, (Option.some_get (by decide +kernel)).symm, rfl,
    by decide +kernel⟩,
   ⟨withStack fun k => { k with resetting := true }, _, 0, rfl, by decide +kernel⟩⟩

theorem test_meets_RefreshAndHeldWrites_1 :
    (∃ s : State, ∃ n : Fin 8, ∃ slot : Fin 24, (∀ c, chanAsleep s n.val c = true)) ∧
    (∃ s : State, ∃ n : Fin 8, ∃ slot : Fin 24, (getStack s n.val).selfRefresh = false) ∧
    (∃ k : Stack, ∃ bank : Nat, bankInRow k bank = false ∧ k.scrub.active.contains bank = false ∧ k.refreshing.contains bank = false
    ∧ k.earlyOpens.any (·.bank = bank) = false) ∧
    (∃ s : State, ∃ n : Fin 8, ∃ bank : Fin 768, (getStack s n.val).refreshing.contains bank.val = true) ∧
    (∃ s : State, ∃ n : Fin 8, ∃ line : Nat, ((getStack s n.val).writeHold = false ∨ (getStack s n.val).refusedFull = true)) ∧
    (∃ s : State, ∃ n : Fin 8, ∃ line : Nat, ∃ t, ∃ w, ∃ u, t = holdOver s n.val line ∧ heldSender (getStack s n.val) line = some w
    ∧ u = refuseSender t n.val w ∧ (getStack s n.val).writeHold = true ∧ (getStack s n.val).refusedFull = false ∧ lineStack line = n.val) ∧
    (∃ s : State, ∃ n : Fin 8, ∃ line : Nat, ∃ t, ∃ w, ∃ u, t = holdOver s n.val line ∧ u = refuseHeld t n.val w line
    ∧ (getStack s n.val).writeHold = true ∧ (getStack s n.val).refusedFull = false ∧ lineStack line = n.val
    ∧ heldSender (getStack s n.val) line = none ∧ ((getStack s n.val).heldWrites.find? (fun w => w.line = some line) = some w)) ∧
    (∃ s : State, ∃ n : Fin 8, ∃ line : Nat, ∃ t, ∃ u, t = holdOver s n.val line
    ∧ u = refuseLine (setStack t n.val (dropEntry (getStack t n.val) line)) line ∧ (getStack s n.val).writeHold = true
    ∧ (getStack s n.val).refusedFull = false ∧ lineStack line = n.val ∧ heldSender (getStack s n.val) line = none
    ∧ ((getStack s n.val).heldWrites.find? (fun w => w.line = some line) = none) ∧ (wcbEntry (getStack s n.val) line).isSome = true) :=
  ⟨⟨withStack fun k => { k with selfRefresh := true }, 0, 23, fun _ => rfl⟩,
   ⟨run, 0, 23, by decide +kernel⟩,
   ⟨Stack.empty, 767, by decide +kernel⟩,
   ⟨withStack fun k => { k with refreshing := [767] }, 0, 767, by decide +kernel⟩,
   ⟨run, 0, 0, by decide +kernel⟩,
   ⟨withStack fun k => { k with writeHold := true, queue := [.write { we 0 with sender := .host 5 }] }, 0, 0, _, _, _, rfl,
    (Option.some_get (by decide +kernel)).symm, rfl, by decide +kernel⟩,
   ⟨withStack fun k => { k with writeHold := true, heldWrites := [.unreach 0] }, 0, 0, _, .unreach 0, _, rfl, rfl, by decide +kernel⟩,
   ⟨withStack fun k => { k with writeHold := true, wcb := [we 0] }, 0, 0, _, _, rfl, rfl, by decide +kernel⟩⟩

theorem test_meets_RefreshAndHeldWrites_2 :
    (∃ s : State, ∃ n : Fin 8, ∃ line : Nat, ∃ t, ∃ r, ∃ c, ∃ u, t = holdOver s n.val line ∧ u = expire s (.rowHold n.val c) (budgetOf s)
    ∧ (getStack s n.val).writeHold = true ∧ (getStack s n.val).refusedFull = false ∧ lineStack line = n.val
    ∧ heldSender (getStack s n.val) line = none ∧ ((getStack s n.val).heldWrites.find? (fun w => w.line = some line) = none)
    ∧ wcbEntry (getStack s n.val) line = none ∧ heldStore s line = some (r, c)) :=
  ⟨withRun fun k => { k with writeHold := true, runs := [{ runOpAt 2 with banks := [{ inRow with inRow := false }] }] }, 0, 0, _,
    { runOpAt 2 with banks := [{ inRow with inRow := false }] }, 0, _, rfl, rfl, by decide +kernel⟩

theorem test_meets_ScriptRunEvents_1 :
    (∃ s : State, ∃ n : Fin 8, ∃ bank : Fin 768, ∃ f : LatchFlight, ∃ rest : List LatchFlight,
    (takeFirst (fun f : LatchFlight => f.stack = n.val && f.bank = bank.val) s.latchFlight = some (f, rest)) ∧ halfUp s f.stack = true
    ∧ latchBusy s f.stack f.bank f.latch = false) ∧
    (∃ s : State, ∃ n : Fin 8, ∃ bank : Fin 768, ∃ f : LatchFlight, ∃ rest : List LatchFlight,
    (takeFirst (fun f : LatchFlight => f.stack = n.val && f.bank = bank.val) s.latchFlight = some (f, rest)) ∧ halfUp s f.stack = true
    ∧ latchBusy s f.stack f.bank f.latch = true) ∧
    (∃ s : State, ∃ n : Fin 8, ∃ bank : Fin 768, ∃ f : LatchFlight, ∃ rest : List LatchFlight, ∃ p : LatchFlight → Bool,
    (p = (fun g => decide (g.id = f.id)))
    ∧ (takeFirst (fun f : LatchFlight => f.stack = n.val && f.bank = bank.val) s.latchFlight = some (f, rest)) ∧ halfUp s f.stack = false) ∧
    (∃ s : State, ∃ n : Fin 8, ∃ core : CoreId, ∃ ticket : Fin 4, ∃ r : ScriptRun, ∃ o : ScriptOp, ∃ s1 : State,
    runOf (getStack s n.val) core.idx ticket.val = some r ∧ r.card.ops[r.opIdx]? = some o
    ∧ (s1 = setStack s n.val (modRun (getStack s n.val) (runKey r) fun _ => r)) ∧ r.active = false ∧ r.abort = false ∧ heldByHost s r = []
    ∧ o.op ≠ 1 ∧ o.op = 0) ∧
    (∃ s : State, ∃ n : Fin 8, ∃ core : CoreId, ∃ ticket : Fin 4, ∃ r : ScriptRun, ∃ o : ScriptOp, ∃ s1 : State, ∃ e,
    runOf (getStack s n.val) core.idx ticket.val = some r ∧ r.card.ops[r.opIdx]? = some o
    ∧ (s1 = setStack s n.val (modRun (getStack s n.val) (runKey r) fun _ => r)) ∧ opRefusal s1 n.val r o = some e ∧ r.active = false
    ∧ r.abort = false ∧ heldByHost s r = [] ∧ o.op ≠ 1 ∧ o.op ≠ 0) ∧
    (∃ s : State, ∃ n : Fin 8, ∃ core : CoreId, ∃ ticket : Fin 4, ∃ r : ScriptRun, ∃ o : ScriptOp, ∃ s1 : State,
    runOf (getStack s n.val) core.idx ticket.val = some r ∧ r.card.ops[r.opIdx]? = some o
    ∧ (s1 = setStack s n.val (modRun (getStack s n.val) (runKey r) fun _ => r)) ∧ r.active = false ∧ r.abort = false ∧ heldByHost s r = []
    ∧ o.op ≠ 1 ∧ o.op ≠ 0 ∧ opRefusal s1 n.val r o = none) ∧
    (∃ s : State, ∃ t : State, ∃ n : Fin 8, ∃ w : RunKey × Nat, ∃ rest : List (RunKey × Nat), startBank s n.val w = (t, true)
    ∧ (getStack s n.val).permitWait = w :: rest) ∧
    (∃ k : Stack, ∃ k' : Stack, ∃ r : ScriptRun, ∃ o : ScriptOp, ∃ bank : Nat, takePermit k r o bank = some k' ∧ k.permits ≤ 384
    ∧ k.earlyOpens = []) :=
  ⟨⟨{ run with latchFlight := [lf] }, 0, 767, lf, [], by decide +kernel⟩,
   ⟨{ (withRun fun k => { k with runs := [{ runOpAt 4 with banks := [{ inRow with bank := 767 }] }] }) with latchFlight := [lf] }, 0, 767,
    lf, [], by decide +kernel⟩,
   ⟨{ State.reset with latchFlight := [lf] }, 0, 767, lf, [], _, rfl, by decide +kernel⟩,
   ⟨withRun fun k => { k with runs := [{ runOpAt 1 with active := false }] }, 0, ⟨0, 0⟩, 0, _, _, _,
    (Option.some_get (by decide +kernel)).symm, (Option.some_get (by decide +kernel)).symm, rfl, by decide +kernel⟩,
   ⟨withRun fun k => { k with runs := [{ runOpAt 2 with active := false, rowAdd := 49152 }] }, 0, ⟨0, 0⟩, 0, _, _, _, _,
    (Option.some_get (by decide +kernel)).symm, (Option.some_get (by decide +kernel)).symm, rfl,
    (Option.some_get (by decide +kernel)).symm, by decide +kernel⟩,
   ⟨withRun fun k => { k with runs := [{ runOpAt 2 with active := false }] }, 0, ⟨0, 0⟩, 0, _, _, _,
    (Option.some_get (by decide +kernel)).symm, (Option.some_get (by decide +kernel)).symm, rfl, by decide +kernel⟩,
   ⟨withStack fun k => { k with permitWait := [((0, 0, 0), 0)] }, _, 0, ((0, 0, 0), 0), [], fst_eq (by decide +kernel), by decide +kernel⟩,
   ⟨{ Stack.empty with permits := 383 }, _, runOpAt 2, fill, 0, (Option.some_get (by decide +kernel)).symm, by decide +kernel⟩⟩

theorem test_meets_ScriptRunEvents_2 :
    (∃ s : State, ∃ s1 : State, ∃ n : Fin 8, ∃ core : CoreId, ∃ ticket : Fin 4, ∃ bank : Fin 768, ∃ d : List (Nat × Nat), ∃ r : ScriptRun,
    ∃ o : ScriptOp, ∃ b : BankRun, ∃ st : RowStep, ∃ line, opOf r = some o ∧ nextStep r b = some st
    ∧ rowEffect s n.val r b o st d = (s1, .error line) ∧ rowRun (getStack s n.val) core.idx ticket.val bank.val = some (r, b)) ∧
    (∃ s : State, ∃ s1 : State, ∃ n : Fin 8, ∃ core : CoreId, ∃ ticket : Fin 4, ∃ bank : Fin 768, ∃ d : List (Nat × Nat), ∃ r : ScriptRun,
    ∃ o : ScriptOp, ∃ b : BankRun, ∃ st : RowStep, ∃ rows, ∃ s2, opOf r = some o ∧ nextStep r b = some st
    ∧ rowEffect s n.val r b o st d = (s1, .ok rows)
    ∧ (s2 = modBank s1 n.val (runKey r) b.bank (fun b => { b with inRow := false, done := b.done + 1, rows := rows }))
    ∧ rowRun (getStack s n.val) core.idx ticket.val bank.val = some (r, b) ∧ r.abort = true) ∧
    (∃ s : State, ∃ s1 : State, ∃ n : Fin 8, ∃ core : CoreId, ∃ ticket : Fin 4, ∃ bank : Fin 768, ∃ d : List (Nat × Nat), ∃ r : ScriptRun,
    ∃ o : ScriptOp, ∃ b : BankRun, ∃ st : RowStep, ∃ rows, ∃ s2, opOf r = some o ∧ nextStep r b = some st
    ∧ rowEffect s n.val r b o st d = (s1, .ok rows)
    ∧ (s2 = modBank s1 n.val (runKey r) b.bank (fun b => { b with inRow := false, done := b.done + 1, rows := rows }))
    ∧ rowRun (getStack s n.val) core.idx ticket.val bank.val = some (r, b) ∧ r.abort = false
    ∧ b.done + 1 < (bankSteps o r.rowAdd b.bank).length) ∧
    (∃ s : State, ∃ s1 : State, ∃ n : Fin 8, ∃ core : CoreId, ∃ ticket : Fin 4, ∃ bank : Fin 768, ∃ d : List (Nat × Nat), ∃ r : ScriptRun,
    ∃ o : ScriptOp, ∃ b : BankRun, ∃ st : RowStep, ∃ rows, ∃ s2, opOf r = some o ∧ nextStep r b = some st
    ∧ rowEffect s n.val r b o st d = (s1, .ok rows)
    ∧ (s2 = modBank s1 n.val (runKey r) b.bank (fun b => { b with inRow := false, done := b.done + 1, rows := rows }))
    ∧ rowRun (getStack s n.val) core.idx ticket.val bank.val = some (r, b) ∧ r.abort = false
    ∧ (bankSteps o r.rowAdd b.bank).length ≤ b.done + 1) ∧
    (∃ s : State, ∃ n : Fin 8, (getStack s n.val).busNow = none) ∧
    (∃ s : State, ∃ n : Fin 8, ∃ x, ∃ t, (∃ r, runAt (getStack s n.val) (x.core, x.ticket, x.gen) = some r ∧ r.abort = false)
    ∧ t = setStack s n.val { getStack s n.val with busNow := none } ∧ (getStack s n.val).busNow = some x) ∧
    (∃ s : State, ∃ n : Fin 8, ∃ x, ∃ t, (∀ r, runAt (getStack s n.val) (x.core, x.ticket, x.gen) = some r → r.abort = true)
    ∧ t = setStack s n.val { getStack s n.val with busNow := none, lateDrops := satAdd 0xFFFF (getStack s n.val).lateDrops x.dests.length }
    ∧ (getStack s n.val).busNow = some x) ∧
    (∃ k : Stack, ∃ x : BusXfer, ∃ rest : List BusXfer, nextXfer k = some (x, rest)) :=
  ⟨⟨withRun fun k => { k with runs := [runOpAt 2], repairs := [{ rp with line := 0 }] }, _, 0, ⟨0, 0⟩, 0, 0, [], runOpAt 2, _, inRow, _, 0,
    (Option.some_get (by decide +kernel)).symm, (Option.some_get (by decide +kernel)).symm, fst_eq (by decide +kernel), by decide +kernel⟩,
   ⟨withRun fun k => { k with runs := [{ runOpAt 2 with abort := true }] }, _, 0, ⟨0, 0⟩, 0, 0, [], { runOpAt 2 with abort := true }, _,
    inRow, _, [], _, (Option.some_get (by decide +kernel)).symm, (Option.some_get (by decide +kernel)).symm, fst_eq (by decide +kernel),
    rfl, by decide +kernel⟩,
   ⟨withRun fun k => { k with runs := [runOpAt 5] }, _, 0, ⟨0, 0⟩, 0, 0, [], runOpAt 5, _, inRow, _, [], _,
    (Option.some_get (by decide +kernel)).symm, (Option.some_get (by decide +kernel)).symm, fst_eq (by decide +kernel), rfl,
    by decide +kernel⟩,
   ⟨withRun fun k => { k with runs := [runOpAt 2] }, _, 0, ⟨0, 0⟩, 0, 0, [], runOpAt 2, _, inRow, _, [], _,
    (Option.some_get (by decide +kernel)).symm, (Option.some_get (by decide +kernel)).symm, fst_eq (by decide +kernel), rfl,
    by decide +kernel⟩,
   ⟨run, 0, by decide +kernel⟩,
   ⟨withRun fun k => { k with busNow := some bx, runs := [runOpAt 2] }, 0, bx, _, ⟨runOpAt 2, by decide +kernel, rfl⟩, rfl,
    by decide +kernel⟩,
   ⟨withRun fun k => { k with busNow := some bx }, 0, bx, _, fun _ q => no_some (by decide +kernel) q, rfl, by decide +kernel⟩,
   ⟨{ Stack.empty with bus := [bx] }, bx, [], by decide +kernel⟩⟩

theorem test_meets_ScriptRunEvents_3 :
    (∃ s : State, ∃ n : Fin 8, ∃ core : CoreId, ∃ ticket : Fin 4, ∃ e, ∃ rest,
    (takeFirst (fun e : Nat × Nat × Nat => e.1 = core.idx && e.2.1 = ticket.val) (getStack s n.val).lateResults = some (e, rest))) ∧
    (∃ s : State, ∃ n : Fin 8, ∃ core : CoreId, ∃ ticket : Fin 4, ∃ r : ScriptRun, ∃ x : Nat × Nat × W32 × Bool,
    ∃ rest : List (Nat × Nat × W32 × Bool), runOf (getStack s n.val) core.idx ticket.val = some r
    ∧ (takeFirst (fun e : Nat × Nat × Nat => e.1 = core.idx && e.2.1 = ticket.val) (getStack s n.val).lateResults = none)
    ∧ r.results = x :: rest ∧ r.abort = false ∧ resultWaits s n.val core.idx ticket.val = false
    ∧ canCharge s r.card.table n.val 4 = false) ∧
    (∃ s : State, ∃ n : Fin 8, ∃ core : CoreId, ∃ ticket : Fin 4, ∃ r : ScriptRun, ∃ x : Nat × Nat × W32 × Bool,
    ∃ rest : List (Nat × Nat × W32 × Bool), ∃ s1, runOf (getStack s n.val) core.idx ticket.val = some r
    ∧ (s1 = modStack (charge s r.card.table n.val 4) n.val (fun k => modRun k (runKey r) fun r => { r with results := rest }))
    ∧ (takeFirst (fun e : Nat × Nat × Nat => e.1 = core.idx && e.2.1 = ticket.val) (getStack s n.val).lateResults = none)
    ∧ r.results = x :: rest ∧ r.abort = false ∧ resultWaits s n.val core.idx ticket.val = false ∧ canCharge s r.card.table n.val 4 = true
    ∧ inBound (parseDesc r.doutDesc) [x.2.1, x.1, 0, 0, 0, 0] = true) :=
  ⟨⟨withStack fun k => { k with lateResults := [(0, 0, 1)] }, 0, ⟨0, 0⟩, 0, (0, 0, 1), [], by decide +kernel⟩,
   ⟨{ (withRun fun k => { k with runs := [{ runOpAt 2 with results := [(0, 0, 7, false)] }] }) with regs := dry.regs }, 0, ⟨0, 0⟩, 0, _,
    (0, 0, 7, false), [], (Option.some_get (by decide +kernel)).symm, by decide +kernel⟩,
   ⟨withRun fun k => { k with runs := [{ runOpAt 2 with results := [(0, 0, 7, false)] }] }, 0, ⟨0, 0⟩, 0, _, (0, 0, 7, false), [], _,
    (Option.some_get (by decide +kernel)).symm, rfl, by decide +kernel⟩⟩

theorem test_meets_ScrubberEvents_1 :
    (∃ s : State, ∃ n : Fin 8, ∃ bank : Fin 768, (getStack s n.val).scrub.running = true ∧ bankIdle s n.val bank.val = true
    ∧ (scrubRow s n.val bank.val).isSome = true) ∧
    (∃ s : State, ∃ n : Fin 8, ∃ bank : Fin 768,
    ((getStack s n.val).scrub.running = false ∨ bankIdle s n.val bank.val = false ∨ scrubRow s n.val bank.val = none)) ∧
    (∃ s : State, ∃ n : Fin 8, (getStack s n.val).scrub.trump = false) ∧
    (∃ s : State, ∃ n : Fin 8, ∃ bs : List Nat,
    (bs = ((List.range 768).filter fun b => (scrubRow s n.val b).isSome && !(getStack s n.val).scrub.active.contains b))
    ∧ (getStack s n.val).scrub.trump = true) ∧
    (∃ s : State, ∃ s1 : State, ∃ n : Fin 8, ∃ bank : Fin 768, ∃ row : Nat, ∃ d : List (Nat × Nat),
    s1 = setStack s n.val { getStack s n.val with scrub := { (getStack s n.val).scrub with active := (getStack s n.val).scrub.active.filter (· ≠ bank.val) } }
    ∧ (getStack s n.val).scrub.active.contains bank.val = true ∧ scrubRow s1 n.val bank.val = none) ∧
    (∃ s : State, ∃ s1 : State, ∃ n : Fin 8, ∃ bank : Fin 768, ∃ row : Nat, ∃ d : List (Nat × Nat),
    s1 = setStack s n.val { getStack s n.val with scrub := { (getStack s n.val).scrub with active := (getStack s n.val).scrub.active.filter (· ≠ bank.val) } }
    ∧ scrubRow s1 n.val bank.val = some row ∧ (getStack s n.val).scrub.active.contains bank.val = true) ∧
    (∃ s : State, ∃ n : Nat, ∃ bank : Nat, ∃ row : Nat, ∃ q, scrubRow s n bank = some row ∧ sget 0 (getStack s n).scrub.cursors bank ≤ q
    ∧ q < row) ∧
    (∃ s : State, ∃ n : Nat, ∃ ms, ms = ((getStack s n).meter.toNat - (getStack s n).scrub.start) / 100000
    ∧ (getStack s n).scrub.running = true ∧ (getStack s n).scrub.total ≤ (getStack s n).scrub.read) :=
  ⟨⟨withScrub fun b => { b with running := true }, 0, 31, by decide +kernel⟩,
   ⟨run, 0, 0, by decide +kernel⟩,
   ⟨run, 0, by decide +kernel⟩,
   ⟨withScrub fun b => { b with trump := true }, 0, _, rfl, by decide +kernel⟩,
   ⟨withScrub fun b => { b with active := [767], cursors := [(767, 49151)] }, _, 0, 767, 0, [], rfl, by decide +kernel⟩,
   ⟨withScrub fun b => { b with active := [31] }, _, 0, 31, _, [], rfl, (Option.some_get (by decide +kernel)).symm, by decide +kernel⟩,
   ⟨withDeck fun d => { d with regions := [{ rg with base := 0x8000 }] }, 0, 0, _, 0, (Option.some_get (by decide +kernel)).symm,
    by decide +kernel⟩,
   ⟨withScrub fun b => { b with running := true, total := 1, read := 1 }, 0, _, rfl, by decide +kernel⟩⟩

theorem test_meets_ScrubberEvents_2 :
    (∃ s : State, ∃ n : Fin 8, (getStack s n.val).scrub.running = true ∧ (getStack s n.val).scrub.trump = false
    ∧ 4 * (getStack s n.val).scrub.read < 3 * (getStack s n.val).scrub.total) ∧
    (∃ s : State, ∃ n : Fin 8,
    ((getStack s n.val).scrub.running = false ∨ (getStack s n.val).scrub.trump = true ∨ 3 * (getStack s n.val).scrub.total ≤ 4 * (getStack s n.val).scrub.read)) ∧
    (∃ s : State, ∃ n : Fin 8, (getStack s n.val).scrub.running = true ∧ (getStack s n.val).scrub.late = false) ∧
    (∃ s : State, ∃ n : Fin 8, ((getStack s n.val).scrub.running = false ∨ (getStack s n.val).scrub.late = true)) :=
  ⟨⟨withScrub fun b => { b with running := true, total := 4, read := 2 }, 0, by decide +kernel⟩,
   ⟨run, 0, by decide +kernel⟩,
   ⟨withScrub fun b => { b with running := true }, 0, by decide +kernel⟩,
   ⟨run, 0, by decide +kernel⟩⟩

theorem test_meets_SourceRepairEvents_1 :
    (∃ s : State, ∃ n : Fin 8, ∃ line : Nat, ∃ e : Repair, ∃ r, ∃ a, repairOf s line = some e ∧ e.region = some r ∧ repairSource s e = some a
    ∧ lineStack line = n.val ∧ e.fetching = false ∧ repairHeld s line = false) ∧
    (∃ s : State, ∃ n : Fin 8, ∃ line : Nat, ∃ e : Repair, repairOf s line = some e ∧ lineStack line = n.val ∧ e.fetching = false
    ∧ repairHeld s line = false ∧ repairSource s e = none) ∧
    (∃ s : State, ∃ n : Fin 8, ∃ line : Nat, ∃ e : Repair, repairOf s line = some e ∧ lineStack line = n.val
    ∧ (e.fetching = true ∨ repairHeld s line = true)) ∧
    (∃ s : State, ∃ n : Fin 8, ∃ line : Nat, ∃ e : Repair, repairOf s line = some e ∧ lineStack line = n.val ∧ e.fetching = true) ∧
    (∃ s : State, ∃ line : Nat, ∃ e : Repair, repairOf s line = some e ∧ repairHeld s line = false
    ∧ (getStack s (lineStack e.line)).writeHold = true) ∧
    (∃ s : State, ∃ line : Nat, ∃ e : Repair, repairOf s line = some e ∧ repairHeld s line = false
    ∧ (getStack s (lineStack e.line)).writeHold = false) ∧
    (∃ s : State, ∃ e : Repair, ∃ r : Region, ∃ a : Nat, ∃ line, ∃ t, e.region = some r ∧ repairSource s e = some a
    ∧ t = startDeadline s (.source line) ∧ r.srcKind = 1) ∧
    (∃ s : State, ∃ s1 : State, ∃ line : Nat, ∃ data : Line, ∃ f : Nat, ∃ e : Repair, repairOf s line = some e ∧ repairHeld s line = false
    ∧ (getStack s (lineStack e.line)).writeHold = true) :=
  ⟨⟨{ far with stackMap := [(0, { Stack.empty with repairs := [rp] })] }, 0, 1023, _, _, _, (Option.some_get (by decide +kernel)).symm,
    (Option.some_get (by decide +kernel)).symm, (Option.some_get (by decide +kernel)).symm, by decide +kernel⟩,
   ⟨{ run with stackMap := [(0, { Stack.empty with repairs := [{ rp with region := none }] })] }, 0, 1023, _,
    (Option.some_get (by decide +kernel)).symm, by decide +kernel⟩,
   ⟨{ far with stackMap := [(0, { Stack.empty with repairs := [{ rp with fetching := true }] })] }, 0, 1023, _,
    (Option.some_get (by decide +kernel)).symm, by decide +kernel⟩,
   ⟨{ far with stackMap := [(0, { Stack.empty with repairs := [{ rp with fetching := true }] })] }, 0, 1023, _,
    (Option.some_get (by decide +kernel)).symm, by decide +kernel⟩,
   ⟨withStack fun k => { k with repairs := [rp], writeHold := true }, 1023, _, (Option.some_get (by decide +kernel)).symm, by decide +kernel⟩,
   ⟨{ run with stackMap := [(0, { Stack.empty with repairs := [rp] })] }, 1023, _, (Option.some_get (by decide +kernel)).symm,
    by decide +kernel⟩,
   ⟨farM, { rp with region := some rgM }, _, _, 0, _, (Option.some_get (by decide +kernel)).symm, (Option.some_get (by decide +kernel)).symm,
    rfl, by decide +kernel⟩,
   ⟨withStack fun k => { k with repairs := [rp], writeHold := true }, run, 1023, 0, 3, _, (Option.some_get (by decide +kernel)).symm,
    by decide +kernel⟩⟩

theorem test_meets_SourceRepairEvents_2 :
    (∃ s : State, ∃ s1 : State, ∃ line : Nat, ∃ data : Line, ∃ f : Nat, ∃ e : Repair, repairOf s line = some e
    ∧ rewriteLine s (repairPlace e) line data f = (s1, false) ∧ repairHeld s line = false
    ∧ (getStack s (lineStack e.line)).writeHold = false) ∧
    (∃ s : State, ∃ s1 : State, ∃ line : Nat, ∃ data : Line, ∃ f : Nat, ∃ e : Repair, ∃ p, ∃ t, repairOf s line = some e
    ∧ rewriteLine s (repairPlace e) line data f = (s1, true) ∧ p = repairPlace e
    ∧ t = mediaRecord (logRegion s1 e.region evIntLineRepaired p.stack p.bank p.row (2 ^ p.line) 4) evIntLineRepaired false 6 (dpaOfAddr (lineAddr line))
    ∧ repairHeld s line = false ∧ (getStack s (lineStack e.line)).writeHold = false) ∧
    (∃ s : State, ∃ line : Nat, ∃ r : Region, ∃ a : Nat, regionOf s (lineAddr line) = some r ∧ sourceAddr s r line = some a ∧ r.cls = .source
    ∧ r.srcKind = 1) ∧
    (∃ s : State, ∃ region : Nat, ∃ r : Region, ∃ a : DirAnswer, regionNo s region = some r ∧ sget none s.directory region = some .pending
    ∧ a.size = r.size ∧ a.cls = .source ∧ a.owner = r.owner) ∧
    (∃ s : State, ∃ region : Nat, ∃ r : Region, ∃ a : DirAnswer, regionNo s region = some r ∧ sget none s.directory region = some .pending
    ∧ (a.size ≠ r.size ∨ a.cls ≠ .source ∨ a.owner ≠ r.owner)) ∧
    (∃ s : State, (∀ e ∈ s.directory, e.2 ≠ some .pending)) ∧
    (∃ s : State, ∃ region : Nat, ∃ r : Region, regionNo s region = some r ∧ s.directory = [(region, some .pending)]) :=
  ⟨⟨withStack fun k => { k with repairs := [rp], sparesUsed := [(0, 256)] }, _, 1023, 0, 3, _, (Option.some_get (by decide +kernel)).symm,
    fst_eq (by decide +kernel), by decide +kernel⟩,
   ⟨{ run with stackMap := [(0, { Stack.empty with repairs := [rp] })] }, _, 1023, 0, 0, _, _, _, (Option.some_get (by decide +kernel)).symm,
    fst_eq (by decide +kernel), rfl, rfl, by decide +kernel⟩,
   ⟨farM, 0, _, _, (Option.some_get (by decide +kernel)).symm, (Option.some_get (by decide +kernel)).symm, by decide +kernel⟩,
   ⟨{ run with directory := [(0, some .pending)] }, 0, _, { base := 0, size := 0x10000, cls := .source, owner := 0 },
    (Option.some_get (by decide +kernel)).symm, by decide +kernel⟩,
   ⟨{ run with directory := [(0, some .pending)] }, 0, _, { base := 0, size := 0x10000, cls := .replay, owner := 0 },
    (Option.some_get (by decide +kernel)).symm, by decide +kernel⟩,
   ⟨run, by decide +kernel⟩,
   ⟨{ run with directory := [(0, some .pending)] }, 0, _, (Option.some_get (by decide +kernel)).symm, by decide +kernel⟩⟩

theorem test_meets_PortTraining_1 :
    (∃ s : State, ∃ p : Fin 12, ∃ s1, s1 = setPort s p.val { getPort s p.val with cable := true } ∧ (getPort s p.val).state = .off
    ∧ mayTrain s1 p.val = true) ∧
    (∃ s : State, ∃ p : Fin 12, ∃ s1, s1 = setPort s p.val { getPort s p.val with cable := true } ∧ (getPort s p.val).state = .off
    ∧ mayTrain s1 p.val = false) ∧
    (∃ s : State, ∃ p : Fin 12, ∃ s1, s1 = setPort s p.val { getPort s p.val with cable := true } ∧ (getPort s p.val).state ≠ .off) ∧
    (∃ s : State, ∃ p : Fin 12, (getPort s p.val).state = .training ∧ (getPort s p.val).step = 1) ∧
    (∃ s : State, ∃ p : Fin 12, (getPort s p.val).state = .training ∧ (getPort s p.val).step = 2) ∧
    (∃ s : State, ∃ p : Fin 12, (getPort s p.val).state = .training ∧ (getPort s p.val).step = 3) ∧
    (∃ s : State, ∃ p : Fin 12, (getPort s p.val).state = .training ∧ (getPort s p.val).step = 4) ∧
    (∃ s : State, ∃ p : Fin 12, ∃ u,
    u = expire s (.trainStep p.val) (if (getPort s p.val).step = 2 then 5000000 else if (getPort s p.val).step = 3 then 500000 else 100000)
    ∧ (getPort s p.val).state = .training ∧ 2 ≤ (getPort s p.val).step ∧ (getPort s p.val).attempts < 2) :=
  ⟨⟨net id, 0, _, rfl, by decide +kernel⟩,
   ⟨run, 0, _, rfl, by decide +kernel⟩,
   ⟨net fun q => { q with state := .failed }, 0, _, rfl, by decide +kernel⟩,
   ⟨net fun q => { q with state := .training, step := 1, attempts := 0 }, 0, by decide +kernel⟩,
   ⟨net fun q => { q with state := .training, step := 2, attempts := 0 }, 0, by decide +kernel⟩,
   ⟨net fun q => { q with state := .training, step := 3, attempts := 0 }, 0, by decide +kernel⟩,
   ⟨net fun q => { q with state := .training, step := 4, attempts := 0 }, 0, by decide +kernel⟩,
   ⟨net fun q => { q with state := .training, step := 2, attempts := 1 }, 0, _, rfl, by decide +kernel⟩⟩

theorem test_meets_PortTraining_2 :
    (∃ s : State, ∃ p : Fin 12, ∃ u,
    u = expire s (.trainStep p.val) (if (getPort s p.val).step = 2 then 5000000 else if (getPort s p.val).step = 3 then 500000 else 100000)
    ∧ (getPort s p.val).state = .training ∧ 2 ≤ (getPort s p.val).step ∧ 2 ≤ (getPort s p.val).attempts) ∧
    (∃ s : State, ∃ p : Fin 12, (getPort s p.val).state = .training ∧ (getPort s p.val).step < 2) ∧
    (∃ s : State, ∃ p : Fin 12, ∃ b : TrainBody, ∃ v : Nat × Nat, ∃ t, agreedVersion (trainBody s p.val) b = some v
    ∧ t = joinAgain (startDeadline (setPort s p.val { getPort s p.val with peer := some b, state := .active, step := 6, role := roleOf s p.val % 0xFF, verMajor := v.1, verMinor := v.2, recheckDown := false }) (.flit p.val))
    ∧ (getPort s p.val).state = .training ∧ (getPort s p.val).step = 5 ∧ checkBodies s p.val (trainBody s p.val) b = (.active, none)
    ∧ (getPort s p.val).peer = some b) ∧
    (∃ s : State, ∃ p : Nat, ∃ own : TrainBody, ∃ b : TrainBody, ∃ d : Deck, deckOf s = some d ∧ own.role ≠ 3
    ∧ (agreedVersion own b).isSome = true) ∧
    (∃ s : State, ∃ p : Fin 12, ∃ b : TrainBody, (getPort s p.val).state = .training ∧ (getPort s p.val).step = 5
    ∧ agreedVersion (trainBody s p.val) b = none) ∧
    (∃ own : TrainBody, ∃ peer : TrainBody, ∃ v : Nat × Nat, agreedVersion own peer = some v) :=
  ⟨⟨net fun q => { q with state := .training, step := 2, attempts := 2 }, 0, _, rfl, by decide +kernel⟩,
   ⟨net fun q => { q with state := .training, step := 1, attempts := 0 }, 0, by decide +kernel⟩,
   ⟨net fun q => { q with state := .training, step := 5, attempts := 0, peer := some tb }, 0, tb, _, _,
    (Option.some_get (by decide +kernel)).symm, rfl, by decide +kernel⟩,
   ⟨net id, 0, tb, { tb with module := 2 }, _, (Option.some_get (by decide +kernel)).symm, by decide +kernel⟩,
   ⟨net fun q => { q with state := .training, step := 5, attempts := 0 }, 0, { tb with majorMin := 2, majorMax := 2 }, by decide +kernel⟩,
   ⟨tb, { tb with majorMax := 2 }, _, (Option.some_get (by decide +kernel)).symm⟩⟩

theorem test_meets_LinkEvents_1 :
    (∃ s : State, ∃ p : Fin 12, ∃ f : Flit, readsFlits (getPort s p.val) = false) ∧
    (∃ s : State, ∃ p : Fin 12, ∃ f : Flit, readsFlits (getPort s p.val) = true ∧ goodFlit f = none) ∧
    (∃ f : Flit, ∃ bs : List Byte, goodFlit f = some bs) ∧
    (∃ s : State, ∃ t : State, ∃ p : Fin 12, ∃ f : Flit, ∃ bs : List Byte, ∃ c, goodFlit f = some bs
    ∧ c = (if f.errors = [] then getPort s p.val else { getPort s p.val with corrected := satInc 0xFFFFFFFF (getPort s p.val).corrected })
    ∧ t = (if c.state = .active then startDeadline (setPort s p.val c) (.flit p.val) else setPort s p.val c)
    ∧ readsFlits (getPort s p.val) = true ∧ c ≠ Port.off ∧ allPadding c bs = true) ∧
    (∃ s : State, ∃ t : State, ∃ p : Fin 12, ∃ f : Flit, ∃ bs : List Byte, ∃ c, ∃ u, goodFlit f = some bs
    ∧ c = (if f.errors = [] then getPort s p.val else { getPort s p.val with corrected := satInc 0xFFFFFFFF (getPort s p.val).corrected })
    ∧ t = (if c.state = .active then startDeadline (setPort s p.val c) (.flit p.val) else setPort s p.val c)
    ∧ u = takeHeader (setPort t p.val { c with rxNext := c.rxNext + 1, rxWait := false, ackDue := true }) p.val bs
    ∧ readsFlits (getPort s p.val) = true ∧ c ≠ Port.off ∧ allPadding c bs = false ∧ flitSeq bs = c.rxNext) ∧
    (∃ s : State, ∃ t : State, ∃ p : Fin 12, ∃ f : Flit, ∃ bs : List Byte, ∃ c, goodFlit f = some bs
    ∧ c = (if f.errors = [] then getPort s p.val else { getPort s p.val with corrected := satInc 0xFFFFFFFF (getPort s p.val).corrected })
    ∧ t = (if c.state = .active then startDeadline (setPort s p.val c) (.flit p.val) else setPort s p.val c)
    ∧ readsFlits (getPort s p.val) = true ∧ c ≠ Port.off ∧ allPadding c bs = false ∧ flitSeq bs ≠ c.rxNext
    ∧ (c.rxWait = true ∨ seenBefore c (flitSeq bs) = true)) ∧
    (∃ s : State, ∃ t : State, ∃ p : Fin 12, ∃ f : Flit, ∃ bs : List Byte, ∃ c, goodFlit f = some bs
    ∧ c = (if f.errors = [] then getPort s p.val else { getPort s p.val with corrected := satInc 0xFFFFFFFF (getPort s p.val).corrected })
    ∧ t = (if c.state = .active then startDeadline (setPort s p.val c) (.flit p.val) else setPort s p.val c)
    ∧ readsFlits (getPort s p.val) = true ∧ c ≠ Port.off ∧ allPadding c bs = false ∧ flitSeq bs ≠ c.rxNext ∧ c.rxWait = false
    ∧ seenBefore c (flitSeq bs) = false) ∧
    (∃ s : State, ∃ p : Fin 12, ∃ t, t = expire s (.flit p.val) 1000 ∧ (getPort s p.val).state = .active ∧ (getPort t p.val).state = .active) :=
  ⟨⟨net id, 0, fl 0 padding 0, by decide +kernel⟩,
   ⟨net fun q => { q with state := .active }, 0, fl 0 padding 7, by decide +kernel⟩,
   ⟨fl 0 credits 6, _, (Option.some_get (by decide +kernel)).symm⟩,
   ⟨net fun q => { q with state := .active }, _, 0, fl 0 padding 1, _, _, (Option.some_get (by decide +kernel)).symm, rfl, rfl,
    by decide +kernel⟩,
   ⟨net fun q => { q with state := .active }, _, 0, fl 0 credits 0, _, _, _, (Option.some_get (by decide +kernel)).symm, rfl, rfl, rfl,
    by decide +kernel⟩,
   ⟨net fun q => { q with state := .active }, _, 0, fl 1023 credits 0, _, _, (Option.some_get (by decide +kernel)).symm, rfl, rfl,
    by decide +kernel⟩,
   ⟨net fun q => { q with state := .active }, _, 0, fl 1 credits 0, _, _, (Option.some_get (by decide +kernel)).symm, rfl, rfl,
    by decide +kernel⟩,
   ⟨net fun q => { q with state := .active }, 0, _, rfl, by decide +kernel⟩⟩

theorem test_meets_LinkEvents_2 :
    (∃ s : State, ∃ p : Fin 12, (getPort s p.val).state ≠ .active) ∧
    (∃ q : Port, ∃ ack : BitVec 10, ∃ pre : List RetFlit, ∃ rest : List RetFlit, ∃ r : RetFlit, q.retain = pre ++ r :: rest ∧ r.seq = ack
    ∧ (∀ x ∈ pre, x.seq ≠ ack)) ∧
    (∃ s : State, ∃ p : Nat, ∃ r : RetFlit, ∃ rest : List RetFlit, (getPort s p).retain = r :: rest ∧ r.replays < 3) ∧
    (∃ s : State, ∃ p : Nat, ∃ r : RetFlit, ∃ rest : List RetFlit, (getPort s p).retain = r :: rest ∧ 3 ≤ r.replays) :=
  ⟨⟨run, 0, by decide +kernel⟩,
   ⟨{ Port.off with retain := [rf 1023 0, rf 0 0] }, 0, [rf 1023 0], [], rf 0 0, by decide +kernel⟩,
   ⟨net fun q => { q with retain := [rf 0 2] }, 0, rf 0 2, [], by decide +kernel⟩,
   ⟨net fun q => { q with retain := [rf 0 3] }, 0, rf 0 3, [], by decide +kernel⟩⟩

theorem test_meets_StreamFrames_1 :
    (∃ s : State, ∃ hdr : FrameHdr, ∃ stream : Nat, ∃ off : Nat, ∃ n : Nat, ∃ data : List Byte, ∃ mask : List Bool, ∃ e : StreamEntry, ∃ bs,
    ∃ s1, streamFor s hdr stream 2 = some e
    ∧ (bs = (data.zip (List.range data.length)).map (fun x => (off + x.2, x.1, hdr.poison && ((mask[x.2 / 4]?).getD false))))
    ∧ s1 = landBytes s (coreOfField e.consumer) bs ∧ hdr.gen = s.gen ∧ off + data.length ≤ scratchBytes ∧ n ≠ 0) ∧
    (∃ s : State, ∃ hdr : FrameHdr, ∃ stream : Nat, ∃ off : Nat, ∃ n : Nat, ∃ data : List Byte, ∃ mask : List Bool, ∃ e : StreamEntry,
    streamFor s hdr stream 2 = some e ∧ hdr.gen ≠ s.gen) ∧
    (∃ s : State, ∃ hdr : FrameHdr, ∃ stream : Nat, ∃ n : Nat, ∃ e : StreamEntry, streamFor s hdr stream 1 = some e ∧ hdr.gen = s.gen
    ∧ hdr.poison = false) ∧
    (∃ s : State, ∃ hdr : FrameHdr, ∃ stream : Nat, ∃ n : Nat, ∃ e : StreamEntry, ∃ t, streamFor s hdr stream 1 = some e
    ∧ t = poisonStop s none e ∧ hdr.gen = s.gen ∧ hdr.poison = true) ∧
    (∃ s : State, ∃ hdr : FrameHdr, ∃ stream : Nat, ∃ code : W32, ∃ e : StreamEntry, streamEither s hdr stream = some e ∧ hdr.gen = s.gen
    ∧ hdr.poison = false ∧ (getStream s stream).stopped = true) ∧
    (∃ s : State, ∃ hdr : FrameHdr, ∃ stream : Nat, ∃ code : W32, ∃ e : StreamEntry, ∃ t, streamEither s hdr stream = some e
    ∧ t = setStream s stream { getStream s stream with stopped := true } ∧ hdr.gen = s.gen ∧ hdr.poison = false
    ∧ (getStream s stream).stopped = false ∧ (∀ c ∈ s.cores, c.2.wait ≠ .credits stream)) ∧
    (∃ s : State, ∃ hdr : FrameHdr, ∃ stream : Nat, ∃ code : W32, ∃ e : StreamEntry, ∃ t, streamEither s hdr stream = some e
    ∧ t = setStream s stream { getStream s stream with stopped := true } ∧ hdr.gen = s.gen ∧ hdr.poison = false
    ∧ (getStream s stream).stopped = false ∧ (∃ c ∈ s.cores, c.2.wait = .credits stream)) ∧
    (∃ s : State, ∃ hdr : FrameHdr, ∃ stream : Nat, ∃ count : W32, ∃ epoch : W32, ∃ e : StreamEntry, streamFor s hdr stream 2 = some e
    ∧ hdr.gen = s.gen ∧ hdr.poison = false) :=
  ⟨⟨run, fh, 2, 0x2FFFC, 1, [1, 2, 3, 4], [], _, _, _, (Option.some_get (by decide +kernel)).symm, rfl, rfl, by decide +kernel⟩,
   ⟨run, { fh with gen := 1 }, 2, 0, 0, [], [], _, (Option.some_get (by decide +kernel)).symm, by decide +kernel⟩,
   ⟨run, fh, 1, 0, _, (Option.some_get (by decide +kernel)).symm, by decide +kernel⟩,
   ⟨run, { fh with poison := true }, 1, 0, _, _, (Option.some_get (by decide +kernel)).symm, rfl, by decide +kernel⟩,
   ⟨{ run with streams := [(1, { strm with stopped := true })] }, fh, 1, 0, _, (Option.some_get (by decide +kernel)).symm, by decide +kernel⟩,
   ⟨run, fh, 2, 0, _, _, (Option.some_get (by decide +kernel)).symm, rfl, by decide +kernel⟩,
   ⟨withCore fun c => { c with wait := .credits 2 }, fh, 2, 0, _, _, (Option.some_get (by decide +kernel)).symm, rfl, by decide +kernel⟩,
   ⟨run, fh, 2, 0, 0, _, (Option.some_get (by decide +kernel)).symm, by decide +kernel⟩⟩

theorem test_meets_StreamFrames_2 :
    (∃ s : State, ∃ hdr : FrameHdr, ∃ stream : Nat, ∃ count : W32, ∃ epoch : W32, ∃ e : StreamEntry, streamFor s hdr stream 2 = some e
    ∧ hdr.gen = s.gen ∧ hdr.poison = true) ∧
    (∃ s : State, ∃ hdr : FrameHdr, ∃ stream : Nat, ∃ n : Nat, ∃ code : W32, ∃ count : W32, ∃ epoch : W32, ∃ t,
    t = { s with genLateDrops := satInc 0xFFFF s.genLateDrops } ∧ hdr.gen ≠ s.gen) ∧
    (∃ s : State, ∃ p : Nat, ∃ hdr : FrameHdr, ∃ stream : Nat, ∃ off : Nat, ∃ n : Nat, ∃ data : List Byte, ∃ mask : List Bool, hdr.gen = s.gen
    ∧ (streamFor s hdr stream 2 = none ∨ scratchBytes < off + data.length)) :=
  ⟨⟨run, { fh with poison := true }, 2, 0, 0, _, (Option.some_get (by decide +kernel)).symm, by decide +kernel⟩,
   ⟨run, { fh with gen := 1 }, 0, 0, 0, 0, 0, _, rfl, by decide +kernel⟩,
   ⟨run, 0, fh, 0, 0x2FFFD, 0, [1, 2, 3, 4], [], by decide +kernel⟩⟩

theorem test_meets_MemoryFrames_1 :
    (∃ s : State, ∃ p : Fin 12, ∃ hdr : FrameHdr, ∃ tag : Nat, ∃ addr : Nat, ∃ len : Nat, ∃ r : Region, ∃ n,
    memRegion s hdr addr len .source = some r
    ∧ (n = 64 * (((List.range (len / 64)).map (addr / 64 + ·)).filter fun l => (kittyGet s l).isNone).length)
    ∧ (n = 0 ∨ canCharge s r.owner (addrStack addr) n = true)) ∧
    (∃ s : State, ∃ p : Fin 12, ∃ hdr : FrameHdr, ∃ tag : Nat, ∃ addr : Nat, ∃ len : Nat, ∃ r : Region, ∃ n,
    memRegion s hdr addr len .source = some r
    ∧ (n = 64 * (((List.range (len / 64)).map (addr / 64 + ·)).filter fun l => (kittyGet s l).isNone).length) ∧ n ≠ 0
    ∧ canCharge s r.owner (addrStack addr) n = false) ∧
    (∃ s : State, ∃ hdr : FrameHdr, ∃ addr : Nat, ∃ len : Nat, ∃ c : RecClass, ∃ r : Region, memRegion s hdr addr len c = some r) ∧
    (∃ s : State, ∃ p : Fin 12, ∃ hdr : FrameHdr, ∃ tag : Nat, ∃ addr : Nat, ∃ len : Nat, ∃ data : List Byte, ∃ mask : List Bool,
    memRegion s hdr addr len .source = none) ∧
    (∃ s : State, ∃ p : Fin 12, ∃ hdr : FrameHdr, ∃ tag : Nat, ∃ addr : Nat, ∃ len : Nat, ∃ data : List Byte, ∃ mask : List Bool,
    memRegion s hdr addr data.length .recompute = none) ∧
    (∃ s : State, ∃ p : Fin 12, ∃ hdr : FrameHdr, ∃ tag : Nat, ∃ addr : Nat, ∃ data : List Byte, ∃ mask : List Bool, ∃ r : Region,
    ∃ e : WcbEntry, memRegion s hdr addr 64 .recompute = some r
    ∧ e = { line := addr / 64, data := lineOfBytes data, mask := fullMask, poison := if hdr.poison then wordMask (mask.take 16) else 0, sender := .fabric hdr.src tag hdr.gen }
    ∧ r.hostShared = false ∧ data.length = 64 ∧ (hostHolds s (lineDpa (addr / 64))).isSome = true) ∧
    (∃ s : State, ∃ p : Fin 12, ∃ hdr : FrameHdr, ∃ tag : Nat, ∃ addr : Nat, ∃ data : List Byte, ∃ mask : List Bool, ∃ r : Region,
    ∃ e : WcbEntry, memRegion s hdr addr 64 .recompute = some r
    ∧ e = { line := addr / 64, data := lineOfBytes data, mask := fullMask, poison := if hdr.poison then wordMask (mask.take 16) else 0, sender := .fabric hdr.src tag hdr.gen }
    ∧ r.hostShared = false ∧ data.length = 64 ∧ hostHolds s (lineDpa (addr / 64)) = none ∧ (kittyGet s (addr / 64)).isSome = true) ∧
    (∃ s : State, ∃ p : Fin 12, ∃ hdr : FrameHdr, ∃ tag : Nat, ∃ addr : Nat, ∃ data : List Byte, ∃ mask : List Bool, ∃ r : Region,
    ∃ e : WcbEntry, memRegion s hdr addr 64 .recompute = some r
    ∧ e = { line := addr / 64, data := lineOfBytes data, mask := fullMask, poison := if hdr.poison then wordMask (mask.take 16) else 0, sender := .fabric hdr.src tag hdr.gen }
    ∧ r.hostShared = false ∧ data.length = 64 ∧ hostHolds s (lineDpa (addr / 64)) = none ∧ kittyGet s (addr / 64) = none
    ∧ lineCharges s (addr / 64) = true) :=
  ⟨⟨run, 0, fh, 0, 0xFE00, 512, _, _, (Option.some_get (by decide +kernel)).symm, rfl, by decide +kernel⟩,
   ⟨{ dry with regs := [(0, { Regulator.off with enable := true, depth := 600, level := 511 })] }, 0, fh, 0, 0, 512, _, _,
    (Option.some_get (by decide +kernel)).symm, rfl, by decide +kernel⟩,
   ⟨withReg rgC, fh, 0, 64, .recompute, _, (Option.some_get (by decide +kernel)).symm⟩,
   ⟨run, 0, fh, 0, 0xFE40, 512, [], [], by decide +kernel⟩,
   ⟨run, 0, fh, 0, 0, 0, List.replicate 64 0, [], by decide +kernel⟩,
   ⟨{ withReg rgC with host := { run.host with snoop := [(0, true)] } }, 0, fh, 0, 0, List.replicate 64 0, [], _, _,
    (Option.some_get (by decide +kernel)).symm, rfl, by decide +kernel⟩,
   ⟨{ withReg rgC with kitty := [(0, some kl)] }, 0, fh, 0, 0, List.replicate 64 0, [], _, _, (Option.some_get (by decide +kernel)).symm,
    rfl, by decide +kernel⟩,
   ⟨withReg rgC, 0, fh, 0, 0, List.replicate 64 0, [], _, _, (Option.some_get (by decide +kernel)).symm, rfl, by decide +kernel⟩⟩

theorem test_meets_MemoryFrames_2 :
    (∃ s : State, ∃ hdr : FrameHdr, ∃ tag : Nat, ∃ st : Nat, ∃ d : Nat, ∃ data : List Byte, ∃ mask : List Bool,
    (takeFirst (fun e : Nat × Nat => e = (hdr.src, tag)) s.fabTags = none)) ∧
    (∃ s : State, ∃ s1 : State, ∃ hdr : FrameHdr, ∃ tag : Nat, ∃ d : Nat, ∃ data : List Byte, ∃ mask : List Bool, ∃ x : Nat × Nat,
    ∃ rest : List (Nat × Nat), ∃ r : Repair, s1 = { s with fabTags := rest } ∧ repairOfTag s1 hdr.src tag = some r
    ∧ (takeFirst (fun e : Nat × Nat => e = (hdr.src, tag)) s.fabTags = some (x, rest)) ∧ hdr.gen = s.gen ∧ hdr.poison = false
    ∧ data.length = 64) ∧
    (∃ s : State, ∃ s1 : State, ∃ hdr : FrameHdr, ∃ tag : Nat, ∃ d : Nat, ∃ data : List Byte, ∃ mask : List Bool, ∃ x : Nat × Nat,
    ∃ rest : List (Nat × Nat), ∃ r : Repair, s1 = { s with fabTags := rest } ∧ repairOfTag s1 hdr.src tag = some r
    ∧ (takeFirst (fun e : Nat × Nat => e = (hdr.src, tag)) s.fabTags = some (x, rest)) ∧ hdr.gen = s.gen
    ∧ (hdr.poison = true ∨ data.length ≠ 64)) ∧
    (∃ s : State, ∃ s1 : State, ∃ hdr : FrameHdr, ∃ tag : Nat, ∃ d : Nat, ∃ data : List Byte, ∃ mask : List Bool, ∃ x : Nat × Nat,
    ∃ rest : List (Nat × Nat), ∃ r : Repair, s1 = { s with fabTags := rest } ∧ repairOfTag s1 hdr.src tag = some r
    ∧ (takeFirst (fun e : Nat × Nat => e = (hdr.src, tag)) s.fabTags = some (x, rest)) ∧ hdr.gen ≠ s.gen) ∧
    (∃ s : State, ∃ s1 : State, ∃ hdr : FrameHdr, ∃ tag : Nat, ∃ st : Nat, ∃ x : Nat × Nat, ∃ rest : List (Nat × Nat), ∃ j : PrefillJob,
    ∃ j1 : PrefillJob, ∃ mine : Nat × Nat × Nat × Nat × Nat → Bool, (mine = (fun a => decide (a.1 = tag) && decide (a.2.2.2.2 = hdr.src)))
    ∧ s1 = { s with fabTags := rest } ∧ (j1 = { j with acks := j.acks.filter fun a => !mine a, failed := j.failed || decide (st ≠ 0) })
    ∧ (takeFirst (fun e : Nat × Nat => e = (hdr.src, tag)) s.fabTags = some (x, rest))
    ∧ ((s.cache.jobs.find? fun j => j.acks.any mine) = some j) ∧ hdr.gen = s.gen) ∧
    (∃ s : State, ∃ j : PrefillJob, ∃ d : Deck, deckOf s = some d ∧ (j.shipping = false ∨ j.acks ≠ [])) ∧
    (∃ s : State, ∃ j : PrefillJob, ∃ d : Deck, deckOf s = some d ∧ j.shipping = true ∧ j.acks = [] ∧ isDealer s = true) ∧
    (∃ s : State, ∃ j : PrefillJob, ∃ d : Deck, deckOf s = some d ∧ j.shipping = true ∧ j.acks = [] ∧ isDealer s = false) :=
  ⟨⟨run, fh, 0, 0, 0, [], [], by decide +kernel⟩,
   ⟨asked, _, fh, 5, 0, List.replicate 64 0, [], (1, 5), [], _, rfl, (Option.some_get (by decide +kernel)).symm, by decide +kernel⟩,
   ⟨asked, _, { fh with poison := true }, 5, 0, [], [], (1, 5), [], _, rfl, (Option.some_get (by decide +kernel)).symm, by decide +kernel⟩,
   ⟨asked, _, { fh with gen := 1 }, 5, 0, [], [], (1, 5), [], _, rfl, (Option.some_get (by decide +kernel)).symm, by decide +kernel⟩,
   ⟨{ run with fabTags := [(1, 5)], cache := { run.cache with jobs := [job2] } }, _, fh, 5, 0, (1, 5), [], job2, _, _, rfl, rfl, rfl,
    by decide +kernel⟩,
   ⟨run, job, _, (Option.some_get (by decide +kernel)).symm, by decide +kernel⟩,
   ⟨run, { job with shipping := true, acks := [] }, _, (Option.some_get (by decide +kernel)).symm, by decide +kernel⟩,
   ⟨mem, { job with shipping := true, acks := [] }, _, (Option.some_get (by decide +kernel)).symm, by decide +kernel⟩⟩

theorem test_meets_SpanFrames_1 :
    (∃ s : State, ∃ hdr : FrameHdr, ∃ slot : Nat, ∃ group : W32, ∃ epoch : W32, fabricGroup s = some group ∧ slot = 0 ∧ hdr.gen = s.gen
    ∧ hdr.poison = false ∧ spanningSlot s slot = true ∧ epoch = (getTrick s slot).epoch) ∧
    (∃ s : State, ∃ hdr : FrameHdr, ∃ slot : Nat, ∃ group : W32, ∃ epoch : W32, ∃ d, ∃ e, fabricGroup s = some group ∧ deckOf s = some d
    ∧ trickEntry s slot = some e ∧ hdr.gen = s.gen ∧ hdr.poison = false ∧ spanningSlot s slot = true ∧ epoch = (getTrick s slot).epoch
    ∧ slot ≠ 0) ∧
    (∃ s : State, ∃ hdr : FrameHdr, ∃ slot : Nat, ∃ group : W32, ∃ epoch : W32, ∃ ev, ∃ args, ∃ t, fabricGroup s = some group
    ∧ ((hdr.poison = true ∧ ev = evSynMsgPoison ∧ args = [w32 slot]) ∨ (hdr.poison = false ∧ spanningSlot s slot = false ∧ ev = evSynSpanUnknown ∧ args = [w32 slot]) ∨ (hdr.poison = false ∧ spanningSlot s slot = true ∧ epoch ≠ (getTrick s slot).epoch ∧ ev = evSynSpanEpoch ∧ args = [w32 slot, epoch, (getTrick s slot).epoch]))
    ∧ t = requestAbort (logGen s ev (uCluster (slotCluster s slot)) ((trickEntry s slot).map (·.table)) args []) (ev.word (uCluster (slotCluster s slot)))
    ∧ hdr.gen = s.gen) ∧
    (∃ s : State, ∃ hdr : FrameHdr, ∃ slot : Nat, ∃ group : W32, ∃ epoch : W32, ∃ t,
    t = { s with genLateDrops := satInc 0xFFFF s.genLateDrops, spanLateDrops := satInc 0xFFFF s.spanLateDrops } ∧ hdr.gen ≠ s.gen) ∧
    (∃ s : State, ∃ hdr : FrameHdr, ∃ p : Nat, ∃ d : Deck, deckOf s = some d ∧ hdr.src = dealerIndex s d ∧ p < 12 ∧ hdr.poison = false
    ∧ (getPort s p).state = .quarantined) ∧
    (∃ s : State, ∃ hdr : FrameHdr, ∃ p : Nat, ∃ d : Deck, deckOf s = some d ∧ hdr.src = dealerIndex s d ∧ p < 12
    ∧ (getPort s p).state ≠ .quarantined) ∧
    (∃ s : State, ∃ hdr : FrameHdr, ∃ p : Nat, ∃ target : Nat,
    (deckOf s = none ∨ hdr.poison = true ∨ target ≠ ownIndex s ∨ 12 ≤ p ∨ (∃ d, deckOf s = some d ∧ hdr.src ≠ dealerIndex s d))) ∧
    (∃ s : State, ∃ hdr : FrameHdr, ∃ packet : List Byte, hdr.dest = ownIndex s ∧ (hdr.poison = true ∨ fieldAt packet 4 1 ≠ 0x7E)) :=
  ⟨⟨run, fh, _, _, 0, (Option.some_get (by decide +kernel)).symm, rfl, by decide +kernel⟩,
   ⟨run, fh, 64, _, 0, _, _, (Option.some_get (by decide +kernel)).symm, (Option.some_get (by decide +kernel)).symm,
    (Option.some_get (by decide +kernel)).symm, by decide +kernel⟩,
   ⟨run, { fh with poison := true }, 0, _, 0, evSynMsgPoison, [w32 0], _, (Option.some_get (by decide +kernel)).symm, .inl ⟨rfl, rfl, rfl⟩,
    rfl, by decide +kernel⟩,
   ⟨run, { fh with gen := 1 }, 0, 0, 0, _, rfl, by decide +kernel⟩,
   ⟨{ mem with ports := [(11, { Port.off with state := .quarantined })] }, { fh with src := 0 }, 11, _,
    (Option.some_get (by decide +kernel)).symm, by decide +kernel⟩,
   ⟨mem, { fh with src := 0 }, 11, _, (Option.some_get (by decide +kernel)).symm, by decide +kernel⟩,
   ⟨up, fh, 0, 0, .inl rfl⟩,
   ⟨run, fh, [], by decide +kernel⟩⟩

theorem test_meets_SpanFrames_2 :
    (∃ s : State, ∃ hdr : FrameHdr, ∃ packet : List Byte, ∃ t, ∃ b,
    (t = { s with mctpParts := s.mctpParts.filter fun e => !(e.1 = hdr.src && e.2.1 = fieldAt packet 7 1) })
    ∧ messageBody (fieldAt packet 7 1) (packet.drop 8) = some b ∧ hdr.dest = ownIndex s ∧ hdr.poison = false ∧ fieldAt packet 4 1 = 0x7E
    ∧ bitOf (fieldAt packet 3 1) 7 = true ∧ bitOf (fieldAt packet 3 1) 6 = true) ∧
    (∃ s : State, ∃ hdr : FrameHdr, ∃ packet : List Byte, ∃ t,
    (t = { s with mctpParts := s.mctpParts.filter fun e => !(e.1 = hdr.src && e.2.1 = fieldAt packet 7 1) }) ∧ hdr.dest = ownIndex s
    ∧ hdr.poison = false ∧ fieldAt packet 4 1 = 0x7E ∧ bitOf (fieldAt packet 3 1) 7 = true ∧ bitOf (fieldAt packet 3 1) 6 = false) ∧
    (∃ s : State, ∃ hdr : FrameHdr, ∃ packet : List Byte, hdr.dest ≠ ownIndex s) :=
  ⟨⟨run, fh, [1, 0, 0, 0xC8, 0x7E, 0, 0, 3], _, _, rfl, (Option.some_get (by decide +kernel)).symm, by decide +kernel⟩,
   ⟨run, fh, [1, 0, 0, 0x88, 0x7E, 0, 0, 3], _, rfl, by decide +kernel⟩,
   ⟨run, { fh with dest := 1 }, [], by decide +kernel⟩⟩

theorem test_meets_DealerMessages_1 :
    (∃ s : State, ∃ s1 : State, ∃ hdr : FrameHdr, ∃ group : W32, ∃ round : W32, ∃ d : Deck, switchDeck s = some d
    ∧ s1 = forwardDown s hdr (.roundMark group round) ∧ hdr.poison = false ∧ group = d.role.group ∧ fromDealer s d hdr.src = true
    ∧ hdr.gen = s.gen ∧ aheadOf round s.lastRound = true ∧ s.ctl.awaitAlign = false ∧ isDealer s = false
    ∧ (getRound s1 hdr.table).isOpen = false ∧ marksHeld s1 = false) ∧
    (∃ s : State, ∃ s1 : State, ∃ hdr : FrameHdr, ∃ group : W32, ∃ round : W32, ∃ d : Deck, switchDeck s = some d
    ∧ s1 = forwardDown s hdr (.roundMark group round) ∧ hdr.poison = false ∧ group = d.role.group ∧ fromDealer s d hdr.src = true
    ∧ hdr.gen = s.gen ∧ aheadOf round s.lastRound = true ∧ s.ctl.awaitAlign = false ∧ isDealer s = false
    ∧ ((getRound s1 hdr.table).isOpen = true ∨ marksHeld s1 = true)) ∧
    (∃ s : State, ∃ s1 : State, ∃ hdr : FrameHdr, ∃ group : W32, ∃ round : W32, ∃ d : Deck, switchDeck s = some d
    ∧ s1 = forwardDown s hdr (.roundMark group round) ∧ hdr.poison = false ∧ group = d.role.group ∧ fromDealer s d hdr.src = true
    ∧ (hdr.gen ≠ s.gen ∨ aheadOf round s.lastRound = false ∨ s.ctl.awaitAlign = true ∨ isDealer s = true)) ∧
    (∃ s : State, ∃ hdr : FrameHdr, ∃ group : W32, ∃ code : W32, ∃ d : Deck, deckOf s = some d ∧ hdr.dest = ownIndex s ∧ hdr.poison = false
    ∧ group = d.role.group ∧ hdr.gen = s.gen ∧ isDealer s = true) ∧
    (∃ s : State, ∃ hdr : FrameHdr, ∃ group : W32, ∃ code : W32, ∃ d : Deck, deckOf s = some d ∧ hdr.dest = ownIndex s ∧ hdr.poison = false
    ∧ group = d.role.group ∧ hdr.gen = s.gen ∧ isDealer s = false ∧ ownIndex s = d.role.successor ∧ s.ctl.probing = false) ∧
    (∃ s : State, ∃ hdr : FrameHdr, ∃ group : W32, ∃ code : W32, ∃ d : Deck, deckOf s = some d ∧ hdr.dest = ownIndex s ∧ hdr.poison = false
    ∧ group = d.role.group ∧ hdr.gen = s.gen ∧ isDealer s = false ∧ ownIndex s = d.role.successor ∧ s.ctl.probing = true) ∧
    (∃ s : State, ∃ hdr : FrameHdr, ∃ group : W32, ∃ code : W32, hdr.dest ≠ ownIndex s) ∧
    (∃ s : State, ∃ s1 : State, ∃ hdr : FrameHdr, ∃ origin : Nat, ∃ group : W32, ∃ code : W32, ∃ d : Deck, switchDeck s = some d
    ∧ s1 = (learnDealer s d hdr.src).1 ∧ hdr.poison = false ∧ group = d.role.group ∧ fromSuccessor s d hdr.src = true
    ∧ (hdr.gen = s1.gen ∨ isDealer s1 = true)) :=
  ⟨⟨mem, _, { fh with src := 0 }, 7, 0x7FFFFFFF, _, (Option.some_get (by decide +kernel)).symm, rfl, by decide +kernel⟩,
   ⟨{ mem with rounds := [(0, opened)] }, _, { fh with src := 0 }, 7, 1, _, (Option.some_get (by decide +kernel)).symm, rfl,
    by decide +kernel⟩,
   ⟨mem, _, { fh with src := 0 }, 7, 0x80000000, _, (Option.some_get (by decide +kernel)).symm, rfl, by decide +kernel⟩,
   ⟨run, fh, 7, 0, _, (Option.some_get (by decide +kernel)).symm, by decide +kernel⟩,
   ⟨mem, { fh with dest := 1 }, 7, 0, _, (Option.some_get (by decide +kernel)).symm, by decide +kernel⟩,
   ⟨withCtl mem fun c => { c with probing := true }, { fh with dest := 1 }, 7, 0, _, (Option.some_get (by decide +kernel)).symm,
    by decide +kernel⟩,
   ⟨run, { fh with dest := 1 }, 0, 0, by decide +kernel⟩,
   ⟨mem, _, { fh with src := 0 }, 0, 7, 0, _, (Option.some_get (by decide +kernel)).symm, rfl, by decide +kernel⟩⟩

theorem test_meets_DealerMessages_2 :
    (∃ s : State, ∃ s1 : State, ∃ hdr : FrameHdr, ∃ origin : Nat, ∃ group : W32, ∃ code : W32, ∃ d : Deck, ∃ s2, switchDeck s = some d
    ∧ s1 = (learnDealer s d hdr.src).1
    ∧ (s2 = openHeld (modCtl (adoptAbort (forwardDown s1 hdr (.abort origin group code)) hdr.gen code) fun c => { c with probing := false, probesMissed := 0 }))
    ∧ hdr.poison = false ∧ group = d.role.group ∧ fromSuccessor s d hdr.src = true ∧ hdr.gen ≠ s1.gen ∧ isDealer s1 = false) ∧
    (∃ s : State, ∃ s1 : State, ∃ s2 : State, ∃ hdr : FrameHdr, ∃ group : W32, ∃ serial : W32, ∃ code : W32, ∃ d : Deck, ∃ a,
    switchDeck s = some d ∧ s1 = forwardDown s hdr (.switchAnnounce group serial) ∧ s2 = forwardDown s hdr (.switchCancel group code)
    ∧ s1.loader.armed = some a ∧ hdr.poison = false ∧ group = d.role.group ∧ fromDealer s d hdr.src = true ∧ s1.loader.phase = .none
    ∧ a.id.serial = serial) ∧
    (∃ s : State, ∃ s1 : State, ∃ s2 : State, ∃ hdr : FrameHdr, ∃ group : W32, ∃ serial : W32, ∃ code : W32, ∃ d : Deck, ∃ a,
    switchDeck s = some d ∧ s1 = forwardDown s hdr (.switchAnnounce group serial) ∧ s2 = forwardDown s hdr (.switchCancel group code)
    ∧ s1.loader.armed = some a ∧ hdr.poison = false ∧ group = d.role.group ∧ fromDealer s d hdr.src = true ∧ s1.loader.phase = .none
    ∧ a.id.serial ≠ serial) ∧
    (∃ s : State, ∃ hdr : FrameHdr, ∃ group : W32, ∃ serial : W32, ∃ code : W32, ∃ round : W32, ∃ origin : Nat, ∃ d : Deck, ∃ t,
    switchDeck s = some d ∧ t = logGen s evSynMsgPoison (uCluster 0) none [] [] ∧ hdr.poison = true) ∧
    (∃ s : State, ∃ hdr : FrameHdr, ∃ group : W32, ∃ serial : W32, ∃ code : W32, ∃ round : W32, ∃ origin : Nat, ∃ d : Deck,
    switchDeck s = some d ∧ hdr.poison = false ∧ (group ≠ d.role.group ∨ fromSuccessor s d hdr.src = false)) ∧
    (∃ s : State, ∃ hdr : FrameHdr, ∃ group : W32, ∃ serial : W32, ∃ code : W32, ∃ round : W32, ∃ origin : Nat, ∃ d : Deck,
    switchDeck s = some d ∧ hdr.poison = false ∧ (group ≠ d.role.group ∨ fromDealer s d hdr.src = false)) :=
  ⟨⟨mem, _, { fh with src := 0, gen := 1 }, 0, 7, 0, _, _, (Option.some_get (by decide +kernel)).symm, rfl, rfl, by decide +kernel⟩,
   ⟨armd, _, _, { fh with src := 0 }, 7, 1, 0, _, _, (Option.some_get (by decide +kernel)).symm, rfl, rfl,
    (Option.some_get (by decide +kernel)).symm, by decide +kernel⟩,
   ⟨armd, _, _, { fh with src := 0 }, 7, 2, 0, _, _, (Option.some_get (by decide +kernel)).symm, rfl, rfl,
    (Option.some_get (by decide +kernel)).symm, by decide +kernel⟩,
   ⟨mem, { fh with src := 0, poison := true }, 0, 0, 0, 0, 0, _, _, (Option.some_get (by decide +kernel)).symm, rfl, by decide +kernel⟩,
   ⟨mem, { fh with src := 0 }, 8, 0, 0, 0, 0, _, (Option.some_get (by decide +kernel)).symm, by decide +kernel⟩,
   ⟨mem, { fh with src := 0 }, 8, 0, 0, 0, 0, _, (Option.some_get (by decide +kernel)).symm, by decide +kernel⟩⟩

theorem test_meets_LiveSwitch_1 :
    (∃ s : State, ∃ s1 : State, ∃ m : Nat, ∃ st : SwitchState, ∃ d : Deck, switchDeck s = some d
    ∧ (s1 = modLoader s (fun l => { l with gathered := l.gathered.filter (fun e => e.1 ≠ m) ++ [(m, st)] }))
    ∧ (otherMembers s d).contains m = true ∧ s.loader.phase = .gathering ∧ (¬(∀ x ∈ otherMembers s d, ∃ e ∈ s1.loader.gathered, e.1 = x))) ∧
    (∃ s : State, ∃ s1 : State, ∃ m : Nat, ∃ st : SwitchState, ∃ d : Deck, ∃ a, switchDeck s = some d
    ∧ (s1 = modLoader s (fun l => { l with gathered := l.gathered.filter (fun e => e.1 ≠ m) ++ [(m, st)] })) ∧ s.loader.armed = some a
    ∧ (otherMembers s d).contains m = true ∧ s.loader.phase = .gathering ∧ (∀ x ∈ otherMembers s d, ∃ e ∈ s1.loader.gathered, e.1 = x)
    ∧ (∀ e ∈ s1.loader.gathered, e.2.armed = true ∧ e.2.id.deckId = a.id.deckId ∧ e.2.id.serial = a.id.serial ∧ e.2.id.digest = a.id.digest)) ∧
    (∃ s : State, ∃ s1 : State, ∃ m : Nat, ∃ st : SwitchState, ∃ d : Deck, ∃ a, ∃ e, switchDeck s = some d
    ∧ (s1 = modLoader s (fun l => { l with gathered := l.gathered.filter (fun e => e.1 ≠ m) ++ [(m, st)] })) ∧ s.loader.armed = some a
    ∧ (otherMembers s d).contains m = true ∧ s.loader.phase = .gathering ∧ (∀ x ∈ otherMembers s d, ∃ e ∈ s1.loader.gathered, e.1 = x)
    ∧ ((s1.loader.gathered.find? fun m => !sameDeck a.id m.2) = some e)) ∧
    (∃ s : State, ∃ m : Nat, ∃ st : SwitchState, ∃ d : Deck, switchDeck s = some d ∧ (otherMembers s d).contains m = true
    ∧ (s.loader.phase = .announced ∨ s.loader.phase = .played) ∧ switchRoot s = true ∧ st.armed = false) ∧
    (∃ s : State, ∃ m : Nat, ∃ st : SwitchState, ∃ d : Deck, switchDeck s = some d ∧ (otherMembers s d).contains m = true
    ∧ (s.loader.phase = .announced ∨ s.loader.phase = .played) ∧ (switchRoot s = false ∨ st.armed = true)) ∧
    (∃ s : State, ∃ m : Nat, ∃ st : SwitchState, ∃ d : Deck, switchDeck s = some d ∧ (otherMembers s d).contains m = false) ∧
    (∃ s : State, ∃ d : Deck, switchDeck s = some d ∧ s.loader.phase = .gathering) ∧
    (∃ s : State, ∃ d : Deck, switchDeck s = some d ∧ s.loader.phase ≠ .gathering) :=
  ⟨⟨gath dk3, _, 1, sw, _, (Option.some_get (by decide +kernel)).symm, rfl, by decide +kernel⟩,
   ⟨gath dk, _, 1, sw, _, _, (Option.some_get (by decide +kernel)).symm, rfl, (Option.some_get (by decide +kernel)).symm, by decide +kernel⟩,
   ⟨gath dk, _, 1, { sw with armed := false }, _, _, (1, { sw with armed := false }), (Option.some_get (by decide +kernel)).symm, rfl,
    (Option.some_get (by decide +kernel)).symm, by decide +kernel⟩,
   ⟨modLoader (gath dk) fun l => { l with phase := .announced }, 1, { sw with armed := false }, _,
    (Option.some_get (by decide +kernel)).symm, by decide +kernel⟩,
   ⟨modLoader (gath dk) fun l => { l with phase := .announced }, 1, sw, _, (Option.some_get (by decide +kernel)).symm, by decide +kernel⟩,
   ⟨run, 0, sw, _, (Option.some_get (by decide +kernel)).symm, by decide +kernel⟩,
   ⟨gath dk, _, (Option.some_get (by decide +kernel)).symm, by decide +kernel⟩,
   ⟨run, _, (Option.some_get (by decide +kernel)).symm, by decide +kernel⟩⟩

theorem test_meets_LiveSwitch_2 :
    (∃ s : State, ∃ d, deckOf s = some d ∧ s.loader.phase = .loading) ∧
    (∃ s : State, ∃ b : Bool, s.loader.phase ≠ .loading) ∧
    (∃ s : State, (s.loader.phase = .gathering ∨ s.loader.phase = .announced ∨ s.loader.phase = .played)) :=
  ⟨⟨{ run with loader := { run.loader with phase := .loading } }, _, (Option.some_get (by decide +kernel)).symm, by decide +kernel⟩,
   ⟨run, false, by decide +kernel⟩,
   ⟨gath dk, by decide +kernel⟩⟩

theorem test_meets_GroupMessages_1 :
    (∃ s : State, ∃ s1 : State, ∃ src : Nat, ∃ m : GroupMsg, ∃ d : Deck, deckOf s = some d ∧ isDealer s = true ∧ d.role.group = m.group
    ∧ (otherMembers s d).contains src = true ∧ (m.deckId ≠ d.id.deckId ∨ m.deckSerial ≠ d.id.serial)) ∧
    (∃ s : State, ∃ s1 : State, ∃ src : Nat, ∃ m : GroupMsg, ∃ d : Deck, deckOf s = some d ∧ holdPart s src m = s1 ∧ isDealer s = true
    ∧ d.role.group = m.group ∧ (otherMembers s d).contains src = true ∧ m.deckId = d.id.deckId ∧ m.deckSerial = d.id.serial
    ∧ groupHeld s1.ctl.joined src 1 = false) ∧
    (∃ s : State, ∃ s1 : State, ∃ src : Nat, ∃ m : GroupMsg, ∃ d : Deck, deckOf s = some d ∧ holdPart s src m = s1 ∧ isDealer s = true
    ∧ d.role.group = m.group ∧ (otherMembers s d).contains src = true ∧ m.deckId = d.id.deckId ∧ m.deckSerial = d.id.serial
    ∧ groupHeld s1.ctl.joined src 1 = true ∧ s1.ctl.group = .forming ∧ s1.ctl.awaitAlign = false) ∧
    (∃ s : State, ∃ s1 : State, ∃ src : Nat, ∃ m : GroupMsg, ∃ d : Deck, deckOf s = some d ∧ holdPart s src m = s1 ∧ isDealer s = true
    ∧ d.role.group = m.group ∧ (otherMembers s d).contains src = true ∧ m.deckId = d.id.deckId ∧ m.deckSerial = d.id.serial
    ∧ groupHeld s1.ctl.joined src 1 = true ∧ (s1.ctl.group = .recovering ∨ s1.ctl.group = .held) ∧ s1.ctl.awaitAlign = false) ∧
    (∃ s : State, ∃ s1 : State, ∃ src : Nat, ∃ m : GroupMsg, ∃ d : Deck, deckOf s = some d ∧ holdPart s src m = s1 ∧ isDealer s = true
    ∧ d.role.group = m.group ∧ (otherMembers s d).contains src = true ∧ m.deckId = d.id.deckId ∧ m.deckSerial = d.id.serial
    ∧ groupHeld s1.ctl.joined src 1 = true
    ∧ (s1.ctl.awaitAlign = true ∨ (s1.ctl.group ≠ .forming ∧ s1.ctl.group ≠ .recovering ∧ s1.ctl.group ≠ .held))) ∧
    (∃ s : State, ∃ s1 : State, ∃ src : Nat, ∃ m : GroupMsg, ∃ d : Deck, deckOf s = some d ∧ holdPart s src m = s1 ∧ d.role.group = m.group
    ∧ fromDealer s d src = true ∧ src ≠ ownIndex s ∧ groupHeld s1.ctl.joined src 2 = true) ∧
    (∃ s : State, ∃ s1 : State, ∃ src : Nat, ∃ m : GroupMsg, ∃ d : Deck, deckOf s = some d ∧ holdPart s src m = s1 ∧ d.role.group = m.group
    ∧ fromDealer s d src = true ∧ src ≠ ownIndex s ∧ groupHeld s1.ctl.joined src 2 = false) ∧
    (∃ s : State, ∃ src : Nat, ∃ m : GroupMsg, ∃ d : Deck, deckOf s = some d ∧ d.role.group = m.group ∧ isDealer s = true ∧ m.gen = s.gen) :=
  ⟨⟨run, run, 1, { gm with deckId := 6 }, _, (Option.some_get (by decide +kernel)).symm, by decide +kernel⟩,
   ⟨run, _, 1, { gm with part := 1, parts := 2 }, _, (Option.some_get (by decide +kernel)).symm, rfl, by decide +kernel⟩,
   ⟨withCtl run fun c => { c with group := .forming, awaitAlign := false }, _, 1, gm, _, (Option.some_get (by decide +kernel)).symm, rfl,
    by decide +kernel⟩,
   ⟨withCtl run fun c => { c with group := .held, awaitAlign := false }, _, 1, gm, _, (Option.some_get (by decide +kernel)).symm, rfl,
    by decide +kernel⟩,
   ⟨withCtl run fun c => { c with group := .forming, awaitAlign := true }, _, 1, gm, _, (Option.some_get (by decide +kernel)).symm, rfl,
    by decide +kernel⟩,
   ⟨mem, _, 0, { gm with kind := 2 }, _, (Option.some_get (by decide +kernel)).symm, rfl, by decide +kernel⟩,
   ⟨mem, _, 0, { gm with kind := 2, part := 1, parts := 2 }, _, (Option.some_get (by decide +kernel)).symm, rfl, by decide +kernel⟩,
   ⟨run, 1, gm, _, (Option.some_get (by decide +kernel)).symm, by decide +kernel⟩⟩

theorem test_meets_GroupMessages_2 :
    (∃ s : State, ∃ src : Nat, ∃ m : GroupMsg, ∃ d : Deck, deckOf s = some d ∧ d.role.group = m.group ∧ isDealer s = true ∧ m.gen ≠ s.gen) ∧
    (∃ s : State, ∃ src : Nat, ∃ m : GroupMsg, ∃ d : Deck, deckOf s = some d ∧ d.role.group = m.group ∧ isDealer s = true
    ∧ s.ctl.windowOpen = true) ∧
    (∃ s : State, ∃ src : Nat, ∃ m : GroupMsg, ∃ d : Deck, deckOf s = some d ∧ d.role.group = m.group ∧ isDealer s = true
    ∧ s.ctl.windowOpen = false) ∧
    (∃ s : State, ∃ src : Nat, ∃ m : GroupMsg, ∃ d : Deck, deckOf s = some d ∧ d.role.group = m.group ∧ isDealer s = false) ∧
    (∃ s : State, ∃ m : GroupMsg, ∃ d : Deck, deckOf s = some d ∧ d.role.group = m.group) ∧
    (∃ s : State, ∃ src : Nat, ∃ m : GroupMsg, ownGroup s m = false) :=
  ⟨⟨run, 1, { gm with gen := 1 }, _, (Option.some_get (by decide +kernel)).symm, by decide +kernel⟩,
   ⟨withCtl run fun c => { c with windowOpen := true }, 1, gm, _, (Option.some_get (by decide +kernel)).symm, by decide +kernel⟩,
   ⟨run, 1, gm, _, (Option.some_get (by decide +kernel)).symm, by decide +kernel⟩,
   ⟨mem, 0, gm, _, (Option.some_get (by decide +kernel)).symm, by decide +kernel⟩,
   ⟨run, gm, _, (Option.some_get (by decide +kernel)).symm, by decide +kernel⟩,
   ⟨run, 1, { gm with group := 8 }, by decide +kernel⟩⟩

theorem test_meets_GroupTimers_1 :
    (∃ s : State, ∃ d : Deck, deckOf s = some d ∧ isDealer s = true ∧ s.ctl.windowOpen = false ∧ d.spare.windowPeriod ≠ 0
    ∧ d.spare.windowPeriod ≤ s.ctl.roundsSinceWindow) ∧
    (∃ s : State, ∃ d : Deck, deckOf s = some d ∧ isDealer s = true ∧ s.ctl.windowOpen = false
    ∧ (d.spare.windowPeriod = 0 ∨ s.ctl.roundsSinceWindow < d.spare.windowPeriod)) ∧
    (∃ s : State, s.ctl.windowOpen = true ∧ s.ctl.windowDone.contains (ownIndex s) = false) ∧
    (∃ s : State, (s.ctl.windowOpen = false ∨ s.ctl.windowDone.contains (ownIndex s) = true)) ∧
    (∃ s : State, ∃ t : State, ∃ d : Deck, ∃ s1, deckOf s = some d ∧ t = expire s .probe (30 * countsMs)
    ∧ s1 = startDeadline { t with ctl := { t.ctl with probesMissed := t.ctl.probesMissed + 1 } } .probe ∧ s.ctl.probing = true
    ∧ ownIndex s = d.role.successor ∧ s.ctl.successorRole = false ∧ t.ctl.probesMissed < 3) ∧
    (∃ s : State, ∃ t : State, ∃ d : Deck, deckOf s = some d ∧ t = expire s .probe (30 * countsMs) ∧ s.ctl.probing = true
    ∧ ownIndex s = d.role.successor ∧ s.ctl.successorRole = false ∧ 3 ≤ t.ctl.probesMissed) ∧
    (∃ s : State, s.ctl.probing = false) ∧
    (∃ s : State, ∃ t : State, ∃ d : Deck, ∃ code : W32, deckOf s = some d ∧ s.ctl.requestedAbort = some code
    ∧ (t = modCtl (expire s .abortReq (10 * countsMs)) (fun c => { c with requestedAbort := none })) ∧ s.ctl.successorRole = false
    ∧ (∃ e ∈ d.role.members, e.1 = d.role.successor) ∧ ownIndex t ≠ d.role.successor) :=
  ⟨⟨withCtl run fun c => { c with roundsSinceWindow := 4 }, _, (Option.some_get (by decide +kernel)).symm, by decide +kernel⟩,
   ⟨withCtl run fun c => { c with roundsSinceWindow := 3 }, _, (Option.some_get (by decide +kernel)).symm, by decide +kernel⟩,
   ⟨withCtl run fun c => { c with windowOpen := true }, by decide +kernel⟩,
   ⟨run, by decide +kernel⟩,
   ⟨withCtl mem fun c => { c with probing := true, probesMissed := 2 }, _, _, _, (Option.some_get (by decide +kernel)).symm, rfl, rfl,
    by decide +kernel⟩,
   ⟨withCtl mem fun c => { c with probing := true, probesMissed := 3 }, _, _, (Option.some_get (by decide +kernel)).symm, rfl,
    by decide +kernel⟩,
   ⟨run, by decide +kernel⟩,
   ⟨withCtl run fun c => { c with requestedAbort := some 9 }, _, _, _, (Option.some_get (by decide +kernel)).symm,
    (Option.some_get (by decide +kernel)).symm, rfl, by decide +kernel⟩⟩

theorem test_meets_GroupTimers_2 :
    (∃ s : State, ∃ t : State, ∃ d : Deck, ∃ code : W32, deckOf s = some d ∧ s.ctl.requestedAbort = some code
    ∧ (t = modCtl (expire s .abortReq (10 * countsMs)) (fun c => { c with requestedAbort := none })) ∧ s.ctl.successorRole = false
    ∧ (∃ e ∈ d.role.members, e.1 = d.role.successor) ∧ ownIndex t = d.role.successor ∧ t.ctl.probing = false) ∧
    (∃ s : State, ∃ t : State, ∃ d : Deck, ∃ code : W32, deckOf s = some d ∧ s.ctl.requestedAbort = some code
    ∧ (t = modCtl (expire s .abortReq (10 * countsMs)) (fun c => { c with requestedAbort := none })) ∧ s.ctl.successorRole = false
    ∧ (∃ e ∈ d.role.members, e.1 = d.role.successor) ∧ ownIndex t = d.role.successor ∧ t.ctl.probing = true) ∧
    (∃ s : State, s.ctl.requestedAbort = none) ∧
    (∃ s : State, ∃ d : Deck, ∃ member : Nat, ∃ t, deckOf s = some d ∧ t = reachDeadline s .memberReady (10 * countsSec) ∧ isDealer s = true
    ∧ s.ctl.group = .recovering ∧ (otherMembers s d).contains member = true ∧ s.ctl.readyFrom.contains member = false) ∧
    (∃ s : State, ∃ d : Deck, ∃ member : Nat, deckOf s = some d ∧ isDealer s = true ∧ s.ctl.readyFrom.contains member = true) ∧
    (∃ s : State, ∃ t : Fin 64, ∃ q,
    (q = modRound (reachMeter s 0 ((getRound s t.val).startMeter + budgetOf s)) t.val (fun r => { r with expired := true }))
    ∧ (getRound s t.val).isOpen = true ∧ (getRound s t.val).expired = false ∧ (getRound q t.val).isOpen = true
    ∧ (getRound q t.val).written = true ∧ (getRound q t.val).expired = true) ∧
    (∃ s : State, ∃ t : Fin 64, ∃ q,
    (q = modRound (reachMeter s 0 ((getRound s t.val).startMeter + budgetOf s)) t.val (fun r => { r with expired := true }))
    ∧ (getRound s t.val).isOpen = true ∧ (getRound s t.val).expired = false ∧ (getRound q t.val).written = false) ∧
    (∃ s : State, ∃ t : Fin 64, ∃ q, q = reachMeter s 0 ((getRound s t.val).startMeter + stallBound s) ∧ (getRound s t.val).isOpen = true
    ∧ isDealer s = true) :=
  ⟨⟨withCtl mem fun c => { c with requestedAbort := some 9 }, _, _, _, (Option.some_get (by decide +kernel)).symm,
    (Option.some_get (by decide +kernel)).symm, rfl, by decide +kernel⟩,
   ⟨withCtl mem fun c => { c with requestedAbort := some 9, probing := true }, _, _, _, (Option.some_get (by decide +kernel)).symm,
    (Option.some_get (by decide +kernel)).symm, rfl, by decide +kernel⟩,
   ⟨run, by decide +kernel⟩,
   ⟨withCtl run fun c => { c with group := .recovering }, _, 1, _, (Option.some_get (by decide +kernel)).symm, rfl, by decide +kernel⟩,
   ⟨withCtl run fun c => { c with readyFrom := [1] }, _, 1, (Option.some_get (by decide +kernel)).symm, by decide +kernel⟩,
   ⟨{ run with rounds := [(63, { opened with written := true })] }, 63, _, rfl, by decide +kernel⟩,
   ⟨{ run with rounds := [(63, opened)] }, 63, _, rfl, by decide +kernel⟩,
   ⟨{ run with rounds := [(63, opened)] }, 63, _, rfl, by decide +kernel⟩⟩

theorem test_meets_GroupTimers_3 :
    (∃ s : State, ∃ t : Fin 64, (getRound s t.val).isOpen = true ∧ isDealer s = false) ∧
    (∃ s : State, ∃ t : Fin 64, (getRound s t.val).isOpen = false ∧ (getRound s t.val).heldMark ≠ none
    ∧ (getRound s t.val).heldExpired = false) ∧
    (∃ s : State, ∃ t : Fin 64, (getRound s t.val).isOpen = false ∧ (getRound s t.val).heldMark = none) :=
  ⟨⟨{ mem with rounds := [(63, opened)] }, 63, by decide +kernel⟩,
   ⟨{ run with rounds := [(63, { opened with isOpen := false, heldMark := some 1 })] }, 63, by decide +kernel⟩,
   ⟨run, 63, by decide +kernel⟩⟩

theorem test_meets_ServingMessages_1 :
    (∃ s : State, ∃ m : ServMsg, m.gen = s.gen ∧ m.round = s.lastRound ∧ isDealer s = false) ∧
    (∃ s : State, ∃ m : ServMsg, (m.gen ≠ s.gen ∨ m.round ≠ s.lastRound ∨ isDealer s = true)) ∧
    (∃ s : State, ∃ src : Nat, ∃ m : ServMsg, isDealer s = true ∧ m.gen = s.gen ∧ m.round = (getRound s m.table).round) ∧
    (∃ s : State, ∃ src : Nat, ∃ m : ServMsg, (isDealer s = false ∨ m.gen ≠ s.gen ∨ m.round ≠ (getRound s m.table).round)) ∧
    (∃ s : State, ∃ src : Nat, ∃ m : ServMsg, ∃ e : ServEntry, ∃ rest : List ServEntry, ∃ j : PrefillJob, ∃ d : Deck, deckOf s = some d
    ∧ m.entries = e :: rest ∧ ((s.cache.jobs.find? fun j => j.session = e.session) = some j)) ∧
    (∃ s : State, ∃ src : Nat, ∃ m : ServMsg, ∃ e : ServEntry, ∃ rest : List ServEntry, ∃ i : Nat, sessOf s e.session = some i
    ∧ m.entries = e :: rest ∧ (∀ j ∈ s.cache.jobs, j.session ≠ e.session) ∧ (getSess s i).phase = .shipped ∧ e.flags.toNat % 2 = 1) ∧
    (∃ s : State, ∃ src : Nat, ∃ m : ServMsg, ∃ e : ServEntry, ∃ rest : List ServEntry, ∃ i : Nat, ∃ t, sessOf s e.session = some i
    ∧ (t = modSess s i (fun c => { c with phase := .prefill })) ∧ m.entries = e :: rest ∧ (∀ j ∈ s.cache.jobs, j.session ≠ e.session)
    ∧ (getSess s i).phase = .shipped ∧ e.flags.toNat % 2 = 0) ∧
    (∃ s : State, ∃ src : Nat, ∃ m : ServMsg, ∃ e : ServEntry, ∃ rest : List ServEntry, ∃ j : PrefillJob, ∃ j1 : PrefillJob, ∃ d : Deck,
    deckOf s = some d ∧ (j1 = { j with done := j.done.filter (fun x => x.1 ≠ src) ++ [(src, decide (e.flags.toNat % 2 = 1))] })
    ∧ (∃ k, (k = ownIndex s ∨ k ∈ otherMembers s d) ∧ ∀ x ∈ j1.done, x.1 ≠ k) ∧ m.entries = e :: rest ∧ isDealer s = true
    ∧ ((s.cache.jobs.find? fun j => j.session = e.session) = some j)) :=
  ⟨⟨mem, sm, by decide +kernel⟩,
   ⟨run, sm, by decide +kernel⟩,
   ⟨run, 1, sm, by decide +kernel⟩,
   ⟨run, 0, { sm with gen := 1 }, by decide +kernel⟩,
   ⟨{ run with cache := { run.cache with jobs := [job] } }, 1, { sm with entries := [{ se with session := 0 }] }, { se with session := 0 },
    [], job, _, (Option.some_get (by decide +kernel)).symm, by decide +kernel⟩,
   ⟨withSess run (fun c => { c with state := .running, phase := .shipped }), 0, { sm with entries := [se] }, se, [], _,
    (Option.some_get (by decide +kernel)).symm, by decide +kernel⟩,
   ⟨withSess run (fun c => { c with state := .running, phase := .shipped }), 0, { sm with entries := [{ se with flags := 0xFE }] },
    { se with flags := 0xFE }, [], _, _, (Option.some_get (by decide +kernel)).symm, rfl, by decide +kernel⟩,
   ⟨{ run with cache := { run.cache with jobs := [job] } }, 1, { sm with entries := [{ se with session := 0 }] }, { se with session := 0 },
    [], job, _, _, (Option.some_get (by decide +kernel)).symm, rfl, ⟨0, by decide +kernel⟩, by decide +kernel⟩⟩

theorem test_meets_ServingMessages_2 :
    (∃ s : State, ∃ src : Nat, ∃ m : ServMsg, ∃ e : ServEntry, ∃ rest : List ServEntry, ∃ j : PrefillJob, ∃ j1 : PrefillJob, ∃ d : Deck,
    deckOf s = some d ∧ (j1 = { j with done := j.done.filter (fun x => x.1 ≠ src) ++ [(src, decide (e.flags.toNat % 2 = 1))] })
    ∧ (∀ k, (k = ownIndex s ∨ k ∈ otherMembers s d) → ∃ x ∈ j1.done, x.1 = k) ∧ m.entries = e :: rest ∧ isDealer s = true
    ∧ ((s.cache.jobs.find? fun j => j.session = e.session) = some j)) ∧
    (∃ s : State, ∃ m : ServMsg, ∃ src : Nat, ∃ e : ServEntry, m.entries = [e] ∧ isDealer s = false) ∧
    (∃ s : State, ∃ m : ServMsg, ∃ src : Nat, isDealer s = true) ∧
    (∃ s : State, ∃ src : Nat, ∃ p : Nat, ∃ n : Nat, (getPage s p).state = .spilling ∧ (getPage s p).spill = some n) ∧
    (∃ s : State, ∃ t : Nat, ∃ p : Nat, pageFree s p = true) ∧
    (∃ s : State, ∃ t : Nat, ∃ p : Nat, pageFree s p = false ∧ (getPage s p).state = .resident ∧ (getPage s p).dirtyFree = false) :=
  ⟨⟨{ run with cache := { run.cache with jobs := [{ job with done := [(0, true)] }] } }, 1,
    { sm with entries := [{ se with session := 0 }] }, { se with session := 0 }, [], { job with done := [(0, true)] }, _, _,
    (Option.some_get (by decide +kernel)).symm, rfl, all_or (by decide +kernel), by decide +kernel⟩,
   ⟨mem, { sm with entries := [se] }, 0, se, by decide +kernel⟩,
   ⟨run, sm, 0, by decide +kernel⟩,
   ⟨{ run with cache := { run.cache with pages := [(3, { Page.free with state := .spilling, spill := some 1 })] } }, 0, 3, 1,
    by decide +kernel⟩,
   ⟨run, 0, 3, by decide +kernel⟩,
   ⟨{ run with cache := { run.cache with pages := [(3, { Page.free with state := .resident })] } }, 0, 3, by decide +kernel⟩⟩

theorem test_meets_ChannelEvents_1 :
    (∃ s : State, ∃ ch : Fin 16384, ideOpen s 1 = true ∧ (getChan s ch.val).state ≠ .free ∧ (getChan s ch.val).held = true) ∧
    (∃ s : State, ∃ ch : Fin 16384, ideOpen s 1 = true ∧ ((getChan s ch.val).state = .free ∨ (getChan s ch.val).held = false)) ∧
    (∃ s : State, ∃ addr : W64, ∃ n : Nat, watchedBy s addr = some n ∧ ideOpen s 1 = true ∧ (getChan s n).held = true) ∧
    (∃ s : State, ∃ addr : W64, ∃ n : Nat, watchedBy s addr = some n ∧ ideOpen s 1 = true ∧ (getChan s n).held = false) ∧
    (∃ s : State, ∃ addr : W64, ideOpen s 1 = true ∧ watchedBy s addr = none) ∧
    (∃ s : State, ∃ ch : Fin 16384, ∃ sq : W32, ∃ cq : W32, s.host.busMaster = true ∧ ideOpen s 1 = true
    ∧ ((getChan s ch.val).state = .opened ∨ (getChan s ch.val).state = .closing)
    ∧ ((getChan s ch.val).wakePending = true ∨ (getChan s ch.val).held = false)) ∧
    (∃ s : State, ∃ n : Nat, ∃ sq : W32, ∃ cq : W32, ∃ s1,
    s1 = fetchEntries (setChan s n { getChan s n with held := true, wakePending := false, sqHead := sq, cqRead := cq, overrun := (getChan s n).overrun }) n (getChan s n).sqHead (sq - (getChan s n).sqHead).toNat
    ∧ (sq - (getChan s n).sqRead).toNat ≤ 2 ^ (getChan s n).sqLog2) ∧
    (∃ s : State, ∃ ch : Fin 16384, ∃ wr : Bool, ∃ e, ∃ r, s.host.busMaster = true ∧ ideOpen s 1 = true ∧ (getChan s ch.val).state ≠ .free
    ∧ (getChan s ch.val).unsent = e :: r) :=
  ⟨⟨{ run with channels := [(0, { Channel.free with state := .opened, held := true })], sessions := [] }, 0, by decide +kernel⟩,
   ⟨run, 16383, by decide +kernel⟩,
   ⟨{ run with channels := [(0, { Channel.free with state := .opened, watch := 0x40, held := true })], sessions := [] }, 0x7F, _,
    (Option.some_get (by decide +kernel)).symm, by decide +kernel⟩,
   ⟨{ run with channels := [(0, { Channel.free with state := .opened, watch := 0x40 })], sessions := [] }, 0x40, _,
    (Option.some_get (by decide +kernel)).symm, by decide +kernel⟩,
   ⟨run, 0x40, by decide +kernel⟩,
   ⟨{ run with channels := [(0, { Channel.free with state := .closing })], sessions := [] }, 0, 0, 0, by decide +kernel⟩,
   ⟨{ run with channels := [(0, { Channel.free with state := .opened, sqLog2 := 4 })], sessions := [] }, 0, 16, 0, _, rfl, by decide +kernel⟩,
   ⟨{ run with channels := [(0, { Channel.free with state := .opened, unsent := [cmpl] })], sessions := [] }, 0, false, cmpl, [],
    by decide +kernel⟩⟩

theorem test_meets_ChannelEvents_2 :
    (∃ s : State, ∃ ch : Fin 16384, ∃ wr : Bool, s.host.busMaster = true ∧ ideOpen s 1 = true ∧ (getChan s ch.val).state ≠ .free
    ∧ (getChan s ch.val).unsent = []) ∧
    (∃ s : State, ∃ ch : Fin 16384, ∃ wr : Bool, s.host.busMaster = true ∧ ideOpen s 1 = true ∧ (getChan s ch.val).state = .free) ∧
    (∃ s : State, ∃ slot : Nat, ∃ toks : List W32, (getSess s slot).phase = .queued) ∧
    (∃ s : State, ∃ slot : Nat, ∃ toks : List W32, (getSess s slot).phase ≠ .queued) ∧
    (∃ s : State, ∃ slot : Nat, ∃ t, t = reachMeter s 0 ((getSess s slot).ttlStart + (getSess s slot).ttl * countsSec)
    ∧ (getSess s slot).state = .paused ∧ busySession (getSess s slot) = false) ∧
    (∃ s : State, ∃ slot : Nat, ((getSess s slot).state ≠ .paused ∨ busySession (getSess s slot) = true)) ∧
    (∃ s : State, s.cache.rebuilding = false) ∧
    (∃ s : State, ∃ p, nextAllocated s s.cache.scanNext = some p ∧ s.cache.rebuilding = true) :=
  ⟨⟨{ run with channels := [(0, { Channel.free with state := .suspended })], sessions := [] }, 0, false, by decide +kernel⟩,
   ⟨run, 16383, false, by decide +kernel⟩,
   ⟨withSess run fun c => { c with phase := .queued }, 0, [], by decide +kernel⟩,
   ⟨run, 0, [], by decide +kernel⟩,
   ⟨withSess run fun c => { c with state := .paused }, 0, _, rfl, by decide +kernel⟩,
   ⟨run, 0, by decide +kernel⟩,
   ⟨run, by decide +kernel⟩,
   ⟨{ run with cache := { run.cache with rebuilding := true, pages := [(3, { Page.free with state := .resident })] } }, _,
    (Option.some_get (by decide +kernel)).symm, by decide +kernel⟩⟩

theorem test_meets_ChannelEvents_3 :
    (∃ s : State, s.cache.rebuilding = true ∧ nextAllocated s s.cache.scanNext = none) ∧
    (∃ s : State, ∃ s1 : State, ∃ t1 : State, ∃ tag : Nat, ∃ d : Nat, ∃ ok : Bool, ∃ data : List Byte, ∃ e : Nat × UioUse × BitVec 16,
    ∃ rest : List (Nat × UioUse × BitVec 16), s1 = dropDeadline { s with host := { s.host with uio := rest } } (.uio tag)
    ∧ (t1 = modHost (expire s (.uio tag) (10 * countsMs)) (fun h => { h with uio := rest }))
    ∧ (takeFirst (fun e : Nat × UioUse × BitVec 16 => e.1 = tag) s.host.uio = some (e, rest)) ∧ ideOpen s 0 = true ∧ e.2.1 = .dead) ∧
    (∃ s : State, ∃ s1 : State, ∃ t1 : State, ∃ tag : Nat, ∃ d : Nat, ∃ ok : Bool, ∃ data : List Byte, ∃ e : Nat × UioUse × BitVec 16,
    ∃ rest : List (Nat × UioUse × BitVec 16), s1 = dropDeadline { s with host := { s.host with uio := rest } } (.uio tag)
    ∧ (t1 = modHost (expire s (.uio tag) (10 * countsMs)) (fun h => { h with uio := rest }))
    ∧ (takeFirst (fun e : Nat × UioUse × BitVec 16 => e.1 = tag) s.host.uio = some (e, rest)) ∧ ideOpen s 0 = true ∧ e.2.1 ≠ .dead
    ∧ e.2.2 ≠ s.gen) ∧
    (∃ s : State, ∃ s1 : State, ∃ t1 : State, ∃ tag : Nat, ∃ d : Nat, ∃ ok : Bool, ∃ data : List Byte, ∃ e : Nat × UioUse × BitVec 16,
    ∃ rest : List (Nat × UioUse × BitVec 16), s1 = dropDeadline { s with host := { s.host with uio := rest } } (.uio tag)
    ∧ (t1 = modHost (expire s (.uio tag) (10 * countsMs)) (fun h => { h with uio := rest })) ∧ ok = true
    ∧ (takeFirst (fun e : Nat × UioUse × BitVec 16 => e.1 = tag) s.host.uio = some (e, rest)) ∧ ideOpen s 0 = true ∧ e.2.1 ≠ .dead
    ∧ e.2.2 = s.gen ∧ (uioBytes e.2.1 = 0 ∨ data.length = uioBytes e.2.1)) ∧
    (∃ s : State, ∃ s1 : State, ∃ t1 : State, ∃ tag : Nat, ∃ d : Nat, ∃ ok : Bool, ∃ data : List Byte, ∃ e : Nat × UioUse × BitVec 16,
    ∃ rest : List (Nat × UioUse × BitVec 16), s1 = dropDeadline { s with host := { s.host with uio := rest } } (.uio tag)
    ∧ (t1 = modHost (expire s (.uio tag) (10 * countsMs)) (fun h => { h with uio := rest })) ∧ ok = false
    ∧ (takeFirst (fun e : Nat × UioUse × BitVec 16 => e.1 = tag) s.host.uio = some (e, rest)) ∧ ideOpen s 0 = true ∧ e.2.1 ≠ .dead
    ∧ e.2.2 = s.gen) ∧
    (∃ s : State, ∃ tag : Nat, ∃ d : Nat, ∃ ok : Bool, ∃ data : List Byte,
    (takeFirst (fun e : Nat × UioUse × BitVec 16 => e.1 = tag) s.host.uio = none) ∧ s.host.busMaster = true ∧ ideOpen s 0 = true) ∧
    (∃ s : State, ∃ tag : Nat, ∃ d : Nat, ∃ ok : Bool, ∃ data : List Byte,
    (takeFirst (fun e : Nat × UioUse × BitVec 16 => e.1 = tag) s.host.uio = none) ∧ s.host.busMaster = false) ∧
    (∃ s : State, ∃ ch : Fin 16384, ∃ sq : W32, ∃ cq : W32, ∃ addr : W64, ∃ wr : Bool, ∃ b : Bool, ∃ ok : Bool, ∃ tag : Nat, ∃ d : Nat,
    ∃ data : List Byte, ideOpen s 1 = false) :=
  ⟨⟨{ run with cache := { run.cache with rebuilding := true } }, by decide +kernel⟩,
   ⟨{ run with host := { run.host with uio := [(5, .dead, 0)] } }, _, _, 5, 0, false, [], (5, .dead, 0), [], rfl, rfl, by decide +kernel⟩,
   ⟨{ run with host := { run.host with uio := [(5, .spill 0 0 0, 1)] } }, _, _, 5, 0, false, [], (5, .spill 0 0 0, 1), [], rfl, rfl,
    by decide +kernel⟩,
   ⟨{ run with host := { run.host with uio := [(5, .spill 0 0 0, 0)] } }, _, _, 5, 0, _, [], (5, .spill 0 0 0, 0), [], rfl, rfl, rfl,
    by decide +kernel⟩,
   ⟨{ run with host := { run.host with uio := [(5, .spill 0 0 0, 0)] } }, _, _, 5, 0, _, [], (5, .spill 0 0 0, 0), [], rfl, rfl, rfl,
    by decide +kernel⟩,
   ⟨run, 0, 0, false, [], by decide +kernel⟩,
   ⟨{ run with host := { run.host with busMaster := false } }, 0, 0, false, [], by decide +kernel⟩,
   ⟨{ run with host := { run.host with ideInsecure := 2 } }, 0, 0, 0, 0, false, false, false, 0, 0, [], by decide +kernel⟩⟩

theorem test_meets_ChannelEvents_4 :
    (∃ s : State, ∃ ch : Fin 16384, ∃ sq : W32, ∃ cq : W32, ∃ addr : W64, ∃ wr : Bool, ∃ b : Bool, ∃ ok : Bool, ∃ tag : Nat, ∃ d : Nat,
    ∃ data : List Byte, ideOpen s 0 = false) :=
  ⟨{ run with host := { run.host with ideInsecure := 1 } }, 0, 0, 0, 0, false, false, false, 0, 0, [], by decide +kernel⟩

theorem test_meets_ChannelRequests_1 :
    (∃ s : State, ∃ s1 : State, ∃ ch : Fin 16384, ∃ e : Submission, ∃ i, s1 = entryTaken s ch.val e
    ∧ freeSession s1 (getChan s1 ch.val).table = some i ∧ takesEntry s ch.val e 0x01 ∧ e.session = 0 ∧ e.arg = 0 ∧ pinOf s1 0 = none) ∧
    (∃ s : State, ∃ s1 : State, ∃ ch : Fin 16384, ∃ e : Submission, s1 = entryTaken s ch.val e ∧ takesEntry s ch.val e 0x01 ∧ e.session = 0
    ∧ e.arg = 0 ∧ pinOf s1 0 = none ∧ freeSession s1 (getChan s1 ch.val).table = none) ∧
    (∃ s : State, ∃ s1 : State, ∃ ch : Fin 16384, ∃ e : Submission, s1 = entryTaken s ch.val e ∧ takesEntry s ch.val e 0x01 ∧ e.session ≠ 0) ∧
    (∃ s : State, ∃ s1 : State, ∃ r : State, ∃ ch : Fin 16384, ∃ e : Submission, ∃ i : Nat, s1 = entryTaken s ch.val e
    ∧ idleSession s1 r ch.val e i ∧ takesEntry s ch.val e 0x02 ∧ e.arg = 0 ∧ e.maxNew ≠ 0 ∧ e.maxNew.toNat ≤ 1048576) ∧
    (∃ s : State, ∃ s1 : State, ∃ r : State, ∃ ch : Fin 16384, ∃ e : Submission, ∃ i : Nat, s1 = entryTaken s ch.val e
    ∧ idleSession s1 r ch.val e i ∧ takesEntry s ch.val e 0x03 ∧ e.arg = 0) ∧
    (∃ s : State, ∃ s1 : State, ∃ r : State, ∃ ch : Fin 16384, ∃ e : Submission, ∃ i : Nat, ∃ tag : W32, ∃ k, s1 = entryTaken s ch.val e
    ∧ sessionRead s1 r ch.val e i ∧ targetOf r ch.val tag = some k ∧ takesEntry s ch.val e 0x04 ∧ e.arg = BitVec.zeroExtend 64 tag) ∧
    (∃ s : State, ∃ s1 : State, ∃ r : State, ∃ ch : Fin 16384, ∃ e : Submission, ∃ i : Nat, ∃ tag : W32, s1 = entryTaken s ch.val e
    ∧ sessionRead s1 r ch.val e i ∧ takesEntry s ch.val e 0x04 ∧ e.arg = BitVec.zeroExtend 64 tag ∧ targetOf r ch.val tag = none) ∧
    (∃ s : State, ∃ s1 : State, ∃ r : State, ∃ ch : Fin 16384, ∃ e : Submission, ∃ i : Nat, ∃ s2, s1 = entryTaken s ch.val e
    ∧ idleSession s1 r ch.val e i ∧ (s2 = modSess (runRequest r ch.val i e .pausing) i (fun c => { c with ttl := e.arg.toNat }))
    ∧ takesEntry s ch.val e 0x05 ∧ 60 ≤ e.arg.toNat ∧ e.arg.toNat ≤ 64800) :=
  ⟨⟨{ (kk 0) with channels := [(0, { Channel.free with state := .opened, sqHead := 1 })], sessions := [] }, _, 0, { sub with opcode := 1 },
    _, rfl, (Option.some_get (by decide +kernel)).symm, by unfold takesEntry; decide +kernel⟩,
   ⟨{ (kk 0) with channels := [(0, { Channel.free with state := .opened, sqHead := 1 })], sessions := [(0, { Session.free with state := .idle }), (1, { Session.free with state := .idle })] },
    _, 0, { sub with opcode := 1 }, rfl, by unfold takesEntry; decide +kernel⟩,
   ⟨{ (kk 0) with channels := [(0, { Channel.free with state := .opened, sqHead := 1 })], sessions := [] }, _, 0,
    { sub with opcode := 1, session := 1 }, rfl, by unfold takesEntry; decide +kernel⟩,
   ⟨{ (kk 0) with channels := [(0, { Channel.free with state := .opened, sqHead := 1 })], sessions := [(0, { Session.free with state := .idle, chan := 0x100000 })] },
    _, _, 0, { sub with opcode := 2, maxNew := 1048576, session := 0x4000000 }, 0, rfl, idle_session (by decide +kernel),
    by unfold takesEntry; decide +kernel⟩,
   ⟨{ (kk 0) with channels := [(0, { Channel.free with state := .opened, sqHead := 1 })], sessions := [(0, { Session.free with state := .idle, chan := 0x100000 })] },
    _, _, 0, { sub with opcode := 3, tokenCount := 1048576, session := 0x4000000 }, 0, rfl, idle_session (by decide +kernel),
    by unfold takesEntry; decide +kernel⟩,
   ⟨{ (kk 0) with channels := [(0, { Channel.free with state := .opened, sqHead := 1 })], sessions := [(0, { Session.free with state := .running, chan := 0x100000, reqChan := 0x100000, phase := .decode, tag := 9 })] },
    _, _, 0, { sub with opcode := 4, arg := 9, session := 0x4000000 }, 0, 9, _, rfl, session_read (by decide +kernel),
    (Option.some_get (by decide +kernel)).symm, by unfold takesEntry; decide +kernel⟩,
   ⟨{ (kk 0) with channels := [(0, { Channel.free with state := .opened, sqHead := 1 })], sessions := [(0, { Session.free with state := .running, chan := 0x100000, reqChan := 0x100000, phase := .decode, tag := 9 })] },
    _, _, 0, { sub with opcode := 4, arg := 8, session := 0x4000000 }, 0, 8, rfl, session_read (by decide +kernel),
    by unfold takesEntry; decide +kernel⟩,
   ⟨{ (kk 0) with channels := [(0, { Channel.free with state := .opened, sqHead := 1 })], sessions := [(0, { Session.free with state := .idle, chan := 0x100000 })] },
    _, _, 0, { sub with opcode := 5, arg := 64800, session := 0x4000000 }, 0, _, rfl, idle_session (by decide +kernel), rfl,
    by unfold takesEntry; decide +kernel⟩⟩

theorem test_meets_ChannelRequests_2 :
    (∃ s : State, ∃ s1 : State, ∃ r : State, ∃ ch : Fin 16384, ∃ e : Submission, ∃ i : Nat, s1 = entryTaken s ch.val e
    ∧ takesEntry s ch.val e 0x05 ∧ (e.arg.toNat < 60 ∨ 64800 < e.arg.toNat)) ∧
    (∃ s : State, ∃ s1 : State, ∃ r : State, ∃ s2 : State, ∃ ch : Fin 16384, ∃ e : Submission, ∃ i : Nat, s1 = entryTaken s ch.val e
    ∧ idleSession s1 r ch.val e i ∧ (s2 = modSess (runRequest r ch.val i e .resuming) i (fun c => { c with ttl := 0 }))
    ∧ takesEntry s ch.val e 0x06 ∧ e.arg = 0 ∧ (getSess s2 i).pages.all inMemory = true) ∧
    (∃ s : State, ∃ s1 : State, ∃ r : State, ∃ s2 : State, ∃ ch : Fin 16384, ∃ e : Submission, ∃ i : Nat, s1 = entryTaken s ch.val e
    ∧ idleSession s1 r ch.val e i ∧ (s2 = modSess (runRequest r ch.val i e .resuming) i (fun c => { c with ttl := 0 }))
    ∧ takesEntry s ch.val e 0x06 ∧ e.arg = 0 ∧ (getSess s2 i).pages.all inMemory = false) ∧
    (∃ s : State, ∃ s1 : State, ∃ r : State, ∃ ch : Fin 16384, ∃ e : Submission, ∃ i : Nat, s1 = entryTaken s ch.val e
    ∧ idleSession s1 r ch.val e i ∧ takesEntry s ch.val e 0x07 ∧ e.arg = 0) ∧
    (∃ s : State, ∃ s1 : State, ∃ r : State, ∃ ch : Fin 16384, ∃ e : Submission, ∃ i : Nat, s1 = entryTaken s ch.val e
    ∧ sessionRead s1 r ch.val e i ∧ takesEntry s ch.val e 0x08 ∧ e.arg = 0 ∧ (getSess r i).chan = 0) ∧
    (∃ s : State, ∃ s1 : State, ∃ r : State, ∃ ch : Fin 16384, ∃ e : Submission, ∃ i : Nat, s1 = entryTaken s ch.val e
    ∧ sessionRead s1 r ch.val e i ∧ takesEntry s ch.val e 0x08 ∧ e.arg = 0 ∧ (getSess r i).chan ≠ 0) ∧
    (∃ s : State, ∃ s1 : State, ∃ r : State, ∃ ch : Fin 16384, ∃ e : Submission, ∃ i : Nat, s1 = entryTaken s ch.val e
    ∧ (∀ i, sessOf s1 e.session = some i → (getSess s1 i).table ≠ (getChan s1 ch.val).table) ∧ takesEntry s ch.val e 0x02 ∧ e.arg = 0
    ∧ e.maxNew ≠ 0 ∧ e.maxNew.toNat ≤ 1048576) ∧
    (∃ s : State, ∃ s1 : State, ∃ r : State, ∃ ch : Fin 16384, ∃ e : Submission, ∃ i : Nat, s1 = entryTaken s ch.val e
    ∧ (∀ i, sessOf s1 e.session = some i → (getSess s1 i).table ≠ (getChan s1 ch.val).table) ∧ takesEntry s ch.val e 0x03 ∧ e.arg = 0) :=
  ⟨⟨{ (kk 0) with channels := [(0, { Channel.free with state := .opened, sqHead := 1 })], sessions := [(0, { Session.free with state := .idle, chan := 0x100000 })] },
    _, run, 0, { sub with opcode := 5, arg := 59, session := 0x4000000 }, 0, rfl, by unfold takesEntry; decide +kernel⟩,
   ⟨{ (kk 0) with channels := [(0, { Channel.free with state := .opened, sqHead := 1 })], sessions := [(0, { Session.free with state := .idle, chan := 0x100000 })] },
    _, _, _, 0, { sub with opcode := 6, session := 0x4000000 }, 0, rfl, idle_session (by decide +kernel), rfl,
    by unfold takesEntry; decide +kernel⟩,
   ⟨{ (kk 0) with channels := [(0, { Channel.free with state := .opened, sqHead := 1 })], sessions := [(0, { Session.free with state := .idle, chan := 0x100000, pages := [0x1000000] })] },
    _, _, _, 0, { sub with opcode := 6, session := 0x4000000 }, 0, rfl, idle_session (by decide +kernel), rfl,
    by unfold takesEntry; decide +kernel⟩,
   ⟨{ (kk 0) with channels := [(0, { Channel.free with state := .opened, sqHead := 1 })], sessions := [(0, { Session.free with state := .idle, chan := 0x100000 })] },
    _, _, 0, { sub with opcode := 7, session := 0x4000000 }, 0, rfl, idle_session (by decide +kernel),
    by unfold takesEntry; decide +kernel⟩,
   ⟨{ (kk 0) with channels := [(0, { Channel.free with state := .opened, sqHead := 1 })], sessions := [(0, { Session.free with state := .idle })] },
    _, _, 0, { sub with opcode := 8, session := 0x4000000 }, 0, rfl, session_read (by decide +kernel),
    by unfold takesEntry; decide +kernel⟩,
   ⟨{ (kk 0) with channels := [(0, { Channel.free with state := .opened, sqHead := 1 })], sessions := [(0, { Session.free with state := .idle, chan := 0x100000 })] },
    _, _, 0, { sub with opcode := 8, session := 0x4000000 }, 0, rfl, session_read (by decide +kernel),
    by unfold takesEntry; decide +kernel⟩,
   ⟨{ (kk 0) with channels := [(0, { Channel.free with state := .opened, sqHead := 1 })], sessions := [] }, _, run, 0,
    { sub with opcode := 2, maxNew := 1 }, 0, rfl, fun _ q => no_some (by decide +kernel) q, by unfold takesEntry; decide +kernel⟩,
   ⟨{ (kk 0) with channels := [(0, { Channel.free with state := .opened, sqHead := 1 })], sessions := [] }, _, run, 0,
    { sub with opcode := 3 }, 0, rfl, fun _ q => no_some (by decide +kernel) q, by unfold takesEntry; decide +kernel⟩⟩

theorem test_meets_ChannelRequests_3 :
    (∃ s : State, ∃ s1 : State, ∃ r : State, ∃ ch : Fin 16384, ∃ e : Submission, ∃ i : Nat, s1 = entryTaken s ch.val e
    ∧ (∀ i, sessOf s1 e.session = some i → (getSess s1 i).table ≠ (getChan s1 ch.val).table) ∧ takesEntry s ch.val e 0x04
    ∧ e.arg.toNat < 2 ^ 32) ∧
    (∃ s : State, ∃ s1 : State, ∃ r : State, ∃ ch : Fin 16384, ∃ e : Submission, ∃ i : Nat, s1 = entryTaken s ch.val e
    ∧ (∀ i, sessOf s1 e.session = some i → (getSess s1 i).table ≠ (getChan s1 ch.val).table) ∧ takesEntry s ch.val e 0x05
    ∧ 60 ≤ e.arg.toNat ∧ e.arg.toNat ≤ 64800) ∧
    (∃ s : State, ∃ s1 : State, ∃ r : State, ∃ ch : Fin 16384, ∃ e : Submission, ∃ i : Nat, s1 = entryTaken s ch.val e
    ∧ (∀ i, sessOf s1 e.session = some i → (getSess s1 i).table ≠ (getChan s1 ch.val).table) ∧ takesEntry s ch.val e 0x06 ∧ e.arg = 0) ∧
    (∃ s : State, ∃ s1 : State, ∃ r : State, ∃ ch : Fin 16384, ∃ e : Submission, ∃ i : Nat, s1 = entryTaken s ch.val e
    ∧ (∀ i, sessOf s1 e.session = some i → (getSess s1 i).table ≠ (getChan s1 ch.val).table) ∧ takesEntry s ch.val e 0x07 ∧ e.arg = 0) ∧
    (∃ s : State, ∃ s1 : State, ∃ r : State, ∃ ch : Fin 16384, ∃ e : Submission, ∃ i : Nat, s1 = entryTaken s ch.val e
    ∧ (∀ i, sessOf s1 e.session = some i → (getSess s1 i).table ≠ (getChan s1 ch.val).table) ∧ takesEntry s ch.val e 0x08 ∧ e.arg = 0) ∧
    (∃ s : State, ∃ s1 : State, ∃ r : State, ∃ ch : Fin 16384, ∃ e : Submission, ∃ i : Nat, ∃ t, s1 = entryTaken s ch.val e
    ∧ sessionRead s1 r ch.val e i ∧ t = finalEntry r ch.val e.tag 5 (getSess r i).position [] ∧ busySession (getSess r i) = true
    ∧ takesEntry s ch.val e 0x02 ∧ e.arg = 0 ∧ e.maxNew ≠ 0 ∧ e.maxNew.toNat ≤ 1048576) ∧
    (∃ s : State, ∃ s1 : State, ∃ r : State, ∃ ch : Fin 16384, ∃ e : Submission, ∃ i : Nat, ∃ t, s1 = entryTaken s ch.val e
    ∧ sessionRead s1 r ch.val e i ∧ t = finalEntry r ch.val e.tag 5 (getSess r i).position [] ∧ busySession (getSess r i) = true
    ∧ takesEntry s ch.val e 0x03 ∧ e.arg = 0) ∧
    (∃ s : State, ∃ s1 : State, ∃ r : State, ∃ ch : Fin 16384, ∃ e : Submission, ∃ i : Nat, ∃ t, s1 = entryTaken s ch.val e
    ∧ sessionRead s1 r ch.val e i ∧ t = finalEntry r ch.val e.tag 5 (getSess r i).position [] ∧ busySession (getSess r i) = true
    ∧ takesEntry s ch.val e 0x05 ∧ 60 ≤ e.arg.toNat ∧ e.arg.toNat ≤ 64800) :=
  ⟨⟨{ (kk 0) with channels := [(0, { Channel.free with state := .opened, sqHead := 1 })], sessions := [] }, _, run, 0,
    { sub with opcode := 4 }, 0, rfl, fun _ q => no_some (by decide +kernel) q, by unfold takesEntry; decide +kernel⟩,
   ⟨{ (kk 0) with channels := [(0, { Channel.free with state := .opened, sqHead := 1 })], sessions := [] }, _, run, 0,
    { sub with opcode := 5, arg := 60 }, 0, rfl, fun _ q => no_some (by decide +kernel) q, by unfold takesEntry; decide +kernel⟩,
   ⟨{ (kk 0) with channels := [(0, { Channel.free with state := .opened, sqHead := 1 })], sessions := [] }, _, run, 0,
    { sub with opcode := 6 }, 0, rfl, fun _ q => no_some (by decide +kernel) q, by unfold takesEntry; decide +kernel⟩,
   ⟨{ (kk 0) with channels := [(0, { Channel.free with state := .opened, sqHead := 1 })], sessions := [] }, _, run, 0,
    { sub with opcode := 7 }, 0, rfl, fun _ q => no_some (by decide +kernel) q, by unfold takesEntry; decide +kernel⟩,
   ⟨{ (kk 0) with channels := [(0, { Channel.free with state := .opened, sqHead := 1 })], sessions := [] }, _, run, 0,
    { sub with opcode := 8 }, 0, rfl, fun _ q => no_some (by decide +kernel) q, by unfold takesEntry; decide +kernel⟩,
   ⟨{ (kk 0) with channels := [(0, { Channel.free with state := .opened, sqHead := 1 })], sessions := [(0, { Session.free with state := .running, chan := 0x100000, reqChan := 0x100000, phase := .decode, tag := 9 })] },
    _, _, 0, { sub with opcode := 2, maxNew := 1, session := 0x4000000 }, 0, _, rfl, session_read (by decide +kernel), rfl,
    by unfold takesEntry; decide +kernel⟩,
   ⟨{ (kk 0) with channels := [(0, { Channel.free with state := .opened, sqHead := 1 })], sessions := [(0, { Session.free with state := .running, chan := 0x100000, reqChan := 0x100000, phase := .decode, tag := 9 })] },
    _, _, 0, { sub with opcode := 3, session := 0x4000000 }, 0, _, rfl, session_read (by decide +kernel), rfl,
    by unfold takesEntry; decide +kernel⟩,
   ⟨{ (kk 0) with channels := [(0, { Channel.free with state := .opened, sqHead := 1 })], sessions := [(0, { Session.free with state := .running, chan := 0x100000, reqChan := 0x100000, phase := .decode, tag := 9 })] },
    _, _, 0, { sub with opcode := 5, arg := 60, session := 0x4000000 }, 0, _, rfl, session_read (by decide +kernel), rfl,
    by unfold takesEntry; decide +kernel⟩⟩

theorem test_meets_ChannelRequests_4 :
    (∃ s : State, ∃ s1 : State, ∃ r : State, ∃ ch : Fin 16384, ∃ e : Submission, ∃ i : Nat, ∃ t, s1 = entryTaken s ch.val e
    ∧ sessionRead s1 r ch.val e i ∧ t = finalEntry r ch.val e.tag 5 (getSess r i).position [] ∧ busySession (getSess r i) = true
    ∧ takesEntry s ch.val e 0x06 ∧ e.arg = 0) ∧
    (∃ s : State, ∃ s1 : State, ∃ r : State, ∃ ch : Fin 16384, ∃ e : Submission, ∃ i : Nat, ∃ t, s1 = entryTaken s ch.val e
    ∧ sessionRead s1 r ch.val e i ∧ t = finalEntry r ch.val e.tag 5 (getSess r i).position [] ∧ busySession (getSess r i) = true
    ∧ takesEntry s ch.val e 0x07 ∧ e.arg = 0) ∧
    (∃ s : State, ∃ s1 : State, ∃ ch : Fin 16384, ∃ e : Submission, ∃ t, ∃ c,
    c ∈ ([.openSession ch e, .generate ch e, .append ch e, .abortRequest ch e, .pause ch e, .resume ch e, .close ch e, .attach ch e] : List Instr)
    ∧ s1 = entryTaken s ch.val e ∧ t = checkClosing (finalEntry s1 ch.val e.tag 7 0 []) ch.val ∧ (getChan s ch.val).state = .closing
    ∧ (getChan s ch.val).sqRead ≠ (getChan s ch.val).sqHead) :=
  ⟨⟨{ (kk 0) with channels := [(0, { Channel.free with state := .opened, sqHead := 1 })], sessions := [(0, { Session.free with state := .running, chan := 0x100000, reqChan := 0x100000, phase := .decode, tag := 9 })] },
    _, _, 0, { sub with opcode := 6, session := 0x4000000 }, 0, _, rfl, session_read (by decide +kernel), rfl,
    by unfold takesEntry; decide +kernel⟩,
   ⟨{ (kk 0) with channels := [(0, { Channel.free with state := .opened, sqHead := 1 })], sessions := [(0, { Session.free with state := .running, chan := 0x100000, reqChan := 0x100000, phase := .decode, tag := 9 })] },
    _, _, 0, { sub with opcode := 7, session := 0x4000000 }, 0, _, rfl, session_read (by decide +kernel), rfl,
    by unfold takesEntry; decide +kernel⟩,
   ⟨{ run with channels := [(0, { Channel.free with state := .closing, sqHead := 1 })], sessions := [] }, _, 0, sub, _, .openSession 0 sub,
    (by simp), rfl, rfl, by decide +kernel⟩⟩

theorem test_meets_HostResetsAndLink_1 :
    (∃ s : State, ∃ s1 : State, (s1 = modHost (stopRequests s) (fun h => { h with busMaster := false }))) ∧
    (∃ s : State, ∃ s1 : State, ∃ s2 : State, ∃ s3 : State, ∃ s4 : State, s1 = stopRequests (abandonMailbox s)
    ∧ s2 = (liveChannels s1).foldl freeChannel s1
    ∧ (s3 = modHost (s2.host.uio.foldl (fun s e => dropDeadline s (.uio e.1)) s2) (fun h => { h with busMaster := false, uio := [] }))
    ∧ (s4 = ((s3.tables.map (·.1)).filter fun t => !(getRound s3 t).isOpen && !(getRound s3 t).again).foldl finishDisable s3)) ∧
    (∃ s : State, s.background = none) ∧
    (∃ s : State, ∃ b, s.background = some b ∧ (b.running = false ∨ b.cci ≠ 0)) ∧
    (∃ s : State, ∃ b, ∃ t, s.background = some b
    ∧ t = { s with replies := sput none s.replies 0 none, background := some { b with cci := 2 } } ∧ b.running = true ∧ b.cci = 0
    ∧ b.opcode = 0xC012 ∧ s.loader.stage = .verifying) ∧
    (∃ s : State, ∃ b, ∃ t, s.background = some b
    ∧ t = { s with replies := sput none s.replies 0 none, background := some { b with cci := 2 } } ∧ b.running = true ∧ b.cci = 0
    ∧ (b.opcode ≠ 0xC012 ∨ s.loader.stage ≠ .verifying)) ∧
    (∃ s : State, ∃ s1 : State, s1 = resetMemory (resetFunction { s with host := { s.host with busMaster := false } })) ∧
    (∃ s : State, ∃ s1 : State, ∃ w : Nat, ∃ r : Nat,
    s1 = { s with host := { s.host with linkUp := true, width := w, rate := r, busMaster := true } } ∧ s.power.inputOn = true
    ∧ s.host.perst = false ∧ s.ringOsc = false ∧ 8 ≤ w ∧ 64 ≤ r) :=
  ⟨⟨run, _, rfl⟩,
   ⟨run, _, _, _, _, rfl, rfl, rfl, rfl⟩,
   ⟨run, by decide +kernel⟩,
   ⟨{ run with background := some { bg with running := false } }, _, (Option.some_get (by decide +kernel)).symm, by decide +kernel⟩,
   ⟨{ run with background := some bg, loader := { run.loader with stage := .verifying } }, _, _, (Option.some_get (by decide +kernel)).symm,
    rfl, by decide +kernel⟩,
   ⟨{ run with background := some bg }, _, _, (Option.some_get (by decide +kernel)).symm, rfl, by decide +kernel⟩,
   ⟨run, _, rfl⟩,
   ⟨run, _, 8, 64, rfl, by decide +kernel⟩⟩

theorem test_meets_HostResetsAndLink_2 :
    (∃ s : State, ∃ s1 : State, ∃ w : Nat, ∃ r : Nat,
    s1 = { s with host := { s.host with linkUp := true, width := w, rate := r, busMaster := true } } ∧ s.power.inputOn = true
    ∧ s.host.perst = false ∧ s.ringOsc = false ∧ (w < 8 ∨ r < 64)) ∧
    (∃ s : State, ∃ w : Nat, ∃ r : Nat, (s.power.inputOn = false ∨ s.host.perst = true ∨ s.ringOsc = true)) :=
  ⟨⟨run, _, 8, 63, rfl, by decide +kernel⟩,
   ⟨{ up with ringOsc := true }, 0, 0, by decide +kernel⟩⟩

theorem test_meets_AttestationAndKeys_1 :
    (∃ s : State, ∃ s1, s1 = { s with sec := { s.sec with spdmSession := false, spdmHandshake := false, keySets := [], keyActive := [] } }
    ∧ s.power.inputOn = true ∧ s.sec.spdmSession = true) ∧
    (∃ s : State, s.power.inputOn = true ∧ s.sec.spdmVersion = true) ∧
    (∃ s : State, s.power.inputOn = true ∧ s.sec.spdmCaps = true) :=
  ⟨⟨{ up with sec := { Security.reset with spdmSession := true } }, _, rfl, by decide +kernel⟩,
   ⟨{ up with sec := { Security.reset with spdmVersion := true } }, by decide +kernel⟩,
   ⟨{ up with sec := { Security.reset with spdmCaps := true } }, by decide +kernel⟩⟩

theorem test_meets_AttestationAndKeys_2 :
    (∃ s : State, ∃ nonce : List Byte, s.power.inputOn = true ∧ s.sec.spdmAlgs = true ∧ nonce.length = 32) ∧
    (∃ s : State, ∃ x : List Byte, ∃ n, n = freeNonce { s with sec := { s.sec with spdmHandshake := true } } ∧ s.power.inputOn = true
    ∧ s.sec.spdmAlgs = true ∧ x.length = 96) ∧
    (∃ s : State, ∃ nonce : List Byte, ∃ index, ∃ body, body = leBytes 1 0 ++ leBytes 1 1 ++ measurementBlock s index ++ (freeNonce s).1
    ∧ s.power.inputOn = true ∧ s.sec.spdmAlgs = true ∧ 1 ≤ index ∧ index ≤ 8 ∧ nonce.length = 32) :=
  ⟨⟨{ up with sec := { Security.reset with spdmAlgs := true } }, List.replicate 32 0, by decide +kernel⟩,
   ⟨{ up with sec := { Security.reset with spdmAlgs := true } }, List.replicate 96 0, _, rfl, by decide +kernel⟩,
   ⟨{ up with sec := { Security.reset with spdmAlgs := true } }, List.replicate 32 0, 8, _, rfl, by decide +kernel⟩⟩

theorem test_meets_AttestationAndKeys_3 :
    (∃ s : State, ∃ v : List Byte, (Config.finishMatches v = true ∨ Config.finishMatches v = false) ∧ s.power.inputOn = true
    ∧ s.sec.spdmHandshake = true) ∧
    (∃ s : State, ∃ v : List Byte, (Config.finishMatches v = true ∨ Config.finishMatches v = false) ∧ s.power.inputOn = true
    ∧ s.sec.spdmHandshake = true) ∧
    (∃ s : State, ∃ t, t = toHost s (.spdm 0x7F [0x04, 0]) ∧ s.power.inputOn = true ∧ s.sec.spdmVersion = false) :=
  ⟨⟨{ up with sec := { Security.reset with spdmHandshake := true } }, [], (by cases Config.finishMatches [] <;> simp), by decide +kernel⟩,
   ⟨{ up with sec := { Security.reset with spdmHandshake := true } }, [], (by cases Config.finishMatches [] <;> simp), by decide +kernel⟩,
   ⟨up, _, rfl, by decide +kernel⟩⟩

theorem test_meets_AttestationAndKeys_4 :
    (∃ s : State, ∃ t, t = toHost s (.spdm 0x7F [0x04, 0]) ∧ s.power.inputOn = true ∧ s.sec.spdmCaps = false) ∧
    (∃ s : State, ∃ t, t = toHost s (.spdm 0x7F [0x04, 0]) ∧ s.power.inputOn = true ∧ s.sec.spdmAlgs = false) ∧
    (∃ s : State, ∃ t, t = toHost s (.spdm 0x7F [0x04, 0]) ∧ s.power.inputOn = true ∧ s.sec.spdmHandshake = false) :=
  ⟨⟨up, _, rfl, by decide +kernel⟩,
   ⟨up, _, rfl, by decide +kernel⟩,
   ⟨up, _, rfl, by decide +kernel⟩⟩

theorem test_meets_AttestationAndKeys_5 :
    (∃ s : State, ∃ t, t = toHost s (.spdm 0x7F [0x04, 0]) ∧ s.power.inputOn = true ∧ s.sec.spdmSession = false) ∧
    (∃ s : State, ∃ stream : Nat, ∃ dir : Nat, ∃ set : Nat, ∃ key : List Byte, s.sec.spdmSession = true ∧ stream < 2 ∧ dir < 2 ∧ set < 2
    ∧ key.length = 32) ∧
    (∃ s : State, ∃ stream : Nat, ∃ dir : Nat, ∃ set : Nat, ∃ key : List Byte, s.sec.spdmSession = true ∧ stream < 2 ∧ dir < 2 ∧ set < 2
    ∧ (sget none s.sec.keySets (2 * (2 * stream + dir) + set)).isSome = true) :=
  ⟨⟨up, _, rfl, by decide +kernel⟩,
   ⟨{ up with sec := { Security.reset with spdmSession := true } }, 1, 1, 1, List.replicate 32 0, by decide +kernel⟩,
   ⟨{ up with sec := { Security.reset with spdmSession := true, keySets := [(7, some [])] } }, 1, 1, 1, [], by decide +kernel⟩⟩

theorem test_meets_AttestationAndKeys_6 :
    (∃ s : State, ∃ stream : Nat, ∃ dir : Nat, ∃ set : Nat, ∃ key : List Byte, s.sec.spdmSession = false) :=
  ⟨up, 0, 0, 0, [], by decide +kernel⟩

theorem test_meets_HostMemory_1 :
    (∃ s : State, ∃ hpa : Nat, ∃ d : Nat, ∃ ex : Bool, ∃ data : Line, ∃ mask : BitVec 64, ∃ p : Bool, decodeHpa s hpa = some d
    ∧ ideOpen s 1 = true ∧ s.ctl.mediaReady = true) ∧
    (∃ s : State, ∃ hpa : Nat, ∃ d : Nat, ∃ key : Nat, ∃ ex : Bool, key = d / 64 * 64 ∧ (∀ e ∈ s.host.biPending, e.dpa ≠ key)
    ∧ ((hostHolds s key).isSome = true ∨ (s.host.snoop.filter fun e => snoopSet e.1 = snoopSet key).length < 16)) ∧
    (∃ s : State, ∃ hpa : Nat, ∃ d : Nat, ∃ key : Nat, ∃ ex : Bool, ∃ old, ∃ rest, key = d / 64 * 64 ∧ (∀ e ∈ s.host.biPending, e.dpa ≠ key)
    ∧ hostHolds s key = none ∧ ((s.host.snoop.filter fun e => snoopSet e.1 = snoopSet key) = old :: rest) ∧ 15 ≤ rest.length) ∧
    (∃ s : State, ∃ hpa : Nat, ∃ ex : Bool, ∃ data : Line, ∃ mask : BitVec 64, ∃ p : Bool, ideOpen s 1 = true
    ∧ (s.ctl.mediaReady = false ∨ decodeHpa s hpa = none)
    ∧ (∀ w ∈ s.host.leaving, w.hpaBase ≤ hpa → hpa < w.hpaBase + w.size → ∀ b ∈ s.host.biPending, b.dpa ≠ hdmDpa w hpa / 64 * 64)) ∧
    (∃ s : State, ∃ dpa : Nat, (∃ e ∈ s.host.biPending, e.dpa = dpa ∧ e.answered = false) ∧ ideOpen s 1 = true) ∧
    (∃ s : State, ∃ dpa : Nat, ∃ t, t = expire s (.biSnoop dpa) (10 * countsMs) ∧ (∃ e ∈ s.host.biPending, e.dpa = dpa ∧ e.answered = false)) ∧
    (∃ s : State, ∃ dpa : Nat, (∀ e ∈ s.host.biPending, e.dpa = dpa → e.answered = true) ∧ ideOpen s 1 = true) ∧
    (∃ s : State, ∃ hpa : Nat, ∃ dpa : Nat, ∃ off : Nat, ∃ size : Nat, ∃ ex : Bool, ∃ p : Bool, ∃ data : Line, ∃ mask : BitVec 64,
    ideOpen s 1 = false) :=
  ⟨⟨{ run with host := { run.host with decoders := [(0, { committed := true, errNotCommitted := false, hpaBase := 0, size := 0x10000, dpaBase := 0, ways := 1, granularity := 256 })] } },
    0xFFFF, _, false, 0, 0, false, (Option.some_get (by decide +kernel)).symm, by decide +kernel⟩,
   ⟨run, 0, 0x12345, _, false, rfl, by decide +kernel⟩,
   ⟨{ run with host := { run.host with snoop := (List.range 16).map fun i => (i * 0x400000, false) } }, 0, 0x4000000, _, false, (0, false),
    (List.range 15).map fun i => ((i + 1) * 0x400000, false), rfl, by decide +kernel⟩,
   ⟨run, 0, false, 0, 0, false, by decide +kernel⟩,
   ⟨{ run with host := { run.host with biPending := [{ dpa := 64, answered := false, waiters := [] }] } }, 64, by decide +kernel⟩,
   ⟨{ run with host := { run.host with biPending := [{ dpa := 64, answered := false, waiters := [] }] } }, 64, _, rfl, by decide +kernel⟩,
   ⟨run, 64, by decide +kernel⟩,
   ⟨{ run with host := { run.host with ideInsecure := 2 } }, 0, 0, 0, 0, false, false, 0, 0, by decide +kernel⟩⟩

theorem test_meets_HostMemory_2 :
    (∃ s : State, ∃ hpa : Nat, ∃ dpa : Nat, ∃ off : Nat, ∃ size : Nat, ∃ ex : Bool, ∃ p : Bool, ∃ data : Line, ∃ mask : BitVec 64,
    ideOpen s 0 = false) ∧
    (∃ s : State, ∃ s1 : State, ∃ n : Fin 4, ∃ base : Nat, ∃ size : Nat, ∃ dpa : Nat, ∃ ways : Nat, ∃ gran : Nat, ∃ d : HdmDecoder,
    s1 = decommit s n.val
    ∧ d = { committed := true, errNotCommitted := false, hpaBase := base, size := size, dpaBase := dpa, ways := ways, granularity := gran }
    ∧ commitAllowed s1 n.val base size dpa ways gran = true) ∧
    (∃ s : State, ∃ s1 : State, ∃ n : Fin 4, ∃ base : Nat, ∃ size : Nat, ∃ dpa : Nat, ∃ ways : Nat, ∃ gran : Nat, ∃ d : HdmDecoder,
    s1 = decommit s n.val
    ∧ d = { committed := true, errNotCommitted := false, hpaBase := base, size := size, dpaBase := dpa, ways := ways, granularity := gran }
    ∧ commitAllowed s1 n.val base size dpa ways gran = false) ∧
    (∃ s : State, ∃ k : Fin 11, ∃ hd : List Byte, k.val = 2) ∧
    (∃ s : State, ∃ k : Fin 11, ∃ hd : List Byte, k.val = 3) ∧
    (∃ s : State, ∃ k : Fin 11, ∃ hd : List Byte, (k.val = 1 ∨ k.val = 4)) ∧
    (∃ s : State, ∃ k : Fin 11, ∃ hd : List Byte, k.val = 10) ∧
    (∃ s : State, ∃ k : Fin 11, ∃ hd : List Byte, 5 ≤ k.val ∧ k.val ≠ 10) :=
  ⟨⟨{ run with host := { run.host with ideInsecure := 1 } }, 0, 0, 0, 0, false, false, 0, 0, by decide +kernel⟩,
   ⟨withReg { rg with hostShared := true }, _, 3, 0, 0x10000, 0, 1, 256, _, rfl, rfl, by decide +kernel⟩,
   ⟨run, _, 3, 0, 0x10000, 0, 1, 256, _, rfl, rfl, by decide +kernel⟩,
   ⟨run, 2, [], by decide +kernel⟩,
   ⟨run, 3, [], by decide +kernel⟩,
   ⟨run, 1, [], by decide +kernel⟩,
   ⟨run, 10, [], by decide +kernel⟩,
   ⟨run, 9, [], by decide +kernel⟩⟩

theorem test_meets_HostMemory_3 :
    (∃ s : State, ∃ off : Nat, ∃ size : Nat, ideOpen s 0 = true ∧ (¬(size = 4 ∧ off % 4 = 0)) ∧ (¬(size = 8 ∧ off % 8 = 0))) ∧
    (∃ s : State, ∃ off : Nat, ∃ size : Nat, ideOpen s 0 = true ∧ ((size = 4 ∧ off % 4 = 0) ∨ (size = 8 ∧ off % 8 = 0))) :=
  ⟨⟨run, 2, 4, by decide +kernel⟩,
   ⟨run, 8, 8, by decide +kernel⟩⟩

theorem test_meets_MailboxReads_1 :
    (∃ s : State, ∃ c : Fin 2, ∃ ok : Nat → List Byte → State, (ok = (fun op out => answered s c.val op .success 0 out))
    ∧ hears s c.val = true ∧ s.background = none) ∧
    (∃ s : State, ∃ c : Fin 2, ∃ ok : Nat → List Byte → State, ∃ b, (ok = (fun op out => answered s c.val op .success 0 out))
    ∧ s.background = some b ∧ hears s c.val = true ∧ b.running = true) :=
  ⟨⟨run, 0, _, rfl, by decide +kernel⟩,
   ⟨{ run with background := some bg }, 0, _, _, rfl, (Option.some_get (by decide +kernel)).symm, by decide +kernel⟩⟩

theorem test_meets_MailboxReads_2 :
    (∃ s : State, ∃ c : Fin 2, ∃ ok : Nat → List Byte → State, ∃ n : Fin 4, (ok = (fun op out => answered s c.val op .success 0 out))
    ∧ hears s c.val = true) ∧
    (∃ s : State, ∃ c : Fin 2, ∃ ok : Nat → List Byte → State, (ok = (fun op out => answered s c.val op .success 0 out))
    ∧ hears s c.val = true) :=
  ⟨⟨run, 0, _, 3, rfl, by decide +kernel⟩,
   ⟨run, 0, _, rfl, by decide +kernel⟩⟩

theorem test_meets_MailboxReads_3 :
    (∃ s : State, ∃ c : Fin 2, ∃ ok : Nat → List Byte → State, ∃ cap, (ok = (fun op out => answered s c.val op .success 0 out))
    ∧ cap = (if s.ctl.idState = .misdeal then 0 else 1152) ∧ hears s c.val = true) ∧
    (∃ s : State, ∃ c : Fin 2, ∃ ok : Nat → List Byte → State, (ok = (fun op out => answered s c.val op .success 0 out))
    ∧ hears s c.val = true ∧ s.ctl.idState ≠ .misdeal) :=
  ⟨⟨run, 0, _, _, rfl, rfl, by decide +kernel⟩,
   ⟨run, 0, _, rfl, by decide +kernel⟩⟩

theorem test_meets_MailboxReads_4 :
    (∃ s : State, ∃ c : Fin 2, ∃ ok : Nat → List Byte → State, (ok = (fun op out => answered s c.val op .success 0 out))
    ∧ hears s c.val = true) ∧
    (∃ s : State, ∃ c : Fin 2, ∃ i,
    i ∈ ([.identify c, .backgroundOperationStatus c, .getEventInterruptPolicy c, .getFwInfo c, .getSupportedLogs c, .identifyMemoryDevice c, .getHealthInfo c, .getPoisonList c] : List Instr)
    ∧ hears s c.val = false) :=
  ⟨⟨run, 0, _, rfl, by decide +kernel⟩,
   ⟨State.reset, 0, .identify 0, (by simp), by decide +kernel⟩⟩

theorem test_meets_MailboxActions_1 :
    (∃ s : State, ∃ c : Fin 2, ∃ ans : State → Nat → Status → List Byte → State, ∃ b, ∃ t,
    (ans = (fun t op st out => answered t c.val op st 0 out)) ∧ s.background = some b ∧ abortBackground s b.opcode = some t
    ∧ hears s c.val = true ∧ b.running = true) ∧
    (∃ s : State, ∃ c : Fin 2, ∃ ans : State → Nat → Status → List Byte → State, ∃ b,
    (ans = (fun t op st out => answered t c.val op st 0 out)) ∧ s.background = some b ∧ hears s c.val = true ∧ b.running = true
    ∧ abortBackground s b.opcode = none) ∧
    (∃ s : State, ∃ c : Fin 2, ∃ ans : State → Nat → Status → List Byte → State, ∃ b,
    (ans = (fun t op st out => answered t c.val op st 0 out)) ∧ s.background = some b ∧ hears s c.val = true ∧ b.running = false) ∧
    (∃ s : State, ∃ c : Fin 2, ∃ ans : State → Nat → Status → List Byte → State, ∃ n : Fin 4, ∃ hs : List W32, ∃ l : EventLog,
    ∃ put : EventLog → State, ∃ k, (ans = (fun t op st out => answered t c.val op st 0 out)) ∧ l = getLogNo s n.val
    ∧ (put = (fun l => { s with logs := sput emptyLog s.logs n.val l }))
    ∧ (hs = (List.range k).map (fun i => w32 ((l.cleared + i) % 65535 + 1))) ∧ k ≤ l.records.length ∧ hears s c.val = true
    ∧ (l.records.drop k).length ≠ 0) ∧
    (∃ s : State, ∃ c : Fin 2, ∃ ans : State → Nat → Status → List Byte → State, ∃ n : Fin 4, ∃ hs : List W32, ∃ l : EventLog,
    ∃ put : EventLog → State, (ans = (fun t op st out => answered t c.val op st 0 out)) ∧ l = getLogNo s n.val
    ∧ (put = (fun l => { s with logs := sput emptyLog s.logs n.val l })) ∧ hears s c.val = true
    ∧ (l.records.length < hs.length ∨ hs ≠ (List.range hs.length).map (fun i => w32 ((l.cleared + i) % 65535 + 1)))) ∧
    (∃ s : State, ∃ c : Fin 2, ∃ ans : State → Nat → Status → List Byte → State, ∃ bs : List Byte,
    (ans = (fun t op st out => answered t c.val op st 0 out)) ∧ hears s c.val = true ∧ 4 ≤ bs.length) :=
  ⟨⟨{ run with background := some bg }, 0, _, _, _, rfl, (Option.some_get (by decide +kernel)).symm,
    (Option.some_get (by decide +kernel)).symm, by decide +kernel⟩,
   ⟨{ run with background := some { bg with opcode := 0xC072 } }, 0, _, _, rfl, (Option.some_get (by decide +kernel)).symm,
    by decide +kernel⟩,
   ⟨{ run with background := some { bg with running := false } }, 0, _, _, rfl, (Option.some_get (by decide +kernel)).symm,
    by decide +kernel⟩,
   ⟨{ run with logs := [(3, { emptyLog with records := [{ code := 0, seq := 0, die := 0, epoch := 0, detail := .none }] })] }, 0, _, 3, _, _,
    _, 0, rfl, rfl, rfl, rfl, by decide +kernel⟩,
   ⟨run, 0, _, 3, [1], _, _, rfl, rfl, rfl, by decide +kernel⟩,
   ⟨run, 0, _, [0, 0, 0, 0], rfl, by decide +kernel⟩⟩

theorem test_meets_MailboxActions_2 :
    (∃ s : State, ∃ c : Fin 2, ∃ ans : State → Nat → Status → List Byte → State, ∃ slot : Nat, ∃ bs : List Byte,
    (ans = (fun t op st out => answered t c.val op st 0 out)) ∧ hears s c.val = true ∧ (slot = 0 ∨ 2 < slot ∨ slot - 1 = s.ctl.bootSlot)) ∧
    (∃ s : State, ∃ c : Fin 2, ∃ ans : State → Nat → Status → List Byte → State, ∃ slot : Nat, ∃ bs : List Byte,
    (ans = (fun t op st out => answered t c.val op st 0 out)) ∧ hears s c.val = true ∧ 1 ≤ slot ∧ slot ≤ 2 ∧ slot - 1 ≠ s.ctl.bootSlot
    ∧ (s.ctl.fwPhase = .none ∨ s.ctl.fwPhase = .transferred) ∧ storeWindow s = true ∧ fwFault s bs = 0) ∧
    (∃ s : State, ∃ c : Fin 2, ∃ ans : State → Nat → Status → List Byte → State, ∃ slot : Nat, ∃ bs : List Byte, ∃ n,
    (ans = (fun t op st out => answered t c.val op st 0 out)) ∧ hears s c.val = true ∧ 1 ≤ slot ∧ slot ≤ 2 ∧ slot - 1 ≠ s.ctl.bootSlot
    ∧ (s.ctl.fwPhase = .none ∨ s.ctl.fwPhase = .transferred) ∧ storeWindow s = true ∧ fwFault s bs = n + 1) ∧
    (∃ s : State, ∃ c : Fin 2, ∃ ans : State → Nat → Status → List Byte → State, ∃ slot : Nat, ∃ f : FwImage,
    (ans = (fun t op st out => answered t c.val op st 0 out)) ∧ fwSlot s (slot - 1) = some f ∧ hears s c.val = true ∧ 1 ≤ slot ∧ slot ≤ 2
    ∧ slot - 1 ≠ s.ctl.bootSlot ∧ s.ctl.fwPhase = .transferred ∧ (deckOf s = none ∨ f.deckMajor = 1) ∧ s.ctl.idState = .misdeal) ∧
    (∃ s : State, ∃ c : Fin 2, ∃ ans : State → Nat → Status → List Byte → State, ∃ slot : Nat, ∃ f : FwImage,
    (ans = (fun t op st out => answered t c.val op st 0 out)) ∧ fwSlot s (slot - 1) = some f ∧ hears s c.val = true ∧ 1 ≤ slot ∧ slot ≤ 2
    ∧ slot - 1 ≠ s.ctl.bootSlot ∧ s.ctl.fwPhase = .transferred ∧ (deckOf s = none ∨ f.deckMajor = 1) ∧ s.ctl.idState ≠ .misdeal) ∧
    (∃ s : State, ∃ c : Fin 2, ∃ ans : State → Nat → Status → List Byte → State, ∃ dpa : Nat, ∃ d : Nat, ∃ p : Place, ∃ t,
    (ans = (fun t op st out => answered t c.val op st 0 out)) ∧ p = placeOf s (addrOfDpa dpa)
    ∧ softSpareHeld s p.stack p.bank p.row (2 ^ p.line) = some t ∧ hears s c.val = true ∧ inWindow s dpa = true) :=
  ⟨⟨run, 0, _, 0, [], rfl, by decide +kernel⟩,
   ⟨withCtl (owned (warm up)) fun c => { c with fwPhase := .transferred }, 0, _, 2, fwImg, rfl, by decide +kernel⟩,
   ⟨warm up, 0, _, 2, [], 0, rfl, by decide +kernel⟩,
   ⟨withCtl up fun c => { c with fwPhase := .transferred, idState := .misdeal, fw1 := some (fwz 1) }, 0, _, 2, _, rfl,
    (Option.some_get (by decide +kernel)).symm, by decide +kernel⟩,
   ⟨withCtl up fun c => { c with fwPhase := .transferred, fw1 := some (fwz 1) }, 0, _, 2, _, rfl, (Option.some_get (by decide +kernel)).symm,
    by decide +kernel⟩,
   ⟨{ run with host := { run.host with decoders := [(0, { committed := true, errNotCommitted := false, hpaBase := 0, size := 0x10000, dpaBase := 0, ways := 1, granularity := 256 })] } },
    0, _, 0xFFFF, 0, _, _, rfl, rfl, (Option.some_get (by decide +kernel)).symm, by decide +kernel⟩⟩

theorem test_meets_MailboxActions_3 :
    (∃ s : State, ∃ c : Fin 2, ∃ ans : State → Nat → Status → List Byte → State, ∃ dpa : Nat, ∃ d : Nat, ∃ p : Place, ∃ t : State,
    (ans = (fun t op st out => answered t c.val op st 0 out)) ∧ p = placeOf s (addrOfDpa dpa)
    ∧ t = pendSpare s p.stack p.bank p.row (2 ^ p.line) true ∧ hears s c.val = true ∧ inWindow s dpa = true
    ∧ (((getStack t p.stack).pendingSpare.any fun e => e.bank = p.bank && e.row = p.row) = true)) ∧
    (∃ s : State, ∃ c : Fin 2, ∃ ans : State → Nat → Status → List Byte → State, ∃ dpa : Nat,
    (ans = (fun t op st out => answered t c.val op st 0 out)) ∧ hears s c.val = true ∧ inWindow s dpa = false) ∧
    (∃ s : State, ∃ c : Fin 2, ∃ ans : State → Nat → Status → List Byte → State, ∃ dpa : Nat, ∃ data : Line, ∃ s1, ∃ s2,
    (ans = (fun t op st out => answered t c.val op st 0 out)) ∧ s1 = ans s 0x4301 .success [] ∧ s2 = ans s 0x4302 .success []
    ∧ hears s c.val = true ∧ s.ctl.idState ≠ .misdeal ∧ dpa % 64 = 0 ∧ inWindow s dpa = true ∧ hostHolds s dpa = none
    ∧ (∀ e ∈ s.host.biPending, e.dpa ≠ dpa)) ∧
    (∃ s : State, ∃ c : Fin 2, ∃ ans : State → Nat → Status → List Byte → State, ∃ dpa : Nat, ∃ data : Line, ∃ s1, ∃ s2,
    (ans = (fun t op st out => answered t c.val op st 0 out)) ∧ s1 = ans s 0x4301 .success [] ∧ s2 = ans s 0x4302 .success []
    ∧ hears s c.val = true ∧ s.ctl.idState ≠ .misdeal ∧ dpa % 64 = 0 ∧ inWindow s dpa = true ∧ (hostHolds s dpa).isSome = true) ∧
    (∃ s : State, ∃ c : Fin 2, ∃ ans : State → Nat → Status → List Byte → State, ∃ dpa : Nat, ∃ data : Line,
    (ans = (fun t op st out => answered t c.val op st 0 out)) ∧ hears s c.val = true ∧ s.ctl.idState ≠ .misdeal
    ∧ (dpa % 64 ≠ 0 ∨ inWindow s dpa = false)) ∧
    (∃ s : State, ∃ c : Fin 2, ∃ ans : State → Nat → Status → List Byte → State, (ans = (fun t op st out => answered t c.val op st 0 out))
    ∧ hears s c.val = true ∧ s.ctl.idState = .misdeal) :=
  ⟨⟨{ run with host := { run.host with decoders := [(0, { committed := true, errNotCommitted := false, hpaBase := 0, size := 0x10000, dpaBase := 0, ways := 1, granularity := 256 })] } },
    0, _, 0xFFFF, 0, _, _, rfl, rfl, rfl, by decide +kernel⟩,
   ⟨{ run with host := { run.host with decoders := [(0, { committed := true, errNotCommitted := false, hpaBase := 0, size := 0x10000, dpaBase := 0, ways := 1, granularity := 256 })] } },
    0, _, 0x10000, rfl, by decide +kernel⟩,
   ⟨{ run with host := { run.host with decoders := [(0, { committed := true, errNotCommitted := false, hpaBase := 0, size := 0x10000, dpaBase := 0, ways := 1, granularity := 256 })] } },
    0, _, 0xFFC0, 0, _, _, rfl, rfl, rfl, by decide +kernel⟩,
   ⟨{ run with host := { run.host with decoders := [(0, { committed := true, errNotCommitted := false, hpaBase := 0, size := 0x10000, dpaBase := 0, ways := 1, granularity := 256 })], snoop := [(0xFFC0, false)] } },
    0, _, 0xFFC0, 0, _, _, rfl, rfl, rfl, by decide +kernel⟩,
   ⟨run, 0, _, 1, 0, rfl, by decide +kernel⟩,
   ⟨withCtl up fun c => { c with idState := .misdeal }, 0, _, rfl, by decide +kernel⟩⟩

theorem test_meets_DeckCommands_1 :
    (∃ s : State, ∃ c : Fin 2, vendorTaken s c.val 0xC010 0 [] false) ∧
    (∃ s : State, ∃ s1 : State, ∃ c : Fin 2, ∃ inp : List Byte, ∃ i, i = inField (inp.take 8) 0 2
    ∧ signedTaken s s1 c.val 0xC011 8 inp anyOwner false ∧ inField (inp.take 8) 0 2 < 2 ^ 13 ∧ zeroFrom (inp.take 8) 2 = true
    ∧ (s1.loader.stage = .empty ∨ s1.loader.stage = .staged ∨ s1.loader.stage = .verified)) ∧
    (∃ s : State, ∃ s1 : State, ∃ c : Fin 2, ∃ inp : List Byte, signedTaken s s1 c.val 0xC011 8 inp anyOwner false
    ∧ inField (inp.take 8) 0 2 < 2 ^ 13 ∧ zeroFrom (inp.take 8) 2 = true ∧ s1.loader.stage = .armed) ∧
    (∃ s : State, ∃ c : Fin 2, ∃ inp : List Byte, vendorTaken s c.val 0xC012 16 inp true ∧ s.loader.stage = .empty ∧ 320 ≤ inField inp 8 8
    ∧ inField inp 8 8 % 8 = 0 ∧ inField inp 8 8 ≤ maxDeck ∧ storeWindow s = true ∧ stagingSlot s = 0 ∧ s.host.busMaster = true) ∧
    (∃ s : State, ∃ c : Fin 2, ∃ inp : List Byte, vendorTaken s c.val 0xC012 16 inp true ∧ s.loader.stage ≠ .empty) ∧
    (∃ s : State, ∃ s1 : State, ∃ data : List Byte, ∃ d : List Byte, d = data.take (s.loader.fetchLen - s.loader.fetched)
    ∧ s1 = { s with loader := { s.loader with fetched := s.loader.fetched + d.length, slot0 := s.loader.slot0 ++ d } }
    ∧ s.loader.stage = .staging ∧ data ≠ [] ∧ s.loader.stageSlot = 0 ∧ s.loader.fetched + d.length < s.loader.fetchLen) ∧
    (∃ s : State, ∃ s1 : State, ∃ data : List Byte, ∃ d : List Byte, d = data.take (s.loader.fetchLen - s.loader.fetched)
    ∧ s1 = { s with loader := { s.loader with fetched := s.loader.fetched + d.length, slot0 := s.loader.slot0 ++ d } }
    ∧ s.loader.stage = .staging ∧ data ≠ [] ∧ s.loader.stageSlot = 0 ∧ s.loader.fetchLen ≤ s.loader.fetched + d.length) ∧
    (∃ q : State, ∃ s : State, ∃ s1 : State, ∃ v : Option (Ev × Nat) × List Card, s = beginVerify q ∧ noteSkipped s v.2 = s1
    ∧ s.loader.stage = .verifying ∧ verifyDeck s (slotImage s s.loader.stageSlot) s.loader.fetchLen s.loader.index = v ∧ v.1 = none) :=
  ⟨⟨up, 0, by unfold vendorTaken; decide +kernel⟩,
   ⟨owned (up), spent (up), 0, gIndex, _, rfl, by unfold signedTaken; decide +kernel⟩,
   ⟨owned (ld fun l => { l with stage := .armed }), spent (ld fun l => { l with stage := .armed }), 0, gIndex,
    by unfold signedTaken; decide +kernel⟩,
   ⟨warm up, 0, leBytes 8 0x1000 ++ leBytes 8 320, by unfold vendorTaken; decide +kernel⟩,
   ⟨ld fun l => { l with stage := .staged }, 0, leBytes 8 0x1000 ++ leBytes 8 320, by unfold vendorTaken; decide +kernel⟩,
   ⟨ld fun l => { l with stage := .staging, fetchLen := 320, fetched := 318 }, _, [1], _, rfl, rfl, by decide +kernel⟩,
   ⟨ld fun l => { l with stage := .staging, fetchLen := 320, fetched := 319 }, _, [1, 2], _, rfl, rfl, by decide +kernel⟩,
   ⟨owned (ld fun l => { l with stage := .verifying, fetchLen := 320, slot0 := deckImg }), _, _, (none, []), rfl, rfl, by decide +kernel⟩⟩

theorem test_meets_DeckCommands_2 :
    (∃ q : State, ∃ s : State, ∃ s1 : State, ∃ v : Option (Ev × Nat) × List Card, ∃ e, ∃ o, s = beginVerify q ∧ noteSkipped s v.2 = s1
    ∧ s.loader.stage = .verifying ∧ verifyDeck s (slotImage s s.loader.stageSlot) s.loader.fetchLen s.loader.index = v
    ∧ v.1 = some (e, o)) ∧
    (∃ s : State, ∃ s1 : State, ∃ c : Fin 2, vendorTaken s c.val 0xC013 0 [] true ∧ s.loader.stage ≠ .verified) ∧
    (∃ s : State, ∃ s1 : State, ∃ c : Fin 2, ∃ cs, ∃ r, ∃ d, armChecks s (slotImage s s.loader.stageSlot) = (cs, r)
    ∧ s1 = startBg (noteSkipped s cs) c.val 0xC013 ∧ vendorTaken s c.val 0xC013 0 [] true ∧ s.loader.stage = .verified ∧ r = .ok d) ∧
    (∃ s : State, ∃ s1 : State, ∃ c : Fin 2, ∃ cs, ∃ r, ∃ e, ∃ o, ∃ args, armChecks s (slotImage s s.loader.stageSlot) = (cs, r)
    ∧ s1 = startBg (noteSkipped s cs) c.val 0xC013 ∧ vendorTaken s c.val 0xC013 0 [] true ∧ s.loader.stage = .verified
    ∧ r = .error (e, o, args)) ∧
    (∃ s : State, ∃ d, ∃ t, s.loader.staged = some d ∧ t = writeImage s d s.loader.fetchLen ∧ s.loader.stage = .arming) ∧
    (∃ s : State, s.loader.stage = .arming ∧ s.loader.staged = none) ∧
    (∃ s : State, s.loader.stage ≠ .arming) ∧
    (∃ s : State, ∃ s1 : State, ∃ c : Fin 2, ∃ a : Deck, ∃ d : Deck, ∃ ms, s.loader.armed = some a
    ∧ (s1 = startDeadline (modLoader (startBg s c.val 0xC014) fun l => { l with phase := .gathering, gathered := [], alone := heldOut s }) .gather)
    ∧ switchDeck s1 = some d ∧ ms = (if heldOut s then [] else otherMembers s1 d) ∧ vendorTaken s c.val 0xC014 0 [] true
    ∧ s.loader.stage = .armed ∧ a.role.dealer = ownIndex s ∧ ms ≠ []) :=
  ⟨⟨ld fun l => { l with stage := .verifying }, _, _, (some (evDckMagic, 0), []), evDckMagic, 0, rfl, rfl, by decide +kernel⟩,
   ⟨ld fun l => { l with stage := .staged }, run, 0, by unfold vendorTaken; decide +kernel⟩,
   ⟨ld fun l => { l with index := some 0, stage := .verified, staged := some dk, slot0 := roleImg }, _, 0, _, _, readDeck roleImg [roleCard],
    (Prod.mk.eta).symm, rfl, by unfold vendorTaken; decide +kernel⟩,
   ⟨ld fun l => { l with stage := .verified }, _, 0, _, _, evDckArmIndex, noOffset, [0xFFFF], (Prod.mk.eta).symm, rfl,
    by unfold vendorTaken; decide +kernel⟩,
   ⟨ld fun l => { l with stage := .arming, staged := some dk }, _, _, (Option.some_get (by decide +kernel)).symm, rfl, by decide +kernel⟩,
   ⟨ld fun l => { l with stage := .arming }, by decide +kernel⟩,
   ⟨up, by decide +kernel⟩,
   ⟨{ run with loader := { run.loader with armed := some dk, stage := .armed } }, _, 0, _, _, _, (Option.some_get (by decide +kernel)).symm,
    rfl, (Option.some_get (by decide +kernel)).symm, rfl, by unfold vendorTaken; decide +kernel⟩⟩

theorem test_meets_DeckCommands_3 :
    (∃ s : State, ∃ s1 : State, ∃ c : Fin 2, ∃ a : Deck, ∃ d : Deck, ∃ ms, s.loader.armed = some a
    ∧ (s1 = startDeadline (modLoader (startBg s c.val 0xC014) fun l => { l with phase := .gathering, gathered := [], alone := heldOut s }) .gather)
    ∧ switchDeck s1 = some d ∧ ms = (if heldOut s then [] else otherMembers s1 d) ∧ vendorTaken s c.val 0xC014 0 [] true
    ∧ s.loader.stage = .armed ∧ a.role.dealer = ownIndex s ∧ ms = []) ∧
    (∃ s : State, ∃ c : Fin 2, vendorTaken s c.val 0xC015 0 [] false ∧ s.loader.phase = .none
    ∧ (s.loader.stage = .verified ∨ s.loader.stage = .armed)) ∧
    (∃ s : State, ∃ c : Fin 2, vendorTaken s c.val 0xC015 0 [] false ∧ (s.loader.phase = .gathering ∨ s.loader.phase = .announced)) ∧
    (∃ s : State, ∃ c : Fin 2, vendorTaken s c.val 0xC015 0 [] false
    ∧ (s.loader.phase = .played ∨ s.loader.phase = .loading ∨ s.loader.phase = .replayed)) ∧
    (∃ s : State, ∃ c : Fin 2, vendorTaken s c.val 0xC015 0 [] false ∧ s.loader.phase = .marking) ∧
    (∃ s : State, ∃ s1 : State,
    (s1 = modLoader (s.loader.fillFrames.foldl fillFrame s) (fun l => { l with poolFill := false, fillFrames := [] }))
    ∧ s.loader.poolFill = true ∧ fillHeld s = false) ∧
    (∃ s : State, ∃ s1 : State,
    (s1 = modLoader (s.loader.fillFrames.foldl fillFrame s) (fun l => { l with poolFill := false, fillFrames := [] }))
    ∧ s.loader.poolFill = true ∧ fillHeld s = true) :=
  ⟨⟨ld fun l => { l with index := some 0, armed := some { dk with role := { dk.role with members := [(0, 0)] } }, stage := .armed }, _, 0, _,
    _, _, (Option.some_get (by decide +kernel)).symm, rfl, (Option.some_get (by decide +kernel)).symm, rfl,
    by unfold vendorTaken; decide +kernel⟩,
   ⟨ld fun l => { l with stage := .armed }, 0, by unfold vendorTaken; decide +kernel⟩,
   ⟨ld fun l => { l with phase := .announced }, 0, by unfold vendorTaken; decide +kernel⟩,
   ⟨ld fun l => { l with phase := .replayed }, 0, by unfold vendorTaken; decide +kernel⟩,
   ⟨ld fun l => { l with phase := .marking }, 0, by unfold vendorTaken; decide +kernel⟩,
   ⟨ld fun l => { l with poolFill := true }, _, rfl, by decide +kernel⟩,
   ⟨{ (ld fun l => { l with poolFill := true, fillFrames := [0] }) with stackMap := [(0, { Stack.empty with writeHold := true })] }, _, rfl,
    by decide +kernel⟩⟩

theorem test_meets_ServingCommands_1 :
    (∃ s : State, ∃ c : Fin 2, ∃ inp : List Byte, vendorTaken s c.val 0xC040 40 inp false ∧ deckOf s = none) ∧
    (∃ s : State, ∃ c : Fin 2, ∃ inp : List Byte, ∃ e, ∃ n, tableEntry s (inByte inp 0) = some e ∧ freeChanIndex s e = some n
    ∧ vendorTaken s c.val 0xC040 40 inp false ∧ (deckOf s).isSome ∧ isDealer s = true ∧ (getTable s (inByte inp 0)).enabled = true
    ∧ (getTable s (inByte inp 0)).disabling = false ∧ chanFieldsBad s inp = false) ∧
    (∃ s : State, ∃ c : Fin 2, ∃ inp : List Byte, ∃ n, ∃ s1, chanOf s (w32 (inField inp 0 4)) = some n
    ∧ (s1 = modChan (startBg s c.val 0xC041) n (fun k => { k with destroying := true })) ∧ zeroFrom inp 4 = true
    ∧ vendorTaken s c.val 0xC041 8 inp true) ∧
    (∃ s : State, ∃ c : Fin 2, ∃ inp : List Byte, zeroFrom inp 4 = true ∧ vendorTaken s c.val 0xC041 8 inp true
    ∧ chanOf s (w32 (inField inp 0 4)) = none) ∧
    (∃ s : State, ∃ c : Fin 2, ∃ inp : List Byte, ∃ n, chanOf s (w32 (inField inp 0 4)) = some n ∧ zeroFrom inp 4 = true
    ∧ vendorTaken s c.val 0xC042 8 inp false ∧ s.host.busMaster = true ∧ (getChan s n).state ≠ .suspended) ∧
    (∃ s : State, ∃ c : Fin 2, ∃ inp : List Byte, ∃ n, ∃ t, ∃ s1, ∃ s2, chanOf s (w32 (inField inp 0 4)) = some n ∧ t = (getChan s n).table
    ∧ (s1 = (getChan s n).gapTags.foldl (fun s g => logGen s evSrvCqGap uCtl (some t) [chanHandle s n, g.2] []) s)
    ∧ s2 = setChan s1 n { getChan s n with state := .opened, gap := 0, gapTags := [] } ∧ zeroFrom inp 4 = true
    ∧ vendorTaken s c.val 0xC042 8 inp false ∧ s.host.busMaster = true ∧ (getChan s n).state = .suspended) :=
  ⟨⟨up, 0, List.replicate 40 0, by unfold vendorTaken; decide +kernel⟩,
   ⟨run, 0, [0, 12, 14, 0] ++ leBytes 4 0 ++ leBytes 8 0x1000 ++ leBytes 8 0x2000 ++ leBytes 8 0x40 ++ leBytes 8 0, _, _,
    (Option.some_get (by decide +kernel)).symm, (Option.some_get (by decide +kernel)).symm, by unfold vendorTaken; decide +kernel⟩,
   ⟨{ run with channels := [(0, { Channel.free with state := .opened })] }, 0, leBytes 8 0x100000, _, _,
    (Option.some_get (by decide +kernel)).symm, rfl, by unfold vendorTaken; decide +kernel⟩,
   ⟨run, 0, leBytes 8 0x100000, by unfold vendorTaken; decide +kernel⟩,
   ⟨{ run with channels := [(0, { Channel.free with state := .closing })] }, 0, leBytes 8 0x100000, _,
    (Option.some_get (by decide +kernel)).symm, by unfold vendorTaken; decide +kernel⟩,
   ⟨{ run with channels := [(0, { Channel.free with state := .suspended })] }, 0, leBytes 8 0x100000, _, _, _, _,
    (Option.some_get (by decide +kernel)).symm, rfl, rfl, rfl, by unfold vendorTaken; decide +kernel⟩⟩

theorem test_meets_ServingCommands_2 :
    (∃ s : State, ∃ c : Fin 2, ∃ inp : List Byte, ∃ n, chanOf s (w32 (inField inp 0 4)) = some n ∧ zeroFrom inp 4 = true
    ∧ vendorTaken s c.val 0xC043 8 inp false) ∧
    (∃ s : State, ∃ s1 : State, ∃ c : Fin 2, ∃ inp : List Byte, ∃ t : Nat, ∃ s2, t = inByte (inp.take 8) 0
    ∧ (s2 = (chansOf (modTable (startBg s1 c.val 0xC044) t fun k => { k with disabling := true }) t).foldl closeChannel (modTable (startBg s1 c.val 0xC044) t fun k => { k with disabling := true }))
    ∧ zeroFrom (inp.take 8) 1 = true ∧ (tableEntry s1 t).isSome ∧ signedTaken s s1 c.val 0xC044 8 inp anyOwner true
    ∧ (getTable s1 t).enabled = true ∧ (getTable s1 t).disabling = false ∧ (getRound s2 t).again = true) ∧
    (∃ s : State, ∃ s1 : State, ∃ c : Fin 2, ∃ inp : List Byte, ∃ t : Nat, ∃ s2, t = inByte (inp.take 8) 0
    ∧ (s2 = (chansOf (modTable (startBg s1 c.val 0xC044) t fun k => { k with disabling := true }) t).foldl closeChannel (modTable (startBg s1 c.val 0xC044) t fun k => { k with disabling := true }))
    ∧ zeroFrom (inp.take 8) 1 = true ∧ (tableEntry s1 t).isSome ∧ signedTaken s s1 c.val 0xC044 8 inp anyOwner true
    ∧ (getTable s1 t).enabled = true ∧ (getTable s1 t).disabling = false ∧ (getRound s2 t).again = false ∧ (getRound s2 t).isOpen = true
    ∧ (getRound s2 t).written = true) ∧
    (∃ s : State, ∃ s1 : State, ∃ c : Fin 2, ∃ inp : List Byte, ∃ t : Nat, ∃ s2, t = inByte (inp.take 8) 0
    ∧ (s2 = (chansOf (modTable (startBg s1 c.val 0xC044) t fun k => { k with disabling := true }) t).foldl closeChannel (modTable (startBg s1 c.val 0xC044) t fun k => { k with disabling := true }))
    ∧ zeroFrom (inp.take 8) 1 = true ∧ (tableEntry s1 t).isSome ∧ signedTaken s s1 c.val 0xC044 8 inp anyOwner true
    ∧ (getTable s1 t).enabled = true ∧ (getTable s1 t).disabling = false ∧ (getRound s2 t).again = false ∧ (getRound s2 t).isOpen = true
    ∧ (getRound s2 t).written = false) ∧
    (∃ s : State, ∃ s1 : State, ∃ c : Fin 2, ∃ inp : List Byte, ∃ t : Nat, ∃ s2, t = inByte (inp.take 8) 0
    ∧ (s2 = (chansOf (modTable (startBg s1 c.val 0xC044) t fun k => { k with disabling := true }) t).foldl closeChannel (modTable (startBg s1 c.val 0xC044) t fun k => { k with disabling := true }))
    ∧ zeroFrom (inp.take 8) 1 = true ∧ (tableEntry s1 t).isSome ∧ signedTaken s s1 c.val 0xC044 8 inp anyOwner true
    ∧ (getTable s1 t).enabled = true ∧ (getTable s1 t).disabling = false ∧ (getRound s2 t).again = false ∧ (getRound s2 t).isOpen = false) ∧
    (∃ s : State, ∃ s1 : State, ∃ c : Fin 2, ∃ inp : List Byte, ∃ t : Nat, t = inByte (inp.take 8) 0 ∧ zeroFrom (inp.take 8) 1 = true
    ∧ (tableEntry s1 t).isSome ∧ signedTaken s s1 c.val 0xC045 8 inp anyOwner false ∧ (getTable s1 t).enabled = false) :=
  ⟨⟨{ run with channels := [(0, { Channel.free with state := .opened })] }, 0, leBytes 8 0x100000, _,
    (Option.some_get (by decide +kernel)).symm, by unfold vendorTaken; decide +kernel⟩,
   ⟨owned ({ run with rounds := [(0, { RoundState.idle with again := true })] }),
    spent ({ run with rounds := [(0, { RoundState.idle with again := true })] }), 0, gDisable, _, _, rfl, rfl,
    by unfold signedTaken; decide +kernel⟩,
   ⟨owned ({ run with rounds := [(0, { opened with written := true })] }),
    spent ({ run with rounds := [(0, { opened with written := true })] }), 0, gDisable, _, _, rfl, rfl,
    by unfold signedTaken; decide +kernel⟩,
   ⟨owned ({ run with rounds := [(0, opened)] }), spent ({ run with rounds := [(0, opened)] }), 0, gDisable, _, _, rfl, rfl,
    by unfold signedTaken; decide +kernel⟩,
   ⟨owned (run), spent (run), 0, gDisable, _, _, rfl, rfl, by unfold signedTaken; decide +kernel⟩,
   ⟨owned ({ run with tables := [] }), spent ({ run with tables := [] }), 0, gEnable, _, rfl, by unfold signedTaken; decide +kernel⟩⟩

theorem test_meets_ServingCommands_3 :
    (∃ s : State, ∃ c : Fin 2, ∃ inp : List Byte, ∃ tokens : List W32, ∃ n : Nat, ∃ i : Nat, n = inField inp 4 4 ∧ freePin s = some i
    ∧ vendorTaken s c.val 0xC050 16 inp true ∧ zeroBytes inp 1 3 = true ∧ isDealer s = true ∧ (tableEntry s (inByte inp 0)).isSome
    ∧ n % 32 = 0 ∧ 32 ≤ n ∧ n ≤ 65536 ∧ s.host.busMaster = true ∧ n ≤ tokens.length) ∧
    (∃ s : State, ∃ c : Fin 2, ∃ inp : List Byte, ∃ i : Nat, ∃ p : Pin, pinOf s (w64 (inField inp 0 8)) = some i
    ∧ vendorTaken s c.val 0xC051 8 inp false ∧ isDealer s = true ∧ sget Pin.free s.cache.pins i = p ∧ p.ready = true) ∧
    (∃ s : State, ∃ c : Fin 2, ∃ inp : List Byte, vendorTaken s c.val 0xC052 8 inp true ∧ zeroFrom inp 1 = true ∧ isDealer s = true
    ∧ inByte inp 0 < 64) ∧
    (∃ s : State, ∃ s1 : State, ∃ c : Fin 2, ∃ inp : List Byte, ∃ own : List Byte, own = inp.take 16
    ∧ signedTaken s s1 c.val 0xC053 16 inp anyOwner false ∧ zeroBytes own 2 2 = true ∧ inByte own 0 < 64 ∧ inByte own 1 < 16
    ∧ (inField own 4 4 = 0 ∨ spillInUse s1 (inByte own 0) = false)) ∧
    (∃ s : State, ∃ s1 : State, ∃ c : Fin 2, ∃ inp : List Byte, ∃ own : List Byte, ∃ w : Nat, own = inp.take 24 ∧ w = inByte own 0
    ∧ signedTaken s s1 c.val 0xC060 24 inp anyOwner false ∧ inByte own 1 < 2 ∧ zeroBytes own 2 6 = true ∧ w < 16
    ∧ inField own 16 8 % 65536 = 0 ∧ windowInUse s1 w = true) ∧
    (∃ s : State, ∃ s1 : State, ∃ c : Fin 2, ∃ inp : List Byte, ∃ own : List Byte, ∃ w : Nat, own = inp.take 24 ∧ w = inByte own 0
    ∧ signedTaken s s1 c.val 0xC060 24 inp anyOwner false ∧ inByte own 1 < 2 ∧ zeroBytes own 2 6 = true ∧ w < 16
    ∧ inField own 16 8 % 65536 = 0 ∧ windowInUse s1 w = false) :=
  ⟨⟨run, 0, leBytes 4 0 ++ leBytes 4 32 ++ leBytes 8 0, List.replicate 32 0, _, _, rfl, (Option.some_get (by decide +kernel)).symm,
    by unfold vendorTaken; decide +kernel⟩,
   ⟨{ run with cache := { run.cache with pins := [(0, pn)] } }, 0, leBytes 8 0x1000000, _, pn, (Option.some_get (by decide +kernel)).symm,
    by unfold vendorTaken; decide +kernel⟩,
   ⟨run, 0, leBytes 8 63, by unfold vendorTaken; decide +kernel⟩,
   ⟨owned (run), spent (run), 0, gSpill, _, rfl, by unfold signedTaken; decide +kernel⟩,
   ⟨owned (withReg { rg with srcModule := 15 }), spent (withReg { rg with srcModule := 15 }), 0, gWindow, _, _, rfl, rfl,
    by unfold signedTaken; decide +kernel⟩,
   ⟨owned (run), spent (run), 0, gWindow, _, _, rfl, rfl, by unfold signedTaken; decide +kernel⟩⟩

theorem test_meets_ServingCommands_4 :
    (∃ s : State, ∃ c : Fin 2, ∃ inp : List Byte, ∃ w : Nat, ∃ b : Nat, ∃ z : Nat, ∃ en : Bool, w = inByte inp 0
    ∧ vendorTaken s c.val 0xC061 8 inp false ∧ zeroFrom inp 1 = true ∧ w < 16 ∧ sget (false, 0, 0) s.host.slow w = (en, b, z)) ∧
    (∃ s : State, ∃ c : Fin 2, vendorTaken s c.val 0xC000 0 [] false) ∧
    (∃ s : State, ∃ c : Fin 2, vendorTaken s c.val 0xC001 0 [] false) ∧
    (∃ s : State, ∃ s1 : State, ∃ c : Fin 2, ∃ inp : List Byte, ∃ es : List (BitVec 16), ∃ s2,
    s2 = toHost (startBg s1 c.val 0xC030) (.ioRead (w64 (inField (inp.take 8) 0 8)) 16384)
    ∧ signedTaken s s1 c.val 0xC030 8 inp anyOwner true ∧ s1.host.busMaster = true ∧ es.length ≤ 8192
    ∧ (((List.range es.length).zip es).find? (fun e => !routeEntryOk e.2) = none) ∧ deckOf s2 = none) ∧
    (∃ s : State, ∃ s1 : State, ∃ c : Fin 2, ∃ inp : List Byte, ∃ es : List (BitVec 16), ∃ s2,
    s2 = toHost (startBg s1 c.val 0xC030) (.ioRead (w64 (inField (inp.take 8) 0 8)) 16384)
    ∧ signedTaken s s1 c.val 0xC030 8 inp anyOwner true ∧ s1.host.busMaster = true ∧ es.length ≤ 8192
    ∧ (((List.range es.length).zip es).find? (fun e => !routeEntryOk e.2) = none) ∧ (deckOf s2).isSome = true) ∧
    (∃ s : State, ∃ s1 : State, ∃ c : Fin 2, ∃ inp : List Byte, ∃ es : List (BitVec 16), ∃ s2, ∃ e,
    s2 = toHost (startBg s1 c.val 0xC030) (.ioRead (w64 (inField (inp.take 8) 0 8)) 16384)
    ∧ signedTaken s s1 c.val 0xC030 8 inp anyOwner true ∧ s1.host.busMaster = true ∧ es.length ≤ 8192
    ∧ (((List.range es.length).zip es).find? (fun e => !routeEntryOk e.2) = some e)) :=
  ⟨⟨run, 0, leBytes 8 15, _, 0, 0, false, rfl, by unfold vendorTaken; decide +kernel⟩,
   ⟨up, 0, by unfold vendorTaken; decide +kernel⟩,
   ⟨up, 0, by unfold vendorTaken; decide +kernel⟩,
   ⟨owned (up), spent (up), 0, gRoutes, [0x00F0], _, rfl, by unfold signedTaken; decide +kernel⟩,
   ⟨owned (run), spent (run), 0, gRoutes, [0x00F0], _, rfl, by unfold signedTaken; decide +kernel⟩,
   ⟨owned (up), spent (up), 0, gRoutes, [0x0300], _, (0, 0x0300), rfl, by unfold signedTaken; decide +kernel⟩⟩

theorem test_meets_ServingCommands_5 :
    (∃ s : State, ∃ s1 : State, ∃ c : Fin 2, ∃ inp : List Byte, ∃ own : List Byte, ∃ p : Nat, ∃ m : Nat, own = inp.take 8 ∧ p = inByte own 0
    ∧ m = inField own 2 2 ∧ p < 12 ∧ signedTaken s s1 c.val 0xC031 8 inp anyOwner false ∧ inByte own 1 = 0 ∧ zeroFrom own 4 = true
    ∧ m < 2 ^ 13 ∧ deckOf s1 = none) ∧
    (∃ s : State, ∃ s1 : State, ∃ c : Fin 2, ∃ inp : List Byte, ∃ own : List Byte, ∃ p : Nat, ∃ m : Nat, own = inp.take 8 ∧ p = inByte own 0
    ∧ m = inField own 2 2 ∧ p < 12 ∧ signedTaken s s1 c.val 0xC031 8 inp anyOwner false ∧ inByte own 1 = 0 ∧ zeroFrom own 4 = true
    ∧ m < 2 ^ 13 ∧ (deckOf s1).isSome = true ∧ isDealer s1 = true) ∧
    (∃ s : State, ∃ s1 : State, ∃ c : Fin 2, ∃ inp : List Byte, ∃ own : List Byte, ∃ p : Nat, ∃ m : Nat, own = inp.take 8 ∧ p = inByte own 0
    ∧ p < 12 ∧ signedTaken s s1 c.val 0xC032 8 inp anyOwner false ∧ zeroFrom own 1 = true) :=
  ⟨⟨owned (up), spent (up), 0, gQuar, _, _, _, rfl, rfl, rfl, by unfold signedTaken; decide +kernel⟩,
   ⟨owned (run), spent (run), 0, gQuar, _, _, _, rfl, rfl, rfl, by unfold signedTaken; decide +kernel⟩,
   ⟨owned (up), spent (up), 0, gRetire, _, _, 0, rfl, rfl, by unfold signedTaken; decide +kernel⟩⟩

theorem test_meets_SecurityAndRepairCommands_1 :
    (∃ s : State, ∃ s1 : State, ∃ c : Fin 2, ∃ n : BitVec 128, n = Config.freeValue (s.freeNext + 1) ++ Config.freeValue s.freeNext
    ∧ s1 = startDeadline { s with freeNext := s.freeNext + 2 } (.nonce c.val) ∧ vendorTaken s c.val 0xC020 0 [] false) ∧
    (∃ s : State, ∃ t : State, ∃ c : Fin 2, t = expire s (.nonce c.val) (60 * countsSec)) ∧
    (∃ s : State, ∃ c : Fin 2, vendorTaken s c.val 0xC021 0 [] false) ∧
    (∃ s : State, ∃ s1 : State, ∃ c : Fin 2, ∃ inp : List Byte, ∃ own : List Byte, ∃ slot : Nat, own = inp.take 56 ∧ slot = inByte own 0
    ∧ (signedTaken s s1 c.val 0xC022 56 inp (fun k => if (enrolledSlots s).isEmpty then k = 0xFF else k < 4) true)
    ∧ zeroBytes own 1 7 = true ∧ slot < 4 ∧ sget 0 s1.sec.ownerState slot = 0) ∧
    (∃ s : State, ∃ s1 : State, ∃ c : Fin 2, ∃ inp : List Byte, ∃ own : List Byte, ∃ slot : Nat, own = inp.take 56 ∧ slot = inByte own 0
    ∧ (signedTaken s s1 c.val 0xC022 56 inp (fun k => if (enrolledSlots s).isEmpty then k = 0xFF else k < 4) true)
    ∧ zeroBytes own 1 7 = true ∧ (4 ≤ slot ∨ sget 0 s1.sec.ownerState slot ≠ 0)) ∧
    (∃ s : State, ∃ s1 : State, ∃ c : Fin 2, ∃ inp : List Byte, ∃ own : List Byte, ∃ slot : Nat, own = inp.take 8 ∧ slot = inByte own 0
    ∧ (signedTaken s s1 c.val 0xC023 8 inp (fun k => k < 4 && (k ≠ slot || enrolledSlots s = [slot])) true) ∧ zeroFrom own 1 = true
    ∧ enrolledSlots s = [slot]) ∧
    (∃ s : State, ∃ s1 : State, ∃ c : Fin 2, ∃ inp : List Byte, ∃ own : List Byte, ∃ slot : Nat, own = inp.take 8 ∧ slot = inByte own 0
    ∧ (signedTaken s s1 c.val 0xC023 8 inp (fun k => k < 4 && (k ≠ slot || enrolledSlots s = [slot])) true) ∧ zeroFrom own 1 = true
    ∧ enrolledSlots s ≠ [slot] ∧ enrolled s1 slot = true) ∧
    (∃ s : State, ∃ s1 : State, ∃ c : Fin 2, ∃ inp : List Byte, ∃ f : FwImage, runningFw s1 = some f
    ∧ (∀ g, fwSlot s1 (1 - runSlot s1) = some g → f.svn ≤ g.svn) ∧ signedTaken s s1 c.val 0xC024 0 inp anyOwner true) :=
  ⟨⟨up, _, 0, _, rfl, rfl, by unfold vendorTaken; decide +kernel⟩,
   ⟨up, _, 0, rfl⟩,
   ⟨up, 0, by unfold vendorTaken; decide +kernel⟩,
   ⟨owned (up), spent (up), 0, gEnroll, _, _, rfl, rfl, by unfold signedTaken; decide +kernel⟩,
   ⟨owned (up), spent (up), 0, gEnrollBad, _, _, rfl, rfl, by unfold signedTaken; decide +kernel⟩,
   ⟨owned (up), spent (up), 0, gRevoke, _, _, rfl, rfl, by unfold signedTaken; decide +kernel⟩,
   ⟨owned2 up, spent2 up, 0, gRevokeTwo, _, _, rfl, rfl, by unfold signedTaken; decide +kernel⟩,
   ⟨owned (withCtl run fun c => { c with fw0 := some (fwz 2), fw1 := none }),
    spent (withCtl run fun c => { c with fw0 := some (fwz 2), fw1 := none }), 0, gSvn, _, (Option.some_get (by decide +kernel)).symm,
    fun _ q => no_some (by decide +kernel) q, by unfold signedTaken; decide +kernel⟩⟩

theorem test_meets_SecurityAndRepairCommands_2 :
    (∃ s : State, ∃ s1 : State, ∃ c : Fin 2, ∃ inp : List Byte, ∃ f : FwImage, ∃ g, runningFw s1 = some f
    ∧ fwSlot s1 (1 - runSlot s1) = some g ∧ signedTaken s s1 c.val 0xC024 0 inp anyOwner true ∧ g.svn < f.svn) ∧
    (∃ s : State, ∃ s1 : State, ∃ c : Fin 2, ∃ inp : List Byte, ∃ own : List Byte, own = inp.take 8
    ∧ (signedTaken s s1 c.val 0xC025 8 inp (fun k => k = 0xFF) false) ∧ zeroFrom own 1 = true ∧ inByte own 0 = 1 ∧ bgBusy s1 = false) ∧
    (∃ s : State, ∃ s1 : State, ∃ c : Fin 2, ∃ inp : List Byte, ∃ own : List Byte, own = inp.take 8
    ∧ (signedTaken s s1 c.val 0xC025 8 inp (fun k => k = 0xFF) false) ∧ zeroFrom own 1 = true ∧ inByte own 0 = 0) ∧
    (∃ s : State, ∃ s1 : State, ∃ f : FuseOp, ∃ r : List FuseOp, ∃ slot, ∃ h, s1 = { s with sec := { s.sec with fuseQueue := r } }
    ∧ s.sec.fuseQueue = f :: r ∧ s.power.inputOn = true ∧ (getDiode s 0).valid = true ∧ (getDiode s 0).failed = false
    ∧ 40 ≤ (getDiode s 0).temp ∧ (getDiode s 0).temp ≤ 280 ∧ f = .enroll slot h) ∧
    (∃ s : State, ∃ s1 : State, ∃ f : FuseOp, ∃ r : List FuseOp, ∃ slot, s1 = { s with sec := { s.sec with fuseQueue := r } }
    ∧ s.sec.fuseQueue = f :: r ∧ s.power.inputOn = true ∧ (getDiode s 0).valid = true ∧ (getDiode s 0).failed = false
    ∧ 40 ≤ (getDiode s 0).temp ∧ (getDiode s 0).temp ≤ 280 ∧ f = .revoke slot) ∧
    (∃ s : State, ∃ s1 : State, ∃ f : FuseOp, ∃ r : List FuseOp, ∃ n, s1 = { s with sec := { s.sec with fuseQueue := r } }
    ∧ s.sec.fuseQueue = f :: r ∧ s.power.inputOn = true ∧ (getDiode s 0).valid = true ∧ (getDiode s 0).failed = false
    ∧ 40 ≤ (getDiode s 0).temp ∧ (getDiode s 0).temp ≤ 280 ∧ f = .svn n) ∧
    (∃ s : State, ∃ s1 : State, ∃ f : FuseOp, ∃ r : List FuseOp, s1 = { s with sec := { s.sec with fuseQueue := r } }
    ∧ s.sec.fuseQueue = f :: r ∧ s.power.inputOn = true ∧ (getDiode s 0).valid = true ∧ (getDiode s 0).failed = false
    ∧ 40 ≤ (getDiode s 0).temp ∧ (getDiode s 0).temp ≤ 280 ∧ f = .debug) ∧
    (∃ s : State, ∃ s1 : State, ∃ f : FuseOp, ∃ r : List FuseOp, s1 = { s with sec := { s.sec with fuseQueue := r } }
    ∧ s.sec.fuseQueue = f :: r ∧ s.power.inputOn = true
    ∧ ((getDiode s 0).valid = false ∨ (getDiode s 0).failed = true ∨ (getDiode s 0).temp < 40 ∨ 280 < (getDiode s 0).temp)) :=
  ⟨⟨owned (withCtl run fun c => { c with fw0 := some (fwz 2), fw1 := some (fwz 1) }),
    spent (withCtl run fun c => { c with fw0 := some (fwz 2), fw1 := some (fwz 1) }), 0, gSvn, _, _,
    (Option.some_get (by decide +kernel)).symm, (Option.some_get (by decide +kernel)).symm, by unfold signedTaken; decide +kernel⟩,
   ⟨owned (up), spent (up), 0, gDebug, _, rfl, by unfold signedTaken; decide +kernel⟩,
   ⟨owned (up), spent (up), 0, gUndebug, _, rfl, by unfold signedTaken; decide +kernel⟩,
   ⟨{ up with sec := { Security.reset with fuseQueue := [.enroll 3 0] }, power := { up.power with diodes := [(0, { Diode.unread with valid := true, temp := 280 })] } },
    _, .enroll 3 0, [], 3, 0, rfl, by decide +kernel⟩,
   ⟨{ up with sec := { Security.reset with fuseQueue := [.revoke 3] }, power := { up.power with diodes := [(0, { Diode.unread with valid := true, temp := 40 })] } },
    _, .revoke 3, [], 3, rfl, by decide +kernel⟩,
   ⟨{ up with sec := { Security.reset with fuseQueue := [.svn 64] }, power := { up.power with diodes := [(0, { Diode.unread with valid := true, temp := 280 })] } },
    _, .svn 64, [], 64, rfl, by decide +kernel⟩,
   ⟨{ up with sec := { Security.reset with fuseQueue := [.debug] }, power := { up.power with diodes := [(0, { Diode.unread with valid := true, temp := 40 })] } },
    _, .debug, [], rfl, by decide +kernel⟩,
   ⟨{ up with sec := { Security.reset with fuseQueue := [.debug] }, power := { up.power with diodes := [(0, { Diode.unread with valid := true, temp := 39 })] } },
    _, .debug, [], rfl, by decide +kernel⟩⟩

theorem test_meets_SecurityAndRepairCommands_3 :
    (∃ s : State, ∃ c : Fin 2, vendorTaken s c.val 0xC070 0 [] false) ∧
    (∃ s : State, ∃ s1 : State, ∃ c : Fin 2, ∃ inp : List Byte, ∃ own : List Byte, own = inp.take 8
    ∧ signedTaken s s1 c.val 0xC071 8 inp anyOwner true ∧ inByte own 0 < 2 ∧ zeroFrom own 1 = true
    ∧ (s1.ctl.idState = .misdeal ∨ deckOf s1 = none) ∧ s1.ctl.testing = false) ∧
    (∃ s : State, ∃ s1 : State, ∃ c : Fin 2, ∃ inp : List Byte, ∃ own : List Byte, own = inp.take 8
    ∧ signedTaken s s1 c.val 0xC071 8 inp anyOwner true ∧ inByte own 0 < 2 ∧ zeroFrom own 1 = true ∧ s1.ctl.testing = true) ∧
    (∃ s : State, ∃ s1 : State, ∃ c : Fin 2, ∃ inp : List Byte, signedTaken s s1 c.val 0xC072 0 inp anyOwner true ∧ deckOf s1 = none) ∧
    (∃ s : State, ∃ s1 : State, ∃ c : Fin 2, ∃ inp : List Byte, ∃ d, deckOf s1 = some d ∧ signedTaken s s1 c.val 0xC072 0 inp anyOwner true
    ∧ isDealer s1 = true) ∧
    (∃ s : State, ∃ s1 : State, ∃ c : Fin 2, ∃ inp : List Byte, ∃ d, deckOf s1 = some d ∧ signedTaken s s1 c.val 0xC072 0 inp anyOwner true
    ∧ isDealer s1 = false) ∧
    (∃ s : State, ∃ s1 : State, ∃ c : Fin 2, ∃ inp : List Byte, signedTaken s s1 c.val 0xC073 0 inp anyOwner true ∧ s1.ctl.idState = .misdeal) ∧
    (∃ s : State, ∃ s1 : State, ∃ c : Fin 2, ∃ inp : List Byte, ∃ own : List Byte, ∃ d, own = inp.take 8
    ∧ domainOfKind (inByte own 0) (inByte own 1) = some d ∧ signedTaken s s1 c.val 0xC074 8 inp anyOwner true ∧ zeroFrom own 2 = true) :=
  ⟨⟨up, 0, by unfold vendorTaken; decide +kernel⟩,
   ⟨owned (up), spent (up), 0, gTest, _, rfl, by unfold signedTaken; decide +kernel⟩,
   ⟨owned (withCtl up fun c => { c with testing := true }), spent (withCtl up fun c => { c with testing := true }), 0, gTest, _, rfl,
    by unfold signedTaken; decide +kernel⟩,
   ⟨owned (up), spent (up), 0, gOnline, by unfold signedTaken; decide +kernel⟩,
   ⟨owned (run), spent (run), 0, gOnline, _, (Option.some_get (by decide +kernel)).symm, by unfold signedTaken; decide +kernel⟩,
   ⟨owned (mem), spent (mem), 0, gOnline, _, (Option.some_get (by decide +kernel)).symm, by unfold signedTaken; decide +kernel⟩,
   ⟨owned (withCtl up fun c => { c with idState := .misdeal }), spent (withCtl up fun c => { c with idState := .misdeal }), 0, gAck,
    by unfold signedTaken; decide +kernel⟩,
   ⟨owned (up), spent (up), 0, gReset, _, _, rfl, (Option.some_get (by decide +kernel)).symm, by unfold signedTaken; decide +kernel⟩⟩

theorem test_meets_SecurityAndRepairCommands_4 :
    (∃ s : State, ∃ s1 : State, ∃ c : Fin 2, ∃ inp : List Byte, ∃ own : List Byte, own = inp.take 8
    ∧ signedTaken s s1 c.val 0xC074 8 inp anyOwner true ∧ zeroFrom own 2 = true ∧ domainOfKind (inByte own 0) (inByte own 1) = none) :=
  ⟨owned (up), spent (up), 0, gResetBad, _, rfl, by unfold signedTaken; decide +kernel⟩

theorem test_meets_Registers_1 :
    (∃ s : State, ∃ o, hears s 0 = true ∧ (∃ l ∈ sourceLines s o, linePoisoned s l = true)) ∧
    (∃ s : State, ∃ t, ∃ k, hears s 0 = true ∧ t < 64 ∧ k < 4) ∧
    (∃ s : State, ∃ t : Nat, ∃ k : Nat, ∃ v : W32, ∃ r : Regulator, ∃ en : Bool, ∃ refill : W32, ∃ depth : W32, ∃ i, ∃ w,
    i ∈ ([.rglWrite w v, .registerWrite w v] : List Instr) ∧ w = 0x300000 + 256 * t + 16 * k ∧ hears s 0 = true ∧ t < 64 ∧ k < 10
    ∧ getReg s (16 * t + k) = r ∧ r.pend.getD (r.enable, r.refill, r.depth) = (en, refill, depth)) ∧
    (∃ s : State, ∃ t : Nat, ∃ k : Nat, ∃ v : W32, ∃ r : Regulator, ∃ en : Bool, ∃ refill : W32, ∃ depth : W32, ∃ i, ∃ w,
    i ∈ ([.rglWrite w v, .registerWrite w v] : List Instr) ∧ w = 0x300004 + 256 * t + 16 * k ∧ hears s 0 = true ∧ t < 64 ∧ k < 10
    ∧ getReg s (16 * t + k) = r ∧ r.pend.getD (r.enable, r.refill, r.depth) = (en, refill, depth)) ∧
    (∃ s : State, ∃ t : Nat, ∃ k : Nat, ∃ v : W32, ∃ r : Regulator, ∃ en : Bool, ∃ refill : W32, ∃ depth : W32, ∃ i, ∃ w,
    i ∈ ([.rglWrite w v, .registerWrite w v] : List Instr) ∧ w = 0x300008 + 256 * t + 16 * k ∧ hears s 0 = true ∧ t < 64 ∧ k < 10
    ∧ getReg s (16 * t + k) = r ∧ r.pend.getD (r.enable, r.refill, r.depth) = (en, refill, depth)) ∧
    (∃ s : State, ∃ v : W32, ∃ p : Power, ∃ i, i ∈ ([.thermLimitCtlWrite v, .registerWrite 0x30004 v] : List Instr)
    ∧ p = { s.power with limitRejected := s.power.limitRejected && !bitOf v.toNat 8 } ∧ hears s 0 = true ∧ 80 ≤ v.toNat % 256
    ∧ v.toNat % 256 ≤ 95) ∧
    (∃ s : State, ∃ v : W32, ∃ p : Power, ∃ i, i ∈ ([.thermLimitCtlWrite v, .registerWrite 0x30004 v] : List Instr)
    ∧ p = { s.power with limitRejected := s.power.limitRejected && !bitOf v.toNat 8 } ∧ hears s 0 = true
    ∧ (v.toNat % 256 < 80 ∨ 95 < v.toNat % 256)) ∧
    (∃ s : State, ∃ n : Fin 20, ∃ v : W32, ∃ mv : Nat, ∃ i,
    i ∈ ([.pwrDomainSetpointWrite n v, .registerWrite (0x40100 + 4 * n.val) v] : List Instr) ∧ mv = v.toNat % 1024 ∧ hears s 0 = true
    ∧ 650 ≤ mv ∧ mv ≤ 850 ∧ mv % 5 = 0) :=
  ⟨⟨withSess (withStack fun k => { k with wcb := [{ we 0 with poison := 1 }] }) fun c => { c with state := .idle }, 0x200014,
    by decide +kernel⟩,
   ⟨run, 63, 3, by decide +kernel⟩,
   ⟨{ run with regs := [(1017, { Regulator.off with pend := some (true, 1, 4096) })] }, 63, 9, 0,
    { Regulator.off with pend := some (true, 1, 4096) }, true, 1, 4096, .registerWrite 0x303F90 0, _, (by simp), rfl, by decide +kernel⟩,
   ⟨{ run with regs := [(1017, { Regulator.off with pend := some (true, 1, 4096) })] }, 63, 9, 0,
    { Regulator.off with pend := some (true, 1, 4096) }, true, 1, 4096, .registerWrite 0x303F94 0, _, (by simp), rfl, by decide +kernel⟩,
   ⟨{ run with regs := [(1017, { Regulator.off with pend := some (true, 1, 4096) })] }, 63, 9, 0,
    { Regulator.off with pend := some (true, 1, 4096) }, true, 1, 4096, .registerWrite 0x303F98 0, _, (by simp), rfl, by decide +kernel⟩,
   ⟨run, 80, _, .thermLimitCtlWrite 80, (by simp), rfl, by decide +kernel⟩,
   ⟨run, 96, _, .thermLimitCtlWrite 96, (by simp), rfl, by decide +kernel⟩,
   ⟨run, 19, 850, _, .pwrDomainSetpointWrite 19 850, (by simp), rfl, by decide +kernel⟩⟩

theorem test_meets_Registers_2 :
    (∃ s : State, ∃ n : Fin 20, ∃ v : W32, ∃ mv : Nat, ∃ i,
    i ∈ ([.pwrDomainSetpointWrite n v, .registerWrite (0x40100 + 4 * n.val) v] : List Instr) ∧ mv = v.toNat % 1024 ∧ hears s 0 = true
    ∧ (mv < 650 ∨ 850 < mv ∨ mv % 5 ≠ 0)) ∧
    (∃ s : State, ∃ v : W32, ∃ o, hears s 0 = true ∧ (o < 0x30000 ∨ 0x900008 < o)) ∧
    (∃ s : State, ∃ s1, (s1 = (s.regs.map (·.1)).foldl (fun s n => setReg s n (applyPend (refillReg (getReg s n)))) s)
    ∧ s.power.inputOn = true) ∧
    (∃ r : Regulator, r.enable = true) ∧
    (∃ r : Regulator, r.level ≤ r.depth.toNat) ∧
    (∃ r : Regulator, ∃ refill, ∃ depth, r.pend = some (true, refill, depth) ∧ (refill = 0 ∨ depth.toNat < 4096)) ∧
    (∃ r : Regulator, ∃ refill, ∃ depth, r.pend = some (true, refill, depth) ∧ refill ≠ 0 ∧ 4096 ≤ depth.toNat ∧ r.enable = false) ∧
    (∃ r : Regulator, ∃ refill, ∃ depth, r.pend = some (true, refill, depth) ∧ refill ≠ 0 ∧ 4096 ≤ depth.toNat ∧ r.enable = true) :=
  ⟨⟨run, 19, 851, _, .pwrDomainSetpointWrite 19 851, (by simp), rfl, by decide +kernel⟩,
   ⟨run, 0, 0x90000C, by decide +kernel⟩,
   ⟨run, _, rfl, by decide +kernel⟩,
   ⟨{ Regulator.off with enable := true }, by decide +kernel⟩,
   ⟨Regulator.off, by decide +kernel⟩,
   ⟨{ Regulator.off with pend := some (true, 1, 4095) }, 1, 4095, by decide +kernel⟩,
   ⟨{ Regulator.off with pend := some (true, 1, 4096) }, 1, 4096, by decide +kernel⟩,
   ⟨{ Regulator.off with pend := some (true, 1, 4096), enable := true }, 1, 4096, by decide +kernel⟩⟩

theorem test_meets_Registers_3 :
    (∃ s : State, ∃ counts : List Nat, s.power.inputOn = true ∧ swf 0 s.pace = true) ∧
    (∃ s : State, ∃ o : Nat, ∃ v : W32, ∃ n : Fin 20, ∃ cs : List Nat, ∃ i,
    i ∈ ([.telMeterLoRead o, .rglWrite o v, .thermLimitCtlWrite v, .pwrDomainSetpointWrite n v, .registerWrite o v] : List Instr)
    ∧ hears s 0 = false) ∧
    (∃ s : State, ∃ o : Nat, ∃ v : W32, ∃ n : Fin 20, ∃ cs : List Nat, ∃ i, i ∈ ([.regulatorRefillTick, .paceUpdate cs] : List Instr)
    ∧ s.power.inputOn = false) :=
  ⟨⟨run, [], by decide +kernel⟩,
   ⟨State.reset, 0, 0, 0, [], .registerWrite 0 0, (by simp), by decide +kernel⟩,
   ⟨State.reset, 0, 0, 0, [], .regulatorRefillTick, (by simp), by decide +kernel⟩⟩

theorem test_meets_ControlCores_1 :
    (∃ s : State, s.power.inputOn = true ∧ s.ctl.activeCore = 0) ∧
    (∃ s : State, s.power.inputOn = true ∧ s.ctl.activeCore ≠ 0) ∧
    (∃ s : State, ∃ t, t = startDeadline (expire s .watchdog (50 * countsMs)) .watchdog ∧ s.power.inputOn = true) ∧
    (∃ s : State, s.power.inputOn = true ∧ s.ctl.idState ≠ .boot ∧ s.ctl.recovering.contains .wholeModule = false
    ∧ beatOf s s.ctl.activeCore ≠ s.ctl.beatSeen) ∧
    (∃ s : State, s.power.inputOn = true ∧ s.ctl.idState ≠ .boot ∧ s.ctl.recovering.contains .wholeModule = false
    ∧ beatOf s s.ctl.activeCore = s.ctl.beatSeen ∧ s.ctl.missed < 2) ∧
    (∃ s : State, ∃ s1, ∃ old, ∃ s2, old = s.ctl.activeCore
    ∧ (s1 = modCtl (logGen s evBupHangControl uCtl none [w32 old] []) (fun c => { c with hangs := min 255 (c.hangs + 1), missed := 0 }))
    ∧ (s2 = hangInActivation (modCtl s1 fun c => { c with activeCore := 1 - old, standbyReady := false })) ∧ s.power.inputOn = true
    ∧ s.ctl.idState ≠ .boot ∧ s.ctl.recovering.contains .wholeModule = false ∧ beatOf s s.ctl.activeCore = s.ctl.beatSeen
    ∧ 2 ≤ s.ctl.missed ∧ s.ctl.standbyReady = true) ∧
    (∃ s : State, ∃ s1, ∃ old, old = s.ctl.activeCore
    ∧ (s1 = modCtl (logGen s evBupHangControl uCtl none [w32 old] []) (fun c => { c with hangs := min 255 (c.hangs + 1), missed := 0 }))
    ∧ s.power.inputOn = true ∧ s.ctl.idState ≠ .boot ∧ s.ctl.recovering.contains .wholeModule = false
    ∧ beatOf s s.ctl.activeCore = s.ctl.beatSeen ∧ 2 ≤ s.ctl.missed ∧ s.ctl.standbyReady = false ∧ s.ctl.idState = .running) ∧
    (∃ s : State, (s.ctl.idState = .boot ∨ s.ctl.recovering.contains .wholeModule = true)) :=
  ⟨⟨run, by decide +kernel⟩,
   ⟨withCtl run fun c => { c with activeCore := 1 }, by decide +kernel⟩,
   ⟨run, _, rfl, by decide +kernel⟩,
   ⟨withCtl run fun c => { c with beat0 := 1 }, by decide +kernel⟩,
   ⟨withCtl run fun c => { c with missed := 1 }, by decide +kernel⟩,
   ⟨withCtl run fun c => { c with missed := 2, standbyReady := true }, _, _, _, rfl, rfl, rfl, by decide +kernel⟩,
   ⟨withCtl run fun c => { c with missed := 2 }, _, _, rfl, rfl, by decide +kernel⟩,
   ⟨State.reset, by decide +kernel⟩⟩

theorem test_meets_ControlCores_2 :
    (∃ s : State, s.ctl.fwPhase = .loading ∧ noOpenRound s = false) ∧
    (∃ s : State, ∃ s1,
    s1 = startDeadline { s with ctl := { s.ctl with fwPhase := .probation, activeCore := 1 - s.ctl.activeCore, standbyReady := true, missed := 0 } } .probation
    ∧ s.ctl.fwPhase = .loading ∧ noOpenRound s = true) ∧
    (∃ s : State, ∃ t, t = expire s .standbyLoad (2 * countsSec) ∧ s.ctl.fwPhase = .loading) ∧
    (∃ s : State, ∃ t : State, t = expire s .probation (10 * countsSec) ∧ s.ctl.fwPhase = .probation) ∧
    (∃ s : State, ∃ s1 : State, s1 = { s with ctl := { s.ctl with standbyReady := true, fwMarksPending := true } }
    ∧ s.ctl.fwPhase = .reloading ∧ storeWindow s = false) ∧
    (∃ s : State, ∃ s1 : State, ∃ f, ∃ k, s1 = { s with ctl := { s.ctl with standbyReady := true, fwMarksPending := true } }
    ∧ k = 1 - s.ctl.bootSlot ∧ fwSlot s k = some f ∧ s.ctl.fwPhase = .reloading ∧ storeWindow s = true) ∧
    (∃ s : State, ∃ i, i ∈ ([.standbyImageReady, .standbyLoadTimeout, .fwProbationExpiry, .oldActiveReloaded] : List Instr)
    ∧ s.ctl.fwPhase = .none) :=
  ⟨⟨{ (withCtl run fun c => { c with fwPhase := .loading }) with rounds := [(0, opened)] }, by decide +kernel⟩,
   ⟨withCtl run fun c => { c with fwPhase := .loading }, _, rfl, by decide +kernel⟩,
   ⟨withCtl run fun c => { c with fwPhase := .loading }, _, rfl, by decide +kernel⟩,
   ⟨withCtl run fun c => { c with fwPhase := .probation }, _, rfl, by decide +kernel⟩,
   ⟨withCtl run fun c => { c with fwPhase := .reloading }, _, rfl, by decide +kernel⟩,
   ⟨withCtl (warm run) fun c => { c with fwPhase := .reloading, fw1 := some (fwz 1) }, _, _, _, rfl, rfl,
    (Option.some_get (by decide +kernel)).symm, by decide +kernel⟩,
   ⟨run, .standbyImageReady, (by simp), by decide +kernel⟩⟩

theorem test_meets_PowerAndStartup_1 :
    (∃ s : State, ∃ s1 : State, ∃ v : Nat, ∃ a : Nat,
    s1 = { s with power := { s.power with inputOn := true, voltage := v, mgmtAddr := a, enableOpen := false, tripped := false, tripLatch := s.power.tripped } }
    ∧ s.power.inputOn = false ∧ 4600 ≤ v ∧ s.power.tripped = false) ∧
    (∃ s : State, ∃ s1 : State, ∃ v : Nat, ∃ a : Nat,
    s1 = { s with power := { s.power with inputOn := true, voltage := v, mgmtAddr := a, enableOpen := false, tripped := false, tripLatch := s.power.tripped } }
    ∧ s.power.inputOn = false ∧ 4600 ≤ v ∧ s.power.tripped = true) ∧
    (∃ s : State, ∃ s1 : State, ∃ v : Nat, s1 = { s with power := { s.power with voltage := v, inputLow := true } } ∧ s.power.inputOn = true
    ∧ v < 4600 ∧ s.power.inputLow = true) ∧
    (∃ s : State, ∃ s1 : State, ∃ v : Nat, s1 = { s with power := { s.power with voltage := v, inputLow := true } } ∧ s.power.inputOn = true
    ∧ v < 4600 ∧ s.power.inputLow = false) ∧
    (∃ s : State, ∃ s1 : State, ∃ v : Nat, s.power.inputOn = true ∧ 4600 ≤ v) :=
  ⟨⟨State.reset, _, 4600, 0, rfl, by decide +kernel⟩,
   ⟨{ up with power := { Power.reset with tripped := true } }, _, 4600, 0, rfl, by decide +kernel⟩,
   ⟨{ up with power := { Power.reset with inputOn := true, inputLow := true } }, _, 4599, rfl, by decide +kernel⟩,
   ⟨run, _, 4599, rfl, by decide +kernel⟩,
   ⟨run, run, 4600, by decide +kernel⟩⟩

theorem test_meets_PowerAndStartup_2 :
    (∃ s : State, s.power.inputOn = true) ∧
    (∃ s : State, ∃ t : State, ∃ trip : Bool, ∃ open_ : Bool, t = powerLost s trip open_) ∧
    (∃ s : State, ∃ p : OutPin, s.power.inputOn = false ∧ p ≠ .prsntN) ∧
    (∃ s : State, ∃ p : OutPin, s.power.inputOn = true ∧ (s.ctl.idState = .misdeal ∨ s.power.shutdown = true)) ∧
    (∃ s : State, ∃ p : OutPin, s.ctl.idState ≠ .misdeal ∧ s.power.shutdown = false) :=
  ⟨⟨run, by decide +kernel⟩,
   ⟨run, _, false, false, rfl⟩,
   ⟨State.reset, .faultN, by decide +kernel⟩,
   ⟨withCtl run fun c => { c with idState := .misdeal }, .faultN, by decide +kernel⟩,
   ⟨run, .faultN, by decide +kernel⟩⟩

theorem test_meets_PowerAndStartup_3 :
    (∃ s : State, ∃ d : Fin 9, ∃ r : Int, s.power.inputOn = true ∧ (getDiode s d.val).failed = false ∧ -160 ≤ r ∧ r ≤ 500) ∧
    (∃ s : State, ∃ d : Fin 9, ∃ t, ∃ x, ∃ r : Int, t = failDiode s d.val
    ∧ x = (if t.power.shutdown && allCool t then leaveShutdown t d.val (hottest t) else t) ∧ s.power.inputOn = true
    ∧ (getDiode s d.val).failed = false ∧ s.ctl.testing = false ∧ (r < -160 ∨ 500 < r)) ∧
    (∃ s : State, ∃ n : Fin 20, (getDomain s n.val).on = true ∧ (getDomain s n.val).inReg = false) ∧
    (∃ s : State, ∃ s1 : State, ∃ n : Fin 20,
    s1 = logBare (setDomain (expire s (.regulation n.val) countsMs) n.val { getDomain s n.val with on := false, inReg := false, failed := true }) evThmDomainFault (uDomain n.val)
    ∧ (getDomain s n.val).on = true ∧ (getDomain s n.val).inReg = false ∧ s1.ctl.testing = true) ∧
    (∃ s : State, ∃ s1 : State, ∃ n : Fin 20,
    s1 = logBare (setDomain (expire s (.regulation n.val) countsMs) n.val { getDomain s n.val with on := false, inReg := false, failed := true }) evThmDomainFault (uDomain n.val)
    ∧ (getDomain s n.val).on = true ∧ (getDomain s n.val).inReg = false ∧ s1.ctl.testing = false ∧ s.ctl.recovering = []) :=
  ⟨⟨run, 8, 500, by decide +kernel⟩,
   ⟨run, 8, _, _, -161, rfl, rfl, by decide +kernel⟩,
   ⟨{ run with power := { run.power with domains := [(19, { Domain.off with on := true })] } }, 19, by decide +kernel⟩,
   ⟨{ (withCtl run fun c => { c with testing := true }) with power := { run.power with domains := [(19, { Domain.off with on := true })] } },
    _, 19, rfl, by decide +kernel⟩,
   ⟨{ run with power := { run.power with domains := [(19, { Domain.off with on := true })] } }, _, 19, rfl, by decide +kernel⟩⟩

theorem test_meets_PowerAndStartup_4 :
    (∃ s : State, ∃ s1 : State, ∃ n : Fin 20,
    s1 = logBare (setDomain (expire s (.regulation n.val) countsMs) n.val { getDomain s n.val with on := false, inReg := false, failed := true }) evThmDomainFault (uDomain n.val)
    ∧ (getDomain s n.val).on = true ∧ (getDomain s n.val).inReg = false ∧ s1.ctl.testing = false ∧ s.ctl.recovering = [.wholeModule]) ∧
    (∃ s : State, ∃ start : State → Nat → State, ∃ k, ∃ r,
    (start = (fun s k => beginTest (modCtl (deriveKeys s (fwSlot s k)) fun c => { c with bootSlot := k, activeCore := 0, standbyReady := true }) false))
    ∧ s.power.inputOn = true ∧ s.ctl.idState = .boot ∧ slotsMarked s .active = k :: r ∧ slotFault s k = 0) ∧
    (∃ s : State, ∃ start : State → Nat → State, ∃ k, ∃ r, ∃ j, ∃ q, ∃ n,
    (start = (fun s k => beginTest (modCtl (deriveKeys s (fwSlot s k)) fun c => { c with bootSlot := k, activeCore := 0, standbyReady := true }) false))
    ∧ slotFault s k = n ∧ s.power.inputOn = true ∧ s.ctl.idState = .boot ∧ slotsMarked s .active = k :: r ∧ n ≠ 0
    ∧ slotsMarked s .previous = j :: q ∧ slotFault s j = 0) ∧
    (∃ s : State, ∃ start : State → Nat → State, ∃ s1,
    (start = (fun s k => beginTest (modCtl (deriveKeys s (fwSlot s k)) fun c => { c with bootSlot := k, activeCore := 0, standbyReady := true }) false))
    ∧ (s1 = modCtl (deriveKeys (logBare s evBupFwNone uMgmt) none) (fun c => { c with bootSlot := 2, activeCore := 0, standbyReady := true, selfTest := { SelfTest.none with run := true, result := 2, firstCode := evBupFwNone.word uMgmt } }))
    ∧ s.power.inputOn = true ∧ s.ctl.idState = .boot ∧ slotsMarked s .active = [] ∧ slotsMarked s .previous = []) ∧
    (∃ s : State, ∃ t : TestFindings, s.ctl.testing = true ∧ (((List.range 20).all fun n => (getDomain s n).inReg) = true)) :=
  ⟨⟨{ (withCtl run fun c => { c with recovering := [.wholeModule] }) with power := { run.power with domains := [(19, { Domain.off with on := true })] } },
    _, 19, rfl, by decide +kernel⟩,
   ⟨withCtl (owned { State.reset with power := { Power.reset with inputOn := true } }) fun c => { c with idState := .boot, fwMark0 := .active, fw0 := (some { fwz 1 with bytes := fwImg }) },
    _, 0, [], rfl, by decide +kernel⟩,
   ⟨withCtl (owned { State.reset with power := { Power.reset with inputOn := true } }) fun c => { c with idState := .boot, fwMark0 := .active, fwMark1 := .previous, fw1 := (some { fwz 1 with bytes := fwImg }) },
    _, 0, [], 1, [], 1, rfl, rfl, by decide +kernel⟩,
   ⟨withCtl (owned { State.reset with power := { Power.reset with inputOn := true } }) fun c => { c with idState := .boot, fwPhase := .none },
    _, _, rfl, rfl, by decide +kernel⟩,
   ⟨withCtl run fun c => { c with testing := true }, TestFindings.clean, by decide +kernel⟩⟩

theorem test_meets_PowerAndStartup_5 :
    (∃ s : State, ∃ t : Bool → State, ∃ d : ResetDomain, ∃ s1, (t = (fun b => if d = .wholeModule then recoveryRecord s b else s))
    ∧ (s1 = modCtl (domainBack (t true) d) (fun c => { c with recovering := c.recovering.filter (· ≠ d) })) ∧ d ∈ s.ctl.recovering
    ∧ s.power.shutdown = false) ∧
    (∃ s : State, ∃ d : ResetDomain, ∃ c, s.ctl.idState = .running ∧ d ∉ s.ctl.recovering ∧ d = .controlCore c) ∧
    (∃ s : State, ∃ d : ResetDomain, (∀ c, d ≠ .controlCore c) ∧ s.ctl.idState = .running ∧ d ∉ s.ctl.recovering) ∧
    (∃ s : State, ∃ d : Fin 9, s.power.inputOn = true ∧ d.val ≠ 0) ∧
    (∃ s : State, ∃ d : Fin 9, ∃ s1,
    s1 = (List.range 12).foldl portUnclocked (logBare { s with ringOsc := true, refLostSeen := true } evBupRefclkLost uCtl)
    ∧ s.power.inputOn = true ∧ d.val = 0 ∧ s.ringOsc = false) :=
  ⟨⟨withCtl run fun c => { c with recovering := [.stack 7] }, _, .stack 7, _, rfl, rfl, by decide +kernel⟩,
   ⟨run, .controlCore 1, 1, by decide +kernel⟩,
   ⟨run, .stack 7, (by intro c h; cases h), by decide +kernel⟩,
   ⟨run, 8, by decide +kernel⟩,
   ⟨run, 0, _, rfl, by decide +kernel⟩⟩

theorem test_meets_PowerAndStartup_6 :
    (∃ s : State, ∃ d : Fin 9, s.power.inputOn = true ∧ d.val = 0 ∧ s.ringOsc = true) :=
  ⟨{ run with ringOsc := true }, 0, by decide +kernel⟩

theorem test_meets_OnlyTheseStop :
    (∃ i : Instr, ∃ s : State, canStop i = false) ∧
    (∃ s : State, ∃ a : Nat, ∃ who : Consumer, ∃ ag : Agent, ∃ k : Nat, ∃ data : Line, ∃ mask : BitVec 64, ∃ p : Bool, ∃ q : Bool,
    ∃ w : Option (List Byte), ∃ op : Fin 7, ∃ x : W64, ∃ y : W64, ∃ i,
    i ∈ ([.lineRead who a k, .lineWrite a data mask p, .kittyAccess ag a w p q, .kittyAtomic a op x y p] : List Instr) ∧ a < 2 ^ 39
    ∧ addrOffset a < 0x900000000) ∧
    (∃ s : State, ∃ a : Nat, ∃ who : Consumer, ∃ ag : Agent, ∃ k : Nat, ∃ data : Line, ∃ mask : BitVec 64, ∃ p : Bool, ∃ q : Bool,
    ∃ w : Option (List Byte), ∃ op : Fin 7, ∃ x : W64, ∃ y : W64, ∃ i,
    i ∈ ([.lineRead who a k, .lineWrite a data mask p, .kittyAccess ag a w p q, .kittyAtomic a op x y p] : List Instr)
    ∧ (2 ^ 39 ≤ a ∨ 0x900000000 ≤ addrOffset a)) ∧
    (∃ s : State, ∃ ir : Nat, ir < 5) ∧
    (∃ s : State, ∃ ir : Nat, 5 ≤ ir ∧ s.sec.debug = 0) ∧
    (∃ s : State, ∃ ir : Nat, 5 ≤ ir ∧ s.sec.debug ≠ 0) :=
  ⟨⟨.halt hd, run, by decide +kernel⟩,
   ⟨run, 0x8FFFFFFFF, .firmware, .firmware, 0, 0, 0, false, false, none, 0, 0, 0, .lineWrite 0x8FFFFFFFF 0 0 false, (by simp),
    by decide +kernel⟩,
   ⟨run, 0x900000000, .firmware, .firmware, 0, 0, 0, false, false, none, 0, 0, 0, .lineWrite 0x900000000 0 0 false, (by simp),
    by decide +kernel⟩,
   ⟨run, 4, by decide +kernel⟩,
   ⟨run, 5, by decide +kernel⟩,
   ⟨{ run with sec := { Security.reset with debug := 1 } }, 5, by decide +kernel⟩⟩

/-! ### Operands that suit the plays of `BinaryEffect`, `UnaryEffect` and `RowEffect` -/

theorem test_meets_binary_effect :
    let s := dcore dF dF dG
    let k := getCore s 0
    Runs s hd ∧
    takeOperands k [(f012.da.val, f012.sa.val), (f012.db.val, f012.sb.val), (f012.dc.val, f012.sc.val)] = .ok [at0 dF, at0 dF, at0 dG] ∧
    plainFloat (at0 dF) = true ∧ plainFloat (at0 dG) = true ∧ descLocal (at0 dF) = true ∧ descLocal (at0 dG) = true ∧
    fitsSpace (at0 dG) (at0 dF) = true ∧ writable (at0 dG) = true ∧ Reaches s 0 [at0 dF, at0 dF, at0 dG] := by
  unfold Runs Reaches
  decide +kernel

/-- Unscaled A and C as most plays take them, and a block-scaled A for VDEQ. -/
theorem test_meets_unary_effect :
    (let s := dcore dF dG dG
     Runs s hd ∧ takeOperands (getCore s 0) [(f1.da.val, f1.sa.val), (f1.dc.val, f1.sc.val)] = .ok [at0 dF, at0 dG] ∧
     plainFloat (at0 dF) = true ∧ plainFloat (at0 dG) = true ∧ (at0 dG).block = 0 ∧ isFp6 (descElem (at0 dG)) = false ∧
     descElem (at0 dG) ≠ .fp4 ∧ fitsSpace (at0 dG) (at0 dF) = true ∧ writable (at0 dG) = true ∧ Reaches s 0 [at0 dF, at0 dG]) ∧
    (let s := dcore dM dQ dG
     Runs s hd ∧ takeOperands (getCore s 0) [(f1.da.val, f1.sa.val), (f1.dc.val, f1.sc.val)] = .ok [at0 dM, at0 dQ] ∧
     (at0 dM).block ≠ 0 ∧ plainFloat (at0 dQ) = true ∧ descLocal (at0 dM) = true ∧ descLocal (at0 dQ) = true ∧
     fitsSpace (at0 dQ) (at0 dM) = true ∧ writable (at0 dQ) = true ∧ Reaches s 0 [at0 dM, at0 dQ]) := by
  unfold Runs Reaches
  decide +kernel

/-- Two rows of two elements: a C of one element for each row, and one of a whole row for each row. -/
theorem test_meets_row_effect :
    let two := desc 1 0 (localBit + 64) [2] [1] 0
    (let s := dcore dX two dG
     Runs s hd ∧ takeOperands (getCore s 0) [(f1.da.val, f1.sa.val), (f1.dc.val, f1.sc.val)] = .ok [at0 dX, at0 two] ∧
     plainFloat (at0 dX) = true ∧ descLocal (at0 two) = true ∧ writable (at0 two) = true ∧ isFloat (descElem (at0 two)) = true ∧
     elemCount (at0 two) = elemCount (at0 dX) / dimN (at0 dX).size 0 ∧ Reaches s 0 [at0 dX, at0 two]) ∧
    (let s := dcore dX dG dG
     Runs s hd ∧ takeOperands (getCore s 0) [(f1.da.val, f1.sa.val), (f1.dc.val, f1.sc.val)] = .ok [at0 dX, at0 dG] ∧
     (at0 dG).block = 0 ∧ isFloat (descElem (at0 dG)) = true ∧
     elemCount (at0 dG) = elemCount (at0 dX) / dimN (at0 dX).size 0 * dimN (at0 dX).size 0 ∧ dimN (at0 dX).size 0 ≠ 0 ∧
     Reaches s 0 [at0 dX, at0 dG]) := by
  unfold Runs Reaches
  decide +kernel

/-! ### Ill-formed commands: each check of WellFormed.lean refuses one -/

theorem test_ill_formed_plays_and_accesses :
    (Instr.halt { hd with pneg := true }).wf = false ∧
    (Instr.kittyAccess (.core 4096) 0 none false false).wf = false ∧
    (Instr.kittyAccess .firmware (2 ^ 64) none false false).wf = false ∧
    (Instr.kittyAccess .firmware 0 (some (List.replicate 65 0)) false false).wf = false ∧
    (Instr.kittyAtomic (2 ^ 64) 0 0 0 false).wf = false ∧
    (Instr.localTrickArrive 0 (2 ^ 14)).wf = false ∧ (Instr.localTrickRelease 0 (2 ^ 14)).wf = false ∧
    (Instr.onDiePushLanding (2 ^ 14)).wf = false ∧ (Instr.onDieCreditReturn (2 ^ 14)).wf = false ∧
    (Instr.pathTransferReceive (.mesh 256) false [] [] 0).wf = false ∧
    (Instr.pathTransferReceive (.spine 64) false [] [] 0).wf = false ∧
    (Instr.pathTransferReceive (.stackIf 8 0) false [] [] 0).wf = false ∧
    (Instr.pathTransferReceive (.stackIf 0 32) false [] [] 0).wf = false ∧
    (Instr.pathTransferReceive (.exchange 8) false [] [] 0).wf = false ∧
    (Instr.pathTransferReceive (.coreInside 4096) false [] [] 0).wf = false ∧
    (Instr.pathTransferReceive (.mesh 0) false [0] [] 0).wf = false ∧
    (Instr.pathTransferReceive (.mesh 0) false [] [] 64).wf = false := by decide +kernel

theorem test_ill_formed_memory_commands :
    (Instr.lineRead (.fabric (2 ^ 16) 0 0 0 0) 0 0).wf = false ∧ (Instr.lineRead (.fabric 0 0 0 513 0) 0 0).wf = false ∧
    (Instr.lineRead (.host (2 ^ 64)) 0 0).wf = false ∧ (Instr.lineRead .firmware (2 ^ 64) 0).wf = false ∧
    (Instr.lineWrite (2 ^ 64) 0 0 false).wf = false ∧ (Instr.wcbDrainDone 0 (2 ^ 58) 0).wf = false ∧
    (Instr.writeHoldExpiry 0 (2 ^ 58)).wf = false ∧ (Instr.sourceRepairReport 0 (2 ^ 58)).wf = false ∧
    (Instr.sourceFetchTimeout 0 (2 ^ 58)).wf = false ∧ (Instr.sourceDirectoryReply (2 ^ 16) none).wf = false := by decide +kernel

theorem test_ill_formed_frames :
    (Instr.flitReceive 0 { lanes := (fl 0 padding 0).lanes.take 3, errors := [] }).wf = false ∧
    (Instr.flitReceive 0 { lanes := (fl 0 padding 0).lanes.map (·.take 55), errors := [] }).wf = false ∧
    (Instr.train 0 { tb with majorMax := 256 }).wf = false ∧ (Instr.pushAck { fh with dest := 2 ^ 16 } 0 0).wf = false ∧
    (Instr.pushAck { fh with table := 256 } 0 0).wf = false ∧ (Instr.push fh (2 ^ 14) 0 [] 0 []).wf = false ∧
    (Instr.push fh 0 (2 ^ 32) [] 0 []).wf = false ∧ (Instr.push fh 0 0 (List.replicate 513 0) 0 []).wf = false ∧
    (Instr.push fh 0 0 [] (2 ^ 16) []).wf = false ∧ (Instr.push fh 0 0 [] 0 [true]).wf = false ∧
    (Instr.credit fh 0 (2 ^ 16)).wf = false ∧ (Instr.streamStop fh (2 ^ 14) 0).wf = false ∧
    (Instr.tallyMark fh (2 ^ 14) 0 0).wf = false ∧ (Instr.memRead 0 fh (2 ^ 16) 0 0).wf = false ∧
    (Instr.memRead 0 fh 0 (2 ^ 48) 0).wf = false ∧ (Instr.memRead 0 fh 0 0 (2 ^ 16)).wf = false ∧
    (Instr.memData fh 0 256 [] [] 0).wf = false ∧ (Instr.memWrite 0 fh 0 (2 ^ 48) [] []).wf = false ∧
    (Instr.memAck fh 0 256).wf = false ∧ (Instr.trickArrive fh (2 ^ 14) 0 0).wf = false ∧
    (Instr.roundMark { fh with src := 2 ^ 16 } 0 0).wf = false ∧ (Instr.abort fh (2 ^ 16) 0 0).wf = false ∧
    (Instr.mgmt fh (List.replicate 513 0)).wf = false ∧ (Instr.quarClear fh 256 0).wf = false ∧
    (Instr.nack fh 256 (List.replicate 16 0)).wf = false ∧ (Instr.nack fh 0 []).wf = false := by decide +kernel

theorem test_ill_formed_messages :
    (Instr.switchGatherReply (2 ^ 16) sw).wf = false ∧ (Instr.roundList { sm with part := 1 }).wf = false ∧
    (Instr.roundList { sm with table := 64 }).wf = false ∧
    (Instr.roundReport 0 { sm with entries := [{ se with slot := 2 ^ 16 }] }).wf = false ∧ (Instr.spillDone (2 ^ 16) sm).wf = false ∧
    (Instr.join 0 { gm with part := 1 }).wf = false ∧ (Instr.join 0 { gm with parts := 275 }).wf = false ∧
    (Instr.join 0 { gm with pairs := List.replicate 61 (0, 0) }).wf = false ∧
    (Instr.join 0 { gm with pairs := [(2 ^ 16, 0)] }).wf = false ∧ (Instr.windowOpen { gm with part := 1 }).wf = false ∧
    (Instr.memberReadyTimeout (2 ^ 16)).wf = false ∧ (Instr.openSession 0 { sub with opcode := 256 }).wf = false ∧
    (Instr.requestTokensFetched (2 ^ 20) []).wf = false ∧ (Instr.pauseTtlExpiry (2 ^ 20)).wf = false ∧
    (Instr.uioCompletion (2 ^ 16) false [] 0).wf = false ∧ (Instr.uioCompletion 0 false (List.replicate 513 0) 0).wf = false ∧
    (Instr.uioTimeout (2 ^ 16)).wf = false := by decide +kernel

theorem test_ill_formed_host_commands :
    (Instr.memRd (2 ^ 64) false).wf = false ∧ (Instr.memWr (2 ^ 64) 0 0 false).wf = false ∧ (Instr.birspi (2 ^ 64)).wf = false ∧
    (Instr.bar0AccessInvalid (2 ^ 64) 4).wf = false ∧ (Instr.bar0AccessInvalid 0 4097).wf = false ∧
    (Instr.partnerViolation 0 (List.replicate 17 0)).wf = false ∧ (Instr.hdmDecoderCommit 0 0 0 0 256 256).wf = false ∧
    (Instr.hdmDecoderCommit 0 0 0 0 1 (2 ^ 16)).wf = false ∧ (Instr.cxlLinkUp 17 0).wf = false ∧ (Instr.cxlLinkUp 8 256).wf = false ∧
    (Instr.ideKeyProg 256 0 0 (List.replicate 32 0)).wf = false ∧ (Instr.ideKeyProg 0 2 0 (List.replicate 32 0)).wf = false ∧
    (Instr.ideKeyProg 0 0 0 []).wf = false ∧ (Instr.keySetGo 0 0 2).wf = false ∧ (Instr.spdmGetCertificate 256).wf = false ∧
    (Instr.spdmChallenge 0 []).wf = false ∧ (Instr.spdmGetMeasurements 0 false (List.replicate 33 0)).wf = false ∧
    (Instr.spdmKeyExchange 256 []).wf = false ∧ (Instr.clearEventRecords 0 0 false (List.replicate 256 0)).wf = false ∧
    (Instr.setEventInterruptPolicy 0 (List.replicate 9 0)).wf = false ∧ (Instr.transferFw 0 256 []).wf = false ∧
    (Instr.injectPoison 0 (2 ^ 64)).wf = false ∧ (Instr.mailboxUnsupported 0 (2 ^ 16)).wf = false := by decide +kernel

theorem test_ill_formed_firmware_commands :
    (Instr.deckQuery 0 (List.replicate 4097 0)).wf = false ∧ (Instr.fabRouteLoad 0 [] (List.replicate 65537 0)).wf = false ∧
    (Instr.registerWrite (2 ^ 24) 0).wf = false ∧ (Instr.paceUpdate []).wf = false ∧
    (Instr.paceUpdate (List.replicate 16 (2 ^ 24))).wf = false ∧ (Instr.diodeSample 0 (some 2048)).wf = false ∧
    (Instr.diodeSample 0 (some (-2049))).wf = false ∧ (Instr.inputPowerApplied (2 ^ 16) 0).wf = false ∧
    (Instr.inputPowerApplied 0 256).wf = false ∧ (Instr.inputLow (2 ^ 16)).wf = false ∧
    (Instr.selftestComplete { TestFindings.clean with ports := 2 ^ 12 }).wf = false ∧
    (Instr.domainFailureDetected (.quadrant 16)).wf = false ∧ (Instr.domainFailureDetected (.nearBank 2)).wf = false ∧
    (Instr.domainFailureDetected (.fabricSide 2)).wf = false ∧ (Instr.domainFailureDetected (.stack 8)).wf = false ∧
    (Instr.domainFailureDetected (.controlCore 2)).wf = false ∧ (Instr.testAccessPortInstruction 256).wf = false ∧
    (Instr.globalPersistentFlush 256).wf = false ∧ (Instr.spdmFinish []).wf = false ∧
    (Instr.sourceDirectoryReply (2 ^ 16) none).wf = false := by decide +kernel

/-! ### Words of plays, written out from Tables 4.2 to 4.14 -/

/-- The two words that section 4 works out, play 14 (BISSUE) and play 17 (FAULT) of its example. -/
theorem test_worked_words_decode :
    decodePlay ⟨0, 0⟩ 0x0C6000110025 = some (.bissue hd { fB with script := 17, dout := 6, sp := 3 }) ∧
    decodePlay ⟨0, 0⟩ 0x00112430 = some (.fault { hd with pred := 1, pen := true } 0x11) := by decide +kernel

/-- A word of each of the formats C, L, T and Y, field by field. -/
theorem test_words_decode :
    decodePlay ⟨0, 0⟩ (0x090 + 1 * 2 ^ 16 + 2 * 2 ^ 21 + 3 * 2 ^ 26 + 4 * 2 ^ 31 + 5 * 2 ^ 34 + 0x800000000006 * 2 ^ 64) =
      some (.saddi hd { sd := 1, sx := 2, sy := 3, pd := 4, fn := 5, imm := 0x800000000006 }) ∧
    decodePlay ⟨0, 0⟩ (0x040 + 0xFFFFF * 2 ^ 16 + 2 * 2 ^ 36) = some (.loop hd 0xFFFFF 2) ∧
    decodePlay ⟨0, 0⟩ (0x011 + 1 * 2 ^ 16 + 2 * 2 ^ 22 + 3 * 2 ^ 28 + 4 * 2 ^ 34 + 5 * 2 ^ 39 + 6 * 2 ^ 44 + 1 * 2 ^ 49 + 7 * 2 ^ 51 +
        8 * 2 ^ 64) =
      some (.tmma hd { da := 1, db := 2, dc := 3, sa := 4, sb := 5, sc := 6, acc := 1, mode := 7, imm := 8 }) ∧
    decodePlay ⟨0, 0⟩ (0x012 + 63 * 2 ^ 22) = some (.vadd hd { fT with db := 63 }) ∧
    decodePlay ⟨0, 0⟩ (0x013 + 31 * 2 ^ 44) = some (.mcopy hd { fT with sc := 31 }) ∧
    decodePlay ⟨0, 0⟩ (0x084 + 1 * 2 ^ 16 + 2 * 2 ^ 30 + 1 * 2 ^ 43 + 3 * 2 ^ 44 + 4 * 2 ^ 49 + 5 * 2 ^ 55 + 6 * 2 ^ 58 + 1 * 2 ^ 63 +
        7 * 2 ^ 64) =
      some (.poll hd { id := 1, count := 2, inv := true, sa := 3, da := 4, cmp := 5, sd := 6, kind := true, imm := 7 }) ∧
    decodePlay ⟨0, 0⟩ 0 = none ∧ decodePlay ⟨0, 0⟩ 0x016 = none ∧ decodePlay ⟨0, 0⟩ 0x3F0 = none := by decide +kernel

/-! ### Single steps with results worked out by hand -/

/-- The state that a command answers, or the state after reset where it answers none. -/
def after (c : Instr) (s : State) : State :=
  match exec c s with
  | .next t => t
  | _ => State.reset

/-- `run` with the core of `dcore` and its scratch filled. -/
def filled (a b c : BitVec 1024) (bs : List (Nat × List Byte)) : State :=
  withCore fun k =>
    { k with descs := [(0, a), (1, b), (2, c)], scratch := bs.foldl (fun m e => wrBytes m e.1 e.2) [] }

/-- SADDI adds modulo 2^64: the largest number and 1 make 0. -/
theorem test_saddi_wraps :
    sreg (getCore (after (.saddi hd { fC with imm := 1 }) (withCore fun c => { c with sregs := [(2, BitVec.allOnes 64)] })) 0) 1 = 0 := by
  decide +kernel

/-- SETI zero-extends its immediate. -/
theorem test_seti_zero_extends :
    sreg (getCore (after (.seti hd { fC with imm := 0xFFFFFFFF }) run) 0) 1 = 0xFFFFFFFF := by decide +kernel

/-- VADD: 1.0 and 2.0 in FP32 make 3.0. -/
theorem test_vadd_fp32 :
    rdBytes (getCore (after (.vadd hd f012) (filled dF dF (desc 1 0 (localBit + 64) [4] [1] 0)
      [(0, [0, 0, 0x80, 0x3F, 0, 0, 0, 0x40])])) 0).scratch 64 8 = [0, 0, 0, 0x40, 0, 0, 0x80, 0x40] := by decide +kernel

/-- TMMA of rows of 32 ones in E4M3 (38H) accumulates 32.0 in the tile's first and last element. -/
theorem test_tmma_ones :
    let t := tileOf (getCore (after (.tmma hd { f012 with mode := 1 })
      (filled (desc 4 0 localBit [32, 2] [1, 32] 0) (desc 4 0 (localBit + 256) [32, 3] [1, 32] 0) dT
      [(0, List.replicate 64 0x38), (256, List.replicate 96 0x38)])) 0) 0
    sget 0 t.elems (tileKey 0 0) = 0x42000000 ∧ sget 0 t.elems (tileKey 1 2) = 0x42000000 := by decide +kernel

/-- SHA-384 of "abc" (FIPS 180-4). -/
theorem test_sha384_abc :
    hash384 [0x61, 0x62, 0x63] = 0xCB00753F45A35E8BB5A03D699AC65007272C32AB0EDED1631A8B605A43FF5BED8086072BA1E7CC2358BAECA134C825A7 := by
  decide +kernel

/-- The block waits for its host after reset: it has no input power and its queue is empty. -/
theorem test_reset : State.reset.power.inputOn = false ∧ State.reset.pending = [] ∧ State.reset.ctl.idState = .boot := by decide +kernel

end Sys2Proof.Tests
end

section
/-! SUPPORT. Every command, and so every step, keeps the queue, the canonical form of the array and the fuses that are set. -/

namespace Sys2Proof.Machine

/-- The case split is the dispatch of `exec`: each command is one operation of the model, and the lemma of that operation
under Laws/Kept (`kept_execNop`, `kept_execLineWrite`, …) closes its case. -/
theorem keptOut_exec {s0 s : State} (i : Instr) (h : Kept s0 s) : KeptOut s0 (exec i s) := by
  cases i <;> simp only [exec] <;> simp [h]

theorem kept_idle {s0 s : State} (h : Kept s0 s) : Kept s0 (idle s) := by
  unfold idle
  split
  · exact kept_passEdges _ _ _ (kept_beginVerify s h)
  · exact h

theorem KeptOut.of_eq {s0 t : State} {o : Out} (e : o = .next t) (h : KeptOut s0 o) : Kept s0 t := by
  rw [e] at h; exact h

/-- What a step keeps is measured against the state whose front command has been taken. -/
theorem kept_step {s t : State} (e : step s = .next t) : Kept { s with pending := s.pending.tail } t := by
  unfold step at e
  split at e
  next hnil =>
    have taken : Kept { s with pending := s.pending.tail } s := ⟨by simp [hnil], id, FuseLe.refl _⟩
    exact KeptOut.of_eq e (kept_idle taken)
  next c rest hcons =>
    rw [hcons]
    exact KeptOut.of_eq e (keptOut_exec c (Kept.refl _))

/-- Settles O5: taking the front command leaves the array alone, and the step from there keeps its form. -/
theorem stepKeepsArrayForm : Obligations.StepKeepsArrayForm := by
  intro s t hs e
  obtain ⟨-, arrayKept, -⟩ := kept_step e
  exact arrayKept hs

end Sys2Proof.Machine
end

section
/-! PROOF. Messages of the dealer at a member (R96, R353, R370 to R373, R567, R582): the tests that each message passes first, and
what it does once it has passed them. -/

namespace Sys2Proof.Machine

/-! ### The tests of a message of lane 1 -/

section
variable {s : State} {d : Deck} {hdr : FrameHdr} {group : W32} (port : Option Nat) (b : FrameBody)
  (ok : State → Deck → Nat → Bool) (act : State → Deck → State)

theorem takeDealer_of_accepted (hd : switchDeck s = some d) (clean : hdr.poison = false) (own : group = d.role.group)
    (sender : ok s d hdr.src = true) : takeDealer s port hdr b group ok act = act s d := by
  simp [takeDealer, hd, clean, own, sender]

theorem takeDealer_of_poison (hd : switchDeck s = some d) (bad : hdr.poison = true) :
    takeDealer s port hdr b group ok act = logGen s evSynMsgPoison (ingressUnit port 0) none [] [] := by
  simp [takeDealer, hd, bad]

/-- A message of another group counts at the port that brought it, so one that no port brought leaves the state as it is. -/
theorem takeDealer_of_refused (hd : switchDeck s = some d) (clean : hdr.poison = false)
    (refused : group ≠ d.role.group ∨ ok s d hdr.src = false) : takeDealer s none hdr b group ok act = s := by
  by_cases own : group = d.role.group
  · have stranger : ok s d hdr.src = false := refused.resolve_left (not_not_intro own)
    simp [takeDealer, hd, clean, own, stranger]
  · simp [takeDealer, hd, clean, own, violation]

end

/-! ### Round marks -/

theorem acceptMark_of_closed {s : State} {t : Nat} {n : W32} (closed : (getRound s t).isOpen = false) (free : marksHeld s = false) :
    acceptMark s t n = raiseRecheck (memberWrite (openRound { s with lastRound := n } t n) t) :=
  congrArg raiseRecheck (if_neg (c := ((getRound s t).isOpen || marksHeld s) = true) (by simp [closed, free]))

theorem acceptMark_of_held {s : State} {t : Nat} {n : W32} (waits : (getRound s t).isOpen = true ∨ marksHeld s = true) :
    acceptMark s t n = raiseRecheck (modRound { s with lastRound := n } t fun r =>
      { r with heldMark := some n, heldAt := s.meter.toNat, heldExpired := false, parts := [] }) :=
  congrArg raiseRecheck (if_pos (c := ((getRound s t).isOpen || marksHeld s) = true) (by simpa using waits))

/-! ### Requests for an abort -/

theorem beginProbes_of_idle {s : State} {code : W32} (idle : s.ctl.probing = false) : beginProbes s code =
    startDeadline { s with ctl := { s.ctl with probing := true, probesMissed := 0, abortCode := code } } .probe := by
  simp [beginProbes, idle, modCtl]

theorem beginProbes_of_probing {s : State} {code : W32} (probes : s.ctl.probing = true) : beginProbes s code = s := by
  simp [beginProbes, probes]

section
variable {s : State} {d : Deck} {hdr : FrameHdr} {group code : W32} {port : Option Nat}

theorem takeAbortReq_of_dealer (hd : deckOf s = some d) (clean : hdr.poison = false) (own : group = d.role.group)
    (current : hdr.gen = s.gen) (dealer : isDealer s = true) : takeAbortReq s port hdr group code = groupAbort s hdr.src code := by
  simp [takeAbortReq, hd, clean, own, current, dealer]

theorem takeAbortReq_of_successor (hd : deckOf s = some d) (clean : hdr.poison = false) (own : group = d.role.group)
    (current : hdr.gen = s.gen) (member : isDealer s = false) (successor : ownIndex s = d.role.successor) :
    takeAbortReq s port hdr group code = beginProbes s code := by
  simp [takeAbortReq, hd, clean, own, current, member, successor]

end

/-! ### Messages that pass every test -/

section
variable {s : State} {d : Deck} {hdr : FrameHdr} {group : W32} {port : Option Nat}
  (hd : switchDeck s = some d) (clean : hdr.poison = false) (own : group = d.role.group)
include hd clean own

section
variable (sender : fromDealer s d hdr.src = true)
include sender

theorem takeRoundMark_of_current {round : W32} (current : hdr.gen = s.gen) (ahead : aheadOf round s.lastRound = true)
    (aligned : s.ctl.awaitAlign = false) (member : isDealer s = false) :
    takeRoundMark s port hdr group round = acceptMark (forwardDown s hdr (.roundMark group round)) hdr.table round := by
  rw [takeRoundMark, takeDealer_of_accepted _ _ _ _ hd clean own sender]
  simp [current, ahead, aligned, member]

theorem takeRoundMark_of_stale {round : W32}
    (stale : hdr.gen ≠ s.gen ∨ aheadOf round s.lastRound = false ∨ s.ctl.awaitAlign = true ∨ isDealer s = true) :
    takeRoundMark s port hdr group round = lateDrop s := by
  rw [takeRoundMark, takeDealer_of_accepted _ _ _ _ hd clean own sender]
  exact if_pos (by simpa [or_assoc] using stale)

/-- An announce at a member that no switch concerns yet: the serial says whether its armed deck is the announced one. -/
theorem takeAnnounce_of_armed {s1 : State} {serial : W32} {a : Deck} (sent : s1 = forwardDown s hdr (.switchAnnounce group serial))
    (rest : s1.loader.phase = .none) (armed : s1.loader.armed = some a) :
    takeAnnounce s port hdr group serial = if a.id.serial = serial then acceptAnnounce s1 else answerSwitch s1 := by
  subst sent
  rw [takeAnnounce, takeDealer_of_accepted _ _ _ _ hd clean own sender]
  simp [rest, armed]

theorem takeCancel_of_accepted {code : W32} :
    takeCancel s port hdr group code = openHeld (cancelSwitch (forwardDown s hdr (.switchCancel group code))) := by
  rw [takeCancel, takeDealer_of_accepted _ _ _ _ hd clean own sender]

end

section
variable {s1 : State} {origin : Nat} {code : W32} (sender : fromSuccessor s d hdr.src = true) (learnt : s1 = (learnDealer s d hdr.src).1)
include sender learnt

theorem takeAbort_of_current (current : hdr.gen = s1.gen ∨ isDealer s1 = true) : takeAbort s port hdr origin group code = s1 := by
  subst learnt
  rw [takeAbort, takeDealer_of_accepted _ _ _ _ hd clean own sender]
  exact if_pos (by simpa using current)

theorem takeAbort_of_other_gen {s2 : State} (other : hdr.gen ≠ s1.gen) (member : isDealer s1 = false)
    (adopted : s2 = openHeld (modCtl (adoptAbort (forwardDown s1 hdr (.abort origin group code)) hdr.gen code) fun c =>
      { c with probing := false, probesMissed := 0 })) :
    takeAbort s port hdr origin group code = if (learnDealer s d hdr.src).2 then sendJoin s2 else s2 := by
  rw [takeAbort, takeDealer_of_accepted _ _ _ _ hd clean own sender]
  simp only [← learnt, other, member, ← adopted, decide_false, Bool.or_self, Bool.false_eq_true, if_false]

end

end

/-! ### The commands -/

section
variable (s : State) (hdr : FrameHdr) (group code : W32)

theorem exec_roundMark (round : W32) : exec (.roundMark hdr group round) s = .next (takeRoundMark s none hdr group round) := rfl

theorem exec_abortReq_of_here (here : hdr.dest = ownIndex s) :
    exec (.abortReq hdr group code) s = .next (takeAbortReq s none hdr group code) :=
  congrArg Host.Outcome.next (if_pos here)

theorem exec_abortReq_of_elsewhere (elsewhere : hdr.dest ≠ ownIndex s) :
    exec (.abortReq hdr group code) s = .next (routeFrame s 0 { hdr := hdr, body := .abortReq group code }) :=
  congrArg Host.Outcome.next (if_neg elsewhere)

theorem exec_abort (origin : Nat) : exec (.abort hdr origin group code) s = .next (takeAbort s none hdr origin group code) := rfl

theorem exec_switchAnnounce (serial : W32) :
    exec (.switchAnnounce hdr group serial) s = .next (takeAnnounce s none hdr group serial) := rfl

theorem exec_switchCancel : exec (.switchCancel hdr group code) s = .next (takeCancel s none hdr group code) := rfl

end

/-- Settles O42: each message either fails a test of `takeDealer`, or passes them all and acts as the lemma of its kind says. -/
theorem dealerMessages : Obligations.DealerMessages := by
  unfold Obligations.DealerMessages
  refine ⟨?roundMark, ?abortReqHere, exec_abortReq_of_elsewhere, ?abort, ?switch, ?notTaken⟩
  case roundMark =>
    rintro s _ hdr group round d hd clean own sender rfl
    rw [exec_roundMark]
    refine ⟨fun current ahead aligned member => ?_, fun stale => ?_⟩
    · rw [takeRoundMark_of_current hd clean own sender current ahead aligned member]
      exact ⟨fun closed free => congrArg Host.Outcome.next (acceptMark_of_closed closed free),
        fun waits => congrArg Host.Outcome.next (acceptMark_of_held waits)⟩
    · rw [takeRoundMark_of_stale hd clean own sender stale, lateDrop]
  case abortReqHere =>
    intro s hdr group code d hd here clean own current
    rw [exec_abortReq_of_here s hdr group code here]
    refine ⟨fun dealer => ?_, fun member successor idle => ?_, fun member successor probes => ?_⟩
    · rw [takeAbortReq_of_dealer hd clean own current dealer]
    · rw [takeAbortReq_of_successor hd clean own current member successor, beginProbes_of_idle idle]
    · rw [takeAbortReq_of_successor hd clean own current member successor, beginProbes_of_probing probes]
  case abort =>
    rintro s s1 hdr origin group code d hd clean own sender learnt
    rw [exec_abort]
    refine ⟨fun current => ?_, fun other member s2 adopted => ?_⟩
    · rw [takeAbort_of_current hd clean own sender learnt current]
    · rw [takeAbort_of_other_gen hd clean own sender learnt other member adopted]
  case switch =>
    rintro s s1 _ hdr group serial code d hd clean own sender sent rfl
    rw [exec_switchAnnounce, exec_switchCancel, takeCancel_of_accepted hd clean own sender]
    refine ⟨fun a rest armed => ?_, rfl⟩
    rw [takeAnnounce_of_armed hd clean own sender sent rest armed]
    exact ⟨fun same => by rw [if_pos same], fun differs => by rw [if_neg differs]⟩
  case notTaken =>
    intro s hdr group serial code round origin d hd
    rw [exec_roundMark, exec_abort, exec_switchAnnounce, exec_switchCancel,
      takeRoundMark, takeAbort, takeAnnounce, takeCancel]
    refine ⟨fun bad t logged => ?_, fun clean refused => ?_, fun clean refused => ?_⟩
    · simp only [takeDealer_of_poison _ _ _ _ hd bad, logged, ingressUnit, and_self]
    · rw [takeDealer_of_refused _ _ _ hd clean refused]
    · simp only [takeDealer_of_refused _ _ _ hd clean refused, and_self]

end Sys2Proof.Machine
end

section
/-! PROOF. The timers of a group (R30, R417, R441, R571, R581, R583, R587, R588): what each timed command does in each of its cases. -/

namespace Sys2Proof.Machine

/-! ### Repair windows -/

section
variable {s : State}

theorem execRepairWindowPeriod_of_due {d : Deck} (hd : deckOf s = some d) (dealer : isDealer s = true)
    (shut : s.ctl.windowOpen = false) (asked : d.spare.windowPeriod ≠ 0) (due : d.spare.windowPeriod ≤ s.ctl.roundsSinceWindow) :
    execRepairWindowPeriod s = .next (openWindow { s with ctl := { s.ctl with windowAsked := true } }) := by
  simp only [execRepairWindowPeriod, hd]
  exact if_pos (by simp [dealer, shut, asked, due])

theorem execRepairWindowPeriod_of_not_due {d : Deck} (hd : deckOf s = some d)
    (early : d.spare.windowPeriod = 0 ∨ s.ctl.roundsSinceWindow < d.spare.windowPeriod) : execRepairWindowPeriod s = .next s := by
  simp only [execRepairWindowPeriod, hd]
  refine if_neg ?_
  rcases early with never | fewer
  · simp [never]
  · simp [Nat.not_le.mpr fewer]

theorem execWindowBudgetExpiry_of_working (isOpen : s.ctl.windowOpen = true) (working : s.ctl.windowDone.contains (ownIndex s) = false) :
    execWindowBudgetExpiry s = .next (endWindow (expire s .window (windowBudget s))) :=
  congrArg Host.Outcome.next (if_pos (by simp only [isOpen, working, Bool.not_false, Bool.and_self]))

theorem execWindowBudgetExpiry_of_idle (ended : s.ctl.windowOpen = false ∨ s.ctl.windowDone.contains (ownIndex s) = true) :
    execWindowBudgetExpiry s = .next s := by
  refine congrArg Host.Outcome.next (if_neg ?_)
  rcases ended with shut | done
  · simp [shut]
  · simp only [done, Bool.not_true, Bool.and_false, Bool.false_eq_true, not_false_eq_true]

end

/-! ### Losing the dealer -/

section
variable {s t : State} {d : Deck}

/-- A successor whose probe has had no answer takes the role after three of them, and probes again before that. -/
theorem execProbeTimer_of_probing (hd : deckOf s = some d) (probes : s.ctl.probing = true) (successor : ownIndex s = d.role.successor)
    (member : s.ctl.successorRole = false) (late : t = expire s .probe (30 * countsMs)) :
    execProbeTimer s = .next (if 3 ≤ t.ctl.probesMissed then assumeRole t d
      else sendGroup (startDeadline { t with ctl := { t.ctl with probesMissed := t.ctl.probesMissed + 1 } } .probe) d.role.dealer
        (groupParts (startDeadline { t with ctl := { t.ctl with probesMissed := t.ctl.probesMissed + 1 } } .probe) d 6 0 [])) := by
  simp only [execProbeTimer, hd, ← late, modCtl]
  rw [if_neg (by simp [probes, successor, member]), apply_ite Host.Outcome.next]

theorem execProbeTimer_of_quiet (quiet : s.ctl.probing = false) : execProbeTimer s = .next s := by
  cases hd : deckOf s <;> simp [execProbeTimer, hd, quiet]

/-- A request that has had no abort goes on to the successor; the successor that asked itself begins to probe. -/
theorem execAbortReqTimeout_of_unanswered {code : W32} (hd : deckOf s = some d) (asked : s.ctl.requestedAbort = some code)
    (member : s.ctl.successorRole = false) (successor : ∃ e ∈ d.role.members, e.1 = d.role.successor)
    (late : t = modCtl (expire s .abortReq (10 * countsMs)) (fun c => { c with requestedAbort := none })) :
    execAbortReqTimeout s = .next (if ownIndex t = d.role.successor then beginProbes t code
      else sendFrame t d.role.successor 64 (.abortReq d.role.group code)) := by
  simp only [execAbortReqTimeout, hd, asked, ← late]
  rw [if_neg (by simpa [member] using successor), apply_ite Host.Outcome.next]

theorem execAbortReqTimeout_of_unasked (unasked : s.ctl.requestedAbort = none) : execAbortReqTimeout s = .next s := by
  simp [execAbortReqTimeout, unasked]

theorem execMemberReadyTimeout_of_missing {m : Nat} (hd : deckOf s = some d) (dealer : isDealer s = true)
    (recovers : s.ctl.group = .recovering) (other : (otherMembers s d).contains m = true)
    (missing : s.ctl.readyFrom.contains m = false) (late : t = reachDeadline s .memberReady (10 * countsSec)) :
    execMemberReadyTimeout m s = .next (logGen { t with ctl := { t.ctl with group := .held } } evBupMemberLost uCtl none [w32 m] []) := by
  subst late
  simp only [execMemberReadyTimeout, hd]
  exact if_pos (by simp only [dealer, recovers, other, missing, decide_true, Bool.not_false, Bool.and_self])

theorem execMemberReadyTimeout_of_ready {m : Nat} (hd : deckOf s = some d) (ready : s.ctl.readyFrom.contains m = true) :
    execMemberReadyTimeout m s = .next s := by
  simp only [execMemberReadyTimeout, hd, ready, Bool.not_true, Bool.and_false, Bool.false_eq_true, if_false]

end

/-! ### Budgets and stalls of rounds -/

theorem foldRound_of_over {s : State} {t : Nat} (isOpen : (getRound s t).isOpen = true) (written : (getRound s t).written = true)
    (expired : (getRound s t).expired = true) : foldRound s t = foldSlots s t fun _ => true := by
  simp [foldRound, isOpen, written, expired]

theorem foldRound_of_unwritten {s : State} {t : Nat} (unwritten : (getRound s t).written = false) : foldRound s t = s := by
  simp [foldRound, unwritten]

section
variable {s : State} {t : Fin 64}

theorem execRoundBudgetExpiry_of_open (isOpen : (getRound s t.val).isOpen = true) (running : (getRound s t.val).expired = false) :
    execRoundBudgetExpiry t s = .next (foldRound (modRound (reachMeter s 0 ((getRound s t.val).startMeter + budgetOf s)) t.val
      fun r => { r with expired := true }) t.val) := by
  simp [execRoundBudgetExpiry, isOpen, running]

theorem execRoundBudgetExpiry_of_held (closed : (getRound s t.val).isOpen = false) (held : (getRound s t.val).heldMark ≠ none)
    (running : (getRound s t.val).heldExpired = false) :
    execRoundBudgetExpiry t s = .next (modRound (reachMeter s 0 ((getRound s t.val).heldAt + budgetOf s)) t.val
      fun r => { r with heldExpired := true }) := by
  simp [execRoundBudgetExpiry, closed, running, Option.isSome_iff_ne_none.mpr held]

theorem execRoundBudgetExpiry_of_no_mark (closed : (getRound s t.val).isOpen = false) (unheld : (getRound s t.val).heldMark = none) :
    execRoundBudgetExpiry t s = .next s := by
  simp [execRoundBudgetExpiry, closed, unheld]

theorem execRoundStall_of_dealer {q : State} (dealer : isDealer s = true) (isOpen : (getRound s t.val).isOpen = true)
    (late : q = reachMeter s 0 ((getRound s t.val).startMeter + stallBound s)) :
    execRoundStall t s = .next (groupAbort
      (logGen q evBupRoundStall uCtl (some t.val) [w32 t.val, (getRound s t.val).round] []) (ownIndex q) (evBupRoundStall.word uCtl)) := by
  simp [execRoundStall, dealer, isOpen, late]

theorem execRoundStall_of_idle (idle : isDealer s = false ∨ (getRound s t.val).isOpen = false) : execRoundStall t s = .next s := by
  refine if_neg ?_
  rcases idle with member | closed
  · simp [member]
  · simp [closed]

end

/-! ### The commands -/

section
variable (s : State)

theorem exec_repairWindowPeriod : exec .repairWindowPeriod s = execRepairWindowPeriod s := rfl
theorem exec_windowBudgetExpiry : exec .windowBudgetExpiry s = execWindowBudgetExpiry s := rfl
theorem exec_probeTimer : exec .probeTimer s = execProbeTimer s := rfl
theorem exec_abortReqTimeout : exec .abortReqTimeout s = execAbortReqTimeout s := rfl
theorem exec_memberReadyTimeout (m : Nat) : exec (.memberReadyTimeout m) s = execMemberReadyTimeout m s := rfl
theorem exec_roundBudgetExpiry (t : Fin 64) : exec (.roundBudgetExpiry t) s = execRoundBudgetExpiry t s := rfl
theorem exec_roundStall (t : Fin 64) : exec (.roundStall t) s = execRoundStall t s := rfl

end

/-- Settles O45: each timed command is one of the operations above, and the clauses are its cases. -/
theorem groupTimers : Obligations.GroupTimers := by
  unfold Obligations.GroupTimers
  simp only [exec_repairWindowPeriod, exec_windowBudgetExpiry, exec_probeTimer, exec_abortReqTimeout, exec_memberReadyTimeout,
    exec_roundBudgetExpiry, exec_roundStall]
  refine ⟨?windowPeriod, ?windowBudget, ?probe, fun _ => execProbeTimer_of_quiet, ?abortReq,
    fun _ => execAbortReqTimeout_of_unasked, ?memberReady, ?openRound, ?closedRound⟩
  case windowPeriod =>
    intro s d hd dealer shut
    exact ⟨execRepairWindowPeriod_of_due hd dealer shut, execRepairWindowPeriod_of_not_due hd⟩
  case windowBudget =>
    exact fun s => ⟨execWindowBudgetExpiry_of_working, execWindowBudgetExpiry_of_idle⟩
  case probe =>
    intro s t d hd probes successor member late
    rw [execProbeTimer_of_probing hd probes successor member late]
    refine ⟨fun fewer s1 again => ?_, fun three => ?_⟩
    · rw [if_neg (Nat.not_le.mpr fewer), again]
    · rw [if_pos three]
  case abortReq =>
    intro s t d code hd asked member successor late
    rw [execAbortReqTimeout_of_unanswered hd asked member successor late]
    refine ⟨fun elsewhere => ?_, fun here idle => ?_, fun here probes => ?_⟩
    · rw [if_neg elsewhere]
    · rw [if_pos here, beginProbes_of_idle idle]
    · rw [if_pos here, beginProbes_of_probing probes]
  case memberReady =>
    intro s d m hd dealer
    exact ⟨fun recovers other missing t late => execMemberReadyTimeout_of_missing hd dealer recovers other missing late,
      execMemberReadyTimeout_of_ready hd⟩
  case openRound =>
    intro s t isOpen
    refine ⟨fun running q passed => ?_, fun dealer q late => execRoundStall_of_dealer dealer isOpen late,
      fun member => execRoundStall_of_idle (.inl member)⟩
    rw [execRoundBudgetExpiry_of_open isOpen running, ← passed]
    exact ⟨fun stillOpen written expired => congrArg Host.Outcome.next (foldRound_of_over stillOpen written expired),
      fun unwritten => congrArg Host.Outcome.next (foldRound_of_unwritten unwritten)⟩
  case closedRound =>
    intro s t closed
    exact ⟨execRoundBudgetExpiry_of_held closed, execRoundBudgetExpiry_of_no_mark closed, execRoundStall_of_idle (.inr closed)⟩

end Sys2Proof.Machine
end

section
/-! PROOF. A step with no command waiting: one reference edge passes for the nine dies, in the order of `passEdges` (R46, R49, R53). -/

namespace Sys2Proof.Machine

/-! ### One edge at one die -/

section
variable {s : State}

theorem passDie_compute_of_reference (n : Nat) (clocked : s.ringOsc = false) :
    passDie s n 0 = { s with meter := s.meter + BitVec.ofNat 56 n } := by
  simp [passDie, onRing, addMeter, clocked]

theorem passDie_compute_of_ring (n : Nat) (unclocked : s.ringOsc = true) : passDie s n 0 = { s with
    freeNext := s.freeNext + 1, meter := s.meter + BitVec.ofNat 56 (ringCounts n (Config.freeValue s.freeNext).toNat) } := by
  simp [passDie, onRing, addMeter, takeFree, unclocked]

theorem passDie_stack_of_reference {k : Nat} (n : Nat) (clocked : (getStack s k).ringOsc = false) :
    passDie s n (k + 1) = modStack s k fun b => { b with meter := b.meter + BitVec.ofNat 56 n } := by
  simp [passDie, onRing, addMeter, clocked]

/-- For one edge of the reference a ring oscillator of 100 MHz ± 20 % makes two counts at most. -/
theorem ringCounts_one_le (v : Nat) : ringCounts 1 v ≤ 2 := by
  have spread : ceilDiv (6 * 1) 5 = 2 := rfl
  simp only [ringCounts, spread]
  omega

end

/-! ### One edge at the stacks -/

theorem getStack_modStack_other {s : State} {n m : Nat} (f : Stack → Stack) (apart : m ≠ n) :
    getStack (modStack s n f) m = getStack s m :=
  sget_sput_other Stack.empty _ n m _ apart

theorem passEdges_cons (s : State) (n d : Nat) (l : List Nat) : passEdges s n (d :: l) = passEdges (passDie s n d) n l := rfl

/-- Stacks on the reference count each its own edge, and each leaves the others' oscillators alone. -/
theorem passEdges_stacks_of_reference {l : List Nat} {s : State} (distinct : l.Nodup)
    (clocked : ∀ k ∈ l, (getStack s k).ringOsc = false) : passEdges s 1 (l.map (· + 1)) =
      { s with stackMap := l.foldl (fun m n => smod Stack.empty m n fun k => { k with meter := k.meter + 1 }) s.stackMap } := by
  induction l generalizing s with
  | nil => rfl
  | cons k l ih =>
    obtain ⟨fresh, distinct⟩ := List.nodup_cons.mp distinct
    have first : passEdges s 1 ((k :: l).map (· + 1)) =
        passEdges (modStack s k fun b => { b with meter := b.meter + 1 }) 1 (l.map (· + 1)) := by
      rw [List.map_cons, passEdges_cons, passDie_stack_of_reference 1 (clocked k List.mem_cons_self)]
      rfl
    rw [first, ih distinct]
    · rfl
    · intro j hj
      rw [getStack_modStack_other _ (ne_of_mem_of_not_mem hj fresh)]
      exact clocked j (List.mem_cons_of_mem k hj)

/-! ### The step -/

section
variable {s : State}

theorem step_of_idle (empty : s.pending = []) : step s = .next (idle s) := by
  simp [step, empty]

theorem idle_of_unpowered (off : s.power.inputOn = false) : idle s = s := by
  simp [idle, off]

/-- The compute die comes first, so what it does with its edge is all that the stacks find changed. -/
theorem idle_of_powered (on : s.power.inputOn = true) :
    idle s = passEdges (passDie (beginVerify s) 1 0) 1 ((List.range 8).map (· + 1)) := by
  rw [idle, if_pos on, List.range_succ_eq_map, passEdges_cons]

theorem beginVerify_eq : beginVerify s = { s with loader := (beginVerify s).loader } := by
  unfold beginVerify
  split <;> rfl

@[simp] theorem beginVerify_freeNext : (beginVerify s).freeNext = s.freeNext := by rw [beginVerify_eq]
@[simp] theorem beginVerify_meter : (beginVerify s).meter = s.meter := by rw [beginVerify_eq]
@[simp] theorem beginVerify_ringOsc : (beginVerify s).ringOsc = s.ringOsc := by rw [beginVerify_eq]
@[simp] theorem beginVerify_stackMap : (beginVerify s).stackMap = s.stackMap := by rw [beginVerify_eq]
@[simp] theorem getStack_beginVerify (n : Nat) : getStack (beginVerify s) n = getStack s n := by
  rw [getStack, beginVerify_stackMap, getStack]

end

/-- Settles O2: `passEdges` takes the compute die first, by the reference or by its ring oscillator, then the eight stacks. -/
theorem idleStepCountsMeters : Obligations.IdleStepCountsMeters := by
  unfold Obligations.IdleStepCountsMeters
  refine ⟨fun s empty off => ?_, fun s u empty on clocks hu m hm => ?_⟩
  · rw [step_of_idle empty, idle_of_unpowered off]
  obtain rfl : u = beginVerify s := hu
  have stackClocks : ∀ n ∈ List.range 8, (getStack (beginVerify s) n).ringOsc = false := fun n hn => by
    rw [getStack_beginVerify, clocks n (List.mem_range.mp hn)]
  rw [step_of_idle empty, idle_of_powered on, hm]
  refine ⟨fun clocked => ?_, fun unclocked => ⟨ringCounts 1 (Config.freeValue s.freeNext).toNat, ringCounts_one_le _, ?_⟩⟩
  · rw [passDie_compute_of_reference 1 (beginVerify_ringOsc.trans clocked), passEdges_stacks_of_reference List.nodup_range,
      beginVerify_meter, beginVerify_stackMap]
    · rfl
    · exact stackClocks
  · rw [passDie_compute_of_ring 1 (beginVerify_ringOsc.trans unclocked), passEdges_stacks_of_reference List.nodup_range,
      beginVerify_meter, beginVerify_freeNext, beginVerify_stackMap]
    exact stackClocks

end Sys2Proof.Machine
end

section
/-! PROOF. Registers that host software writes or latches, the regulators' microsecond and the pace counters (R55, R56, R241 to R246,
R327, R402, R539; Tables 7.11, 16.7, 16.8): what each access and each tick does in each of its cases. -/

namespace Sys2Proof.Machine

/-! ### Reads that latch -/

section
variable {s : State}

/-- Between the table registers and the cache registers every value is held on the die (log 175). -/
theorem sourceLines_of_on_die {o : Nat} (above : 0x201000 ≤ o) (below : o < 0x900800) : sourceLines s o = [] := by
  simp [sourceLines, Nat.not_lt.mpr above, Nat.not_le.mpr below]

theorem execTelMeterLoRead_of_poisoned {o : Nat} (on : hears s 0 = true) (bad : ∃ l ∈ sourceLines s o, linePoisoned s l = true) :
    execTelMeterLoRead o s = .next (toHost (logGen s evIntBusError uCxl none [w32 o] []) (.completerAbort o)) := by
  have unread : hostRegRead s o = none := if_pos (List.any_eq_true.mpr bad)
  simp [execTelMeterLoRead, on, unread]

theorem execTelMeterLoRead_of_on_die {o : Nat} (on : hears s 0 = true) (above : 0x201000 ≤ o) (below : o < 0x900800) :
    execTelMeterLoRead o s = .next (latchHi s o) := by
  simp [execTelMeterLoRead, on, hostRegRead, sourceLines_of_on_die above below]

theorem latchHi_meter : latchHi s 0x900000 = { s with meterHi := BitVec.ofNat 24 (s.meter.toNat / 2 ^ 32) } := if_pos rfl

theorem latchHi_tally {t k : Nat} (ht : t < 64) (hk : k < 4) : latchHi s (0x6B0000 + 64 * t + 8 * k) =
    { s with talHi := sput 0 s.talHi (4 * t + k) (BitVec.ofNat 32 ((tallyCount s t k).toNat / 2 ^ 32)) } := by
  have table : (0x6B0000 + 64 * t + 8 * k - 0x6B0000) / 64 = t := by omega
  have count : (0x6B0000 + 64 * t + 8 * k) % 64 / 8 = k := by omega
  rw [latchHi, if_neg (by omega), if_pos (by simp only [Bool.and_eq_true, decide_eq_true_eq]; omega), table, count]

end

/-! ### Writes: which register an offset names -/

section
variable {s : State} {v : W32}

theorem regWrite_setpoint {n : Nat} (hn : n < 20) : regWrite s (0x40100 + 4 * n) v = writeSetpoint s n v := by
  have domain : (0x40100 + 4 * n - 0x40100) / 4 = n := by omega
  rw [regWrite, if_neg (by omega), if_neg (by omega), if_pos (by simp only [Bool.and_eq_true, decide_eq_true_eq]; omega), domain]

theorem regWrite_regulator {t k r : Nat} (ht : t < 64) (hk : k < 10) (hr : r < 16) :
    regWrite s (0x300000 + 256 * t + 16 * k + r) v = writeRgl s (16 * t + k) r v := by
  have table : (0x300000 + 256 * t + 16 * k + r - 0x300000) / 256 = t := by omega
  have resource : (0x300000 + 256 * t + 16 * k + r) % 256 / 16 = k := by omega
  have word : (0x300000 + 256 * t + 16 * k + r) % 16 = r := by omega
  rw [regWrite, if_neg (by omega), if_neg (by omega), if_neg (by simp only [Bool.and_eq_true, decide_eq_true_eq]; omega),
    if_pos (by simp only [Bool.and_eq_true, decide_eq_true_eq]; omega), table, resource, word, pairOf]

theorem regWrite_of_undefined {o : Nat} (outside : o < 0x30000 ∨ 0x900008 < o) : regWrite s o v = s := by
  rw [regWrite, if_neg (by omega), if_neg (by omega), if_neg (by simp only [Bool.and_eq_true, decide_eq_true_eq]; omega),
    if_neg (by simp only [Bool.and_eq_true, decide_eq_true_eq]; omega), if_neg (by omega), if_neg (by omega)]

/-! ### Writes: what each register does with its value -/

section
variable {pair : Nat} {r : Regulator} {en : Bool} {refill depth : W32} (hr : getReg s pair = r)
  (last : r.pend.getD (r.enable, r.refill, r.depth) = (en, refill, depth))
include hr last

theorem writeRgl_ctl : writeRgl s pair 0 v = setReg s pair
    { r with rejected := r.rejected && !bitOf v.toNat 2, pend := some (bitOf v.toNat 0, refill, depth) } := by
  simp only [writeRgl, hr, last]

theorem writeRgl_refill : writeRgl s pair 4 v = setReg s pair { r with pend := some (en, v, depth) } := by
  simp only [writeRgl, hr, last]

theorem writeRgl_depth : writeRgl s pair 8 v = setReg s pair { r with pend := some (en, refill, v) } := by
  simp only [writeRgl, hr, last]

end

section
variable {p : Power} (cleared : p = { s.power with limitRejected := s.power.limitRejected && !bitOf v.toNat 8 })
include cleared

theorem writeThermLimit_of_in_range (low : 80 ≤ v.toNat % 256) (high : v.toNat % 256 ≤ 95) :
    writeThermLimit s v = { s with power := { p with throttleAt := v.toNat % 256 } } := by
  simp [writeThermLimit, cleared, low, high]

theorem writeThermLimit_of_out_of_range (out : v.toNat % 256 < 80 ∨ 95 < v.toNat % 256) :
    writeThermLimit s v = { s with power := { p with limitRejected := true } } := by
  have rejected : ¬ (80 ≤ v.toNat % 256 ∧ v.toNat % 256 ≤ 95) := by omega
  simp [writeThermLimit, cleared, rejected]

end

theorem writeSetpoint_of_valid {n mv : Nat} (hmv : mv = v.toNat % 1024) (low : 650 ≤ mv) (high : mv ≤ 850) (step : mv % 5 = 0) :
    writeSetpoint s n v = setDomain s n { getDomain s n with setpoint := mv } := by
  subst hmv
  exact if_pos (by simp [low, high, step])

theorem writeSetpoint_of_invalid {n mv : Nat} (hmv : mv = v.toNat % 1024) (bad : mv < 650 ∨ 850 < mv ∨ mv % 5 ≠ 0) :
    writeSetpoint s n v = s := by
  subst hmv
  exact if_neg (by simp only [Bool.and_eq_true, decide_eq_true_eq]; omega)

end

/-! ### The regulators' microsecond -/

section
variable {r : Regulator}

theorem refillReg_level (enabled : r.enable = true) :
    (refillReg r).level = min (r.level + r.refill.toNat) r.depth.toNat := by
  simp [refillReg, enabled]

theorem refillReg_level_le_depth (bounded : r.level ≤ r.depth.toNat) : (refillReg r).level ≤ r.depth.toNat := by
  cases enabled : r.enable
  · simpa [refillReg, enabled] using bounded
  · rw [refillReg_level enabled]
    exact min_le_right _ _

section
variable {refill depth : W32} (waits : r.pend = some (true, refill, depth))
include waits

theorem applyPend_of_bad (bad : refill = 0 ∨ depth.toNat < 4096) : applyPend r = { r with pend := none, rejected := true } := by
  simp only [applyPend, waits]
  exact if_pos (by simpa using bad)

theorem applyPend_of_good (rises : refill ≠ 0) (deep : 4096 ≤ depth.toNat) : applyPend r =
    { r with enable := true, refill := refill, depth := depth, pend := none,
             level := if r.enable then min r.level depth.toNat else depth.toNat } := by
  simp only [applyPend, waits]
  rw [if_neg (by simpa using ⟨rises, deep⟩)]
  cases r.enable <;> rfl

end

end

theorem execRegulatorRefillTick_of_powered {s s1 : State} (on : s.power.inputOn = true)
    (refilled : s1 = (s.regs.map (·.1)).foldl (fun s n => setReg s n (applyPend (refillReg (getReg s n)))) s) :
    execRegulatorRefillTick s = .next (resumeRows (runQueue s1 [] s1.regWait)) := by
  simp only [execRegulatorRefillTick, on, ← refilled, Bool.not_true, Bool.false_eq_true, if_false]

/-! ### The pace counters

A quadrant's count stands at key `q` of the store and its mark at key `16 + q`, so the sixteen updates of one millisecond do not meet. -/

/-- The count that a quadrant has after the update, by the store before it. -/
def paceCount (on : Nat → Bool) (counts : List Nat) (m : Sparse W32) (q : Nat) : W32 :=
  if !on q then sget 0 m q else if sget 0 m (16 + q) = 0 then 0 else w32 (2 ^ 31 + (counts[q]?).getD 0 % 2 ^ 24)

/-- The store of pace counters after the update of one quadrant. -/
def paceStore (on : Nat → Bool) (counts : List Nat) (m : Sparse W32) (q : Nat) : Sparse W32 :=
  if on q then sput 0 (sput 0 m q (paceCount on counts m q)) (16 + q) 1 else m

section
variable {on : Nat → Bool} {counts : List Nat} {m : Sparse W32}

theorem paceCount_of_off {q : Nat} (off : on q = false) : paceCount on counts m q = sget 0 m q :=
  if_pos (by rw [off, Bool.not_false])

theorem paceCount_of_first {q : Nat} (up : on q = true) (first : sget 0 m (16 + q) = 0) : paceCount on counts m q = 0 := by
  rw [paceCount, if_neg (by simp [up]), if_pos first]

theorem paceCount_of_whole {q : Nat} (up : on q = true) (whole : sget 0 m (16 + q) ≠ 0) :
    paceCount on counts m q = w32 (2 ^ 31 + (counts[q]?).getD 0 % 2 ^ 24) := by
  rw [paceCount, if_neg (by simp [up]), if_neg whole]

theorem paceQuadrant_eq (s : State) (q : Nat) :
    paceQuadrant s counts q = { s with pace := paceStore (quadrantOn s) counts s.pace q } := by
  cases h : quadrantOn s q
  · simp [paceQuadrant, paceStore, h]
  · simp [paceQuadrant, paceStore, paceCount, h]

theorem foldl_paceQuadrant (l : List Nat) (s : State) : l.foldl (fun s q => paceQuadrant s counts q) s =
    { s with pace := l.foldl (paceStore (quadrantOn s) counts) s.pace } := by
  induction l generalizing s with
  | nil => rfl
  | cons q l ih =>
    rw [List.foldl_cons, ih, paceQuadrant_eq]
    rfl

theorem swf_paceStore {q : Nat} (wf : swf 0 m = true) : swf 0 (paceStore on counts m q) = true := by
  unfold paceStore
  split
  · exact swf_sput _ _ _ _ (swf_sput _ _ _ _ wf)
  · exact wf

theorem sget_paceStore_other {q j : Nat} (count : j ≠ q) (mark : j ≠ 16 + q) : sget 0 (paceStore on counts m q) j = sget 0 m j := by
  unfold paceStore
  split
  · rw [sget_sput_other _ _ _ _ _ mark, sget_sput_other _ _ _ _ _ count]
  · rfl

theorem sget_paceStore_same {q : Nat} (wf : swf 0 m = true) : sget 0 (paceStore on counts m q) q = paceCount on counts m q := by
  cases h : on q
  · simp [paceStore, paceCount, h]
  · rw [paceStore, if_pos h, sget_sput_other _ _ _ _ _ (by omega), sget_sput_same _ _ _ _ wf]

theorem sget_foldl_paceStore_other {l : List Nat} {j : Nat} (count : j ∉ l) (mark : ∀ q ∈ l, j ≠ 16 + q) :
    sget 0 (l.foldl (paceStore on counts) m) j = sget 0 m j := by
  induction l generalizing m with
  | nil => rfl
  | cons q l ih =>
    rw [List.foldl_cons, ih (List.not_mem_of_not_mem_cons count) fun p hp => mark p (List.mem_cons_of_mem q hp),
      sget_paceStore_other (List.ne_of_not_mem_cons count) (mark q List.mem_cons_self)]

theorem sget_foldl_paceStore {l : List Nat} {q : Nat} (distinct : l.Nodup) (small : ∀ p ∈ l, p < 16) (hq : q ∈ l)
    (wf : swf 0 m = true) : sget 0 (l.foldl (paceStore on counts) m) q = paceCount on counts m q := by
  induction l generalizing m with
  | nil => cases hq
  | cons p l ih =>
    obtain ⟨fresh, distinct⟩ := List.nodup_cons.mp distinct
    have below : q < 16 := small q hq
    rw [List.foldl_cons]
    rcases List.mem_cons.mp hq with rfl | later
    · rw [sget_foldl_paceStore_other fresh (fun _ _ => by omega), sget_paceStore_same wf]
    · have apart : q ≠ p := fun same => fresh (same ▸ later)
      rw [ih distinct (fun r hr => small r (List.mem_cons_of_mem p hr)) later (swf_paceStore wf)]
      simp only [paceCount, sget_paceStore_other apart (by omega),
        sget_paceStore_other (m := m) (q := p) (j := 16 + q) (on := on) (counts := counts)
          (by have := small p List.mem_cons_self; omega) (by omega)]

end

theorem execPaceUpdate_of_powered {s : State} (counts : List Nat) (on : s.power.inputOn = true) : execPaceUpdate counts s =
    .next { s with
      pace := (List.range 16).foldl (paceStore (quadrantOn s) counts) s.pace, freeNext := s.freeNext + 1,
      power := { s.power with watts := Config.watts s.freeNext } } := by
  simp [execPaceUpdate, on, foldl_paceQuadrant]

/-! ### The commands -/

section
variable (s : State) (v : W32)

theorem exec_telMeterLoRead (o : Nat) : exec (.telMeterLoRead o) s = execTelMeterLoRead o s := rfl
theorem exec_regulatorRefillTick : exec .regulatorRefillTick s = execRegulatorRefillTick s := rfl
theorem exec_paceUpdate (counts : List Nat) : exec (.paceUpdate counts) s = execPaceUpdate counts s := rfl

section
variable {s} (on : hears s 0 = true)
include on

theorem exec_registerWrite_of_heard (o : Nat) : exec (.registerWrite o v) s = .next (regWrite s o v) := if_pos on

theorem exec_thermLimitCtlWrite_of_heard : exec (.thermLimitCtlWrite v) s = .next (writeThermLimit s v) := if_pos on

theorem exec_pwrDomainSetpointWrite_of_heard (n : Fin 20) :
    exec (.pwrDomainSetpointWrite n v) s = .next (writeSetpoint s n.val v) := if_pos on

theorem exec_rglWrite_of_heard {o : Nat} (low : 0x300000 ≤ o) (high : o < 0x304000) (aligned : o % 4 = 0) :
    exec (.rglWrite o v) s = .next (regWrite s o v) := if_pos (by simp [on, low, high, aligned])

/-- Both commands that write a register of a regulator do the same. -/
theorem exec_of_regulator_write {t k r w : Nat} {i : Instr} {v : W32} (ht : t < 64) (hk : k < 10) (hr : r < 16) (aligned : r % 4 = 0)
    (hw : w = 0x300000 + 256 * t + 16 * k + r) (hi : i ∈ ([.rglWrite w v, .registerWrite w v] : List Instr)) :
    exec i s = .next (writeRgl s (16 * t + k) r v) := by
  rw [← regWrite_regulator ht hk hr, ← hw]
  simp only [List.mem_cons, List.not_mem_nil, or_false] at hi
  rcases hi with rfl | rfl
  · exact exec_rglWrite_of_heard v on (by omega) (by omega) (by omega)
  · exact exec_registerWrite_of_heard v on w

end

end

/-- Settles O57: each command is one operation above, and the clauses are its cases. -/
theorem registers : Obligations.Registers := by
  unfold Obligations.Registers
  refine ⟨?reads, ?regulatorWrites, ?thermLimit, ?setpoint, ?otherWrites, ?microsecond, ?regulator, ?pace, ?deaf⟩
  case reads =>
    intro s on
    simp only [exec_telMeterLoRead]
    refine ⟨fun o bad => execTelMeterLoRead_of_poisoned on bad, ?_, fun t k ht hk => ?_⟩
    · rw [execTelMeterLoRead_of_on_die on (by omega) (by omega), latchHi_meter]
    · rw [execTelMeterLoRead_of_on_die on (by omega) (by omega), latchHi_tally ht hk]
  case regulatorWrites =>
    intro s t k v r en refill depth on ht hk hr last i w hi
    refine ⟨fun ctl => ?_, fun refillAt => ?_, fun depthAt => ?_⟩
    · rw [exec_of_regulator_write on (r := 0) ht hk (by omega) rfl ctl hi, writeRgl_ctl hr last]
    · rw [exec_of_regulator_write on (r := 4) ht hk (by omega) rfl (by omega) hi, writeRgl_refill hr last]
    · rw [exec_of_regulator_write on (r := 8) ht hk (by omega) rfl (by omega) hi, writeRgl_depth hr last]
  case thermLimit =>
    intro s v p on cleared i hi
    have meaning : exec i s = .next (writeThermLimit s v) := by
      simp only [List.mem_cons, List.not_mem_nil, or_false] at hi
      rcases hi with rfl | rfl
      · exact exec_thermLimitCtlWrite_of_heard v on
      · exact exec_registerWrite_of_heard v on _
    rw [meaning]
    exact ⟨fun low high => congrArg Host.Outcome.next (writeThermLimit_of_in_range cleared low high),
      fun out => congrArg Host.Outcome.next (writeThermLimit_of_out_of_range cleared out)⟩
  case setpoint =>
    intro s n v mv on hmv i hi
    have meaning : exec i s = .next (writeSetpoint s n.val v) := by
      simp only [List.mem_cons, List.not_mem_nil, or_false] at hi
      rcases hi with rfl | rfl
      · exact exec_pwrDomainSetpointWrite_of_heard v on n
      · rw [exec_registerWrite_of_heard v on, regWrite_setpoint n.isLt]
    rw [meaning]
    exact ⟨fun low high step => congrArg Host.Outcome.next (writeSetpoint_of_valid hmv low high step),
      fun bad => congrArg Host.Outcome.next (writeSetpoint_of_invalid hmv bad)⟩
  case otherWrites =>
    intro s v on
    simp only [exec_registerWrite_of_heard v on]
    exact ⟨rfl, rfl, rfl, fun o outside => congrArg Host.Outcome.next (regWrite_of_undefined outside)⟩
  case microsecond =>
    exact fun s on s1 refilled => execRegulatorRefillTick_of_powered on refilled
  case regulator =>
    intro r
    refine ⟨refillReg_level, refillReg_level_le_depth, fun refill depth waits => ⟨applyPend_of_bad waits, ?_, ?_⟩⟩
    · intro rises deep off
      simp only [applyPend_of_good waits rises deep, off, Bool.false_eq_true, if_false]
    · intro rises deep enabled
      simp only [applyPend_of_good waits rises deep, enabled, if_true]
  case pace =>
    intro s counts on wf
    refine ⟨_, execPaceUpdate_of_powered counts on, fun q hq => ?_⟩
    rw [sget_foldl_paceStore List.nodup_range (fun p hp => List.mem_range.mp hp) (List.mem_range.mpr hq) wf]
    exact ⟨paceCount_of_off, paceCount_of_first, paceCount_of_whole⟩
  case deaf =>
    intro s o v n cs
    simp only [List.forall_mem_cons, List.not_mem_nil, false_implies, implies_true, and_true]
    refine ⟨fun silent => ?_, fun off => ?_⟩
    · have deaf : ¬ hears s 0 = true := by simp [silent]
      exact ⟨if_pos (by simp [silent]), if_neg (by simp [silent]), if_neg deaf, if_neg deaf, if_neg deaf⟩
    · have dark : (!s.power.inputOn) = true := by simp [off]
      exact ⟨if_pos dark, if_pos dark⟩

end Sys2Proof.Machine
end

section
/-! PROOF. Input power, trips, diodes, domains, the boot ROM, the self-test, recovery and the reference clock (R52, R54, R537, R538, R540,
R548, R552, R558, R576, R579, R580, R631): what each command does in each of its cases. -/

namespace Sys2Proof.Machine

/-! ### Input power -/

section
variable {s s1 : State} {v a : Nat}

section
variable (off : s.power.inputOn = false) (high : 4600 ≤ v) (up : s1 = { s with power := { s.power with
  inputOn := true, voltage := v, mgmtAddr := a, enableOpen := false, tripped := false, tripLatch := s.power.tripped } })
include off high up

theorem execInputPowerApplied_of_untripped (fresh : s.power.tripped = false) : execInputPowerApplied v a s = .next s1 := by
  subst up
  simp [execInputPowerApplied, off, Nat.not_lt.mpr high, fresh]

theorem execInputPowerApplied_of_tripped (trip : s.power.tripped = true) :
    execInputPowerApplied v a s = .next (logBare s1 evThmTripped uMgmt) := by
  subst up
  simp [execInputPowerApplied, off, Nat.not_lt.mpr high, trip]

end

section
variable (on : s.power.inputOn = true)
include on

section
variable (low : v < 4600) (noted : s1 = { s with power := { s.power with voltage := v, inputLow := true } })
include low noted

theorem execInputLow_of_again (again : s.power.inputLow = true) : execInputLow v s = .next s1 := by
  subst noted
  simp [execInputLow, on, Nat.not_le.mpr low, again]

theorem execInputLow_of_first (first : s.power.inputLow = false) :
    execInputLow v s = .next (logGen s1 evThmInputLow uInput none [w32 v] []) := by
  subst noted
  simp [execInputLow, on, Nat.not_le.mpr low, first]

end

theorem execInputExcursionEnd_of_high (high : 4600 ≤ v) :
    execInputExcursionEnd v s = .next { s with power := { s.power with voltage := v, inputLow := false } } := by
  simp [execInputExcursionEnd, on, Nat.not_lt.mpr high]

theorem execThermalTrip_of_powered : execThermalTrip s = .next (powerLost s true s.power.enableOpen) := if_pos on

end

end

/-! ### Outputs -/

section
variable {s : State}

theorem drive_of_unpowered {p : OutPin} (off : s.power.inputOn = false) (tied : p ≠ .prsntN) : drive s p = .released := by
  cases p with
  | prsntN => exact absurd rfl tied
  | wakeN => rfl
  | hostSmb | cableIdentity | mgmtSmb | tdo | faultN => simp [drive, off]

theorem drive_faultN_of_fault (on : s.power.inputOn = true) (fault : s.ctl.idState = .misdeal ∨ s.power.shutdown = true) :
    drive s .faultN = .low := by
  have pulled : faultDrive s = .low := if_pos (by simpa using fault)
  simp [drive, on, pulled]

theorem drive_faultN_of_sound (serves : s.ctl.idState ≠ .misdeal) (cool : s.power.shutdown = false) : drive s .faultN = .released := by
  have loose : faultDrive s = .released := if_neg (by simp [serves, cool])
  simp [drive, loose]

end

/-! ### Diodes -/

section
variable {s : State} {d : Fin 9}

theorem execDiodeSample_of_live (on : s.power.inputOn = true) (live : (getDiode s d.val).failed = false) (reading : Option Int) :
    execDiodeSample d reading s = .next (takeSample s d.val reading) := by
  simp [execDiodeSample, on, live]

theorem takeSample_of_good {die : Nat} {r : Int} (low : -160 ≤ r) (high : r ≤ 500) :
    takeSample s die (some r) = advancePower (goodSample s die r) := by
  simp [takeSample, Option.filter, low, high]

/-- No reading, or one that no diode gives, is a failure of the diode; outside the self-test nothing else comes of it. -/
theorem takeSample_of_bad {die : Nat} {reading : Option Int} (bad : ∀ r ∈ reading, r < -160 ∨ 500 < r)
    (served : s.ctl.testing = false) : takeSample s die reading =
      if (failDiode s die).power.shutdown && allCool (failDiode s die) then leaveShutdown (failDiode s die) die (hottest (failDiode s die))
      else failDiode s die := by
  have none_good : (reading.filter fun t => -160 ≤ t && t ≤ 500) = none := by
    rw [Option.filter_eq_none_iff]
    intro r hr
    have := bad r hr
    simp only [Bool.and_eq_true, decide_eq_true_eq]
    omega
  simp [takeSample, none_good, served]

end

/-! ### Domains -/

section
variable {s s1 : State} {n : Fin 20} (on : (getDomain s n.val).on = true) (rises : (getDomain s n.val).inReg = false)
include on rises

theorem execDomainInRegulation_of_rising : execDomainInRegulation n s = .next (advancePower
    (sideUp (quadrantUp (setDomain s n.val { getDomain s n.val with inReg := true }) n.val) n.val)) := by
  simp only [execDomainInRegulation, on, rises, Bool.not_true, Bool.or_self, Bool.false_eq_true, if_false]

section
variable (late : s1 = logBare (setDomain (expire s (.regulation n.val) countsMs) n.val
  { getDomain s n.val with on := false, inReg := false, failed := true }) evThmDomainFault (uDomain n.val))
include late

theorem execDomainRegulationTimeout_of_testing (testing : s1.ctl.testing = true) : execDomainRegulationTimeout n s =
    .next (endTest (noteFailure s1 (evThmDomainFault.word (uDomain n.val))) TestFindings.clean) := by
  simp only [execDomainRegulationTimeout, on, rises, ← late, testing, Bool.not_false, Bool.and_self, Bool.or_true, Bool.not_true,
    Bool.false_eq_true, if_true, if_false]

section
variable (served : s1.ctl.testing = false)
include served

theorem execDomainRegulationTimeout_of_serving
    (none_recovers : (s.ctl.recovering.find? fun r => (switchedOf r).contains n.val) = none) :
    execDomainRegulationTimeout n s = .next s1 := by
  simp only [execDomainRegulationTimeout, on, rises, ← late, served, none_recovers, Bool.not_false, Bool.and_self, Bool.or_true,
    Bool.not_true, Bool.false_eq_true, if_false]

theorem execDomainRegulationTimeout_of_recovering {r : ResetDomain}
    (recovers : (s.ctl.recovering.find? fun r => (switchedOf r).contains n.val) = some r) :
    execDomainRegulationTimeout n s = .next (recoveryFails s1 r) := by
  simp only [execDomainRegulationTimeout, on, rises, ← late, served, recovers, Bool.not_false, Bool.and_self, Bool.or_true,
    Bool.not_true, Bool.false_eq_true, if_false]

end

end

end

/-- Every domain belongs to a whole-module recovery. -/
theorem find?_wholeModule (n : Fin 20) :
    ([ResetDomain.wholeModule].find? fun r => (switchedOf r).contains n.val) = some .wholeModule :=
  List.find?_cons_of_pos (List.contains_iff_mem.mpr (List.mem_range.mpr n.isLt))

/-! ### The boot ROM -/

/-- The control firmware of slot `k` is loaded into both control cores and the self-test begins (steps 2 and 4 of Table 17.1). -/
def startFirmware (s : State) (k : Nat) : State :=
  beginTest (modCtl (deriveKeys s (fwSlot s k)) fun c => { c with bootSlot := k, activeCore := 0, standbyReady := true }) false

/-- The boot ROM's own firmware runs in misdeal when no slot verifies (R558). -/
def startRom (s : State) : State :=
  enterMisdeal (modCtl (deriveKeys (logBare s evBupFwNone uMgmt) none) fun c =>
    { c with bootSlot := 2, activeCore := 0, standbyReady := true,
             selfTest := { SelfTest.none with run := true, result := 2, firstCode := evBupFwNone.word uMgmt } })
    (evBupFwNone.word uMgmt)

section
variable {s : State} (on : s.power.inputOn = true) (boots : s.ctl.idState = .boot)
include on boots

section
variable {k : Nat} {r : List Nat} (active : slotsMarked s .active = k :: r)
include active

theorem execBootFwVerified_of_active (verifies : slotFault s k = 0) : execBootFwVerified s = .next (startFirmware s k) := by
  simp [execBootFwVerified, on, boots, active, verifies, startFirmware]

theorem execBootFwVerified_of_previous {j n : Nat} {q : List Nat} (fault : slotFault s k = n) (bad : n ≠ 0)
    (previous : slotsMarked s .previous = j :: q) (verifies : slotFault s j = 0) : execBootFwVerified s =
      .next (startFirmware (logGen s evBupFwBootFallback uMgmt none [w32 n] []) j) := by
  obtain ⟨m, rfl⟩ := Nat.exists_eq_succ_of_ne_zero bad
  simp [execBootFwVerified, on, boots, active, fault, previous, verifies, Option.filter, startFirmware]

end

theorem execBootFwVerified_of_none (noActive : slotsMarked s .active = []) (noPrevious : slotsMarked s .previous = []) :
    execBootFwVerified s = .next (startRom s) := by
  simp [execBootFwVerified, on, boots, noActive, noPrevious, startRom]

end

/-! ### Self-test and recovery -/

section
variable {s : State}

theorem execSelftestComplete_of_standing {t : TestFindings} (testing : s.ctl.testing = true)
    (stands : ((List.range 20).all fun n => (getDomain s n).inReg) = true) : execSelftestComplete t s = .next (endTest s t) := by
  simp [execSelftestComplete, testing, stands]

section
variable {d : ResetDomain} (recovers : d ∈ s.ctl.recovering) (cool : s.power.shutdown = false)
include recovers cool

theorem execRecoveryDone_of_recovering (passed : Bool) : execRecoveryDone d passed s = .next (domainEnds s d passed) := by
  simp [execRecoveryDone, recovers, cool]

end

theorem execDomainFailureDetected_of_new {d : ResetDomain} (serves : s.ctl.idState = .running) (fresh : d ∉ s.ctl.recovering) :
    execDomainFailureDetected d s = .next (abortAndRecover s d (evBupRecoveryStart.word uCtl)) := by
  simp [execDomainFailureDetected, serves, fresh]

theorem abortAndRecover_controlCore (c : Nat) (code : W32) :
    abortAndRecover s (.controlCore c) code = beginRecovery s (.controlCore c) := rfl

theorem abortAndRecover_of_other {d : ResetDomain} (other : ∀ c, d ≠ .controlCore c) (code : W32) :
    abortAndRecover s d code = requestAbort (beginRecovery s d) (leaveCode s d code) := by
  cases d with
  | controlCore c => exact absurd rfl (other c)
  | quadrant | nearBank | stack | fabricSide | wholeModule => rfl

end

/-! ### The reference clock -/

section
variable {s : State} {d : Fin 9}

theorem execRefclkLost_of_stack (on : s.power.inputOn = true) (stack : d.val ≠ 0) :
    execRefclkLost d s = .next (modStack s (d.val - 1) fun k => { k with ringOsc := true }) := by
  simp only [execRefclkLost, on, Bool.not_true, Bool.false_eq_true, if_false, if_neg stack]

theorem execRefclkRestored_of_stack (stack : d.val ≠ 0) :
    execRefclkRestored d s = .next (modStack s (d.val - 1) fun k => { k with ringOsc := false }) := if_neg stack

theorem execRefclkLost_of_compute (on : s.power.inputOn = true) (compute : d.val = 0) (clocked : s.ringOsc = false) :
    execRefclkLost d s = .next (computeUnclocked s) := by
  simp only [execRefclkLost, on, compute, clocked, Bool.not_true, Bool.false_eq_true, if_false, if_true]

theorem execRefclkRestored_of_compute (compute : d.val = 0) (unclocked : s.ringOsc = true) :
    execRefclkRestored d s = .next (computeClocked s) := by
  simp only [execRefclkRestored, compute, unclocked, if_true]

end

/-! ### The commands -/

section
variable (s : State)

theorem exec_inputPowerApplied (v a : Nat) : exec (.inputPowerApplied v a) s = execInputPowerApplied v a s := rfl
theorem exec_inputLow (v : Nat) : exec (.inputLow v) s = execInputLow v s := rfl
theorem exec_inputExcursionEnd (v : Nat) : exec (.inputExcursionEnd v) s = execInputExcursionEnd v s := rfl
theorem exec_thermalTrip : exec .thermalTrip s = execThermalTrip s := rfl
theorem exec_diodeSample (d : Fin 9) (r : Option Int) : exec (.diodeSample d r) s = execDiodeSample d r s := rfl
theorem exec_domainInRegulation (n : Fin 20) : exec (.domainInRegulation n) s = execDomainInRegulation n s := rfl
theorem exec_domainRegulationTimeout (n : Fin 20) :
    exec (.domainRegulationTimeout n) s = execDomainRegulationTimeout n s := rfl
theorem exec_bootFwVerified : exec .bootFwVerified s = execBootFwVerified s := rfl
theorem exec_selftestComplete (t : TestFindings) : exec (.selftestComplete t) s = execSelftestComplete t s := rfl
theorem exec_recoveryDone (d : ResetDomain) (passed : Bool) : exec (.recoveryDone d passed) s = execRecoveryDone d passed s := rfl
theorem exec_domainFailureDetected (d : ResetDomain) :
    exec (.domainFailureDetected d) s = execDomainFailureDetected d s := rfl
theorem exec_refclkLost (d : Fin 9) : exec (.refclkLost d) s = execRefclkLost d s := rfl
theorem exec_refclkRestored (d : Fin 9) : exec (.refclkRestored d) s = execRefclkRestored d s := rfl

end

/-- Settles O59: each command is one operation above, and the clauses are its cases. -/
theorem powerAndStartup : Obligations.PowerAndStartup := by
  unfold Obligations.PowerAndStartup
  simp only [exec_inputPowerApplied, exec_inputLow, exec_inputExcursionEnd, exec_thermalTrip,
    exec_diodeSample, exec_domainInRegulation, exec_domainRegulationTimeout, exec_bootFwVerified, exec_selftestComplete,
    exec_recoveryDone, exec_domainFailureDetected, exec_refclkLost, exec_refclkRestored]
  refine ⟨?applied, ?excursion, ?lost, ?unpowered, ?outputs, ?diode, ?inRegulation, ?timeout, ?boot, ?selfTest, ?recovery, ?failure,
    ?reference⟩
  case applied =>
    exact fun s s1 v a off high up =>
      ⟨execInputPowerApplied_of_untripped off high up, execInputPowerApplied_of_tripped off high up⟩
  case excursion =>
    exact fun s s1 v on => ⟨fun low noted => ⟨execInputLow_of_again on low noted, execInputLow_of_first on low noted⟩,
      execInputExcursionEnd_of_high on⟩
  case lost =>
    exact fun s on => ⟨rfl, rfl, execThermalTrip_of_powered on⟩
  case unpowered =>
    rintro s _ trip open_ rfl
    and_intros <;> rfl
  case outputs =>
    exact fun s p => ⟨drive_of_unpowered, drive_faultN_of_fault, drive_faultN_of_sound⟩
  case diode =>
    intro s d on live
    simp only [execDiodeSample_of_live on live]
    refine ⟨fun r low high => congrArg Host.Outcome.next (takeSample_of_good low high), ?_⟩
    rintro served _ rfl _ rfl
    exact ⟨congrArg Host.Outcome.next (takeSample_of_bad (by simp) served),
      fun r bad => congrArg Host.Outcome.next (takeSample_of_bad (by simpa using bad) served)⟩
  case inRegulation =>
    exact fun s n on rises => execDomainInRegulation_of_rising on rises
  case timeout =>
    intro s s1 n on rises late
    refine ⟨execDomainRegulationTimeout_of_testing on rises late, fun served none_recovers => ?_, fun served whole => ?_⟩
    · exact execDomainRegulationTimeout_of_serving on rises late served (by rw [none_recovers]; rfl)
    · exact execDomainRegulationTimeout_of_recovering on rises late served (by rw [whole]; exact find?_wholeModule n)
  case boot =>
    rintro s _ on boots rfl
    refine ⟨fun k r active verifies => execBootFwVerified_of_active on boots active verifies, ?_, ?_⟩
    · exact fun k r j q n active fault bad previous verifies =>
        execBootFwVerified_of_previous on boots active fault bad previous verifies
    · rintro _ noActive noPrevious rfl
      exact execBootFwVerified_of_none on boots noActive noPrevious
  case selfTest =>
    exact fun s t testing stands => execSelftestComplete_of_standing testing stands
  case recovery =>
    rintro s _ d recovers cool rfl
    simp only [execRecoveryDone_of_recovering recovers cool]
    refine ⟨rfl, ?_⟩
    rintro _ rfl
    rfl
  case failure =>
    intro s d serves fresh
    rw [execDomainFailureDetected_of_new serves fresh]
    refine ⟨?_, fun other => congrArg Host.Outcome.next (abortAndRecover_of_other other _)⟩
    rintro c rfl
    exact congrArg Host.Outcome.next (abortAndRecover_controlCore _ _)
  case reference =>
    intro s d on
    refine ⟨fun stack => ⟨execRefclkLost_of_stack on stack, execRefclkRestored_of_stack stack⟩, fun compute => ⟨?_, ?_⟩⟩
    · intro clocked s1 lost
      rw [execRefclkLost_of_compute on compute clocked, computeUnclocked, ← lost]
    · intro unclocked
      rw [execRefclkRestored_of_compute compute unclocked, computeClocked]

end Sys2Proof.Machine
end

section
/-! PROOF. A live switch at its dealer and at a member (R93, R95 to R98, R313, R402, Table 3.19): the answers that the dealer gathers,
the end of its wait, the end of a load, and a switch that is taken back. -/

namespace Sys2Proof.Machine

/-! ### The dealer has every answer -/

section
variable {s : State} {d a : Deck} (armed : s.loader.armed = some a)

theorem sameDeck_iff {i : DeckId} {m : SwitchState} : sameDeck i m = true ↔
    m.armed = true ∧ m.id.deckId = i.deckId ∧ m.id.serial = i.serial ∧ m.id.digest = i.digest := by
  simp only [sameDeck, Bool.and_eq_true, decide_eq_true_eq, and_assoc]

include armed

theorem gatherDone_of_same (same : ∀ e ∈ s.loader.gathered, sameDeck a.id e.2 = true) :
    gatherDone s d = acceptAnnounce (switchDown s (.switchAnnounce d.role.group a.id.serial)) := by
  have none_differs : (s.loader.gathered.find? fun m => !sameDeck a.id m.2) = none :=
    List.find?_eq_none.mpr fun e he => by simp only [same e he, Bool.not_true, Bool.false_eq_true, not_false_eq_true]
  simp only [gatherDone, armed, none_differs]

theorem gatherDone_of_other {e : Nat × SwitchState}
    (other : (s.loader.gathered.find? fun m => !sameDeck a.id m.2) = some e) : gatherDone s d = peerMismatch s e.1 := by
  simp only [gatherDone, armed, other]

end

/-! ### One answer -/

section
variable {s : State} {m : Nat} {st : SwitchState} {d : Deck} (hd : switchDeck s = some d)
include hd

theorem takeGatherReply_of_stranger (stranger : (otherMembers s d).contains m = false) : takeGatherReply s m st = s := by
  simp only [takeGatherReply, hd, stranger, Bool.not_false, if_true]

section
variable (other : (otherMembers s d).contains m = true)
include other

section
variable {s1 : State} (gathers : s.loader.phase = .gathering)
  (noted : s1 = modLoader s fun l => { l with gathered := l.gathered.filter (fun e => e.1 ≠ m) ++ [(m, st)] })
include gathers noted

/-- While the dealer gathers, an answer is noted, and the last one that was missing ends the gather. -/
theorem takeGatherReply_of_gathering : takeGatherReply s m st =
    if ((otherMembers s d).all fun m => s1.loader.gathered.any fun e => e.1 = m) = true then gatherDone s1 d else s1 := by
  have sameMembers : otherMembers s1 d = otherMembers s d := by rw [noted]; rfl
  simp only [takeGatherReply, hd, other, gathers, ← noted, sameMembers, Bool.not_true, Bool.false_eq_true, if_false, reduceCtorEq,
    decide_false, Bool.or_self, Bool.false_and, ne_eq, not_true_eq_false]

theorem takeGatherReply_of_missing (missing : ¬∀ x ∈ otherMembers s d, ∃ e ∈ s1.loader.gathered, e.1 = x) :
    takeGatherReply s m st = s1 := by
  rw [takeGatherReply_of_gathering hd other gathers noted]
  exact if_neg (by simpa using missing)

theorem takeGatherReply_of_last (all : ∀ x ∈ otherMembers s d, ∃ e ∈ s1.loader.gathered, e.1 = x) :
    takeGatherReply s m st = gatherDone s1 d := by
  rw [takeGatherReply_of_gathering hd other gathers noted]
  exact if_pos (by simpa using all)

end

section
variable (announced : s.loader.phase = .announced ∨ s.loader.phase = .played)
include announced

/-- After the announcement an answer counts only at the root, and only one that is not armed (R93). -/
theorem takeGatherReply_of_announced :
    takeGatherReply s m st = if (switchRoot s && !st.armed) = true then peerMismatch s m else s := by
  have started : (decide (s.loader.phase = .announced) || decide (s.loader.phase = .played)) = true := by simpa using announced
  have gathered : s.loader.phase ≠ .gathering := by rcases announced with h | h <;> simp [h]
  simp only [takeGatherReply, hd, other, started, Bool.true_and, Bool.not_true, Bool.false_eq_true, if_false, if_pos gathered]

theorem takeGatherReply_of_unarmed (root : switchRoot s = true) (unarmed : st.armed = false) :
    takeGatherReply s m st = peerMismatch s m := by
  rw [takeGatherReply_of_announced hd other announced]
  exact if_pos (by simp only [root, unarmed, Bool.not_false, Bool.and_self])

theorem takeGatherReply_of_idle (idle : switchRoot s = false ∨ st.armed = true) : takeGatherReply s m st = s := by
  rw [takeGatherReply_of_announced hd other announced]
  exact if_neg (by simpa [← Bool.not_eq_true, imp_iff_not_or] using idle)

end

end

/-! ### The wait for the answers ends -/

theorem execSwitchGatherTimeout_of_gathering (gathers : s.loader.phase = .gathering) :
    execSwitchGatherTimeout s = .next (startRounds (endSwitch
      (logGen (expire s .gather (10 * countsMs)) evDckSwitchTimeout uDeck none
        [w32 ((otherMembers s d).filter fun m => !s.loader.gathered.any fun e => e.1 = m).length] [])
      (evDckSwitchTimeout.word uDeck) (evDckSwitchTimeout.word uDeck))) := by
  simp only [execSwitchGatherTimeout, hd]
  exact if_neg (not_not_intro gathers)

theorem execSwitchGatherTimeout_of_idle (idle : s.loader.phase ≠ .gathering) : execSwitchGatherTimeout s = .next s := by
  simp only [execSwitchGatherTimeout, hd]
  exact if_pos idle

end

/-! ### The load ends, or the switch is taken back -/

section
variable {s : State}

theorem loadDone_of_deck {d : Deck} (hd : deckOf s = some d) : loadDone s = playSwitch (loadPrograms s d) := by
  simp only [loadDone, hd]

theorem execSwitchLoadDone_of_loaded (loads : s.loader.phase = .loading) : execSwitchLoadDone false s = .next (loadDone s) := by
  simp only [execSwitchLoadDone, loads, ne_eq, not_true_eq_false, if_false, Bool.false_eq_true]

theorem execSwitchLoadDone_of_failed (loads : s.loader.phase = .loading) : execSwitchLoadDone true s =
    .next (abortAndRecover (deckFault s evDckSwitchCommit noOffset [] []) .wholeModule (evDckSwitchCommit.word uDeck)) := by
  simp only [execSwitchLoadDone, loads, ne_eq, not_true_eq_false, if_false, if_true]

theorem execSwitchLoadDone_of_idle {failed : Bool} (idle : s.loader.phase ≠ .loading) : execSwitchLoadDone failed s = .next s :=
  if_pos idle

/-- Up to the first play of the switch trick a switch can be taken back: the play of slot 0 goes, and marks are accepted again. -/
theorem cancelSwitch_of_unloaded (unloaded : s.loader.phase = .gathering ∨ s.loader.phase = .announced ∨ s.loader.phase = .played) :
    cancelSwitch s = modLoader (modCtl (setTrick s 0 (trickCancel (getTrick s 0))) fun c => { c with heldSwitch := false }) fun l =>
      { l with phase := .none, gathered := [], alone := false, dropArmed := false, armed := if l.dropArmed then none else l.armed,
               stage := if l.stage = .switching then (if l.dropArmed then .verified else .armed) else l.stage } := by
  rcases unloaded with h | h | h <;> simp only [cancelSwitch, h]

end

/-! ### The commands -/

section
variable (s : State)

theorem exec_switchGatherReply (m : Nat) (st : SwitchState) : exec (.switchGatherReply m st) s = .next (takeGatherReply s m st) := rfl
theorem exec_switchGatherTimeout : exec .switchGatherTimeout s = execSwitchGatherTimeout s := rfl
theorem exec_switchLoadDone (failed : Bool) : exec (.switchLoadDone failed) s = execSwitchLoadDone failed s := rfl

end

/-- Settles O43: the phase of the switch says which case of each operation above a command meets. -/
theorem liveSwitch : Obligations.LiveSwitch := by
  unfold Obligations.LiveSwitch
  simp only [exec_switchGatherReply, exec_switchGatherTimeout, exec_switchLoadDone]
  refine ⟨?gathering, ?announced, ?stranger, ?timeout, ?loading, fun s b => execSwitchLoadDone_of_idle, ?takenBack⟩
  case gathering =>
    intro s s1 m st d hd other gathers noted
    refine ⟨fun missing => by rw [takeGatherReply_of_missing hd other gathers noted missing], fun all a armed => ?_⟩
    have stillArmed : s1.loader.armed = some a := by rw [noted]; exact armed
    rw [takeGatherReply_of_last hd other gathers noted all]
    refine ⟨fun same => ?_, fun e differs => ?_⟩
    · rw [gatherDone_of_same stillArmed fun e he => sameDeck_iff.mpr (same e he)]
    · rw [gatherDone_of_other stillArmed differs, peerMismatch]
  case announced =>
    intro s m st d hd other announced
    refine ⟨fun root unarmed => ?_, fun idle => ?_⟩
    · rw [takeGatherReply_of_unarmed hd other announced root unarmed, peerMismatch]
    · rw [takeGatherReply_of_idle hd other announced idle]
  case stranger =>
    intro s m st d hd stranger
    rw [takeGatherReply_of_stranger hd stranger]
  case timeout =>
    exact fun s d hd => ⟨execSwitchGatherTimeout_of_gathering hd, execSwitchGatherTimeout_of_idle hd⟩
  case loading =>
    intro s loads
    refine ⟨fun d hd => ?_, execSwitchLoadDone_of_failed loads⟩
    rw [execSwitchLoadDone_of_loaded loads, loadDone_of_deck hd]
  case takenBack =>
    exact fun s => cancelSwitch_of_unloaded

end Sys2Proof.Machine
end

section
/-! PROOF. The deck commands and what the loader does between them (R87 to R93, R95, R462, R649; Tables 3.17, 3.18 and 3.20): what each
does in each of its cases once its interface has taken it. -/

namespace Sys2Proof.Machine

/-! ### Vendor commands that are taken -/

section
variable {s s1 : State} {cci op len : Nat} {input : List Byte} {bg : Bool} {reservedOk : List Byte → Bool}
  {who : List Byte → Nat → Bool} (act : State → List Byte → State)

theorem vendorBody_of_taken (reserved : reservedOk input = true) (serves : s.ctl.idState ≠ .misdeal ∨ misdealVendor op = true)
    (free : bg = true → bgBusy s = false) : vendorBody s cci op input reservedOk bg act = act s input := by
  have accepted : ¬(inMisdeal s && !misdealVendor op) = true := by
    rcases serves with awake | known
    · simp [inMisdeal, awake]
    · simp [known]
  have idle : ¬(bg && bgBusy s) = true := by simpa using free
  rw [vendorBody, if_neg (by simp [reserved]), if_neg accepted, if_neg idle]

theorem vendor_of_taken (taken : vendorTaken s cci op len input bg) (reserved : reservedOk input = true) :
    vendor s cci op input len reservedOk bg act = act s input := by
  obtain ⟨heard, length, serves, free⟩ := taken
  rw [vendor, if_neg (by simp [heard]), if_neg (not_not_intro length), vendorBody_of_taken act reserved serves free]

/-- The command acts on the state without the nonce that it has used up. -/
theorem signed_of_taken (taken : signedTaken s s1 cci op len input (who (input.take len)) bg)
    (reserved : reservedOk (input.take len) = true) :
    signed s cci op input len reservedOk bg who act = act s1 (input.take len) := by
  obtain ⟨heard, length, spent, valid, serves, free⟩ := taken
  have awake : s1.ctl = s.ctl := by rw [spent]
  have background : bgBusy s1 = bgBusy s := by rw [spent]; rfl
  rw [signed, if_neg (by simp [heard])]
  simp only [← spent, length, valid, ne_eq, not_true_eq_false, if_false]
  exact vendorBody_of_taken act reserved (by rwa [awake]) (by rwa [background])

theorem replyOk_eq_answered (out : List Byte) : replyOk s cci op out = answered s cci op .success 0 out := rfl

end

/-! ### DECK_QUERY and DECK_SET_INDEX -/

/-- The card types that DECK_QUERY lists: the critical ones of Table 3.3, and the one optional type that is read. -/
def knownCardTypes : List Nat := cardCounts.map (·.1) ++ [0x8001]

/-- What DECK_QUERY answers (Table 3.18): FORMAT_MAJOR 1, FORMAT_MINOR_MAX 0, GENERATION 1 and TYPE_COUNT, then each type with its lowest
and highest version, both 1.0. -/
def deckQueryReply : List Byte :=
  [1, 0, 1, 0] ++ leBytes 2 knownCardTypes.length ++ [0, 0] ++ knownCardTypes.flatMap fun t => leBytes 2 t ++ [0x10, 0x10]

theorem length_leBytes (n v : Nat) : (leBytes n v).length = n := by
  induction n generalizing v with
  | zero => rfl
  | succ n ih => rw [leBytes, List.length_cons, ih]

theorem take_deckQueryReply : deckQueryReply.take 4 = [1, 0, 1, 0] := rfl

/-- Four bytes of each card type follow a head of eight. -/
theorem length_deckQueryReply : deckQueryReply.length = 8 + 4 * (cardCounts.length + 1) := by
  have types : knownCardTypes.length = cardCounts.length + 1 := by rw [knownCardTypes, List.length_append, List.length_map]; rfl
  have entry : ∀ t, (leBytes 2 t ++ [0x10, 0x10]).length = 4 := fun t => by rw [List.length_append, length_leBytes]; rfl
  simp only [deckQueryReply, List.length_append, List.length_flatMap, length_leBytes, entry, List.map_const', List.sum_replicate,
    types, List.length_cons, List.length_nil, smul_eq_mul]
  omega

theorem execDeckQuery_of_taken {s : State} {c : Fin 2} {input : List Byte} (taken : vendorTaken s c.val 0xC010 0 input false) :
    execDeckQuery c input s = .next (answered s c.val 0xC010 .success 0 deckQueryReply) := by
  rw [execDeckQuery, vendor_of_taken _ taken rfl, replyOk_eq_answered, deckQueryReply, knownCardTypes]

section
variable {s s1 : State} {c : Fin 2} {input : List Byte} (taken : signedTaken s s1 c.val 0xC011 8 input anyOwner false)
  (small : inField (input.take 8) 0 2 < 2 ^ 13) (zero : zeroFrom (input.take 8) 2 = true)
include taken small zero

/-- The index of DECK_SET_INDEX stands in its first field; a deck selected by another index is selected anew at arming. -/
theorem execDeckSetIndex_of_open {i : Nat} (hi : i = inField (input.take 8) 0 2)
    (isOpen : s1.loader.stage = .empty ∨ s1.loader.stage = .staged ∨ s1.loader.stage = .verified) :
    execDeckSetIndex c input s = .next (answered (modLoader s1 fun l =>
      { l with index := some i, storedIndex := if storeWindow s1 then some i else l.storedIndex,
               staged := if l.index = some i then l.staged else none }) c.val 0xC011 .success 0 []) := by
  rw [execDeckSetIndex, signed_of_taken _ taken (by simp only [small, zero, decide_true, Bool.and_self]), hi, replyOk_eq_answered]
  exact congrArg Host.Outcome.next (if_neg (by simpa [or_assoc, ← Classical.or_iff_not_imp_left] using isOpen))

theorem execDeckSetIndex_of_armed (armed : s1.loader.stage = .armed) :
    execDeckSetIndex c input s = .next (stateRefuse s1 c.val 0xC011) := by
  rw [execDeckSetIndex, signed_of_taken _ taken (by simp only [small, zero, decide_true, Bool.and_self]), if_pos (by simp [armed])]

end

/-! ### Staging -/

theorem execDeckStage_of_taken {s : State} {c : Fin 2} {input : List Byte} (taken : vendorTaken s c.val 0xC012 16 input true) :
    execDeckStage c input s = .next (stageDeck s c.val (w64 (inField input 0 8)) (inField input 8 8)) :=
  congrArg Host.Outcome.next (vendor_of_taken _ taken rfl)

section
variable {s : State} {cci len : Nat} {addr : W64}

/-- A length that suits: not below a header's, a multiple of 8, and no more than a slot holds. -/
theorem stageDeck_of_empty (empty : s.loader.stage = .empty) (least : 320 ≤ len) (aligned : len % 8 = 0) (most : len ≤ maxDeck)
    (window : storeWindow s = true) (slot : stagingSlot s = 0) (master : s.host.busMaster = true) :
    stageDeck s cci addr len = fetchNext (modLoader (startBg s cci 0xC012) fun l =>
      { l with stage := .staging, stageSlot := 0, fetchAddr := addr, fetchLen := len, fetched := 0,
               staged := none, armed := none, slot0 := [], mark0 := .empty }) := by
  have suits : ¬(decide (len < 320) || decide (len % 8 ≠ 0) || decide (maxDeck < len)) = true := by
    simp [least, aligned, most]
  rw [stageDeck, if_neg (not_not_intro empty), if_neg suits, if_neg (by simp [window])]
  simp only [slot]
  exact if_pos master

theorem stageDeck_of_occupied (occupied : s.loader.stage ≠ .empty) : stageDeck s cci addr len = stateRefuse s cci 0xC012 :=
  if_pos occupied

end

section
variable {s : State} (stages : s.loader.stage = .staging)
include stages

theorem execDeckStageReadCompletion_of_error (data : List Byte) : execDeckStageReadCompletion data true s = .next (failFetch s) := by
  rw [execDeckStageReadCompletion, if_neg (not_not_intro stages), if_pos (by simp)]

section
variable {s1 : State} {data d : List Byte} (some_data : data ≠ []) (slot : s.loader.stageSlot = 0)
  (part : d = data.take (s.loader.fetchLen - s.loader.fetched))
  (appended : s1 = modLoader s fun l => { l with fetched := l.fetched + d.length, slot0 := l.slot0 ++ d })
include some_data slot part appended

/-- What the completion brings of the image is appended to slot 0, and the next part is asked for while some is missing. -/
theorem execDeckStageReadCompletion_of_data : execDeckStageReadCompletion data false s =
    if s.loader.fetched + d.length < s.loader.fetchLen then .next (fetchNext s1)
    else .next (modLoader s1 fun l => { l with stage := .staged }) := by
  rw [execDeckStageReadCompletion, if_neg (not_not_intro stages), if_neg (by simpa using some_data), ← part]
  have onlySlot0 : (modLoader s fun l =>
      { l with fetched := l.fetched + d.length, slot0 := if l.stageSlot = 0 then l.slot0 ++ d else l.slot0,
               slot1 := if l.stageSlot = 1 then l.slot1 ++ d else l.slot1 }) = s1 := by
    simp only [appended, modLoader, slot, if_true, zero_ne_one, if_false]
  simp only [onlySlot0]
  rw [appended]
  rfl

end

end

/-! ### Verification -/

section
variable {q s s1 : State} {v : Option (Ev × Nat) × List Card} (begun : s = beginVerify q) (verifies : s.loader.stage = .verifying)
  (found : verifyDeck s (slotImage s s.loader.stageSlot) s.loader.fetchLen s.loader.index = v) (noted : noteSkipped s v.2 = s1)
include begun verifies found noted

theorem execDeckVerifyDone_of_sound (sound : v.1 = none) : execDeckVerifyDone q = .next (endBackground (modLoader s1 fun l =>
    { l with stage := .verified, skipped := countSkipped v.2,
             staged := if l.index.isSome then some (readDeck (slotImage s s.loader.stageSlot) (counted v.2)) else none })
      0xC012 .success 0 []) := by
  rw [execDeckVerifyDone, ← begun, if_neg (not_not_intro verifies)]
  simp only [found, noted, sound]

theorem execDeckVerifyDone_of_fault {e : Ev} {o : Nat} (fault : v.1 = some (e, o)) :
    execDeckVerifyDone q = .next (failStage s1 e (w32 o) [w32 o] []) := by
  rw [execDeckVerifyDone, ← begun, if_neg (not_not_intro verifies)]
  simp only [found, noted, fault]

end

/-! ### Arming -/

section
variable {s : State} {c : Fin 2} {input : List Byte} (taken : vendorTaken s c.val 0xC013 0 input true)
include taken

theorem execDeckArm_of_unverified (unverified : s.loader.stage ≠ .verified) :
    execDeckArm c input s = .next (stateRefuse s c.val 0xC013) := by
  rw [execDeckArm, vendor_of_taken _ taken rfl, if_pos unverified]

section
variable {s1 : State} {cs : List Card} {r : Except (Ev × W32 × List W32) Deck} (verified : s.loader.stage = .verified)
  (checks : armChecks s (slotImage s s.loader.stageSlot) = (cs, r)) (begun : s1 = startBg (noteSkipped s cs) c.val 0xC013)
include verified checks begun

theorem execDeckArm_of_ok {d : Deck} (passes : r = .ok d) : execDeckArm c input s =
    .next (modLoader s1 fun l => { l with stage := .arming, staged := some d, skipped := countSkipped cs }) := by
  rw [execDeckArm, vendor_of_taken _ taken rfl, if_neg (not_not_intro verified)]
  simp only [checks, passes, ← begun]

theorem execDeckArm_of_fault {e : Ev} {o : W32} {args : List W32} (fails : r = .error (e, o, args)) : execDeckArm c input s =
    .next (endBackground (deckFault s1 e o args []) 0xC013 .invalidInput (e.word uDeck) []) := by
  rw [execDeckArm, vendor_of_taken _ taken rfl, if_neg (not_not_intro verified)]
  simp only [checks, fails, ← begun]

end

end

section
variable {s : State}

/-- The load image is written to the module area of the deck that is staged, and that deck is armed. -/
theorem execDeckArmBuildDone_of_arming (arms : s.loader.stage = .arming) {t : State}
    (built : t = (s.loader.staged.map fun d => writeImage s d s.loader.fetchLen).getD s) :
    execDeckArmBuildDone s =
      .next (endBackground (modLoader t fun l => { l with stage := .armed, armed := l.staged }) 0xC013 .success 0 []) := by
  rw [execDeckArmBuildDone, if_neg (not_not_intro arms), built]
  cases s.loader.staged <;> rfl

theorem execDeckArmBuildDone_of_idle (idle : s.loader.stage ≠ .arming) : execDeckArmBuildDone s = .next s := if_pos idle

end

/-! ### The switch and discarding -/

section
variable {s s1 : State} {c : Fin 2} {input : List Byte}

/-- The dealer asks its members for their state; alone it has every answer at once. -/
theorem execDeckSwitch_of_dealer {a d : Deck} {ms : List Nat} (taken : vendorTaken s c.val 0xC014 0 input true)
    (stage : s.loader.stage = .armed) (armed : s.loader.armed = some a) (dealer : a.role.dealer = ownIndex s)
    (begun : s1 = startDeadline (modLoader (startBg s c.val 0xC014) fun l =>
      { l with phase := .gathering, gathered := [], alone := heldOut s }) .gather)
    (hd : switchDeck s1 = some d) (members : ms = if heldOut s then [] else otherMembers s1 d) :
    execDeckSwitch c input s = .next (if ms = [] then gatherDone s1 d else ms.foldl (fun s m => sendFrame s m 64 .switchGather) s1) := by
  rw [execDeckSwitch, vendor_of_taken _ taken rfl]
  simp only [stage, armed, ← begun, hd, ← members]
  rw [if_neg (by simp [dealer])]
  cases ms <;> rfl

section
variable (taken : vendorTaken s c.val 0xC015 0 input false)
include taken

theorem execDeckDiscard_of_rest (rest : s.loader.phase = .none) :
    execDeckDiscard c input s = .next (answered (discardStaged s) c.val 0xC015 .success 0 [0]) := by
  rw [execDeckDiscard, vendor_of_taken _ taken rfl]
  simp only [rest, if_true, replyOk_eq_answered]

theorem execDeckDiscard_of_unplayed (unplayed : s.loader.phase = .gathering ∨ s.loader.phase = .announced) :
    execDeckDiscard c input s = .next (answered (dropStaged (discardSwitch s)) c.val 0xC015 .success 0 [0]) := by
  rw [execDeckDiscard, vendor_of_taken _ taken rfl]
  rcases unplayed with h | h <;> simp only [h, reduceCtorEq, if_false, replyOk_eq_answered]

theorem execDeckDiscard_of_played
    (played : s.loader.phase = .played ∨ s.loader.phase = .loading ∨ s.loader.phase = .replayed) :
    execDeckDiscard c input s = .next (answered s c.val 0xC015 .success 0 [1]) := by
  rw [execDeckDiscard, vendor_of_taken _ taken rfl]
  rcases played with h | h | h <;> simp only [h, replyOk_eq_answered]

theorem execDeckDiscard_of_marking (marks : s.loader.phase = .marking) :
    execDeckDiscard c input s = .next (answered s c.val 0xC015 .success 0 [2]) := by
  rw [execDeckDiscard, vendor_of_taken _ taken rfl]
  simp only [marks, replyOk_eq_answered]

end

theorem discardStaged_of_checked (checked : s.loader.stage = .verified ∨ s.loader.stage = .armed) : discardStaged s = dropStaged s := by
  rcases checked with h | h <;> simp only [discardStaged, h]

end

/-! ### Page pools -/

section
variable {s : State}

theorem execPoolFillDone_of_held (held : fillHeld s = true) : execPoolFillDone s = .next s := if_pos (by simp [held])

theorem execPoolFillDone_of_free {s1 : State} (fills : s.loader.poolFill = true) (free : fillHeld s = false)
    (filled : s1 = modLoader (s.loader.fillFrames.foldl fillFrame s) fun l => { l with poolFill := false, fillFrames := [] }) :
    execPoolFillDone s = .next (if isDealer s1 then startRounds s1 else openHeld s1) := by
  rw [execPoolFillDone, if_neg (by simp [fills, free]), filled]

end

/-! ### The commands -/

section
variable (s : State) (c : Fin 2) (input : List Byte)

theorem exec_deckQuery : exec (.deckQuery c input) s = execDeckQuery c input s := rfl
theorem exec_deckSetIndex : exec (.deckSetIndex c input) s = execDeckSetIndex c input s := rfl
theorem exec_deckStage : exec (.deckStage c input) s = execDeckStage c input s := rfl
theorem exec_deckStageReadCompletion (data : List Byte) (error : Bool) :
    exec (.deckStageReadCompletion data error) s = execDeckStageReadCompletion data error s := rfl
theorem exec_deckVerifyDone : exec .deckVerifyDone s = execDeckVerifyDone s := rfl
theorem exec_deckArm : exec (.deckArm c input) s = execDeckArm c input s := rfl
theorem exec_deckArmBuildDone : exec .deckArmBuildDone s = execDeckArmBuildDone s := rfl
theorem exec_deckSwitch : exec (.deckSwitch c input) s = execDeckSwitch c input s := rfl
theorem exec_deckDiscard : exec (.deckDiscard c input) s = execDeckDiscard c input s := rfl
theorem exec_poolFillDone : exec .poolFillDone s = execPoolFillDone s := rfl

end

/-- Settles O54: each command is one operation above, and the clauses are its cases. -/
theorem deckCommands : Obligations.DeckCommands := by
  unfold Obligations.DeckCommands
  simp only [exec_deckQuery, exec_deckSetIndex, exec_deckStage, exec_deckStageReadCompletion, exec_deckVerifyDone, exec_deckArm,
    exec_deckArmBuildDone, exec_deckSwitch, exec_deckDiscard, exec_poolFillDone]
  refine ⟨?query, ?setIndex, ?stage, ?stageRefused, ?completion, ?verify, ?arm, ?build, ?switch, ?discard, ?pools⟩
  case query =>
    exact fun s c taken => ⟨deckQueryReply, execDeckQuery_of_taken taken, take_deckQueryReply, length_deckQueryReply⟩
  case setIndex =>
    exact fun s s1 c input taken small zero => ⟨fun isOpen i hi => execDeckSetIndex_of_open taken small zero hi isOpen,
      execDeckSetIndex_of_armed taken small zero⟩
  case stage =>
    intro s c input taken empty least aligned most window slot master
    rw [execDeckStage_of_taken taken, stageDeck_of_empty empty least aligned most window slot master]
  case stageRefused =>
    intro s c input taken occupied
    rw [execDeckStage_of_taken taken, stageDeck_of_occupied occupied]
  case completion =>
    intro s s1 data d stages some_data slot part appended
    rw [execDeckStageReadCompletion_of_data stages some_data slot part appended]
    refine ⟨fun fewer => if_pos fewer, fun whole => ?_, execDeckStageReadCompletion_of_error stages data⟩
    exact if_neg (Nat.not_lt.mpr whole)
  case verify =>
    exact fun q s s1 v begun verifies found noted => ⟨execDeckVerifyDone_of_sound begun verifies found noted,
      fun e o fault => execDeckVerifyDone_of_fault begun verifies found noted fault⟩
  case arm =>
    exact fun s s1 c taken => ⟨execDeckArm_of_unverified taken, fun verified cs r checks begun =>
      ⟨fun d passes => execDeckArm_of_ok taken verified checks begun passes,
        fun e o args fails => execDeckArm_of_fault taken verified checks begun fails⟩⟩
  case build =>
    refine fun s => ⟨fun arms => ⟨fun d t staged written => ?_, fun unstaged => ?_⟩, execDeckArmBuildDone_of_idle⟩
    · exact execDeckArmBuildDone_of_arming arms (by rw [staged]; exact written)
    · rw [execDeckArmBuildDone_of_arming arms rfl, unstaged]
      simp only [modLoader, unstaged, Option.map_none, Option.getD_none]
  case switch =>
    intro s s1 c a d taken stage armed dealer begun hd ms members
    rw [execDeckSwitch_of_dealer taken stage armed dealer begun hd members]
    exact ⟨fun some_members => by rw [if_neg some_members], fun alone => by rw [if_pos alone]⟩
  case discard =>
    intro s c taken
    refine ⟨fun rest checked => ?_, execDeckDiscard_of_unplayed taken, execDeckDiscard_of_played taken,
      execDeckDiscard_of_marking taken⟩
    rw [execDeckDiscard_of_rest taken rest, discardStaged_of_checked checked]
  case pools =>
    exact fun s s1 fills filled => ⟨fun free => execPoolFillDone_of_free fills free filled, execPoolFillDone_of_held⟩

end Sys2Proof.Machine
end

section
/-! PROOF. What a play writes through a descriptor in scratch (R110, R196, R198, R200): every bit of an element lies in an extent, and
the words of a set of writes are all that carrying them out changes. -/

namespace Sys2Proof.Machine

/-! ### Elements within BOUND lie in the extents -/

/-- An index below a count times a stride lies between 0 and the product of the last index, on whichever side that is. -/
theorem mul_mem_span {i n : Nat} (s : Int) (below : i < n) :
    min 0 (((n : Int) - 1) * s) ≤ i * s ∧ i * s ≤ max 0 (((n : Int) - 1) * s) := by
  have lo : (0 : Int) ≤ i := Int.natCast_nonneg i
  have hi : (i : Int) ≤ n - 1 := by omega
  rcases le_total 0 s with rises | falls
  · exact ⟨(min_le_left _ _).trans (mul_nonneg lo rises), (mul_le_mul_of_nonneg_right hi rises).trans (le_max_right _ _)⟩
  · exact ⟨(min_le_right _ _).trans (mul_le_mul_of_nonpos_right hi falls),
      (mul_nonpos_of_nonneg_of_nonpos lo falls).trans (le_max_left _ _)⟩

theorem dotOff_mem_spanOf : ∀ {x counts : List Nat} (strides : List Int), x.length = counts.length →
    (x.zip counts).all (fun e => e.1 < e.2) = true →
    (spanOf counts strides).1 ≤ dotOff x strides ∧ dotOff x strides ≤ (spanOf counts strides).2
  | [], [], _, _, _ => by simp [dotOff, spanOf]
  | _ :: _, _ :: _, [], _, _ => by simp [dotOff, spanOf]
  | i :: x, n :: counts, s :: strides, length, within => by
    simp only [List.zip_cons_cons, List.all_cons, Bool.and_eq_true, decide_eq_true_eq] at within
    obtain ⟨low, high⟩ := dotOff_mem_spanOf strides (Nat.succ.inj length) within.2
    obtain ⟨least, most⟩ := mul_mem_span s within.1
    simp only [dotOff, spanOf]
    exact ⟨by linarith, by linarith⟩

section
variable {d : Desc}

theorem wide_mem_extents (wide : 8 ≤ (descElem d).bits) :
    (0, d.base + (spanOf d.bound d.stride).1 * ((descElem d).bits / 8 : Nat),
      d.base + (spanOf d.bound d.stride).2 * ((descElem d).bits / 8 : Nat) + ((descElem d).bits / 8 : Nat) - 1) ∈ extents d := by
  simp [extents, wide]

theorem lowPlane_mem_extents (narrow : ¬8 ≤ (descElem d).bits) :
    (0, d.base + (spanOf d.bound d.stride).1 / 2, d.base + (spanOf d.bound d.stride).2 / 2) ∈ extents d := by
  simp [extents, narrow]

theorem highPlane_mem_extents (fp6 : isFp6 (descElem d) = true) :
    (1, d.hiBase + (spanOf d.bound d.stride).1 / 4, d.hiBase + (spanOf d.bound d.stride).2 / 4) ∈ extents d := by
  simp [extents, fp6]

/-- Each piece of an element within BOUND lies in the extent of its array: the values, or the low and the high plane of FP6. -/
theorem elemPieces_mem_extents {x : List Nat} (within : inBound d x = true) (length : x.length = d.bound.length) :
    ∀ p ∈ elemPieces d x, ∃ e ∈ extents d, e.2.1 ≤ p.1 ∧ p.1 ≤ e.2.2 := by
  obtain ⟨low, high⟩ := dotOff_mem_spanOf d.stride length within
  intro p hp
  simp only [elemPieces] at hp
  split at hp
  next wide =>
    obtain ⟨i, hi, rfl⟩ := List.mem_map.mp hp
    rw [List.mem_range] at hi
    have bytes : (0 : Int) ≤ ((descElem d).bits / 8 : Nat) := Int.natCast_nonneg _
    have least := mul_le_mul_of_nonneg_right low bytes
    have most := mul_le_mul_of_nonneg_right high bytes
    exact ⟨_, wide_mem_extents wide, by dsimp only; omega, by dsimp only; omega⟩
  next narrow =>
    rcases List.mem_cons.mp hp with rfl | plane
    · exact ⟨_, lowPlane_mem_extents narrow, by dsimp only; omega, by dsimp only; omega⟩
    · split at plane
      next fp6 =>
        obtain rfl := List.mem_singleton.mp plane
        exact ⟨_, highPlane_mem_extents fp6, by dsimp only; omega, by dsimp only; omega⟩
      next => cases plane

end

/-! ### The words of a set of writes -/

/-- Every word of a set of writes satisfies a predicate on its key. -/
def KeysIn (P : Nat → Prop) (m : Sparse WordPut) : Prop := ∀ e ∈ m, P e.1

theorem keysIn_nil (P : Nat → Prop) : KeysIn P [] := fun _ he => absurd he List.not_mem_nil

theorem keysIn_sput {P : Nat → Prop} {m : Sparse WordPut} {k : Nat} (v : WordPut) (old : KeysIn P m) (new : P k) :
    KeysIn P (sput WordPut.none m k v) := by
  induction m with
  | nil =>
    simp only [sput]
    split
    · exact keysIn_nil P
    · simpa [KeysIn] using new
  | cons e r ih =>
    obtain ⟨first, rest⟩ := List.forall_mem_cons.mp old
    simp only [sput]
    split <;> split
    · exact old
    · exact List.forall_mem_cons.mpr ⟨new, old⟩
    · split
      · exact rest
      · exact List.forall_mem_cons.mpr ⟨new, rest⟩
    · exact List.forall_mem_cons.mpr ⟨first, ih rest⟩

theorem keysIn_putBits {P : Nat → Prop} {m : Sparse WordPut} {a : Int} (lo w v : Nat) (p : Bool) (old : KeysIn P m)
    (new : P (a.toNat / 4)) : KeysIn P (putBits m a lo w v p) := keysIn_sput _ old new

theorem keysIn_putElem {P : Nat → Prop} {d : Desc} {m : Sparse WordPut} {x : List Nat} (bits : Nat) (p : Bool) (old : KeysIn P m)
    (new : ∀ e ∈ elemPieces d x, P (e.1.toNat / 4)) : KeysIn P (putElem d m x bits p) :=
  List.foldlRecOn _ _ old fun _ kept e he => keysIn_putBits _ _ _ p kept (new e he)

theorem length_tupleOf (size : List Nat) (k : Nat) : (tupleOf size k).length = size.length := by
  induction size generalizing k with
  | nil => rfl
  | cons n r ih => simp [tupleOf, ih]

/-- A scatter writes only words that hold a piece of an element within BOUND. -/
theorem keysIn_scatter {P : Nat → Prop} {d : Desc} (vals : List (Nat × Bool))
    (pieces : ∀ x, x.length = d.size.length → inBound d x = true → ∀ e ∈ elemPieces d x, P (e.1.toNat / 4)) :
    KeysIn P (scatter d vals) := by
  refine List.foldlRecOn _ _ (keysIn_nil P) fun m kept e he => ?_
  split
  next within =>
    obtain ⟨k, -, tuple⟩ := List.mem_map.mp (List.of_mem_zip he).1
    exact keysIn_putElem _ _ kept (pieces e.1 (tuple ▸ length_tupleOf d.size k) within)
  next => exact kept

/-! ### Carrying out writes of scratch -/

/-- State `t` is state `s` but for the counter of free values and, on core `n`, the scratch bytes of the words of `W` and the poison of
scratch. -/
structure ScratchFrame (n : Nat) (W : Nat → Prop) (s t : State) : Prop where
  others : ∀ m, m ≠ n → getCore t m = getCore s m
  rest : { t with cores := s.cores, freeNext := s.freeNext } = s
  core : { getCore t n with scratch := (getCore s n).scratch, scratchPoison := (getCore s n).scratchPoison } = getCore s n
  bytes : ∀ o, ¬ W (o / 4) → rdByte (getCore t n).scratch o = rdByte (getCore s n).scratch o

theorem ScratchFrame.refl (n : Nat) (W : Nat → Prop) (s : State) : ScratchFrame n W s s :=
  ⟨fun _ _ => rfl, rfl, rfl, fun _ _ => rfl⟩

theorem ScratchFrame.trans {n : Nat} {W : Nat → Prop} {s t u : State} (first : ScratchFrame n W s t) (second : ScratchFrame n W t u) :
    ScratchFrame n W s u where
  others m apart := (second.others m apart).trans (first.others m apart)
  rest := by
    conv_rhs => rw [← first.rest, ← second.rest]
  core := by
    conv_rhs => rw [← first.core, ← second.core]
  bytes o outside := (second.bytes o outside).trans (first.bytes o outside)

theorem ScratchFrame.run_eq {n : Nat} {W : Nat → Prop} {s t : State} (frame : ScratchFrame n W s t) :
    (getCore t n).run = (getCore s n).run := by rw [← frame.core]

/-- A word that is written takes at most one free value. -/
theorem putWord_state (s : State) (old : Nat) (oldBad : Bool) (p : WordPut) :
    ∃ k, (putWord s old oldBad p).1 = { s with freeNext := k } := by
  simp only [putWord]
  split
  · exact ⟨_, rfl⟩
  · exact ⟨s.freeNext, rfl⟩

theorem scratchFrame_putScratch {n key : Nat} {W : Nat → Prop} {s : State} (p : WordPut) (runs : (getCore s n).run = .running)
    (inside : W key) : ScratchFrame n W s (putScratch s n key p) := by
  obtain ⟨k, taken⟩ := putWord_state s (leNat (rdBytes (getCore s n).scratch (4 * key) 4))
    (sget false (getCore s n).scratchPoison key) p
  simp only [putScratch, modCore, taken]
  have back : getCore { s with freeNext := k } n = getCore s n := rfl
  rw [back]
  refine ⟨fun m apart => getCore_setCore_other _ n m _ apart, rfl, ?_, fun o outside => ?_⟩ <;>
    rw [getCore_setCore_running _ n _ (by exact runs)]
  refine rdByte_wrBytes_other _ _ _ _ ?_
  rw [length_leBytes]
  have apart : o / 4 ≠ key := fun same => outside (same ▸ inside)
  omega

/-- Writes whose words all lie in scratch change their words of scratch alone. -/
theorem scratchFrame_commitWords {n : Nat} {W : Nat → Prop} {s : State} {m : Sparse WordPut} (runs : (getCore s n).run = .running)
    (inside : KeysIn (fun k => localBit / 4 ≤ k ∧ W (k - localBit / 4)) m) : ScratchFrame n W s (commitWords s n m) := by
  refine List.foldlRecOn m _ (motive := ScratchFrame n W s) (ScratchFrame.refl n W s) fun t frame e he => ?_
  obtain ⟨high, word⟩ := inside e he
  rw [if_pos high]
  exact frame.trans (scratchFrame_putScratch e.2 (frame.run_eq.trans runs) word)

/-! ### A destination whose extents pass the checks -/

/-- An extent in scratch that order 4 of Table 6.4 lets pass lies in the local window. -/
theorem localBit_le_of_rangeFault_none {s : State} {table : Nat} {ds : List Desc} {d : Desc} (here : d ∈ ds)
    (isLocal : descLocal d = true) (passes : rangeFault s table ds = none) {e : Nat × Int × Int} (he : e ∈ extents d) :
    (localBit : Int) ≤ e.2.1 := by
  have accepted : extentFault (descLocal d) e = none := by
    simp only [rangeFault] at passes
    split at passes
    · cases passes
    next none_found =>
      have clean := List.findSome?_eq_none_iff.mp none_found (descLocal d, e)
        (List.mem_flatMap.mpr ⟨d, here, List.mem_map.mpr ⟨e, he, rfl⟩⟩)
      simpa using clean
  rw [isLocal] at accepted
  simp only [extentFault, if_true] at accepted
  split at accepted
  next inside => simpa using (Bool.and_eq_true_iff.mp inside).1
  next => cases accepted

/-- Settles O15: every bit that the scatter writes lies in an extent (`elemPieces_mem_extents`), every extent in the local window, and
writes of scratch words change those words alone (`scratchFrame_commitWords`). -/
theorem scratchWritesStayInExtents : Obligations.ScratchWritesStayInExtents := by
  unfold Obligations.ScratchWritesStayInExtents
  intro s n b off ds table vals runs here isLocal passes c t
  have frame : ScratchFrame n (fun w => ∃ e ∈ extents c, ∃ a : Int, e.2.1 ≤ a ∧ a ≤ e.2.2 ∧ (a.toNat - localBit) / 4 = w) s t := by
    refine scratchFrame_commitWords runs (keysIn_scatter vals fun x length within p hp => ?_)
    obtain ⟨e, he, low, high⟩ := elemPieces_mem_extents within length p hp
    have window := localBit_le_of_rangeFault_none here isLocal passes he
    simp only [localBit] at window ⊢
    exact ⟨by omega, e, he, p.1, low, high, by omega⟩
  exact ⟨frame.others, frame.rest, frame.core, fun o apart =>
    frame.bytes o fun ⟨e, he, a, low, high, same⟩ => apart e he a low high same⟩

end Sys2Proof.Machine
end

section
/-! PROOF. Issuing a play (R118, R144, R146 to R151, R386): every play goes through one gate, so that what the gate does before the body
holds of every play; and what a core fault leaves. -/

namespace Sys2Proof.Machine

/-! ### Every play goes through the gate -/

/-- The case split is the list of plays: each is one `issueWith`, and only LOOP has a skip of its own. -/
theorem exec_of_play {i : Instr} {h : PlayHdr} (play : playHdr i = some h) : ∃ skipped body,
    (∀ s, exec i s = issueWith s h skipped body) ∧ ((∀ c b, i ≠ .loop h c b) → skipped = fun s _ => .done s) := by
  cases i
  case loop =>
    obtain rfl := Option.some.inj play
    exact ⟨_, _, fun s => by rw [exec, execLoop], fun other => absurd rfl (other _ _)⟩
  all_goals cases play
  all_goals exact ⟨_, _, fun _ => rfl, fun _ => rfl⟩

section
variable {s : State} {h : PlayHdr} {skipped body : State → Nat → PlayEnd}

theorem coreIssues_eq_false {n : Nat}
    (stopped : (getCore s n).run ≠ .running ∨ (getCore s n).wait ≠ .none ∨ clusterOn s (n / 64) = false) : coreIssues s n = false := by
  rcases stopped with halted | waits | off
  · simp [coreIssues, halted]
  · simp [coreIssues, waits]
  · simp [coreIssues, off]

/-- A descriptor word that fails its parity is logged, and the play faults as on a poisoned address. -/
theorem issueWith_desc_parity {r : Fin 64} (issues : coreIssues s h.core.idx = true) (fails : h.parity = some (.desc r))
    (always : h.pen = false) : issueWith s h skipped body =
      .next (coreFault (failWord s h.core.idx (.desc r)) h.core.idx evIntPoisonAddress 0 0) := by
  simp [issueWith, readWords, finishPlay, issues, fails, always, predRuns]

/-- A scratch word that fails its parity is found so before the body runs. -/
theorem issueWith_scratch_parity {k : Fin 49152} (issues : coreIssues s h.core.idx = true) (fails : h.parity = some (.scratch k))
    (always : h.pen = false) : issueWith s h skipped body =
      .next (finishPlay h.core.idx (body (failWord s h.core.idx (.scratch k)) h.core.idx)) := by
  simp [issueWith, readWords, issues, fails, always, predRuns]

end

/-- Settles O7. -/
theorem predicateFalseSkipsPlay : Obligations.PredicateFalseSkipsPlay := by
  unfold Obligations.PredicateFalseSkipsPlay
  intro i h s play other issues sound pen clean stops
  obtain ⟨skipped, body, gate, skips⟩ := exec_of_play play
  rw [gate, issueWith_skipped s h skipped body issues sound pen clean stops, skips other, finishPlay, nextPlay_same]

/-- Settles O8. -/
theorem poisonedPredicateFaults : Obligations.PoisonedPredicateFaults := by
  unfold Obligations.PoisonedPredicateFaults
  intro i h s play issues sound pen poisoned
  obtain ⟨skipped, body, gate, -⟩ := exec_of_play play
  rw [gate, issueWith_poisoned s h skipped body issues sound pen poisoned]

/-- Settles O9. -/
theorem stoppedCoreIssuesNothing : Obligations.StoppedCoreIssuesNothing := by
  unfold Obligations.StoppedCoreIssuesNothing
  intro i n s command stopped
  have idle := coreIssues_eq_false stopped
  rcases command with play | rfl
  · obtain ⟨h, header, rfl⟩ := Option.map_eq_some_iff.mp play
    obtain ⟨skipped, body, gate, -⟩ := exec_of_play header
    rw [gate, issueWith_idle s h skipped body idle]
  · simp [exec, execPlayIllegal, idle]

/-! ### Control plays -/

section
variable {s : State} {h : PlayHdr}

/-- A header whose predicate lets the play run, without its predicate. -/
theorem Runs.unpredicated (runs : Runs s h) : Runs s { h with pen := false } := ⟨runs.1, runs.2.1, nofun⟩

theorem exec_nop_of_runs (runs : Runs s h) :
    exec (.nop h) s = .next (coreAt s h.core.idx (getCore s h.core.idx) ((getCore s h.core.idx).pc + 1)) :=
  issue_runs s h _ runs

theorem exec_halt_of_runs (runs : Runs s h) :
    exec (.halt h) s = .next (setCore s h.core.idx { getCore s h.core.idx with run := .halted }) :=
  issue_runs s h _ runs

theorem exec_loop_of_runs (count : BitVec 20) (body : BitVec 11) (runs : Runs s h) :
    exec (.loop h count body) s = .next (setCore s h.core.idx
      { getCore s h.core.idx with
        pc := (getCore s h.core.idx).pc + 1,
        loops := { first := (getCore s h.core.idx).pc + 1, body := body.toNat, count := count.toNat, iter := 0 }
          :: (getCore s h.core.idx).loops }) := by
  rw [exec, execLoop, issueWith_runs s h _ _ runs, finishPlay, modCore]

theorem exec_skip_of_runs (n : BitVec 11) (runs : Runs s h) :
    exec (.skip h n) s = .next (coreAt s h.core.idx (getCore s h.core.idx) ((getCore s h.core.idx).pc + 1 + n.toNat)) :=
  issue_runs s h _ runs

end

/-- Settles O10. -/
theorem controlPlays : Obligations.ControlPlays := by
  unfold Obligations.ControlPlays
  refine ⟨fun s h => exec_nop_of_runs, fun s h => exec_halt_of_runs, ?loop, fun s h n => exec_skip_of_runs n, ?loopSkipped, ?skipSkipped⟩
  case loop =>
    intro s h count body runs
    exact ⟨(exec_loop_of_runs count body runs).trans (exec_loop_of_runs count body runs.unpredicated).symm,
      exec_loop_of_runs count body runs⟩
  case loopSkipped =>
    intro s h count body issues sound pen clean stops
    rw [exec, execLoop, issueWith_skipped s h _ _ issues sound pen clean stops]
    rfl
  case skipSkipped =>
    exact fun s h n => predicateFalseSkipsPlay (.skip h n) h s rfl nofun

/-! ### Core faults -/

section
variable {s : State} {n : Nat}

theorem exec_fault_of_runs {h : PlayHdr} (k : BitVec 16) (runs : Runs s h) :
    exec (.fault h k) s = .next (coreFault s h.core.idx evTnsSoftware k.toNat 0) :=
  issue_runs s h _ runs

theorem exec_playIllegal_of_none {n : CoreId} (issues : coreIssues s n.idx = true) (none_fetched : fetchPlay s n = none) :
    exec (.playIllegal n) s = .next (coreFault s n.idx evTnsPlayIllegal 0 0) := by
  simp [exec, execPlayIllegal, issues, none_fetched]

/-- The clusters' units log on the compute die. -/
theorem dieOf_uCluster {n : Nat} (small : n < 4096) : dieOf (uCluster (n / 64)) = 0 := if_neg (by simp only [uCluster]; omega)

end

/-- Logging leaves the cores and the power of their quadrants alone. -/
theorem coreIssues_logEvent (s : State) (e : Ev) (u : Nat) (t : Option Nat) (d : Detail) (n : Nat) :
    coreIssues (logEvent s e u t d) n = coreIssues s n := by
  obtain ⟨out, shape⟩ := logAtDie_shape s e u (dieOf u) t d
  rw [logEvent, shape]
  rfl

/-- A write of scratch on a running core leaves it issuing. -/
theorem coreIssues_putScratch {s : State} {n : Nat} (key : Nat) (p : WordPut) (issues : coreIssues s n = true) :
    coreIssues (putScratch s n key p) n = true := by
  simp only [coreIssues, Bool.and_eq_true, decide_eq_true_eq] at issues ⊢
  obtain ⟨⟨runs, ready⟩, on⟩ := issues
  have frame := scratchFrame_putScratch (W := fun _ => True) p runs (key := key) trivial
  refine ⟨⟨frame.run_eq.trans runs, ?_⟩, ?_⟩
  · rw [← ready, ← frame.core]
  · have power : (putScratch s n key p).power = s.power := by conv_rhs => rw [← frame.rest]
    rwa [clusterOn, quadrantOn, getDomain, power]

/-- A core that has faulted with a code, a software number and an address (Table 4.17). -/
def faultedCore (c : Core) (code : W32) (number : Nat) (address : W64) : Core :=
  { c with run := .faulted, wait := .none,
           fault := some { code := code, play := c.pc, number := number, iteration := coreIteration c, address := address } }

theorem stopCore_eq (s : State) (n : Nat) (e : Ev) (k : Nat) (a : W64) : stopCore s n e k a =
    logEvent (modCore (dropCoreWait s n) n fun c => faultedCore c (e.word (uCluster (n / 64))) k a) e (uCluster (n / 64))
      (tableOfCore s n) (coreDetail s n k a) := rfl

/-- The detail that a core fault of Table 4.17 reports where no deck runs, so that no table holds the core. -/
theorem stopCore_of_no_deck {s : State} {n : Nat} (e : Ev) (k : Nat) (a : W64) (noDeck : deckOf s = none) (small : n < 4096) :
    ∃ out, stopCore s n e k a = { setCore s n (faultedCore (getCore s n) (e.word (uCluster (n / 64))) k a) with
      seqs := sput 0 s.seqs 0 (sget 0 s.seqs 0 + 1),
      logs := sput emptyLog s.logs e.sev (addRecord (sget emptyLog s.logs e.sev)
        { code := e.word (uCluster (n / 64)), seq := sget 0 s.seqs 0 + 1, die := 0, epoch := (getTrick s 0).epoch,
          detail := .core (n / 64) (n % 64) (physicalOf s n) 0 (getCore s n).pc k (coreIteration (getCore s n)) a }),
      regWait := s.regWait.filter (fun w => !isCoreWait n w.2.2),
      host := { s.host with out := out } } := by
  have logged : stopCore s n e k a = logAtDie
      (modCore (dropCoreWait s n) n fun c => faultedCore c (e.word (uCluster (n / 64))) k a) e (uCluster (n / 64)) 0 none
      (.core (n / 64) (n % 64) (physicalOf s n) 0 (getCore s n).pc k (coreIteration (getCore s n)) a) := by
    rw [stopCore_eq, logEvent, dieOf_uCluster small, coreDetail, tableOfCore_of_no_deck s n noDeck]
    rfl
  obtain ⟨out, shape⟩ := logAtDie_shape
    (modCore (dropCoreWait s n) n fun c => faultedCore c (e.word (uCluster (n / 64))) k a) e (uCluster (n / 64)) 0 none
    (.core (n / 64) (n % 64) (physicalOf s n) 0 (getCore s n).pc k (coreIteration (getCore s n)) a)
  exact ⟨out, logged.trans shape⟩

/-- Settles O13. -/
theorem coreFaults : Obligations.CoreFaults := by
  unfold Obligations.CoreFaults
  refine ⟨fun s h => exec_fault_of_runs, fun s n => exec_playIllegal_of_none, ?program, ?desc, ?scratch, ?fault⟩
  case program =>
    intro i h s play issues fails
    obtain ⟨skipped, body, gate, -⟩ := exec_of_play play
    rw [gate, issueWith_unreadable s h skipped body issues fails]
  case desc =>
    intro i h r s play issues fails always
    obtain ⟨skipped, body, gate, -⟩ := exec_of_play play
    rw [gate, issueWith_desc_parity issues fails always]
  case scratch =>
    intro s h f k issues always fails
    have goesOn : Runs (failWord s h.core.idx (.scratch k)) { h with parity := none } :=
      ⟨(coreIssues_logEvent _ _ _ _ _ _).trans (coreIssues_putScratch _ _ issues), rfl, fun pen => by simp [always] at pen⟩
    rw [exec, exec, execMlds, execMlds, issue_runs _ { h with parity := none } _ goesOn, issue,
      issueWith_scratch_parity issues fails always]
  case fault =>
    intro s n e k a noDeck small c t iter
    obtain ⟨out, shape⟩ := stopCore_of_no_deck e k a noDeck small
    have ended : t = stopCore s n e k a := requestAbort_of_no_deck _ _ (by rw [shape]; exact noDeck)
    rw [ended, shape]
    exact ⟨getCore_setCore_of_ne s n _ nofun, fun m apart => getCore_setCore_other s n m _ apart, rfl, rfl, rfl, rfl, rfl⟩

end Sys2Proof.Machine
end

section
/-! PROOF. Scalar and predicate plays (R107, R122, Tables 4.1 and 4.8): what a write of one register or one flag leaves, and the value
that each play writes. -/

namespace Sys2Proof.Machine

/-- A core moves on after a change of its own that leaves it running. -/
theorem nextPlay_modCore {s : State} {n : Nat} (g : Core → Core) (running : (g (getCore s n)).run = .running) :
    nextPlay (modCore s n g) n = coreAt s n (g (getCore s n)) ((g (getCore s n)).pc + 1) :=
  nextPlay_setCore s n _ running

/-! ### One register, one flag -/

section
variable {s : State} {n : Nat}

@[simp] theorem withReg_run (c : Core) (r : Nat) (v : W64) (p : BitVec 2) : (withReg c r v p).run = c.run := by
  unfold withReg; split <;> rfl

@[simp] theorem withReg_pc (c : Core) (r : Nat) (v : W64) (p : BitVec 2) : (withReg c r v p).pc = c.pc := by
  unfold withReg; split <;> rfl

theorem setSreg_clean {r : Nat} (v : W64) (written : r ≠ 0) : setSreg s n r v 0 = setCore s n (withReg (getCore s n) r v 0) := by
  simp [setSreg, freeHalves, withReg, modCore, written]

/-- A value whose halves are both poisoned is one whole free value. -/
theorem freeHalves_both (s : State) (v : W64) :
    freeHalves s v 3 = (Config.freeValue s.freeNext, { s with freeNext := s.freeNext + 1 }) := by
  have low : maskBit (3 : BitVec 2).toNat 0 = 1 := rfl
  have high : maskBit (3 : BitVec 2).toNat 1 = 1 := rfl
  have whole : (Config.freeValue s.freeNext).toNat / 2 ^ 32 * 2 ^ 32 + (Config.freeValue s.freeNext).toNat % 2 ^ 32 =
      (Config.freeValue s.freeNext).toNat := Nat.div_add_mod' _ _
  rw [freeHalves, if_neg (by decide), low, high]
  simp only [takeFree, if_true, whole, BitVec.ofNat_toNat, BitVec.setWidth_eq]

theorem setSreg_poisoned {r : Nat} (v : W64) (written : r ≠ 0) : setSreg s n r v 3 =
    setCore { s with freeNext := s.freeNext + 1 } n (withReg (getCore s n) r (Config.freeValue s.freeNext) 3) := by
  simp only [setSreg, if_neg written, freeHalves_both, withReg]
  rfl

/-- A core that writes a register with no poison goes on with it; register 0 discards the write. -/
theorem nextPlay_setSreg_clean (running : (getCore s n).run = .running) (r : Nat) (v : W64) :
    nextPlay (setSreg s n r v 0) n = coreAt s n (withReg (getCore s n) r v 0) ((getCore s n).pc + 1) := by
  by_cases zero : r = 0
  · rw [setSreg, if_pos zero, nextPlay_same, withReg, if_pos zero]
  · rw [setSreg_clean v zero, nextPlay_setCore _ _ _ (by simpa using running), withReg_pc]

theorem nextPlay_setSreg_poisoned (running : (getCore s n).run = .running) {r : Nat} (v : W64) (written : r ≠ 0) :
    nextPlay (setSreg s n r v 3) n = coreAt { s with freeNext := s.freeNext + 1 } n
      (withReg (getCore s n) r (Config.freeValue s.freeNext) 3) ((getCore s n).pc + 1) := by
  rw [setSreg_poisoned v written, nextPlay_setCore _ _ _ (by simpa using running), withReg_pc]

theorem nextPlay_setPred_clean (running : (getCore s n).run = .running) (r : Nat) (b : Bool) :
    nextPlay (setPred s n r b false) n = coreAt s n (withPred (getCore s n) r b false) ((getCore s n).pc + 1) :=
  nextPlay_setCore s n (withPred (getCore s n) r b false) running

theorem nextPlay_setPred_poisoned (running : (getCore s n).run = .running) (r : Nat) (b : Bool) :
    nextPlay (setPred s n r b true) n = coreAt { s with freeNext := s.freeNext + 1 } n
      (withPred (getCore s n) r (bitOf (Config.freeValue s.freeNext).toNat 0) true) ((getCore s n).pc + 1) :=
  nextPlay_setCore { s with freeNext := s.freeNext + 1 } n
    (withPred (getCore s n) r (bitOf (Config.freeValue s.freeNext).toNat 0) true) running

end

/-! ### Scalar plays -/

section
variable {s : State} {h : PlayHdr} {f : FmtC}

@[simp] theorem spread_false : spread false = 0 := rfl
@[simp] theorem spread_true : spread true = 3 := rfl

theorem exec_seti_of_runs (runs : Runs s h) : exec (.seti h f) s = .next (coreAt s h.core.idx
    (withReg (getCore s h.core.idx) f.sd.val (f.imm.zeroExtend 64) 0) ((getCore s h.core.idx).pc + 1)) := by
  rw [exec, execSeti, issue_runs s h _ runs, finishPlay, nextPlay_setSreg_clean runs.run]

theorem exec_saddi_of_clean (runs : Runs s h) (clean : sregBad (getCore s h.core.idx) f.sx.val = false) :
    exec (.saddi h f) s = .next (coreAt s h.core.idx
      (withReg (getCore s h.core.idx) f.sd.val (sreg (getCore s h.core.idx) f.sx.val + f.imm.signExtend 64) 0)
      ((getCore s h.core.idx).pc + 1)) := by
  rw [exec, execSaddi, issue_runs s h _ runs]
  simp only [clean, spread_false, finishPlay]
  rw [nextPlay_setSreg_clean runs.run]

theorem exec_saddi_of_poisoned (runs : Runs s h) (poisoned : sregBad (getCore s h.core.idx) f.sx.val = true) (written : f.sd.val ≠ 0) :
    exec (.saddi h f) s = .next (coreAt { s with freeNext := s.freeNext + 1 } h.core.idx
      (withReg (getCore s h.core.idx) f.sd.val (Config.freeValue s.freeNext) 3) ((getCore s h.core.idx).pc + 1)) := by
  rw [exec, execSaddi, issue_runs s h _ runs]
  simp only [poisoned, spread_true, finishPlay]
  rw [nextPlay_setSreg_poisoned runs.run _ written]

theorem exec_salu_of_clean {v : W64} (runs : Runs s h) (cleanX : sregBad (getCore s h.core.idx) f.sx.val = false)
    (cleanY : sregBad (getCore s h.core.idx) f.sy.val = false)
    (value : salu f.fn.toNat (sreg (getCore s h.core.idx) f.sx.val) (sreg (getCore s h.core.idx) f.sy.val) = some v) :
    exec (.salu h f) s = .next (coreAt s h.core.idx
      (withReg (getCore s h.core.idx) f.sd.val v 0) ((getCore s h.core.idx).pc + 1)) := by
  rw [exec, execSalu, issue_runs s h _ runs]
  simp only [value, cleanX, cleanY, spread_false, finishPlay, Bool.or_false]
  rw [nextPlay_setSreg_clean runs.run]

/-- LIDX out of a loop level that the core has. -/
theorem exec_lidx_of_level {l : LoopLevel} (runs : Runs s h) (level : (getCore s h.core.idx).loops[f.fn.toNat % 4]? = some l) :
    exec (.lidx h f) s = .next (coreAt s h.core.idx
      (withReg (getCore s h.core.idx) f.sd.val (BitVec.ofNat 64 l.iter) 0) ((getCore s h.core.idx).pc + 1)) := by
  rw [exec, execLidx, issue_runs s h _ runs]
  simp only [level, finishPlay]
  rw [nextPlay_setSreg_clean runs.run]

theorem exec_lidx_of_no_level (runs : Runs s h) (outside : (getCore s h.core.idx).loops[f.fn.toNat % 4]? = none) :
    exec (.lidx h f) s = .next (coreAt s h.core.idx
      (withReg (getCore s h.core.idx) f.sd.val (BitVec.allOnes 64) 0) ((getCore s h.core.idx).pc + 1)) := by
  rw [exec, execLidx, issue_runs s h _ runs]
  simp only [outside, finishPlay]
  rw [nextPlay_setSreg_clean runs.run]
  rfl

end

theorem ofNat_min_toNat (x y : W64) : BitVec.ofNat 64 (min x.toNat y.toNat) = if x.toNat ≤ y.toNat then x else y := by
  split
  next le => rw [min_eq_left le, BitVec.ofNat_toNat, BitVec.setWidth_eq]
  next gt => rw [min_eq_right (by omega), BitVec.ofNat_toNat, BitVec.setWidth_eq]

theorem ofNat_max_toNat (x y : W64) : BitVec.ofNat 64 (max x.toNat y.toNat) = if x.toNat ≤ y.toNat then y else x := by
  split
  next le => rw [max_eq_right le, BitVec.ofNat_toNat, BitVec.setWidth_eq]
  next gt => rw [max_eq_left (by omega), BitVec.ofNat_toNat, BitVec.setWidth_eq]

/-- Settles O11. -/
theorem scalarPlays : Obligations.ScalarPlays := by
  unfold Obligations.ScalarPlays
  refine ⟨fun s h f => exec_seti_of_runs, fun s h f => exec_saddi_of_clean, fun s h f => exec_saddi_of_poisoned, ?salu, ?lidx⟩
  case salu =>
    rintro s h f x y runs rfl rfl cleanX cleanY v value
    refine exec_salu_of_clean runs cleanX cleanY ?_
    rcases value with ⟨fn, rfl⟩ | ⟨fn, rfl⟩ | ⟨fn, rfl⟩ | ⟨fn, rfl⟩ | ⟨fn, rfl⟩ | ⟨fn, rfl⟩ | ⟨fn, rfl⟩ | ⟨fn, rfl⟩ | ⟨fn, rfl⟩ |
      ⟨fn, rfl⟩ <;> rw [fn]
    case inr.inr.inr.inr.inr.inr.inr.inr.inl => exact congrArg some (ofNat_min_toNat _ _).symm
    case inr.inr.inr.inr.inr.inr.inr.inr.inr => exact congrArg some (ofNat_max_toNat _ _).symm
    all_goals rfl
  case lidx =>
    intro s h f runs v value
    split at value
    next l level =>
      subst value
      exact exec_lidx_of_level runs level
    next outside =>
      subst value
      exact exec_lidx_of_no_level runs outside

/-! ### Predicate plays -/

section
variable {s : State} {h : PlayHdr} {f : FmtC} {b : Bool}

theorem bitOf_eq_testBit (v i : Nat) : bitOf v i = v.testBit i := by
  rw [bitOf, Nat.testBit_eq_decide_div_mod_eq]

theorem sregPoison_of_clean {c : Core} {r : Nat} (clean : sregBad c r = false) : sregPoison c r = 0 := by
  simpa [sregBad] using clean

theorem exec_scmp_of_clean {y : W64} (runs : Runs s h) (cleanX : sregBad (getCore s h.core.idx) f.sx.val = false)
    (second : if bitOf f.fn.toNat 3 then y = f.imm.zeroExtend 64
      else y = sreg (getCore s h.core.idx) f.sy.val ∧ sregBad (getCore s h.core.idx) f.sy.val = false)
    (value : scmp (f.fn.toNat % 8) (sreg (getCore s h.core.idx) f.sx.val) y = some b) :
    exec (.scmp h f) s = .next (coreAt s h.core.idx
      (withPred (getCore s h.core.idx) f.pd.val b false) ((getCore s h.core.idx).pc + 1)) := by
  rw [exec, execScmp, issue_runs s h _ runs]
  cases immediate : bitOf f.fn.toNat 3
  · obtain ⟨rfl, cleanY⟩ : y = sreg (getCore s h.core.idx) f.sy.val ∧ sregBad (getCore s h.core.idx) f.sy.val = false := by
      simpa [immediate] using second
    simp only [Bool.false_eq_true, if_false, value, finishPlay, cleanX, cleanY, Bool.and_false, Bool.or_false]
    rw [nextPlay_setPred_clean runs.run]
  · obtain rfl : y = f.imm.zeroExtend 64 := by simpa [immediate] using second
    simp only [if_true, value, finishPlay, cleanX, Bool.not_true, Bool.false_and, Bool.or_false]
    rw [nextPlay_setPred_clean runs.run]

theorem exec_plog_of_value {bad : Bool} (runs : Runs s h)
    (value : plog f.fn.toNat (predOf (getCore s h.core.idx) (f.sx.val % 8)) (predOf (getCore s h.core.idx) (f.sy.val % 8)) = some b)
    (poison : (decide (f.fn.toNat < 4) &&
      (predBad (getCore s h.core.idx) (f.sx.val % 8) || predBad (getCore s h.core.idx) (f.sy.val % 8))) = bad) :
    exec (.plog h f) s = .next (nextPlay (setPred s h.core.idx f.pd.val b bad) h.core.idx) := by
  rw [exec, execPlog, issue_runs s h _ runs]
  simp only [value, poison, finishPlay]

theorem plog_isSome {fn : Nat} (two : fn < 4) (x y : Bool) : ∃ b, plog fn x y = some b := by
  interval_cases fn
  all_goals exact ⟨_, rfl⟩

theorem exec_pbit_of_clean (runs : Runs s h) (clean : sregBad (getCore s h.core.idx) f.sx.val = false) :
    exec (.pbit h f) s = .next (coreAt s h.core.idx
      (withPred (getCore s h.core.idx) f.pd.val ((sreg (getCore s h.core.idx) f.sx.val).getLsbD (f.imm.toNat % 64)) false)
      ((getCore s h.core.idx).pc + 1)) := by
  rw [exec, execPbit, issue_runs s h _ runs]
  simp only [finishPlay, sregPoison_of_clean clean, bitOf_eq_testBit, BitVec.ofNat_eq_ofNat, BitVec.toNat_ofNat, Nat.zero_mod,
    Nat.zero_testBit]
  rw [nextPlay_setPred_clean runs.run, BitVec.getLsbD]

end

/-- Settles O12. -/
theorem predicatePlays : Obligations.PredicatePlays := by
  unfold Obligations.PredicatePlays
  refine ⟨?scmp, ?plog, fun s h f => exec_pbit_of_clean, ?poisoned⟩
  case scmp =>
    rintro s h f x y runs rfl cleanX second b value
    refine exec_scmp_of_clean runs cleanX second ?_
    rcases value with ⟨fn, rfl⟩ | ⟨fn, rfl⟩ | ⟨fn, rfl⟩ | ⟨fn, rfl⟩ | ⟨fn, rfl⟩ | ⟨fn, rfl⟩ <;> rw [fn] <;> rfl
  case plog =>
    rintro s h f x y runs rfl rfl clean b value
    rw [exec_plog_of_value (b := b) (bad := false) runs ?value ?poison, nextPlay_setPred_clean runs.run]
    case value =>
      rcases value with ⟨fn, rfl⟩ | ⟨fn, rfl⟩ | ⟨fn, rfl⟩ | ⟨fn, rfl⟩ | ⟨fn, rfl⟩ | ⟨fn, rfl⟩ <;> rw [fn] <;> rfl
    case poison =>
      by_cases two : f.fn.toNat < 4
      · simp [clean two]
      · simp [two]
  case poisoned =>
    intro s h f runs two poisoned
    obtain ⟨b, value⟩ := plog_isSome two (predOf (getCore s h.core.idx) (f.sx.val % 8)) (predOf (getCore s h.core.idx) (f.sy.val % 8))
    rw [exec_plog_of_value (bad := true) runs value (by simpa [two] using poisoned), nextPlay_setPred_poisoned runs.run]

end Sys2Proof.Machine
end

section
/-! PROOF. Tensor plays on operands that pass their checks (R123 to R126, R166 to R168, Tables 4.9 and 4.10). -/

namespace Sys2Proof.Machine

/-- Elements beside what a function makes of them. -/
theorem zip_map_of_self {α β : Type} (l : List α) (g : α → β) : l.zip (l.map g) = l.map fun x => (x, g x) := by
  simpa using List.zip_map' (f := id) (g := g) (l := l)

section
variable {s : State} {h : PlayHdr} {f : FmtT}

theorem exec_tzero_of_runs (runs : Runs s h) :
    exec (.tzero h f) s = .next (coreAt s h.core.idx
      { getCore s h.core.idx with
        tiles := sput Tile.zero (getCore s h.core.idx).tiles f.acc.val (clearTile (bitOf f.mode.toNat 0)) }
      ((getCore s h.core.idx).pc + 1)) := by
  rw [exec, execTzero, issue_runs s h _ runs]
  exact congrArg Host.Outcome.next (nextPlay_modCore _ runs.run)

/-! ### TMMA -/

section
variable {a b : Desc} (runs : Runs s h)
  (operands : takeOperands (getCore s h.core.idx) [(f.da.val, f.sa.val), (f.db.val, f.sb.val)] = .ok [a, b])
  (rankA : a.rank = 2) (rankB : b.rank = 2) (localA : descLocal a = true) (localB : descLocal b = true)
  (inner : dimN b.size 0 = dimN a.size 0) (rowsA : dimN a.size 1 ≤ 64) (rowsB : dimN b.size 1 ≤ 64) (depth : dimN a.size 0 ≤ 65536)
include runs operands rankA rankB localA localB inner rowsA rowsB depth

theorem exec_tmma_of_no_pair (noPair : pairKind (descElem a) (descElem b) = none) :
    exec (.tmma h f) s = .next (coreFault s h.core.idx evTnsTypePair 0 0) := by
  rw [exec, execTmma, issue_runs s h _ runs]
  simp [operands, rankA, rankB, localA, localB, inner, rowsA, rowsB, depth, noPair, bad, finishPlay]

section
variable {len : Nat} {isInt : Bool} (pair : pairKind (descElem a) (descElem b) = some isInt) (block : pairBlock a b = some len)
  (whole : dimN a.size 0 % len = 0)
include pair block whole

theorem exec_tmma_of_other_kind (keeps : bitOf f.mode.toNat 0 = false) (other : (tileOf (getCore s h.core.idx) f.acc.val).isInt ≠ isInt) :
    exec (.tmma h f) s = .next (coreFault s h.core.idx evTnsAccKind 0 0) := by
  rw [exec, execTmma, issue_runs s h _ runs]
  simp [operands, rankA, rankB, localA, localB, inner, rowsA, rowsB, depth, pair, block, whole, keeps, other, bad, finishPlay]

/-- The tile that a TMMA adds to: the tile as it is, of the pair's kind, or a cleared one of that kind. -/
theorem exec_tmma_of_kind {old : Tile} (reaches : Reaches s h.core.idx [a, b])
    (start : if bitOf f.mode.toNat 0 then old = clearTile isInt
      else old = tileOf (getCore s h.core.idx) f.acc.val ∧ old.isInt = isInt) :
    exec (.tmma h f) s = .next (nextPlay (putTile s h.core.idx f.acc.val old (tmmaTile old (readLocal s h.core.idx a)
      (readLocal s h.core.idx b) (dimN a.size 1) (dimN b.size 1) (dimN a.size 0) len)) h.core.idx) := by
  rw [exec, execTmma, issue_runs s h _ runs]
  cases zero : bitOf f.mode.toNat 0
  · obtain ⟨rfl, kind⟩ : old = tileOf (getCore s h.core.idx) f.acc.val ∧ old.isInt = isInt := by simpa [zero] using start
    simp [operands, rankA, rankB, localA, localB, inner, rowsA, rowsB, depth, pair, block, whole, kind,
      rangeEnd_reaches reaches, finishPlay]
  · obtain rfl : old = clearTile isInt := by simpa [zero] using start
    simp [operands, rankA, rankB, localA, localB, inner, rowsA, rowsB, depth, pair, block, whole,
      rangeEnd_reaches reaches, finishPlay]

end

end

/-! ### TOUT and TLOAD -/

section
variable {d : Desc} (runs : Runs s h) (operands : takeOperands (getCore s h.core.idx) [(f.dc.val, f.sc.val)] = .ok [d])
  (shape : tileShape d = true) (reaches : Reaches s h.core.idx [d])
include runs operands shape reaches

theorem exec_tout_of_kind (writes : writable d = true)
    (ints : (tileOf (getCore s h.core.idx) f.acc.val).isInt = true → descElem d = .int32)
    (floats : (tileOf (getCore s h.core.idx) f.acc.val).isInt = false → descElem d = .fp32 ∨ descElem d = .bf16 ∨ descElem d = .fp16) :
    exec (.tout h f) s = .next (nextPlay (commitWords s h.core.idx (scatter d ((tuples d).map fun x =>
      let w := sget 0 (tileOf (getCore s h.core.idx) f.acc.val).elems (tileKey ((x[1]?).getD 0) ((x[0]?).getD 0))
      (if (tileOf (getCore s h.core.idx) f.acc.val).isInt then w.toNat else (descElem d).encode (f32 w),
        sget false (tileOf (getCore s h.core.idx) f.acc.val).poison (tileKey ((x[1]?).getD 0) ((x[0]?).getD 0)))))) h.core.idx) := by
  rw [exec, execTout, issue_runs s h _ runs]
  cases kind : (tileOf (getCore s h.core.idx) f.acc.val).isInt
  · simp [operands, shape, writes, kind, or_assoc, floats kind, rangeEnd_reaches reaches, finishPlay]
  · simp [operands, shape, writes, kind, ints kind, rangeEnd_reaches reaches, finishPlay]

theorem exec_tload_of_kind (kind : descElem d = (if bitOf f.mode.toNat 0 then .int32 else .fp32)) :
    exec (.tload h f) s = .next (nextPlay (putTile s h.core.idx f.acc.val (clearTile (bitOf f.mode.toNat 0))
      ((tuples d).map fun x =>
        let e := readElem (coreView (getCore s h.core.idx) []) d x
        (tileKey ((x[1]?).getD 0) ((x[0]?).getD 0), BitVec.ofNat 32 e.bits, e.poison))) h.core.idx) := by
  rw [exec, execTload, issue_runs s h _ runs]
  simp [operands, shape, kind, rangeEnd_reaches reaches, finishPlay, readLocal, gather, zip_map_of_self, Function.comp_def]

end

end

/-- Settles O14. -/
theorem tensorPlays : Obligations.TensorPlays := by
  unfold Obligations.TensorPlays
  refine ⟨fun s h f => exec_tzero_of_runs, ?tmma, ?tout, ?tload, ?tmmaFaults⟩
  case tmma =>
    rintro s h f a b m n k len isInt old runs operands rankA rankB localA localB rfl inner rfl rfl rowsA rowsB depth pair block whole
      reaches start
    rw [exec_tmma_of_kind runs operands rankA rankB localA localB inner rowsA rowsB depth pair block whole reaches start]
    have kind : old.isInt = isInt := by
      split at start
      · rw [start]
      · exact start.2
    simp only [tmmaTile, kind]
    rfl
  case tout =>
    exact fun s h f d runs operands shape writes ints floats reaches =>
      exec_tout_of_kind runs operands shape reaches writes ints floats
  case tload =>
    exact fun s h f d runs operands shape kind reaches => exec_tload_of_kind runs operands shape reaches kind
  case tmmaFaults =>
    exact fun s h f a b len isInt runs operands rankA rankB localA localB inner rowsA rowsB depth =>
      ⟨exec_tmma_of_no_pair runs operands rankA rankB localA localB inner rowsA rowsB depth,
        exec_tmma_of_other_kind runs operands rankA rankB localA localB inner rowsA rowsB depth⟩

end Sys2Proof.Machine
end

section
/-! PROOF. Vector plays on operands that pass their checks (R127 to R129, R170 to R180, Table 4.11): one lemma for each shape of play, then
the plays by what they compute. -/

namespace Sys2Proof.Machine

section
variable {s : State} {h : PlayHdr} {f : FmtT}

/-! ### Elementwise plays -/

theorem binaryPlay_effect {i : Instr} {useC : Bool} {val : FV → FV → FV → FV} (runs : Runs s h)
    (play : exec i s = binaryPlay s h f useC val) : BinaryEffect i s h f useC val := by
  intro a b c operands floatA floatB floatC localA localB localC fitsA fitsB writes reaches
  rw [play, binaryPlay, issue_runs s h _ runs]
  simp [operands, floatA, floatB, floatC, localA, localB, fitsA, fitsB, destOk, localC, writes, rangeEnd_reaches reaches, finishPlay,
    gatherOver, List.zip_map', Function.comp_def]

theorem unaryPlay_effect {i : Instr} {test : Desc → Desc → Bool} {types : Desc → Desc → Prop} {val : FV → FV} (runs : Runs s h)
    (play : exec i s = unaryPlay s h f test val) (suits : ∀ a c, types a c → test a c = true) : UnaryEffect i s h f types val := by
  intro a c operands accepted localA localC fitsA writes reaches
  rw [play, unaryPlay, issue_runs s h _ runs]
  simp [operands, suits a c accepted, localA, fitsA, destOk, localC, writes, rangeEnd_reaches reaches, finishPlay, gatherOver,
    Function.comp_def]

/-! ### Reductions -/

theorem reducePlay_effect {i : Instr} {dest : Desc → Bool} {types : Elem → Prop} {width : Nat → Nat}
    {row row' : Elem → List RdElem → List (Nat × Bool)} (runs : Runs s h) (play : exec i s = reducePlay s h f dest width row)
    (suits : ∀ c, types (descElem c) → dest c = true) (same : ∀ t r, row t r = row' t r) : RowEffect i s h f types width row' := by
  obtain rfl : row = row' := funext₂ same
  intro a c operands floatA localA localC writes unscaled accepted count wide reaches
  rw [play, reducePlay, issue_runs s h _ runs]
  simp [operands, floatA, localA, destOk, localC, writes, unscaled, suits c accepted, count, wide, rangeEnd_reaches reaches,
    finishPlay, readLocal]

section
variable {a c : Desc} (runs : Runs s h)
  (operands : takeOperands (getCore s h.core.idx) [(f.da.val, f.sa.val), (f.dc.val, f.sc.val)] = .ok [a, c])
  (floatA : plainFloat a = true) (localA : descLocal a = true) (localC : descLocal c = true) (writes : writable c = true)
  (unscaled : c.block = 0) (ints : descElem c = .int32) (least : 1 ≤ f.imm.toNat) (most : f.imm.toNat ≤ 16)
  (within : f.imm.toNat ≤ dimN a.size 0) (maskFits : bitOf f.mode.toNat 0 = true → dimN a.size 0 ≤ 64)
  (count : elemCount c = elemCount a / dimN a.size 0 * f.imm.toNat) (reaches : Reaches s h.core.idx [a, c])
include runs operands floatA localA localC writes unscaled ints least most within maskFits count reaches

/-- What VTOPK leaves: the indices in C and, with MODE bit 0, the mask of the first row's in a register. -/
theorem exec_vtopk_of_suited {rows : List (List RdElem)} {t : State}
    (read : rows = rowsOf a (gather (coreView (getCore s h.core.idx) []) a))
    (written : t = commitWords s h.core.idx (scatter c (rows.flatMap fun r =>
      (topIndices r f.imm.toNat).map fun i => (i, r.any (·.poison))))) :
    exec (.vtopk h f) s = .next (nextPlay (if bitOf f.mode.toNat 0 then
        setSreg t h.core.idx (fieldOf f.mode.toNat 1 5)
          (BitVec.ofNat 64 ((topIndices ((rows.head?).getD []) f.imm.toNat).map fun i => 2 ^ i).sum)
          (if rowBad ((rows.head?).getD []) then 3 else 0)
      else t) h.core.idx) := by
  have fits : ¬(bitOf f.mode.toNat 0 = true ∧ 64 < dimN a.size 0) := fun ⟨masked, long⟩ => Nat.not_lt.mpr (maskFits masked) long
  rw [exec, execVtopk, issue_runs s h _ runs, written, read]
  simp [operands, floatA, localA, destOk, localC, writes, unscaled, ints, least, most, within, fits, count,
    rangeEnd_reaches reaches, finishPlay, readLocal, rowBad, execVtopk.spread']

end

theorem exec_vfirst_of_suited {a b : Desc} (runs : Runs s h)
    (operands : takeOperands (getCore s h.core.idx) [(f.da.val, f.sa.val), (f.db.val, f.sb.val)] = .ok [a, b])
    (floatA : plainFloat a = true) (floatB : plainFloat b = true) (localA : descLocal a = true) (localB : descLocal b = true)
    (reaches : Reaches s h.core.idx [a, b]) {row : List RdElem} {y : RdElem}
    (readA : row = (gather (coreView (getCore s h.core.idx) []) a).take (dimN a.size 0))
    (readB : y = elemAt (gather (coreView (getCore s h.core.idx) []) b) 0) :
    exec (.vfirst h f) s = .next (nextPlay (setSreg s h.core.idx (fieldOf f.mode.toNat 0 5)
      (BitVec.ofNat 64 (row.findIdx fun x => y.val.leNum x.val)) (if row.any (·.poison) || y.poison then 3 else 0)) h.core.idx) := by
  rw [exec, execVfirst, issue_runs s h _ runs, readA, readB]
  simp [operands, floatA, floatB, localA, localB, rangeEnd_reaches reaches, finishPlay, readLocal, rowBad]

theorem exec_vrand_of_suited {c : Desc} (runs : Runs s h)
    (operands : takeOperands (getCore s h.core.idx) [(f.dc.val, f.sc.val)] = .ok [c]) (localC : descLocal c = true)
    (writes : writable c = true) (unscaled : c.block = 0) (kind : descElem c = .int32 ∨ descElem c = .fp32)
    (reaches : Reaches s h.core.idx [c]) :
    exec (.vrand h f) s = .next (nextPlay (commitWords s h.core.idx (scatter c ((List.range (elemCount c)).map fun i =>
      let z := randWord (sreg (getCore s h.core.idx) f.sa.val) (sreg (getCore s h.core.idx) f.sb.val) i
      (if descElem c = .int32 then (z >>> 32).toNat else (toF32 (.num false (z >>> 40).toNat (-24))).toNat,
        sregBad (getCore s h.core.idx) f.sa.val || sregBad (getCore s h.core.idx) f.sb.val)))) h.core.idx) := by
  have known : ¬(descElem c ≠ .int32 ∧ descElem c ≠ .fp32) := fun ⟨noInt, noFloat⟩ => kind.elim noInt noFloat
  rw [exec, execVrand, issue_runs s h _ runs]
  simp [operands, destOk, localC, writes, unscaled, known, rangeEnd_reaches reaches, finishPlay]

/-- VQUANT: the products over C's index space, each cell quantised with the scale of its block. -/
theorem exec_vquant_of_suited {a b c : Desc} (runs : Runs s h)
    (operands : takeOperands (getCore s h.core.idx) [(f.da.val, f.sa.val), (f.db.val, f.sb.val), (f.dc.val, f.sc.val)] = .ok [a, b, c])
    (floatA : plainFloat a = true) (floatB : plainFloat b = true) (scaled : c.block ≠ 0) (oneLevel : c.sl = false)
    (localA : descLocal a = true) (localB : descLocal b = true) (localC : descLocal c = true) (fitsA : fitsSpace c a = true)
    (fitsB : fitsSpace c b = true) (writes : writable c = true) (reaches : Reaches s h.core.idx [a, b, c])
    {cells : List (List Nat × FV × Bool)} (products : cells = ((tuples c).map fun x =>
      let p := readElem (coreView (getCore s h.core.idx) []) a (operandTuple a x)
      let q := readElem (coreView (getCore s h.core.idx) []) b (operandTuple b x)
      (x, f32 (toF32 (p.val.mul q.val)), p.poison || q.poison))) :
    exec (.vquant h f) s = .next (nextPlay (commitWords s h.core.idx (scatterScaled c (cells.map fun e =>
      let mine := cells.filter fun o => blockCoords c o.1 = blockCoords c e.1
      let fe := blockField (descElem c) (mine.map (·.2.1))
      let v := if fe.1 = 255 then FV.zero else e.2.1.mul (.num false 1 (-fe.2))
      { bits := (descElem c).encode v, val := v, poison := mine.any (·.2.2), scale := fe.1, sl := 0 }))) h.core.idx) := by
  have read : (tuples c).zip (((gatherOver (coreView (getCore s h.core.idx) []) c a).zip
      (gatherOver (coreView (getCore s h.core.idx) []) c b)).map fun e =>
        (f32 (toF32 (e.1.val.mul e.2.val)), e.1.poison || e.2.poison)) = cells := by
    simp [products, gatherOver, List.zip_map', zip_map_of_self, Function.comp_def]
  rw [exec, execVquant, issue_runs s h _ runs]
  simp only [operands]
  rw [if_neg (by simp [floatA, floatB, scaled, oneLevel, localA, localB, destOk, localC, fitsA, fitsB, writes]),
    rangeEnd_reaches reaches]
  simp only [read, finishPlay]
  rfl

end

/-- Settles O16. -/
theorem elementwisePlays : Obligations.ElementwisePlays := by
  unfold Obligations.ElementwisePlays
  intro s h f runs
  have floats : ∀ a c : Desc, plainFloat a = true ∧ plainFloat c = true → (plainFloat a && plainFloat c) = true :=
    fun a c both => Bool.and_eq_true_iff.mpr both
  refine ⟨binaryPlay_effect runs rfl, binaryPlay_effect runs rfl, binaryPlay_effect runs rfl, binaryPlay_effect runs rfl,
    binaryPlay_effect runs rfl, binaryPlay_effect runs rfl, unaryPlay_effect runs rfl floats, unaryPlay_effect runs rfl floats,
    unaryPlay_effect runs rfl ?vcvt, unaryPlay_effect runs rfl ?vdeq⟩
  case vcvt => exact fun a c ⟨unscaled, notFp6, notFp4⟩ => by simp [unscaled, notFp6, notFp4]
  case vdeq => exact fun a c ⟨scaled, floatC⟩ => by simp [scaled, floatC]

/-- Settles O17. -/
theorem transcendentalPlays : Obligations.TranscendentalPlays := by
  unfold Obligations.TranscendentalPlays
  intro s h f runs i p named
  have play : exec i s = transPlay s h f p := by
    rcases named with ⟨rfl, rfl⟩ | ⟨rfl, rfl⟩ | ⟨rfl, rfl⟩ | ⟨rfl, rfl⟩ | ⟨rfl, rfl⟩ | ⟨rfl, rfl⟩ | ⟨rfl, rfl⟩ <;> rfl
  exact unaryPlay_effect runs play fun a c both => Bool.and_eq_true_iff.mpr both

/-- Settles O18. -/
theorem reductionPlays : Obligations.ReductionPlays := by
  unfold Obligations.ReductionPlays
  intro s h f runs
  refine ⟨reducePlay_effect runs (by rw [exec, execVrsum]) (fun c => id) ?vrsum,
    reducePlay_effect runs (by rw [exec, execVrssq]) (fun c => id) ?vrssq,
    reducePlay_effect runs (by rw [exec, execVrmax]) (fun c => id) ?vrmax,
    reducePlay_effect runs (by rw [exec, execVscan]) (fun c => id) ?vscan,
    ?vtopk, ?vfirst, fun c => exec_vrand_of_suited runs, ?vquant⟩
  case vrsum => exact fun t r => rfl
  case vrssq => exact fun t r => rfl
  case vscan => exact fun t r => rfl
  case vrmax =>
    intro t r
    cases r <;> rfl
  case vtopk =>
    intro a c operands floatA localA localC writes unscaled ints least most within maskFits count reaches rows t read written
    rw [exec_vtopk_of_suited runs operands floatA localA localC writes unscaled ints least most within maskFits count reaches read
      written]
    refine ⟨fun unmasked => by rw [if_neg (by simp [unmasked])], fun r rs first masked => ?_⟩
    rw [if_pos masked, first]
    rfl
  case vfirst =>
    exact fun a b operands floatA floatB localA localB reaches row y =>
      exec_vfirst_of_suited runs operands floatA floatB localA localB reaches
  case vquant =>
    exact fun a b c operands floatA floatB scaled oneLevel localA localB localC fitsA fitsB writes reaches cells =>
      exec_vquant_of_suited runs operands floatA floatB scaled oneLevel localA localB localC fitsA fitsB writes reaches

end Sys2Proof.Machine
end

section
/-! PROOF. Mover plays on operands that pass their checks (R108, R130 to R134, R182 to R185, R201 to R206, R318, R321, R322, R364,
Table 4.12). -/

namespace Sys2Proof.Machine

section
variable {s s1 t : State} {h : PlayHdr} {f : FmtT}

/-! ### MCOPY, MFILL and MRED -/

section
variable {a c : Desc} {snap : List (Nat × CLine)} (runs : Runs s h)
  (operands : takeOperands (getCore s h.core.idx) [(f.da.val, f.sa.val), (f.dc.val, f.sc.val)] = .ok [a, c])
  (suits : copyable a c = true) (writes : writable c = true) (reaches : Reaches s h.core.idx [a, c])
include runs operands suits writes reaches

theorem exec_mcopy_of_clash (clash : copyClash a c false = true) :
    exec (.mcopy h f) s = .next (coreFault s h.core.idx evTnsCopyOverlap 0 0) := by
  rw [exec, execMcopy, issue_runs s h _ runs]
  simp [operands, suits, writes, rangeEnd_reaches reaches, clash, bad, finishPlay]

theorem exec_mcopy_of_apart (apart : copyClash a c false = false)
    (read : fetchLines s h.core.idx (bitOf f.mode.toNat 5) (deviceLines [a]) = (s1, some snap))
    (written : writeWords s1 h.core.idx (scatterScaled c (gather (coreView (getCore s1 h.core.idx) snap) a)) = (t, true)) :
    exec (.mcopy h f) s = .next (nextPlay t h.core.idx) := by
  rw [exec, execMcopy, issue_runs s h _ runs]
  simp [operands, suits, writes, rangeEnd_reaches reaches, apart, read, written, finishPlay]

section
variable {op : Nat} (sums : redOp (descElem c) = some op) (unscaled : c.block = 0) (device : descLocal c = false)
include sums unscaled device

theorem exec_mred_of_clash (clash : copyClash a c true = true) :
    exec (.mred h f) s = .next (coreFault s h.core.idx evTnsCopyOverlap 0 0) := by
  rw [exec, execMred, issue_runs s h _ runs]
  simp [operands, sums, suits, unscaled, writes, device, rangeEnd_reaches reaches, clash, bad, finishPlay]

theorem exec_mred_of_apart (apart : copyClash a c true = false)
    (read : fetchLines s h.core.idx (bitOf f.mode.toNat 5) (deviceLines [a]) = (s1, some snap))
    (held : ensureLines (linesRoom s1 (deviceLines [c])) h.core.idx [] (deviceLines [c]) = (t, true)) :
    exec (.mred h f) s = .next (nextPlay ((deviceLines [c]).foldl (fun s l => modCore s h.core.idx fun k => rcDrop k l)
      (redElems t op c (gather (coreView (getCore s1 h.core.idx) snap) a))) h.core.idx) := by
  rw [exec, execMred, issue_runs s h _ runs]
  simp [operands, sums, suits, unscaled, writes, device, rangeEnd_reaches reaches, apart, read, held, finishPlay]

end

end

theorem exec_mfill_of_written {c : Desc} (runs : Runs s h)
    (operands : takeOperands (getCore s h.core.idx) [(f.dc.val, f.sc.val)] = .ok [c]) (writes : writable c = true)
    (reaches : Reaches s h.core.idx [c])
    (written : writeWords s h.core.idx (scatter c (List.replicate (elemCount c)
      (f.imm.toNat % 2 ^ (descElem c).bits, false))) = (t, true)) :
    exec (.mfill h f) s = .next (nextPlay t h.core.idx) := by
  rw [exec, execMfill, issue_runs s h _ runs]
  simp [operands, writes, rangeEnd_reaches reaches, List.map_const', written, finishPlay]

/-- The types whose additions MRED knows, each with its atomic operation. -/
theorem redOp_eq_some {e : Elem} {op : Nat} (known : e = .int32 ∧ op = 0 ∨ e = .fp32 ∧ op = 2 ∨ e = .bf16 ∧ op = 3) :
    redOp e = some op := by
  rcases known with ⟨rfl, rfl⟩ | ⟨rfl, rfl⟩ | ⟨rfl, rfl⟩ <;> rfl

end

/-- Settles O19. -/
theorem copyFillReduce : Obligations.CopyFillReduce := by
  unfold Obligations.CopyFillReduce
  refine ⟨fun s s1 t h f a c snap runs operands => exec_mcopy_of_apart runs operands,
    fun s t h f c => exec_mfill_of_written, ?mred, ?clash⟩
  case mred =>
    exact fun s s1 t h f a c op snap runs operands known suits unscaled writes device reaches =>
      exec_mred_of_apart runs operands suits writes reaches (redOp_eq_some known) unscaled device
  case clash =>
    intro s h f a c runs operands suits writes reaches
    refine ⟨exec_mcopy_of_clash runs operands suits writes reaches, fun clash unscaled known device => ?_⟩
    obtain ⟨op, sums⟩ := Option.isSome_iff_exists.mp known
    exact exec_mred_of_clash runs operands suits writes reaches sums unscaled device clash

/-! ### Words of scratch -/

section
variable {s : State} {n o : Nat}

/-- An aligned word of eight bytes that lies in scratch passes the checks of its address. -/
theorem addressFault_scratch (aligned : o % 8 = 0) (within : o + 8 ≤ 0x30000) :
    addressFault s n (localBit + o) 8 8 false = none := by
  have window : isLocal ((localBit + o : Nat) : Int) = true := by
    rw [isLocal, Bool.and_eq_true, decide_eq_true_eq, decide_eq_true_eq, scratchBytes]
    omega
  have even : (localBit + o) % 8 = 0 := by simp only [localBit]; omega
  have fits : localBit + o + 8 ≤ localBit + scratchBytes := by simp only [scratchBytes]; omega
  simp only [addressFault, window, even, fits, Bool.true_or, Bool.not_true, Bool.false_and, Bool.or_false, Bool.false_eq_true, if_false,
    if_true, ne_eq, not_true_eq_false]

/-- Scratch needs no line: eight bytes of it are read at once, each with the poison of its word. -/
theorem coreRead_scratch (rt : Bool) : coreRead s n (localBit + o) 8 rt = (s, some ((List.range 8).map fun i =>
    (rdByte (getCore s n).scratch (o + i), sget false (getCore s n).scratchPoison ((o + i) / 4)))) := by
  have byte : ∀ i : Nat, coreView (getCore s n) [] ((localBit + o + i : Nat) : Int) =
      (rdByte (getCore s n).scratch (o + i), sget false (getCore s n).scratchPoison ((o + i) / 4)) := fun i => by
    rw [coreView, if_pos (by omega), scratchByte, Int.toNat_natCast, Nat.add_assoc, Nat.add_sub_cancel_left]
  simp only [coreRead, spanLines, Nat.le_add_right, if_true, fetchLines, Option.map_some, byte]

/-- The poison of the two words that eight aligned bytes of scratch are. -/
theorem halvesBad_scratch (aligned : o % 8 = 0) : halvesBad ((List.range 8).map fun i =>
    (rdByte (getCore s n).scratch (o + i), sget false (getCore s n).scratchPoison ((o + i) / 4))) =
    BitVec.ofNat 2 ((if sget false (getCore s n).scratchPoison (o / 4) then 1 else 0) +
      (if sget false (getCore s n).scratchPoison (o / 4 + 1) then 2 else 0)) := by
  have low : ∀ i < 4, (o + i) / 4 = o / 4 := fun i hi => by omega
  have high : ∀ i < 4, (o + (4 + i)) / 4 = o / 4 + 1 := fun i hi => by omega
  simp [halvesBad, List.range_succ, low 1, low 2, low 3, high 0, high 1, high 2, high 3]

/-- Eight aligned bytes of scratch are two words, and no line. -/
theorem writeWords_scratch (v : W64) (p : BitVec 2) : writeWords s n (store8 (localBit + o) v p) =
    (putScratch (putScratch s n (o / 4) { mask := 0xFFFFFFFF, value := v.toNat % 2 ^ 32, poison := bitOf p.toNat 0 }) n (o / 4 + 1)
      { mask := 0xFFFFFFFF, value := v.toNat / 2 ^ 32 % 2 ^ 32, poison := bitOf p.toNat 1 }, true) := by
  have low : (localBit + o) / 4 = localBit / 4 + o / 4 := by simp only [localBit]; omega
  have lowWord : localBit / 4 + o / 4 - localBit / 4 = o / 4 := Nat.add_sub_cancel_left _ _
  have highWord : localBit / 4 + o / 4 + 1 - localBit / 4 = o / 4 + 1 := by rw [Nat.add_assoc, Nat.add_sub_cancel_left]
  have high : localBit / 4 ≤ localBit / 4 + o / 4 + 1 := by omega
  have noDevice : ((store8 (localBit + o) v p).filter fun e => e.1 < localBit / 4) = [] := by
    simp [store8, low, Nat.not_lt.mpr high]
  rw [writeWords, noDevice]
  simp [putLines, linesRoom, ensureLines, commitWords, store8, low, lowWord, highWord, high, fieldOf]

end

/-! ### Lines that their kitty holds -/

section
variable {s : State} {n line : Nat} (held : (kittyGet s line).isSome = true)
include held

/-- A line that its kitty holds needs no room. -/
theorem linesRoom_held : linesRoom s [line] = s := by
  simp [linesRoom, Option.isNone_eq_false_iff.mpr held]

/-- A line that its powered kitty holds and the host does not is at hand; the core's place at a regulator is free. -/
theorem ensureLine_held (on : kittyOn s line = true) (alone : hostHolds s (lineDpa line) = none) :
    ensureLine s n line = (dropCoreWait s n, true) := by
  obtain ⟨c, copy⟩ := Option.isSome_iff_exists.mp held
  simp [ensureLine, reachKitty, on, alone, fillKitty, copy]

end

/-! ### MLDS, MSTS and MATOM -/

theorem reachesAddr_scratch {s : State} {n o a : Nat} (address : a = localBit + o) (aligned : o % 8 = 0) (within : o + 8 ≤ 0x30000)
    (settled : doutMeets s n [(0, ((localBit + o : Nat) : Int), ((localBit + o : Nat) : Int) + ((8 : Nat) : Int) - 1)] = none) :
    ReachesAddr s n a 8 8 false := by
  subst address
  exact ⟨addressFault_scratch aligned within, settled⟩

section
variable {s : State} {h : PlayHdr} {f : FmtT} (runs : Runs s h) (clean : sregBad (getCore s h.core.idx) f.sa.val = false)
include runs clean

section
variable {o : Nat} (address : (wordAddr (getCore s h.core.idx) f).toNat = localBit + o) (aligned : o % 8 = 0) (within : o + 8 ≤ 0x30000)
  (settled : doutMeets s h.core.idx [(0, ((localBit + o : Nat) : Int), ((localBit + o : Nat) : Int) + ((8 : Nat) : Int) - 1)] = none)
include address aligned within settled

theorem exec_mlds_of_scratch :
    exec (.mlds h f) s = .next (nextPlay (setSreg s h.core.idx (fieldOf f.mode.toNat 0 5)
      (BitVec.ofNat 64 (leNat ((List.range 8).map fun i => rdByte (getCore s h.core.idx).scratch (o + i))))
      (BitVec.ofNat 2 ((if sget false (getCore s h.core.idx).scratchPoison (o / 4) then 1 else 0) +
        (if sget false (getCore s h.core.idx).scratchPoison (o / 4 + 1) then 2 else 0)))) h.core.idx) := by
  rw [exec, execMlds, issue_runs s h _ runs,
    addrEnd_reaches clean (reachesAddr_scratch address aligned within settled), address]
  simp only [coreRead_scratch, halvesBad_scratch aligned, bytesVal, List.map_map, Function.comp_def, finishPlay]

theorem exec_msts_of_scratch :
    exec (.msts h f) s = .next (nextPlay (putScratch (putScratch s h.core.idx (o / 4)
        { mask := 0xFFFFFFFF, value := (sreg (getCore s h.core.idx) (fieldOf f.mode.toNat 0 5)).toNat % 2 ^ 32,
          poison := bitOf (sregPoison (getCore s h.core.idx) (fieldOf f.mode.toNat 0 5)).toNat 0 }) h.core.idx (o / 4 + 1)
        { mask := 0xFFFFFFFF, value := (sreg (getCore s h.core.idx) (fieldOf f.mode.toNat 0 5)).toNat / 2 ^ 32 % 2 ^ 32,
          poison := bitOf (sregPoison (getCore s h.core.idx) (fieldOf f.mode.toNat 0 5)).toNat 1 }) h.core.idx) := by
  rw [exec, execMsts, issue_runs s h _ runs]
  dsimp only
  rw [addrEnd_reaches clean (reachesAddr_scratch address aligned within settled), address]
  simp only [writeWords_scratch, if_true, finishPlay]

end

theorem exec_matom_of_held {a op : Nat} (address : (wordAddr (getCore s h.core.idx) f).toNat = a)
    (selects : fieldOf f.mode.toNat 6 3 = op) (known : op < 7) (reaches : ReachesAddr s h.core.idx a (atomBytes op) (atomBytes op) true)
    (held : (kittyGet s (a / 64)).isSome = true) (on : kittyOn s (a / 64) = true) (alone : hostHolds s (lineDpa (a / 64)) = none)
    {r : State × Nat × BitVec 2} (done : r = kittyAtom (dropCoreWait s h.core.idx) a op
      ((sreg (getCore s h.core.idx) f.sb.val).toNat % 2 ^ (8 * atomBytes op))
      ((sreg (getCore s h.core.idx) f.sc.val).toNat % 2 ^ (8 * atomBytes op))
      (sregBad (getCore s h.core.idx) f.sb.val || (op = 6 && sregBad (getCore s h.core.idx) f.sc.val))) :
    exec (.matom h f) s = .next (nextPlay (setSreg (modCore r.1 h.core.idx fun k => rcDrop k (a / 64)) h.core.idx
      (fieldOf f.mode.toNat 0 5) (BitVec.ofNat 64 r.2.1) r.2.2) h.core.idx) := by
  subst address
  rw [exec, execMatom, issue_runs s h _ runs]
  dsimp only
  rw [selects, if_neg (by omega), addrEnd_reaches clean reaches]
  simp only [linesRoom_held held, ensureLines, List.contains_nil, Bool.false_eq_true, if_false,
    ensureLine_held held on alone, if_true, Bool.not_true, finishPlay, done]

theorem exec_mlds_of_bad_address {e : Ev} {a : W64} (address : a = wordAddr (getCore s h.core.idx) f)
    (refused : addressFault s h.core.idx a.toNat 8 8 false = some e) :
    exec (.mlds h f) s = .next (coreFault s h.core.idx e 0 (if e = evTnsScratchRange then 0 else a)) := by
  subst address
  rw [exec, execMlds, issue_runs s h _ runs]
  simp only [addrEnd, clean, refused, Bool.false_eq_true, if_false, finishPlay]

theorem exec_mlds_of_owed {a : W64} {ticket : Nat} (address : a = wordAddr (getCore s h.core.idx) f)
    (passes : addressFault s h.core.idx a.toNat 8 8 false = none)
    (owed : doutMeets s h.core.idx [(0, (a.toNat : Int), (a.toNat : Int) + ((8 : Nat) : Int) - 1)] = some ticket) :
    exec (.mlds h f) s = .next (coreWaits s h.core.idx (.ticket ticket)) := by
  subst address
  rw [exec, execMlds, issue_runs s h _ runs]
  simp only [addrEnd, clean, passes, owed, Bool.false_eq_true, if_false, finishPlay]

end

/-- Settles O20. -/
theorem wordPlays : Obligations.WordPlays := by
  unfold Obligations.WordPlays
  refine ⟨fun s h f o runs clean => exec_mlds_of_scratch runs clean, fun s h f o runs clean => exec_msts_of_scratch runs clean, ?matom,
    fun s h f e a runs clean => exec_mlds_of_bad_address runs clean,
    fun s h f a t runs clean => exec_mlds_of_owed runs clean⟩
  case matom =>
    exact fun s h f a op runs clean address selects known reaches held on alone =>
      exec_matom_of_held runs clean address selects known reaches held on alone rfl

/-! ### DLOAD and DBASE -/

section
variable {s s1 : State} {h : PlayHdr} {f : FmtT} {d : BitVec 1024} (runs : Runs s h)
  (clean : sregBad (getCore s h.core.idx) f.sa.val = false)
include runs clean

section
variable {bs : List (Byte × Bool)} (reaches : ReachesAddr s h.core.idx (wordAddr (getCore s h.core.idx) f).toNat 128 1 false)
  (read : coreRead s h.core.idx (wordAddr (getCore s h.core.idx) f).toNat 128 true = (s1, some bs)) (sound : bs.any (·.2) = false)
  (bytes : d = BitVec.ofNat 1024 (leNat (bs.map (·.1))))
include reaches read sound bytes

theorem exec_dload_of_valid (valid : descValid (parseDesc d) = true) :
    exec (.dload h f) s = .next (nextPlay (setDesc s1 h.core.idx f.dc.val d) h.core.idx) := by
  rw [exec, execDload, issue_runs s h _ runs, addrEnd_reaches clean reaches]
  simp only [read, sound, Bool.false_eq_true, if_false, bytesVal, ← bytes, valid, if_true, finishPlay]

theorem exec_dload_of_invalid (invalid : descValid (parseDesc d) = false) :
    exec (.dload h f) s = .next (coreFault s1 h.core.idx evTnsDescInvalid 0 0) := by
  rw [exec, execDload, issue_runs s h _ runs, addrEnd_reaches clean reaches]
  simp only [read, sound, Bool.false_eq_true, if_false, bytesVal, ← bytes, invalid, bad, finishPlay]

end

section
variable (moved : d = withBase (sget 0 (getCore s h.core.idx).descs f.dc.val) (wordAddr (getCore s h.core.idx) f).toNat)
include moved

theorem exec_dbase_of_valid (small : (wordAddr (getCore s h.core.idx) f).toNat < 2 ^ 48) (valid : descValid (parseDesc d) = true) :
    exec (.dbase h f) s = .next (coreAt s h.core.idx
      { getCore s h.core.idx with descs := sput 0 (getCore s h.core.idx).descs f.dc.val d } ((getCore s h.core.idx).pc + 1)) := by
  rw [exec, execDbase, issue_runs s h _ runs]
  simp only [clean, Bool.false_eq_true, if_false, if_neg (Nat.not_le.mpr small), ← moved, valid, if_true, finishPlay]
  exact congrArg Host.Outcome.next (nextPlay_modCore _ runs.run)

theorem exec_dbase_of_invalid (invalid : 2 ^ 48 ≤ (wordAddr (getCore s h.core.idx) f).toNat ∨ descValid (parseDesc d) = false) :
    exec (.dbase h f) s = .next (coreFault s h.core.idx evTnsDescInvalid 0 0) := by
  rw [exec, execDbase, issue_runs s h _ runs]
  simp only [clean, Bool.false_eq_true, if_false, ← moved]
  rcases invalid with long | invalid
  · rw [if_pos long]
    rfl
  · simp only [invalid, Bool.false_eq_true, if_false, ite_self]
    rfl

end

end

/-- Settles O21. -/
theorem descriptorPlays : Obligations.DescriptorPlays := by
  unfold Obligations.DescriptorPlays
  refine ⟨?dload, ?dbase⟩
  case dload =>
    exact fun s s1 h f bs runs clean reaches read sound d bytes =>
      ⟨exec_dload_of_valid runs clean reaches read sound bytes, exec_dload_of_invalid runs clean reaches read sound bytes⟩
  case dbase =>
    rintro s h f a runs clean rfl d moved
    exact ⟨exec_dbase_of_valid runs clean moved, exec_dbase_of_invalid runs clean moved⟩

/-! ### MPUSH -/

section
variable {s : State} {h : PlayHdr} {f : FmtT} {a c : Desc} {e : StreamEntry} {k : Stream} {units st : Nat} (runs : Runs s h)
  (operands : takeOperands (getCore s h.core.idx) [(f.da.val, f.sa.val), (f.dc.val, f.sc.val)] = .ok [a, c])
  (localA : descLocal a = true) (localC : descLocal c = true) (suits : copyable a c = true) (writes : writable c = true)
  (reaches : Reaches s h.core.idx [a, c]) (named : f.imm.toNat % 2 ^ 14 = st)
  (entry : streamEntry s st = some e) (stream : getStream s st = k)
include runs operands localA localC suits writes reaches named entry stream

theorem exec_mpush_of_stopped (stopped : k.stopped = true) :
    exec (.mpush h f) s = .next (coreFault s h.core.idx evSynCreditStopped 0 0) := by
  rw [exec, execMpush, issue_runs s h _ runs]
  simp only [operands, named]
  simp [localA, localC, suits, writes, rangeEnd_reaches reaches, entry, stream, stopped, streamFault, bad, finishPlay]

section
variable (charge : units = ceilDiv (extentBytes c) (2 ^ e.unitLog2)) (flows : k.stopped = false)
include charge flows

theorem exec_mpush_of_few (few : k.taken < units) :
    exec (.mpush h f) s = .next (coreFault
      (stopStream s e (evSynCreditUnderflow.word (0x10 + h.core.idx / 64))) h.core.idx evSynCreditUnderflow 0 0) := by
  subst charge
  have other : evSynCreditUnderflow ≠ evSynCreditStopped := by decide
  rw [exec, execMpush, issue_runs s h _ runs]
  simp only [operands, named]
  simp [localA, localC, suits, writes, rangeEnd_reaches reaches, entry, stream, flows, few, streamFault, other, bad, finishPlay,
    uCluster]

section
variable {bytes : List (Nat × Byte × Bool)} {s1 : State} (enough : units ≤ k.taken)
  (data : bytes = pushBytes (scatterScaled c (gather (coreView (getCore s h.core.idx) []) a)))
  (charged : s1 = modCore (setStream s st
    { k with taken := k.taken - units, ptally := k.ptally + BitVec.ofNat 32 units }) h.core.idx
    (fun c => { c with unperformed := c.unperformed + 1 }))
include enough data charged

theorem exec_mpush_of_onDie (onDie : e.kind = 0) :
    exec (.mpush h f) s = .next (nextPlay { s1 with pushes := s1.pushes ++
      [{ stream := st, producer := h.core.idx, units := units, bytes := bytes, gen := s.gen }] } h.core.idx) := by
  subst charge data charged
  rw [exec, execMpush, issue_runs s h _ runs]
  simp only [operands, named]
  simp [localA, localC, suits, writes, rangeEnd_reaches reaches, entry, stream, flows, Nat.not_lt.mpr enough, onDie, finishPlay,
    readLocal]

theorem exec_mpush_of_fabric (fabric : e.kind ≠ 0) :
    exec (.mpush h f) s = .next (nextPlay (sendPush s1 e units (pushRuns bytes)) h.core.idx) := by
  subst charge data charged
  rw [exec, execMpush, issue_runs s h _ runs]
  simp only [operands, named]
  simp [localA, localC, suits, writes, rangeEnd_reaches reaches, entry, stream, flows, Nat.not_lt.mpr enough, fabric, finishPlay,
    readLocal]

end

end

end

/-- Settles O22. -/
theorem pushPlay : Obligations.PushPlay := by
  unfold Obligations.PushPlay
  intro s h f a c e k units runs operands localA localC suits writes reaches entry stream charge
  refine ⟨exec_mpush_of_stopped runs operands localA localC suits writes reaches rfl entry stream,
    exec_mpush_of_few runs operands localA localC suits writes reaches rfl entry stream charge, ?enough⟩
  intro flows enough bytes s1 data charged
  exact ⟨exec_mpush_of_onDie runs operands localA localC suits writes reaches rfl entry stream charge flows enough data charged,
    exec_mpush_of_fabric runs operands localA localC suits writes reaches rfl entry stream charge flows enough data charged⟩

end Sys2Proof.Machine
end

section
/-! PROOF. Sync plays (R131, R135 to R137, R150, R302 to R305, R334, R336, R337, Tables 4.13 and 9.2). -/

namespace Sys2Proof.Machine

/-! ### TPLAY and TPW -/

section
variable {s : State} {n trick : Nat} {e : TrickEntry} (play : TrickEntry → PlayEnd) (entry : trickEntry s trick = some e)
  (member : isMember e n = true)
include entry member

theorem playTrick_of_unperformed (owed : (getCore s n).unperformed ≠ 0) :
    playTrick s n trick play = .wait (coreWaits s n .performed) := by
  simp [playTrick, entry, member, owed]

theorem playTrick_of_unreleased (performed : (getCore s n).unperformed = 0)
    (played : sget none (getCore s n).members trick = some (knownEpoch s trick (n / 64))) :
    playTrick s n trick play = .wait (coreWaits s n (.trickIssue trick)) := by
  simp [playTrick, entry, member, performed, memberRecord, played]

theorem playTrick_of_released (performed : (getCore s n).unperformed = 0)
    (fresh : sget none (getCore s n).members trick ≠ some (knownEpoch s trick (n / 64))) :
    playTrick s n trick play = play e := by
  simp [playTrick, entry, member, performed, memberRecord, fresh]

end

section
variable {s : State} {h : PlayHdr} {f : FmtY} {e : TrickEntry} (runs : Runs s h) (entry : trickEntry s f.id.toNat = some e)
  (member : isMember e h.core.idx = true)
include runs entry member

theorem exec_tplay_of_unperformed (owed : (getCore s h.core.idx).unperformed ≠ 0) :
    exec (.tplay h f) s = .next (coreWaits s h.core.idx .performed) := by
  rw [exec, execTplay, issue_runs s h _ runs, playTrick_of_unperformed _ entry member owed, finishPlay]

section
variable (performed : (getCore s h.core.idx).unperformed = 0)
include performed

theorem exec_tplay_of_unreleased
    (played : sget none (getCore s h.core.idx).members f.id.toNat = some (knownEpoch s f.id.toNat (h.core.idx / 64))) :
    exec (.tplay h f) s = .next (coreWaits s h.core.idx (.trickIssue f.id.toNat)) := by
  rw [exec, execTplay, issue_runs s h _ runs, playTrick_of_unreleased _ entry member performed played, finishPlay]

section
variable (fresh : sget none (getCore s h.core.idx).members f.id.toNat ≠ some (knownEpoch s f.id.toNat (h.core.idx / 64)))
include fresh

theorem exec_tplay_of_released :
    exec (.tplay h f) s = .next (countPlay (coreAt s h.core.idx
      { getCore s h.core.idx with
        members := sput none (getCore s h.core.idx).members f.id.toNat (some (knownEpoch s f.id.toNat (h.core.idx / 64))) }
      ((getCore s h.core.idx).pc + 1)) e h.core.idx) := by
  rw [exec, execTplay, issue_runs s h _ runs, playTrick_of_released _ entry member performed fresh, finishPlay]
  exact congrArg (fun t => Host.Outcome.next (countPlay t e h.core.idx)) (nextPlay_modCore _ runs.run)

theorem exec_tpw_of_released (first : (getCore s h.core.idx).tpwPlayed = false) :
    exec (.tpw h f) s = .next (countPlay (setCore s h.core.idx
      { getCore s h.core.idx with
        members := sput none (getCore s h.core.idx).members f.id.toNat (some (knownEpoch s f.id.toNat (h.core.idx / 64))),
        tpwPlayed := true, wait := .trickRelease f.id.toNat }) e h.core.idx) := by
  rw [exec, execTpw, issue_runs s h _ runs]
  dsimp only
  rw [if_neg (by simp [first]), playTrick_of_released _ entry member performed fresh, finishPlay, setRecord, modCore, modCore,
    getCore_setCore_running _ _ _ (by exact runs.run), setCore_setCore_running _ _ _ _ (by exact runs.run)]

end

end

end

/-! ### TWAIT, and TPW after its play has counted -/

section
variable {s : State} {h : PlayHdr} {f : FmtY} {i : Instr}

theorem exec_await (runs : Runs s h) (awaits : i = .twait h f ∨ i = .tpw h f ∧ (getCore s h.core.idx).tpwPlayed = true) :
    exec i s = .next (finishPlay h.core.idx (awaitTrick s h.core.idx f.id.toNat f.inv)) := by
  rcases awaits with rfl | ⟨rfl, counted⟩
  · rw [exec, execTwait, issue_runs s h _ runs]
  · rw [exec, execTpw, issue_runs s h _ runs]
    simp only [counted, if_true]

end

section
variable {s : State} {n trick : Nat} {r : W32} (inv : Bool)

theorem awaitTrick_of_unplayed (unplayed : sget none (getCore s n).members trick = none) :
    awaitTrick s n trick inv = bad s evSynWaitUnplayed := by
  simp [awaitTrick, memberRecord, unplayed]

theorem awaitTrick_of_unreleased (played : sget none (getCore s n).members trick = some r) (same : r = knownEpoch s trick (n / 64)) :
    awaitTrick s n trick inv = .wait (coreWaits s n (.trickRelease trick)) := by
  simp [awaitTrick, memberRecord, played, same]

/-- The core goes on after the release; with INV its read cache is empty. -/
theorem finishPlay_awaitTrick_of_released (running : (getCore s n).run = .running)
    (played : sget none (getCore s n).members trick = some r) (other : r ≠ knownEpoch s trick (n / 64)) :
    finishPlay n (awaitTrick s n trick inv) = coreAt s n
      { getCore s n with tpwPlayed := false, rcache := if inv then [] else (getCore s n).rcache } ((getCore s n).pc + 1) := by
  simp only [awaitTrick, memberRecord, played, if_neg other, finishPlay]
  cases inv
  · exact nextPlay_modCore _ running
  · simp only [if_true, rcEmpty, modCore]
    rw [getCore_setCore_running _ _ _ (by exact running), setCore_setCore_running _ _ _ _ (by exact running)]
    exact nextPlay_setCore _ _ _ running

end

/-! ### A counted play -/

/-- Plays that do not complete a trick's expected plays are added to ARRIVED, and nothing follows. -/
theorem addArrived_of_incomplete {s : State} {e : TrickEntry} {k : Nat} (hasDeck : (deckOf s).isSome = true)
    (entry : trickEntry s e.trick = some e) (more : 0 < k) (incomplete : (getTrick s e.trick).arrived + k ≠ (getTrick s e.trick).expected) :
    addArrived s e.trick k = setTrick s e.trick { getTrick s e.trick with arrived := (getTrick s e.trick).arrived + k } := by
  obtain ⟨d, hd⟩ := Option.isSome_iff_exists.mp hasDeck
  have kept : { getTrick s e.trick with arrived := (getTrick s e.trick).arrived + k } ≠ Trick.empty := fun same => by
    have zero : (getTrick s e.trick).arrived + k = 0 := congrArg Trick.arrived same
    omega
  have back : getTrick (setTrick s e.trick { getTrick s e.trick with arrived := (getTrick s e.trick).arrived + k }) e.trick =
      { getTrick s e.trick with arrived := (getTrick s e.trick).arrived + k } := sget_sput_same_of_ne _ _ _ _ kept
  simp only [addArrived, hd, entry, incomplete, decide_false, Bool.false_and, Bool.false_eq_true, if_false, checkTrick, back, ne_eq,
    not_false_eq_true, if_true]

theorem countPlay_of_away {s : State} {e : TrickEntry} {n : Nat} (away : n / 64 ≠ homeOf e) : countPlay s e n =
    if sget 0 s.clusterPlays (knownKey e.trick (n / 64)) + 1 = clusterMembers e (n / 64) then
      { s with clusterPlays := sput 0 s.clusterPlays (knownKey e.trick (n / 64)) 0,
               arrives := s.arrives ++ [(n / 64, e.trick, clusterMembers e (n / 64))] }
    else { s with clusterPlays := sput 0 s.clusterPlays (knownKey e.trick (n / 64))
                    (sget 0 s.clusterPlays (knownKey e.trick (n / 64)) + 1) } := by
  rw [countPlay, if_neg away]
  dsimp only
  split
  next last => rw [last]
  next => rfl

/-- Settles O23. -/
theorem trickPlays : Obligations.TrickPlays := by
  unfold Obligations.TrickPlays
  refine ⟨?play, ?await, fun s e n => countPlay_of_away, ?home⟩
  case play =>
    exact fun s h f e runs entry member => ⟨exec_tplay_of_unperformed runs entry member, exec_tplay_of_unreleased runs entry member,
      fun performed fresh => ⟨exec_tplay_of_released runs entry member performed fresh,
        exec_tpw_of_released runs entry member performed fresh⟩⟩
  case await =>
    intro s h f i runs awaits
    rw [exec_await runs awaits]
    refine ⟨fun unplayed => by rw [awaitTrick_of_unplayed f.inv unplayed]; rfl, fun r played => ⟨fun same => ?_, fun other => ?_⟩⟩
    · rw [awaitTrick_of_unreleased f.inv played same]
      rfl
    · rw [finishPlay_awaitTrick_of_released f.inv runs.run played other]
  case home =>
    intro s e n home hasDeck entry incomplete
    rw [countPlay, if_pos home, addArrived_of_incomplete hasDeck entry Nat.one_pos incomplete]

/-! ### ACQ, POLL and REL -/

section
variable {s s1 t : State} {h : PlayHdr} {f : FmtY} {a : Nat} (runs : Runs s h) (clean : sregBad (getCore s h.core.idx) f.sa.val = false)
  (address : (sreg (getCore s h.core.idx) f.sa.val).toNat = a) (reaches : ReachesAddr s h.core.idx a 8 8 false)
include runs clean address reaches

section
variable {bs : List (Byte × Bool)} (read : coreRead s h.core.idx a 8 true = (s1, some bs))
include read

theorem exec_acq_of_read :
    exec (.acq h f) s = .next (nextPlay (setSreg s1 h.core.idx f.sd.val (BitVec.ofNat 64 (leNat (bs.map (·.1))))
      (halvesBad bs)) h.core.idx) := by
  subst address
  rw [exec, execAcq, issue_runs s h _ runs, addrEnd_reaches clean reaches]
  simp only [read, bytesVal, finishPlay]

theorem exec_poll_of_poisoned (poisoned : bs.any (·.2) = true) :
    exec (.poll h f) s = .next (coreFault s1 h.core.idx evIntPoisonPredicate 0 0) := by
  subst address
  rw [exec, execPoll, issue_runs s h _ runs, addrEnd_reaches clean reaches]
  simp only [read, poisoned, if_true, bad, finishPlay]

theorem exec_poll_of_compared {ok : Bool} (sound : bs.any (·.2) = false)
    (compared : pollCmp f.cmp.toNat (leNat (bs.map (·.1))) f.imm.toNat = some ok) :
    exec (.poll h f) s = .next (if ok then
      nextPlay (setSreg s1 h.core.idx f.sd.val (BitVec.ofNat 64 (leNat (bs.map (·.1)))) 0) h.core.idx else s1) := by
  subst address
  rw [exec, execPoll, issue_runs s h _ runs, addrEnd_reaches clean reaches]
  simp only [read, sound, bytesVal, compared, Option.some.injEq]
  cases ok <;> rfl

end

theorem exec_rel_of_unperformed (open_access : (getCore s h.core.idx).unperformed ≠ 0) :
    exec (.rel h f) s = .next (coreWaits s h.core.idx .performed) := by
  subst address
  rw [exec, execRel, issue_runs s h _ runs]
  dsimp only
  rw [addrEnd_reaches clean reaches, if_pos open_access, finishPlay]

theorem exec_rel_of_performed (performed : (getCore s h.core.idx).unperformed = 0)
    (written : writeWords s h.core.idx (store8 a (sreg (getCore s h.core.idx) f.sd.val)
      (sregPoison (getCore s h.core.idx) f.sd.val)) = (t, true)) :
    exec (.rel h f) s = .next (nextPlay t h.core.idx) := by
  subst address
  rw [exec, execRel, issue_runs s h _ runs]
  dsimp only
  rw [addrEnd_reaches clean reaches, if_neg (not_not_intro performed), written]
  rfl

end

/-! ### FENCE and INVR -/

section
variable {s : State} {h : PlayHdr} {f : FmtY} (runs : Runs s h)
include runs

theorem exec_fence_of_runs :
    exec (.fence h f) s = .next (if (getCore s h.core.idx).unperformed = 0 then nextPlay s h.core.idx
      else coreWaits s h.core.idx .performed) := by
  rw [exec, execFence, issue_runs s h _ runs]
  by_cases performed : (getCore s h.core.idx).unperformed = 0
  · rw [if_neg (not_not_intro performed), if_pos performed, finishPlay]
  · rw [if_pos performed, if_neg performed, finishPlay]

theorem exec_invr_of_all (all : f.inv = true) :
    exec (.invr h f) s = .next (coreAt s h.core.idx { getCore s h.core.idx with rcache := [] } ((getCore s h.core.idx).pc + 1)) := by
  rw [exec, execInvr, issue_runs s h _ runs, if_pos all]
  exact congrArg Host.Outcome.next (nextPlay_modCore _ runs.run)

theorem exec_invr_of_extents {d : Desc} (some_lines : f.inv = false)
    (operands : takeOperands (getCore s h.core.idx) [(f.da.val, 0)] = .ok [d]) (reaches : Reaches s h.core.idx [d]) :
    exec (.invr h f) s = .next (nextPlay ((deviceLines [d]).foldl (fun s l => modCore s h.core.idx fun c => rcDrop c l) s)
      h.core.idx) := by
  rw [exec, execInvr, issue_runs s h _ runs, if_neg (by simp [some_lines])]
  simp only [operands, rangeEnd_reaches reaches, finishPlay]

end

/-- Settles O25. -/
theorem syncWordPlays : Obligations.SyncWordPlays := by
  unfold Obligations.SyncWordPlays
  refine ⟨?read, ?release, fun s h f => exec_fence_of_runs, fun s h f runs =>
    ⟨exec_invr_of_all runs, fun d => exec_invr_of_extents runs⟩⟩
  case read =>
    intro s s1 h f a bs runs clean address reaches read
    refine ⟨exec_acq_of_read runs clean address reaches read, exec_poll_of_poisoned runs clean address reaches read, ?_⟩
    rintro sound v ok rfl compared
    refine exec_poll_of_compared runs clean address reaches read sound ?_
    rcases compared with ⟨cmp, rfl⟩ | ⟨cmp, rfl⟩ | ⟨cmp, rfl⟩ | ⟨cmp, rfl⟩ <;> rw [cmp] <;> rfl
  case release =>
    exact fun s t h f a runs clean address reaches =>
      ⟨exec_rel_of_unperformed runs clean address reaches, exec_rel_of_performed runs clean address reaches⟩

end Sys2Proof.Machine
end

section
/-! PROOF. Bank plays (R138 to R142, R253 to R255, R265, R266, R293, Tables 4.14 and 4.15). -/

namespace Sys2Proof.Machine

/-! ### BLATCH -/

/-- The stack interface traffic of a BLATCH of a vector: its elements and its scales (R253, R254). -/
def latchBytes (d : Desc) : Nat := elemCount d + (if d.block = 0 then 0 else elemCount d / 32)

section
variable {s : State} {h : PlayHdr} {f : FmtB} {p : Script} {d : Desc} {g : ScriptOp} (runs : Runs s h)
  (script : playScript s h.core.idx f = some p) (operands : takeOperands (getCore s h.core.idx) [(f.din.val, 0)] = .ok [d])
  (clean : sregBad (getCore s h.core.idx) f.sp.val = false)
  (group : groupOf p (parGroup (sreg (getCore s h.core.idx) f.sp.val)) = some g)
  (fits : elemCount d = chunkOf g * (opSlots g).length) (latches : latchOperand d = true) (reaches : Reaches s h.core.idx [d])
include runs script operands clean group fits latches reaches

theorem exec_blatch_of_parameter (reserved : parClean (sreg (getCore s h.core.idx) f.sp.val) = false) :
    exec (.blatch h f) s = .next (nextPlay (dropLatch s (scriptStack s p) p evTnsScriptParam h.core.idx) h.core.idx) := by
  rw [exec, execBlatch, issue_runs s h _ runs]
  simp [script, operands, clean, group, fits, latches, rangeEnd_reaches reaches, reserved, finishPlay]

section
variable (parameter : parClean (sreg (getCore s h.core.idx) f.sp.val) = true)
include parameter

theorem exec_blatch_of_half_down (down : halfUp s (scriptStack s p) = false) :
    exec (.blatch h f) s = .next (nextPlay (dropLatch s (scriptStack s p) p evTnsScriptUnavailable h.core.idx) h.core.idx) := by
  rw [exec, execBlatch, issue_runs s h _ runs]
  simp [script, operands, clean, group, fits, latches, rangeEnd_reaches reaches, parameter, down, finishPlay]

theorem exec_blatch_of_charged (up : halfUp s (scriptStack s p) = true)
    (allowed : coreMayCharge s h.core.idx p.table (scriptStack s p) (latchBytes d) = true) {fs : List LatchFlight} {s1 : State}
    (chunks : fs = latchChunks s h.core.idx (scriptStack s p) f.latch.val p (sreg (getCore s h.core.idx) f.sp.val) g d
      (readLocal s h.core.idx d))
    (charged : s1 = coreCharge s h.core.idx p.table (scriptStack s p) (latchBytes d)) :
    exec (.blatch h f) s = .next (nextPlay (modCore { s1 with latchFlight := s1.latchFlight ++ fs } h.core.idx
      fun c => { c with unperformed := c.unperformed + fs.length }) h.core.idx) := by
  subst chunks charged
  unfold latchBytes at allowed ⊢
  rw [exec, execBlatch, issue_runs s h _ runs]
  simp only [script, operands, clean, group, decide_eq_true fits, latches, Bool.and_true, Bool.not_true, Bool.false_eq_true,
    if_false, rangeEnd_reaches reaches, parameter, up, allowed, finishPlay]

end

end

/-! ### BISSUE -/

/-- A results descriptor that takes a script's results and that the play reaches lets the play go on. -/
theorem doutEnd_reaches {s : State} {n slot : Nat} {p : Script} (takes : ∃ d, takeOperands (getCore s n) [(slot, 0)] = .ok [d] ∧
    doutFits p d = true ∧ Reaches s n [d]) (ok : State → PlayEnd) : doutEnd s n p slot ok = ok s := by
  obtain ⟨d, operands, fits, reaches⟩ := takes
  unfold doutEnd
  rw [operands]
  exact (if_pos fits).trans (rangeEnd_reaches reaches ok)

section
variable {s : State} {h : PlayHdr} {f : FmtB} {p : Script} (runs : Runs s h) (script : playScript s h.core.idx f = some p)
  (takes : ∃ d, takeOperands (getCore s h.core.idx) [(f.dout.val, 0)] = .ok [d] ∧ doutFits p d = true ∧ Reaches s h.core.idx [d])
  (clean : sregBad (getCore s h.core.idx) f.sp.val = false)
include runs script takes clean

theorem exec_bissue_of_used (used : sget Ticket.free (getCore s h.core.idx).tickets f.ticket.val ≠ .free) :
    exec (.bissue h f) s = .next (coreFault s h.core.idx evTnsTicket 0 0) := by
  rw [exec, execBissue, issue_runs s h _ runs]
  simp [script, doutEnd_reaches takes, clean, used, bad, finishPlay]

section
variable (free : sget Ticket.free (getCore s h.core.idx).tickets f.ticket.val = .free)
include free

theorem exec_bissue_of_unperformed (owed : (getCore s h.core.idx).unperformed ≠ 0) :
    exec (.bissue h f) s = .next (coreWaits s h.core.idx .performed) := by
  rw [exec, execBissue, issue_runs s h _ runs]
  simp [script, doutEnd_reaches takes, clean, free, owed, finishPlay]

theorem exec_bissue_of_performed (performed : (getCore s h.core.idx).unperformed = 0) :
    exec (.bissue h f) s = .next (nextPlay (startScript s h.core.idx p f) h.core.idx) := by
  rw [exec, execBissue, issue_runs s h _ runs]
  simp [script, doutEnd_reaches takes, clean, free, performed, finishPlay]

end

end

/-! ### BAWAIT and BABORT -/

/-- The status goes to the register, the ticket is free, and the core goes on. -/
theorem finishPlay_takeStatus {s : State} {n : Nat} (ticket sd status : Nat) (running : (getCore s n).run = .running) :
    finishPlay n (takeStatus s n ticket sd status) = coreAt s n
      (withReg { getCore s n with tickets := sput Ticket.free (getCore s n).tickets ticket .free } sd (BitVec.ofNat 64 status) 0)
      ((getCore s n).pc + 1) := by
  have core := getCore_setCore_running s n
    { getCore s n with tickets := sput Ticket.free (getCore s n).tickets ticket .free } running
  rw [takeStatus, finishPlay, modCore, nextPlay_setSreg_clean (by rw [core]; exact running), core, coreAt,
    setCore_setCore_running _ _ _ _ (by exact running)]
  rfl

section
variable {s : State} {h : PlayHdr} {f : FmtB} (runs : Runs s h)
include runs

theorem exec_bawait_of_free (free : sget Ticket.free (getCore s h.core.idx).tickets f.ticket.val = .free) :
    exec (.bawait h f) s = .next (coreFault s h.core.idx evTnsTicket 0 0) := by
  rw [exec, execBawait, issue_runs s h _ runs]
  simp only [free, bad, finishPlay]

theorem exec_babort_of_free (free : sget Ticket.free (getCore s h.core.idx).tickets f.ticket.val = .free) :
    exec (.babort h f) s = .next (coreFault s h.core.idx evTnsTicket 0 0) := by
  rw [exec, execBabort, issue_runs s h _ runs]
  simp only [free, bad, finishPlay]

theorem exec_bawait_of_ended {st : Nat} (ended : sget Ticket.free (getCore s h.core.idx).tickets f.ticket.val = .ended st) :
    exec (.bawait h f) s = .next (finishPlay h.core.idx (takeStatus s h.core.idx f.ticket.val f.sd.val st)) := by
  rw [exec, execBawait, issue_runs s h _ runs]
  simp only [ended]

theorem exec_babort_of_ended {st : Nat} (ended : sget Ticket.free (getCore s h.core.idx).tickets f.ticket.val = .ended st) :
    exec (.babort h f) s = .next (finishPlay h.core.idx
      (takeStatus s h.core.idx f.ticket.val f.sd.val (if st = 0 then 2 else st))) := by
  rw [exec, execBabort, issue_runs s h _ runs]
  simp only [ended]

section
variable {stack : Nat} {g : BitVec 8} (busy : sget Ticket.free (getCore s h.core.idx).tickets f.ticket.val = .busy stack g)
include busy

theorem exec_bawait_of_busy : exec (.bawait h f) s = .next (coreWaits s h.core.idx (.ticket f.ticket.val)) := by
  rw [exec, execBawait, issue_runs s h _ runs]
  simp only [busy, finishPlay]

theorem exec_babort_of_busy {r : ScriptRun} (script : runAt (getStack s stack) (h.core.idx, f.ticket.val, g) = some r) :
    exec (.babort h f) s = .next (if r.abort then coreWaits s h.core.idx (.ticket f.ticket.val)
      else stopRun (coreWaits s h.core.idx (.ticket f.ticket.val)) stack r 1) := by
  have stack_kept : getStack (coreWaits s h.core.idx (.ticket f.ticket.val)) stack = getStack s stack := getStack_setCore ..
  rw [exec, execBabort, issue_runs s h _ runs]
  simp only [busy, stack_kept, script]
  split <;> rfl

end

end

/-- Settles O26. -/
theorem bankPlays : Obligations.BankPlays := by
  unfold Obligations.BankPlays
  refine ⟨?latch, ?issue, ?ended, ?busy⟩
  case latch =>
    rintro s h f p d g par k runs script operands clean rfl group fits latches reaches rfl
    exact ⟨exec_blatch_of_parameter runs script operands clean group fits latches reaches,
      exec_blatch_of_half_down runs script operands clean group fits latches reaches,
      fun parameter up allowed fs s1 => exec_blatch_of_charged runs script operands clean group fits latches reaches parameter up allowed⟩
  case issue =>
    exact fun s h f p runs script takes clean free =>
      ⟨exec_bissue_of_unperformed runs script takes clean free, exec_bissue_of_performed runs script takes clean free⟩
  case ended =>
    intro s h f st i v runs ended status
    rw [← finishPlay_takeStatus f.ticket.val f.sd.val v runs.run]
    rcases status with ⟨rfl, rfl⟩ | ⟨rfl, rfl⟩
    · exact exec_bawait_of_ended runs ended
    · exact exec_babort_of_ended runs ended
  case busy =>
    refine fun s h f stack g runs busy => ⟨exec_bawait_of_busy runs busy, fun r script aborted => ?_, fun r script running => ?_⟩
    · rw [exec_babort_of_busy runs busy script, if_pos aborted]
      rfl
    · rw [exec_babort_of_busy runs busy script, if_neg (by simp [running])]
      rfl

/-- Settles O27. -/
theorem ticketFaults : Obligations.TicketFaults := by
  unfold Obligations.TicketFaults
  exact ⟨fun s h f p runs script takes clean => exec_bissue_of_used runs script takes clean,
    fun s h f runs free => ⟨exec_bawait_of_free runs free, exec_babort_of_free runs free⟩⟩

end Sys2Proof.Machine
end

section
/-! PROOF. Accesses ordered at a home kitty (R182, R183, R185, R329, R330, R335, R386, Table 12.2). -/

namespace Sys2Proof.Machine

/-! ### What a charge leaves unchanged -/

/-- A charge takes from a regulator's level, and touches nothing else. -/
theorem chargeLine_eq_setReg_or_same (s : State) (line : Nat) :
    (∃ i r, chargeLine s line = setReg s i r) ∨ chargeLine s line = s := by
  unfold chargeLine
  split
  next =>
    unfold charge
    dsimp only
    split
    · exact .inl ⟨_, _, rfl⟩
    · exact .inr rfl
  next => exact .inr rfl

@[simp] theorem kittyGet_chargeLine (s : State) (line l : Nat) : kittyGet (chargeLine s line) l = kittyGet s l := by
  obtain ⟨i, r, charged⟩ | same := chargeLine_eq_setReg_or_same s line
  · rw [charged]
    rfl
  · rw [same]

@[simp] theorem lineCrossing_chargeLine (s : State) (line l : Nat) : lineCrossing (chargeLine s line) l = lineCrossing s l := by
  obtain ⟨i, r, charged⟩ | same := chargeLine_eq_setReg_or_same s line
  · rw [charged]
    rfl
  · rw [same]

/-! ### Lines that the kitty holds -/

section
variable {s : State} {line : Nat} {c : CLine} (copy : kittyGet s line = some c)
include copy

theorem fillLine_held (who : Consumer) : fillLine s who line = (s, true) := by
  rw [fillLine, copy, Option.isSome_some, if_pos rfl]

theorem fetchOutside_held (who : Consumer) (dist : Nat) : fetchOutside s who line dist = (s, some (c.data, c.poison)) := by
  simp [fetchOutside, fetchCtl, copy]

theorem fetchCharged_held (who : Consumer) : fetchCharged s who line = (s, some (c.data, c.poison)) := by
  rw [fetchCharged, copy, Option.isSome_some, Bool.true_or, if_pos rfl, fetchOutside_held copy]

end

/-! ### An access that has to call back no copy of the host -/

section
variable {s : State} {addr : Nat} (place : populated addr = true) (alone : hostHolds s (lineDpa (addr / 64)) = none)
include place alone

theorem exec_kittyAccess_core (n : Nat) (write : Option (List Byte)) (p : Bool) :
    exec (.kittyAccess (.core n) addr write p false) s = .next (coreAccess s n addr write p) := by
  rw [exec, execKittyAccess, place]
  simp [alone]

theorem exec_kittyAccess_other {who : Agent} (other : who = .firmware ∨ who = .cxl ∨ who = .fabric) (write : Option (List Byte))
    (p : Bool) : exec (.kittyAccess who addr write p false) s = .next (otherAccess s who addr write p) := by
  rw [exec, execKittyAccess, place]
  rcases other with rfl | rfl | rfl <;> simp [alone]

end

/-! ### Writes -/

/-- A core's write that covers a whole line needs room for it only where the kitty does not hold it. -/
theorem coreAccess_write_of_held {s : State} {addr : Nat} {c : CLine} (n : Nat) (bs : List Byte) (p : Bool)
    (on : kittyOn s (addr / 64) = true) (copy : kittyGet s (addr / 64) = some c) :
    coreAccess s n addr (some bs) p = kittySet s (addr / 64)
      (some (overlay c (patchLine 0 (addr % 64) bs) (accessMask addr bs.length) (poisonAll p) true)) := by
  have filled : (if accessMask addr bs.length = fullMask then (linesRoom s [addr / 64], true)
      else fillLine s (.core n) (addr / 64)) = (s, true) := by
    rw [linesRoom_held (by rw [copy]; rfl), fillLine_held copy, ite_self]
  simp only [coreAccess, on, Bool.not_true, Bool.false_eq_true, if_false, filled, if_true, copy, Option.getD_some]

section
variable {s : State} {e : WcbEntry}

theorem outsideWrite_of_held {c : CLine} (copy : kittyGet s e.line = some c) :
    outsideWrite s e = kittySet s e.line (some (overlay c e.data e.mask e.poison true)) := by
  rw [outsideWrite, copy]

theorem outsideWrite_of_missing (missing : kittyGet s e.line = none) : outsideWrite s e = enterWcb s e := by
  rw [outsideWrite, missing]

theorem chargedWrite_of_held (held : (kittyGet s e.line).isSome = true) : chargedWrite s e = outsideWrite s e := if_pos held

theorem chargedWrite_of_missing (missing : kittyGet s e.line = none) : chargedWrite s e =
    if lineCharges s e.line then enterWcb (chargeLine s e.line) e else waitCross s e.line 64 (.lineWrite e) := by
  rw [chargedWrite, missing, if_neg (by simp), sendLine]

end

section
variable {s : State} {who : Agent} {addr : Nat} {bs : List Byte} {p : Bool}

theorem otherAccess_write_of_held {c : CLine} (other : who = .firmware ∨ who = .cxl ∨ who = .fabric)
    (copy : kittyGet s (addr / 64) = some c) : otherAccess s who addr (some bs) p = kittySet s (addr / 64)
      (some (overlay c (patchLine 0 (addr % 64) bs) (accessMask addr bs.length) (poisonAll p) true)) := by
  have written : outsideWrite s (accessEntry addr bs p) = _ := outsideWrite_of_held copy
  have charged := (chargedWrite_of_held (s := s) (e := accessEntry addr bs p) (Option.isSome_of_eq_some copy)).trans written
  rcases other with rfl | rfl | rfl
  · exact charged
  · exact written
  · exact charged

theorem otherAccess_write_of_missing (charges : who = .firmware ∨ who = .fabric) (missing : kittyGet s (addr / 64) = none) :
    otherAccess s who addr (some bs) p =
      if lineCharges s (addr / 64) then enterWcb (chargeLine s (addr / 64)) (accessEntry addr bs p)
      else waitCross s (addr / 64) 64 (.lineWrite (accessEntry addr bs p)) := by
  have sent := chargedWrite_of_missing (s := s) (e := accessEntry addr bs p) missing
  rcases charges with rfl | rfl <;> exact sent

end

/-! ### Reads -/

/-- A read of a line that its kitty holds takes the copy. -/
theorem exec_kittyAccess_read_of_held {s : State} {who : Agent} {addr : Nat} {c : CLine} (place : populated addr = true)
    (alone : hostHolds s (lineDpa (addr / 64)) = none) (copy : kittyGet s (addr / 64) = some c) :
    exec (.kittyAccess who addr none false false) s = .next s := by
  cases who with
  | core n => rw [exec_kittyAccess_core place alone, coreAccess, fillLine_held copy, ite_self]
  | firmware => rw [exec_kittyAccess_other place alone (by simp), otherAccess, fetchCharged_held copy]; simp
  | cxl => rw [exec_kittyAccess_other place alone (by simp), otherAccess, fetchOutside_held copy]
  | fabric => rw [exec_kittyAccess_other place alone (by simp), otherAccess, fetchCharged_held copy]; simp

/-- A core's read that misses fills the kitty with what the stack's controller answers, charged to the owner of the line's region. -/
theorem fillLine_of_missing {s s1 : State} {n line : Nat} {v : Line × Bool} (missing : kittyGet s line = none)
    (crossed : lineCrossing s line = false) (charges : lineCharges s line = true)
    (served : readHeld (chargeLine s line) line = false) (answer : ctlRead (chargeLine s line) (.core n) line 0 = (s1, some v)) :
    fillLine s (.core n) line =
      (kittySet (linesRoom s1 [line]) line (some { data := v.1, poison := poisonAll v.2, dirty := false }), true) := by
  have fetched : fetchCharged s (.core n) line = (s1, some (v.1, poisonAll v.2)) := by
    simp [fetchCharged, fetchOutside, fetchCtl, chargedReader, missing, crossed, charges, served, answer]
  simp [fillLine, missing, fetched]

/-! ### The host's copy, atomics and parity -/

theorem exec_kittyAccess_of_host {s : State} {who : Agent} {addr : Nat} {write : Option (List Byte)} {p ex : Bool}
    (place : populated addr = true) (shared : hostHolds s (lineDpa (addr / 64)) = some ex)
    (calls : invalidates who write.isSome = true) : exec (.kittyAccess who addr write p false) s =
      .next (backInvalidate s (lineDpa (addr / 64)) (agentWaiter who addr write p)) := by
  rw [exec, execKittyAccess, place]
  simp [shared, calls]

theorem exec_kittyAtomic_of_held {s : State} {addr : Nat} {op : Fin 7} {x y : W64} {p : Bool} {c : CLine}
    (place : populated addr = true) (aligned : addr % atomBytes op.val = 0) (on : kittyOn s (addr / 64) = true)
    (alone : hostHolds s (lineDpa (addr / 64)) = none) (copy : kittyGet s (addr / 64) = some c) :
    exec (.kittyAtomic addr op x y p) s = .next (kittyAtom s addr op.val (x.toNat % 2 ^ (8 * atomBytes op.val))
      (y.toNat % 2 ^ (8 * atomBytes op.val)) p).1 := by
  rw [exec, execKittyAtomic, place, fillLine_held copy]
  simp [aligned, on, alone]

theorem kittyAtom_of_held {s : State} {addr op operand compare : Nat} {p : Bool} {c : CLine}
    (copy : kittyGet s (addr / 64) = some c) {k old : Nat} {bad : Bool} (size : k = atomBytes op)
    (value : old = fieldOf c.data.toNat (8 * (addr % 64)) (8 * k))
    (poisoned : bad = (p || bitOf c.poison.toNat (addr % 64 / 4) || (k = 8 && bitOf c.poison.toNat (addr % 64 / 4 + 1)))) :
    (kittyAtom s addr op operand compare p).1 =
      if bad then kittySet { s with freeNext := s.freeNext + 1 } (addr / 64)
        (some (patchC c (addr % 64) (leBytes k (Config.freeValue s.freeNext).toNat) true))
      else kittySet s (addr / 64) (some (patchC c (addr % 64) (leBytes k (atomResult op old operand compare)) false)) := by
  subst size value
  simp only [kittyAtom, copy, Option.getD_some, takeFree, ← poisoned]
  cases bad <;> rfl

/-- A read whose word fails its parity drops a clean line; a kitty without power does not read it again. -/
theorem exec_kittyAccess_of_parity {s : State} {n addr : Nat} {c : CLine} (place : populated addr = true)
    (alone : hostHolds s (lineDpa (addr / 64)) = none) (off : kittyOn s (addr / 64) = false)
    (copy : kittyGet s (addr / 64) = some c) (clean : c.dirty = false) :
    exec (.kittyAccess (.core n) addr none false true) s =
      .next (kittySet { s with pathReplays := satInc 0xFFFF s.pathReplays } (addr / 64) none) := by
  have dropped (t : Option Nat) (d : Detail) :
      kittyParity s addr t d = kittySet { s with pathReplays := satInc 0xFFFF s.pathReplays } (addr / 64) none := by
    simp [kittyParity, copy, clean]
  have alone' : hostHolds (kittySet { s with pathReplays := satInc 0xFFFF s.pathReplays } (addr / 64) none)
      (lineDpa (addr / 64)) = none := alone
  have off' : kittyOn (kittySet { s with pathReplays := satInc 0xFFFF s.pathReplays } (addr / 64) none) (addr / 64) = false := off
  rw [exec, execKittyAccess, place]
  simp [dropped, alone', off', coreAccess]

/-- Settles O28. -/
theorem kittyEvents : Obligations.KittyEvents := by
  unfold Obligations.KittyEvents
  refine ⟨?coreWrite, ?otherWrite, ?read, ?fill, ?host, ?atomic, ?parity⟩
  case coreWrite =>
    intro s n addr bs p c place alone on copy
    rw [exec_kittyAccess_core place alone, coreAccess_write_of_held n bs p on copy, poisonAll]
  case otherWrite =>
    intro s who addr bs p place alone other
    rw [exec_kittyAccess_other place alone other]
    have charges (charged : who ≠ .cxl) : who = .firmware ∨ who = .fabric := by simpa [charged] using other
    refine ⟨fun c copy => ?_, fun missing cxl => ?_, fun missing charged now => ?_, fun missing charged later => ?_⟩
    · rw [otherAccess_write_of_held other copy, poisonAll]
    · subst cxl
      exact congrArg Host.Outcome.next (outsideWrite_of_missing missing)
    · rw [otherAccess_write_of_missing (charges charged) missing, if_pos now]
    · rw [otherAccess_write_of_missing (charges charged) missing, if_neg (by simp [later])]
  case read => exact fun s who addr c => exec_kittyAccess_read_of_held
  case fill =>
    rintro s s1 n addr v place alone on missing crossed charges _ rfl served answer
    rw [exec_kittyAccess_core place alone, coreAccess, on, fillLine_of_missing missing crossed charges served answer]
    rfl
  case host => exact fun s who addr write p ex => exec_kittyAccess_of_host
  case atomic =>
    intro s addr op x y p c place aligned on alone copy
    dsimp only
    rw [exec_kittyAtomic_of_held place aligned on alone copy, kittyAtom_of_held copy rfl rfl rfl]
    exact ⟨fun sound => by rw [if_neg (by simp [sound])], fun poisoned => by rw [if_pos poisoned]⟩
  case parity => exact fun s n addr c => exec_kittyAccess_of_parity

end Sys2Proof.Machine
end

section
/-! PROOF. What a full-line write leaves in the array (R211, R212, R224, R387, R388, Table 7.2): the parts of a row lie apart, so
each is read back as it was written, and the parts of other lines and rows as they were. -/

namespace Sys2Proof.Machine

/-! ### Bytes of a number -/

theorem leNat_leBytes (n v : Nat) : leNat (leBytes n v) = v % 2 ^ (8 * n) := by
  induction n generalizing v with
  | zero => simp [leBytes, leNat, Nat.mod_one]
  | succ n ih =>
    have low : (BitVec.ofNat 8 v).toNat = v % 2 ^ 8 := BitVec.toNat_ofNat v 8
    rw [leBytes, leNat, ih, low, Nat.mul_succ, Nat.add_comm (8 * n), Nat.pow_add, Nat.mod_mul]

theorem length_bytesOfLine (l : Line) : (bytesOfLine l).length = 64 := length_leBytes 64 l.toNat

theorem lineOfBytes_bytesOfLine (l : Line) : lineOfBytes (bytesOfLine l) = l := by
  rw [lineOfBytes, bytesOfLine, leNat_leBytes, show 8 * 64 = 512 from rfl, Nat.mod_eq_of_lt l.isLt, BitVec.ofNat_toNat,
    BitVec.setWidth_eq]

theorem ofNat_leNat_leBytes (w : W32) : BitVec.ofNat 32 (leNat (leBytes 4 w.toNat)) = w := by
  rw [leNat_leBytes, show 8 * 4 = 32 from rfl, Nat.mod_eq_of_lt w.isLt, BitVec.ofNat_toNat, BitVec.setWidth_eq]

/-! ### Reads beside a write -/

theorem rdBytes_congr {m m' : Memory} {a n : Nat} (same : ∀ i < n, rdByte m (a + i) = rdByte m' (a + i)) :
    rdBytes m a n = rdBytes m' a n := by
  induction n generalizing a with
  | zero => rfl
  | succ n ih =>
    have first : rdByte m a = rdByte m' a := same 0 (Nat.succ_pos n)
    have later : rdBytes m (a + 1) n = rdBytes m' (a + 1) n := ih fun i hi => by
      have := same (i + 1) (Nat.succ_lt_succ hi)
      rwa [show a + 1 + i = a + (i + 1) by omega]
    rw [rdBytes, rdBytes, first, later]

theorem rdBytes_wrBytes_other {m : Memory} {a c n : Nat} {bs : List Byte} (apart : c + n ≤ a ∨ a + bs.length ≤ c) :
    rdBytes (wrBytes m a bs) c n = rdBytes m c n :=
  rdBytes_congr fun i hi => rdByte_wrBytes_other bs m a (c + i) (by omega)

theorem rdBytes_wrByte_other {m : Memory} {a c n : Nat} {b : Byte} (apart : a < c ∨ c + n ≤ a) :
    rdBytes (wrByte m a b) c n = rdBytes m c n :=
  rdBytes_congr fun i hi => rdByte_wrByte_other m a (c + i) b (by omega)

/-! ### Where the parts of a stored line lie in its row (Tables 7.1 and 7.2) -/

/-- A line lies in its own two columns or in one of the four spare pairs. -/
theorem lineOff_cases {k : Stack} {bank line : Nat} (pair : sget 0 k.columns (16 * bank + line) ≤ 4) :
    lineOff k bank line = 64 * line ∨ ∃ n < 4, lineOff k bank line = 1104 + 64 * n := by
  unfold lineOff
  split
  next => exact .inl rfl
  next n taken => exact .inr ⟨n, by omega, rfl⟩

/-- Both kinds of column leave the check area of the row free. -/
theorem lineOff_bounds {k : Stack} {bank line : Nat} (pair : sget 0 k.columns (16 * bank + line) ≤ 4) (inRow : line < 16) :
    lineOff k bank line + 64 ≤ 1024 ∨ 1104 ≤ lineOff k bank line ∧ lineOff k bank line + 64 ≤ rowBytes := by
  have size : rowBytes = 1360 := rfl
  obtain own | ⟨n, few, spare⟩ := lineOff_cases pair
  · omega
  · omega

/-- Lines that do not lie at one place do not overlap. -/
theorem lineOff_apart {k k' : Stack} {bank bank' line line' : Nat} (pair : sget 0 k.columns (16 * bank + line) ≤ 4)
    (pair' : sget 0 k'.columns (16 * bank' + line') ≤ 4) (inRow : line < 16) (inRow' : line' < 16)
    (ne : lineOff k bank line ≠ lineOff k' bank' line') :
    lineOff k bank line + 64 ≤ lineOff k' bank' line' ∨ lineOff k' bank' line' + 64 ≤ lineOff k bank line := by
  obtain own | ⟨n, few, spare⟩ := lineOff_cases pair <;> obtain own' | ⟨n', few', spare'⟩ := lineOff_cases pair'
  all_goals omega

/-- Rows start at multiples of their length. -/
theorem rowKey_apart {a b : Nat} (ne : a * rowBytes ≠ b * rowBytes) :
    a * rowBytes + rowBytes ≤ b * rowBytes ∨ b * rowBytes + rowBytes ≤ a * rowBytes := by
  unfold rowBytes at *
  omega

/-! ### A line that is written -/

section
variable {s : State} {p : Place} {r : RawLine}

@[simp] theorem getStack_writeRaw (n : Nat) : getStack (writeRaw s p r) n = getStack s n := by
  rw [getStack, getStack, writeRaw]

@[simp] theorem rowBase_writeRaw (stack bank row : Nat) : rowBase (writeRaw s p r) stack bank row = rowBase s stack bank row := by
  rw [rowBase, getStack_writeRaw, rowBase]

theorem writeRaw_array : (writeRaw s p r).array =
    wrByte (wrBytes (wrBytes s.array (rowBase s p.stack p.bank p.row + lineOff (getStack s p.stack) p.bank p.line) (bytesOfLine r.data))
      (rowBase s p.stack p.bank p.row + 1024 + 5 * p.line) (leBytes 4 r.check.toNat))
      (rowBase s p.stack p.bank p.row + 1028 + 5 * p.line) r.flags := by
  rw [writeRaw]

/-- A byte that lies in none of the three parts of the written line is as before. -/
theorem rdByte_writeRaw_other {c : Nat}
    (data : c < rowBase s p.stack p.bank p.row + lineOff (getStack s p.stack) p.bank p.line ∨
      rowBase s p.stack p.bank p.row + lineOff (getStack s p.stack) p.bank p.line + 64 ≤ c)
    (check : c < rowBase s p.stack p.bank p.row + 1024 + 5 * p.line ∨ rowBase s p.stack p.bank p.row + 1029 + 5 * p.line ≤ c) :
    rdByte (writeRaw s p r).array c = rdByte s.array c := by
  rw [writeRaw_array, rdByte_wrByte_other _ _ _ _ (by omega), rdByte_wrBytes_other _ _ _ _ (by rw [length_leBytes]; omega),
    rdByte_wrBytes_other _ _ _ _ (by rw [length_bytesOfLine]; omega)]

/-- The three parts of the written line lie apart, and each is read back. -/
theorem readRaw_writeRaw_same (form : s.arrayOk) (inRow : p.line < 16)
    (pair : sget 0 (getStack s p.stack).columns (16 * p.bank + p.line) ≤ 4) : readRaw (writeRaw s p r) p = r := by
  have form1 : memWf (wrBytes s.array (rowBase s p.stack p.bank p.row + lineOff (getStack s p.stack) p.bank p.line)
      (bytesOfLine r.data)) = true := memWf_wrBytes _ _ _ form
  have bounds := lineOff_bounds pair inRow
  have data := rdBytes_wrBytes (bytesOfLine r.data) s.array
    (rowBase s p.stack p.bank p.row + lineOff (getStack s p.stack) p.bank p.line) form
  have check := rdBytes_wrBytes (leBytes 4 r.check.toNat) _ (rowBase s p.stack p.bank p.row + 1024 + 5 * p.line) form1
  rw [length_bytesOfLine] at data
  rw [length_leBytes] at check
  simp only [readRaw, getStack_writeRaw, rowBase_writeRaw, writeRaw_array]
  rw [rdBytes_wrByte_other (by omega), rdBytes_wrBytes_other (by rw [length_leBytes]; omega), data,
    rdBytes_wrByte_other (by omega), check, lineOfBytes_bytesOfLine, ofNat_leNat_leBytes,
    rdByte_wrByte_same _ _ _ (memWf_wrBytes _ _ _ form1)]

/-- A line of another row, or one that lies in other columns of the same row, is as before. -/
theorem readRaw_writeRaw_other {q : Place} (inRow : p.line < 16) (inRow' : q.line < 16)
    (pair : sget 0 (getStack s p.stack).columns (16 * p.bank + p.line) ≤ 4)
    (pair' : sget 0 (getStack s q.stack).columns (16 * q.bank + q.line) ≤ 4)
    (apart : rowBase s q.stack q.bank q.row ≠ rowBase s p.stack p.bank p.row ∨
      rowBase s q.stack q.bank q.row = rowBase s p.stack p.bank p.row ∧ q.line ≠ p.line ∧
        lineOff (getStack s q.stack) q.bank q.line ≠ lineOff (getStack s p.stack) p.bank p.line) :
    readRaw (writeRaw s p r) q = readRaw s q := by
  have bounds := lineOff_bounds pair inRow
  have bounds' := lineOff_bounds pair' inRow'
  have places : (rowBase s q.stack q.bank q.row + rowBytes ≤ rowBase s p.stack p.bank p.row ∨
        rowBase s p.stack p.bank p.row + rowBytes ≤ rowBase s q.stack q.bank q.row) ∨
      rowBase s q.stack q.bank q.row = rowBase s p.stack p.bank p.row ∧ q.line ≠ p.line ∧
        (lineOff (getStack s q.stack) q.bank q.line + 64 ≤ lineOff (getStack s p.stack) p.bank p.line ∨
          lineOff (getStack s p.stack) p.bank p.line + 64 ≤ lineOff (getStack s q.stack) q.bank q.line) := by
    obtain rows | ⟨row, lines, columns⟩ := apart
    · exact .inl (rowKey_apart rows)
    · exact .inr ⟨row, lines, lineOff_apart pair' pair inRow' inRow columns⟩
  have size : rowBytes = 1360 := rfl
  have data : rdBytes (writeRaw s p r).array (rowBase s q.stack q.bank q.row + lineOff (getStack s q.stack) q.bank q.line) 64 =
      rdBytes s.array (rowBase s q.stack q.bank q.row + lineOff (getStack s q.stack) q.bank q.line) 64 :=
    rdBytes_congr fun i hi => rdByte_writeRaw_other (by omega) (by omega)
  have check : rdBytes (writeRaw s p r).array (rowBase s q.stack q.bank q.row + 1024 + 5 * q.line) 4 =
      rdBytes s.array (rowBase s q.stack q.bank q.row + 1024 + 5 * q.line) 4 :=
    rdBytes_congr fun i hi => rdByte_writeRaw_other (by omega) (by omega)
  have flags : rdByte (writeRaw s p r).array (rowBase s q.stack q.bank q.row + 1028 + 5 * q.line) =
      rdByte s.array (rowBase s q.stack q.bank q.row + 1028 + 5 * q.line) :=
    rdByte_writeRaw_other (by omega) (by omega)
  simp only [readRaw, getStack_writeRaw, rowBase_writeRaw, data, check, flags]

end

/-- Settles O31: the three parts of the written line lie apart from each other and from those of the other lines. -/
theorem writtenLineReadsBack : Obligations.WrittenLineReadsBack := by
  unfold Obligations.WrittenLineReadsBack
  intro s p q data poison form inRow inRow' pair pair'
  have back : readRaw (writeLine s p data poison) p =
      { data := data, check := lineCheck data, flags := if poison then 1 else 0 } := readRaw_writeRaw_same form inRow pair
  refine ⟨back, ?_, ?_, fun apart => readRaw_writeRaw_other inRow inRow' pair pair' apart⟩
  · rw [back]
    cases poison <;> simp [RawLine.pass]
  · rw [back]
    cases poison <;> rfl

end Sys2Proof.Machine
end

section
/-! PROOF. Lines that cross to and from a stack's controllers (R218 to R227, R242, R243, R504, R578). -/

namespace Sys2Proof.Machine

/-! ### LINE_READ -/

section
variable {s s1 : State} {who : Consumer} {addr dist line : Nat}

theorem serveRead_of_answer {v : Line × BitVec 16} (answer : fetchOutside s who line dist = (s1, some v)) :
    serveRead s who line dist = deliver s1 who line v := by
  rw [serveRead, answer]
  rfl

theorem exec_lineRead_of_allowed (place : populated addr = true)
    (allowed : chargedReader who = true → lineCharges s (addr / 64) = true) : exec (.lineRead who addr dist) s =
      .next (serveRead (if chargedReader who then chargeLine s (addr / 64) else s) who (addr / 64) dist) := by
  rw [exec, execLineRead, place]
  cases charged : chargedReader who
  · rfl
  · simp only [allowed charged, Bool.not_true, Bool.false_eq_true, if_false, if_true]

/-- A host read asks for no charge (R243). -/
theorem exec_lineRead_of_host (hpa : Nat) (place : populated addr = true) :
    exec (.lineRead (.host hpa) addr dist) s = .next (serveRead s (.host hpa) (addr / 64) dist) :=
  exec_lineRead_of_allowed place nofun

theorem exec_lineRead_of_waiting (place : populated addr = true) (charged : chargedReader who = true)
    (later : lineCharges s (addr / 64) = false) :
    exec (.lineRead who addr dist) s = .next (waitCross s (addr / 64) 64 (.lineRead who addr dist)) := by
  rw [exec, execLineRead, place, charged]
  simp only [later, Bool.not_true, Bool.false_eq_true, if_false]

theorem hostReply_of_clean {hpa : Nat} (data : Line) :
    hostReply s hpa line (data, 0) = { s with host := { s.host with out := s.host.out ++ [.memRsp hpa data false] } } := by
  rw [hostReply, if_neg (not_not.mpr rfl)]
  rfl

end

/-! ### LINE_WRITE -/

section
variable {s : State} {addr : Nat} {data : Line} {mask : BitVec 64} {p : Bool}

/-- The entry that a LINE_WRITE brings. -/
def writtenEntry (addr : Nat) (data : Line) (mask : BitVec 64) (p : Bool) : WcbEntry :=
  { line := addr / 64, data := data, mask := mask, poison := poisonAll p, sender := .none }

theorem exec_lineWrite (place : populated addr = true) :
    exec (.lineWrite addr data mask p) s = .next (sendLine s (writtenEntry addr data mask p)) := by
  rw [exec, execLineWrite, place]
  rfl

theorem sendLine_of_allowed {e : WcbEntry} (now : lineCharges s e.line = true) :
    sendLine s e = enterWcb (chargeLine s e.line) e := if_pos now

theorem sendLine_of_waiting {e : WcbEntry} (later : lineCharges s e.line = false) :
    sendLine s e = waitCross s e.line 64 (.lineWrite e) := if_neg (by simp [later])

/-- What waits to cross waits behind its table's pair with the stack. -/
theorem waitCross_of_owner {line t : Nat} (owner : lineOwner s line = some t) (n : Nat) (x : Xfer) : waitCross s line n x =
    { s with regWait := s.regWait ++ [(pairOf t (lineStack line), n, x)] } := by
  rw [waitCross, owner]
  rfl

theorem sendLine_of_no_owner {e : WcbEntry} (unowned : lineOwner s e.line = none) : sendLine s e = enterWcb s e := by
  simp [sendLine, lineCharges, chargeLine, unowned]

end

/-! ### A new entry of a buffer -/

/-- An entry as the buffer keeps it: one poison flag for the line, and no sender (R222, R226). -/
def bufferedEntry (e : WcbEntry) : WcbEntry := { e with poison := poisonAll (e.poison ≠ 0), sender := .none }

/-- A stack whose buffer has taken a further entry. -/
def withEntry (k : Stack) (e : WcbEntry) (draining : List Nat) : Stack := { k with wcb := k.wcb ++ [e], draining := draining }

theorem withEntry_ne_empty (k : Stack) (e : WcbEntry) (draining : List Nat) : withEntry k e draining ≠ Stack.empty := by
  intro same
  have buffer : k.wcb ++ [e] = [] := congrArg Stack.wcb same
  simp at buffer

theorem wcbEntry_withEntry {k : Stack} {e : WcbEntry} (draining : List Nat) (new : wcbEntry k e.line = none) :
    wcbEntry (withEntry k e draining) e.line = some e := by
  have none_before : k.wcb.find? (·.line = e.line) = none := new
  simp [wcbEntry, withEntry, List.find?_append, none_before]

theorem setStack_setStack {s : State} {n : Nat} {k : Stack} (k' : Stack) (ne : k ≠ Stack.empty) :
    setStack (setStack s n k) n k' = setStack s n k' := by
  rw [setStack, setStack, setStack, sput_sput_of_ne _ _ _ _ _ ne]

/-- A hold that is noted is a deadline, and touches nothing else. -/
theorem noteHold_eq (s : State) (n line : Nat) : ∃ ds, noteHold s n line = { s with deadlines := ds } := by
  unfold noteHold
  split
  · exact ⟨_, rfl⟩
  · exact ⟨s.deadlines, rfl⟩

theorem markDrains_eq (s : State) (n line : Nat) :
    ∃ draining, markDrains s n line = setStack s n { getStack s n with draining := draining } := ⟨_, rfl⟩

section
variable {s : State} {e : WcbEntry}

/-- A write to a line without an entry takes a free one; a hold that starts and a drain that begins are all that comes with it. -/
theorem enterNow_of_new (new : wcbEntry (getStack s (lineStack e.line)) e.line = none) : ∃ ds draining, enterNow s e =
    setStack { s with deadlines := ds } (lineStack e.line)
      (withEntry (getStack s (lineStack e.line)) (bufferedEntry e) draining) := by
  obtain ⟨ds, noted⟩ := noteHold_eq s (lineStack e.line) e.line
  have entered : enterNow s e = markDrains (setStack { s with deadlines := ds } (lineStack e.line)
      (withEntry (getStack s (lineStack e.line)) (bufferedEntry e) (getStack s (lineStack e.line)).draining))
      (lineStack e.line) e.line := by
    rw [enterNow, noted]
    exact congrArg (markDrains · _ _) (congrArg (setStack _ _) (if_neg (by
      change ¬ (wcbEntry (getStack s (lineStack e.line)) e.line).isSome = true
      simp [new])))
  obtain ⟨draining, marked⟩ := markDrains_eq (setStack { s with deadlines := ds } (lineStack e.line)
    (withEntry (getStack s (lineStack e.line)) (bufferedEntry e) (getStack s (lineStack e.line)).draining)) (lineStack e.line) e.line
  rw [entered, marked, getStack_setStack_of_ne _ _ _ (withEntry_ne_empty _ _ _), setStack_setStack _ (withEntry_ne_empty _ _ _)]
  exact ⟨ds, draining, rfl⟩

theorem enterWcb_of_free (crossing : lineCrossing s e.line = false) (sound : underRepair s e.line = false)
    (queued : lineQueued (getStack s (lineStack e.line)) e.line = false) (takes : wcbTakes s e.line = true) :
    enterWcb s e = enterNow s e := by
  simp [enterWcb, enterCtl, placeWrite, crossing, sound, queued, takes]

/-- A full entry of the buffer answers the next read of its line, before anything reaches the array (R227). -/
theorem ctlRead_of_full_entry {line : Nat} (who : Consumer) (fails : Nat) (sound : underRepair s line = false)
    (entry : wcbEntry (getStack s (lineStack line)) line = some e) (full : e.mask = fullMask) (plain : areaLine s line = none) :
    ctlRead s who line fails = (s, some (e.data, decide (e.poison ≠ 0))) := by
  have stored : ctlStored s who line fails = (s, some (e.data, decide (e.poison ≠ 0))) := by
    simp only [ctlStored, sound, entry, full, Bool.false_eq_true, if_false, if_true]
  rw [ctlRead, stored]
  simp only [plain, Option.map_some, Option.getD_none]

theorem poison_bufferedEntry (e : WcbEntry) : decide ((bufferedEntry e).poison ≠ 0) = decide (e.poison ≠ 0) := by
  simp only [bufferedEntry, poisonAll]
  split <;> simp_all

/-- A full line that has taken a new entry is what the next read of it gets, and the array is as it was. -/
theorem ctlRead_enterNow_of_new (who : Consumer) (fails : Nat) (new : wcbEntry (getStack s (lineStack e.line)) e.line = none)
    (sound : underRepair s e.line = false) (full : e.mask = fullMask) (plain : areaLine s e.line = none) :
    (enterNow s e).array = s.array ∧
      ctlRead (enterNow s e) who e.line fails = (enterNow s e, some (e.data, decide (e.poison ≠ 0))) := by
  obtain ⟨ds, draining, entered⟩ := enterNow_of_new new
  have stack : getStack (enterNow s e) (lineStack e.line) =
      withEntry (getStack s (lineStack e.line)) (bufferedEntry e) draining := by
    rw [entered, getStack_setStack_of_ne _ _ _ (withEntry_ne_empty _ _ _)]
  have sound' : underRepair (enterNow s e) e.line = false := by
    rw [underRepair, stack]
    exact sound
  have entry : wcbEntry (getStack (enterNow s e) (lineStack e.line)) e.line = some (bufferedEntry e) := by
    rw [stack]
    exact wcbEntry_withEntry draining new
  have plain' : areaLine (enterNow s e) e.line = none := by
    rw [entered]
    exact plain
  refine ⟨by rw [entered, setStack_array], ?_⟩
  rw [ctlRead_of_full_entry who fails sound' entry full plain', poison_bufferedEntry]
  rfl

end

/-! ### Drains -/

section
variable {s : State} {stack : Fin 8} {line : Nat} {e : WcbEntry}

theorem drainEntry_of_full (fails : Nat) (full : e.mask = fullMask) : drainEntry s e fails =
    clearUnrepaired (unrefuse (writeLine (openRow (modStack s (lineStack e.line) fun k => dropEntry k e.line)
      (linePlace s e.line).stack (linePlace s e.line).bank (linePlace s e.line).row) (linePlace s e.line) e.data
      (decide (e.poison ≠ 0))) e.line) e.line :=
  if_pos full

theorem line_of_wcbEntry {k : Stack} (entry : wcbEntry k line = some e) : e.line = line := by
  simpa using List.find?_some entry

theorem exec_wcbDrainDone_of_free (d : Nat) (entry : wcbEntry (getStack s stack.val) line = some e)
    (draining : (getStack s stack.val).draining.contains line = true) (free : drainHeld s line = false) :
    exec (.wcbDrainDone stack line d) s =
      .next (settleBi (pump (markDrains (drainEntry s e d) stack.val line) stack.val)) := by
  rw [exec, execWcbDrainDone, entry]
  exact if_neg (by rw [draining, free]; decide)

theorem exec_wcbDrainTimeout_of_resetting {t : State} (passed : t = expire s (.drain stack.val) 10000)
    (resetting : (getStack s stack.val).resetting = true) (still : (getStack t stack.val).resetting = true) :
    exec (.wcbDrainTimeout stack) s = .next (setStack t stack.val { getStack t stack.val with
      undrained := (getStack t stack.val).undrained ++ (getStack t stack.val).wcb.map (·.line), wcb := [], draining := [] }) := by
  subst passed
  rw [exec, execWcbDrainTimeout, if_pos resetting, modStack, if_pos still]

end

/-- Settles O32: each clause is one of the paths of a line above. -/
theorem lineTraffic : Obligations.LineTraffic := by
  unfold Obligations.LineTraffic
  refine ⟨?read, ?hostRead, ?write, ?buffered, ?waits, ?drain, ?timeout⟩
  case read =>
    intro s s1 who addr dist v place allowed answer
    rw [exec_lineRead_of_allowed place allowed, serveRead_of_answer answer]
  case hostRead =>
    intro s hpa addr dist c place copy clean
    rw [exec_lineRead_of_host hpa place, serveRead_of_answer (fetchOutside_held copy _ _), clean]
    exact congrArg Host.Outcome.next (hostReply_of_clean c.data)
  case write =>
    intro s addr data mask p place now
    rw [exec_lineWrite place, sendLine_of_allowed (e := writtenEntry addr data mask p) now]
    rfl
  case buffered =>
    intro s addr data p who f place unowned sound running new room queued crossing plain
    have takes : wcbTakes s (addr / 64) = true := by simp [wcbTakes, running, room]
    obtain ⟨array, answer⟩ := ctlRead_enterNow_of_new (e := writtenEntry addr data fullMask p) who f new sound rfl plain
    refine ⟨_, ?_, array, answer.trans ?_⟩
    · rw [exec_lineWrite place, sendLine_of_no_owner (e := writtenEntry addr data fullMask p) unowned,
        enterWcb_of_free (e := writtenEntry addr data fullMask p) crossing sound queued takes]
    · cases p <;> rfl
  case waits =>
    intro s addr t data mask p who dist place owner later
    refine ⟨?_, fun charged => ?_⟩
    · rw [exec_lineWrite place, sendLine_of_waiting (e := writtenEntry addr data mask p) later,
        waitCross_of_owner (line := (writtenEntry addr data mask p).line) owner]
      rfl
    · rw [exec_lineRead_of_waiting place charged later, waitCross_of_owner owner]
  case drain =>
    intro s stack line d e entry here draining free full t written
    obtain rfl := line_of_wcbEntry entry
    rw [exec_wcbDrainDone_of_free d entry draining free, drainEntry_of_full d full, here, written]
  case timeout => exact fun s t stack passed => exec_wcbDrainTimeout_of_resetting passed

end Sys2Proof.Machine
end

section
/-! PROOF. Refreshes of a stack's banks and writes that are held too long (R232 to R239, Table 7.8). -/

namespace Sys2Proof.Machine

/-! ### Refresh -/

section
variable {s : State} {n : Fin 8} {slot : Fin 24}

theorem exec_refreshDue_of_asleep (asleep : ∀ c, chanAsleep s n.val c = true) :
    exec (.refreshDue n slot) s = .next (setStack s n.val (getStack s n.val)) := by
  rw [exec, execRefreshDue, List.filter_eq_nil_iff.mpr fun b _ => by rw [asleep]; decide]
  rfl

theorem exec_refreshDue_of_awake (awake : (getStack s n.val).selfRefresh = false) :
    exec (.refreshDue n slot) s =
      .next (setStack s n.val (((List.range 32).map (32 * slot.val + ·)).foldl refreshBank (getStack s n.val))) := by
  rw [exec, execRefreshDue, List.filter_eq_self.mpr fun b _ => by simp [chanAsleep, awake]]
  rfl

theorem closeEarly_of_none {k : Stack} {bank : Nat} (closed : k.earlyOpens.any (·.bank = bank) = false) : closeEarly k bank = k := by
  have nothing : k.earlyOpens.find? (·.bank = bank) = none :=
    List.find?_eq_none.mpr (List.any_eq_false.mp closed)
  rw [closeEarly, nothing]

theorem refreshBank_of_idle {k : Stack} {bank : Nat} (rows : bankInRow k bank = false) (scrub : k.scrub.active.contains bank = false)
    (refresh : k.refreshing.contains bank = false) (early : k.earlyOpens.any (·.bank = bank) = false) :
    refreshBank k bank = { k with
      refreshing := k.refreshing ++ [bank],
      openRows := sput none (sput none k.openRows (2 * bank) none) (2 * bank + 1) none } := by
  rw [refreshBank, if_neg (by rw [rows, scrub, refresh]; decide), closeRows, closeEarly_of_none early]

theorem exec_refreshDone_of_refreshing {bank : Fin 768} (refresh : (getStack s n.val).refreshing.contains bank.val = true) :
    exec (.refreshDone n bank) s = .next (bankBoundary (setStack s n.val { getStack s n.val with
      refreshing := (getStack s n.val).refreshing.filter (· ≠ bank.val) }) n.val bank.val) :=
  if_pos refresh

end

/-! ### Writes held for the budget -/

section
variable {s : State} {n : Fin 8} {line : Nat}

theorem exec_writeHoldExpiry_of_open (other : (getStack s n.val).writeHold = false ∨ (getStack s n.val).refusedFull = true) :
    exec (.writeHoldExpiry n line) s = .next s := by
  refine if_pos ?_
  obtain opened | full := other
  · simp [opened]
  · simp [full]

variable (held : (getStack s n.val).writeHold = true) (room : (getStack s n.val).refusedFull = false) (here : lineStack line = n.val)
include held room here

/-- A write of the host, the fabric or a round area that waits for an entry goes first. -/
theorem exec_writeHoldExpiry_of_sender {w : Sender} (sender : heldSender (getStack s n.val) line = some w) {u : State}
    (refused : u = refuseSender (holdOver s n.val line) n.val w) :
    exec (.writeHoldExpiry n line) s = .next (bankBoundary u n.val (linePlace u line).bank) := by
  subst refused
  simp [exec, execWriteHoldExpiry, held, room, here, sender]

variable (noSender : heldSender (getStack s n.val) line = none)
include noSender

theorem exec_writeHoldExpiry_of_rewrite {w : HeldWrite}
    (rewrite : (getStack s n.val).heldWrites.find? (fun w => w.line = some line) = some w) {u : State}
    (refused : u = refuseHeld (holdOver s n.val line) n.val w line) :
    exec (.writeHoldExpiry n line) s = .next (bankBoundary u n.val (linePlace u line).bank) := by
  subst refused
  simp [exec, execWriteHoldExpiry, held, room, here, noSender, rewrite]

variable (noRewrite : (getStack s n.val).heldWrites.find? (fun w => w.line = some line) = none)
include noRewrite

theorem exec_writeHoldExpiry_of_entry (entry : (wcbEntry (getStack s n.val) line).isSome = true) {t u : State}
    (passed : t = holdOver s n.val line)
    (refused : u = refuseLine (setStack t n.val (dropEntry (getStack t n.val) line)) line) :
    exec (.writeHoldExpiry n line) s = .next (bankBoundary u n.val (linePlace u line).bank) := by
  subst passed refused
  obtain ⟨e, buffered⟩ := Option.isSome_iff_exists.mp entry
  simp [exec, execWriteHoldExpiry, held, room, here, noSender, noRewrite, buffered, modStack]

theorem exec_writeHoldExpiry_of_store (noEntry : wcbEntry (getStack s n.val) line = none) {r : ScriptRun} {b : Nat}
    (store : heldStore s line = some (r, b)) {u : State} (passed : u = expire s (.rowHold n.val b) (budgetOf s)) :
    exec (.writeHoldExpiry n line) s = .next (faultRun (logRefused u line) n.val r evTnsScriptWriteRefused
      (b % 32) (b / 32) (w32 (linePlace u line).row)) := by
  subst passed
  simp [exec, execWriteHoldExpiry, held, room, here, noSender, noRewrite, noEntry, store]

end

/-- Settles O33: the clauses on a held write follow the order in which the command looks for one. -/
theorem refreshAndHeldWrites : Obligations.RefreshAndHeldWrites := by
  unfold Obligations.RefreshAndHeldWrites
  refine ⟨fun s n slot => ⟨exec_refreshDue_of_asleep, exec_refreshDue_of_awake⟩, fun k bank => refreshBank_of_idle,
    fun s n bank => exec_refreshDone_of_refreshing, fun s n line => exec_writeHoldExpiry_of_open, ?_⟩
  intro s n line held room here t passed
  refine ⟨fun w sender u refused => ?_, fun noSender => ⟨fun w rewrite u refused => ?_, fun noRewrite =>
    ⟨fun entry u refused => ?_, fun noEntry r b store u expired => ?_⟩⟩⟩
  · exact exec_writeHoldExpiry_of_sender held room here sender (passed ▸ refused)
  · exact exec_writeHoldExpiry_of_rewrite held room here noSender rewrite (passed ▸ refused)
  · exact exec_writeHoldExpiry_of_entry held room here noSender noRewrite entry passed refused
  · exact exec_writeHoldExpiry_of_store held room here noSender noRewrite noEntry store expired

end Sys2Proof.Machine
end

section
/-! PROOF. The scrubber of a stack (R229, R287, R403 to R408, Table 12.11). -/

namespace Sys2Proof.Machine

/-! ### The row that the lap reads next -/

/-- A search from a number on finds the first that satisfies the test. -/
theorem searchFrom_eq_some {p : Nat → Bool} {n i k : Nat} (found : searchFrom p n i = some k) :
    p k = true ∧ i ≤ k ∧ ∀ q, i ≤ q → q < k → p q = false := by
  induction n generalizing i with
  | zero => cases found
  | succ n ih =>
    rw [searchFrom] at found
    split at found
    next here =>
      obtain rfl := Option.some.inj found
      exact ⟨here, Nat.le_refl i, fun q above below => absurd below (Nat.not_lt.mpr above)⟩
    next passed =>
      obtain ⟨holds, above, first⟩ := ih found
      refine ⟨holds, Nat.le_of_succ_le above, fun q from_i below => ?_⟩
      obtain rfl | later := Nat.eq_or_lt_of_le from_i
      · exact Bool.eq_false_iff.mpr passed
      · exact first q later below

theorem scrubRow_eq_some {s : State} {n bank row : Nat} (next : scrubRow s n bank = some row) :
    inRegions s n bank row = true ∧ sget 0 (getStack s n).scrub.cursors bank ≤ row ∧
      ∀ q, sget 0 (getStack s n).scrub.cursors bank ≤ q → q < row → inRegions s n bank q = false :=
  searchFrom_eq_some next

theorem endLap_of_read {s : State} {n ms : Nat} (running : (getStack s n).scrub.running = true)
    (all : (getStack s n).scrub.total ≤ (getStack s n).scrub.read)
    (duration : ms = ((getStack s n).meter.toNat - (getStack s n).scrub.start) / 100000) :
    endLap s n = startLap (modScrub (logGen s evIntScrubLapDone (uStack n) none [w32 ms] []) n fun c =>
      { c with laps := (c.laps + 1) % 4096, lastLap := ms }) n := by
  subst duration
  exact if_pos (by simp [running, all])

/-! ### The commands -/

section
variable {s : State} {n : Fin 8} {bank : Fin 768} (d : List (Nat × Nat))

theorem exec_scrubRowStart_of_idle (running : (getStack s n.val).scrub.running = true) (idle : bankIdle s n.val bank.val = true)
    (left : (scrubRow s n.val bank.val).isSome = true) : exec (.scrubRowStart n bank) s =
      .next (modScrub s n.val fun c => { c with active := c.active ++ [bank.val] }) :=
  if_pos (by simp [running, idle, left])

theorem exec_scrubRowStart_of_other (other : (getStack s n.val).scrub.running = false ∨ bankIdle s n.val bank.val = false ∨
    scrubRow s n.val bank.val = none) : exec (.scrubRowStart n bank) s = .next s := by
  refine if_neg fun starts => ?_
  obtain stopped | busy | done := other
  · simp [stopped] at starts
  · simp [busy] at starts
  · simp [done] at starts

theorem exec_trumpScrubDue_of_normal (normal : (getStack s n.val).scrub.trump = false) : exec (.trumpScrubDue n) s = .next s :=
  if_pos (by simp [normal])

theorem exec_trumpScrubDue_of_trump {bs : List Nat} (trump : (getStack s n.val).scrub.trump = true)
    (owing : bs = (List.range 768).filter fun b => (scrubRow s n.val b).isSome && !(getStack s n.val).scrub.active.contains b) :
    exec (.trumpScrubDue n) s = .next (bs.foldl (fun s b => if bankInRow (getStack s n.val) b then s else bankBoundary s n.val b)
      (modScrub s n.val fun c => { c with owed := bs })) := by
  rw [exec, execTrumpScrubDue, trump]
  simp only [Bool.not_true, Bool.false_eq_true, if_false, ← owing]

section
variable {s1 : State} (active : (getStack s n.val).scrub.active.contains bank.val = true)
  (freed : s1 = modScrub s n.val fun c => { c with active := c.active.filter (· ≠ bank.val) })
include active freed

theorem exec_scrubRowDone_of_no_row (done : scrubRow s1 n.val bank.val = none) :
    exec (.scrubRowDone n bank d) s = .next (bankBoundary s1 n.val bank.val) := by
  subst freed
  rw [exec, execScrubRowDone, active]
  simp only [Bool.not_true, Bool.false_eq_true, if_false, done]

theorem exec_scrubRowDone_of_row {row : Nat} (next : scrubRow s1 n.val bank.val = some row) :
    exec (.scrubRowDone n bank d) s = .next (bankBoundary (endLap
      (modScrub (scrubRead s1 n.val bank.val row d) n.val fun c =>
        { c with cursors := sput 0 c.cursors bank.val (row + 1), read := c.read + 1 }) n.val) n.val bank.val) := by
  subst freed
  rw [exec, execScrubRowDone, active]
  simp only [Bool.not_true, Bool.false_eq_true, if_false, next]

end

theorem exec_scrubLapTrumpCheck_of_behind (running : (getStack s n.val).scrub.running = true)
    (normal : (getStack s n.val).scrub.trump = false)
    (behind : 4 * (getStack s n.val).scrub.read < 3 * (getStack s n.val).scrub.total) : exec (.scrubLapTrumpCheck n) s =
      .next (logGen (modScrub s n.val fun c => { c with trump := true }) evIntScrubTrump (uStack n.val) none
        [w32 (coverage (getStack s n.val).scrub)] []) :=
  if_pos (by simp [running, normal, behind])

theorem exec_scrubLapTrumpCheck_of_other (other : (getStack s n.val).scrub.running = false ∨
    (getStack s n.val).scrub.trump = true ∨ 3 * (getStack s n.val).scrub.total ≤ 4 * (getStack s n.val).scrub.read) :
    exec (.scrubLapTrumpCheck n) s = .next s := by
  refine if_neg fun checks => ?_
  obtain stopped | trump | ahead := other
  · simp [stopped] at checks
  · simp [trump] at checks
  · simp [Nat.not_lt.mpr ahead] at checks

theorem exec_scrubLapDeadline_of_first (running : (getStack s n.val).scrub.running = true)
    (first : (getStack s n.val).scrub.late = false) : exec (.scrubLapDeadline n) s =
      .next (logGen (modScrub s n.val fun c => { c with late := true }) evIntScrubLapLate (uStack n.val) none
        [w32 (coverage (getStack s n.val).scrub)] []) :=
  if_pos (by simp [running, first])

theorem exec_scrubLapDeadline_of_other (other : (getStack s n.val).scrub.running = false ∨
    (getStack s n.val).scrub.late = true) : exec (.scrubLapDeadline n) s = .next s := by
  refine if_neg fun logs => ?_
  obtain stopped | late := other
  · simp [stopped] at logs
  · simp [late] at logs

end

/-- Settles O35: each clause is one command inside or outside its condition, or the search for the next row. -/
theorem scrubberEvents : Obligations.ScrubberEvents := by
  unfold Obligations.ScrubberEvents
  refine ⟨?start, ?trumpDue, ?rowDone, ?row, ?lap, ?timed⟩
  case start => exact fun s n bank => ⟨exec_scrubRowStart_of_idle, exec_scrubRowStart_of_other⟩
  case trumpDue => exact fun s n => ⟨exec_trumpScrubDue_of_normal, fun trump bs => exec_trumpScrubDue_of_trump trump⟩
  case rowDone =>
    exact fun s s1 n bank row d active freed =>
      ⟨exec_scrubRowDone_of_no_row d active freed, exec_scrubRowDone_of_row d active freed⟩
  case row => exact fun s n bank row => scrubRow_eq_some
  case lap => exact fun s n running all ms => endLap_of_read running all
  case timed =>
    exact fun s n => ⟨exec_scrubLapTrumpCheck_of_behind, exec_scrubLapTrumpCheck_of_other, exec_scrubLapDeadline_of_first,
      exec_scrubLapDeadline_of_other⟩

end Sys2Proof.Machine
end

section
/-! PROOF. Memory frames at their owner and at their requester (R226, R361 to R365, R394, R397, R447, R448, R510, Tables 7.10 and
11.8). -/

namespace Sys2Proof.Machine

/-! ### Requests that R362 and R363 serve -/

section
variable {s : State} {hdr : FrameHdr} {tag addr len : Nat} {c : RecClass} {r : Region}

/-- What a region has to be for a request, and what the request itself has to be. -/
theorem memRegion_eq_some (served : memRegion s hdr addr len c = some r) :
    r.owner = hdr.table ∧ r.cls = c ∧ addr + len ≤ r.base + r.size ∧ addr % 64 = 0 ∧ len % 64 = 0 ∧ 64 ≤ len ∧
      len ≤ 512 := by
  obtain ⟨g, -, tests⟩ := Option.bind_eq_some_iff.mp served
  obtain ⟨pass, same⟩ := Option.ite_none_right_eq_some.mp tests
  obtain rfl := Option.some.inj same
  simpa [memShape, and_assoc] using pass

theorem exec_memRead_of_region (p : Fin 12) (region : memRegion s hdr addr len .source = some r) {n : Nat}
    (bytes : n = 64 * (((List.range (len / 64)).map (addr / 64 + ·)).filter fun l => (kittyGet s l).isNone).length) :
    exec (.memRead p hdr tag addr len) s = .next (if n = 0 ∨ canCharge s r.owner (addrStack addr) n = true then
        answerRead (charge s r.owner (addrStack addr) n) hdr.src tag addr len hdr.gen 0
      else waitCharge s r.owner (addrStack addr) n (.lineRead (.fabric hdr.src tag addr len hdr.gen) addr 0)) := by
  rw [exec, execMemRead, takeMemRead, region]
  simp only [rangeFrom, ← bytes, Bool.or_eq_true, decide_eq_true_eq]

theorem exec_memRead_of_denied (p : Fin 12) (denied : memRegion s hdr addr len .source = none) :
    exec (.memRead p hdr tag addr len) s = .next (denyMem s (some p.val) hdr (.memData tag 2 [] [])) := by
  rw [exec, execMemRead, takeMemRead, denied]

theorem exec_memWrite_of_denied (p : Fin 12) {data : List Byte} (mask : List Bool)
    (denied : memRegion s hdr addr data.length .recompute = none) :
    exec (.memWrite p hdr tag addr data mask) s = .next (denyMem s (some p.val) hdr (.memAck tag 2)) := by
  rw [exec, execMemWrite, takeMemWrite, denied, Option.filter_none]

/-- A write of one line is one entry. -/
theorem memWrites_of_line {data : List Byte} (mask : List Bool) (line : data.length = 64) : memWrites hdr tag addr data mask =
    [{ line := addr / 64, data := lineOfBytes data, mask := fullMask, poison := if hdr.poison then wordMask (mask.take 16) else 0,
       sender := .fabric hdr.src tag hdr.gen }] := by
  have all : data.take 64 = data := List.take_of_length_le (Nat.le_of_eq line)
  simp [memWrites, line, all]

theorem exec_memWrite_of_line (p : Fin 12) {data : List Byte} {mask : List Bool} {e : WcbEntry}
    (region : memRegion s hdr addr 64 .recompute = some r) (owned : r.hostShared = false) (line : data.length = 64)
    (entry : e = {
      line := addr / 64, data := lineOfBytes data, mask := fullMask, poison := if hdr.poison then wordMask (mask.take 16) else 0,
      sender := .fabric hdr.src tag hdr.gen }) :
    exec (.memWrite p hdr tag addr data mask) s = .next (answerSender
      (if (hostHolds s (lineDpa (addr / 64))).isSome then backInvalidate s (lineDpa (addr / 64)) (.write e) else chargedWrite s e)
      (.fabric hdr.src tag hdr.gen)) := by
  subst entry
  rw [exec, execMemWrite, takeMemWrite, line, region, Option.filter_some, owned, memWrites_of_line mask line]
  rfl

end

/-! ### Answers to this module's requests -/

section
variable {s : State} {hdr : FrameHdr} {tag d : Nat} {data : List Byte} (mask : List Bool)

theorem exec_memData_of_unknown (st : Nat) (unknown : takeFirst (fun e : Nat × Nat => e = (hdr.src, tag)) s.fabTags = none) :
    exec (.memData hdr tag st data mask d) s = .next s := by
  rw [exec, execMemData, takeMemData, unknown]

theorem exec_memAck_of_unknown (st : Nat) (unknown : takeFirst (fun e : Nat × Nat => e = (hdr.src, tag)) s.fabTags = none) :
    exec (.memAck hdr tag st) s = .next s := by
  rw [exec, execMemAck, takeMemAck, unknown]

variable {s1 : State} {x : Nat × Nat} {rest : List (Nat × Nat)}
  (known : takeFirst (fun e : Nat × Nat => e = (hdr.src, tag)) s.fabTags = some (x, rest)) (taken : s1 = { s with fabTags := rest })
include known taken

theorem exec_memData_of_other_gen (st : Nat) (other : hdr.gen ≠ s.gen) :
    exec (.memData hdr tag st data mask d) s = .next (fetchAgain (lateDrop s1) hdr.src tag) := by
  subst taken
  rw [exec, execMemData, takeMemData, known]
  exact congrArg Host.Outcome.next (if_pos other)

theorem exec_memData_of_repair {r : Repair} (repair : repairOfTag s1 hdr.src tag = some r) (current : hdr.gen = s.gen) :
    exec (.memData hdr tag 0 data mask d) s = .next (if hdr.poison = false ∧ data.length = 64 then
      repairLine s1 r.line (lineOfBytes data) d else unreachable s1 r.line) := by
  subst taken
  simp [exec, execMemData, takeMemData, known, current, repair]

theorem exec_memAck_of_job {st : Nat} {j j1 : PrefillJob} {mine : Nat × Nat × Nat × Nat × Nat → Bool}
    (own : mine = fun a => decide (a.1 = tag) && decide (a.2.2.2.2 = hdr.src))
    (job : (s.cache.jobs.find? fun j => j.acks.any mine) = some j) (current : hdr.gen = s.gen)
    (acked : j1 = { j with acks := j.acks.filter fun a => !mine a, failed := j.failed || decide (st ≠ 0) }) :
    exec (.memAck hdr tag st) s = .next (partShipped (modJob s1 j.session fun _ => j1) j1) := by
  subst taken own acked
  rw [exec, execMemAck, takeMemAck, known]
  simp [job, current]

end

/-! ### The end of this module's part of a job -/

section
variable {s : State} {j : PrefillJob}

theorem partShipped_of_unfinished (more : j.shipping = false ∨ j.acks ≠ []) : partShipped s j = s := by
  obtain early | owed := more
  · simp [partShipped, early]
  · simp [partShipped, owed]

theorem partShipped_of_last {d : Deck} (deck : deckOf s = some d) (shipping : j.shipping = true) (last : j.acks = []) :
    partShipped s j = if isDealer s then jobResult s j.session (ownIndex s) (!j.failed)
      else sendFrame s (dealerIndex s d) j.table (.serving (doneMsg s j (!j.failed))) := by
  simp [partShipped, shipping, last, deck]

end

/-- Settles O40: a request is served or denied by `memRegion`, and a reply by what is outstanding. -/
theorem memoryFrames : Obligations.MemoryFrames := by
  unfold Obligations.MemoryFrames
  refine ⟨?read, ?region, ?denied, ?write, ?unknown, ?reply, ?acknowledgement, ?shipped⟩
  case read =>
    intro s p hdr tag addr len r region n bytes
    rw [exec_memRead_of_region p region bytes]
    exact ⟨fun now => by rw [if_pos now], fun some_bytes later => by rw [if_neg (by simp [some_bytes, later])]⟩
  case region => exact fun s hdr addr len c r => memRegion_eq_some
  case denied => exact fun s p hdr tag addr len data mask => ⟨exec_memRead_of_denied p, exec_memWrite_of_denied p mask⟩
  case write =>
    intro s p hdr tag addr data mask r e region owned line entry
    have same : e.line = addr / 64 := by rw [entry]
    rw [exec_memWrite_of_line p region owned line entry]
    refine ⟨fun held => by rw [if_pos held], fun alone copy => ?_, fun alone missing now => ?_⟩
    · rw [if_neg (by simp [alone]), chargedWrite_of_held (by rw [same, copy])]
    · rw [if_neg (by simp [alone]), chargedWrite_of_missing (by rw [same, missing]), same, if_pos now]
  case unknown =>
    exact fun s hdr tag st d data mask unknown => ⟨exec_memData_of_unknown mask st unknown, exec_memAck_of_unknown st unknown⟩
  case reply =>
    intro s s1 hdr tag d data mask x rest r known taken repair
    refine ⟨fun current clean line => ?_, fun current bad => ?_, fun st => exec_memData_of_other_gen mask known taken st⟩
    · rw [exec_memData_of_repair mask known taken repair current, if_pos ⟨clean, line⟩]
    · rw [exec_memData_of_repair mask known taken repair current, if_neg]
      rintro ⟨clean, line⟩
      simp [clean, line] at bad
  case acknowledgement =>
    intro s s1 hdr tag st x rest j j1 mine own known taken job current acked
    exact exec_memAck_of_job known taken own job current acked
  case shipped =>
    intro s j d deck
    refine ⟨partShipped_of_unfinished, fun shipping last => ?_⟩
    rw [partShipped_of_last deck shipping last]
    exact ⟨fun dealer => if_pos dealer, fun member => if_neg (by simp [member])⟩

end Sys2Proof.Machine
end

section
/-! PROOF. Which commands stop (R214, R595, R612): every other one answers a next state, whichever of its branches it takes. -/

namespace Sys2Proof.Machine

/-- The outcome is a next state. -/
def Answers (o : Out) : Prop := ∃ t, o = .next t

theorem answers_next (t : State) : Answers (.next t) := ⟨t, rfl⟩

theorem answers_ite (c : Prop) [Decidable c] (a b : Out) :
    Answers (if c then a else b) ↔ if c then Answers a else Answers b := by
  split <;> rfl

/-! ### Plays -/

/-- Whatever a play meets on its way to its body (R146, R150, R386), it is an effect on the state. -/
theorem answers_issueWith (s : State) (h : PlayHdr) (skipped body : State → Nat → PlayEnd) :
    Answers (issueWith s h skipped body) := by
  simp only [issueWith, answers_ite, answers_next, ite_self]

theorem answers_exec_of_play {i : Instr} {h : PlayHdr} (play : playHdr i = some h) (s : State) : Answers (exec i s) := by
  obtain ⟨skipped, body, gate, -⟩ := exec_of_play play
  rw [gate]
  exact answers_issueWith s h skipped body

/-! ### Events, messages and host commands -/

/-- Once the plays and the five commands that can stop are set aside, most are one update of the state. The others choose among
updates: by tests, which `answers_ite` goes through, or by a match, which is split into its cases. -/
theorem answers_exec_of_no_play {i : Instr} (noPlay : playHdr i = none) (runs : canStop i = false) (s : State) :
    Answers (exec i s) := by
  cases i
  all_goals cases noPlay
  all_goals cases runs
  any_goals exact answers_next _
  all_goals simp only [exec, answers_next, answers_ite, ite_self,
    execLocalTrickArrive, execLocalTrickRelease, execOnDiePushLanding, execOnDieCreditReturn, execPathTransferReceive,
    execWcbDrainDone, execRefreshDone, execWriteHoldExpiry, execLatchWrite, execScriptOperationStart, execRowOperationDone,
    execExchangeBusTransferDone, execBankResultDelivery, execScrubRowStart, execTrumpScrubDue, execScrubRowDone,
    execScrubLapTrumpCheck, execScrubLapDeadline, execSourceRepairReport, execSourceFetchTimeout, execFlitReceive,
    execTrainStepDone, execTrainStepTimeout, execSwitchLoadDone, execSwitchGatherTimeout, execProbeTimer, execAbortReqTimeout,
    execMemberReadyTimeout, execRoundBudgetExpiry, execRoundStall, execRepairWindowPeriod, execWatchWake, execWatchWakeService,
    execD2hCompletion, execPauseTtlExpiry, execTreeRebuildStep, execUioCompletion, execUioTimeout, execMemRd, execMemWr, execBirspi,
    execBisnpinvTimeout, execSnpinv, execSnpdata, execBar0AccessInvalid, execPartnerViolation, execHdmDecoderCommit, execCxlLinkUp,
    execIdeKeyProg, execKeySetGo, execKeySetStop, execDeckStageReadCompletion, execDeckVerifyDone, execDeckArmBuildDone,
    execPoolFillDone, execFuseWrite, execTelMeterLoRead, execRglWrite, execThermLimitCtlWrite, execPwrDomainSetpointWrite,
    execRegisterWrite, execRegulatorRefillTick, execPaceUpdate, execControlBeat, execHeartbeatCheck, execMgmtBeat,
    execMgmtWatchdogExpiry, execDiodeSample, execThermalTrip, execInputPowerApplied, execInputLow, execRefclkLost,
    execRefclkRestored, execDomainInRegulation, execDomainRegulationTimeout, execBootFwVerified, execSelftestComplete,
    execRecoveryDone, execStandbyImageReady, execStandbyLoadTimeout, execFwProbationExpiry, execOldActiveReloaded,
    execInputExcursionEnd, execDomainFailureDetected, execPlayIllegal]
  all_goals repeat' split
  all_goals simp only [answers_next]

/-! ### The four accesses -/

theorem populated_iff {a : Nat} : populated a = true ↔ a < 2 ^ 39 ∧ addrOffset a < 0x900000000 := by
  simp only [populated, Bool.and_eq_true, decide_eq_true_eq]

/-- The four commands that name a device address of their own. -/
def accessAddr : Instr → Option Nat
  | .lineRead _ a _ => some a
  | .lineWrite a _ _ _ => some a
  | .kittyAccess _ a _ _ _ => some a
  | .kittyAtomic a _ _ _ _ => some a
  | _ => none

theorem answers_exec_of_populated {i : Instr} {a : Nat} (access : accessAddr i = some a) (place : populated a = true) (s : State) :
    Answers (exec i s) := by
  cases i
  all_goals cases access
  case kittyAccess who write poison parity =>
    cases who <;> simp only [exec, execKittyAccess, place, answers_ite, answers_next, ite_self, Bool.not_true,
      Bool.false_eq_true, if_false]
  all_goals simp only [exec, execLineRead, execLineWrite, execKittyAtomic, place, answers_ite, answers_next, ite_self, Bool.not_true,
      Bool.false_eq_true, if_false]

theorem exec_of_unpopulated {i : Instr} {a : Nat} (access : accessAddr i = some a) (nowhere : populated a = false) (s : State) :
    exec i s = .fault .noSuchLine := by
  cases i
  all_goals cases access
  all_goals simp only [exec, execLineRead, execLineWrite, execKittyAccess, execKittyAtomic, nowhere, Bool.not_false, if_true]

/-! ### The test access port -/

theorem exec_testAccessPort_of_known {ir : Nat} (known : ir < 5) (s : State) :
    exec (.testAccessPortInstruction ir) s = .next { s with sec := { s.sec with tap := ir } } :=
  if_pos known

theorem exec_testAccessPort_of_other {ir : Nat} (other : 5 ≤ ir) (s : State) :
    exec (.testAccessPortInstruction ir) s =
      if s.sec.debug = 0 then .next { s with sec := { s.sec with tap := 0 } } else .refused .debugInstructionUnspecified :=
  if_neg (Nat.not_lt.mpr other)

/-- Settles O60: a play answers through its gate, any other command in each of its branches. -/
theorem onlyTheseStop : Obligations.OnlyTheseStop := by
  unfold Obligations.OnlyTheseStop
  refine ⟨fun i s runs => ?_, fun s a who ag k data mask p q w op x y i access => ?_,
    fun s ir => ⟨fun known => ?_, fun other production => ?_, fun other opened => ?_⟩⟩
  · cases play : playHdr i with
    | some h => exact answers_exec_of_play play s
    | none => exact answers_exec_of_no_play play runs s
  · have names : accessAddr i = some a := by
      simp only [List.mem_cons, List.not_mem_nil, or_false] at access
      obtain rfl | rfl | rfl | rfl := access <;> rfl
    refine ⟨fun low within => answers_exec_of_populated names (populated_iff.mpr ⟨low, within⟩) s, fun outside => ?_⟩
    refine exec_of_unpopulated names (Bool.eq_false_iff.mpr fun place => ?_) s
    obtain ⟨low, within⟩ := populated_iff.mp place
    omega
  · exact exec_testAccessPort_of_known known s
  · rw [exec_testAccessPort_of_other other, if_pos production]
  · rw [exec_testAccessPort_of_other other, if_neg opened]

end Sys2Proof.Machine
end

section
/-! PROOF. What a state at power-up holds (R46, R257, R301, R418, R431, Tables 12.11, 14.5, 15.4, 16.9, 17.8): no store lists anything,
so that every part reads as its default. -/

namespace Sys2Proof.Machine

@[simp] theorem getStack_reset (n : Nat) : getStack State.reset n = Stack.empty := sget_nil ..
@[simp] theorem getTrick_reset (n : Nat) : getTrick State.reset n = Trick.empty := sget_nil ..
@[simp] theorem getChan_reset (n : Nat) : getChan State.reset n = Channel.free := sget_nil ..
@[simp] theorem getSess_reset (n : Nat) : getSess State.reset n = Session.free := sget_nil ..
@[simp] theorem getDomain_reset (n : Nat) : getDomain State.reset n = Domain.off := sget_nil ..
theorem getPin_reset (n : Nat) : sget Pin.free State.reset.cache.pins n = Pin.free := sget_nil ..
theorem getLatch_reset (n k : Nat) : sget Latch.empty (getStack State.reset n).latches k = Latch.empty := by
  rw [getStack_reset]
  exact sget_nil ..
theorem arrayOk_reset : State.reset.arrayOk := rfl

/-- Settles O3: each clause on the parts of a kind is a field of that kind's default. -/
theorem powerUpState : Obligations.PowerUpState := by
  unfold Obligations.PowerUpState
  refine ⟨rfl, rfl, arrayOk_reset, rfl, rfl, rfl, rfl, fun n => ?stack, fun n => ?trick, fun n => ?chan, fun n => ?sess,
    fun n => ?pin, fun n k => ?latch, fun n => ?domain⟩
  case stack => rw [getStack_reset]; exact ⟨rfl, rfl⟩
  case trick => rw [getTrick_reset]; exact ⟨rfl, rfl⟩
  case chan => rw [getChan_reset]; exact ⟨rfl, rfl⟩
  case sess => rw [getSess_reset]; exact ⟨rfl, rfl⟩
  case pin => rw [getPin_reset]; exact ⟨rfl, rfl⟩
  case latch => rw [getLatch_reset]; rfl
  case domain => rw [getDomain_reset]; exact ⟨rfl, rfl⟩

end Sys2Proof.Machine
end

section
/-! PROOF. Bank scripts between their issue and their end (R255, R256, R258, R263, R264, R266, R281, R284, R286, R287, R292, R294, R295):
chunks that reach their latches, operations that start, permits, row operations that end, the exchange bus and results. -/

namespace Sys2Proof.Machine

/-- What a queue gives out is one of its elements that satisfies the test. -/
theorem takeFirst_eq_some {α : Type} {p : α → Bool} {l rest : List α} {a : α} (taken : takeFirst p l = some (a, rest)) :
    p a = true ∧ a ∈ l := by
  induction l generalizing rest with
  | nil => cases taken
  | cons b l ih =>
    rw [takeFirst] at taken
    split at taken
    next first =>
      obtain ⟨rfl, rfl⟩ := Prod.mk.inj (Option.some.inj taken)
      exact ⟨first, List.mem_cons_self⟩
    next passed =>
      split at taken
      next => cases taken
      next c q later =>
        obtain ⟨rfl, rfl⟩ := Prod.mk.inj (Option.some.inj taken)
        obtain ⟨holds, member⟩ := ih later
        exact ⟨holds, List.mem_cons_of_mem b member⟩

/-! ### LATCH_WRITE -/

section
variable {s : State} {n : Fin 8} {bank : Fin 768} {f : LatchFlight} {rest : List LatchFlight}
  (oldest : takeFirst (fun f : LatchFlight => f.stack = n.val && f.bank = bank.val) s.latchFlight = some (f, rest))
include oldest

theorem exec_latchWrite_of_free (up : halfUp s f.stack = true) (free : latchBusy s f.stack f.bank f.latch = false) :
    exec (.latchWrite n bank) s = .next (earlyOpen (performWrites
      (setStack { s with latchFlight := rest } f.stack { getStack s f.stack with
        latches := sput Latch.empty (getStack s f.stack).latches (4 * f.bank + f.latch) f.content }) f.core 1) f) := by
  simp only [exec, execLatchWrite, oldest, up, free, Bool.not_true, Bool.false_eq_true, if_false]
  rfl

theorem exec_latchWrite_of_busy (up : halfUp s f.stack = true) (busy : latchBusy s f.stack f.bank f.latch = true) :
    exec (.latchWrite n bank) s = .next s := by
  simp only [exec, execLatchWrite, oldest, up, busy, Bool.not_true, Bool.false_eq_true, if_false, if_true]

theorem exec_latchWrite_of_half_down (down : halfUp s f.stack = false) {p : LatchFlight → Bool}
    (same : p = fun g => decide (g.id = f.id)) :
    exec (.latchWrite n bank) s = .next (performWrites
      (dropLatch { s with latchFlight := s.latchFlight.filter fun g => !p g } f.stack f.card evTnsScriptUnavailable
        (f.core % 4096)) f.core (s.latchFlight.filter p).length) := by
  subst same
  simp only [exec, execLatchWrite, oldest, down, Bool.not_false, if_true]

end

/-! ### SCRIPT_OPERATION_START -/

/-- An operation that is no LGROUP is not passed over. -/
theorem skipGroups_of_operation {ops : List ScriptOp} {i : Nat} {o : ScriptOp} (stands : ops[i]? = some o) (operation : o.op ≠ 1) :
    skipGroups ops i = i := by
  obtain ⟨inside, rfl⟩ := List.getElem?_eq_some_iff.mp stands
  rw [skipGroups, List.drop_eq_getElem_cons inside, List.takeWhile_cons_of_neg (by simpa using operation)]
  rfl

/-- What the controller does with the operation at which a run stands, once the host holds no line of its regions (R263, R264, R292). -/
def startOperation (s : State) (n : Nat) (r : ScriptRun) (o : ScriptOp) : State :=
  if o.op = 0 then completeRun s n (runKey r)
  else
    match opRefusal s n r o with
    | some e => faultRun s n r e.1 (e.2.1 % 32) (e.2.1 / 32) (w32 e.2.2)
    | none =>
      startWaiting false n ((banksOf o).map fun b => (runKey r, b)) ((getStack s n).permitWait.map (·.2))
        (setStack s n { modRun (getStack s n) (runKey r)
            (fun _ => { r with active := true, banks := (banksOf o).map newBank }) with
          permitWait := (getStack s n).permitWait ++ (banksOf o).map fun b => (runKey r, b) })

section
variable {s : State} {n : Nat} {r : ScriptRun} {o : ScriptOp}

theorem startOperation_of_end (ends : o.op = 0) : startOperation s n r o = completeRun s n (runKey r) := if_pos ends

theorem startOperation_of_refusal {e : Ev × Nat × Nat} (more : o.op ≠ 0) (refusal : opRefusal s n r o = some e) :
    startOperation s n r o = faultRun s n r e.1 (e.2.1 % 32) (e.2.1 / 32) (w32 e.2.2) := by
  rw [startOperation, if_neg more, refusal]

theorem startOperation_of_passed (more : o.op ≠ 0) (passes : opRefusal s n r o = none) : startOperation s n r o =
    startWaiting false n ((banksOf o).map fun b => (runKey r, b)) ((getStack s n).permitWait.map (·.2))
      (setStack s n { modRun (getStack s n) (runKey r)
          (fun _ => { r with active := true, banks := (banksOf o).map newBank }) with
        permitWait := (getStack s n).permitWait ++ (banksOf o).map fun b => (runKey r, b) }) := by
  rw [startOperation, if_neg more, passes]

end

theorem exec_scriptOperationStart_of_idle {s s1 : State} {n : Fin 8} {core : CoreId} {ticket : Fin 4} {r : ScriptRun} {o : ScriptOp}
    (run : runOf (getStack s n.val) core.idx ticket.val = some r) (idle : r.active = false) (goes_on : r.abort = false)
    (unheld : heldByHost s r = []) (stands : r.card.ops[r.opIdx]? = some o) (operation : o.op ≠ 1)
    (same : s1 = setStack s n.val (modRun (getStack s n.val) (runKey r) fun _ => r)) :
    exec (.scriptOperationStart n core ticket) s = .next (startOperation s1 n.val r o) := by
  subst same
  have guard : ¬(r.active || r.abort) = true := by simp [idle, goes_on]
  have none_held : ¬(!(heldByHost s r).isEmpty) = true := by simp [unheld]
  have kept : { r with opIdx := r.opIdx } = r := rfl
  rw [exec, execScriptOperationStart, run]
  dsimp only
  rw [if_neg guard, if_neg none_held, skipGroups_of_operation stands operation, stands, kept, startOperation]
  by_cases ends : o.op = 0
  · simp only [if_pos ends]
    rfl
  · simp only [if_neg ends, modStack]
    cases opRefusal (setStack s n.val (modRun (getStack s n.val) (runKey r) fun _ => r)) n.val r o <;> rfl

/-! ### Permits -/

theorem exec_streamingPermitTaken_of_start {s t : State} {n : Fin 8} {w : RunKey × Nat} {rest : List (RunKey × Nat)}
    (waiting : (getStack s n.val).permitWait = w :: rest) (starts : startBank s n.val w = (t, true)) :
    exec (.streamingPermitTaken n) s = .next (setStack t n.val { getStack t n.val with
      permitWait := (getStack t n.val).permitWait.filter (· ≠ w) }) := by
  simp only [exec, execStreamingPermitTaken, waiting, startWaiting, List.contains_nil, Bool.false_eq_true, if_false, starts, if_true,
    modStack]

theorem permits_closeEarly_le (k : Stack) (bank : Nat) : (closeEarly k bank).permits ≤ k.permits := by
  rw [closeEarly]
  split
  · exact Nat.le_refl _
  · exact Nat.sub_le ..

section
variable {k k' : Stack}

theorem permits_robEarly (passed : robEarly k = some k') : k'.permits = k.permits := by
  rw [robEarly] at passed
  split at passed
  · cases passed; rfl
  · cases passed

theorem robEarly_of_none (closed : k.earlyOpens = []) : robEarly k = none := by
  rw [robEarly, closed]

variable {r : ScriptRun} {o : ScriptOp} {bank : Nat} (taken : takePermit k r o bank = some k')
include taken

/-- A permit comes from the operation's own early open, is a free one, or passes on from another early open. -/
theorem permits_takePermit_le (bounded : k.permits ≤ 384) : k'.permits ≤ 384 := by
  have closed := permits_closeEarly_le k bank
  rw [takePermit] at taken
  split at taken
  next => cases taken; exact bounded
  next =>
    dsimp only at taken
    split at taken
    next free => cases taken; exact free
    next => rw [permits_robEarly taken]; omega

theorem permits_takePermit_of_closed (closed : k.earlyOpens = []) : k'.permits = k.permits + 1 := by
  rw [takePermit, closeEarly_of_none (by simp [closed])] at taken
  split at taken
  next own => simp [closed] at own
  next =>
    dsimp only at taken
    split at taken
    next => cases taken; rfl
    next => simp [robEarly_of_none closed] at taken

end

/-! ### ROW_OPERATION_DONE -/

section
variable {s s1 : State} {n : Fin 8} {core : CoreId} {ticket : Fin 4} {bank : Fin 768} {d : List (Nat × Nat)} {r : ScriptRun}
  {o : ScriptOp} {b : BankRun} {st : RowStep}

theorem exec_rowOperationDone_of_run (run : rowRun (getStack s n.val) core.idx ticket.val bank.val = some (r, b))
    (operation : opOf r = some o) (next : nextStep r b = some st) :
    exec (.rowOperationDone n core ticket bank d) s = .next (rowDone s n.val r b o st d) := by
  simp only [exec, execRowOperationDone, run, operation, next]

theorem rowDone_of_held {line : Nat} (effect : rowEffect s n.val r b o st d = (s1, .error line)) :
    rowDone s n.val r b o st d = modBank s1 n.val (runKey r) b.bank fun b => { b with held := some line } := by
  simp only [rowDone, effect]

variable {s2 : State} {rows : Rows} (effect : rowEffect s n.val r b o st d = (s1, .ok rows))
  (moved : s2 = modBank s1 n.val (runKey r) b.bank (fun b => { b with inRow := false, done := b.done + 1, rows := rows }))
include effect moved

theorem rowDone_of_aborted (aborted : r.abort = true) :
    rowDone s n.val r b o st d = grantBus (bankBoundary
      (stopDone (bankEnded s2 n.val (runKey r) b.bank) n.val (runKey r)) n.val b.bank) n.val := by
  simp only [rowDone, effect, ← moved, aborted, if_true]

theorem rowDone_of_more_rows (goes_on : r.abort = false) (more : b.done + 1 < (bankSteps o r.rowAdd b.bank).length) :
    rowDone s n.val r b o st d = grantBus (bankBoundary s2 n.val b.bank) n.val := by
  simp only [rowDone, effect, ← moved, goes_on, Bool.false_eq_true, if_false, if_pos more]

theorem rowDone_of_last_row (goes_on : r.abort = false) (last : (bankSteps o r.rowAdd b.bank).length ≤ b.done + 1) :
    rowDone s n.val r b o st d = grantBus (bankBoundary (operationDone
      (channelDone (bankEnded s2 n.val (runKey r) b.bank) n.val (runKey r) (b.bank % 32) o)
      n.val (runKey r) o) n.val b.bank) n.val := by
  simp only [rowDone, effect, ← moved, goes_on, Bool.false_eq_true, if_false, if_neg (Nat.not_lt.mpr last)]

end

/-! ### The exchange bus -/

section
variable {k : Stack} {x : BusXfer}

theorem xferLive_of_run {r : ScriptRun} (run : runAt k (x.core, x.ticket, x.gen) = some r) : xferLive k x = !r.abort := by
  rw [xferLive, run, Option.any_some]

theorem xferLive_of_ended (ended : ∀ r, runAt k (x.core, x.ticket, x.gen) = some r → r.abort = true) : xferLive k x = false := by
  cases run : runAt k (x.core, x.ticket, x.gen) with
  | none => rw [xferLive, run, Option.any_none]
  | some r => rw [xferLive_of_run run, ended r run]; rfl

theorem nextXfer_ready {rest : List BusXfer} (next : nextXfer k = some (x, rest)) : xferReady k x = true ∧ x ∈ k.bus := by
  rw [nextXfer] at next
  dsimp only at next
  split at next
  · cases next
  · obtain ⟨chosen, waits⟩ := takeFirst_eq_some next
    exact ⟨(Bool.and_eq_true_iff.mp chosen).1, waits⟩

end

section
variable {s t : State} {n : Fin 8} {x : BusXfer}

theorem exec_exchangeBusTransferDone_of_idle (idle : (getStack s n.val).busNow = none) :
    exec (.exchangeBusTransferDone n) s = .next (grantBus s n.val) := by
  simp only [exec, execExchangeBusTransferDone, idle]

theorem exec_exchangeBusTransferDone_of_live (crosses : (getStack s n.val).busNow = some x)
    (live : xferLive (getStack s n.val) x = true) (freed : t = setStack s n.val { getStack s n.val with busNow := none }) :
    exec (.exchangeBusTransferDone n) s = .next (grantBus (x.dests.foldl (fun s d => landRow s n.val x d) t) n.val) := by
  subst freed
  simp only [exec, execExchangeBusTransferDone, crosses, live, if_true]

theorem exec_exchangeBusTransferDone_of_ended (crosses : (getStack s n.val).busNow = some x)
    (ended : xferLive (getStack s n.val) x = false)
    (dropped : t = setStack s n.val { getStack s n.val with
      busNow := none, lateDrops := satAdd 0xFFFF (getStack s n.val).lateDrops x.dests.length }) :
    exec (.exchangeBusTransferDone n) s = .next (grantBus t n.val) := by
  subst dropped
  simp only [exec, execExchangeBusTransferDone, crosses, ended, Bool.false_eq_true, if_false]

end

/-! ### BANK_RESULT_DELIVERY -/

section
variable {s : State} {n : Fin 8} {core : CoreId} {ticket : Fin 4}

theorem exec_bankResultDelivery_of_late {e : Nat × Nat × Nat} {rest : List (Nat × Nat × Nat)}
    (late : takeFirst (fun e : Nat × Nat × Nat => e.1 = core.idx && e.2.1 = ticket.val) (getStack s n.val).lateResults =
      some (e, rest)) :
    exec (.bankResultDelivery n core ticket) s = .next (setStack s n.val { getStack s n.val with
      lateResults := if 1 < e.2.2 then (e.1, e.2.1, e.2.2 - 1) :: rest else rest,
      lateDrops := satInc 0xFFFF (getStack s n.val).lateDrops }) := by
  simp only [exec, execBankResultDelivery, late]

variable {r : ScriptRun} {x : Nat × Nat × W32 × Bool} {rest : List (Nat × Nat × W32 × Bool)}
  (current : takeFirst (fun e : Nat × Nat × Nat => e.1 = core.idx && e.2.1 = ticket.val) (getStack s n.val).lateResults = none)
  (run : runOf (getStack s n.val) core.idx ticket.val = some r) (results : r.results = x :: rest) (goes_on : r.abort = false)
  (first : resultWaits s n.val core.idx ticket.val = false)
include current run results goes_on first

theorem exec_bankResultDelivery_of_uncharged (later : canCharge s r.card.table n.val 4 = false) :
    exec (.bankResultDelivery n core ticket) s =
      .next (waitCharge s r.card.table n.val 4 (.result n.val core.idx ticket.val)) := by
  simp only [exec, execBankResultDelivery, current, run, results, goes_on, first, later, List.isEmpty_cons, Bool.or_self,
    Bool.false_eq_true, if_false]

theorem exec_bankResultDelivery_of_charged (now : canCharge s r.card.table n.val 4 = true) :
    exec (.bankResultDelivery n core ticket) s = .next (landResult (charge s r.card.table n.val 4) n.val r) := by
  simp only [exec, execBankResultDelivery, current, run, results, goes_on, first, now, List.isEmpty_cons, Bool.or_self,
    Bool.false_eq_true, if_false, if_true]

end

theorem landResult_of_in_bound {s s1 : State} {n : Nat} {r : ScriptRun} {x : Nat × Nat × W32 × Bool}
    {rest : List (Nat × Nat × W32 × Bool)} (results : r.results = x :: rest)
    (delivered : s1 = modStack s n fun k => modRun k (runKey r) fun r => { r with results := rest })
    (inside : inBound (parseDesc r.doutDesc) [x.2.1, x.1, 0, 0, 0, 0] = true) :
    landResult s n r = completeRun
      (commitWords s1 r.core (putElem (parseDesc r.doutDesc) [] [x.2.1, x.1, 0, 0, 0, 0] x.2.2.1.toNat x.2.2.2)) n (runKey r) := by
  subst delivered
  simp only [landResult, results, inside, if_true]

/-- Settles O34: each clause is one path of a command above; a row on the exchange bus goes on or is dropped as its run does. -/
theorem scriptRunEvents : Obligations.ScriptRunEvents := by
  unfold Obligations.ScriptRunEvents
  refine ⟨?latch, ?start, ?permitTaken, ?permits, ?rowDone, ?bus, ?next, ?result⟩
  case latch =>
    exact fun s n bank f rest oldest => ⟨exec_latchWrite_of_free oldest, exec_latchWrite_of_busy oldest,
      fun down p => exec_latchWrite_of_half_down oldest down⟩
  case start =>
    intro s n core ticket r o s1 run idle goes_on unheld stands operation same
    rw [exec_scriptOperationStart_of_idle run idle goes_on unheld stands operation same]
    exact ⟨fun ends => congrArg _ (startOperation_of_end ends), fun more e refusal => congrArg _ (startOperation_of_refusal more refusal),
      fun more passes => congrArg _ (startOperation_of_passed more passes)⟩
  case permitTaken => exact fun s t n w rest => exec_streamingPermitTaken_of_start
  case permits =>
    exact fun k k' r o bank taken bounded => ⟨permits_takePermit_le taken bounded, permits_takePermit_of_closed taken⟩
  case rowDone =>
    intro s s1 n core ticket bank d r o b st run operation next
    rw [exec_rowOperationDone_of_run run operation next]
    exact ⟨fun line effect => congrArg _ (rowDone_of_held effect), fun rows s2 effect moved =>
      ⟨fun aborted => congrArg _ (rowDone_of_aborted effect moved aborted),
        fun goes_on more => congrArg _ (rowDone_of_more_rows effect moved goes_on more),
        fun goes_on last => congrArg _ (rowDone_of_last_row effect moved goes_on last)⟩⟩
  case bus =>
    refine fun s n => ⟨exec_exchangeBusTransferDone_of_idle, fun x t crosses => ⟨?_, fun ended => ?_⟩⟩
    · rintro ⟨r, run, goes_on⟩
      exact exec_exchangeBusTransferDone_of_live crosses (by rw [xferLive_of_run run, goes_on]; rfl)
    · exact exec_exchangeBusTransferDone_of_ended crosses (xferLive_of_ended ended)
  case next => exact fun k x rest => nextXfer_ready
  case result =>
    refine fun s n core ticket => ⟨fun e rest => exec_bankResultDelivery_of_late, fun r x rest current run results goes_on first =>
      ⟨exec_bankResultDelivery_of_uncharged current run results goes_on first, fun s1 now delivered inside => ?_⟩⟩
    rw [exec_bankResultDelivery_of_charged current run results goes_on first now, landResult_of_in_bound results delivered inside]

end Sys2Proof.Machine
end

section
/-! PROOF. CTAKE and CSEND (R317, R319 to R322, Table 4.13): a core takes what its end of a stream has, or gives back what it holds. -/

namespace Sys2Proof.Machine

/-! ### Faults on a stream -/

/-- A play on a stopped stream faults without stopping it again. -/
theorem streamFault_of_stopped (s : State) (n : Nat) (e : StreamEntry) :
    streamFault s n e evSynCreditStopped = bad s evSynCreditStopped := by
  rw [streamFault, if_pos rfl]

/-- Any other fault on a stream stops it first. -/
theorem streamFault_of_other {ev : Ev} (other : ev ≠ evSynCreditStopped) (s : State) (n : Nat) (e : StreamEntry) :
    streamFault s n e ev = bad (stopStream s e (ev.word (uCluster (n / 64)))) ev := by
  rw [streamFault, if_neg other]

section
variable {s : State} {h : PlayHdr} {f : FmtY} {e : StreamEntry} {r : Stream} (runs : Runs s h)
  (entry : streamEntry s f.id.toNat = some e) (stream : getStream s f.id.toNat = r)
include runs entry stream

/-! ### CTAKE -/

section
variable {prod : Bool} (side : streamEnd s e h.core.idx = some prod)
include side

theorem exec_ctake_of_stopped (stopped : r.stopped = true) :
    exec (.ctake h f) s = .next (coreFault s h.core.idx evSynCreditStopped 0 0) := by
  rw [exec, execCtake, issue_runs s h _ runs]
  simp only [entry, side, stream, stopped, if_true, streamFault_of_stopped, bad, finishPlay]

theorem exec_ctake_of_producer (flows : r.stopped = false) (producer : prod = true) (enough : f.count.toNat ≤ r.avail) :
    exec (.ctake h f) s = .next (nextPlay (setStream s f.id.toNat
      { r with avail := r.avail - f.count.toNat, taken := r.taken + f.count.toNat }) h.core.idx) := by
  rw [exec, execCtake, issue_runs s h _ runs]
  simp only [entry, side, stream, flows, producer, enough, Bool.false_eq_true, if_false, if_true, finishPlay]

theorem exec_ctake_of_consumer (flows : r.stopped = false) (consumer : prod = false) (enough : f.count.toNat ≤ r.delivered) :
    exec (.ctake h f) s = .next (nextPlay (setStream s f.id.toNat
      { r with delivered := r.delivered - f.count.toNat, held := r.held + f.count.toNat }) h.core.idx) := by
  rw [exec, execCtake, issue_runs s h _ runs]
  simp only [entry, side, stream, flows, consumer, enough, Bool.false_eq_true, if_false, if_true, finishPlay]

theorem exec_ctake_of_few (flows : r.stopped = false)
    (few : prod = true ∧ r.avail < f.count.toNat ∨ prod = false ∧ r.delivered < f.count.toNat) :
    exec (.ctake h f) s = .next (coreWaits s h.core.idx (.credits f.id.toNat)) := by
  rw [exec, execCtake, issue_runs s h _ runs]
  rcases few with ⟨producer, few⟩ | ⟨consumer, few⟩
  · simp only [entry, side, stream, flows, producer, Nat.not_le.mpr few, Bool.false_eq_true, if_false, if_true, finishPlay]
  · simp only [entry, side, stream, flows, consumer, Nat.not_le.mpr few, Bool.false_eq_true, if_false, finishPlay]

end

/-! ### CSEND -/

section
variable (valid : r.consValid = true) (consumer : coreOfField e.consumer = h.core.idx)
include valid consumer

theorem exec_csend_of_stopped (stopped : r.stopped = true) :
    exec (.csend h f) s = .next (coreFault s h.core.idx evSynCreditStopped 0 0) := by
  rw [exec, execCsend, issue_runs s h _ runs]
  simp only [entry, stream, valid, consumer, stopped, decide_true, Bool.and_self, Bool.not_true, Bool.false_eq_true, if_false, if_true,
    streamFault_of_stopped, bad, finishPlay]

section
variable (flows : r.stopped = false)
include flows

theorem exec_csend_of_excess (excess : r.held < f.count.toNat) :
    exec (.csend h f) s = .next (coreFault
      (stopStream s e (evSynCreditOverflow.word (0x10 + h.core.idx / 64))) h.core.idx evSynCreditOverflow 0 0) := by
  have other : evSynCreditOverflow ≠ evSynCreditStopped := by decide
  rw [exec, execCsend, issue_runs s h _ runs]
  simp only [entry, stream, valid, consumer, flows, excess, decide_true, Bool.and_self, Bool.not_true, Bool.false_eq_true, if_false,
    if_true, streamFault_of_other other, bad, finishPlay, uCluster]

section
variable (held : f.count.toNat ≤ r.held)
include held

theorem exec_csend_of_onDie (onDie : e.kind = 0) :
    exec (.csend h f) s = .next (nextPlay
      { setStream s f.id.toNat { r with held := r.held - f.count.toNat } with
        creditFlight := s.creditFlight ++ [(f.id.toNat, f.count.toNat)] } h.core.idx) := by
  rw [exec, execCsend, issue_runs s h _ runs]
  simp only [entry, stream, valid, consumer, flows, Nat.not_lt.mpr held, onDie, decide_true, Bool.and_self, Bool.not_true,
    Bool.false_eq_true, if_false, if_true, setStream_creditFlight, finishPlay]

theorem exec_csend_of_fabric (fabric : e.kind ≠ 0) :
    exec (.csend h f) s = .next (nextPlay
      (sendFrame (setStream s f.id.toNat { r with held := r.held - f.count.toNat }) e.remote e.table
        (.credit f.id.toNat f.count.toNat)) h.core.idx) := by
  rw [exec, execCsend, issue_runs s h _ runs]
  simp only [entry, stream, valid, consumer, flows, Nat.not_lt.mpr held, fabric, decide_true, Bool.and_self, Bool.not_true,
    Bool.false_eq_true, if_false, finishPlay]

end

end

end

end

/-- Settles O24: each clause is one case of a play above. -/
theorem creditPlays : Obligations.CreditPlays := by
  unfold Obligations.CreditPlays
  refine ⟨?ctake, ?csend⟩
  case ctake =>
    exact fun s h f e r prod runs entry side stream => ⟨exec_ctake_of_stopped runs entry stream side,
      exec_ctake_of_producer runs entry stream side, exec_ctake_of_consumer runs entry stream side,
      exec_ctake_of_few runs entry stream side⟩
  case csend =>
    exact fun s h f e r runs entry stream valid consumer => ⟨exec_csend_of_stopped runs entry stream valid consumer,
      exec_csend_of_excess runs entry stream valid consumer, exec_csend_of_onDie runs entry stream valid consumer,
      exec_csend_of_fabric runs entry stream valid consumer⟩

end Sys2Proof.Machine
end

section
/-! PROOF. Messages of tricks on the die (R304 to R306, R308, Tables 9.2 and 9.6). -/

namespace Sys2Proof.Machine

/-! ### A trick whose expected plays are all counted -/

theorem getTrick_setTrick_of_ne (s : State) (n : Nat) (t : Trick) (kept : t ≠ Trick.empty) : getTrick (setTrick s n t) n = t :=
  sget_sput_same_of_ne Trick.empty _ n t kept

theorem trick_ne_empty_of_arrived {t : Trick} (arrived : 0 < t.arrived) : t ≠ Trick.empty := by
  rintro rfl
  exact absurd arrived (Nat.lt_irrefl 0)

/-- The release of a trick that stays on this module and closes no round. -/
theorem releaseTrick_of_local {s : State} {d : Deck} {e : TrickEntry} (inside : e.spanning = false)
    (plain : closingTrick d e.table ≠ some e.trick) : releaseTrick s d e = sendReleases (setTrick s e.trick
      { getTrick s e.trick with arrived := 0, childArrived := 0, sent := false, epoch := (getTrick s e.trick).epoch + 1 }) e := by
  simp only [releaseTrick, inside, plain, Bool.false_eq_true, if_false, trickCancel]

theorem checkTrick_of_complete {s : State} {d : Deck} {e : TrickEntry} (inside : e.spanning = false)
    (complete : (getTrick s e.trick).arrived = (getTrick s e.trick).expected) : checkTrick s d e = releaseTrick s d e := by
  simp only [checkTrick, inside, complete, ne_eq, not_true_eq_false, Bool.not_false, if_false, if_true]

/-- Plays that complete a trick of this module that closes no round release it. -/
theorem addArrived_of_complete {s : State} {d : Deck} {e : TrickEntry} {k : Nat} {t : Trick} (hd : deckOf s = some d)
    (entry : trickEntry s e.trick = some e) (more : 0 < k)
    (added : t = { getTrick s e.trick with arrived := (getTrick s e.trick).arrived + k }) (complete : t.arrived = t.expected)
    (inside : e.spanning = false) (plain : closingTrick d e.table ≠ some e.trick) :
    addArrived s e.trick k = sendReleases (setTrick (setTrick s e.trick t) e.trick
      { t with arrived := 0, childArrived := 0, sent := false, epoch := t.epoch + 1 }) e := by
  have counted : 0 < t.arrived := by
    rw [added]
    exact Nat.add_pos_right _ more
  have back : getTrick (setTrick s e.trick t) e.trick = t := getTrick_setTrick_of_ne _ _ _ (trick_ne_empty_of_arrived counted)
  have checked : addArrived s e.trick k = checkTrick (setTrick s e.trick t) d e := by
    subst added
    simp only [addArrived, hd, entry, plain, decide_false, Bool.and_false, Bool.false_eq_true, if_false]
  rw [checked, checkTrick_of_complete inside (by rw [back]; exact complete), releaseTrick_of_local inside plain, back]

/-! ### LOCAL_TRICK_ARRIVE -/

section
variable {s : State} {c : Fin 64} {trick : Nat}

theorem exec_localTrickArrive_of_none
    (idle : takeFirst (fun x : Nat × Nat × Nat => x.1 = c.val && x.2.1 = trick) s.arrives = none) :
    exec (.localTrickArrive c trick) s = .next s := by
  rw [exec, execLocalTrickArrive, idle]

theorem exec_localTrickArrive_of_oldest {x : Nat × Nat × Nat} {rest : List (Nat × Nat × Nat)}
    (oldest : takeFirst (fun x : Nat × Nat × Nat => x.1 = c.val && x.2.1 = trick) s.arrives = some (x, rest)) :
    exec (.localTrickArrive c trick) s = .next (addArrived { s with arrives := rest } trick x.2.2) := by
  rw [exec, execLocalTrickArrive, oldest]

/-! ### LOCAL_TRICK_RELEASE -/

theorem exec_localTrickRelease_of_none
    (idle : takeFirst (fun x : Nat × Nat × W32 => x.1 = c.val && x.2.1 = trick) s.releases = none) :
    exec (.localTrickRelease c trick) s = .next s := by
  rw [exec, execLocalTrickRelease, idle]

theorem exec_localTrickRelease_of_oldest {x : Nat × Nat × W32} {rest : List (Nat × Nat × W32)}
    (oldest : takeFirst (fun x : Nat × Nat × W32 => x.1 = c.val && x.2.1 = trick) s.releases = some (x, rest)) :
    exec (.localTrickRelease c trick) s = .next (clusterReleased { s with releases := rest } trick c.val x.2.2) := by
  rw [exec, execLocalTrickRelease, oldest]

end

theorem clusterReleased_eq (s : State) (trick c : Nat) (ep : W32) : clusterReleased s trick c ep =
    { s with
      known := sput 0 s.known (knownKey trick c) ep,
      cores := s.cores.map fun x =>
        if x.1 / 64 = c ∧ (x.2.wait = .trickIssue trick ∨ x.2.wait = .trickRelease trick) then
          (x.1, { x.2 with wait := .none }) else x } := by
  simp only [clusterReleased, Bool.and_eq_true, Bool.or_eq_true, decide_eq_true_eq]

/-- Settles O29: each command takes the oldest message, and an arrive completes its trick or does not. -/
theorem trickMessages : Obligations.TrickMessages := by
  unfold Obligations.TrickMessages
  refine ⟨?arrive, fun s c trick => exec_localTrickArrive_of_none, ?release, fun s c trick => exec_localTrickRelease_of_none⟩
  case arrive =>
    rintro s c _ k rest e d oldest hd entry rfl more
    rw [exec_localTrickArrive_of_oldest oldest]
    exact ⟨fun incomplete => congrArg _ (addArrived_of_incomplete (Option.isSome_iff_exists.mpr ⟨d, hd⟩) entry more incomplete),
      fun complete inside plain => congrArg _ (addArrived_of_complete hd entry more rfl complete inside plain)⟩
  case release =>
    intro s c trick ep rest oldest
    rw [exec_localTrickRelease_of_oldest oldest, clusterReleased_eq]

end Sys2Proof.Machine
end

section
/-! PROOF. Pushes, credits and path transfers on the die (R318, R320, R321, R323, R381 to R384, Table 12.1). -/

namespace Sys2Proof.Machine

/-! ### ON_DIE_PUSH_LANDING -/

section
variable {s : State} {stream : Nat} {p : PushFlight} {rest : List PushFlight} {e : StreamEntry}
  (oldest : takeFirst (fun p : PushFlight => p.stream = stream) s.pushes = some (p, rest)) (entry : streamEntry s stream = some e)
include oldest entry

theorem exec_onDiePushLanding_of_current (current : p.gen = s.gen) :
    exec (.onDiePushLanding stream) s = .next (marksMove (performWrites
      (landUnits (landBytes { s with pushes := rest } (coreOfField e.consumer) p.bytes) stream p.units) p.producer 1) stream e.table) := by
  simp only [exec, execOnDiePushLanding, oldest, entry, current, ne_eq, not_true_eq_false, if_false]

theorem exec_onDiePushLanding_of_late (late : p.gen ≠ s.gen) :
    exec (.onDiePushLanding stream) s = .next (marksMove (modStream { s with pushes := rest } stream fun k =>
      { k with ctally := k.ctally + BitVec.ofNat 32 p.units }) stream e.table) := by
  simp only [exec, execOnDiePushLanding, oldest, entry, ne_eq, late, not_false_eq_true, if_true]

end

/-! ### ON_DIE_CREDIT_RETURN -/

section
variable {s : State} {e : StreamEntry} {count : Nat} (flows : (getStream s e.stream).stopped = false)
include flows

theorem returnCredits_of_outstanding
    (within : count ≤ e.initial - (getStream s e.stream).avail - (getStream s e.stream).taken) : returnCredits s e count =
      wakeCores (setStream s e.stream { getStream s e.stream with avail := (getStream s e.stream).avail + count })
        (.credits e.stream) := by
  simp only [returnCredits, flows, Nat.not_lt.mpr within, Bool.false_eq_true, if_false]

theorem returnCredits_of_excess {t : State} {u : Nat} (unit : u = uCluster (coreOfField e.producer / 64))
    (excess : e.initial - (getStream s e.stream).avail - (getStream s e.stream).taken < count)
    (logged : t = logGen s evSynCreditOverflow u (some e.table) [w32 e.stream] []) : returnCredits s e count =
      requestAbort (stopStream t e (evSynCreditOverflow.word u)) (evSynCreditOverflow.word u) := by
  subst unit logged
  simp only [returnCredits, flows, excess, Bool.false_eq_true, if_false, if_true]

end

theorem exec_onDieCreditReturn_of_oldest {s : State} {stream : Nat} {x : Nat × Nat} {rest : List (Nat × Nat)} {e : StreamEntry}
    (oldest : takeFirst (fun x : Nat × Nat => x.1 = stream) s.creditFlight = some (x, rest)) (entry : streamEntry s stream = some e) :
    exec (.onDieCreditReturn stream) s = .next (returnCredits { s with creditFlight := rest } e x.2) := by
  simp only [exec, execOnDieCreditReturn, oldest, entry]

/-! ### PATH_TRANSFER_RECEIVE: which transfer is tested -/

section
variable {s : State} {path : PathId} {replay : Bool} {sent : List W32} {received : List (W32 × Bool)} {lane : Nat} {v : Path}
  (record : getPath s path = v)
include record

theorem exec_pathTransferReceive_of_failed (failed : v.failed = true) :
    exec (.pathTransferReceive path replay sent received lane) s = .next s := by
  simp only [exec, execPathTransferReceive, record, failed, if_true]

section
variable (works : v.failed = false)
include works

theorem exec_pathTransferReceive_of_behind (first : replay = false) (behind : v.retained ≠ []) :
    exec (.pathTransferReceive path replay sent received lane) s =
      .next (if v.retained.length < 16 then setPath s path { v with retained := v.retained ++ [sent] } else s) := by
  obtain ⟨w, ws, kept⟩ := List.exists_cons_of_ne_nil behind
  simp only [exec, execPathTransferReceive, record, works, first, kept, Bool.false_eq_true, if_false]

/-- The oldest transfer is tested: a replayed one that is retained, or a first one that nothing is retained before. -/
theorem exec_pathTransferReceive_of_oldest {u : Path} (oldest : replay = true ∧ v.retained ≠ [] ∨ replay = false ∧ v.retained = [])
    (retained : u = if replay then v else { v with retained := [sent] }) :
    exec (.pathTransferReceive path replay sent received lane) s = .next (testTransfer s path u received lane) := by
  subst retained
  rcases oldest with ⟨rfl, kept⟩ | ⟨rfl, none⟩
  · obtain ⟨w, ws, kept⟩ := List.exists_cons_of_ne_nil kept
    simp only [exec, execPathTransferReceive, record, works, kept, Bool.false_eq_true, if_false, if_true]
  · simp only [exec, execPathTransferReceive, record, works, none, Bool.false_eq_true, if_false]

end

end

/-- A first transfer that is retained for its test changes no other part of the path's record. -/
theorem fields_of_retained {replay : Bool} {sent : List W32} {u v : Path}
    (retained : u = if replay then v else { v with retained := [sent] }) :
    u.failures = v.failures ∧ u.strikes = v.strikes ∧ u.steered = v.steered ∧ u.spares = v.spares := by
  subst retained
  cases replay <;> exact ⟨rfl, rfl, rfl, rfl⟩

/-! ### PATH_TRANSFER_RECEIVE: the test -/

section
variable {s : State} {path : PathId} {u : Path} {received : List (W32 × Bool)} {lane : Nat}

theorem testTransfer_of_good (good : received.all evenParity = true) : testTransfer s path u received lane =
    setPath s path { u with failures := 0, retained := u.retained.drop 1, last := received.map (·.1) } := by
  simp only [testTransfer, good, if_true]

section
variable (failing : received.all evenParity = false)
include failing

theorem testTransfer_of_early_failure (early : u.failures < 3) : testTransfer s path u received lane =
    setPath { s with pathReplays := satInc 0xFFFF s.pathReplays } path { u with failures := u.failures + 1 } := by
  simp only [testTransfer, failing, early, Bool.false_eq_true, if_false, if_true]

theorem testTransfer_of_fourth_failure (fourth : 3 ≤ u.failures) :
    testTransfer s path u received lane = fourthFailure s path u lane := by
  simp only [testTransfer, failing, Nat.not_lt.mpr fourth, Bool.false_eq_true, if_false]

end

theorem steerLane_of_spare {t : State} (left : 0 < u.spares.getD (pathSpares path))
    (steered : t = setPath s path
      { u with failures := 0, steered := u.steered ++ [lane], spares := some (u.spares.getD (pathSpares path) - 1) }) :
    steerLane s path u lane =
      some (logGen { t with lanesSpared := satInc 0xFF t.lanesSpared } evIntPathLaneSpared (pathUnit path) none [w32 lane] []) := by
  subst steered
  simp only [steerLane, Nat.ne_of_gt left, if_false]

theorem fourthFailure_of_steered {t : State} (outside : ∀ n, path ≠ .coreInside n) (steered : steerLane s path u lane = some t) :
    fourthFailure s path u lane = t := by
  cases path with
  | coreInside n => exact absurd rfl (outside n)
  | mesh n | spine n | stackIf n k | exchange n => simp only [fourthFailure, steered]

section
variable (failing : received.all evenParity = false) (fourth : 3 ≤ u.failures)
include failing fourth

/-- A path outside a core that has a spare left goes on with its lane steered. -/
theorem testTransfer_of_spare {t : State} (outside : ∀ n, path ≠ .coreInside n) (left : 0 < u.spares.getD (pathSpares path))
    (steered : t = setPath s path
      { u with failures := 0, steered := u.steered ++ [lane], spares := some (u.spares.getD (pathSpares path) - 1) }) :
    testTransfer s path u received lane =
      logGen { t with lanesSpared := satInc 0xFF t.lanesSpared } evIntPathLaneSpared (pathUnit path) none [w32 lane] [] := by
  rw [testTransfer_of_fourth_failure failing fourth, fourthFailure_of_steered outside (steerLane_of_spare left steered)]

/-- The path inside a core fails: the core faults, and is marked bad where the path had failed before. -/
theorem testTransfer_of_core {t t' : State} {n : Nat} (inside : path = .coreInside n)
    (struck : t = setPath s path { u with failures := 0, retained := [], strikes := u.strikes + 1 })
    (counted : t' = { t with pathsFailed := satInc 0xFF t.pathsFailed }) : testTransfer s path u received lane =
      coreFault (if u.strikes = 0 then t' else markBad t' n) n evIntPathFailed 0 0 := by
  subst inside struck counted
  exact testTransfer_of_fourth_failure failing fourth

end

end

/-- Settles O30: a message on its way is the oldest of its stream, and a transfer is the oldest of its path or waits behind it. -/
theorem pushCreditPathEvents : Obligations.PushCreditPathEvents := by
  unfold Obligations.PushCreditPathEvents
  refine ⟨?push, ?credit, ?path⟩
  case push =>
    exact fun s stream p rest e oldest entry =>
      ⟨exec_onDiePushLanding_of_current oldest entry, exec_onDiePushLanding_of_late oldest entry⟩
  case credit =>
    rintro s _ count rest e oldest entry rfl flows
    rw [exec_onDieCreditReturn_of_oldest oldest entry]
    exact ⟨fun within => congrArg _ (returnCredits_of_outstanding flows within),
      fun excess t logged => congrArg _ (returnCredits_of_excess (s := { s with creditFlight := rest }) flows rfl excess logged)⟩
  case path =>
    intro s path replay sent received lane v record
    refine ⟨exec_pathTransferReceive_of_failed record, exec_pathTransferReceive_of_behind record, fun works oldest u retained => ?_⟩
    rw [exec_pathTransferReceive_of_oldest record works oldest retained]
    obtain ⟨failures, strikes, steered, spares⟩ := fields_of_retained retained
    rw [← failures, ← strikes, ← steered, ← spares]
    exact ⟨fun good => congrArg _ (testTransfer_of_good good),
      fun failing early => congrArg _ (testTransfer_of_early_failure failing early),
      fun failing fourth outside left t steered => congrArg _ (testTransfer_of_spare failing fourth outside left steered),
      fun n inside failing fourth t struck t' counted => congrArg _ (testTransfer_of_core failing fourth inside struck counted)⟩

end Sys2Proof.Machine
end

section
/-! PROOF. Frames of a stream at its end (R309, R318, R320, R322, R323, R325, R326, R336, R364, R365, R372, Table 12.6): what each does
under the current generation, under another, and where it does not fit. -/

namespace Sys2Proof.Machine

/-! ### PUSH -/

section
variable {s : State} {hdr : FrameHdr} {stream off n : Nat} {data : List Byte} {mask : List Bool} {port : Option Nat}

section
variable {e : StreamEntry} (entry : streamFor s hdr stream 2 = some e)
include entry

/-- The bytes of a push land; with its last beat, the one that carries its units, the units land and are acknowledged. -/
theorem takePush_of_current {bs : List (Nat × Byte × Bool)} {s1 : State} (current : hdr.gen = s.gen)
    (inside : off + data.length ≤ scratchBytes)
    (bytes : bs = (data.zip (List.range data.length)).map
      fun x => (off + x.2, x.1, hdr.poison && ((mask[x.2 / 4]?).getD false)))
    (landed : s1 = landBytes s (coreOfField e.consumer) bs) : takePush s port hdr stream off data n mask =
      if n = 0 then s1 else sendFrame (landUnits s1 stream n) hdr.src e.table (.pushAck stream n) := by
  subst bytes landed
  simp only [takePush, current, entry, Nat.not_lt.mpr inside, ne_eq, not_true_eq_false, if_false]

theorem takePush_of_late (late : hdr.gen ≠ s.gen) : takePush s port hdr stream off data n mask =
    modStream (lateDrop s) stream fun k => { k with ctally := k.ctally + BitVec.ofNat 32 n } := by
  have same : streamFor (lateDrop s) hdr stream 2 = some e := entry
  simp only [takePush, late, same, ne_eq, not_false_eq_true, if_true]

end

theorem takePush_of_misfit (current : hdr.gen = s.gen) (misfit : streamFor s hdr stream 2 = none ∨ scratchBytes < off + data.length) :
    takePush s port hdr stream off data n mask = violation s port reasonTarget (frameOf hdr (.push stream off data n mask)) := by
  simp only [takePush, current, ne_eq, not_true_eq_false, if_false]
  rcases misfit with stranger | outside
  · rw [stranger]
  · cases streamFor s hdr stream 2 with
    | none => rfl
    | some e => exact if_pos outside

end

/-- A frame that is no NACK and breaks the protocol is answered and counted at the port that brought it. -/
theorem violation_of_port {f : Frame} (noNack : typeOf f.body ≠ 0x3F) (s : State) (p reason : Nat) :
    violation s (some p) reason f =
      countViolation (sendNack s p reason f.hdr.src false (headBytes f.hdr.cls f)) p reason := by
  simp only [violation, badFrame, noNack, decide_false, Bool.false_eq_true, if_false]

/-! ### PUSH_ACK, CREDIT and TALLY_MARK -/

section
variable {s : State} {hdr : FrameHdr} {stream : Nat} {e : StreamEntry} {port : Option Nat} (current : hdr.gen = s.gen)
include current

section
variable (entry : streamFor s hdr stream 1 = some e) (n : Nat)
include entry

theorem takePushAck_of_current : takePushAck s port hdr stream n =
    if hdr.poison then poisonStop s port e else performWrites s (coreOfField e.producer) 1 := by
  simp only [takePushAck, current, entry, ne_eq, not_true_eq_false, if_false]

theorem takeCredit_of_current : takeCredit s port hdr stream n =
    if hdr.poison then poisonStop s port e else returnCredits s e n := by
  simp only [takeCredit, current, entry, ne_eq, not_true_eq_false, if_false]

end

theorem takeTallyMark_of_current (entry : streamFor s hdr stream 2 = some e) (count epoch : W32) :
    takeTallyMark s port hdr stream count epoch =
      if hdr.poison then logGen s evSynMsgPoison (ingressUnit port (endCluster e)) (some e.table) [w32 stream] []
      else takeMark s stream e.table count epoch := by
  simp only [takeTallyMark, current, entry, ne_eq, not_true_eq_false, if_false]

end

/-! ### STREAM_STOP -/

section
variable {s : State} {hdr : FrameHdr} {stream : Nat} {code : W32} {e : StreamEntry} {port : Option Nat} (current : hdr.gen = s.gen)
  (entry : streamEither s hdr stream = some e) (clean : hdr.poison = false)
include current entry clean

theorem takeStreamStop_of_stopped (stopped : (getStream s stream).stopped = true) :
    takeStreamStop s port hdr stream code = s := by
  simp only [takeStreamStop, current, entry, clean, stopped, ne_eq, not_true_eq_false, Bool.false_eq_true, if_false, if_true]

/-- A stop of a stream that flows is the fault of the cores that wait for its credits, or is logged where none does. -/
theorem takeStreamStop_of_flowing {t : State} (flows : (getStream s stream).stopped = false)
    (stopped : t = setStream s stream { getStream s stream with stopped := true }) : takeStreamStop s port hdr stream code =
      requestAbort (if (creditWaiters s stream).isEmpty then
          logGen (stopWaiters t stream) evSynCreditStopped (uCluster (endCluster e)) (some e.table) [w32 stream, code] []
        else stopWaiters t stream) (evSynCreditStopped.word (uCluster (endCluster e))) := by
  subst stopped
  simp only [takeStreamStop, current, entry, clean, flows, ne_eq, not_true_eq_false, Bool.false_eq_true, if_false, modStream]

end

theorem creditWaiters_eq_nil_iff {s : State} {stream : Nat} :
    creditWaiters s stream = [] ↔ ∀ c ∈ s.cores, c.2.wait ≠ .credits stream := by
  simp only [creditWaiters, List.map_eq_nil_iff, List.filter_eq_nil_iff, decide_eq_true_eq, ne_eq]

theorem stopWaiters_of_none {s : State} {stream : Nat} (none : creditWaiters s stream = []) : stopWaiters s stream = s := by
  rw [stopWaiters, none, List.foldl_nil]

/-! ### Another generation -/

section
variable {s : State} {hdr : FrameHdr} (late : hdr.gen ≠ s.gen) (port : Option Nat) (stream : Nat)
include late

theorem takePushAck_of_late (n : Nat) : takePushAck s port hdr stream n = lateDrop s := if_pos late

theorem takeCredit_of_late (n : Nat) : takeCredit s port hdr stream n = lateDrop s := if_pos late

theorem takeStreamStop_of_late (code : W32) : takeStreamStop s port hdr stream code = lateDrop s := if_pos late

theorem takeTallyMark_of_late (count epoch : W32) : takeTallyMark s port hdr stream count epoch = lateDrop s := if_pos late

end

/-! ### The commands -/

section
variable (s : State) (hdr : FrameHdr) (stream n : Nat)

theorem exec_push (off : Nat) (data : List Byte) (mask : List Bool) :
    exec (.push hdr stream off data n mask) s = .next (takePush s none hdr stream off data n mask) := rfl

theorem exec_pushAck : exec (.pushAck hdr stream n) s = .next (takePushAck s none hdr stream n) := rfl

theorem exec_credit : exec (.credit hdr stream n) s = .next (takeCredit s none hdr stream n) := rfl

theorem exec_streamStop (code : W32) : exec (.streamStop hdr stream code) s = .next (takeStreamStop s none hdr stream code) := rfl

theorem exec_tallyMark (count epoch : W32) :
    exec (.tallyMark hdr stream count epoch) s = .next (takeTallyMark s none hdr stream count epoch) := rfl

end

/-- Settles O39: each clause is one case of a frame above. -/
theorem streamFrames : Obligations.StreamFrames := by
  unfold Obligations.StreamFrames
  refine ⟨?push, ?latePush, ?ackCredit, ?stop, ?mark, ?late, ?misfit⟩
  case push =>
    intro s hdr stream off n data mask e current entry inside bs s1 bytes landed
    rw [exec_push, exec_push, takePush_of_current entry current inside bytes landed,
      takePush_of_current entry current inside bytes landed]
    exact ⟨by rw [if_pos rfl], fun more => by rw [if_neg more]⟩
  case latePush =>
    intro s hdr stream off n data mask e late entry
    rw [exec_push, takePush_of_late entry late]
    rfl
  case ackCredit =>
    intro s hdr stream n e current entry
    rw [exec_pushAck, exec_credit, takePushAck_of_current current entry, takeCredit_of_current current entry]
    refine ⟨fun clean => ?_, fun bad => ?_⟩
    · simp [clean]
    · simp [bad]
  case stop =>
    intro s hdr stream code e current entry clean
    rw [exec_streamStop]
    refine ⟨fun stopped => by rw [takeStreamStop_of_stopped current entry clean stopped], fun flows t stops => ?_⟩
    have same : creditWaiters t stream = creditWaiters s stream := by rw [stops]; rfl
    rw [takeStreamStop_of_flowing current entry clean flows stops]
    refine ⟨fun none => ?_, fun ⟨c, mem, waits⟩ => ?_⟩
    · have idle : creditWaiters s stream = [] := creditWaiters_eq_nil_iff.mpr none
      rw [idle, List.isEmpty_nil, if_pos rfl, stopWaiters_of_none (same.trans idle)]
    · have busy : creditWaiters s stream ≠ [] := fun idle => creditWaiters_eq_nil_iff.mp idle c mem waits
      rw [if_neg (by simpa using busy), stopWaiters, same, creditWaiters]
  case mark =>
    intro s hdr stream count epoch e current entry
    rw [exec_tallyMark, takeTallyMark_of_current current entry]
    exact ⟨fun clean => by simp [clean], fun bad => by simp [bad, ingressUnit]⟩
  case late =>
    rintro s hdr stream n code count epoch late _ rfl
    rw [exec_pushAck, exec_credit, exec_streamStop, exec_tallyMark, takePushAck_of_late late, takeCredit_of_late late,
      takeStreamStop_of_late late, takeTallyMark_of_late late]
    exact ⟨rfl, rfl, rfl, rfl⟩
  case misfit =>
    intro s p hdr stream off n data mask current misfit
    rw [takePush_of_misfit current misfit, violation_of_port (f := frameOf hdr (.push stream off data n mask)) (show (0x01 : Nat) ≠ 0x3F by decide)]
    rfl

end Sys2Proof.Machine
end

section
/-! PROOF. Trick messages of the fabric, QUAR_CLEAR, NACK and management packets (R307 to R309, R313, R365, R368, R375, R377). -/

namespace Sys2Proof.Machine

/-! ### The tests of a trick message (R309) -/

section
variable {s : State} {hdr : FrameHdr} {slot : Nat} {group epoch : W32} (port : Option Nat) (b : FrameBody) (act : State → State)

theorem takeTrick_of_late (late : hdr.gen ≠ s.gen) : takeTrick s port hdr b slot group epoch act =
    { s with genLateDrops := satInc 0xFFFF s.genLateDrops, spanLateDrops := satInc 0xFFFF s.spanLateDrops } :=
  if_pos late

section
variable (current : hdr.gen = s.gen) (own : fabricGroup s = some group)
include current own

theorem takeTrick_of_poison (bad : hdr.poison = true) : takeTrick s port hdr b slot group epoch act =
    requestAbort (logGen s evSynMsgPoison (ingressUnit port (slotCluster s slot)) ((trickEntry s slot).map (·.table)) [w32 slot] [])
      (evSynMsgPoison.word (ingressUnit port (slotCluster s slot))) := by
  simp only [takeTrick, current, own, bad, ne_eq, not_true_eq_false, if_false, if_true]

section
variable (clean : hdr.poison = false)
include clean

theorem takeTrick_of_unknown (unknown : spanningSlot s slot = false) : takeTrick s port hdr b slot group epoch act =
    requestAbort (logGen s evSynSpanUnknown (uCluster (slotCluster s slot)) ((trickEntry s slot).map (·.table)) [w32 slot] [])
      (evSynSpanUnknown.word (uCluster (slotCluster s slot))) := by
  simp only [takeTrick, current, own, clean, unknown, ne_eq, not_true_eq_false, Bool.false_eq_true, Bool.not_false, if_false, if_true]

section
variable (spans : spanningSlot s slot = true)
include spans

theorem takeTrick_of_other_epoch (other : epoch ≠ (getTrick s slot).epoch) : takeTrick s port hdr b slot group epoch act =
    requestAbort (logGen s evSynSpanEpoch (uCluster (slotCluster s slot)) ((trickEntry s slot).map (·.table))
      [w32 slot, epoch, (getTrick s slot).epoch] []) (evSynSpanEpoch.word (uCluster (slotCluster s slot))) := by
  simp only [takeTrick, current, own, clean, spans, other, ne_eq, not_true_eq_false, not_false_eq_true, Bool.false_eq_true,
    Bool.not_true, if_false, if_true]

theorem takeTrick_of_sound (same : epoch = (getTrick s slot).epoch) : takeTrick s port hdr b slot group epoch act = act s := by
  simp only [takeTrick, current, own, clean, spans, same, ne_eq, not_true_eq_false, Bool.false_eq_true, Bool.not_true, if_false]

end

end

end

end

/-! ### QUAR_CLEAR -/

theorem clearPort_of_quarantined {s : State} {p : Nat} (quarantined : (getPort s p).state = .quarantined) : clearPort s p =
    applyChecks (logBare (startDeadline (setPort s p { getPort s p with state := .active, awayGen := some s.gen }) (.flit p))
      evFabPortCleared (uPort p)) p true :=
  if_pos quarantined

theorem clearPort_of_other {s : State} {p : Nat} (other : (getPort s p).state ≠ .quarantined) : clearPort s p = s :=
  if_neg other

theorem takeQuarClear_of_dealer {s : State} {hdr : FrameHdr} {p : Nat} {d : Deck} (hd : deckOf s = some d)
    (dealer : hdr.src = dealerIndex s d) (isPort : p < 12) :
    takeQuarClear s hdr p (ownIndex s) = if hdr.poison then s else clearPort s p := by
  cases clean : hdr.poison <;> simp [takeQuarClear, hd, dealer, isPort, clean]

theorem takeQuarClear_of_refused {s : State} {hdr : FrameHdr} {p target : Nat}
    (refused : deckOf s = none ∨ hdr.poison = true ∨ target ≠ ownIndex s ∨ 12 ≤ p ∨
      ∃ d, deckOf s = some d ∧ hdr.src ≠ dealerIndex s d) : takeQuarClear s hdr p target = s := by
  rw [takeQuarClear]
  cases hd : deckOf s with
  | none => rfl
  | some d =>
    refine if_neg fun passes => ?_
    simp only [Bool.and_eq_true, Bool.not_eq_true', decide_eq_true_eq] at passes
    obtain ⟨⟨⟨clean, own⟩, dealer⟩, isPort⟩ := passes
    rcases refused with none | bad | other | noPort | ⟨d', hd', stranger⟩
    · exact absurd (hd.symm.trans none) (Option.some_ne_none d)
    · exact Bool.false_ne_true (clean.symm.trans bad)
    · exact other own
    · exact Nat.not_lt.mpr noPort isPort
    · exact stranger (Option.some.inj (hd.symm.trans hd') ▸ dealer)

/-! ### Management packets -/

section
variable {s : State} {src : Nat} {packet : List Byte}

theorem takePacket_of_other_type (other : fieldAt packet 4 1 ≠ 0x7E) : takePacket s src packet = s := if_pos other

section
variable {t : State} (known : fieldAt packet 4 1 = 0x7E) (starts : bitOf (fieldAt packet 3 1) 7 = true)
  (dropped : t = { s with mctpParts := s.mctpParts.filter fun e => !(e.1 = src && e.2.1 = fieldAt packet 7 1) })
include known starts dropped

/-- A packet that starts and ends a message is the message; the source's unfinished one of its kind is dropped. -/
theorem takePacket_of_whole {b : FrameBody} (ends : bitOf (fieldAt packet 3 1) 6 = true)
    (body : messageBody (fieldAt packet 7 1) (packet.drop 8) = some b) : takePacket s src packet = takeMessage t src b := by
  subst dropped
  simp only [takePacket, known, starts, ends, body, ne_eq, not_true_eq_false, if_false, if_true]

/-- A packet that only starts a message is kept in place of the source's unfinished one of its kind. -/
theorem takePacket_of_first (more : bitOf (fieldAt packet 3 1) 6 = false) : takePacket s src packet =
    { t with mctpParts := t.mctpParts ++ [(src, fieldAt packet 7 1, packet.drop 8)] } := by
  subst dropped
  simp only [takePacket, known, starts, more, ne_eq, not_true_eq_false, Bool.false_eq_true, if_false, if_true]

end

end

/-! ### The commands -/

section
variable (s : State) (hdr : FrameHdr)

theorem exec_trickArrive (slot : Nat) (group epoch : W32) : exec (.trickArrive hdr slot group epoch) s =
    .next (takeArrive s none hdr slot group epoch) := rfl

theorem exec_trickRelease (slot : Nat) (group epoch : W32) : exec (.trickRelease hdr slot group epoch) s =
    .next (takeReleaseFrame s none hdr slot group epoch) := rfl

theorem exec_quarClear (p target : Nat) : exec (.quarClear hdr p target) s = .next (takeQuarClear s hdr p target) := rfl

theorem exec_nack (reason : Nat) (header : List Byte) : exec (.nack hdr reason header) s = .next s := rfl

theorem exec_mgmt_of_own {packet : List Byte} (own : hdr.dest = ownIndex s) :
    exec (.mgmt hdr packet) s = .next (if hdr.poison then s else takePacket s hdr.src packet) :=
  congrArg Host.Outcome.next (if_neg (not_not_intro own))

theorem exec_mgmt_of_other {packet : List Byte} (other : hdr.dest ≠ ownIndex s) :
    exec (.mgmt hdr packet) s = .next (routeFrame s hdr.cls { hdr := hdr, body := .mgmt packet }) :=
  congrArg Host.Outcome.next (if_pos other)

end

/-- Settles O41: each clause is one test of a frame above, or what it does once it has passed them. -/
theorem spanFrames : Obligations.SpanFrames := by
  unfold Obligations.SpanFrames
  refine ⟨?trick, ?late, ?quarClear, ?refused, exec_nack, ?mgmt⟩
  case trick =>
    intro s hdr slot group epoch current own
    rw [exec_trickArrive, exec_trickRelease]
    refine ⟨fun clean spans same => ⟨?_, ?_, ?_⟩, ?_⟩
    · rw [takeArrive, takeTrick_of_sound _ _ _ current own clean spans same]
    · intro switch
      rw [takeReleaseFrame, takeTrick_of_sound _ _ _ current own clean spans same, if_pos switch]
    · intro d e plain hd entry
      rw [takeReleaseFrame, takeTrick_of_sound _ _ _ current own clean spans same, if_neg plain, hd, entry]
    · rintro ev args (⟨bad, rfl, rfl⟩ | ⟨clean, unknown, rfl, rfl⟩ | ⟨clean, spans, other, rfl, rfl⟩) t rfl
      · exact ⟨congrArg _ (takeTrick_of_poison none _ _ current own bad), congrArg _ (takeTrick_of_poison none _ _ current own bad)⟩
      · exact ⟨congrArg _ (takeTrick_of_unknown none _ _ current own clean unknown),
          congrArg _ (takeTrick_of_unknown none _ _ current own clean unknown)⟩
      · exact ⟨congrArg _ (takeTrick_of_other_epoch none _ _ current own clean spans other),
          congrArg _ (takeTrick_of_other_epoch none _ _ current own clean spans other)⟩
  case late =>
    rintro s hdr slot group epoch late t rfl
    exact ⟨congrArg _ (takeTrick_of_late none _ _ late), congrArg _ (takeTrick_of_late none _ _ late)⟩
  case quarClear =>
    intro s hdr p d hd dealer isPort
    rw [exec_quarClear, takeQuarClear_of_dealer hd dealer isPort]
    refine ⟨fun clean quarantined => ?_, fun other => ?_⟩
    · rw [clean, clearPort_of_quarantined quarantined]
      rfl
    · rw [clearPort_of_other other, ite_self]
  case refused =>
    intro s hdr p target refused
    rw [exec_quarClear, takeQuarClear_of_refused refused]
  case mgmt =>
    refine fun s hdr packet => ⟨fun own dropped => ?_, fun own clean known starts t started => ?_, exec_mgmt_of_other s hdr⟩
    · rw [exec_mgmt_of_own s hdr own]
      rcases dropped with bad | other
      · rw [if_pos bad]
      · rw [takePacket_of_other_type other, ite_self]
    · rw [exec_mgmt_of_own s hdr own, clean, if_neg Bool.false_ne_true]
      exact ⟨fun ends b body => congrArg _ (takePacket_of_whole known starts started ends body),
        fun more => congrArg _ (takePacket_of_first known starts started more)⟩

end Sys2Proof.Machine
end

section
/-! PROOF. Messages of a group (R312, R566, R567, R574, R581, R582, R587, R588): admission, alignment, READY, repair windows and probes. -/

namespace Sys2Proof.Machine

theorem ownGroup_of_deck {s : State} {m : GroupMsg} {d : Deck} (hd : deckOf s = some d) (own : d.role.group = m.group) :
    ownGroup s m = true := by
  simp only [ownGroup, hd, Option.any_some, own, decide_true]

/-! ### Admission -/

section
variable {s : State} {src : Nat} {m : GroupMsg} {d : Deck} (hd : deckOf s = some d) (own : d.role.group = m.group)
  (dealer : isDealer s = true) (member : (otherMembers s d).contains src = true)
include hd own dealer member

theorem takeJoin_of_other_deck (other : m.deckId ≠ d.id.deckId ∨ m.deckSerial ≠ d.id.serial) :
    takeJoin s src m = deckFault s evDckPeerMismatch noOffset [w32 src] [] := by
  simp only [takeJoin, hd, ownGroup_of_deck hd own, dealer, member, Bool.not_true, Bool.or_self, Bool.false_eq_true, if_false]
  exact if_pos (by simpa using other)

section
variable {s1 : State} (sameId : m.deckId = d.id.deckId) (sameSerial : m.deckSerial = d.id.serial) (kept : holdPart s src m = s1)
include sameId sameSerial kept

theorem takeJoin_of_same_deck : takeJoin s src m =
    if groupHeld s1.ctl.joined src 1 = false then s1
    else if s1.ctl.group = .forming ∧ s1.ctl.awaitAlign = false then tryForm s1
    else if (s1.ctl.group = .recovering ∨ s1.ctl.group = .held) ∧ s1.ctl.awaitAlign = false then
      checkReady (noteReady (dropParts s1 src 1) src)
    else sendGroup (dropParts s1 src 1) src (groupParts s1 d 2 0 (spanningPairs s1 d)) := by
  have isMember : src ∈ otherMembers s d := List.contains_iff_mem.mp member
  simp [takeJoin, hd, ownGroup_of_deck hd own, dealer, isMember, sameId, sameSerial, kept]

theorem takeJoin_of_part (part : groupHeld s1.ctl.joined src 1 = false) : takeJoin s src m = s1 := by
  rw [takeJoin_of_same_deck hd own dealer member sameId sameSerial kept, if_pos part]

section
variable (whole : groupHeld s1.ctl.joined src 1 = true)
include whole

theorem takeJoin_of_forming (forming : s1.ctl.group = .forming) (first : s1.ctl.awaitAlign = false) : takeJoin s src m = tryForm s1 := by
  rw [takeJoin_of_same_deck hd own dealer member sameId sameSerial kept, if_neg (by simp [whole]), if_pos ⟨forming, first⟩]

/-- While the group recovers or is held, a JOIN counts as the member's READY. -/
theorem takeJoin_of_recovering (recovers : s1.ctl.group = .recovering ∨ s1.ctl.group = .held) (first : s1.ctl.awaitAlign = false) :
    takeJoin s src m = checkReady (noteReady (dropParts s1 src 1) src) := by
  have formed : s1.ctl.group ≠ .forming := by rcases recovers with group | group <;> simp [group]
  rw [takeJoin_of_same_deck hd own dealer member sameId sameSerial kept, if_neg (by simp [whole]),
    if_neg fun forms => formed forms.1, if_pos ⟨recovers, first⟩]

/-- At any other time a member that joins is sent the values in force. -/
theorem takeJoin_of_other (other : s1.ctl.awaitAlign = true ∨
      (s1.ctl.group ≠ .forming ∧ s1.ctl.group ≠ .recovering ∧ s1.ctl.group ≠ .held)) :
    takeJoin s src m = sendGroup (dropParts s1 src 1) src (groupParts s1 d 2 0 (spanningPairs s1 d)) := by
  rw [takeJoin_of_same_deck hd own dealer member sameId sameSerial kept, if_neg (by simp [whole])]
  rcases other with aligned | ⟨formed, recovered, free⟩
  · simp [aligned]
  · simp [formed, recovered, free]

end

end

end

theorem takeJoin_of_member {s : State} (member : isDealer s = false) (src : Nat) (m : GroupMsg) : takeJoin s src m = s := by
  cases hd : deckOf s <;> simp [takeJoin, hd, member]

/-! ### Alignment -/

theorem takeAlign_of_dealer {s s1 : State} {src : Nat} {m : GroupMsg} {d : Deck} (hd : deckOf s = some d)
    (own : d.role.group = m.group) (sender : fromDealer s d src = true) (away : src ≠ ownIndex s) (kept : holdPart s src m = s1) :
    takeAlign s src m =
      if groupHeld s1.ctl.joined src 2 then openHeld (adoptAlign (learnDealer s1 d src).1 d src) else s1 := by
  simp [takeAlign, hd, ownGroup_of_deck hd own, sender, away, kept]

/-! ### READY, repair windows and probes -/

section
variable {s : State} {src : Nat} {m : GroupMsg} {d : Deck} (hd : deckOf s = some d) (own : d.role.group = m.group)
include hd own

theorem takeProbeAck_of_own : takeProbeAck s m = { s with ctl := { s.ctl with probesMissed := 0 } } :=
  if_pos (ownGroup_of_deck hd own)

theorem takeWindowOpen_of_member (member : isDealer s = false) : takeWindowOpen s m =
    workWindow { s with ctl := { s.ctl with group := if s.ctl.group = .serving then .window else s.ctl.group } } := by
  simp [takeWindowOpen, ownGroup_of_deck hd own, member, modCtl]

section
variable (dealer : isDealer s = true)
include dealer

theorem takeReady_of_current (current : m.gen = s.gen) : takeReady s src m =
    checkReady { s with ctl := { s.ctl with readyFrom := s.ctl.readyFrom.filter (· ≠ src) ++ [src] } } := by
  simp [takeReady, ownGroup_of_deck hd own, dealer, current, noteReady, modCtl]

theorem takeWindowOpen_of_dealer : takeWindowOpen s m = openWindow { s with ctl := { s.ctl with windowAsked := true } } := by
  simp [takeWindowOpen, ownGroup_of_deck hd own, dealer, modCtl]

theorem takeWindowDone_of_open (isOpen : s.ctl.windowOpen = true) : takeWindowDone s src m = windowFrom s d src := by
  simp [takeWindowDone, hd, ownGroup_of_deck hd own, dealer, isOpen]

theorem takeProbe_of_dealer : takeProbe s src m = sendGroup s src (groupParts s d 7 0 []) := by
  simp [takeProbe, hd, ownGroup_of_deck hd own, dealer]

end

end

section
variable {s : State} {src : Nat} {m : GroupMsg}

theorem takeReady_of_refused (refused : isDealer s = false ∨ ownGroup s m = false ∨ m.gen ≠ s.gen) : takeReady s src m = s :=
  if_pos (by simpa [or_assoc] using refused)

theorem takeWindowDone_of_refused (refused : isDealer s = false ∨ ownGroup s m = false ∨ s.ctl.windowOpen = false) :
    takeWindowDone s src m = s := by
  rw [takeWindowDone]
  split
  · rfl
  · exact if_neg (by simpa [imp_iff_not_or, or_assoc] using refused)

theorem takeProbe_of_refused (refused : isDealer s = false ∨ ownGroup s m = false) : takeProbe s src m = s := by
  rw [takeProbe]
  split
  · rfl
  · exact if_neg (by simpa [imp_iff_not_or] using refused)

end

/-! ### Another group -/

section
variable {s : State} {m : GroupMsg} (other : ownGroup s m = false) (src : Nat)
include other

theorem takeJoin_of_other_group : takeJoin s src m = s := by
  cases hd : deckOf s <;> simp [takeJoin, hd, other]

theorem takeAlign_of_other_group : takeAlign s src m = s := by
  cases hd : deckOf s <;> simp [takeAlign, hd, other]

theorem takeWindowOpen_of_other_group : takeWindowOpen s m = s := by
  simp [takeWindowOpen, other]

theorem takeProbeAck_of_other_group : takeProbeAck s m = s := by
  simp [takeProbeAck, other]

end

/-! ### The commands -/

section
variable (s : State) (src : Nat) (m : GroupMsg)

theorem exec_join : exec (.join src m) s = .next (takeJoin s src m) := rfl

theorem exec_align : exec (.align src m) s = .next (takeAlign s src m) := rfl

theorem exec_ready : exec (.ready src m) s = .next (takeReady s src m) := rfl

theorem exec_windowOpen : exec (.windowOpen m) s = .next (takeWindowOpen s m) := rfl

theorem exec_windowDone : exec (.windowDone src m) s = .next (takeWindowDone s src m) := rfl

theorem exec_probe : exec (.probe src m) s = .next (takeProbe s src m) := rfl

theorem exec_probeAck : exec (.probeAck m) s = .next (takeProbeAck s m) := rfl

end

/-- Settles O44: each clause is one case of a message above. -/
theorem groupMessages : Obligations.GroupMessages := by
  unfold Obligations.GroupMessages
  simp only [exec_join, exec_align, exec_ready, exec_windowOpen, exec_windowDone, exec_probe, exec_probeAck, Host.Outcome.next.injEq]
  refine ⟨?join, ?align, ?dealer, ?member, fun s m d => takeProbeAck_of_own, ?otherGroup⟩
  case join =>
    exact fun s s1 src m d hd dealer own member => ⟨takeJoin_of_other_deck hd own dealer member,
      fun sameId sameSerial kept => ⟨takeJoin_of_part hd own dealer member sameId sameSerial kept,
        fun whole => ⟨takeJoin_of_forming hd own dealer member sameId sameSerial kept whole,
          takeJoin_of_recovering hd own dealer member sameId sameSerial kept whole,
          takeJoin_of_other hd own dealer member sameId sameSerial kept whole⟩⟩⟩
  case align =>
    intro s s1 src m d hd own sender away kept
    rw [takeAlign_of_dealer hd own sender away kept]
    exact ⟨fun whole => if_pos whole, fun part => if_neg (Bool.not_eq_true _ ▸ part)⟩
  case dealer =>
    exact fun s src m d hd own dealer => ⟨takeReady_of_current hd own dealer, fun older => takeReady_of_refused (.inr (.inr older)),
      takeWindowOpen_of_dealer hd own dealer, takeWindowDone_of_open hd own dealer,
      fun closed => takeWindowDone_of_refused (.inr (.inr closed)), takeProbe_of_dealer hd own dealer⟩
  case member =>
    exact fun s src m d hd own member => ⟨takeWindowOpen_of_member hd own member, takeReady_of_refused (.inl member),
      takeWindowDone_of_refused (.inl member), takeProbe_of_refused (.inl member), takeJoin_of_member member src m⟩
  case otherGroup =>
    exact fun s src m other => ⟨takeAlign_of_other_group other src, takeReady_of_refused (.inr (.inl other)),
      takeWindowOpen_of_other_group other, takeWindowDone_of_refused (.inr (.inl other)), takeProbe_of_refused (.inr other),
      takeProbeAck_of_other_group other, takeJoin_of_other_group other src⟩

end Sys2Proof.Machine
end

section
/-! PROOF. Training of Weazen ports (R348 to R353, Tables 11.2 and 11.3): each command in each step, and what the checks of the bodies
leave of a port whose training ends. -/

namespace Sys2Proof.Machine

/-! ### One port -/

theorem Port.ne_off_of_state {q : Port} (other : q.state ≠ .off) : q ≠ Port.off :=
  fun isOff => other (congrArg Port.state isOff)

/-- A second write of a port replaces a first one that is not its state at power-up. -/
theorem setPort_setPort_of_ne {s : State} {p : Nat} {q : Port} (some_port : q ≠ Port.off) (r : Port) :
    setPort (setPort s p q) p r = setPort s p r :=
  congrArg (fun m => { s with ports := m }) (sput_sput_of_ne Port.off s.ports p q r some_port)

theorem getPort_startDeadline (s : State) (d : Deadline) (p : Nat) : getPort (startDeadline s d) p = getPort s p := rfl

/-- Logging leaves every port alone. -/
theorem getPort_logEvent (s : State) (e : Ev) (u : Nat) (t : Option Nat) (d : Detail) (p : Nat) :
    getPort (logEvent s e u t d) p = getPort s p := by
  obtain ⟨out, shape⟩ := logAtDie_shape s e u (dieOf u) t d
  rw [logEvent, shape]
  rfl

/-! ### The cable -/

section
variable {s s1 : State} {p : Fin 12} (noted : s1 = setPort s p.val { getPort s p.val with cable := true })
include noted

theorem execCablePresent_eq : execCablePresent p s =
    .next (if (getPort s p.val).state = .off then startTraining s1 p.val else s1) := by
  have cabled : getPort s1 p.val = { getPort s p.val with cable := true } := by
    rw [noted]
    exact getPort_setPort_of_ne s p.val _ fun isOff => Bool.false_ne_true (congrArg Port.cable isOff).symm
  rw [execCablePresent, modPort, ← noted, cabled]

theorem execCablePresent_of_trainable (isOff : (getPort s p.val).state = .off) (may : mayTrain s1 p.val = true) :
    execCablePresent p s =
      .next (moveRoutes s1 p.val fun q => { portOff q with state := .training, step := 1, role := roleOf s1 p.val % 0xFF }) := by
  rw [execCablePresent_eq noted, if_pos isOff, startTraining, if_pos may]

theorem execCablePresent_of_untrainable (isOff : (getPort s p.val).state = .off) (mayNot : mayTrain s1 p.val = false) :
    execCablePresent p s = .next s1 := by
  rw [execCablePresent_eq noted, if_pos isOff, startTraining, if_neg (by simp [mayNot])]

theorem execCablePresent_of_other (other : (getPort s p.val).state ≠ .off) : execCablePresent p s = .next s1 := by
  rw [execCablePresent_eq noted, if_neg other]

end

/-! ### The steps and their bounds -/

theorem stepBound_eq (step : Nat) : stepBound step = if step = 2 then 5000000 else if step = 3 then 500000 else 100000 := by
  match step with
  | 0 | 1 | 2 | 3 => rfl
  | n + 4 => rw [if_neg (by omega), if_neg (by omega)]; rfl

section
variable {s : State} {p : Fin 12}

theorem execTrainStepTimeout_of_unbounded (step : (getPort s p.val).step < 2) : execTrainStepTimeout p s = .next s :=
  if_pos (by simp only [step, decide_true, Bool.or_true])

section
variable (trains : (getPort s p.val).state = .training)
include trains

theorem execTrainPatternDetected_of_step1 (step : (getPort s p.val).step = 1) :
    execTrainPatternDetected p s = .next (enterStep s p.val 2) := by
  simp only [execTrainPatternDetected, trains, step, decide_true, Bool.and_self, if_true]

theorem execTrainStepDone_of_step2_or_3 (step : (getPort s p.val).step = 2 ∨ (getPort s p.val).step = 3) :
    execTrainStepDone p s = .next (enterStep s p.val ((getPort s p.val).step + 1)) := by
  rw [execTrainStepDone, if_neg (not_not_intro trains), if_pos (by simpa using step)]

theorem execTrainStepDone_of_step4 (step : (getPort s p.val).step = 4) :
    execTrainStepDone p s = .next (sendTrain (enterStep s p.val 5) p.val) := by
  simp [execTrainStepDone, trains, step]

/-- Step 5 ends with a body that came in step 4. -/
theorem execTrainStepDone_of_step5 (step : (getPort s p.val).step = 5) {b : TrainBody} (known : (getPort s p.val).peer = some b) :
    execTrainStepDone p s = .next (checkPort s p.val false) := by
  simp [execTrainStepDone, trains, step, known]

theorem takeTrain_of_step4 (step : (getPort s p.val).step = 4) (b : TrainBody) :
    takeTrain s p.val b = setPort s p.val { getPort s p.val with peer := some b } := by
  simp [takeTrain, trained, trains, step]

theorem takeTrain_of_step5 (step : (getPort s p.val).step = 5) (b : TrainBody) :
    takeTrain s p.val b = checkPort (setPort s p.val { getPort s p.val with peer := some b }) p.val false := by
  simp [takeTrain, trained, trains, step]

section
variable {u : State} (step : 2 ≤ (getPort s p.val).step)
  (expired : u = expire s (.trainStep p.val) (stepBound (getPort s p.val).step))
include step expired

theorem execTrainStepTimeout_of_early_attempt (early : (getPort s p.val).attempts < 2) : execTrainStepTimeout p s =
    .next (moveRoutes u p.val fun q => { portOff q with state := .training, step := 1, attempts := q.attempts + 1 }) := by
  have bounded : ¬(getPort s p.val).step < 2 := Nat.not_lt.mpr step
  simp only [execTrainStepTimeout, trains, bounded, early, ← expired, ne_eq, not_true_eq_false, decide_false, Bool.or_self,
    Bool.false_eq_true, if_false, if_true]

theorem execTrainStepTimeout_of_third_attempt (third : 2 ≤ (getPort s p.val).attempts) : execTrainStepTimeout p s =
    .next (moveRoutes (logGen u evFabTrainFail (uPort p.val) none [w32 (getPort s p.val).step] []) p.val
      fun q => { portOff q with state := .failed, attempts := 3 }) := by
  have bounded : ¬(getPort s p.val).step < 2 := Nat.not_lt.mpr step
  simp only [execTrainStepTimeout, trains, bounded, Nat.not_lt.mpr third, ← expired, ne_eq, not_true_eq_false, decide_false,
    Bool.or_self, Bool.false_eq_true, if_false]

end

end

end

/-! ### The checks that end training -/

section
variable {own peer : TrainBody} {v : Nat × Nat}

theorem agreedVersion_bounds (agreed : agreedVersion own peer = some v) :
    v.1 = min own.majorMax peer.majorMax ∧ own.majorMin ≤ v.1 ∧ peer.majorMin ≤ v.1 := by
  simp only [agreedVersion] at agreed
  split at agreed
  · exact absurd agreed.symm (Option.some_ne_none v)
  · next common =>
    have major : v.1 = min own.majorMax peer.majorMax := by
      split at agreed <;> rw [← Option.some.inj agreed]
    simp only [Bool.or_eq_true, decide_eq_true_eq, not_or, Nat.not_lt] at common
    exact ⟨major, major ▸ common.1, major ▸ common.2⟩

theorem checkBodies_of_deck {s : State} {p : Nat} {d : Deck} (hd : deckOf s = some d) (inGroup : own.role ≠ 3)
    (agreed : (agreedVersion own peer).isSome = true) : (checkBodies s p own peer).1 =
      if peer.module = (d.role.neighbours[p]?).getD 0xFFFF ∧ peer.role = own.role ∧ (own.role ≠ 1 ∨ peer.group = own.group)
        then .active else .mgmtOnly := by
  obtain ⟨v, hv⟩ := Option.isSome_iff_exists.mp agreed
  simp only [checkBodies, hv, hd, if_neg inGroup, Bool.and_eq_true, Bool.or_eq_true, decide_eq_true_eq, and_assoc]
  split <;> rfl

theorem checkBodies_of_no_version {s : State} {p : Nat} (none_agreed : agreedVersion own peer = none) :
    checkBodies s p own peer = (.incompatible, some evFabVersionMismatch) := by
  simp only [checkBodies, none_agreed]

end

section
variable {s : State} {p : Nat} {b : TrainBody}

/-- A port that is neither off nor ACTIVE enters a state; in ACTIVE it counts the time since its last good flit. -/
theorem enterState_setPort {q : Port} (on : q.state ≠ .off) (inactive : q.state ≠ .active) (st : PortState) :
    enterState (setPort s p q) p st =
      if st = .active then startDeadline (setPort s p { q with state := st }) (.flit p) else setPort s p { q with state := st } := by
  have some_port := Port.ne_off_of_state on
  simp only [enterState, modPort, getPort_setPort_of_ne s p q some_port, setPort_setPort_of_ne some_port, inactive, ne_eq,
    not_false_eq_true, decide_true, Bool.and_true, decide_eq_true_eq]

/-- A port whose training has ended with the peer's body, in the state where the checks leave it. -/
def checkedPort (s : State) (p : Nat) (b : TrainBody) (st : PortState) : Port :=
  let v := (agreedVersion (trainBody s p) b).getD (0, 0)
  { getPort s p with
    peer := some b, state := st, step := 6, role := roleOf s p % 0xFF, verMajor := v.1, verMinor := v.2,
    recheckDown := if st = .active then false else (getPort s p).recheckDown }

section
variable (trains : (getPort s p).state = .training)
include trains

theorem getPort_setPort_peer :
    getPort (setPort s p { getPort s p with peer := some b }) p = { getPort s p with peer := some b } :=
  getPort_setPort_of_ne s p _ (Port.ne_off_of_state (by simp [trains]))

/-- The peer's body in hand already makes no difference to what the checks leave. -/
theorem setPort_checkedPort_of_body {s' : State} (kept : s' = setPort s p { getPort s p with peer := some b }) (st : PortState) :
    setPort s' p (checkedPort s' p b st) = setPort s p (checkedPort s p b st) := by
  rw [kept, setPort_setPort_of_ne (Port.ne_off_of_state (by simp [trains])), checkedPort,
    getPort_setPort_peer trains]
  rfl

section
variable (known : (getPort s p).peer = some b)
include known

theorem applyChecks_of_training {t : State} {st : PortState} {e : Option Ev}
    (checks : checkBodies s p (trainBody s p) b = (st, e))
    (entered : t = if st = .active then startDeadline (setPort s p (checkedPort s p b st)) (.flit p)
      else setPort s p (checkedPort s p b st)) :
    applyChecks s p false = e.elim t fun e => logMismatch t e p (trainBody s p) b := by
  simp only [entered, applyChecks, known, checks, trains, reduceCtorEq, if_false, decide_false, Bool.false_and, Bool.or_false,
    Bool.false_eq_true]
  rw [enterState_setPort (by simp) (by simp)]
  cases e <;> rfl

/-- In ACTIVE, a member that still forms its group asks again (log 106). -/
theorem checkPort_of_active (checks : checkBodies s p (trainBody s p) b = (.active, none)) :
    checkPort s p false = joinAgain (startDeadline (setPort s p (checkedPort s p b .active)) (.flit p)) := by
  have active : (checkedPort s p b .active).state ≠ .off := by simp only [checkedPort, ne_eq, reduceCtorEq, not_false_eq_true]
  rw [checkPort, applyChecks_of_training trains known checks rfl]
  refine if_pos ?_
  rw [if_pos rfl, Option.elim_none, getPort_startDeadline, getPort_setPort_of_ne _ _ _ (Port.ne_off_of_state active)]
  rfl

theorem checkPort_of_no_version (none_agreed : agreedVersion (trainBody s p) b = none) : checkPort s p false =
    logMismatch (setPort s p (checkedPort s p b .incompatible)) evFabVersionMismatch p (trainBody s p) b := by
  have inactive : (checkedPort s p b .incompatible).state ≠ .off := by
    simp only [checkedPort, ne_eq, reduceCtorEq, not_false_eq_true]
  rw [checkPort, applyChecks_of_training trains known (checkBodies_of_no_version none_agreed) rfl]
  refine if_neg ?_
  rw [if_neg (by simp), Option.elim_some, logMismatch, getPort_logEvent, getPort_setPort_of_ne _ _ _ (Port.ne_off_of_state inactive)]
  simp [checkedPort]

end

end

end

section
variable {s : State} {p : Fin 12} {b : TrainBody} (trains : (getPort s p.val).state = .training) (step : (getPort s p.val).step = 5)
include trains step

/-- The body of the peer comes as a TRAIN frame in step 5. -/
theorem takeTrain_of_active (checks : checkBodies s p.val (trainBody s p.val) b = (.active, none)) :
    takeTrain s p.val b = joinAgain (startDeadline (setPort s p.val (checkedPort s p.val b .active)) (.flit p.val)) := by
  have port := getPort_setPort_peer (b := b) trains
  rw [takeTrain_of_step5 trains step, ← setPort_checkedPort_of_body trains rfl .active]
  exact checkPort_of_active (by rw [port]; exact trains) (by rw [port]) checks

theorem takeTrain_of_no_version (none_agreed : agreedVersion (trainBody s p.val) b = none) :
    takeTrain s p.val b =
      logMismatch (setPort s p.val (checkedPort s p.val b .incompatible)) evFabVersionMismatch p.val (trainBody s p.val) b := by
  have port := getPort_setPort_peer (b := b) trains
  rw [takeTrain_of_step5 trains step, ← setPort_checkedPort_of_body trains rfl .incompatible]
  exact checkPort_of_no_version (by rw [port]; exact trains) (by rw [port]) none_agreed

end

/-! ### The commands -/

section
variable (s : State) (p : Fin 12)

theorem exec_cablePresent : exec (.cablePresent p) s = execCablePresent p s := rfl
theorem exec_trainPatternDetected : exec (.trainPatternDetected p) s = execTrainPatternDetected p s := rfl
theorem exec_trainStepDone : exec (.trainStepDone p) s = execTrainStepDone p s := rfl
theorem exec_trainStepTimeout : exec (.trainStepTimeout p) s = execTrainStepTimeout p s := rfl
theorem exec_train (b : TrainBody) : exec (.train p b) s = .next (takeTrain s p.val b) := rfl

end

/-- Settles O37: each clause is one command in one step, or the checks at the end of step 5. -/
theorem portTraining : Obligations.PortTraining := by
  unfold Obligations.PortTraining
  simp only [exec_cablePresent, exec_trainPatternDetected, exec_trainStepDone, exec_trainStepTimeout, exec_train]
  refine ⟨?cable, ?steps, ?active, fun s p own b d hd => checkBodies_of_deck hd, ?noVersion, fun own peer v => agreedVersion_bounds⟩
  case cable =>
    exact fun s p s1 noted => ⟨execCablePresent_of_trainable noted, execCablePresent_of_untrainable noted,
      execCablePresent_of_other noted⟩
  case steps =>
    refine fun s p trains => ⟨execTrainPatternDetected_of_step1 trains, fun step => ?_, fun step => ?_,
      execTrainStepDone_of_step4 trains, fun step b => congrArg _ (takeTrain_of_step4 trains step b), fun step u expired => ?_,
      execTrainStepTimeout_of_unbounded⟩
    · rw [execTrainStepDone_of_step2_or_3 trains (.inl step), step]
      rfl
    · rw [execTrainStepDone_of_step2_or_3 trains (.inr step), step]
      rfl
    · rw [← stepBound_eq] at expired
      exact ⟨execTrainStepTimeout_of_early_attempt trains step expired, execTrainStepTimeout_of_third_attempt trains step expired⟩
  case active =>
    intro s p b v trains step agreed checks t ends
    have port : checkedPort s p.val b .active = { getPort s p.val with
        peer := some b, state := .active, step := 6, role := roleOf s p.val % 0xFF, verMajor := v.1, verMinor := v.2,
        recheckDown := false } := by
      simp only [checkedPort, agreed, Option.getD_some, if_true]
    rw [← port] at ends
    rw [ends, takeTrain_of_active trains step checks]
    refine ⟨rfl, fun known => ?_⟩
    rw [execTrainStepDone_of_step5 trains step known, checkPort_of_active trains known checks]
  case noVersion =>
    intro s p b trains step none_agreed
    rw [takeTrain_of_no_version trains step none_agreed, checkedPort, none_agreed]
    rfl

end Sys2Proof.Machine
end

section
/-! PROOF. Flits of Weazen ports, links that go down and the seconds of violations (R354 to R357, R374 to R376, R650, Table 11.12). -/

namespace Sys2Proof.Machine

/-! ### Flits off the lanes -/

theorem goodFlit_eq_some {f : Flit} {bs : List Byte} (good : goodFlit f = some bs) : f.errors.eraseDups.length ≤ 6 ∧
    bs = offLanes f.lanes ∧ fieldAt bs 204 7 % 2 ^ 51 = parityOf (bs.take 204) := by
  simp only [goodFlit] at good
  split at good
  · exact absurd good.symm (Option.some_ne_none bs)
  · next clean =>
    obtain rfl := Option.some.inj good
    simpa using clean

section
variable {s : State} {p : Fin 12} {f : Flit}

theorem execFlitReceive_of_unlocked (unlocked : readsFlits (getPort s p.val) = false) : execFlitReceive p f s = .next s :=
  if_pos (by simp only [unlocked, Bool.not_false])

theorem execFlitReceive_of_bad (locked : readsFlits (getPort s p.val) = true) (bad : goodFlit f = none) :
    execFlitReceive p f s = .next (discardFlit s p.val) := by
  simp only [execFlitReceive, locked, bad, Bool.not_true, Bool.false_eq_true, if_false]

section
variable {c : Port} {t : State} (some_port : c ≠ Port.off)
  (timed : t = if c.state = .active then startDeadline (setPort s p.val c) (.flit p.val) else setPort s p.val c)
include some_port timed

theorem getPort_of_counted : getPort t p.val = c := by
  have port := getPort_setPort_of_ne s p.val c some_port
  rw [timed]
  split
  · exact port
  · exact port

theorem execFlitReceive_of_good {bs : List Byte} (locked : readsFlits (getPort s p.val) = true)
    (counted : c = if f.errors = [] then getPort s p.val
      else { getPort s p.val with corrected := satInc 0xFFFFFFFF (getPort s p.val).corrected })
    (good : goodFlit f = some bs) : execFlitReceive p f s = .next (takeFlit t p.val bs) := by
  have port := getPort_setPort_of_ne s p.val c some_port
  rw [execFlitReceive, if_neg (by simp [locked]), good]
  simp only [modPort, List.isEmpty_iff, ← counted, port, ← timed]

end

end

/-! ### Good flits -/

section
variable {s : State} {p : Nat} {bs : List Byte} {c : Port} (port : getPort s p = c)
include port

theorem takeFlit_of_padding (padding : allPadding c bs = true) : takeFlit s p bs = tellPeer (takeHeader s p bs) p := by
  rw [takeFlit, port]
  exact if_pos padding

section
variable (payload : allPadding c bs = false)
include payload

theorem takeFlit_of_next (next : flitSeq bs = c.rxNext) {u : State}
    (taken : u = takeHeader (setPort s p { c with rxNext := c.rxNext + 1, rxWait := false, ackDue := true }) p bs) :
    takeFlit s p bs = if readsFlits (getPort u p) then tellPeer (takePayload u p bs) p else u := by
  rw [takeFlit, port, if_neg (by simp [payload]), if_pos next, ← taken]

section
variable (other : flitSeq bs ≠ c.rxNext)
include other

theorem takeFlit_of_known (known : c.rxWait = true ∨ seenBefore c (flitSeq bs) = true) : takeFlit s p bs = s := by
  rw [takeFlit, port, if_neg (by simp [payload]), if_neg other, if_pos (by simpa using known)]

theorem takeFlit_of_gap (follows : c.rxWait = false) (ahead : seenBefore c (flitSeq bs) = false) :
    takeFlit s p bs = tellPeer (setPort s p { c with rxWait := true, nakDue := true }) p := by
  rw [takeFlit, port, if_neg (by simp [payload]), if_neg other, if_neg (by simp [follows, ahead]), discardFlit, modPort, port]

end

end

end

/-! ### Acknowledgements and replays -/

/-- The flits up to the first one with an acknowledged SEQ are dropped. -/
theorem dropAcked_of_retained {q : Port} {ack : BitVec 10} {pre rest : List RetFlit} {r : RetFlit} (kept : q.retain = pre ++ r :: rest)
    (acked : r.seq = ack) (first : ∀ x ∈ pre, x.seq ≠ ack) : dropAcked q ack = { q with retain := rest } := by
  have unacked : ((pre.zip (List.range pre.length)).find? fun e => e.1.seq = ack) = none :=
    List.find?_eq_none.mpr fun e he => by simpa using first e.1 (List.of_mem_zip he).1
  have found : ((q.retain.zip (List.range q.retain.length)).find? fun e => e.1.seq = ack) = some (r, pre.length) := by
    rw [kept, List.length_append, List.range_add, List.zip_append List.length_range.symm, List.find?_append, unacked,
      List.length_cons, List.range_succ_eq_map, List.map_cons, List.zip_cons_cons, List.find?_cons_of_pos (by simpa using acked)]
    rfl
  rw [dropAcked, found]
  simp [kept]

section
variable {s : State} {p : Nat} {r : RetFlit} {rest : List RetFlit} (kept : (getPort s p).retain = r :: rest)
include kept

theorem takeNak_of_few_replays (few : r.replays < 3) : takeNak s p =
    ({ r with replays := r.replays + 1 } :: rest).foldl (fun s r => putFlit s p r.seq r.credit r.first r.payload) (setPort s p
      { getPort s p with
        retain := { r with replays := r.replays + 1 } :: rest, replays := satInc 0xFFFF (getPort s p).replays }) := by
  simp only [takeNak, kept, if_neg (Nat.not_le.mpr few)]
  rfl

theorem takeNak_of_three_replays (three : 3 ≤ r.replays) : takeNak s p = retirePort s p r.seq := by
  simp only [takeNak, kept, if_pos three]

end

/-! ### Links that go down -/

section
variable {s : State} {p : Fin 12}

theorem linkDown_of_active (active : (getPort s p.val).state = .active) : linkDown s p.val =
    portLeavesActive (retrainPort (logBare s evFabLinkDown (uPort p.val)) p.val) p.val evFabLinkDown :=
  if_pos active

theorem linkDown_of_inactive (inactive : (getPort s p.val).state ≠ .active) : linkDown s p.val = s := if_neg inactive

theorem execFlitTimeout_of_active (active : (getPort s p.val).state = .active) :
    execFlitTimeout p s = .next (linkDown (expire s (.flit p.val) 1000) p.val) := by
  rw [execFlitTimeout, if_pos active]

theorem execFlitTimeout_of_inactive (inactive : (getPort s p.val).state ≠ .active) : execFlitTimeout p s = .next s := by
  rw [execFlitTimeout, if_neg inactive, linkDown_of_inactive inactive]

end

/-! ### The seconds of violations -/

theorem getPort_logViolations (es : Sparse Nat) (s : State) (p n : Nat) :
    getPort (es.foldl (fun s e => logGen s evFabPeerViolation (uPort p) none [w32 e.1, w32 e.2] []) s) n = getPort s n := by
  induction es generalizing s with
  | nil => rfl
  | cons e es ih => rw [List.foldl_cons, ih, logGen, getPort_logEvent]

theorem execFabViolationSecondTick_eq (s : State) : execFabViolationSecondTick s = .next ((List.range 12).foldl (fun s p =>
    setPort ((getPort s p).secViol.foldl (fun s e => logGen s evFabPeerViolation (uPort p) none [w32 e.1, w32 e.2] []) s) p
      { getPort s p with lastSecond := min 0xFFFF (((getPort s p).secViol.map (·.2)).sum), secViol := [], nacks := 0 }) s) := by
  simp only [execFabViolationSecondTick, modPort, getPort_logViolations, secondTotal]

/-! ### The commands -/

section
variable (s : State) (p : Fin 12)

theorem exec_flitReceive (f : Flit) : exec (.flitReceive p f) s = execFlitReceive p f s := rfl
theorem exec_laneSignalLoss : exec (.laneSignalLoss p) s = .next (linkDown s p.val) := rfl
theorem exec_flitTimeout : exec (.flitTimeout p) s = execFlitTimeout p s := rfl
theorem exec_fabViolationSecondTick : exec .fabViolationSecondTick s = execFabViolationSecondTick s := rfl

end

/-- Settles O38: each clause is one case of a flit or of a link above. -/
theorem linkEvents : Obligations.LinkEvents := by
  unfold Obligations.LinkEvents
  simp only [exec_flitReceive, exec_laneSignalLoss, exec_flitTimeout, exec_fabViolationSecondTick]
  refine ⟨fun s p f => execFlitReceive_of_unlocked, fun s p f => execFlitReceive_of_bad, fun f bs => goodFlit_eq_some, ?good, ?down,
    ?inactive, execFabViolationSecondTick_eq, fun q ack pre rest r => dropAcked_of_retained,
    fun s p r rest kept => ⟨takeNak_of_few_replays kept, takeNak_of_three_replays kept⟩⟩
  case good =>
    intro s t p f bs locked good c counted some_port timed
    have port := getPort_of_counted some_port timed
    rw [execFlitReceive_of_good some_port timed locked counted good]
    exact ⟨fun padding => congrArg _ (takeFlit_of_padding port padding),
      fun payload next u taken => congrArg _ (takeFlit_of_next port payload next taken),
      fun payload other known => congrArg _ (takeFlit_of_known port payload other known),
      fun payload other follows ahead => congrArg _ (takeFlit_of_gap port payload other follows ahead)⟩
  case down =>
    refine fun s p active => ⟨congrArg _ (linkDown_of_active active), ?_⟩
    rintro _ rfl stillActive
    rw [execFlitTimeout_of_active active, linkDown_of_active stillActive]
  case inactive =>
    exact fun s p inactive => ⟨congrArg _ (linkDown_of_inactive inactive), execFlitTimeout_of_inactive inactive⟩

end Sys2Proof.Machine
end

section
/-! PROOF. The serving, cache, window, identity and fabric commands of the vendor mailbox (R369, R377, R420, R421, R450, R473, R478, R492,
R517; Tables 11.16, 13.3, 14.8, 15.10): what each does in each of its cases once its interface has taken it. -/

namespace Sys2Proof.Machine

/-! ### Background commands that read from the host -/

theorem startBg_busMaster (s : State) (cci op : Nat) : (startBg s cci op).host.busMaster = s.host.busMaster := rfl

theorem toHostReq_startBg {s : State} (master : s.host.busMaster = true) (cci op : Nat) (m : HostMsg) :
    toHostReq (startBg s cci op) m = toHost (startBg s cci op) m := if_pos master

/-! ### CHAN_CREATE -/

section
variable {s : State} {c : Fin 2} {input : List Byte} (taken : vendorTaken s c.val 0xC040 40 input false)
include taken

theorem execChanCreate_of_no_deck (noDeck : deckOf s = none) :
    execChanCreate c input s = .next (refuseWith s c.val 0xC040 evSrvNoDeck uCtl none [w32 0xC040] []) := by
  rw [execChanCreate, vendor_of_taken _ taken rfl]
  exact congrArg _ (if_pos (by simp only [noDeck, Option.isNone_none]))

theorem execChanCreate_of_free {e : TableEntry} {n : Nat} (deck : (deckOf s).isSome) (dealer : isDealer s = true)
    (entry : tableEntry s (inByte input 0) = some e) (enabled : (getTable s (inByte input 0)).enabled = true)
    (stays : (getTable s (inByte input 0)).disabling = false) (suited : chanFieldsBad s input = false)
    (free : freeChanIndex s e = some n) : execChanCreate c input s = .next (answered (openChannel s n input) c.val 0xC040 .success 0
      (leBytes 4 (chanHandle (openChannel s n input) n).toNat)) := by
  have accepted : ¬(deckOf s).isNone = true := by simp [Option.isSome_iff_ne_none.mp deck]
  rw [execChanCreate, vendor_of_taken _ taken rfl]
  simp only [accepted, dealer, entry, enabled, stays, suited, free, Bool.not_true, Bool.or_self, Bool.false_eq_true, if_false,
    replyOk_eq_answered]

end

/-! ### CHAN_DESTROY, CHAN_RESUME and CHAN_QUERY -/

section
variable {s : State} {c : Fin 2} {input : List Byte} (zero : zeroFrom input 4 = true)
include zero

section
variable (taken : vendorTaken s c.val 0xC041 8 input true)
include taken

theorem execChanDestroy_of_channel {s1 : State} {n : Nat} (channel : chanOf s (w32 (inField input 0 4)) = some n)
    (marked : s1 = modChan (startBg s c.val 0xC041) n fun k => { k with destroying := true }) :
    execChanDestroy c input s = .next (checkClosing (closeChannel s1 n) n) := by
  rw [execChanDestroy, vendor_of_taken _ taken zero]
  simp only [channel, marked]

theorem execChanDestroy_of_stale (stale : chanOf s (w32 (inField input 0 4)) = none) : execChanDestroy c input s =
    .next (refuseWith s c.val 0xC041 evSrvHandleStale uCtl none [w32 0xC041] [w64 (inField input 0 4)]) := by
  rw [execChanDestroy, vendor_of_taken _ taken zero]
  simp only [stale, staleRefuse]

end

section
variable {n : Nat} (channel : chanOf s (w32 (inField input 0 4)) = some n)
include channel

section
variable (taken : vendorTaken s c.val 0xC042 8 input false) (master : s.host.busMaster = true)
include taken master

theorem execChanResume_of_other (other : (getChan s n).state ≠ .suspended) :
    execChanResume c input s = .next (answered s c.val 0xC042 .success 0 []) := by
  rw [execChanResume, vendor_of_taken _ taken zero]
  simp only [channel, master]
  exact congrArg _ (if_pos other)

theorem execChanResume_of_suspended {t : Nat} {s1 s2 : State} (suspended : (getChan s n).state = .suspended)
    (table : t = (getChan s n).table)
    (logged : s1 = (getChan s n).gapTags.foldl (fun s g => logGen s evSrvCqGap uCtl (some t) [chanHandle s n, g.2] []) s)
    (opened : s2 = setChan s1 n { getChan s n with state := .opened, gap := 0, gapTags := [] }) :
    execChanResume c input s = .next (answered
      (resumeFetch (writeBacklog s2 n (gapEntries (getChan s n) ++ (getChan s n).backlog)) n) c.val 0xC042 .success 0 []) := by
  rw [execChanResume, vendor_of_taken _ taken zero]
  subst table
  simp only [channel, master]
  rw [if_neg (not_not_intro suspended), ← logged, ← opened, replyOk_eq_answered]

end

theorem execChanQuery_of_channel (taken : vendorTaken s c.val 0xC043 8 input false) : execChanQuery c input s =
    .next (answered s c.val 0xC043 .success 0 ((chanWords s n).flatMap fun v => leBytes 4 v.toNat)) := by
  rw [execChanQuery, vendor_of_taken _ taken zero]
  simp only [channel, replyOk_eq_answered]

end

end

/-! ### TABLE_DISABLE and TABLE_ENABLE -/

section
variable {s s1 : State} {c : Fin 2} {input : List Byte} {t : Nat} (zero : zeroFrom (input.take 8) 1 = true)
  (table : t = inByte (input.take 8) 0) (entry : (tableEntry s1 t).isSome)
include zero table entry

/-- A table that closes ends at once where its round is not open and not to be replayed, and folds what a written round may drop. -/
theorem execTableDisable_of_enabled {s2 : State} (taken : signedTaken s s1 c.val 0xC044 8 input anyOwner true)
    (enabled : (getTable s1 t).enabled = true) (stays : (getTable s1 t).disabling = false)
    (closed : s2 = (chansOf (modTable (startBg s1 c.val 0xC044) t fun k => { k with disabling := true }) t).foldl closeChannel
      (modTable (startBg s1 c.val 0xC044) t fun k => { k with disabling := true })) :
    execTableDisable c input s = .next
      (if (getRound s2 t).again then s2
       else if (getRound s2 t).isOpen then (if (getRound s2 t).written then foldSlots s2 t fun _ => true else s2)
       else boundary s2 t) := by
  have named : ¬(tableEntry s1 t).isNone = true := by simp [Option.isSome_iff_ne_none.mp entry]
  rw [execTableDisable, signed_of_taken _ taken zero]
  simp only [← table, named, enabled, stays, Bool.not_true, Bool.or_self, Bool.false_eq_true, if_false, ← closed]

theorem execTableEnable_of_disabled (taken : signedTaken s s1 c.val 0xC045 8 input anyOwner false)
    (disabled : (getTable s1 t).enabled = false) : execTableEnable c input s =
      .next (answered (startRounds (logGen (modTable s1 t fun k => { k with enabled := true })
        evSrvTableEnabled uCtl (some t) [w32 t] [])) c.val 0xC045 .success 0 []) := by
  have named : ¬(tableEntry s1 t).isNone = true := by simp [Option.isSome_iff_ne_none.mp entry]
  rw [execTableEnable, signed_of_taken _ taken zero]
  simp only [← table, named, disabled, Bool.or_self, Bool.false_eq_true, if_false, replyOk_eq_answered]

end

/-! ### Pins and the prefix tree -/

section
variable {s : State} {c : Fin 2} {input : List Byte} (dealer : isDealer s = true)
include dealer

theorem execPrefixPin_of_free {tokens : List W32} {n i : Nat} (taken : vendorTaken s c.val 0xC050 16 input true)
    (zero : zeroBytes input 1 3 = true) (entry : (tableEntry s (inByte input 0)).isSome) (count : n = inField input 4 4)
    (pages : n % 32 = 0) (least : 32 ≤ n) (most : n ≤ 65536) (free : freePin s = some i) (master : s.host.busMaster = true)
    (whole : n ≤ tokens.length) : execPrefixPin c input tokens s =
      .next (modPin (toHost (startBg s c.val 0xC050) (.rdCurr (w64 (inField input 8 8)) (4 * n))) i fun p =>
        { p with used := true, table := inByte input 0, pages := [], tokens := tokens.take n, committed := 0, ready := false }) := by
  have suits : ¬((tableEntry s (inByte input 0)).isNone || decide (n % 32 ≠ 0) || decide (n < 32) || decide (65536 < n)) = true := by
    simp [Option.isSome_iff_ne_none.mp entry, pages, least, most]
  have reads : ¬(!(startBg s c.val 0xC050).host.busMaster || decide (tokens.length < n)) = true := by
    simp [startBg_busMaster, master, whole]
  rw [execPrefixPin, vendor_of_taken _ taken zero]
  simp only [← count, dealer, Bool.not_true, Bool.false_eq_true, if_false, if_neg suits, free, if_neg reads,
    toHostReq_startBg master]

theorem execPrefixUnpin_of_ready {i : Nat} {p : Pin} (taken : vendorTaken s c.val 0xC051 8 input false)
    (handle : pinOf s (w64 (inField input 0 8)) = some i) (pin : sget Pin.free s.cache.pins i = p) (ready : p.ready = true) :
    execPrefixUnpin c input s = .next (answered (p.pages.foldl dropPage (modPin
      (modRound s p.table fun r => { r with closes := r.closes ++ [pinHandle s i + guestTag] }) i
      fun p => { Pin.free with gen := nextPinGen p.gen })) c.val 0xC051 .success 0 []) := by
  rw [execPrefixUnpin, vendor_of_taken _ taken rfl]
  simp only [dealer, handle, pin, ready, Option.filter_some_pos, Bool.not_true, Bool.false_eq_true, if_false, replyOk_eq_answered]

theorem execPrefixFlush_of_table (taken : vendorTaken s c.val 0xC052 8 input true) (zero : zeroFrom input 1 = true)
    (table : inByte input 0 < 64) :
    execPrefixFlush c input s = .next (startRebuild (startBg s c.val 0xC052) 3 (· = inByte input 0)) := by
  rw [execPrefixFlush, vendor_of_taken _ taken zero]
  simp only [dealer, Nat.not_le.mpr table, Bool.not_true, Bool.false_eq_true, if_false]

end

/-! ### Windows -/

theorem execKvSpillSet_of_free {s s1 : State} {c : Fin 2} {input own : List Byte} (hown : own = input.take 16)
    (taken : signedTaken s s1 c.val 0xC053 16 input anyOwner false) (zero : zeroBytes own 2 2 = true) (table : inByte own 0 < 64)
    (window : inByte own 1 < 16) (free : inField own 4 4 = 0 ∨ spillInUse s1 (inByte own 0) = false) :
    execKvSpillSet c input s = .next (answered (modTable (if inField own 4 4 = 0 then abandonSlots s1 (inByte own 0) else s1)
      (inByte own 0) fun k => { k with spillWindow := some (inByte own 1, inField own 8 8, inField own 4 4) })
      c.val 0xC053 .success 0 []) := by
  subst hown
  rw [execKvSpillSet, signed_of_taken _ taken zero]
  dsimp only
  rw [if_neg (by simp [table, window]), if_neg (by simpa [← Classical.or_iff_not_imp_left] using free), replyOk_eq_answered]

theorem execSlowWindowSet_of_window {s s1 : State} {c : Fin 2} {input own : List Byte} {w : Nat} (hown : own = input.take 24)
    (taken : signedTaken s s1 c.val 0xC060 24 input anyOwner false) (window : w = inByte own 0) (flag : inByte own 1 < 2)
    (zero : zeroBytes own 2 6 = true) (known : w < 16) (aligned : inField own 16 8 % 65536 = 0) : execSlowWindowSet c input s = .next
    (if windowInUse s1 w then refuseWith s1 c.val 0xC060 evHstWindowInUse uCxl none [w32 w] []
     else answered { s1 with host := { s1.host with
       slow := sput (false, 0, 0) s1.host.slow w (decide (inByte own 1 = 1), inField own 8 8, inField own 16 8) } }
       c.val 0xC060 .success 0 []) := by
  subst hown
  rw [execSlowWindowSet, signed_of_taken _ taken (by simp [flag, zero])]
  simp only [← window]
  rw [if_neg (by simp [known, aligned])]
  rfl

theorem execSlowWindowQuery_of_window {s : State} {c : Fin 2} {input : List Byte} {w b z : Nat} {en : Bool}
    (taken : vendorTaken s c.val 0xC061 8 input false) (zero : zeroFrom input 1 = true) (window : w = inByte input 0) (known : w < 16)
    (set : sget (false, 0, 0) s.host.slow w = (en, b, z)) : execSlowWindowQuery c input s =
      .next (answered s c.val 0xC061 .success 0
        (leBytes 1 w ++ [if en then 1 else 0] ++ List.replicate 6 0 ++ leBytes 8 b ++ leBytes 8 z)) := by
  rw [execSlowWindowQuery, vendor_of_taken _ taken zero]
  simp only [← window, Nat.not_le.mpr known, if_false, set, replyOk_eq_answered]

/-! ### VND_IDENTIFY and PARTNER_LOG_READ -/

theorem execVndIdentify_of_taken {s : State} {c : Fin 2} {input : List Byte} (taken : vendorTaken s c.val 0xC000 0 input false) :
    execVndIdentify c input s = .next (answered s c.val 0xC000 .success 0
      ([1, 0, 0, 0] ++ leBytes 4 vendorOpcodes.length ++ vendorOpcodes.flatMap fun op => leBytes 2 op)) := by
  rw [execVndIdentify, vendor_of_taken _ taken rfl, replyOk_eq_answered]

theorem execPartnerLogRead_of_taken {s : State} {c : Fin 2} {input : List Byte} (taken : vendorTaken s c.val 0xC001 0 input false) :
    execPartnerLogRead c input s = .next (answered s c.val 0xC001 .success 0
      ((s.host.partner.drop (s.host.partner.length - 170)).flatMap fun e =>
        leBytes 4 e.1 ++ leBytes 4 e.2.1.toNat ++ padTo 16 e.2.2)) := by
  rw [execPartnerLogRead, vendor_of_taken _ taken rfl, replyOk_eq_answered]

/-! ### Fabric commands -/

section
variable {s s1 s2 : State} {c : Fin 2} {input : List Byte} {es : List (BitVec 16)}
  (taken : signedTaken s s1 c.val 0xC030 8 input anyOwner true) (master : s1.host.busMaster = true) (most : es.length ≤ 8192)
  (asked : s2 = toHost (startBg s1 c.val 0xC030) (.ioRead (w64 (inField (input.take 8) 0 8)) 16384))
include taken master most asked

/-- A valid table is loaded at once without a deck, and waits for the next switch with one. -/
theorem execFabRouteLoad_of_valid (valid : ((List.range es.length).zip es).find? (fun e => !routeEntryOk e.2) = none) :
    execFabRouteLoad c input es s = .next (endBackground
      (if (deckOf s2).isSome then { s2 with routesPending := some (routeTable es) }
       else logBare { s2 with routes := routeTable es, routesPending := none } evFabRouteLoaded uFabric) 0xC030 .success 0 []) := by
  rw [execFabRouteLoad, signed_of_taken _ taken rfl]
  simp only [List.take_of_length_le most, valid, startBg_busMaster, master, toHostReq_startBg master, ← asked, Bool.not_true,
    Bool.false_eq_true, if_false]

theorem execFabRouteLoad_of_invalid {e : Nat × BitVec 16}
    (invalid : ((List.range es.length).zip es).find? (fun e => !routeEntryOk e.2) = some e) :
    execFabRouteLoad c input es s = .next (endBackground (logGen s2 evFabRouteInvalid uFabric none [w32 e.1] [])
      0xC030 .invalidInput (evFabRouteInvalid.word uFabric) []) := by
  rw [execFabRouteLoad, signed_of_taken _ taken rfl]
  simp only [List.take_of_length_le most, invalid, startBg_busMaster, master, toHostReq_startBg master, ← asked, Bool.not_true,
    Bool.false_eq_true, if_false]

end

section
variable {s s1 : State} {c : Fin 2} {input own : List Byte} {p : Nat} (hown : own = input.take 8) (port : p = inByte own 0)
  (isPort : p < 12)
include hown port isPort

/-- Without a deck the port itself is cleared; with one the dealer sends QUAR_CLEAR, and any other member refuses. -/
theorem execFabPortClear_of_port {m : Nat} (taken : signedTaken s s1 c.val 0xC031 8 input anyOwner false) (flags : inByte own 1 = 0)
    (zero : zeroFrom own 4 = true) (target : m = inField own 2 2) (isModule : m < 2 ^ 13) : execFabPortClear c input s = .next
    (if (deckOf s1).isNone then answered (clearPort s1 p) c.val 0xC031 .success 0 []
     else if isDealer s1 then answered (sendFrame s1 m 64 (.quarClear p m)) c.val 0xC031 .success 0 []
     else refuse s1 c.val 0xC031 0) := by
  subst hown
  rw [execFabPortClear, signed_of_taken _ taken (by simp [flags, zero])]
  simp only [← port, ← target]
  rw [if_neg (by simpa using ⟨isPort, isModule⟩)]
  rfl

theorem execFabPortRetrain_of_port (taken : signedTaken s s1 c.val 0xC032 8 input anyOwner false) (zero : zeroFrom own 1 = true) :
    execFabPortRetrain c input s = .next (answered
      (if (getPort s1 p).state = .active then portLeavesActive (retrainPort s1 p) p evFabLinkDown else retrainPort s1 p)
      c.val 0xC032 .success 0 []) := by
  subst hown
  rw [execFabPortRetrain, signed_of_taken _ taken zero]
  simp only [← port, Nat.not_le.mpr isPort, if_false, replyOk_eq_answered]

end

/-! ### The commands -/

section
variable (s : State) (c : Fin 2) (input : List Byte)

theorem exec_chanCreate : exec (.chanCreate c input) s = execChanCreate c input s := rfl
theorem exec_chanDestroy : exec (.chanDestroy c input) s = execChanDestroy c input s := rfl
theorem exec_chanResume : exec (.chanResume c input) s = execChanResume c input s := rfl
theorem exec_chanQuery : exec (.chanQuery c input) s = execChanQuery c input s := rfl
theorem exec_tableDisable : exec (.tableDisable c input) s = execTableDisable c input s := rfl
theorem exec_tableEnable : exec (.tableEnable c input) s = execTableEnable c input s := rfl
theorem exec_prefixPin (tokens : List W32) : exec (.prefixPin c input tokens) s = execPrefixPin c input tokens s := rfl
theorem exec_prefixUnpin : exec (.prefixUnpin c input) s = execPrefixUnpin c input s := rfl
theorem exec_prefixFlush : exec (.prefixFlush c input) s = execPrefixFlush c input s := rfl
theorem exec_kvSpillSet : exec (.kvSpillSet c input) s = execKvSpillSet c input s := rfl
theorem exec_slowWindowSet : exec (.slowWindowSet c input) s = execSlowWindowSet c input s := rfl
theorem exec_slowWindowQuery : exec (.slowWindowQuery c input) s = execSlowWindowQuery c input s := rfl
theorem exec_vndIdentify : exec (.vndIdentify c input) s = execVndIdentify c input s := rfl
theorem exec_partnerLogRead : exec (.partnerLogRead c input) s = execPartnerLogRead c input s := rfl
theorem exec_fabRouteLoad (es : List (BitVec 16)) : exec (.fabRouteLoad c input es) s = execFabRouteLoad c input es s := rfl
theorem exec_fabPortClear : exec (.fabPortClear c input) s = execFabPortClear c input s := rfl
theorem exec_fabPortRetrain : exec (.fabPortRetrain c input) s = execFabPortRetrain c input s := rfl

end

/-- Settles O55: each command is one operation above, and the clauses are its cases. -/
theorem servingCommands : Obligations.ServingCommands := by
  unfold Obligations.ServingCommands
  simp only [exec_chanCreate, exec_chanDestroy, exec_chanResume, exec_chanQuery, exec_tableDisable, exec_tableEnable, exec_prefixPin,
    exec_prefixUnpin, exec_prefixFlush, exec_kvSpillSet, exec_slowWindowSet, exec_slowWindowQuery, exec_vndIdentify,
    exec_partnerLogRead, exec_fabRouteLoad, exec_fabPortClear, exec_fabPortRetrain]
  refine ⟨?create, ?channels, ?tables, ?pin, ?unpin, ?flush, ?spill, ?window, ?query, ?identity, ?routes, ?ports⟩
  case create =>
    exact fun s c input taken => ⟨execChanCreate_of_no_deck taken, fun e n => execChanCreate_of_free taken⟩
  case channels =>
    exact fun s c input zero => ⟨fun taken => ⟨fun n s1 => execChanDestroy_of_channel zero taken, execChanDestroy_of_stale zero taken⟩,
      fun taken master n channel => ⟨execChanResume_of_other zero channel taken master,
        fun t s1 s2 => execChanResume_of_suspended zero channel taken master⟩,
      fun taken n channel => execChanQuery_of_channel zero channel taken⟩
  case tables =>
    refine fun s s1 c input t zero table entry => ⟨fun taken enabled stays s2 closed => ?_,
      execTableEnable_of_disabled zero table entry⟩
    rw [execTableDisable_of_enabled zero table entry taken enabled stays closed]
    refine ⟨fun replays => by rw [if_pos replays], fun ends => ?_⟩
    rw [if_neg (by simp [ends])]
    exact ⟨fun isOpen written => by rw [if_pos isOpen, if_pos written],
      fun isOpen unwritten => by rw [if_pos isOpen, if_neg (by simp [unwritten])], fun closed => by rw [if_neg (by simp [closed])]⟩
  case pin =>
    exact fun s c input tokens n i taken zero dealer => execPrefixPin_of_free dealer taken zero
  case unpin =>
    exact fun s c input i p taken dealer => execPrefixUnpin_of_ready dealer taken
  case flush =>
    exact fun s c input taken zero dealer => execPrefixFlush_of_table dealer taken zero
  case spill =>
    exact fun s s1 c input own => execKvSpillSet_of_free
  case window =>
    intro s s1 c input own w hown taken window flag zero known aligned
    rw [execSlowWindowSet_of_window hown taken window flag zero known aligned]
    exact ⟨fun used => by rw [if_pos used], fun free => by rw [if_neg (by simp [free])]⟩
  case query =>
    exact fun s c input w b z en => execSlowWindowQuery_of_window
  case identity =>
    exact fun s c => ⟨execVndIdentify_of_taken, execPartnerLogRead_of_taken⟩
  case routes =>
    refine fun s s1 c input es taken master most s2 asked => ⟨fun valid => ?_,
      fun e => execFabRouteLoad_of_invalid taken master most asked⟩
    rw [execFabRouteLoad_of_valid taken master most asked valid]
    exact ⟨fun noDeck => by rw [if_neg (by simp [noDeck])], fun deck => by rw [if_pos deck]⟩
  case ports =>
    refine fun s s1 c input own p m hown port isPort => ⟨fun taken flags zero target isModule => ?_,
      execFabPortRetrain_of_port hown port isPort⟩
    rw [execFabPortClear_of_port hown port isPort taken flags zero target isModule]
    exact ⟨fun noDeck => by rw [if_pos (by simp [noDeck])],
      fun deck dealer => by rw [if_neg (by simp [Option.isSome_iff_ne_none.mp deck]), if_pos dealer]⟩

end Sys2Proof.Machine
end

section
/-! PROOF. Source repair: the source directory, fetches, the end of a repair and the unrepaired list (R393 to R398). -/

namespace Sys2Proof.Machine

/-! ### Fetches -/

/-- A source at a peer lies as far above the base as the line lies above the base of its region. -/
theorem sourceAt_of_peer {s : State} {r : Region} {base : Option Nat} {line a : Nat} (peer : r.srcKind = 1)
    (reached : sourceAt s r base line = some a) : ∃ b, base = some b ∧ a = b + (lineAddr line - r.base) := by
  rw [sourceAt, if_pos peer] at reached
  split at reached
  next routed =>
    obtain ⟨b, known, rfl⟩ := Option.map_eq_some_iff.mp reached
    exact ⟨b, known, rfl⟩
  next unrouted => cases reached

theorem repairSource_of_region {s : State} {e : Repair} {r : Region} (region : e.region = some r) :
    repairSource s e = sourceAt s r (e.base.orElse fun _ => sourceBase s r) e.line := by
  rw [repairSource, region]
  rfl

theorem fetchFor_of_peer {s t : State} {r : Region} {line a : Nat} (peer : r.srcKind = 1)
    (started : t = startDeadline s (.source line)) : fetchFor s r line a =
      modRepair (askPeer t r a).1 line fun e => { e with fetching := true, tag := t.fabTag, gen := t.gen, addr := a } := by
  subst started
  exact if_pos peer

theorem refetch_of_peer {s : State} {line a : Nat} {r : Region} (inside : regionOf s (lineAddr line) = some r)
    (source : r.cls = .source) (reached : sourceAddr s r line = some a) (peer : r.srcKind = 1) :
    refetch s line = { (askPeer s r a).1 with
      refetches := (askPeer s r a).1.refetches.filter (·.1 ≠ line) ++ [(line, s.fabTag, s.gen)] } := by
  have kept : (regionOf s (lineAddr line)).filter (fun r => r.cls = .source) = some r := by simp [inside, source]
  simp only [refetch, kept, reached, peer, if_true]
  rfl

/-! ### The end of a repair, which waits for the write window (R236; the model's log 168) -/

section
variable {s : State} {line : Nat} {e : Repair} (entry : repairOf s line = some e) (unheld : repairHeld s line = false)
include entry unheld

theorem unreachable_of_writeHold (hold : (getStack s (lineStack e.line)).writeHold = true) :
    unreachable s line = holdWrite s (lineStack e.line) (.unreach line) := by
  simp only [unreachable, entry, unheld, repairPlace, hold, Bool.false_eq_true, if_false, if_true]

theorem unreachable_of_open (opened : (getStack s (lineStack e.line)).writeHold = false) : ∃ s1 u t d,
    s1 = logEvent (poisonAt s (repairPlace e) e.region line 4) evIntSourceUnreachable u t d ∧
    unreachable s line = releaseLine { s1 with
      unrepaired := if s1.unrepaired.contains line then s1.unrepaired else s1.unrepaired ++ [line] } line true := by
  have placed : (getStack s (repairPlace e).stack).writeHold = false := opened
  simp only [unreachable, entry, unheld, placed, Bool.false_eq_true, if_false]
  exact ⟨_, _, _, _, rfl, rfl⟩

variable {data : Line} {fails : Nat}

theorem repairLine_of_writeHold (hold : (getStack s (lineStack e.line)).writeHold = true) :
    repairLine s line data fails = holdWrite s (lineStack e.line) (.repair line data fails) := by
  simp only [repairLine, entry, unheld, repairPlace, hold, Bool.false_eq_true, if_false, if_true]

section
variable (opened : (getStack s (lineStack e.line)).writeHold = false) {s1 : State}
include opened

/-- Neither the row nor a spare row holds the data. -/
theorem repairLine_of_failed (failed : rewriteLine s (repairPlace e) line data fails = (s1, false)) :
    repairLine s line data fails = unreachable s1 line := by
  have placed : (getStack s (repairPlace e).stack).writeHold = false := opened
  simp only [repairLine, entry, unheld, placed, failed, Bool.false_eq_true, if_false]

theorem repairLine_of_verified {p : Place} {t : State} (verified : rewriteLine s (repairPlace e) line data fails = (s1, true))
    (place : p = repairPlace e) (logged : t = mediaRecord (logRegion s1 e.region evIntLineRepaired p.stack p.bank p.row (2 ^ p.line) 4)
      evIntLineRepaired false 6 (dpaOfAddr (lineAddr line))) :
    repairLine s line data fails =
      releaseLine (pendSpare (clearUnrepaired t line) p.stack p.bank p.row (2 ^ p.line) false) line false := by
  subst place logged
  have placed : (getStack s (repairPlace e).stack).writeHold = false := opened
  simp only [repairLine, entry, unheld, placed, verified, Bool.false_eq_true, if_false, if_true]

end

end

/-! ### The commands on a repair entry -/

section
variable {s : State} {n : Fin 8} {line : Nat} {e : Repair} (here : lineStack line = n.val) (entry : repairOf s line = some e)
include here entry

section
variable (waits : e.fetching = false) (unheld : repairHeld s line = false)
include waits unheld

theorem exec_sourceRepairReport_of_source {r : Region} {a : Nat} (region : e.region = some r) (reached : repairSource s e = some a) :
    exec (.sourceRepairReport n line) s = .next (fetchFor s r line a) := by
  rw [exec, execSourceRepairReport, if_neg (not_not.mpr here)]
  simp only [entry, waits, unheld, region, reached, Bool.or_self, Bool.false_eq_true, if_false]

theorem exec_sourceRepairReport_of_no_source (lost : repairSource s e = none) :
    exec (.sourceRepairReport n line) s = .next (unreachable s line) := by
  rw [exec, execSourceRepairReport, if_neg (not_not.mpr here)]
  simp only [entry, waits, unheld, lost, Bool.or_self, Bool.false_eq_true, if_false]
  cases e.region <;> rfl

end

theorem exec_sourceRepairReport_of_busy (busy : e.fetching = true ∨ repairHeld s line = true) :
    exec (.sourceRepairReport n line) s = .next s := by
  rw [exec, execSourceRepairReport, if_neg (not_not.mpr here)]
  simp only [entry]
  exact if_pos (by simpa using busy)

theorem exec_sourceFetchTimeout_of_fetching (fetching : e.fetching = true) :
    exec (.sourceFetchTimeout n line) s = .next (unreachable (expire s (.source line) 100000) line) :=
  if_pos (by simp [here, entry, fetching])

omit here in
theorem exec_sourceFetchTimeout_of_waiting (waits : e.fetching = false) : exec (.sourceFetchTimeout n line) s = .next s :=
  if_neg (by simp [entry, waits])

end

/-! ### The directory -/

section
variable {s : State} {region : Nat} {r : Region} {a : DirAnswer} (pending : sget none s.directory region = some .pending)
  (running : regionNo s region = some r)
include pending running

theorem exec_sourceDirectoryReply_of_match (size : a.size = r.size) (source : a.cls = .source) (owner : a.owner = r.owner) :
    exec (.sourceDirectoryReply region (some a)) s = .next (setDir s region (.valid a.base)) := by
  simp only [exec, execSourceDirectoryReply, directoryReply, pending, running]
  exact congrArg _ (if_pos (by simp [size, source, owner]))

theorem exec_sourceDirectoryReply_of_mismatch (other : a.size ≠ r.size ∨ a.cls ≠ .source ∨ a.owner ≠ r.owner) :
    exec (.sourceDirectoryReply region (some a)) s =
      .next (logGen (setDir s region .invalid) evIntSourceMismatch uCtl none [w32 region, w32 r.srcModule] []) := by
  simp only [exec, execSourceDirectoryReply, directoryReply, pending, running]
  refine congrArg _ (if_neg fun agree => ?_)
  obtain size | cls | owner := other
  · simp [size] at agree
  · simp [cls] at agree
  · simp [owner] at agree

end

/-- A peer that runs no deck leaves every entry as it is. -/
theorem exec_sourceDirectoryReply_of_no_deck (s : State) (region : Nat) : exec (.sourceDirectoryReply region none) s = .next s := by
  rw [exec, execSourceDirectoryReply, directoryReply]
  nofun

theorem exec_sourceDirectoryRetry_of_none {s : State} (settled : ∀ e ∈ s.directory, e.2 ≠ some .pending) :
    exec .sourceDirectoryRetry s = .next s := by
  rw [exec, execSourceDirectoryRetry, List.filter_eq_nil_iff.mpr (by simpa using settled)]
  rfl

theorem exec_sourceDirectoryRetry_of_pending {s : State} {region : Nat} {r : Region}
    (pending : s.directory = [(region, some .pending)]) (running : regionNo s region = some r) :
    exec .sourceDirectoryRetry s = .next (askSource s r) := by
  rw [exec, execSourceDirectoryRetry, pending, List.filter_singleton]
  simp [running]

theorem exec_unrepairedRefetchTick (s : State) : exec .unrepairedRefetchTick s = .next (s.unrepaired.foldl refetch s) := rfl

/-- Settles O36: each clause is one case of a fetch, of a repair's end or of a directory entry above. -/
theorem sourceRepairEvents : Obligations.SourceRepairEvents := by
  unfold Obligations.SourceRepairEvents
  refine ⟨?served, ?unreachable, ?fetch, ?repaired, exec_unrepairedRefetchTick, ?refetch, ?reply, ?settled, ?retry⟩
  case served =>
    exact fun s n line e here entry => ⟨fun waits unheld r a => exec_sourceRepairReport_of_source here entry waits unheld,
      exec_sourceRepairReport_of_no_source here entry, exec_sourceRepairReport_of_busy here entry,
      exec_sourceFetchTimeout_of_fetching here entry, exec_sourceFetchTimeout_of_waiting entry⟩
  case unreachable =>
    exact fun s line e entry unheld => ⟨unreachable_of_writeHold entry unheld, unreachable_of_open entry unheld⟩
  case fetch =>
    exact fun s e r a region peer reached => ⟨sourceAt_of_peer peer (repairSource_of_region region ▸ reached),
      fun line t => fetchFor_of_peer peer⟩
  case repaired =>
    exact fun s s1 line data f e entry unheld => ⟨repairLine_of_writeHold entry unheld, fun opened =>
      ⟨repairLine_of_failed entry unheld opened, fun verified p t => repairLine_of_verified entry unheld opened verified⟩⟩
  case refetch => exact fun s line r a => refetch_of_peer
  case reply =>
    exact fun s region r a pending running => ⟨exec_sourceDirectoryReply_of_match pending running,
      exec_sourceDirectoryReply_of_mismatch pending running, exec_sourceDirectoryReply_of_no_deck s region⟩
  case settled => exact fun s => exec_sourceDirectoryRetry_of_none
  case retry => exact fun s region r => exec_sourceDirectoryRetry_of_pending

end Sys2Proof.Machine
end

section
/-! PROOF. Serving messages at their destination (R434, R435, R443, R447, R448, R464, R478, R479, R480, R486): what each does in each of
its cases. -/

namespace Sys2Proof.Machine

theorem bitOf_zero (v : Nat) : bitOf v 0 = decide (v % 2 = 1) := by
  rw [bitOf_eq_testBit, Nat.testBit_zero]

/-! ### Lists and reports -/

section
variable {s : State} {m : ServMsg}

theorem takeRoundList_of_current (current : m.gen = s.gen) (latest : m.round = s.lastRound) (member : isDealer s = false) :
    takeRoundList s m =
      memberWrite (modRound s m.table fun r => { r with parts := r.parts.filter (fun x => x.part ≠ m.part) ++ [m] }) m.table :=
  if_neg (by simp [current, latest, member])

theorem takeRoundList_of_other (other : m.gen ≠ s.gen ∨ m.round ≠ s.lastRound ∨ isDealer s = true) :
    takeRoundList s m = lateDrop s :=
  if_pos (by simpa [or_assoc] using other)

section
variable (src : Nat)

theorem takeRoundReport_of_open (dealer : isDealer s = true) (current : m.gen = s.gen) (isOpen : m.round = (getRound s m.table).round) :
    takeRoundReport s src m = startRounds (holdReport s m.table src m) :=
  if_neg (by simp [dealer, current, isOpen])

theorem takeRoundReport_of_other (other : isDealer s = false ∨ m.gen ≠ s.gen ∨ m.round ≠ (getRound s m.table).round) :
    takeRoundReport s src m = s :=
  if_pos (by simpa [or_assoc] using other)

end

end

/-! ### Prefill pools -/

section
variable (j : PrefillJob) (m : ServMsg)

theorem joinJob_parts : (joinJob j m).parts = j.parts.filter (fun p => p.1 ≠ m.part) ++ [(m.part, m.tokens)] := rfl

theorem joinJob_tokens : (joinJob j m).tokens =
    if ∀ i < m.parts, ∃ p ∈ (joinJob j m).parts, p.1 = i then
      (List.range m.parts).flatMap fun i => (((joinJob j m).parts.find? fun p => p.1 = i).map (·.2)).getD []
    else j.tokens := by
  rw [joinJob]
  exact if_congr (by simp) rfl rfl

end

section
variable {s : State} {src : Nat} {m : ServMsg} {e : ServEntry} {rest : List ServEntry} (entries : m.entries = e :: rest)
include entries

/-- The part of a prompt joins the job that is there; the dealer hands it on. -/
theorem takePrefillJob_of_job {t : State} {j : PrefillJob} {d : Deck} (hd : deckOf s = some d)
    (job : (s.cache.jobs.find? fun j => j.session = e.session) = some j)
    (joined : t = { s with cache := { s.cache with jobs := s.cache.jobs.filter (fun x => x.session ≠ e.session) ++ [joinJob j m] } }) :
    takePrefillJob s src m =
      if isDealer s then (otherMembers t d).foldl (fun s k =>
        sendFrame s k m.table (.serving { m with round := s.lastRound, gen := s.gen })) t
      else t := by
  subst joined
  simp only [takePrefillJob, entries, hd, job, List.head?_cons, Option.getD_some]
  rfl

section
variable {i : Nat} (noJob : ∀ j ∈ s.cache.jobs, j.session ≠ e.session) (session : sessOf s e.session = some i)
  (waits : (getSess s i).phase = .shipped)
include noJob session waits

theorem takePrefillDone_of_shipped :
    takePrefillDone s src m = if e.flags.toNat % 2 = 1 then shipped s i else shipFailed s i := by
  have noResult : ¬(isDealer s && s.cache.jobs.any fun j => j.session = e.session) = true := by
    simpa using fun _ => noJob
  simp only [takePrefillDone, entries, List.head?_cons]
  rw [if_neg noResult, session]
  simp only [waits, bitOf_zero, ne_eq, not_true_eq_false, if_false, decide_eq_true_eq]

end

section
variable {j j1 : PrefillJob} {d : Deck} (hd : deckOf s = some d) (dealer : isDealer s = true)
  (job : (s.cache.jobs.find? fun j => j.session = e.session) = some j)
  (kept : j1 = { j with done := j.done.filter (fun x => x.1 ≠ src) ++ [(src, decide (e.flags.toNat % 2 = 1))] })
include hd dealer job kept

theorem takePrefillDone_of_job : takePrefillDone s src m =
    if (ownIndex s :: otherMembers s d).all fun k => j1.done.any fun x => x.1 = k then finishJob s j1 (j1.done.all (·.2))
    else modJob s e.session fun _ => j1 := by
  have pooled : (isDealer s && s.cache.jobs.any fun j => j.session = e.session) = true := by
    rw [dealer, Bool.true_and, List.any_eq_true]
    exact ⟨j, List.mem_of_find?_eq_some job, List.find?_some (p := fun j : PrefillJob => decide (j.session = e.session)) job⟩
  simp only [takePrefillDone, entries, List.head?_cons]
  rw [if_pos pooled, kept]
  simp only [jobResult, job, hd, bitOf_zero]

/-- While the result of a member is missing, the job stays. -/
theorem takePrefillDone_of_missing (missing : ∃ k, (k = ownIndex s ∨ k ∈ otherMembers s d) ∧ ∀ x ∈ j1.done, x.1 ≠ k) :
    takePrefillDone s src m = modJob s e.session fun _ => j1 := by
  obtain ⟨k, named, silent⟩ := missing
  rw [takePrefillDone_of_job entries hd dealer job kept, if_neg]
  intro whole
  obtain ⟨x, reported, sender⟩ := List.any_eq_true.mp (List.all_eq_true.mp whole k (List.mem_cons.mpr named))
  exact silent x reported (of_decide_eq_true sender)

/-- The last result ends the job. -/
theorem takePrefillDone_of_whole (whole : ∀ k, (k = ownIndex s ∨ k ∈ otherMembers s d) → ∃ x ∈ j1.done, x.1 = k) :
    takePrefillDone s src m = finishJob s j1 (j1.done.all (·.2)) := by
  rw [takePrefillDone_of_job entries hd dealer job kept, if_pos]
  exact List.all_eq_true.mpr fun k named => by simpa using whole k (List.mem_cons.mp named)

end

end

/-! ### Spills and poisoned pages -/

section
variable {s : State} {m : ServMsg} (src : Nat)

section
variable (dealer : isDealer s = true)
include dealer

theorem takeSpill_of_dealer : takeSpill s m = s := if_pos dealer

theorem takeSpillDone_of_dealer : takeSpillDone s src m = m.entries.foldl (fun s e =>
    spillReply s src e.newPage.toNat e.position.toNat (e.flags.toNat % 2 = 1)) s := by
  rw [takeSpillDone, if_neg (by simp [dealer])]
  simp only [bitOf_zero]

theorem takePageFault_of_dealer :
    takePageFault s m = m.entries.foldl (fun s e => poisonedPage s m.table e.newPage.toNat) s :=
  if_neg (by simp [dealer])

end

section
variable (member : isDealer s = false)
include member

theorem takeSpill_of_member {e : ServEntry} (entries : m.entries = [e]) :
    takeSpill s m = localSpill (modPage s e.newPage.toNat fun g => { g with table := m.table, spill := some e.position.toNat })
      m.table e.newPage.toNat e.position.toNat := by
  rw [takeSpill, if_neg (by simp [member]), entries]
  rfl

theorem takeSpillDone_of_member : takeSpillDone s src m = s := if_pos (by simp [member])

theorem takePageFault_of_member : takePageFault s m = s := if_pos (by simp [member])

end

end

section
variable {s : State} {p : Nat}

theorem spillReply_of_failed {n : Nat} (src : Nat) (spills : (getPage s p).state = .spilling) (slot : (getPage s p).spill = some n) :
    spillReply s src p n false = failSpill s p n src := by
  simp [spillReply, spills, slot]

/-- A page whose spill is not under way has none to abandon. -/
theorem abandonSpill_of_other (other : (getPage s p).state ≠ .spilling) : abandonSpill s p = s := by
  rw [abandonSpill]
  split
  next spills _ => exact absurd spills other
  next => rfl

theorem poisonedPage_of_free (t : Nat) (free : pageFree s p = true) :
    poisonedPage s t p = modPage s p fun g => { g with table := t, dirtyFree := true, last := s.lastRound } :=
  if_pos free

theorem poisonedPage_of_resident (t : Nat) (used : pageFree s p = false) (resident : (getPage s p).state = .resident)
    (clean : (getPage s p).dirtyFree = false) :
    poisonedPage s t p = modPage s p fun g => { g with prev := .resident, state := .recomputing } := by
  rw [poisonedPage, if_neg (by simp [used]), abandonSpill_of_other (by simp [resident])]
  simp [modPage, resident, clean]

end

/-! ### The commands -/

section
variable (s : State) (src : Nat) (m : ServMsg)

theorem exec_roundList : exec (.roundList m) s = .next (takeRoundList s m) := rfl
theorem exec_roundReport : exec (.roundReport src m) s = .next (takeRoundReport s src m) := rfl
theorem exec_prefillJob : exec (.prefillJob src m) s = .next (takePrefillJob s src m) := rfl
theorem exec_prefillDone : exec (.prefillDone src m) s = .next (takePrefillDone s src m) := rfl
theorem exec_spill : exec (.spill m) s = .next (takeSpill s m) := rfl
theorem exec_spillDone : exec (.spillDone src m) s = .next (takeSpillDone s src m) := rfl
theorem exec_pageFault : exec (.pageFault src m) s = .next (takePageFault s m) := rfl

end

/-- Settles O46: each clause is one case of a message above. -/
theorem servingMessages : Obligations.ServingMessages := by
  unfold Obligations.ServingMessages
  simp only [exec_roundList, exec_roundReport, exec_prefillJob, exec_prefillDone, exec_spill, exec_spillDone, exec_pageFault,
    Host.Outcome.next.injEq]
  refine ⟨?list, ?report, ?job, ?shipped, ?result, ?member, ?dealer, ?spillFailed, ?poisoned⟩
  case list => exact fun s m => ⟨takeRoundList_of_current, takeRoundList_of_other⟩
  case report => exact fun s src m => ⟨takeRoundReport_of_open src, takeRoundReport_of_other src⟩
  case job =>
    intro s src m e rest j d entries hd job
    refine ⟨joinJob j m, fun t joined => ?_, joinJob_parts j m, rfl, rfl, rfl, rfl, rfl, fun whole => ?_, fun part => ?_⟩
    · rw [takePrefillJob_of_job entries hd job joined]
      exact ⟨fun member => if_neg (by simp [member]), fun dealer => if_pos dealer⟩
    · rw [joinJob_tokens, if_pos whole]
    · rw [joinJob_tokens, if_neg part]
  case shipped =>
    intro s src m e rest i entries noJob session waits
    rw [takePrefillDone_of_shipped entries noJob session waits]
    refine ⟨fun done => if_pos done, fun failed t again => ?_⟩
    rw [if_neg (by simp [failed]), again, shipFailed]
  case result =>
    exact fun s src m e rest j j1 d entries hd dealer job kept =>
      ⟨takePrefillDone_of_missing entries hd dealer job kept, takePrefillDone_of_whole entries hd dealer job kept⟩
  case member =>
    exact fun s m src e entries member =>
      ⟨takeSpill_of_member member entries, takeSpillDone_of_member src member, takePageFault_of_member member⟩
  case dealer =>
    exact fun s m src dealer => ⟨takeSpill_of_dealer dealer, takeSpillDone_of_dealer src dealer, takePageFault_of_dealer dealer⟩
  case spillFailed =>
    intro s src p n spills slot
    rw [spillReply_of_failed src spills slot, failSpill]
  case poisoned => exact fun s t p => ⟨poisonedPage_of_free t, poisonedPage_of_resident t⟩

end Sys2Proof.Machine
end

section
/-! PROOF. Watch lines, rings and slow-tier completions (R423, R424, R426, R451, R453, R472, R479, R482, R485, R512, R518, R584): what each
event does in each of its cases. -/

namespace Sys2Proof.Machine

/-! ### Watch lines -/

section
variable {s : State} {n : Nat}

theorem wakeChannel_of_held (live : (getChan s n).state ≠ .free) (held : (getChan s n).held = true) :
    wakeChannel s n = toHostReq (setChan s n { getChan s n with
      held := false, wakePending := true, wakes := satInc 0xFFFF (getChan s n).wakes }) (.rdShared (getChan s n).watch) :=
  if_pos (by simp [live, held])

theorem wakeChannel_of_idle (idle : (getChan s n).state = .free ∨ (getChan s n).held = false) : wakeChannel s n = s :=
  if_neg (by simpa [imp_iff_not_or] using idle)

end

section
variable {s : State} (isOpen : ideOpen s 1 = true)
include isOpen

theorem exec_watchWake_of_open (ch : Fin 16384) : exec (.watchWake ch) s = .next (wakeChannel s ch.val) :=
  if_pos isOpen

section
variable {addr : W64} {n : Nat} (watched : watchedBy s addr = some n)
include watched

theorem exec_snpinv_of_watched : exec (.snpinv addr) s =
    if (getChan s n).held then .next (wakeChannel (toHost s (.snpRsp true false)) n) else .next (toHost s (.snpRsp false false)) := by
  simp only [exec, execSnpinv, isOpen, watched, Bool.not_true, Bool.false_eq_true, if_false]

theorem exec_snpdata_of_watched :
    exec (.snpdata addr) s = .next (toHost s (.snpRsp (getChan s n).held (getChan s n).held)) := by
  simp only [exec, execSnpdata, isOpen, watched, Bool.not_true, Bool.false_eq_true, if_false, Option.any_some]

end

section
variable {addr : W64} (unwatched : watchedBy s addr = none)
include unwatched

theorem exec_snpinv_of_unwatched : exec (.snpinv addr) s = .next (toHost s (.snpRsp false false)) := by
  simp only [exec, execSnpinv, isOpen, unwatched, Bool.not_true, Bool.false_eq_true, if_false]

theorem exec_snpdata_of_unwatched : exec (.snpdata addr) s = .next (toHost s (.snpRsp false false)) := by
  simp only [exec, execSnpdata, isOpen, unwatched, Bool.not_true, Bool.false_eq_true, if_false, Option.any_none]

end

theorem exec_watchWakeService_of_unheld {ch : Fin 16384} (sq cq : W32) (master : s.host.busMaster = true)
    (live : (getChan s ch.val).state = .opened ∨ (getChan s ch.val).state = .closing)
    (unheld : (getChan s ch.val).wakePending = true ∨ (getChan s ch.val).held = false) :
    exec (.watchWakeService ch sq cq) s = .next (serveWatch s ch.val sq cq) :=
  if_pos (by simpa [isOpen, master] using ⟨unheld, live⟩)

end

/-- The head read from the watch line lies inside the ring, so nothing overruns. -/
theorem serveWatch_of_inside {s s1 : State} {n : Nat} {sq : W32} (cq : W32)
    (inside : (sq - (getChan s n).sqRead).toNat ≤ 2 ^ (getChan s n).sqLog2)
    (fetched : s1 = fetchEntries (setChan s n { getChan s n with
        held := true, wakePending := false, sqHead := sq, cqRead := cq, overrun := (getChan s n).overrun })
      n (getChan s n).sqHead (sq - (getChan s n).sqHead).toNat) :
    serveWatch s n sq cq = checkClosing (writeBacklog s1 n (getChan s1 n).backlog) n := by
  have fits : ¬2 ^ (getChan s n).sqLog2 < (sq - (getChan s n).sqRead).toNat := Nat.not_lt.mpr inside
  simp only [serveWatch, fits, decide_false, Bool.false_and, Bool.or_false, Bool.false_eq_true, if_false, modChan, ← fetched]

/-! ### Completions of a channel's requests -/

section
variable {s : State} {ch : Fin 16384} (master : s.host.busMaster = true) (isOpen : ideOpen s 1 = true)
include master isOpen

theorem exec_d2hCompletion_of_taken (wr goErr : Bool) : exec (.d2hCompletion ch wr goErr) s =
    if (getChan s ch.val).state = .free then .next (partnerSeen s 8)
    else if goErr then .next (suspendChannel (logGen s evHstCacheGoErr uCxl none [chanHandle s ch.val] []) ch.val)
    else if wr then
      match (getChan s ch.val).unsent with
      | e :: r =>
        .next (checkClosing (tallySent (setChan s ch.val { getChan s ch.val with unsent := r }) (getChan s ch.val).table e) ch.val)
      | [] => .next (partnerSeen s 8)
    else .next s :=
  if_neg (by simp [master, isOpen])

theorem exec_d2hCompletion_of_free (free : (getChan s ch.val).state = .free) (wr goErr : Bool) :
    exec (.d2hCompletion ch wr goErr) s = .next (partnerSeen s 8) := by
  rw [exec_d2hCompletion_of_taken master isOpen, if_pos free]

section
variable (live : (getChan s ch.val).state ≠ .free)
include live

theorem exec_d2hCompletion_of_goErr (wr : Bool) : exec (.d2hCompletion ch wr true) s =
    .next (suspendChannel (logGen s evHstCacheGoErr uCxl none [chanHandle s ch.val] []) ch.val) := by
  rw [exec_d2hCompletion_of_taken master isOpen, if_neg live, if_pos rfl]

theorem exec_d2hCompletion_of_read : exec (.d2hCompletion ch false false) s = .next s := by
  rw [exec_d2hCompletion_of_taken master isOpen, if_neg live, if_neg Bool.false_ne_true, if_neg Bool.false_ne_true]

theorem exec_d2hCompletion_of_unsent {e : Completion} {r : List Completion} (unsent : (getChan s ch.val).unsent = e :: r) :
    exec (.d2hCompletion ch true false) s = .next
      (checkClosing (tallySent (setChan s ch.val { getChan s ch.val with unsent := r }) (getChan s ch.val).table e) ch.val) := by
  rw [exec_d2hCompletion_of_taken master isOpen, if_neg live, if_neg Bool.false_ne_true, if_pos rfl, unsent]

theorem exec_d2hCompletion_of_unawaited (unawaited : (getChan s ch.val).unsent = []) :
    exec (.d2hCompletion ch true false) s = .next (partnerSeen s 8) := by
  rw [exec_d2hCompletion_of_taken master isOpen, if_neg live, if_neg Bool.false_ne_true, if_pos rfl, unawaited]

end

end

/-! ### Requests, pauses and the rebuild -/

theorem exec_requestTokensFetched (s : State) (slot : Nat) (toks : List W32) : exec (.requestTokensFetched slot toks) s =
    .next (if (getSess s slot).phase = .queued then tokensReady s slot toks else s) := rfl

section
variable {s : State} {slot : Nat}

theorem exec_pauseTtlExpiry_of_paused {t : State} (paused : (getSess s slot).state = .paused)
    (idle : busySession (getSess s slot) = false)
    (reached : t = reachMeter s 0 ((getSess s slot).ttlStart + (getSess s slot).ttl * countsSec)) : exec (.pauseTtlExpiry slot) s =
      .next (logGen (closeSession t slot) evSrvPauseExpired uCtl (some (getSess s slot).table) [] [sessHandle t slot]) := by
  subst reached
  exact if_pos (by simp [paused, idle])

theorem exec_pauseTtlExpiry_of_other (other : (getSess s slot).state ≠ .paused ∨ busySession (getSess s slot) = true) :
    exec (.pauseTtlExpiry slot) s = .next s :=
  if_neg (by simpa [imp_iff_not_or] using other)

theorem exec_treeRebuildStep_of_idle (idle : s.cache.rebuilding = false) : exec .treeRebuildStep s = .next s :=
  if_pos (by simp [idle])

section
variable (rebuilds : s.cache.rebuilding = true)
include rebuilds

theorem exec_treeRebuildStep_of_page {p : Nat} (next : nextAllocated s s.cache.scanNext = some p) :
    exec .treeRebuildStep s = .next (scanPage s p) := by
  simp only [exec, execTreeRebuildStep, rebuilds, next, Bool.not_true, Bool.false_eq_true, if_false]

theorem exec_treeRebuildStep_of_end (last : nextAllocated s s.cache.scanNext = none) :
    exec .treeRebuildStep s = .next (treeReady s) := by
  simp only [exec, execTreeRebuildStep, rebuilds, last, Bool.not_true, Bool.false_eq_true, if_false]

end

end

/-! ### Slow-tier requests -/

section
variable {s : State} {tag : Nat} {e : Nat × UioUse × BitVec 16} {rest : List (Nat × UioUse × BitVec 16)}
  (awaited : takeFirst (fun e : Nat × UioUse × BitVec 16 => e.1 = tag) s.host.uio = some (e, rest))
include awaited

section
variable {s1 : State} (isOpen : ideOpen s 0 = true)
  (ended : s1 = dropDeadline { s with host := { s.host with uio := rest } } (.uio tag)) (ok : Bool) (data : List Byte) (d : Nat)
include isOpen ended

theorem exec_uioCompletion_of_awaited : exec (.uioCompletion tag ok data d) s = .next
    (if e.2.1 = .dead then s1
     else if e.2.2 ≠ s.gen then againUio s1 e.2.1
     else if ok = true ∧ (uioBytes e.2.1 = 0 ∨ data.length = uioBytes e.2.1) then doneUio s1 e.2.1 data d
     else failUio s1 e.2.1) := by
  have sameGen : s1.gen = s.gen := by rw [ended]; rfl
  simp only [exec, execUioCompletion, isOpen, awaited, modHost, ← ended, sameGen, Bool.not_true, Bool.false_eq_true, if_false,
    Bool.and_eq_true, Bool.or_eq_true, decide_eq_true_eq, apply_ite Host.Outcome.next]

theorem exec_uioCompletion_of_dead (dead : e.2.1 = .dead) : exec (.uioCompletion tag ok data d) s = .next s1 := by
  rw [exec_uioCompletion_of_awaited awaited isOpen ended, if_pos dead]

section
variable (alive : e.2.1 ≠ .dead)
include alive

theorem exec_uioCompletion_of_older (older : e.2.2 ≠ s.gen) :
    exec (.uioCompletion tag ok data d) s = .next (againUio s1 e.2.1) := by
  rw [exec_uioCompletion_of_awaited awaited isOpen ended, if_neg alive, if_pos older]

section
variable (current : e.2.2 = s.gen)
include current

theorem exec_uioCompletion_of_success (success : ok = true) (whole : uioBytes e.2.1 = 0 ∨ data.length = uioBytes e.2.1) :
    exec (.uioCompletion tag ok data d) s = .next (doneUio s1 e.2.1 data d) := by
  rw [exec_uioCompletion_of_awaited awaited isOpen ended, if_neg alive, if_neg (not_not_intro current), if_pos ⟨success, whole⟩]

theorem exec_uioCompletion_of_failure (failure : ok = false) :
    exec (.uioCompletion tag ok data d) s = .next (failUio s1 e.2.1) := by
  rw [exec_uioCompletion_of_awaited awaited isOpen ended, if_neg alive, if_neg (not_not_intro current), if_neg (by simp [failure])]

end

end

end

section
variable {t1 : State} (expired : t1 = modHost (expire s (.uio tag) (10 * countsMs)) fun h => { h with uio := rest })
include expired

theorem exec_uioTimeout_of_dead (dead : e.2.1 = .dead) : exec (.uioTimeout tag) s = .next t1 := by
  simp only [exec, execUioTimeout, awaited, ← expired, if_pos dead]

theorem exec_uioTimeout_of_alive (alive : e.2.1 ≠ .dead) : exec (.uioTimeout tag) s = .next (failUio t1 e.2.1) := by
  simp only [exec, execUioTimeout, awaited, ← expired, if_neg alive]

end

end

section
variable {s : State} {tag : Nat} (unawaited : takeFirst (fun e : Nat × UioUse × BitVec 16 => e.1 = tag) s.host.uio = none)
include unawaited

theorem exec_uioTimeout_of_unawaited : exec (.uioTimeout tag) s = .next s := by
  simp only [exec, execUioTimeout, unawaited]

section
variable (ok : Bool) (data : List Byte) (d : Nat)

theorem exec_uioCompletion_of_unawaited (master : s.host.busMaster = true) (isOpen : ideOpen s 0 = true) :
    exec (.uioCompletion tag ok data d) s = .next (partnerSeen s 9) := by
  simp only [exec, execUioCompletion, unawaited, master, isOpen, Bool.not_true, Bool.false_eq_true, if_false, if_true]

theorem exec_uioCompletion_of_no_master (noMaster : s.host.busMaster = false) :
    exec (.uioCompletion tag ok data d) s = .next s := by
  simp only [exec, execUioCompletion, unawaited, noMaster, Bool.false_eq_true, if_false, ite_self]

end

end

/-! ### Insecure links -/

section
variable {s : State} (insecure : ideOpen s 1 = false)
include insecure

theorem exec_watchWake_of_insecure (ch : Fin 16384) : exec (.watchWake ch) s = .next s := if_neg (by simp [insecure])

theorem exec_snpinv_of_insecure (addr : W64) : exec (.snpinv addr) s = .next s := if_pos (by simp [insecure])

theorem exec_snpdata_of_insecure (addr : W64) : exec (.snpdata addr) s = .next s := if_pos (by simp [insecure])

theorem exec_watchWakeService_of_insecure (ch : Fin 16384) (sq cq : W32) : exec (.watchWakeService ch sq cq) s = .next s :=
  if_neg (by simp [insecure])

theorem exec_d2hCompletion_of_insecure (ch : Fin 16384) (wr goErr : Bool) : exec (.d2hCompletion ch wr goErr) s = .next s :=
  if_pos (by simp [insecure])

end

theorem exec_uioCompletion_of_insecure {s : State} (insecure : ideOpen s 0 = false) (tag : Nat) (ok : Bool) (data : List Byte)
    (d : Nat) : exec (.uioCompletion tag ok data d) s = .next s :=
  if_pos (by simp [insecure])

/-- Settles O47: each clause is one case of an event above. -/
theorem channelEvents : Obligations.ChannelEvents := by
  unfold Obligations.ChannelEvents
  refine ⟨?wake, ?snooped, ?unwatched, ?service, ?served, ?completion, ?tokens, ?pause, ?rebuild, ?awaited, ?unawaited, ?insecure⟩
  case wake =>
    intro s ch isOpen
    rw [exec_watchWake_of_open isOpen]
    exact ⟨fun live held => congrArg _ (wakeChannel_of_held live held), fun idle => congrArg _ (wakeChannel_of_idle idle)⟩
  case snooped =>
    intro s addr n isOpen watched
    rw [exec_snpinv_of_watched isOpen watched]
    exact ⟨fun held => if_pos held, fun unheld => if_neg (by simp [unheld]), exec_snpdata_of_watched isOpen watched⟩
  case unwatched =>
    exact fun s addr isOpen unwatched =>
      ⟨exec_snpinv_of_unwatched isOpen unwatched, exec_snpdata_of_unwatched isOpen unwatched⟩
  case service => exact fun s ch sq cq master isOpen => exec_watchWakeService_of_unheld isOpen sq cq master
  case served => exact fun s n sq cq inside s1 => serveWatch_of_inside cq inside
  case completion =>
    exact fun s ch wr master isOpen => ⟨fun live => ⟨exec_d2hCompletion_of_goErr master isOpen live wr,
      exec_d2hCompletion_of_read master isOpen live, fun e r => exec_d2hCompletion_of_unsent master isOpen live,
      exec_d2hCompletion_of_unawaited master isOpen live⟩, fun free => exec_d2hCompletion_of_free master isOpen free wr⟩
  case tokens =>
    intro s slot toks
    rw [exec_requestTokensFetched]
    exact ⟨fun queued => by rw [if_pos queued], fun other => by rw [if_neg other]⟩
  case pause => exact fun s slot => ⟨fun paused idle t => exec_pauseTtlExpiry_of_paused paused idle, exec_pauseTtlExpiry_of_other⟩
  case rebuild =>
    exact fun s => ⟨exec_treeRebuildStep_of_idle, fun rebuilds =>
      ⟨fun p => exec_treeRebuildStep_of_page rebuilds, exec_treeRebuildStep_of_end rebuilds⟩⟩
  case awaited =>
    exact fun s s1 t1 tag d ok data e rest awaited ended isOpen expired =>
      ⟨fun dead => ⟨exec_uioCompletion_of_dead awaited isOpen ended ok data d dead, exec_uioTimeout_of_dead awaited expired dead⟩,
        fun alive => ⟨exec_uioCompletion_of_older awaited isOpen ended ok data d alive,
          exec_uioCompletion_of_success awaited isOpen ended ok data d alive,
          exec_uioCompletion_of_failure awaited isOpen ended ok data d alive, exec_uioTimeout_of_alive awaited expired alive⟩⟩
  case unawaited =>
    exact fun s tag d ok data unawaited => ⟨exec_uioCompletion_of_unawaited unawaited ok data d,
      exec_uioCompletion_of_no_master unawaited ok data d, exec_uioTimeout_of_unawaited unawaited⟩
  case insecure =>
    exact fun s ch sq cq addr wr b ok tag d data => ⟨fun insecure => ⟨exec_watchWake_of_insecure insecure ch,
      exec_snpinv_of_insecure insecure addr, exec_snpdata_of_insecure insecure addr,
      exec_watchWakeService_of_insecure insecure ch sq cq, exec_d2hCompletion_of_insecure insecure ch wr b⟩,
      fun insecure => exec_uioCompletion_of_insecure insecure tag ok data d⟩

end Sys2Proof.Machine
end

section
/-! PROOF. Requests on a channel (R428 to R430, R432, R449, R452, R473, R483 to R485, Tables 13.6 and 13.9): what taking an entry leaves,
which session the entry names, and what each opcode does with it. -/

namespace Sys2Proof.Machine

/-! ### Taking an entry -/

section
variable {s : State} {n : Nat} {e : Submission} {code : Nat} (act : State → State)

theorem submit_of_taken (takes : takesEntry s n e code) : submit s n e code act = act (entryTaken s n e) := by
  obtain ⟨opened, queued, opcode, reserved, count, aligned⟩ := takes
  have fits : entryFits e code = true := by simp [entryFits, opcode, reserved, count, aligned]
  rw [submit, if_neg (by simp [opened, queued]), if_neg (by simp [opened]), if_neg (by simp [fits]), entryTaken]

theorem submit_of_closing (closing : (getChan s n).state = .closing) (queued : (getChan s n).sqRead ≠ (getChan s n).sqHead) :
    submit s n e code act = checkClosing (finalEntry (entryTaken s n e) n e.tag 7 0 []) n := by
  rw [submit, if_neg (by simp [closing, queued]), if_pos closing, stClosed, entryTaken]

end

/-! ### The session of an entry -/

section
variable {s r : State} {n : Nat} {e : Submission} {i : Nat} (act : State → Nat → State)

theorem withSession_of_read (read : sessionRead s r n e i) : withSession s n e act = act r i := by
  obtain ⟨session, table, q, b, entry, rfl⟩ := read
  simp only [withSession, session, Option.filter_some, table, decide_true, if_true, entry]

theorem withIdle_of_idle (idle : idleSession s r n e i) : withIdle s n e act = act r i := by
  obtain ⟨read, free⟩ := idle
  rw [withIdle, withSession_of_read _ read, if_neg (by simp [free])]

theorem withIdle_of_busy (read : sessionRead s r n e i) (busy : busySession (getSess r i) = true) :
    withIdle s n e act = finalEntry r n e.tag 5 (getSess r i).position [] := by
  rw [withIdle, withSession_of_read _ read, if_pos busy, stBusy]

section
variable (noSession : ∀ i, sessOf s e.session = some i → (getSess s i).table ≠ (getChan s n).table)
include noSession

theorem withSession_of_none : withSession s n e act = finalEntry s n e.tag 4 0 [] := by
  have unnamed : ((sessOf s e.session).filter fun i => (getSess s i).table = (getChan s n).table) = none :=
    Option.filter_eq_none_iff.mpr fun i named => by simpa using noSession i named
  rw [withSession, unnamed, stNoSession]

theorem withIdle_of_none : withIdle s n e act = finalEntry s n e.tag 4 0 [] := withSession_of_none _ noSession

end

end

/-! ### The commands -/

section
variable (s : State) (ch : Fin 16384) (e : Submission)

theorem exec_openSession : exec (.openSession ch e) s = execOpenSession ch e s := rfl
theorem exec_pause : exec (.pause ch e) s = execPause ch e s := rfl
theorem exec_abortRequest : exec (.abortRequest ch e) s = execAbortRequest ch e s := rfl
theorem exec_generate : exec (.generate ch e) s = execGenerate ch e s := rfl
theorem exec_append : exec (.append ch e) s = execAppend ch e s := rfl
theorem exec_resume : exec (.resume ch e) s = execResume ch e s := rfl
theorem exec_close : exec (.close ch e) s = execClose ch e s := rfl
theorem exec_attach : exec (.attach ch e) s = execAttach ch e s := rfl

end

/-! ### OPEN -/

section
variable {s s1 : State} {ch : Fin 16384} {e : Submission} (takes : takesEntry s ch.val e 0x01) (taken : s1 = entryTaken s ch.val e)
include takes taken

theorem exec_openSession_of_session (named : e.session ≠ 0) :
    exec (.openSession ch e) s = .next (finalEntry s1 ch.val e.tag 3 0 []) := by
  rw [exec_openSession, execOpenSession, submit_of_taken _ takes, ← taken]
  exact congrArg Host.Outcome.next (if_pos named)

section
variable (unnamed : e.session = 0) (arg : e.arg = 0) (noPin : pinOf s1 0 = none)
include unnamed arg noPin

theorem exec_openSession_of_slot {i : Nat} (free : freeSession s1 (getChan s1 ch.val).table = some i) :
    exec (.openSession ch e) s = .next (openSession s1 ch.val i e [] 0) := by
  rw [exec_openSession, execOpenSession, submit_of_taken _ takes, ← taken, if_neg (not_not_intro unnamed)]
  simp only [arg, noPin, free, Option.filter_none, ne_eq, not_true_eq_false, decide_false, Bool.false_and, Bool.false_eq_true, if_false]

theorem exec_openSession_of_full (full : freeSession s1 (getChan s1 ch.val).table = none) :
    exec (.openSession ch e) s = .next (finalEntry s1 ch.val e.tag 6 0 []) := by
  rw [exec_openSession, execOpenSession, submit_of_taken _ takes, ← taken, if_neg (not_not_intro unnamed)]
  simp only [arg, noPin, full, Option.filter_none, ne_eq, not_true_eq_false, decide_false, Bool.false_and, Bool.false_eq_true, if_false,
    stCapacity]

end

end

/-! ### What a request does with its session -/

/-- PAUSE on a session that runs nothing. -/
def pauseIdle (n : Nat) (e : Submission) (s : State) (i : Nat) : State :=
  let s := modSess (runRequest s n i e .pausing) i fun c => { c with ttl := e.arg.toNat }
  checkPaused (spillPausing s (getSess s i).table) i

/-- RESUME on a session that runs nothing. -/
def resumeIdle (n : Nat) (e : Submission) (s : State) (i : Nat) : State :=
  let s := modSess (runRequest s n i e .resuming) i fun c => { c with ttl := 0 }
  if (getSess s i).pages.all inMemory then endRequest s i 0 else s

/-- CLOSE on a session that runs nothing. -/
def closeIdle (n : Nat) (e : Submission) (s : State) (i : Nat) : State :=
  finalEntry (closeSession s i) n e.tag 0 (getSess s i).position []

/-- ATTACH on a session whose entry has been read. -/
def attachRead (n : Nat) (e : Submission) (s : State) (i : Nat) : State :=
  if (getSess s i).chan ≠ 0 then finalEntry s n e.tag 3 (getSess s i).position []
  else finalEntry (setSess s i { getSess s i with chan := chanHandle s n }) n e.tag 0 (getSess s i).position []

/-- ABORT of a tag on a session whose entry has been read. -/
def abortRead (n : Nat) (e : Submission) (tag : W32) (s : State) (i : Nat) : State :=
  match targetOf s n tag with
  | some k => finalEntry (foldSession (setSess s k { getSess s k with aborting := true }) k) n e.tag 1 (getSess s i).position []
  | none => finalEntry s n e.tag (if (getChan s n).doneTags.contains tag then 2 else 9) (getSess s i).position []

section
variable {s s1 : State} {ch : Fin 16384} {e : Submission} (taken : s1 = entryTaken s ch.val e)
include taken

section
variable (takes : takesEntry s ch.val e 0x05)
include takes

theorem exec_pause_of_bounds (least : 60 ≤ e.arg.toNat) (most : e.arg.toNat ≤ 64800) :
    exec (.pause ch e) s = .next (withIdle s1 ch.val e (pauseIdle ch.val e)) := by
  rw [exec_pause, execPause, submit_of_taken _ takes, ← taken]
  exact congrArg Host.Outcome.next (if_neg (by simp [least, most]))

theorem exec_pause_of_out_of_bounds (out : e.arg.toNat < 60 ∨ 64800 < e.arg.toNat) :
    exec (.pause ch e) s = .next (finalEntry s1 ch.val e.tag 3 0 []) := by
  rw [exec_pause, execPause, submit_of_taken _ takes, ← taken]
  exact congrArg Host.Outcome.next (if_pos (by simpa using out))

end

theorem exec_abortRequest_of_tag (takes : takesEntry s ch.val e 0x04) (isTag : e.arg.toNat < 2 ^ 32) :
    exec (.abortRequest ch e) s = .next (withSession s1 ch.val e (abortRead ch.val e (BitVec.ofNat 32 e.arg.toNat))) := by
  rw [exec_abortRequest, execAbortRequest, submit_of_taken _ takes, ← taken]
  exact congrArg Host.Outcome.next (if_neg (not_not_intro (Nat.div_eq_of_lt isTag)))

section
variable (arg : e.arg = 0)
include arg

theorem exec_generate_of_bounds (takes : takesEntry s ch.val e 0x02) (least : e.maxNew ≠ 0) (most : e.maxNew.toNat ≤ 1048576) :
    exec (.generate ch e) s = .next (withIdle s1 ch.val e fun s i => admitRequest s ch.val i e false) := by
  rw [exec_generate, execGenerate, submit_of_taken _ takes, ← taken]
  exact congrArg Host.Outcome.next (if_neg (by simpa [arg, most] using least))

theorem exec_append_of_bounds (takes : takesEntry s ch.val e 0x03) :
    exec (.append ch e) s = .next (withIdle s1 ch.val e fun s i => admitRequest s ch.val i e true) := by
  rw [exec_append, execAppend, submit_of_taken _ takes, ← taken]
  exact congrArg Host.Outcome.next (if_neg (not_not_intro arg))

theorem exec_resume_of_bounds (takes : takesEntry s ch.val e 0x06) :
    exec (.resume ch e) s = .next (withIdle s1 ch.val e (resumeIdle ch.val e)) := by
  rw [exec_resume, execResume, submit_of_taken _ takes, ← taken]
  exact congrArg Host.Outcome.next (if_neg (not_not_intro arg))

theorem exec_close_of_bounds (takes : takesEntry s ch.val e 0x07) :
    exec (.close ch e) s = .next (withIdle s1 ch.val e (closeIdle ch.val e)) := by
  rw [exec_close, execClose, submit_of_taken _ takes, ← taken]
  exact congrArg Host.Outcome.next (if_neg (not_not_intro arg))

theorem exec_attach_of_bounds (takes : takesEntry s ch.val e 0x08) :
    exec (.attach ch e) s = .next (withSession s1 ch.val e (attachRead ch.val e)) := by
  rw [exec_attach, execAttach, submit_of_taken _ takes, ← taken]
  exact congrArg Host.Outcome.next (if_neg (not_not_intro arg))

end

end

section
variable {s : State} {n : Nat} {e : Submission} {i : Nat}

theorem resumeIdle_of_resuming {s1 : State} (resumes : s1 = modSess (runRequest s n i e .resuming) i fun c => { c with ttl := 0 }) :
    resumeIdle n e s i = if (getSess s1 i).pages.all inMemory then endRequest s1 i 0 else s1 := by
  rw [resumeIdle, ← resumes]

theorem pauseIdle_of_pausing {s1 : State} (pauses : s1 = modSess (runRequest s n i e .pausing) i fun c => { c with ttl := e.arg.toNat }) :
    pauseIdle n e s i = checkPaused (spillPausing s1 (getSess s1 i).table) i := by
  rw [pauseIdle, ← pauses]

theorem abortRead_of_target {tag : W32} {k : Nat} (target : targetOf s n tag = some k) : abortRead n e tag s i = finalEntry
    (foldSession (setSess s k { getSess s k with aborting := true }) k) n e.tag 1 (getSess s i).position [] := by
  rw [abortRead, target]

theorem abortRead_of_no_target {tag : W32} (noTarget : targetOf s n tag = none) : abortRead n e tag s i = finalEntry s n e.tag
    (if (getChan s n).doneTags.contains tag then 2 else 9) (getSess s i).position [] := by
  rw [abortRead, noTarget]

end

theorem exec_of_closing {s s1 : State} {ch : Fin 16384} {e : Submission} (taken : s1 = entryTaken s ch.val e)
    (closing : (getChan s ch.val).state = .closing) (queued : (getChan s ch.val).sqRead ≠ (getChan s ch.val).sqHead) :
    ∀ c ∈ ([.openSession ch e, .generate ch e, .append ch e, .abortRequest ch e, .pause ch e, .resume ch e, .close ch e,
      .attach ch e] : List Instr), exec c s = .next (checkClosing (finalEntry s1 ch.val e.tag 7 0 []) ch.val) := by
  subst taken
  simp only [List.forall_mem_cons, exec_openSession, exec_generate, exec_append, exec_abortRequest, exec_pause, exec_resume, exec_close,
    exec_attach, execOpenSession, execGenerate, execAppend, execAbortRequest, execPause, execResume, execClose,
    execAttach, submit_of_closing _ closing queued, List.not_mem_nil, false_imp_iff, implies_true, and_self]

/-- ABORT names its target by the low half of its argument. -/
theorem exec_abortRequest_of_read {s s1 r : State} {ch : Fin 16384} {e : Submission} {i : Nat} {tag : W32}
    (taken : s1 = entryTaken s ch.val e) (takes : takesEntry s ch.val e 0x04) (arg : e.arg = BitVec.zeroExtend 64 tag)
    (read : sessionRead s1 r ch.val e i) : exec (.abortRequest ch e) s = .next (abortRead ch.val e tag r i) := by
  have low : e.arg.toNat = tag.toNat := by rw [arg, BitVec.toNat_setWidth_of_le (by decide)]
  rw [exec_abortRequest_of_tag taken takes (low ▸ tag.isLt), withSession_of_read _ read, low, BitVec.ofNat_toNat, BitVec.setWidth_eq]

/-- Settles O48: each request takes its entry, finds its session idle, busy or missing, and does what its opcode says. -/
theorem channelRequests : Obligations.ChannelRequests := by
  unfold Obligations.ChannelRequests
  refine ⟨?openSession, ?generate, ?append, ?abort, ?pause, ?resume, ?close, ?attach, ?refused, ?closing⟩
  case openSession =>
    exact fun s s1 ch e takes taken => ⟨fun unnamed arg noPin => ⟨fun i => exec_openSession_of_slot takes taken unnamed arg noPin,
      exec_openSession_of_full takes taken unnamed arg noPin⟩, exec_openSession_of_session takes taken⟩
  case generate =>
    intro s s1 r ch e i takes taken idle arg least most
    rw [exec_generate_of_bounds taken arg takes least most, withIdle_of_idle _ idle]
  case append =>
    intro s s1 r ch e i takes taken idle arg
    rw [exec_append_of_bounds taken arg takes, withIdle_of_idle _ idle]
  case abort =>
    intro s s1 r ch e i tag takes taken arg read
    rw [exec_abortRequest_of_read taken takes arg read]
    exact ⟨fun k target => by rw [abortRead_of_target target], fun noTarget => by rw [abortRead_of_no_target noTarget]⟩
  case pause =>
    refine fun s s1 r ch e i takes taken => ⟨fun least most idle s2 pauses => ?_, exec_pause_of_out_of_bounds taken takes⟩
    rw [exec_pause_of_bounds taken takes least most, withIdle_of_idle _ idle, pauseIdle_of_pausing pauses]
  case resume =>
    intro s s1 r s2 ch e i takes taken idle arg resumes
    rw [exec_resume_of_bounds taken arg takes, withIdle_of_idle _ idle, resumeIdle_of_resuming resumes]
    exact ⟨fun resident => by rw [if_pos resident], fun spilled => by rw [if_neg (by simp [spilled])]⟩
  case close =>
    intro s s1 r ch e i takes taken idle arg
    rw [exec_close_of_bounds taken arg takes, withIdle_of_idle _ idle, closeIdle]
  case attach =>
    intro s s1 r ch e i takes taken arg read
    rw [exec_attach_of_bounds taken arg takes, withSession_of_read _ read, attachRead]
    exact ⟨fun detached => by rw [if_neg (not_not_intro detached)], fun bound => by rw [if_pos bound]⟩
  case refused =>
    intro s s1 r ch e i taken
    refine ⟨fun noSession => ⟨fun takes arg least most => ?_, fun takes arg => ?_, fun takes isTag => ?_, fun takes least most => ?_,
      fun takes arg => ?_, fun takes arg => ?_, fun takes arg => ?_⟩, fun read busy t refused => ?_⟩
    · rw [exec_generate_of_bounds taken arg takes least most, withIdle_of_none _ noSession]
    · rw [exec_append_of_bounds taken arg takes, withIdle_of_none _ noSession]
    · rw [exec_abortRequest_of_tag taken takes isTag, withSession_of_none _ noSession]
    · rw [exec_pause_of_bounds taken takes least most, withIdle_of_none _ noSession]
    · rw [exec_resume_of_bounds taken arg takes, withIdle_of_none _ noSession]
    · rw [exec_close_of_bounds taken arg takes, withIdle_of_none _ noSession]
    · rw [exec_attach_of_bounds taken arg takes, withSession_of_none _ noSession]
    · have ends (act : State → Nat → State) : withIdle s1 ch.val e act = t := by rw [withIdle_of_busy act read busy, refused]
      refine ⟨fun takes arg least most => ?_, fun takes arg => ?_, fun takes least most => ?_, fun takes arg => ?_, fun takes arg => ?_⟩
      · rw [exec_generate_of_bounds taken arg takes least most, ends]
      · rw [exec_append_of_bounds taken arg takes, ends]
      · rw [exec_pause_of_bounds taken takes least most, ends]
      · rw [exec_resume_of_bounds taken arg takes, ends]
      · rw [exec_close_of_bounds taken arg takes, ends]
  case closing =>
    rintro s s1 ch e taken closing queued _ rfl
    exact exec_of_closing taken closing queued

end Sys2Proof.Machine
end

section
/-! PROOF. What the host's resets stop and clear, and the training of the CXL link (R451, R452, R497, R502, R515, R527, R605,
Tables 15.5 and 17.1). -/

namespace Sys2Proof.Machine

/-! ### The command in progress of the primary mailbox -/

section
variable {s : State}

theorem abandonMailbox_of_idle (idle : s.background = none) :
    abandonMailbox s = { s with replies := sput none s.replies 0 none } := by
  simp only [abandonMailbox, idle, Option.any_none, Option.map_none, Bool.false_and, Bool.false_eq_true, if_false]

section
variable {b : Background} (command : s.background = some b)
include command

/-- A command that has ended, or that came over MCTP, goes on. -/
theorem abandonMailbox_of_other (other : b.running = false ∨ b.cci ≠ 0) :
    abandonMailbox s = { s with replies := sput none s.replies 0 none } := by
  have notMine : (b.running && decide (b.cci = 0)) = false := by simpa [imp_iff_not_or] using other
  simp only [abandonMailbox, command, Option.any_some, Option.map_some, notMine, Bool.false_and, Bool.false_eq_true, if_false]

section
variable {t : State} (runs : b.running = true) (primary : b.cci = 0)
  (abandoned : t = { s with replies := sput none s.replies 0 none, background := some { b with cci := 2 } })
include runs primary abandoned

/-- The check of a staged deck ends with the command that asked for it. -/
theorem abandonMailbox_of_primary : abandonMailbox s =
    if b.opcode = 0xC012 ∧ s.loader.stage = .verifying then endBackground (dropStaged t) 0xC012 .aborted 0 [] else t := by
  subst abandoned
  simp only [abandonMailbox, command, Option.any_some, Option.map_some, runs, primary, decide_true, Bool.and_self, Bool.true_and, if_true,
    Bool.and_eq_true, decide_eq_true_eq]

theorem abandonMailbox_of_verifying (stages : b.opcode = 0xC012) (verifies : s.loader.stage = .verifying) :
    abandonMailbox s = endBackground (dropStaged t) 0xC012 .aborted 0 [] := by
  rw [abandonMailbox_of_primary command runs primary abandoned, if_pos ⟨stages, verifies⟩]

theorem abandonMailbox_of_unverified (other : b.opcode ≠ 0xC012 ∨ s.loader.stage ≠ .verifying) : abandonMailbox s = t := by
  rw [abandonMailbox_of_primary command runs primary abandoned, if_neg (not_and_or.mpr other)]

end

end

end

/-! ### The resets -/

theorem resetFunction_of_steps {s s1 s2 s3 s4 : State} (stopped : s1 = stopRequests (abandonMailbox s))
    (freed : s2 = (liveChannels s1).foldl freeChannel s1)
    (cleared : s3 = modHost (s2.host.uio.foldl (fun s e => dropDeadline s (.uio e.1)) s2)
      fun h => { h with busMaster := false, uio := [] })
    (disabled : s4 = ((s3.tables.map (·.1)).filter fun t => !(getRound s3 t).isOpen && !(getRound s3 t).again).foldl finishDisable s3) :
    resetFunction s = { s4 with sec := { s4.sec with keySets := [], keyActive := [] } } := by
  subst stopped freed cleared disabled
  rfl

section
variable (s : State)

theorem resetMemory_decoders : (resetMemory s).host.decoders = [] := rfl
theorem resetMemory_snoop : (resetMemory s).host.snoop = [] := rfl

theorem exec_functionLevelReset : exec .functionLevelReset s = .next (logBare (resetFunction s) evHstFlr uCxl) := rfl

theorem exec_cxlReset : exec .cxlReset s = .next (logBare (resetMemory (resetFunction s)) evHstCxlReset uCxl) := rfl

theorem exec_hotReset : exec .hotReset s = .next (hotReset s) := rfl

end

theorem exec_busMasterClear_of_stopped {s s1 : State} (stopped : s1 = modHost (stopRequests s) fun h => { h with busMaster := false }) :
    exec .busMasterClear s = .next (logBare ((liveChannels s1).foldl suspendChannel s1) evHstBmeCleared uCxl) := by
  subst stopped
  rfl

theorem exec_hotReset_of_cleared {s s1 : State}
    (cleared : s1 = resetMemory (resetFunction { s with host := { s.host with busMaster := false } })) : exec .hotReset s =
      .next (logBare { s1 with host := { s1.host with linkUp := false, width := 0, rate := 0 } } evHstHotReset uCxl) := by
  rw [exec_hotReset, hotReset]
  simp only [modHost, ← cleared]

/-! ### The link -/

section
variable {s : State} (w r : Nat)

theorem exec_cxlLinkUp : exec (.cxlLinkUp w r) s = execCxlLinkUp w r s := rfl

theorem exec_cxlLinkUp_of_held (held : s.power.inputOn = false ∨ s.host.perst = true ∨ s.ringOsc = true) :
    exec (.cxlLinkUp w r) s = .next s :=
  if_pos (by simpa [or_assoc] using held)

theorem exec_cxlLinkUp_of_trained {s1 : State} (on : s.power.inputOn = true) (released : s.host.perst = false)
    (clocked : s.ringOsc = false)
    (trained : s1 = { s with host := { s.host with linkUp := true, width := w, rate := r, busMaster := true } }) :
    exec (.cxlLinkUp w r) s =
      .next (if w < 8 ∨ r < 64 then logGen s1 evHstLinkDegraded uCxl none [w32 w, w32 r] [] else s1) := by
  have trains : ¬(!s.power.inputOn || s.host.perst || s.ringOsc) = true := by simp [on, released, clocked]
  rw [exec_cxlLinkUp, execCxlLinkUp, if_neg trains]
  simp only [modHost, ← trained, Bool.or_eq_true, decide_eq_true_eq]
  rw [apply_ite Host.Outcome.next]

end

/-- Settles O49: each clause is one reset or one case of the mailbox or of the link above. -/
theorem hostResetsAndLink : Obligations.HostResetsAndLink := by
  unfold Obligations.HostResetsAndLink
  refine ⟨?busMaster, ?function, ?mailbox, ?resets, ?memory, ?hot, ?link, ?held⟩
  case busMaster => exact fun s s1 => exec_busMasterClear_of_stopped
  case function => exact fun s s1 s2 s3 s4 => resetFunction_of_steps
  case mailbox =>
    exact fun s => ⟨abandonMailbox_of_idle, fun b command => ⟨abandonMailbox_of_other command,
      fun runs primary t abandoned => ⟨abandonMailbox_of_verifying command runs primary abandoned,
        abandonMailbox_of_unverified command runs primary abandoned⟩⟩⟩
  case resets => exact fun s => ⟨exec_functionLevelReset s, exec_cxlReset s⟩
  case memory => exact fun s => ⟨resetMemory_decoders s, resetMemory_snoop s⟩
  case hot => exact fun s s1 => exec_hotReset_of_cleared
  case link =>
    intro s s1 w r on released clocked trained
    rw [exec_cxlLinkUp_of_trained w r on released clocked trained]
    refine ⟨fun wide fast => ?_, fun degraded => by rw [if_pos degraded]⟩
    rw [if_neg (not_or.mpr ⟨Nat.not_lt.mpr wide, Nat.not_lt.mpr fast⟩)]
  case held => exact fun s w r => exec_cxlLinkUp_of_held w r

end Sys2Proof.Machine
end

section
/-! PROOF. What a step takes and what it keeps: the front of the queue (95_what_each_step_holds.md) and the fuses that are set (R593,
R598, R607, Table 18.1). Both follow from `kept_step`, which says what every step keeps. -/

namespace Sys2Proof.Machine

/-- Settles O6: what a step keeps of the security part is `FuseLe`, and each clause is one of its parts. -/
theorem stepOnlySetsFuses : Obligations.StepOnlySetsFuses := by
  intro s t e
  obtain ⟨-, -, fuses⟩ := kept_step e
  obtain ⟨hash, uds, svn, debug, revoked, used, hashBits⟩ := fuses
  exact ⟨hash, uds, svn, debug, used, revoked, hashBits⟩

/-- Settles O4: the queue that a step keeps is the one without its front command. -/
theorem stepTakesOnlyTheFront : Obligations.StepTakesOnlyTheFront := by
  intro s t e
  obtain ⟨queue, -, -⟩ := kept_step e
  exact queue

theorem step_of_cons {s : State} {c : Instr} {rest : List Instr} (front : s.pending = c :: rest) :
    step s = exec c { s with pending := rest } := by
  unfold step
  rw [front]

/-- Settles O1. -/
theorem stepRunsFrontCommand : Obligations.StepRunsFrontCommand := fun _ _ _ => step_of_cons rfl

end Sys2Proof.Machine
end

section
/-! PROOF. The beats and the watchdogs of the control cores, the takeover after a hang and the steps of an online activation (R543, R557,
R568 to R570, R585, R586, Tables 17.5 and 17.7). -/

namespace Sys2Proof.Machine

/-- A saturating count is the count bounded by its top, for as long as it has not passed it. -/
theorem satInc_eq_min (top n : Nat) : satInc top n = min top (n + 1) := by
  unfold satInc
  split <;> omega

theorem logGen_ctl (s : State) (e : Ev) (u : Nat) (t : Option Nat) (a : List W32) (b : List W64) : (logGen s e u t a b).ctl = s.ctl := by
  obtain ⟨out, shape⟩ := logAtDie_shape s e u (dieOf u) t (.general a b)
  rw [logGen, logEvent, shape]

/-! ### Beats and watchdogs -/

section
variable {s : State} (on : s.power.inputOn = true)
include on

theorem execControlBeat_of_first (lower : s.ctl.activeCore = 0) :
    execControlBeat s = .next { s with ctl := { s.ctl with beat0 := s.ctl.beat0 + 1 } } := by
  simp [execControlBeat, on, lower, modCtl]

theorem execControlBeat_of_second (upper : s.ctl.activeCore ≠ 0) :
    execControlBeat s = .next { s with ctl := { s.ctl with beat1 := s.ctl.beat1 + 1 } } := by
  simp [execControlBeat, on, upper, modCtl]

theorem execMgmtBeat_of_on :
    execMgmtBeat s = .next (startDeadline { s with ctl := { s.ctl with mgmtCount := s.ctl.mgmtCount + 1 } } .watchdog) := if_pos on

theorem execMgmtWatchdogExpiry_of_on {t : State} (passed : t = startDeadline (expire s .watchdog (50 * countsMs)) .watchdog) :
    execMgmtWatchdogExpiry s = .next (logBare { t with ctl := { t.ctl with
      mgmtRestarts := min 255 (t.ctl.mgmtRestarts + 1) } } evBupMgmtRestart uCtl) := by
  rw [execMgmtWatchdogExpiry, if_pos on, ← satInc_eq_min, passed]
  rfl

end

/-! ### The check of a millisecond -/

theorem execHeartbeatCheck_of_resting {s : State} (resting : s.ctl.idState = .boot ∨ s.ctl.recovering.contains .wholeModule = true) :
    execHeartbeatCheck s = .next s :=
  if_pos (by rcases resting with h | h <;> simp only [h, decide_true, Bool.or_true, Bool.true_or])

section
variable {s : State} (on : s.power.inputOn = true) (awake : s.ctl.idState ≠ .boot)
  (whole : s.ctl.recovering.contains .wholeModule = false)
include on awake whole

/-- The check compares the beat counter of the active core with the one that it saw last. -/
theorem execHeartbeatCheck_of_awake : execHeartbeatCheck s =
    if beatOf s s.ctl.activeCore ≠ s.ctl.beatSeen then
      .next (modCtl s fun c => { c with beatSeen := beatOf s s.ctl.activeCore, missed := 0 })
    else if s.ctl.missed < 2 then .next (modCtl s fun c => { c with missed := c.missed + 1 })
    else .next (declareHang s) :=
  if_neg (by simp only [on, awake, whole, Bool.not_true, decide_false, Bool.or_self, Bool.false_eq_true, not_false_eq_true])

theorem execHeartbeatCheck_of_beat (beats : beatOf s s.ctl.activeCore ≠ s.ctl.beatSeen) : execHeartbeatCheck s =
    .next { s with ctl := { s.ctl with beatSeen := beatOf s s.ctl.activeCore, missed := 0 } } := by
  rw [execHeartbeatCheck_of_awake on awake whole, if_pos beats, modCtl]

section
variable (silent : beatOf s s.ctl.activeCore = s.ctl.beatSeen)
include silent

theorem execHeartbeatCheck_of_missed (few : s.ctl.missed < 2) :
    execHeartbeatCheck s = .next { s with ctl := { s.ctl with missed := s.ctl.missed + 1 } } := by
  rw [execHeartbeatCheck_of_awake on awake whole, if_neg (not_not_intro silent), if_pos few, modCtl]

theorem execHeartbeatCheck_of_hang (third : 2 ≤ s.ctl.missed) : execHeartbeatCheck s = .next (declareHang s) := by
  rw [execHeartbeatCheck_of_awake on awake whole, if_neg (not_not_intro silent), if_neg (Nat.not_lt.mpr third)]

end

end

/-! ### A hang -/

/-- The hang of the active core is logged and counted, and its missed beats are forgotten. -/
def hangCounted (s : State) : State :=
  modCtl (logGen s evBupHangControl uCtl none [w32 s.ctl.activeCore] []) fun c => { c with hangs := satInc 0xFF c.hangs, missed := 0 }

theorem hangCounted_eq (s : State) : hangCounted s = modCtl (logGen s evBupHangControl uCtl none [w32 s.ctl.activeCore] []) fun c =>
    { c with hangs := min 255 (c.hangs + 1), missed := 0 } := by
  simp only [hangCounted, satInc_eq_min]

theorem hangCounted_ctl (s : State) : (hangCounted s).ctl = { s.ctl with hangs := satInc 0xFF s.ctl.hangs, missed := 0 } := by
  rw [hangCounted, modCtl_ctl, logGen_ctl]

/-- The ways out of a hang, as the counted hang leaves them. -/
theorem declareHang_eq (s : State) : declareHang s =
    if (hangCounted s).ctl.standbyReady then
      beginRecovery (requestAbort
        (modCtl (hangInActivation (takeOver (hangCounted s))) fun c =>
          { c with beatSeen := beatOf (hangInActivation (takeOver (hangCounted s))) c.activeCore })
        (evBupHangControl.word uCtl)) (.controlCore s.ctl.activeCore)
    else if (hangCounted s).ctl.idState = .running then abortAndRecover (hangCounted s) .wholeModule (evBupHangControl.word uCtl)
    else hangCounted s := rfl

theorem takeOver_hangCounted (s : State) : takeOver (hangCounted s) =
    modCtl (hangCounted s) fun c => { c with activeCore := 1 - s.ctl.activeCore, standbyReady := false } := by
  simp only [takeOver, modCtl, hangCounted_ctl]

theorem declareHang_of_standby {s s2 : State} (ready : s.ctl.standbyReady = true)
    (taken : s2 = hangInActivation (modCtl (hangCounted s) fun c => { c with activeCore := 1 - s.ctl.activeCore, standbyReady := false })) :
    declareHang s = beginRecovery (requestAbort (modCtl s2 fun c => { c with beatSeen := beatOf s2 c.activeCore })
      (evBupHangControl.word uCtl)) (.controlCore s.ctl.activeCore) := by
  rw [declareHang_eq, if_pos (by rw [hangCounted_ctl]; exact ready), takeOver_hangCounted, taken]

theorem declareHang_of_alone {s : State} (alone : s.ctl.standbyReady = false) (runs : s.ctl.idState = .running) :
    declareHang s = abortAndRecover (hangCounted s) .wholeModule (evBupHangControl.word uCtl) := by
  rw [declareHang_eq, if_neg (by simp only [hangCounted_ctl, alone, Bool.false_eq_true, not_false_eq_true]),
    if_pos (by rw [hangCounted_ctl]; exact runs)]

/-! ### Online activation -/

section
variable {s : State} (loading : s.ctl.fwPhase = .loading)
include loading

theorem execStandbyImageReady_of_open (busy : noOpenRound s = false) :
    execStandbyImageReady s = .next { s with ctl := { s.ctl with fwPhase := .waiting, standbyReady := true } } := by
  rw [execStandbyImageReady, if_neg (not_not_intro loading)]
  have stays : maybeTakeOver (modCtl s fun c => { c with fwPhase := .waiting, standbyReady := true }) =
      modCtl s fun c => { c with fwPhase := .waiting, standbyReady := true } := if_neg (by simpa [noOpenRound] using busy)
  simp only [stays]
  rfl

theorem execStandbyImageReady_of_boundary {s1 : State} (rest : noOpenRound s = true)
    (taken : s1 = startDeadline { s with ctl := { s.ctl with
      fwPhase := .probation, activeCore := 1 - s.ctl.activeCore, standbyReady := true, missed := 0 } } .probation) :
    execStandbyImageReady s = .next (if isDealer s1 then startRounds s1 else openHeld s1) := by
  rw [execStandbyImageReady, if_neg (not_not_intro loading)]
  have takes : maybeTakeOver (modCtl s fun c => { c with fwPhase := .waiting, standbyReady := true }) = s1 := by
    rw [taken]
    exact if_pos (by simpa [noOpenRound] using rest)
  have probation : s1.ctl.fwPhase = .probation := by rw [taken]; rfl
  simp only [takes, probation, reduceCtorEq, if_false]

theorem execStandbyLoadTimeout_of_loading {t : State} (passed : t = expire s .standbyLoad (2 * countsSec)) :
    execStandbyLoadTimeout s = .next (logGen { t with ctl := { t.ctl with fwPhase := .none, standbyReady := true } }
      evBupFwActivateFail uMgmt none [w32 3] []) := by
  rw [execStandbyLoadTimeout, if_neg (not_not_intro loading), passed]
  rfl

end

theorem execFwProbationExpiry_of_probation {s t : State} (probation : s.ctl.fwPhase = .probation)
    (passed : t = expire s .probation (10 * countsSec)) :
    execFwProbationExpiry s = .next { t with ctl := { t.ctl with fwPhase := .reloading, standbyReady := false } } := by
  rw [execFwProbationExpiry, if_neg (not_not_intro probation), passed, modCtl]

section
variable {s s1 : State} (marked : s1 = { s with ctl := { s.ctl with standbyReady := true, fwMarksPending := true } })
include marked

theorem finishActivation_of_closed (closed : storeWindow s = false) : finishActivation s1 = s1 := by
  have closed1 : storeWindow s1 = false := by rw [marked]; exact closed
  exact if_pos (by simp only [closed1, Bool.not_false, Bool.or_true])

section
variable (reloading : s.ctl.fwPhase = .reloading)
include reloading

theorem execOldActiveReloaded_of_reloading : execOldActiveReloaded s = .next (finishActivation s1) := by
  rw [execOldActiveReloaded, if_neg (not_not_intro reloading), marked, modCtl]

theorem finishActivation_of_image {f : FwImage} {k : Nat} (writable : storeWindow s = true) (other : k = 1 - s.ctl.bootSlot)
    (image : fwSlot s k = some f) : finishActivation s1 =
      logGen (modCtl (setFw (setFw s1 k (some f) .active) (1 - k) (fwSlot s1 (1 - k)) .previous)
        fun c => { c with bootSlot := k, fwPhase := .none, fwMarksPending := false })
        evBupFwActivated uMgmt none [w32 (f.major * 2 ^ 16 + f.minor * 2 ^ 8 + f.patch)] [] := by
  have writable1 : storeWindow s1 = true := by rw [marked]; exact writable
  have phase : s1.ctl.fwPhase = .reloading := by rw [marked]; exact reloading
  have pending : s1.ctl.fwMarksPending = true := by rw [marked]
  have other1 : 1 - s1.ctl.bootSlot = k := by rw [marked]; exact other.symm
  have image1 : fwSlot s1 k = some f := by rw [marked]; exact image
  simp only [finishActivation, writable1, phase, pending, other1, image1, ne_eq, not_true_eq_false, decide_false, Bool.not_true,
    Bool.or_self, Bool.false_eq_true, if_false, Option.map_some, Option.getD_some]

end

end

/-- With no activation under way its commands change nothing. -/
theorem exec_activation_of_none {s : State} (idle : s.ctl.fwPhase = .none) {i : Instr}
    (step : i ∈ ([.standbyImageReady, .standbyLoadTimeout, .fwProbationExpiry, .oldActiveReloaded] : List Instr)) :
    exec i s = .next s := by
  simp only [List.mem_cons, List.not_mem_nil, or_false] at step
  rcases step with rfl | rfl | rfl | rfl <;> exact if_pos (by simp only [idle, ne_eq, reduceCtorEq, not_false_eq_true])

/-! ### The commands -/

section
variable (s : State)

theorem exec_controlBeat : exec .controlBeat s = execControlBeat s := rfl
theorem exec_mgmtBeat : exec .mgmtBeat s = execMgmtBeat s := rfl
theorem exec_mgmtWatchdogExpiry : exec .mgmtWatchdogExpiry s = execMgmtWatchdogExpiry s := rfl
theorem exec_heartbeatCheck : exec .heartbeatCheck s = execHeartbeatCheck s := rfl
theorem exec_standbyImageReady : exec .standbyImageReady s = execStandbyImageReady s := rfl
theorem exec_standbyLoadTimeout : exec .standbyLoadTimeout s = execStandbyLoadTimeout s := rfl
theorem exec_oldActiveReloaded : exec .oldActiveReloaded s = execOldActiveReloaded s := rfl
theorem exec_perstNDeassert : exec .perstNDeassert s = .next { s with host := { s.host with perst := false } } := rfl

end

/-- Settles O58: each clause is one command above in one of its cases. -/
theorem controlCores : Obligations.ControlCores := by
  unfold Obligations.ControlCores
  refine ⟨?beats, ?check, ?resting, ?loading, ?probation, ?reloading, fun s idle i step => exec_activation_of_none idle step,
    exec_perstNDeassert⟩
  case beats =>
    intro s on
    rw [exec_controlBeat, exec_mgmtBeat, exec_mgmtWatchdogExpiry]
    exact ⟨execControlBeat_of_first on, execControlBeat_of_second on, execMgmtBeat_of_on on,
      fun t => execMgmtWatchdogExpiry_of_on on⟩
  case check =>
    intro s on awake whole
    rw [exec_heartbeatCheck]
    refine ⟨execHeartbeatCheck_of_beat on awake whole, execHeartbeatCheck_of_missed on awake whole, ?_⟩
    rintro s1 _ silent third rfl counted
    rw [← hangCounted_eq] at counted
    subst counted
    rw [execHeartbeatCheck_of_hang on awake whole silent third]
    exact ⟨fun s2 ready taken => congrArg _ (declareHang_of_standby ready taken),
      fun alone runs => congrArg _ (declareHang_of_alone alone runs)⟩
  case resting => exact fun s => execHeartbeatCheck_of_resting
  case loading =>
    intro s loading
    rw [exec_standbyImageReady, exec_standbyLoadTimeout]
    exact ⟨execStandbyImageReady_of_open loading, fun s1 => execStandbyImageReady_of_boundary loading,
      fun t => execStandbyLoadTimeout_of_loading loading⟩
  case probation => exact fun s t => execFwProbationExpiry_of_probation
  case reloading =>
    intro s s1 reloading marked
    rw [exec_oldActiveReloaded, execOldActiveReloaded_of_reloading marked reloading]
    exact ⟨fun closed => congrArg _ (finishActivation_of_closed marked closed),
      fun f k writable other image => congrArg _ (finishActivation_of_image marked reloading writable other image)⟩

end Sys2Proof.Machine
end

section
/-! PROOF. The SPDM requests in their order, and the keys of link encryption (R602 to R605, Tables 18.3 and 18.4). -/

namespace Sys2Proof.Machine

/-! ### Requests in their order -/

section
variable {s : State} (on : s.power.inputOn = true)
include on

theorem spdm_of_on (act : State → State) : spdm s act = act s := if_pos on

section
variable {ready : State → Bool} (act : State → State)

/-- A request whose earlier request has been answered acts. -/
theorem spdm_of_ready (h : ready s = true) : spdm s (fun s => if !ready s then spdmUnexpected s else act s) = act s := by
  rw [spdm_of_on on, if_neg (by simp only [h, Bool.not_true, Bool.false_eq_true, not_false_eq_true])]

/-- A request out of its order is answered with UnexpectedRequest. -/
theorem spdm_of_unready (h : ready s = false) :
    spdm s (fun s => if !ready s then spdmUnexpected s else act s) = toHost s (.spdm 0x7F [0x04, 0]) := by
  rw [spdm_of_on on, if_pos (by simp only [h, Bool.not_false])]
  rfl

end

/-! ### Connection set-up -/

theorem execSpdmGetVersion_of_on {s1 : State} (lost : s1 = loseSession s) : execSpdmGetVersion s = .next (toHost
    { s1 with sec := { s1.sec with spdmVersion := true, spdmCaps := false, spdmAlgs := false } }
    (.spdm 0x04 [0, 2, 0x00, 0x12, 0x00, 0x13])) := by
  rw [execSpdmGetVersion, spdm_of_on on, lost]

theorem execSpdmGetCapabilities_of_version (version : s.sec.spdmVersion = true) : execSpdmGetCapabilities s = .next (toHost
    { s with sec := { s.sec with spdmCaps := true } } (.spdm 0x61 (leBytes 4 0x222D6))) :=
  congrArg _ (spdm_of_ready on _ version)

theorem execSpdmNegotiateAlgorithms_of_capabilities (capabilities : s.sec.spdmCaps = true) :
    execSpdmNegotiateAlgorithms s = .next (toHost
      { s with sec := { s.sec with spdmAlgs := true } } (.spdm 0x63 (leBytes 4 0x80 ++ leBytes 4 0x02))) :=
  congrArg _ (spdm_of_ready on _ capabilities)

/-! ### Certificates, challenges and measurements -/

section
variable (algorithms : s.sec.spdmAlgs = true)
include algorithms

theorem execSpdmGetDigests_of_algorithms :
    execSpdmGetDigests s = .next (toHost s (.spdm 0x01 ([0x01] ++ sha384 (Config.certChain s.sec.cdi)))) :=
  congrArg _ (spdm_of_ready on _ algorithms)

theorem execSpdmGetCertificate_of_algorithms :
    execSpdmGetCertificate 0 s = .next (toHost s (.spdm 0x02 (Config.certChain s.sec.cdi))) :=
  congrArg _ (spdm_of_ready on _ algorithms)

theorem execSpdmChallenge_of_nonce {nonce : List Byte} (long : nonce.length = 32) : execSpdmChallenge 0 nonce s =
    .next (signedResponse (freeNonce s).2 0x03 (sha384 (Config.certChain s.sec.cdi) ++ (freeNonce s).1)) := by
  rw [execSpdmChallenge, spdm_of_ready on _ algorithms]
  exact congrArg _ (if_neg (by simp [long]))

theorem execSpdmKeyExchange_of_exchange {x : List Byte} {n : List Byte × State} (long : x.length = 96)
    (drawn : n = freeNonce { s with sec := { s.sec with spdmHandshake := true } }) :
    execSpdmKeyExchange 0 x s = .next (signedResponse n.2 0x64 n.1) := by
  rw [execSpdmKeyExchange, spdm_of_ready on _ algorithms, drawn]
  exact congrArg _ (if_neg (by simp [long]))

end

end

/-- The measurement blocks that an index asks for: none for 0, which asks for their number, and all of them for 255. -/
def blocksAsked (index : Nat) : List Nat :=
  if index = 0 then [] else if index = 255 then [1, 2, 3, 4, 5, 6, 7, 8] else [index]

/-- What GET_MEASUREMENTS answers: the number of blocks or the blocks asked for, and the responder's nonce. -/
def measurementsBody (s : State) (index : Nat) : List Byte :=
  (if index = 0 then [8, 0] else leBytes 1 0 ++ leBytes 1 (blocksAsked index).length) ++
    (blocksAsked index).flatMap (measurementBlock s) ++ (freeNonce s).1

theorem measurementsBody_zero (s : State) : measurementsBody s 0 = [8, 0] ++ (freeNonce s).1 := rfl

theorem measurementsBody_all (s : State) : measurementsBody s 255 =
    leBytes 1 0 ++ leBytes 1 8 ++ [1, 2, 3, 4, 5, 6, 7, 8].flatMap (measurementBlock s) ++ (freeNonce s).1 := rfl

theorem measurementsBody_one (s : State) {index : Nat} (least : 1 ≤ index) (most : index ≤ 8) :
    measurementsBody s index = leBytes 1 0 ++ leBytes 1 1 ++ measurementBlock s index ++ (freeNonce s).1 := by
  have some_block : index ≠ 0 := by omega
  have not_all : index ≠ 255 := by omega
  have asked : blocksAsked index = [index] := by rw [blocksAsked, if_neg some_block, if_neg not_all]
  rw [measurementsBody, asked, if_neg some_block, List.flatMap_singleton, List.length_singleton]

theorem execSpdmGetMeasurements_of_known {s : State} {index : Nat} {signed_ : Bool} {nonce : List Byte} (on : s.power.inputOn = true)
    (algorithms : s.sec.spdmAlgs = true) (known : index ≤ 8 ∨ index = 255) (long : signed_ = true → nonce.length = 32) :
    execSpdmGetMeasurements index signed_ nonce s = .next (
      if signed_ then signedResponse (freeNonce s).2 0x60 (measurementsBody s index)
      else toHost (freeNonce s).2 (.spdm 0x60 (measurementsBody s index))) := by
  have valid : ¬((signed_ && nonce.length ≠ 32) || (8 < index && index ≠ 255)) = true := by
    simp only [ne_eq, decide_not, Bool.or_eq_true, Bool.and_eq_true, Bool.not_eq_eq_eq_not, Bool.not_true, decide_eq_false_iff_not,
      decide_eq_true_eq, not_or, not_and, not_not]
    exact ⟨long, fun above => known.resolve_left (by omega)⟩
  rw [execSpdmGetMeasurements, spdm_of_ready on _ algorithms]
  exact congrArg _ (if_neg valid)

/-! ### The secure session -/

section
variable {s : State} (on : s.power.inputOn = true)
include on

section
variable (handshake : s.sec.spdmHandshake = true) {v : List Byte}
include handshake

theorem execSpdmFinish_of_match (right : Config.finishMatches v = true) : execSpdmFinish v s = .next (toHost
    { s with sec := { s.sec with spdmHandshake := false, spdmSession := true } } (.spdm 0x65 [])) := by
  rw [execSpdmFinish, spdm_of_ready on _ handshake, if_pos right]

theorem execSpdmFinish_of_mismatch (wrong : Config.finishMatches v = false) : execSpdmFinish v s = .next (spdmError
    { s with sec := { s.sec with spdmHandshake := false } } 0x06) := by
  rw [execSpdmFinish, spdm_of_ready on _ handshake, if_neg (by simp only [wrong, Bool.false_eq_true, not_false_eq_true])]

end

theorem execSpdmHeartbeat_of_session (session : s.sec.spdmSession = true) :
    execSpdmHeartbeat s = .next (toHost s (.spdm 0x68 [])) := by
  rw [execSpdmHeartbeat, spdm_of_on on, if_pos session]

theorem execSpdmEndSession_of_session (session : s.sec.spdmSession = true) :
    execSpdmEndSession s = .next (toHost (loseSession s) (.spdm 0x6C [])) := by
  rw [execSpdmEndSession, spdm_of_on on, if_pos session]

end

/-! ### The keys of link encryption -/

section
variable {s : State} {stream dir set : Nat} {key : List Byte}

theorem keyNamed_of_lt (streams : stream < 2) (dirs : dir < 2) (sets : set < 2) : keyNamed stream dir set = true := by
  simp only [keyNamed, streams, dirs, sets, decide_true, Bool.and_self]

section
variable (session : s.sec.spdmSession = true) (named : keyNamed stream dir set = true)
include session named

theorem execIdeKeyProg_of_session (long : key.length = 32) : execIdeKeyProg stream dir set key s = .next { s with sec := { s.sec with
    keySets := sput none s.sec.keySets (keySlotOf stream dir set) (some key) } } :=
  if_pos (by simp only [session, named, long, decide_true, Bool.and_self])

theorem execKeySetGo_of_programmed (programmed : (sget none s.sec.keySets (keySlotOf stream dir set)).isSome = true) :
    execKeySetGo stream dir set s = .next { s with
      sec := { s.sec with keyActive := sput none s.sec.keyActive (keyWay stream dir) (some set) },
      host := { s.host with ideInsecure := s.host.ideInsecure &&& ~~~(BitVec.ofNat 2 (2 ^ stream)) } } :=
  if_pos (by simp only [session, named, programmed, Bool.and_self])

theorem execKeySetStop_of_session : execKeySetStop stream dir set s = .next { s with sec := { s.sec with
    keySets := sput none s.sec.keySets (keySlotOf stream dir set) none,
    keyActive := if sget none s.sec.keyActive (keyWay stream dir) = some set then sput none s.sec.keyActive (keyWay stream dir) none
      else s.sec.keyActive } } :=
  if_pos (by simp only [session, named, Bool.and_self])

end

/-- Every key command asks for the secure session first. -/
theorem exec_key_of_no_session (noSession : s.sec.spdmSession = false) : execIdeKeyProg stream dir set key s = .next s ∧
    execKeySetGo stream dir set s = .next s ∧ execKeySetStop stream dir set s = .next s := by
  refine ⟨if_neg ?_, if_neg ?_, if_neg ?_⟩ <;> simp only [noSession, Bool.false_and, Bool.false_eq_true, not_false_eq_true]

end

/-! ### The commands -/

section
variable (s : State)

theorem exec_spdmGetMeasurements (index : Nat) (signed_ : Bool) (nonce : List Byte) :
    exec (.spdmGetMeasurements index signed_ nonce) s = execSpdmGetMeasurements index signed_ nonce s := rfl
theorem exec_spdmHeartbeat : exec .spdmHeartbeat s = execSpdmHeartbeat s := rfl
theorem exec_spdmEndSession : exec .spdmEndSession s = execSpdmEndSession s := rfl
theorem exec_spdmSessionLoss : exec .spdmSessionLoss s = .next (loseSession s) := rfl

end

/-- Every request of a module that has negotiated algorithms waits for that. -/
theorem exec_of_no_algorithms {s : State} (on : s.power.inputOn = true) (unready : s.sec.spdmAlgs = false) (slot i : Nat)
    (nonce x : List Byte) (b : Bool) :
    exec .spdmGetDigests s = .next (toHost s (.spdm 0x7F [0x04, 0])) ∧
    exec (.spdmGetCertificate slot) s = .next (toHost s (.spdm 0x7F [0x04, 0])) ∧
    exec (.spdmChallenge slot nonce) s = .next (toHost s (.spdm 0x7F [0x04, 0])) ∧
    exec (.spdmGetMeasurements i b nonce) s = .next (toHost s (.spdm 0x7F [0x04, 0])) ∧
    exec (.spdmKeyExchange slot x) s = .next (toHost s (.spdm 0x7F [0x04, 0])) :=
  ⟨congrArg _ (spdm_of_unready on _ unready), congrArg _ (spdm_of_unready on _ unready), congrArg _ (spdm_of_unready on _ unready),
    congrArg _ (spdm_of_unready on _ unready), congrArg _ (spdm_of_unready on _ unready)⟩

theorem exec_of_no_session {s : State} (on : s.power.inputOn = true) (noSession : s.sec.spdmSession = false) :
    exec .spdmHeartbeat s = .next (toHost s (.spdm 0x7F [0x04, 0])) ∧
    exec .spdmEndSession s = .next (toHost s (.spdm 0x7F [0x04, 0])) := by
  have unheld : ¬s.sec.spdmSession = true := by simp only [noSession, Bool.false_eq_true, not_false_eq_true]
  rw [exec_spdmHeartbeat, exec_spdmEndSession, execSpdmHeartbeat, execSpdmEndSession, spdm_of_on on, spdm_of_on on, if_neg unheld,
    if_neg unheld]
  exact ⟨rfl, rfl⟩

/-- Settles O50: each request acts as its lemma says in its order, and out of it is answered with UnexpectedRequest. -/
theorem attestationAndKeys : Obligations.AttestationAndKeys := by
  unfold Obligations.AttestationAndKeys
  refine ⟨?inOrder, ?outOfOrder, ?keys, fun s stream dir set key => exec_key_of_no_session⟩
  case inOrder =>
    intro s on
    refine ⟨?connection, execSpdmGetCapabilities_of_version on, execSpdmNegotiateAlgorithms_of_capabilities on, ?algorithms,
      fun handshake v => ⟨execSpdmFinish_of_match on handshake, execSpdmFinish_of_mismatch on handshake⟩⟩
    case connection =>
      rintro _ rfl
      exact ⟨execSpdmGetVersion_of_on on rfl, exec_spdmSessionLoss s,
        fun session => ⟨execSpdmEndSession_of_session on session, execSpdmHeartbeat_of_session on session⟩⟩
    case algorithms =>
      intro algorithms
      have measures {index : Nat} (nonce : List Byte) (known : index ≤ 8 ∨ index = 255) :
          exec (.spdmGetMeasurements index false nonce) s =
            .next (toHost (freeNonce s).2 (.spdm 0x60 (measurementsBody s index))) :=
        execSpdmGetMeasurements_of_known on algorithms known (fun unsigned => nomatch unsigned)
      refine ⟨execSpdmGetDigests_of_algorithms on algorithms, execSpdmGetCertificate_of_algorithms on algorithms,
        fun nonce => execSpdmChallenge_of_nonce on algorithms, fun x long n => execSpdmKeyExchange_of_exchange on algorithms long,
        fun nonce => ?_, fun nonce => ?_, ?_⟩
      · rw [measures nonce (.inl (Nat.zero_le 8)), measurementsBody_zero]
      · rw [measures nonce (.inr rfl), measurementsBody_all]
      · rintro nonce index least most _ rfl
        rw [measures nonce (.inl most), measurementsBody_one s least most]
        refine ⟨rfl, fun long => ?_⟩
        rw [exec_spdmGetMeasurements, execSpdmGetMeasurements_of_known on algorithms (.inl most) (fun _ => long),
          measurementsBody_one s least most, if_pos rfl]
  case outOfOrder =>
    rintro s on _ rfl
    exact ⟨fun unready => congrArg _ (spdm_of_unready on _ unready), fun unready => congrArg _ (spdm_of_unready on _ unready),
      fun unready slot nonce i b x => exec_of_no_algorithms on unready slot i nonce x b,
      fun unready v => congrArg _ (spdm_of_unready on _ unready), exec_of_no_session on⟩
  case keys =>
    intro s stream dir set key session streams dirs sets
    have named := keyNamed_of_lt streams dirs sets
    exact ⟨execIdeKeyProg_of_session session named, execKeySetGo_of_programmed session named, execKeySetStop_of_session session named⟩

end Sys2Proof.Machine
end

section
/-! PROOF. Memory requests of the host, call backs, decoders and violations (R499, R502 to R506, R508, R509, R511, R526, Tables 15.1 and
15.14). -/

namespace Sys2Proof.Machine

/-! ### Reads of a mapped line -/

theorem not_calledBack_of_free {s : State} {key : Nat} (free : ∀ e ∈ s.host.biPending, e.dpa ≠ key) :
    (s.host.biPending.any (·.dpa = key)) = false := by simpa using free

section
variable {s : State} {key : Nat} (hpa d : Nat) (ex : Bool) (line : key = d / 64 * 64) (free : ∀ e ∈ s.host.biPending, e.dpa ≠ key)
include line free

theorem hostRead_of_held (held : (hostHolds s key).isSome = true) :
    hostRead s hpa d ex = serveRead (snoopEnter s key ex) (.host hpa) (addrOfDpa d / 64) 0 := by
  simp only [hostRead, ← line, not_calledBack_of_free free, held, Bool.false_eq_true, if_false, if_true]

theorem hostRead_of_room (room : (s.host.snoop.filter fun e => snoopSet e.1 = snoopSet key).length < 16) :
    hostRead s hpa d ex = serveRead (snoopEnter s key ex) (.host hpa) (addrOfDpa d / 64) 0 := by
  by_cases held : (hostHolds s key).isSome = true
  · exact hostRead_of_held hpa d ex line free held
  · simp only [hostRead, ← line, not_calledBack_of_free free, held, Bool.false_eq_true, if_false, Nat.not_le.mpr room]
    split <;> rfl

theorem hostRead_of_full {old : Nat × Bool} {rest : List (Nat × Bool)} (foreign : hostHolds s key = none)
    (mine : (s.host.snoop.filter fun e => snoopSet e.1 = snoopSet key) = old :: rest) (full : 15 ≤ rest.length) :
    hostRead s hpa d ex = backInvalidate s old.1 (.hostRead hpa ex) := by
  simp only [hostRead, ← line, not_calledBack_of_free free, foreign, mine, Option.isSome_none, Bool.false_eq_true, if_false,
    List.head?_cons, List.length_cons]
  exact if_pos (by omega)

end

/-! ### Requests and the decoders -/

section
variable {s : State} {hpa : Nat}

section
variable {d : Nat} (ready : s.ctl.mediaReady = true) (mapped : decodeHpa s hpa = some d)
include ready mapped

theorem servedDpa_of_mapped : servedDpa s hpa = some d := by rw [servedDpa, if_pos ready, mapped]

theorem writtenDpa_of_mapped : writtenDpa s hpa = some d := by rw [writtenDpa, servedDpa_of_mapped ready mapped]

end

theorem servedDpa_of_unmapped (unmapped : s.ctl.mediaReady = false ∨ decodeHpa s hpa = none) : servedDpa s hpa = none := by
  unfold servedDpa
  split
  next ready => exact unmapped.resolve_left (by rw [ready]; exact Bool.noConfusion)
  next => rfl

/-- A write that no committed decoder maps goes on only where a line under a decoder that has left is called back. -/
theorem writtenDpa_of_unmapped (unmapped : s.ctl.mediaReady = false ∨ decodeHpa s hpa = none)
    (gone : ∀ w ∈ s.host.leaving, w.hpaBase ≤ hpa → hpa < w.hpaBase + w.size →
      ∀ b ∈ s.host.biPending, b.dpa ≠ hdmDpa w hpa / 64 * 64) : writtenDpa s hpa = none := by
  rw [writtenDpa, servedDpa_of_unmapped unmapped]
  simp only [List.find?_eq_none, List.mem_map, List.mem_filter, Bool.and_eq_true, decide_eq_true_eq, List.any_eq_true, not_exists,
    not_and]
  rintro _ ⟨w, ⟨left, least, most⟩, rfl⟩ b pending
  exact gone w left least most b pending

section
variable (secure : ideOpen s 1 = true)
include secure

theorem execMemRd_of_mapped {d : Nat} (ex : Bool) (served : servedDpa s hpa = some d) :
    execMemRd hpa ex s = .next (hostRead s hpa d ex) := by
  rw [execMemRd, if_neg (by simp [secure]), served]

theorem execMemRd_of_unmapped (ex : Bool) (unserved : servedDpa s hpa = none) :
    execMemRd hpa ex s = .next (poisonedReply (partnerSeen s 5) hpa) := by
  rw [execMemRd, if_neg (by simp [secure]), unserved]

section
variable (data : Line) (mask : BitVec 64) (p : Bool)

theorem execMemWr_of_mapped {d : Nat} (written : writtenDpa s hpa = some d) : execMemWr hpa data mask p s =
    .next (answerSender (outsideWrite s
      { line := addrOfDpa d / 64, data := data, mask := mask, poison := if p then 0xFFFF else 0, sender := .host hpa })
      (.host hpa)) := by
  rw [execMemWr, if_neg (by simp [secure]), written]
  rfl

theorem execMemWr_of_unmapped (unwritten : writtenDpa s hpa = none) :
    execMemWr hpa data mask p s = .next (toHost (partnerSeen s 5) (.cmp hpa)) := by
  rw [execMemWr, if_neg (by simp [secure]), unwritten]

end

end

end

/-! ### Call backs -/

section
variable {s : State} {dpa : Nat}

/-- Whether the call back of a line waits for its answer. -/
def callsBack (s : State) (dpa : Nat) : Bool := s.host.biPending.any fun e => e.dpa = dpa && !e.answered

theorem callsBack_of_outstanding (outstanding : ∃ e ∈ s.host.biPending, e.dpa = dpa ∧ e.answered = false) :
    callsBack s dpa = true := by simpa [callsBack] using outstanding

theorem callsBack_of_answered (answered : ∀ e ∈ s.host.biPending, e.dpa = dpa → e.answered = true) : ¬callsBack s dpa = true := by
  simpa [callsBack] using answered

section
variable (secure : ideOpen s 1 = true)
include secure

theorem execBirspi_of_secure : execBirspi dpa s = if callsBack s dpa then .next (answerBi s dpa) else .next (partnerSeen s 6) :=
  if_neg (by simp [secure])

theorem execBirspi_of_outstanding (outstanding : ∃ e ∈ s.host.biPending, e.dpa = dpa ∧ e.answered = false) :
    execBirspi dpa s = .next (answerBi s dpa) := by
  rw [execBirspi_of_secure secure, if_pos (callsBack_of_outstanding outstanding)]

theorem execBirspi_of_answered (answered : ∀ e ∈ s.host.biPending, e.dpa = dpa → e.answered = true) :
    execBirspi dpa s = .next (partnerSeen s 6) := by
  rw [execBirspi_of_secure secure, if_neg (callsBack_of_answered answered)]

end

theorem execBisnpinvTimeout_of_outstanding {t : State} (outstanding : ∃ e ∈ s.host.biPending, e.dpa = dpa ∧ e.answered = false)
    (passed : t = expire s (.biSnoop dpa) (10 * countsMs)) : execBisnpinvTimeout dpa s =
      .next (completeBi (logGen (partnerSeen t 7) evHstBiTimeout uCxl none [] [w64 dpa]) dpa) := by
  rw [passed]
  exact if_pos (callsBack_of_outstanding outstanding)

theorem execBisnpinvTimeout_of_answered (answered : ∀ e ∈ s.host.biPending, e.dpa = dpa → e.answered = true) :
    execBisnpinvTimeout dpa s = .next s := if_neg (callsBack_of_answered answered)

end

/-! ### Decoders -/

section
variable {s s1 : State} {n : Fin 4} {base size dpa ways gran : Nat} {d : HdmDecoder} (left : s1 = decommit s n.val)
  (decoder : d =
    { committed := true, errNotCommitted := false, hpaBase := base, size := size, dpaBase := dpa, ways := ways, granularity := gran })
include left decoder

theorem execHdmDecoderCommit_of_allowed (allowed : commitAllowed s1 n.val base size dpa ways gran = true) :
    execHdmDecoderCommit n base size dpa ways gran s =
      .next { s1 with host := { s1.host with decoders := sput HdmDecoder.off s1.host.decoders n.val d } } := by
  simp only [execHdmDecoderCommit, ← left, allowed, decoder, if_true, Bool.not_true, modHost]

theorem execHdmDecoderCommit_of_refused (refused : commitAllowed s1 n.val base size dpa ways gran = false) :
    execHdmDecoderCommit n base size dpa ways gran s =
      .next (logGen { s1 with host := { s1.host with
          decoders := sput HdmDecoder.off s1.host.decoders n.val { d with committed := false, errNotCommitted := true } } }
        evHstHdmCommitRefused uCxl none [w32 n.val] []) := by
  simp only [execHdmDecoderCommit, ← left, refused, decoder, Bool.false_eq_true, if_false, Bool.not_false, modHost]

end

/-! ### Violations -/

section
variable {s : State} {k : Fin 11} {hd : List Byte}

theorem execPartnerViolation_of_kind {n : Nat} (kind : k.val = n) (some_kind : n ≠ 0) :
    execPartnerViolation k hd s = .next (answerViolation (recordViolation s n hd) n) := by
  subst kind
  exact if_neg some_kind

/-- A failed integrity check makes the stream insecure that a free bit names. -/
theorem answerViolation_integrity (s : State) : ∃ stream < 2, answerViolation s 10 =
    modHost (takeFree s).2 fun h => { h with ideInsecure := h.ideInsecure ||| BitVec.ofNat 2 (2 ^ stream) } :=
  ⟨(takeFree s).1.toNat % 2, Nat.mod_lt _ (by decide), rfl⟩

theorem answerViolation_of_other (s : State) {n : Nat} (least : 5 ≤ n) (other : n ≠ 10) : answerViolation s n = s := by
  unfold answerViolation
  split
  case h_6 => rfl
  all_goals omega

end

/-! ### Accesses of BAR0 -/

section
variable {s : State} {off size : Nat} (secure : ideOpen s 0 = true)
include secure

theorem execBar0AccessInvalid_of_invalid (not4 : ¬(size = 4 ∧ off % 4 = 0)) (not8 : ¬(size = 8 ∧ off % 8 = 0)) :
    execBar0AccessInvalid off size s = .next (toHost (partnerSeen s 3) (.completerAbort off)) := by
  rw [execBar0AccessInvalid, if_neg (by simp [secure]), if_neg (by simpa using ⟨not_and.mp not4, not_and.mp not8⟩)]

theorem execBar0AccessInvalid_of_valid (valid : (size = 4 ∧ off % 4 = 0) ∨ (size = 8 ∧ off % 8 = 0)) :
    execBar0AccessInvalid off size s = .next s := by
  rw [execBar0AccessInvalid, if_neg (by simp [secure]), if_pos (by simpa using valid)]

end

/-! ### The commands -/

section
variable (s : State)

theorem exec_partnerViolation (k : Fin 11) (hd : List Byte) : exec (.partnerViolation k hd) s = execPartnerViolation k hd s := rfl
theorem exec_partnerViolationSecondTick : exec .partnerViolationSecondTick s = .next (s.host.partnerSec.foldl
    (fun s e => logGen s evHstPartnerViolation uCxl none [w32 e.1, w32 e.2] [])
    { s with host := { s.host with
      partnerSec := [], partnerLastSec := min 0xFFFF ((s.host.partnerSec.map (·.2)).sum) } }) := rfl
theorem exec_globalPersistentFlush (phase : Nat) : exec (.globalPersistentFlush phase) s =
    .next { s with host := { s.host with out := s.host.out ++ [.gpfAck phase] } } := rfl

end

/-- What comes over an insecure stream is not taken: every command asks for its stream first. -/
theorem exec_of_insecure (s : State) (hpa dpa off size : Nat) (ex p : Bool) (data : Line) (mask : BitVec 64) :
    (ideOpen s 1 = false → exec (.memRd hpa ex) s = .next s ∧ exec (.memWr hpa data mask p) s = .next s ∧
      exec (.birspi dpa) s = .next s) ∧
    (ideOpen s 0 = false → exec (.bar0AccessInvalid off size) s = .next s) :=
  ⟨fun insecure => ⟨if_pos (by rw [insecure]; rfl), if_pos (by rw [insecure]; rfl), if_pos (by rw [insecure]; rfl)⟩,
    fun insecure => if_pos (by rw [insecure]; rfl)⟩

/-- Settles O51: each clause is one request, call back, decoder or violation above in one of its cases. -/
theorem hostMemory : Obligations.HostMemory := by
  unfold Obligations.HostMemory
  refine ⟨?mapped, ?read, ?unmapped, ?callBacks, exec_of_insecure, ?decoders, ?violations,
    fun s off size secure => ⟨execBar0AccessInvalid_of_invalid secure, execBar0AccessInvalid_of_valid secure⟩,
    exec_partnerViolationSecondTick, exec_globalPersistentFlush⟩
  case mapped =>
    intro s hpa d ex data mask p secure ready mapped
    exact ⟨execMemRd_of_mapped secure ex (servedDpa_of_mapped ready mapped),
      execMemWr_of_mapped secure data mask p (writtenDpa_of_mapped ready mapped)⟩
  case read =>
    refine fun s hpa d key ex line free => ⟨fun served => ?_, fun old rest => hostRead_of_full hpa d ex line free⟩
    rcases served with held | room
    · exact hostRead_of_held hpa d ex line free held
    · exact hostRead_of_room hpa d ex line free room
  case unmapped =>
    intro s hpa ex data mask p secure unmapped
    exact ⟨fun gone => execMemWr_of_unmapped secure data mask p (writtenDpa_of_unmapped unmapped gone),
      execMemRd_of_unmapped secure ex (servedDpa_of_unmapped unmapped)⟩
  case callBacks =>
    refine fun s dpa => ⟨fun outstanding => ⟨fun secure => execBirspi_of_outstanding secure outstanding,
      fun t => execBisnpinvTimeout_of_outstanding outstanding⟩, fun answered => ⟨fun secure => execBirspi_of_answered secure answered,
      execBisnpinvTimeout_of_answered answered⟩⟩
  case decoders =>
    exact fun s s1 n base size dpa ways gran d left decoder =>
      ⟨execHdmDecoderCommit_of_allowed left decoder, execHdmDecoderCommit_of_refused left decoder⟩
  case violations =>
    intro s k hd
    rw [exec_partnerViolation]
    refine ⟨fun two => execPartnerViolation_of_kind two (by decide), fun three => execPartnerViolation_of_kind three (by decide), ?_,
      fun ten => ?_, fun least other => ?_⟩
    · rintro (one | four)
      · rw [one]; exact execPartnerViolation_of_kind one (by decide)
      · rw [four]; exact execPartnerViolation_of_kind four (by decide)
    · obtain ⟨stream, two, insecure⟩ := answerViolation_integrity (recordViolation s 10 hd)
      exact ⟨stream, two, by rw [execPartnerViolation_of_kind ten (by decide), insecure]⟩
    · rw [execPartnerViolation_of_kind rfl (by omega), answerViolation_of_other _ least other]

end Sys2Proof.Machine
end

section
/-! PROOF. The standard mailbox commands that only read (R501, R520, R523, R525, R527, R545, R549, R563, R564, Tables 15.9 and 15.11). -/

namespace Sys2Proof.Machine

/-! ### Standard commands on an interface -/

theorem standard_of_heard {s : State} {cci : Nat} (heard : hears s cci = true) (act : State → State) : standard s cci act = act s :=
  if_pos heard

theorem standard_of_deaf {s : State} {cci : Nat} (deaf : hears s cci = false) (act : State → State) : standard s cci act = s :=
  if_neg (by rw [deaf]; exact Bool.noConfusion)

section
variable {s : State} {cci : Nat} (heard : hears s cci = true) (op : Nat) (act : State → State)
include heard

theorem poisonCommand_of_serving (serves : s.ctl.idState ≠ .misdeal) : poisonCommand s cci op act = act s :=
  (standard_of_heard heard _).trans (if_neg (by simpa only [inMisdeal, decide_eq_true_eq] using serves))

theorem poisonCommand_of_misdeal (misdeal : s.ctl.idState = .misdeal) :
    poisonCommand s cci op act = answered s cci op .unsupported 0 [] :=
  (standard_of_heard heard _).trans (if_pos (by simpa only [inMisdeal, decide_eq_true_eq] using misdeal))

end

theorem length_padTo (n : Nat) (bs : List Byte) : (padTo n bs).length = n := by
  rw [padTo, List.length_take, List.length_append, List.length_replicate]
  omega

/-! ### Firmware and health -/

/-- The name of a firmware slot's image is its version, 16 bytes long. -/
def fwName (s : State) (k : Nat) : List Byte :=
  padTo 16 (((fwSlot s k).map fun f => leBytes 1 f.patch ++ leBytes 1 f.minor ++ leBytes 1 f.major).getD [])

/-- What GET_FW_INFO answers: two slots, the running one and the one that waits, online activation only, and the slots' names. -/
def fwInfo (s : State) : List Byte :=
  leBytes 1 2 ++ leBytes 1 (1 + s.ctl.bootSlot + 8 * (if s.ctl.fwPhase = .none then 0 else 2 - s.ctl.bootSlot)) ++ leBytes 1 1 ++
    List.replicate 13 0 ++ fwName s 0 ++ fwName s 1

theorem take_fwInfo (s : State) : (fwInfo s).take 3 =
    [2, BitVec.ofNat 8 (1 + s.ctl.bootSlot + 8 * (if s.ctl.fwPhase = .none then 0 else 2 - s.ctl.bootSlot)), 1] := rfl

theorem length_fwInfo (s : State) : (fwInfo s).length = 48 := by
  simp only [fwInfo, fwName, List.length_append, length_leBytes, length_padTo, List.length_replicate]

/-- What GET_HEALTH_INFO answers: throttling and misdeal, the media's state, and the highest reading in whole degrees. -/
def healthInfo (s : State) : List Byte :=
  leBytes 1 ((if s.power.depthDie + s.power.depthNb0 + s.power.depthNb1 = 0 then 0 else 2) + (if inMisdeal s then 4 else 0)) ++
    leBytes 1 (if s.ctl.mediaReady then 0 else 1) ++ leBytes 1 0 ++ leBytes 1 0 ++
    leBytes 2 ((hottest s / 4) % 65536).toNat ++ Config.standardBytes 0x4200

theorem healthInfo_media (s : State) : (healthInfo s)[1]? = some (if s.ctl.mediaReady then 0 else 1) := by
  show some (BitVec.ofNat 8 (if s.ctl.mediaReady then 0 else 1)) = _
  rw [apply_ite (BitVec.ofNat 8)]
  rfl

theorem healthInfo_temperature (s : State) : ((healthInfo s).drop 4).take 2 = leBytes 2 ((hottest s / 4) % 65536).toNat := rfl

/-! ### What the commands answer -/

section
variable {s : State} {c : Fin 2} (heard : hears s c.val = true)
include heard

theorem exec_identify_of_heard : exec (.identify c) s = .next (answered s c.val 0x0001 .success 0
    (leBytes 2 Config.vendorId.toNat ++ leBytes 2 0xA128 ++ Config.standardBytes 0x0001)) :=
  congrArg _ (standard_of_heard heard _)

theorem exec_backgroundOperationStatus_of_none (idle : s.background = none) : exec (.backgroundOperationStatus c) s =
    .next (answered s c.val 0x0002 .success 0 (List.replicate 8 0)) := by
  refine congrArg _ ((standard_of_heard heard _).trans ?_)
  simp only [idle, Option.filter_none, Option.map_none, Option.getD_none, reply, answered]

theorem exec_backgroundOperationStatus_of_running {b : Background} (command : s.background = some b) (runs : b.running = true) :
    exec (.backgroundOperationStatus c) s = .next (answered s c.val 0x0002 .success 0
      (leBytes 1 (1 + 2 * b.percent) ++ leBytes 1 0 ++ leBytes 2 b.opcode ++ leBytes 2 0 ++ leBytes 2 b.code.toNat ++ b.out)) := by
  refine congrArg _ ((standard_of_heard heard _).trans ?_)
  simp only [command, runs, Option.filter_some, Bool.or_true, Bool.not_true, Bool.and_false, Bool.false_eq_true, if_true, if_false,
    Option.map_none, Option.getD_none, reply, answered]

theorem exec_getEventRecords_of_heard (n : Fin 4) {l : EventLog} (log : l = getLogNo s n.val) : exec (.getEventRecords c n) s =
    .next (answered s c.val 0x0100 .success 0
      (leBytes 1 ((if l.overflow then 1 else 0) + (if 31 < l.records.length then 2 else 0)) ++ leBytes 1 0 ++
        leBytes 2 l.overflowCount ++ List.replicate 16 0 ++ leBytes 2 (min 31 l.records.length) ++ List.replicate 10 0 ++
        ((List.range (min 31 l.records.length)).zip (l.records.take 31)).flatMap
          fun e => recordBytes n.val ((l.cleared + e.1) % 65535 + 1) e.2)) := by
  refine congrArg _ ((standard_of_heard heard _).trans ?_)
  simp only [← log, List.length_take, handleAt, replyOk_eq_answered]

theorem exec_getEventInterruptPolicy_of_heard : exec (.getEventInterruptPolicy c) s =
    .next (answered s c.val 0x0102 .success 0 ((s.host.policy ++ List.replicate 4 0).take 4)) :=
  congrArg _ (standard_of_heard heard _)

theorem exec_getFwInfo_of_heard : exec (.getFwInfo c) s = .next (answered s c.val 0x0200 .success 0 (fwInfo s)) :=
  congrArg _ (standard_of_heard heard _)

theorem exec_getSupportedLogs_of_heard : exec (.getSupportedLogs c) s = .next (answered s c.val 0x0400 .success 0
    (leBytes 2 2 ++ List.replicate 6 0 ++ Config.standardBytes 0x0400)) :=
  congrArg _ (standard_of_heard heard _)

theorem exec_getLog_of_heard (v : Bool) : exec (.getLog c v) s =
    .next (answered s c.val 0x0401 .success 0 (Config.standardBytes (if v then 0x10401 else 0x0401))) :=
  congrArg _ (standard_of_heard heard _)

theorem exec_identifyMemoryDevice_of_heard {cap : Nat} (capacity : cap = if s.ctl.idState = .misdeal then 0 else 1152) :
    exec (.identifyMemoryDevice c) s = .next (answered s c.val 0x4000 .success 0
      (padTo 16 (Config.standardBytes 0x4000) ++ leBytes 8 cap ++ leBytes 8 cap ++ leBytes 8 0 ++ leBytes 8 0 ++
        leBytes 2 1024 ++ leBytes 2 1024 ++ leBytes 2 1024 ++ leBytes 2 1024 ++ leBytes 4 0 ++ leBytes 3 256 ++ leBytes 2 0)) := by
  refine congrArg _ ((standard_of_heard heard _).trans ?_)
  simp only [inMisdeal, decide_eq_true_eq, ← capacity, replyOk_eq_answered]

theorem exec_getHealthInfo_of_heard : exec (.getHealthInfo c) s = .next (answered s c.val 0x4200 .success 0 (healthInfo s)) :=
  congrArg _ (standard_of_heard heard _)

theorem exec_getPoisonList_of_heard (serves : s.ctl.idState ≠ .misdeal) : exec (.getPoisonList c) s =
    .next (answered s c.val 0x4300 .success 0
      (leBytes 1 (if 256 < (poisonList s).length then 2 else 0) ++ leBytes 1 0 ++ leBytes 8 0 ++
        leBytes 2 (min 256 (poisonList s).length) ++ List.replicate 20 0 ++
        ((poisonList s).take 256).flatMap fun d => leBytes 8 d ++ leBytes 4 1 ++ leBytes 4 0)) :=
  congrArg _ (poisonCommand_of_serving heard _ _ serves)

theorem exec_mailboxUnsupported_of_heard (op : Nat) :
    exec (.mailboxUnsupported c op) s = .next (answered s c.val op .unsupported 0 []) :=
  congrArg _ (standard_of_heard heard _)

end

/-- Every reading command asks first whether its interface hears. -/
theorem exec_reading_of_deaf {s : State} {c : Fin 2} (deaf : hears s c.val = false) {i : Instr}
    (reads : i ∈ ([.identify c, .backgroundOperationStatus c, .getEventInterruptPolicy c, .getFwInfo c, .getSupportedLogs c,
      .identifyMemoryDevice c, .getHealthInfo c, .getPoisonList c] : List Instr)) : exec i s = .next s := by
  simp only [List.mem_cons, List.not_mem_nil, or_false] at reads
  rcases reads with rfl | rfl | rfl | rfl | rfl | rfl | rfl | rfl <;> exact congrArg _ (standard_of_deaf deaf _)

/-- Settles O52: each clause is one command above. -/
theorem mailboxReads : Obligations.MailboxReads := by
  unfold Obligations.MailboxReads
  refine ⟨?_, fun s c deaf i reads => exec_reading_of_deaf deaf reads⟩
  rintro s c _ heard rfl
  exact ⟨exec_identify_of_heard heard, exec_backgroundOperationStatus_of_none heard,
    fun b => exec_backgroundOperationStatus_of_running heard, fun n => ⟨_, exec_getEventRecords_of_heard heard n rfl, rfl⟩,
    exec_getEventInterruptPolicy_of_heard heard, ⟨_, exec_getFwInfo_of_heard heard, take_fwInfo s, length_fwInfo s⟩,
    exec_getSupportedLogs_of_heard heard, exec_getLog_of_heard heard, fun cap => exec_identifyMemoryDevice_of_heard heard,
    ⟨_, exec_getHealthInfo_of_heard heard, healthInfo_media s, healthInfo_temperature s⟩, exec_getPoisonList_of_heard heard,
    exec_mailboxUnsupported_of_heard heard⟩

end Sys2Proof.Machine
end

section
/-! PROOF. The standard mailbox commands that act (R521, R522, R524, R525, R549, R564, R565, R585, R596, R597, Table 17.5): aborts, event
logs, firmware, maintenance and poison. -/

namespace Sys2Proof.Machine

/-! ### Aborts of the background operation -/

section
variable {s : State} {c : Fin 2} {b : Background} (heard : hears s c.val = true) (command : s.background = some b)
include heard command

theorem exec_requestAbort_of_stopped {t : State} (runs : b.running = true) (stopped : abortBackground s b.opcode = some t) :
    exec (.requestAbortBackgroundOperation c) s = .next (answered t c.val 0x0005 .success 0 []) := by
  refine congrArg _ ((standard_of_heard heard _).trans ?_)
  simp only [command, Option.filter_some, runs, if_true, stopped, replyOk_eq_answered]

theorem exec_requestAbort_of_unstoppable (runs : b.running = true) (unstoppable : abortBackground s b.opcode = none) :
    exec (.requestAbortBackgroundOperation c) s = .next (answered s c.val 0x0005 .unsupported 0 []) := by
  refine congrArg _ ((standard_of_heard heard _).trans ?_)
  simp only [command, Option.filter_some, runs, if_true, unstoppable, reply, answered]

theorem exec_requestAbort_of_ended (ended : b.running = false) :
    exec (.requestAbortBackgroundOperation c) s = .next (answered s c.val 0x0005 .invalidInput 0 []) := by
  refine congrArg _ ((standard_of_heard heard _).trans ?_)
  simp only [command, Option.filter_some, ended, Bool.false_eq_true, if_false, reply, answered]

end

/-! ### Event logs -/

theorem clearFirst_all (l : EventLog) : clearFirst l l.records.length =
    { cleared := l.cleared + l.records.length, records := [], overflow := false, overflowCount := 0 } := by
  simp only [clearFirst, Nat.min_self, List.drop_length, List.isEmpty_nil, Bool.not_true, Bool.and_false, if_true]

/-- A log that keeps a record keeps its overflow. -/
theorem clearFirst_of_left (l : EventLog) {k : Nat} (within : k ≤ l.records.length) (left : (l.records.drop k).length ≠ 0) :
    clearFirst l k =
      { cleared := l.cleared + k, records := l.records.drop k, overflow := l.overflow, overflowCount := l.overflowCount } := by
  have kept : (l.records.drop k).isEmpty = false := by simpa only [List.isEmpty_eq_false_iff, ne_eq, List.length_eq_zero_iff] using left
  simp only [clearFirst, Nat.min_eq_left within, kept, Bool.not_false, Bool.and_true, Bool.false_eq_true, if_false]

section
variable {s : State} {c : Fin 2} (heard : hears s c.val = true) (n : Fin 4) {l : EventLog} (log : l = getLogNo s n.val)
include heard log

theorem exec_clearEventRecords_of_all (hs : List W32) : exec (.clearEventRecords c n true hs) s =
    .next (answered { s with logs := sput emptyLog s.logs n.val (clearFirst l l.records.length) } c.val 0x0101 .success 0 []) := by
  refine congrArg _ ((standard_of_heard heard _).trans ?_)
  simp only [← log, Bool.not_true, Bool.false_and, Bool.false_eq_true, if_false, if_true, replyOk_eq_answered]

/-- Handles name the oldest records of a log where they are no more than its records and each is the handle at its place. -/
theorem exec_clearEventRecords_of_named {hs : List W32} (within : hs.length ≤ l.records.length)
    (named : hs = (List.range hs.length).map fun i => w32 ((l.cleared + i) % 65535 + 1)) :
    exec (.clearEventRecords c n false hs) s =
      .next (answered { s with logs := sput emptyLog s.logs n.val (clearFirst l hs.length) } c.val 0x0101 .success 0 []) := by
  refine congrArg _ ((standard_of_heard heard _).trans ?_)
  simp only [← log, handleAt, ← named, Bool.false_eq_true, if_false]
  exact if_neg (by simpa using within)

theorem exec_clearEventRecords_of_other {hs : List W32} (other : l.records.length < hs.length ∨
    hs ≠ (List.range hs.length).map fun i => w32 ((l.cleared + i) % 65535 + 1)) :
    exec (.clearEventRecords c n false hs) s = .next (answered s c.val 0x0101 .invalidHandle 0 []) := by
  refine congrArg _ ((standard_of_heard heard _).trans ?_)
  simp only [← log, handleAt, Bool.false_eq_true, if_false]
  exact if_pos (by simpa only [Bool.not_false, Bool.true_and, Bool.or_eq_true, decide_eq_true_eq] using other)

end

theorem exec_setEventInterruptPolicy_of_four {s : State} {c : Fin 2} (heard : hears s c.val = true) {bs : List Byte}
    (four : 4 ≤ bs.length) : exec (.setEventInterruptPolicy c bs) s =
      .next (answered { s with host := { s.host with policy := bs.take 4 } } c.val 0x0103 .success 0 []) := by
  refine congrArg _ ((standard_of_heard heard _).trans ?_)
  exact if_neg (Nat.not_lt.mpr four)

/-! ### Firmware -/

section
variable {s : State} {c : Fin 2} {slot : Nat} (heard : hears s c.val = true)
include heard

theorem exec_transferFw_of_other_slot (bs : List Byte) (other : slot = 0 ∨ 2 < slot ∨ slot - 1 = s.ctl.bootSlot) :
    exec (.transferFw c slot bs) s = .next (answered s c.val 0x0201 .invalidInput 0 []) := by
  refine congrArg _ ((standard_of_heard heard _).trans ?_)
  exact if_pos (by simpa [or_assoc] using other)

section
variable (least : 1 ≤ slot) (most : slot ≤ 2) (spare : slot - 1 ≠ s.ctl.bootSlot)
include least most spare

section
variable (phase : s.ctl.fwPhase = .none ∨ s.ctl.fwPhase = .transferred) (writable : storeWindow s = true) {bs : List Byte}
include phase writable

/-- Into the slot that does not run, outside an activation and inside the store's window, the checks of the image decide. -/
theorem exec_transferFw_of_checked : exec (.transferFw c slot bs) s = .next (match fwFault s bs with
    | 0 => replyOk (modCtl (setFw s (slot - 1) (some (parseFw bs)) .empty) fun c => { c with fwPhase := .transferred }) c.val 0x0201 []
    | n => reply (logGen s evSecFwRejected uMgmt none [w32 n] []) c.val 0x0201 .authFailed 0 []) := by
  have named : ¬(decide (slot = 0) || decide (2 < slot) || decide (slot - 1 = s.ctl.bootSlot)) = true := by
    simp only [Bool.or_eq_true, decide_eq_true_eq, spare, or_false]
    omega
  have idle : ¬(!(decide (s.ctl.fwPhase = .none) || decide (s.ctl.fwPhase = .transferred))) = true := by
    simpa [← Classical.or_iff_not_imp_left] using phase
  refine congrArg _ ((standard_of_heard heard _).trans ?_)
  refine (if_neg named).trans ((if_neg idle).trans ?_)
  exact if_neg (by simp only [writable, Bool.not_true, Bool.false_eq_true, not_false_eq_true])

theorem exec_transferFw_of_valid (valid : fwFault s bs = 0) : exec (.transferFw c slot bs) s =
    .next (answered (modCtl (setFw s (slot - 1) (some (parseFw bs)) .empty) fun k => { k with fwPhase := .transferred })
      c.val 0x0201 .success 0 []) := by
  rw [exec_transferFw_of_checked heard least most spare phase writable, valid]
  rfl

theorem exec_transferFw_of_fault {n : Nat} (fault : fwFault s bs = n + 1) : exec (.transferFw c slot bs) s =
    .next (answered (logGen s evSecFwRejected uMgmt none [w32 (n + 1)] []) c.val 0x0201 .authFailed 0 []) := by
  rw [exec_transferFw_of_checked heard least most spare phase writable, fault]
  rfl

end

section
variable {f : FwImage} (transferred : s.ctl.fwPhase = .transferred) (image : fwSlot s (slot - 1) = some f)
  (suits : deckOf s = none ∨ f.deckMajor = 1)
include transferred image suits

/-- A transferred image that suits the deck is activated: in misdeal by a restart, else on the standby core. -/
theorem exec_activateFw_of_transferred : exec (.activateFw c true slot) s = .next (
    if s.ctl.idState = .misdeal then answered (restartBoot s (slot - 1)) c.val 0x0202 .success 0 []
    else answered (startDeadline { s with ctl := { s.ctl with fwPhase := .loading, standbyReady := false } } .standbyLoad)
      c.val 0x0202 .success 0 []) := by
  have named : slot ≠ 0 := by omega
  refine congrArg _ ((standard_of_heard heard _).trans ?_)
  have suited : ((deckOf s).isNone || decide (f.deckMajor = 1)) = true := by simpa using suits
  simp only [named, most, spare, transferred, image, suited, Option.any_some, ne_eq, not_false_eq_true, decide_true, Bool.and_self,
    Bool.not_true, Bool.false_eq_true, if_false, inMisdeal, decide_eq_true_eq]
  rfl

end

end

end

/-! ### Maintenance -/

section
variable {s : State} {c : Fin 2} {dpa : Nat} (d : Nat) (heard : hears s c.val = true)
include heard

theorem exec_performMaintenance_of_outside (b : Bool) (outside : inWindow s dpa = false) :
    exec (.performMaintenance c b dpa d) s = .next (answered s c.val 0x0600 .invalidInput 0 []) := by
  refine congrArg _ ((standard_of_heard heard _).trans ?_)
  exact if_pos (by rw [outside]; rfl)

section
variable {p : Place} (inside : inWindow s dpa = true) (place : p = placeOf s (addrOfDpa dpa))
include inside place

theorem exec_performMaintenance_of_soft {t : State} (spared : softSpareHeld s p.stack p.bank p.row (2 ^ p.line) = some t) :
    exec (.performMaintenance c true dpa d) s =
      .next (answered (pendSpare t p.stack p.bank p.row (2 ^ p.line) true) c.val 0x0600 .success 0 []) := by
  refine congrArg _ ((standard_of_heard heard _).trans ?_)
  simp only [inside, ← place, spared, Bool.not_true, Bool.false_eq_true, if_false, if_true, replyOk_eq_answered]

theorem exec_performMaintenance_of_hard {t : State} (asked : t = pendSpare s p.stack p.bank p.row (2 ^ p.line) true)
    (listed : ((getStack t p.stack).pendingSpare.any fun e => e.bank = p.bank && e.row = p.row) = true) :
    exec (.performMaintenance c false dpa d) s = .next (answered t c.val 0x0600 .success 0 []) := by
  refine congrArg _ ((standard_of_heard heard _).trans ?_)
  simp only [inside, ← place, ← asked, listed, Bool.not_true, Bool.false_eq_true, if_false, if_true, reply, answered]

end

end

/-! ### Poison -/

section
variable {s : State} {cci op dpa : Nat} {data : Option Line} (heard : hears s cci = true)
include heard

section
variable (serves : s.ctl.idState ≠ .misdeal)
include serves

theorem poisonLine_of_refused (refused : dpa % 64 ≠ 0 ∨ inWindow s dpa = false) :
    poisonLine s cci op dpa data = answered s cci op .invalidInput 0 [] :=
  (poisonCommand_of_serving heard _ _ serves).trans (if_pos (by simpa using refused))

section
variable (aligned : dpa % 64 = 0) (inside : inWindow s dpa = true)
include aligned inside

/-- A poison command on a line of a window is answered, and calls the line back where the host holds it. -/
theorem poisonLine_of_inside : poisonLine s cci op dpa data =
    if (hostHolds s dpa).isSome || s.host.biPending.any (·.dpa = dpa) then
      backInvalidate (answered s cci op .success 0 []) dpa (.poison dpa data)
    else runWaiter (answered s cci op .success 0 []) (.poison dpa data) := by
  have line : dpa / 64 * 64 = dpa := Nat.div_mul_cancel (Nat.dvd_of_mod_eq_zero aligned)
  refine (poisonCommand_of_serving heard _ _ serves).trans ?_
  simp only [aligned, inside, line, replyOk_eq_answered, ne_eq, not_true_eq_false, decide_false, Bool.not_true, Bool.or_self,
    Bool.false_eq_true, if_false]
  rfl

theorem poisonLine_of_free (foreign : hostHolds s dpa = none) (free : ∀ e ∈ s.host.biPending, e.dpa ≠ dpa) :
    poisonLine s cci op dpa data = runWaiter (answered s cci op .success 0 []) (.poison dpa data) := by
  rw [poisonLine_of_inside heard serves aligned inside, foreign, not_calledBack_of_free free]
  rfl

theorem poisonLine_of_held (held : (hostHolds s dpa).isSome = true) :
    poisonLine s cci op dpa data = backInvalidate (answered s cci op .success 0 []) dpa (.poison dpa data) := by
  rw [poisonLine_of_inside heard serves aligned inside, held]
  rfl

end

end

theorem poisonLine_of_misdeal (misdeal : s.ctl.idState = .misdeal) :
    poisonLine s cci op dpa data = answered s cci op .unsupported 0 [] := poisonCommand_of_misdeal heard _ _ misdeal

end

theorem exec_injectPoison (c : Fin 2) (dpa : Nat) (s : State) :
    exec (.injectPoison c dpa) s = .next (poisonLine s c.val 0x4301 dpa none) := rfl

theorem exec_clearPoison (c : Fin 2) (dpa : Nat) (data : Line) (s : State) :
    exec (.clearPoison c dpa data) s = .next (poisonLine s c.val 0x4302 dpa (some data)) := rfl

/-- Settles O53: each clause is one command above in one of its cases. -/
theorem mailboxActions : Obligations.MailboxActions := by
  unfold Obligations.MailboxActions
  rintro s c _ heard rfl
  refine ⟨?aborts, ?logs, fun bs => exec_setEventInterruptPolicy_of_four heard, ?transfer, ?activate,
    fun dpa d p inside place t => exec_performMaintenance_of_soft d heard inside place,
    fun dpa d p t inside place => exec_performMaintenance_of_hard d heard inside place,
    fun dpa d b => exec_performMaintenance_of_outside d heard b, ?poison, ?misdeal⟩
  case aborts =>
    exact fun b command => ⟨fun runs t => exec_requestAbort_of_stopped heard command runs,
      exec_requestAbort_of_unstoppable heard command, exec_requestAbort_of_ended heard command⟩
  case logs =>
    rintro n hs l _ log rfl
    rw [exec_clearEventRecords_of_all heard n log hs, clearFirst_all]
    refine ⟨rfl, fun k within left named => ?_, exec_clearEventRecords_of_other heard n log⟩
    have count : hs.length = k := by rw [named, List.length_map, List.length_range]
    subst count
    rw [exec_clearEventRecords_of_named heard n log within named, clearFirst_of_left l within left]
  case transfer =>
    exact fun slot bs => ⟨exec_transferFw_of_other_slot heard bs, fun least most spare phase writable =>
      ⟨exec_transferFw_of_valid heard least most spare phase writable,
        fun n => exec_transferFw_of_fault heard least most spare phase writable⟩⟩
  case activate =>
    intro slot f least most spare transferred image suits
    rw [exec_activateFw_of_transferred heard least most spare transferred image suits]
    exact ⟨fun misdeal => by rw [if_pos misdeal], fun serves => by rw [if_neg serves]⟩
  case poison =>
    intro dpa data serves
    rw [exec_injectPoison, exec_clearPoison]
    refine ⟨?_, fun refused => ?_⟩
    · rintro aligned inside _ _ rfl rfl
      refine ⟨fun foreign free => ?_, fun held => ?_⟩
      · rw [poisonLine_of_free heard serves aligned inside foreign free, poisonLine_of_free heard serves aligned inside foreign free]
        exact ⟨rfl, rfl⟩
      · rw [poisonLine_of_held heard serves aligned inside held, poisonLine_of_held heard serves aligned inside held]
        exact ⟨rfl, rfl⟩
    · rw [poisonLine_of_refused heard serves refused, poisonLine_of_refused heard serves refused]
      exact ⟨rfl, rfl⟩
  case misdeal =>
    intro misdeal dpa data
    rw [exec_injectPoison, exec_clearPoison, poisonLine_of_misdeal heard misdeal, poisonLine_of_misdeal heard misdeal]
    exact ⟨rfl, rfl⟩

end Sys2Proof.Machine
end

section
/-! PROOF. Nonces, owner slots, SVN_MIN and DEBUG, the writing of a fuse, and the repair commands of the vendor mailbox (R550, R561, R591,
R593, R595, R598, R606 to R608, R610, Tables 17.9 and 18.5). -/

namespace Sys2Proof.Machine

/-! ### Nonces and the state of the keys -/

theorem exec_secNonceGet_of_taken {s s1 : State} {c : Fin 2} {n : BitVec 128} (taken : vendorTaken s c.val 0xC020 0 [] false)
    (drawn : n = Config.freeValue (s.freeNext + 1) ++ Config.freeValue s.freeNext)
    (started : s1 = startDeadline { s with freeNext := s.freeNext + 2 } (.nonce c.val)) : exec (.secNonceGet c []) s =
      .next (answered { s1 with sec := { s1.sec with nonces := sput none s1.sec.nonces c.val (some n) } } c.val 0xC020 .success 0
        (leBytes 16 n.toNat)) := by
  subst drawn started
  exact congrArg _ (vendor_of_taken _ taken rfl)

theorem exec_nonceExpiry_of_passed {s t : State} {c : Fin 2} (passed : t = expire s (.nonce c.val) (60 * countsSec)) :
    exec (.nonceExpiry c) s = .next { t with sec := { t.sec with nonces := sput none t.sec.nonces c.val none } } := by
  subst passed
  rfl

theorem exec_secKeyState_of_taken {s : State} {c : Fin 2} (taken : vendorTaken s c.val 0xC021 0 [] false) : exec (.secKeyState c []) s =
    .next (answered s c.val 0xC021 .success 0
      (leBytes 1 (ownerStateByte s) ++ leBytes 1 s.sec.svnMin ++ leBytes 1 s.sec.debug ++ List.replicate 5 0 ++
        (List.range 4).flatMap fun k => digestBytes (sget 0 s.sec.ownerHash k))) :=
  congrArg _ (vendor_of_taken _ taken rfl)

/-! ### Owner slots -/

section
variable {s s1 : State} {c : Fin 2} {inp own : List Byte} {slot : Nat}

section
variable (fields : own = inp.take 56) (named : slot = inByte own 0)
  (taken : signedTaken s s1 c.val 0xC022 56 inp (fun k => if (enrolledSlots s).isEmpty then k = 0xFF else k < 4) true)
  (zero : zeroBytes own 1 7 = true)
include fields named taken zero

theorem exec_secOwnerEnroll_of_taken : exec (.secOwnerEnroll c inp) s = .next (
    if 4 ≤ slot || sget 0 s1.sec.ownerState slot ≠ 0 then refuse s1 c.val 0xC022 0
    else queueFuse s1 c.val 0xC022 (.enroll slot (digestOf (cut own 8 48)))) := by
  subst named fields
  exact congrArg _ (signed_of_taken _ taken zero)

theorem exec_secOwnerEnroll_of_empty (valid : slot < 4) (empty : sget 0 s1.sec.ownerState slot = 0) :
    exec (.secOwnerEnroll c inp) s = .next (queueFuse s1 c.val 0xC022 (.enroll slot (digestOf (cut own 8 48)))) := by
  rw [exec_secOwnerEnroll_of_taken fields named taken zero, if_neg (by simp [valid, empty])]

theorem exec_secOwnerEnroll_of_used (used : 4 ≤ slot ∨ sget 0 s1.sec.ownerState slot ≠ 0) :
    exec (.secOwnerEnroll c inp) s = .next (refuse s1 c.val 0xC022 0) := by
  rw [exec_secOwnerEnroll_of_taken fields named taken zero, if_pos (by simpa using used)]

end

section
variable (fields : own = inp.take 8) (named : slot = inByte own 0)
  (taken : signedTaken s s1 c.val 0xC023 8 inp (fun k => k < 4 && (k ≠ slot || enrolledSlots s = [slot])) true)
  (zero : zeroFrom own 1 = true)
include fields named taken zero

theorem exec_secOwnerRevoke_of_taken : exec (.secOwnerRevoke c inp) s = .next (
    if enrolledSlots s = [slot] then refuseWith s1 c.val 0xC023 evSecLastSlot uMgmt none [w32 slot] []
    else if !enrolled s1 slot then refuse s1 c.val 0xC023 0
    else queueFuse s1 c.val 0xC023 (.revoke slot)) := by
  subst named fields
  refine congrArg _ ((signed_of_taken _ taken zero).trans ?_)
  simp only [decide_eq_true_eq]

theorem exec_secOwnerRevoke_of_last (last : enrolledSlots s = [slot]) : exec (.secOwnerRevoke c inp) s =
    .next (refuseWith s1 c.val 0xC023 evSecLastSlot uMgmt none [w32 slot] []) := by
  rw [exec_secOwnerRevoke_of_taken fields named taken zero, if_pos last]

theorem exec_secOwnerRevoke_of_enrolled (more : enrolledSlots s ≠ [slot]) (used : enrolled s1 slot = true) :
    exec (.secOwnerRevoke c inp) s = .next (queueFuse s1 c.val 0xC023 (.revoke slot)) := by
  rw [exec_secOwnerRevoke_of_taken fields named taken zero, if_neg more, used]
  rfl

end

end

/-! ### SVN_MIN and DEBUG -/

section
variable {s s1 : State} {c : Fin 2} {inp : List Byte}

section
variable {f : FwImage} (taken : signedTaken s s1 c.val 0xC024 0 inp anyOwner true) (running : runningFw s1 = some f)
include taken running

theorem exec_secSvnAdvance_of_taken : exec (.secSvnAdvance c inp) s = .next (
    if (fwSlot s1 (1 - runSlot s1)).any fun g => g.svn < f.svn then
      refuseWith s1 c.val 0xC024 evSecSvnRefused uMgmt none [w32 f.svn] []
    else queueFuse s1 c.val 0xC024 (.svn f.svn)) := by
  refine congrArg _ ((signed_of_taken (who := fun _ => anyOwner) _ taken rfl).trans ?_)
  simp only [running, Option.map_some, Option.getD_some]

theorem exec_secSvnAdvance_of_survivor (survives : ∀ g, fwSlot s1 (1 - runSlot s1) = some g → f.svn ≤ g.svn) :
    exec (.secSvnAdvance c inp) s = .next (queueFuse s1 c.val 0xC024 (.svn f.svn)) := by
  have none_older : ((fwSlot s1 (1 - runSlot s1)).any fun g => g.svn < f.svn) = false := by
    cases other : fwSlot s1 (1 - runSlot s1) with
    | none => rfl
    | some g => exact decide_eq_false (Nat.not_lt.mpr (survives g other))
  rw [exec_secSvnAdvance_of_taken taken running, none_older]
  rfl

theorem exec_secSvnAdvance_of_older {g : FwImage} (other : fwSlot s1 (1 - runSlot s1) = some g) (older : g.svn < f.svn) :
    exec (.secSvnAdvance c inp) s = .next (refuseWith s1 c.val 0xC024 evSecSvnRefused uMgmt none [w32 f.svn] []) := by
  rw [exec_secSvnAdvance_of_taken taken running, if_pos (by simp [other, older])]

end

section
variable {own : List Byte} (fields : own = inp.take 8) (taken : signedTaken s s1 c.val 0xC025 8 inp (fun k => k = 0xFF) false)
  (zero : zeroFrom own 1 = true)
include fields taken zero

theorem exec_secDebugUnlock_of_taken (setting : inByte own 0 < 2) : exec (.secDebugUnlock c inp) s = .next (
    if inByte own 0 = 1 then
      if bgBusy s1 then reply s1 c.val 0xC025 .busy 0 [] else queueFuse s1 c.val 0xC025 .debug
    else replyOk (logGen { s1 with sec := { s1.sec with unlockRecord := true } } evSecDebugUnlocked uMgmt none [w32 0] [])
      c.val 0xC025 []) := by
  subst fields
  exact congrArg _ (signed_of_taken (who := fun _ k => k = 0xFF) _ taken (by simp only [setting, zero, decide_true, Bool.and_self]))

theorem exec_secDebugUnlock_of_permanent (permanent : inByte own 0 = 1) (free : bgBusy s1 = false) :
    exec (.secDebugUnlock c inp) s = .next (queueFuse s1 c.val 0xC025 .debug) := by
  rw [exec_secDebugUnlock_of_taken fields taken zero (by omega), if_pos permanent, free]
  rfl

theorem exec_secDebugUnlock_of_once (once : inByte own 0 = 0) : exec (.secDebugUnlock c inp) s = .next (answered
    (logGen { s1 with sec := { s1.sec with unlockRecord := true } } evSecDebugUnlocked uMgmt none [w32 0] [])
    c.val 0xC025 .success 0 []) := by
  rw [exec_secDebugUnlock_of_taken fields taken zero (by omega), if_neg (by omega), replyOk_eq_answered]

end

end

/-! ### The writing of a fuse -/

theorem fuseWindow_iff (s : State) (d : Nat) : fuseWindow s d = true ↔ (getDiode s d).valid = true ∧ (getDiode s d).failed = false ∧
    40 ≤ (getDiode s d).temp ∧ (getDiode s d).temp ≤ 280 := by
  simp only [fuseWindow, Bool.and_eq_true, Bool.not_eq_eq_eq_not, Bool.not_true, decide_eq_true_eq, and_assoc]

section
variable {s : State} {f : FuseOp} {r : List FuseOp} (queued : s.sec.fuseQueue = f :: r)
include queued

theorem exec_fuseWrite_of_window {s1 : State} (on : s.power.inputOn = true) (open_ : fuseWindow s 0 = true)
    (unqueued : s1 = { s with sec := { s.sec with fuseQueue := r } }) : exec .fuseWrite s = .next (writeFuse s1 f) := by
  show execFuseWrite s = _
  simp only [execFuseWrite, queued, on, open_, Bool.and_self, if_true, unqueued]

theorem exec_fuseWrite_of_closed (closed : fuseWindow s 0 = false) : exec .fuseWrite s = .next s := by
  show execFuseWrite s = _
  simp only [execFuseWrite, queued, closed, Bool.and_false, Bool.false_eq_true, if_false]

end

/-! ### Self-test, repair windows and recovery -/

theorem exec_selftestResult_of_taken {s : State} {c : Fin 2} (taken : vendorTaken s c.val 0xC070 0 [] false) :
    exec (.selftestResult c []) s = .next (answered s c.val 0xC070 .success 0 (selfTestBytes s.ctl.selfTest)) :=
  congrArg _ (vendor_of_taken _ taken rfl)

section
variable {s s1 : State} {c : Fin 2} {inp : List Byte}

section
variable {own : List Byte} (fields : own = inp.take 8)
include fields

section
variable (taken : signedTaken s s1 c.val 0xC071 8 inp anyOwner true) (setting : inByte own 0 < 2) (zero : zeroFrom own 1 = true)
include taken setting zero

theorem exec_retest_of_taken : exec (.retest c inp) s = .next (
    if !(inMisdeal s1 || (deckOf s1).isNone) || s1.ctl.testing then refuseWith s1 c.val 0xC071 evBupRetestRefused uMgmt none [] []
    else beginTest (allOff (startBg s1 c.val 0xC071)) (inByte own 0 = 1)) := by
  subst fields
  show execRetest c inp s = _
  rw [execRetest, signed_of_taken (who := fun _ => anyOwner) _ taken (by simp only [setting, zero, decide_true, Bool.and_self])]

theorem exec_retest_of_idle (idle : s1.ctl.idState = .misdeal ∨ deckOf s1 = none) (rests : s1.ctl.testing = false) :
    exec (.retest c inp) s = .next (beginTest (allOff (startBg s1 c.val 0xC071)) (inByte own 0 = 1)) := by
  have idles : (inMisdeal s1 || (deckOf s1).isNone) = true := by simpa [inMisdeal] using idle
  rw [exec_retest_of_taken fields taken setting zero, if_neg (by rw [idles, rests]; exact Bool.noConfusion)]

theorem exec_retest_of_testing (tests : s1.ctl.testing = true) : exec (.retest c inp) s =
    .next (refuseWith s1 c.val 0xC071 evBupRetestRefused uMgmt none [] []) := by
  rw [exec_retest_of_taken fields taken setting zero, if_pos (by rw [tests, Bool.or_true])]

end

section
variable (taken : signedTaken s s1 c.val 0xC074 8 inp anyOwner true) (zero : zeroFrom own 2 = true)
include taken zero

theorem exec_recover_of_domain {d : ResetDomain} (domain : domainOfKind (inByte own 0) (inByte own 1) = some d) :
    exec (.recover c inp) s = .next (abortAndRecover (startBg s1 c.val 0xC074) d (evBupRecoveryStart.word uCtl)) := by
  subst fields
  refine congrArg _ ((signed_of_taken (who := fun _ => anyOwner) _ taken zero).trans ?_)
  simp only [domain]

theorem exec_recover_of_no_domain (noDomain : domainOfKind (inByte own 0) (inByte own 1) = none) :
    exec (.recover c inp) s = .next (refuse s1 c.val 0xC074 0) := by
  subst fields
  refine congrArg _ ((signed_of_taken (who := fun _ => anyOwner) _ taken zero).trans ?_)
  simp only [noDomain]

end

end

section
variable (taken : signedTaken s s1 c.val 0xC072 0 inp anyOwner true)
include taken

theorem exec_repairWindowOpen_of_no_deck (noDeck : deckOf s1 = none) :
    exec (.repairWindowOpen c inp) s = .next (workWindow (startBg s1 c.val 0xC072)) := by
  have noDeck' : deckOf (startBg s1 c.val 0xC072) = none := noDeck
  show execRepairWindowOpen c inp s = _
  rw [execRepairWindowOpen, signed_of_taken (who := fun _ => anyOwner) _ taken rfl]
  simp only [noDeck']

section
variable {d : Deck} (hd : deckOf s1 = some d)
include hd

theorem exec_repairWindowOpen_of_dealer (dealer : isDealer s1 = true) : exec (.repairWindowOpen c inp) s =
    .next (openWindow (modCtl (startBg s1 c.val 0xC072) fun c => { c with windowAsked := true })) := by
  have hd' : deckOf (startBg s1 c.val 0xC072) = some d := hd
  have dealer' : isDealer (startBg s1 c.val 0xC072) = true := dealer
  show execRepairWindowOpen c inp s = _
  rw [execRepairWindowOpen, signed_of_taken (who := fun _ => anyOwner) _ taken rfl]
  simp only [hd', dealer', if_true]

theorem exec_repairWindowOpen_of_member (member : isDealer s1 = false) : exec (.repairWindowOpen c inp) s =
    .next (sendGroup (startBg s1 c.val 0xC072) (dealerIndex s1 d) (groupParts (startBg s1 c.val 0xC072) d 4 0 [])) := by
  have hd' : deckOf (startBg s1 c.val 0xC072) = some d := hd
  have member' : isDealer (startBg s1 c.val 0xC072) = false := member
  show execRepairWindowOpen c inp s = _
  rw [execRepairWindowOpen, signed_of_taken (who := fun _ => anyOwner) _ taken rfl]
  simp only [hd', member', Bool.false_eq_true, if_false]
  rfl

end

end

theorem exec_repairApply_of_misdeal (taken : signedTaken s s1 c.val 0xC073 0 inp anyOwner true) (misdeal : s1.ctl.idState = .misdeal) :
    exec (.repairApply c inp) s =
      .next (endBackground (windowWork (startBg s1 c.val 0xC073) 0xFFFF (2 ^ 32) false).s 0xC073 .success 0 []) := by
  have accepted : ¬(!inMisdeal s1) = true := by simp [inMisdeal, misdeal]
  show execRepairApply c inp s = _
  rw [execRepairApply, signed_of_taken (who := fun _ => anyOwner) _ taken rfl, if_neg accepted, openPolicy]

end

/-- Settles O56: each clause is one command above in one of its cases. -/
theorem securityAndRepairCommands : Obligations.SecurityAndRepairCommands := by
  unfold Obligations.SecurityAndRepairCommands
  refine ⟨fun s s1 c n => exec_secNonceGet_of_taken, fun s t c => exec_nonceExpiry_of_passed, fun s c => exec_secKeyState_of_taken,
    ?enroll, ?revoke, ?svn, ?debug, ?fuse, fun s c => exec_selftestResult_of_taken, ?retest, ?window,
    fun s s1 c inp => exec_repairApply_of_misdeal, ?recover⟩
  case enroll =>
    exact fun s s1 c inp own slot fields named taken zero => ⟨exec_secOwnerEnroll_of_empty fields named taken zero,
      exec_secOwnerEnroll_of_used fields named taken zero⟩
  case revoke =>
    exact fun s s1 c inp own slot fields named taken zero => ⟨exec_secOwnerRevoke_of_last fields named taken zero,
      exec_secOwnerRevoke_of_enrolled fields named taken zero⟩
  case svn =>
    exact fun s s1 c inp f taken running => ⟨exec_secSvnAdvance_of_survivor taken running,
      fun g => exec_secSvnAdvance_of_older taken running⟩
  case debug =>
    exact fun s s1 c inp own fields taken zero => ⟨exec_secDebugUnlock_of_permanent fields taken zero,
      exec_secDebugUnlock_of_once fields taken zero⟩
  case fuse =>
    intro s s1 f r queued on unqueued
    refine ⟨fun valid works least most => ?_, fun outside => exec_fuseWrite_of_closed queued ?_⟩
    · rw [exec_fuseWrite_of_window queued on ((fuseWindow_iff s 0).mpr ⟨valid, works, least, most⟩) unqueued]
      refine ⟨?_, ?_, ?_, ?_⟩
      · rintro slot h rfl; rfl
      · rintro slot rfl; rfl
      · rintro n rfl; rfl
      · rintro rfl; rfl
    · rw [Bool.eq_false_iff, ne_eq, fuseWindow_iff]
      rintro ⟨valid, works, least, most⟩
      rcases outside with invalid | failed | cold | hot
      · exact Bool.noConfusion (valid.symm.trans invalid)
      · exact Bool.noConfusion (works.symm.trans failed)
      · omega
      · omega
  case retest =>
    exact fun s s1 c inp own fields taken setting zero => ⟨exec_retest_of_idle fields taken setting zero,
      exec_retest_of_testing fields taken setting zero⟩
  case window =>
    exact fun s s1 c inp taken => ⟨exec_repairWindowOpen_of_no_deck taken, fun d hd => exec_repairWindowOpen_of_dealer taken hd,
      fun d hd => exec_repairWindowOpen_of_member taken hd⟩
  case recover =>
    exact fun s s1 c inp own fields taken zero => ⟨fun d => exec_recover_of_domain fields taken zero,
      exec_recover_of_no_domain fields taken zero⟩

end Sys2Proof.Machine
end
